-- ==== Sys2Proof/Word.lean ====
section
/-! DEFINITION. The plain types of the model: bytes, status codes, and the operands that commands carry. -/
namespace Sys2Proof

abbrev Byte := BitVec 8

/-- Bits [lo + n - 1 : lo] of a raw little-endian value (the manual's [msb:lsb]). -/
def bits (w lo n : Nat) : Nat := (w >>> lo) % 2 ^ n

/-- One field set in a raw value, the other bits kept. -/
def setBits (w lo n v : Nat) : Nat :=
  w - (bits w lo n) * 2 ^ lo + (v % 2 ^ n) * 2 ^ lo

/-- The status codes of R373. -/
inductive Status where
  | ok | empty | retriedOk | preempted | staleGen
  | badArg | badHandle | outOfRange | notOwner | latchHeld | busyEmergency | versionMismatch | authFail | noSpace
  | dataError | disagree | missing | late | timeout | bankShut | staleStream | internal
deriving DecidableEq, Repr

/-- The value of a status code (R373). -/
def Status.code : Status → Nat
  | .ok => 0x00 | .empty => 0x01 | .retriedOk => 0x02 | .preempted => 0x03 | .staleGen => 0x04
  | .badArg => 0x10 | .badHandle => 0x11 | .outOfRange => 0x12 | .notOwner => 0x13 | .latchHeld => 0x14
  | .busyEmergency => 0x15 | .versionMismatch => 0x16 | .authFail => 0x17 | .noSpace => 0x18
  | .dataError => 0x20 | .disagree => 0x21 | .missing => 0x22 | .late => 0x23 | .timeout => 0x24
  | .bankShut => 0x25 | .staleStream => 0x26 | .internal => 0x30

/-- Which half a command reaches or names (0 or 1), and the time in ns since the command before it. -/
structure Ev where
  half : Nat
  dt : Nat
deriving DecidableEq, Repr

/-- Where a mailbox message came from (13, "Hosts command the MG9240 in two ways"; R396). -/
inductive Origin where
  | session (partner : Nat)   -- a control session of the port of the half named by the event
  | teller (vdi : Nat)
  | ring (pair : Nat)
deriving DecidableEq, Repr

/-- The header of a mailbox message (R387): its origin, tag, generation and VDI fields. -/
structure Msg where
  org : Origin
  tag : Nat
  gen : Nat
  vdi : Nat
deriving DecidableEq, Repr

/-- Opcode and tag of one message of a MAILBOX frame. -/
structure MsgHead where
  opcode : Nat
  tag : Nat
deriving DecidableEq, Repr

/-- A partner's control frame header (R378): the partner, its sequence numbers and the half it names. -/
structure FrameHdr where
  partner : Nat
  seq : Nat
  ack : Nat
  half : Nat
deriving DecidableEq, Repr

/-- What a command on an engine came from: a queue (package queue ID) or a window entry of the half. -/
inductive Work where
  | queue (q : Nat)
  | entry (n : Nat)
deriving DecidableEq, Repr

/-- A monitored clock (R491, R494). -/
inductive Clk where
  | tree (t : Nat) | core (p : Nat) | crystal | pll
deriving DecidableEq, Repr

/-- One clock of a failing monitor window, with its edge count (0: stopped). -/
structure ClkFail where
  clk : Clk
  count : Nat
deriving DecidableEq, Repr

/-- The comparator of a TRIP (R502, R327). -/
inductive TripSrc where
  | junction (sensor : Nat) | stack (s : Nat)
deriving DecidableEq, Repr

/-- A read outside a tile that meets a detected error (R120). -/
inductive ReadKind where
  | appLoad (hart : Nat) | window (vdi : Nat) | rmw (vdi : Nat) | hatch (tag : Nat)
deriving DecidableEq, Repr

/-- A master of the fabric as R28, R29, R343 and R473 tell masters apart. -/
inductive Master where
  | app (hart : Nat) | dma (p i : Nat) | steward | other
deriving DecidableEq, Repr

/-- A shuttered unit (R341). -/
inductive ShutUnit where
  | group (g : Nat) | core (p : Nat) | chan (c : Nat)
deriving DecidableEq, Repr

/-- One Tally's verdict (R267). -/
structure Verdict where
  status : Status
  failIndex : Nat
  failCount : Nat
deriving DecidableEq, Repr

/-- How the loss of the other half is detected (R286). -/
inductive LossCause where
  | goingDown | linkLoss | computeDown | vtAlarm
deriving DecidableEq, Repr

/-- Mint mark, issuing port and tag of a Hatch packet (R349). -/
structure Pkt where
  mark : Nat
  src : Nat
  tag : Nat
deriving DecidableEq, Repr

/-- The atomic operations of the RISC-V A extension (R356). -/
inductive AmoOp where
  | swap | add | xor | and | or | min | max | minu | maxu
deriving DecidableEq, Repr

/-- The lane to which a flit's failure is attributed, and the credit that it returns: pool and units (R346, R347). -/
structure FlitEnd where
  lane : Nat
  pool : Nat
  units : Nat
deriving DecidableEq, Repr

/-- Kind sequence and protocol release of a Hatch message (R349, R354). -/
structure MsgH where
  seq : Nat
  ver : Nat
deriving DecidableEq, Repr

/-- A CAN frame: id_kind (0 base, 1 extended, 2 XL), identifier, data and flags (R364, R370). -/
structure Frame where
  idKind : Nat
  id : Nat
  data : List Byte
  flags : Nat
deriving DecidableEq, Repr

/-- One ACF message of an IEEE 1722 frame (R369). -/
structure AcfMsg where
  known : Bool
  lenOk : Bool
  bus : Nat
  frame : Frame
deriving DecidableEq, Repr

/-- What is wrong with a malformed control frame (R382). -/
inductive BadFrame where
  | crc | magic | version | length | type
deriving DecidableEq, Repr

/-- The state that a kind 0x44 message carries (R354, R287, R360). -/
inductive GhState where
  | degraded | standby | ready | rejoin (step : Nat) | demoted | servo (lost : Bool)
deriving DecidableEq, Repr

/-- What a bin tile does with an attachment before its first primitive (R428). -/
inductive LoadOp where
  | load | clear (value : Nat) | dontCare
deriving DecidableEq, Repr

/-- An attachment of a render pass: where its pixel (0, 0) lies, bytes between its lines and of one sample, load operation, and whether its store operation
is STORE (R428). -/
structure RasAtt where
  base : Nat
  pitch : Nat
  bytes : Nat
  load : LoadOp
  store : Bool
deriving DecidableEq, Repr

/-- The depth and stencil formats of R427. -/
inductive ZFmt where
  | d32f | d24s8 | d32fs8
deriving DecidableEq, Repr

/-- Comparison of a depth or stencil test. -/
inductive RasCmp where
  | never | less | equal | lessEqual | greater | notEqual | greaterEqual | always
deriving DecidableEq, Repr

/-- What a stencil test does to the stencil value. -/
inductive StencilOp where
  | keep | zero | replace | incClamp | decClamp | invert | incWrap | decWrap
deriving DecidableEq, Repr

/-- Stencil state of one face. -/
structure StencilFace where
  cmp : RasCmp
  ref : Nat
  readMask : Nat
  writeMask : Nat
  fail : StencilOp
  depthFail : StencilOp
  pass : StencilOp
deriving DecidableEq, Repr

/-- A sparse texture: residency map, feedback bitmap, number of pages and border value (R430). -/
structure RasTex where
  map : Nat
  feedback : Nat
  pages : Nat
  border : Nat
deriving DecidableEq, Repr

/-- One sample of a texture: for each level that its filter uses, the pages of that level's footprint and then of each coarser level's (R431). -/
structure TexRead where
  tex : Nat
  levels : List (List (List Nat))
deriving DecidableEq, Repr

/-- What a level of a sample contributes: the texels of the level so many levels coarser (0: its own), or the border value (R431). -/
inductive TexAns where
  | level (coarser : Nat) | border (value : Nat)
deriving DecidableEq, Repr

/-- What a fragment shader gives: the samples that it keeps, a depth of its own, and a value for each colour attachment. -/
structure FragOut where
  mask : Nat
  depth : Option Nat
  colours : List Nat
deriving DecidableEq, Repr

/-- One fragment of a draw: primitive, pixel, its texture samples, and what its shader gives for each answer that they can have (R431). -/
structure RasFrag where
  prim : Nat
  x : Nat
  y : Nat
  reads : List TexRead
  outs : List (List (List TexAns) × FragOut)
deriving DecidableEq, Repr

/-- A shaded position: clip coordinates as FP32 bits (R427). -/
structure RasVtx where
  x : Nat
  y : Nat
  z : Nat
  w : Nat
deriving DecidableEq, Repr

/-- The topologies of input assembly (R427). -/
inductive RasTopo where
  | list | strip | fan
deriving DecidableEq, Repr

/-- Samples of one pixel that a primitive covers where the manual gives no rule for it (points, lines and positions that are not finite): depth by sample. -/
structure RasCover where
  prim : Nat
  x : Nat
  y : Nat
  depths : List (Option Nat)
deriving DecidableEq, Repr

/-- One draw of a render pass (R427). Vertices by index; the viewport's x, y, width, height and depth range as FP32 bits; a late draw tests after shading. -/
structure RasDraw where
  topo : RasTopo
  verts : Nat                    -- vertices of a primitive: 1, 2 or 3
  indexAddr : Option Nat         -- the index buffer; without one, vertices count from 0
  indexBytes : Nat
  count : Nat
  restart : Bool
  positions : List (Nat × RasVtx)
  viewport : List Nat
  cullBack : Bool
  frontCcw : Bool
  clampZ : Bool                  -- depth clamped to the range in place of near and far clipping
  depthCmp : Option RasCmp       -- none: no depth test
  depthWrite : Bool
  stencil : Option (StencilFace × StencilFace)   -- front and back
  late : Bool
  blend : List Nat               -- blend state of each colour attachment
  frags : List RasFrag
  covers : List RasCover
deriving DecidableEq, Repr

/-- The render pass that a draw stream holds, as the front end reads it, and what the manual leaves open of its run (R424): the shaders' results, the core of
the last bin, the time charged, and the bin at which a watchdog fires. -/
structure RenderRun where
  badAt : Option Nat             -- the stream offset that does not parse
  samples : Nat
  colours : List RasAtt
  depth : Option (ZFmt × RasAtt)
  texs : List RasTex
  draws : List RasDraw
  hung : Option Nat
  lastCore : Nat
  engineNs : Nat
deriving DecidableEq, Repr

/-- The header of a CSI-2 packet as a receiver takes it: the receiver, and whether its code corrected the header (R189, R191). -/
structure RxHdr where
  rx : Nat
  corrected : Bool
deriving DecidableEq, Repr

/-- An embedded-data line: its bytes, and whether its payload passed the CRC (R189). -/
structure EmbLine where
  data : List Byte
  crcOk : Bool
deriving DecidableEq, Repr

/-- Where a request at a memory port goes (R323), and what the controller there did since its last request: one choice for each request that it has
served, true where it took a row hit ahead of an older request (R332). -/
structure DramReq where
  pc : Nat
  bank : Nat
  row : Nat
  turns : List Bool
deriving DecidableEq, Repr

/-- The CRC that a pipe computed for one shown tell-tale slot (R440). -/
structure SlotCrc where
  slot : Nat
  crc : Nat
deriving DecidableEq, Repr

/-- An event of the 802.1AS servo (R503). -/
inductive ServoEv where
  | lock (gm : Nat) | rate (ppb : Int) | lost
deriving DecidableEq, Repr

/-- Privilege mode of a hart (R474). -/
inductive Priv where
  | u | s | hs | m
deriving DecidableEq, Repr

/-- What a hart saves at a vault entry: pc, the integer registers sp, gp, tp, ra, s0-s11, and its translation and privilege state (R475). -/
structure HartSave where
  pc : Nat
  regs : List Nat
  trans : Nat
  priv : Priv
deriving DecidableEq, Repr

/-- Every register of the manual, under its own name, in the order of the register tables (R137, R138, R188, R217, R218, R230, R254, R293,
R320, R345, R361, R372, R394, R401, R423, R443, R468, R490, R508). -/
inductive Reg where
  | TIL_ERR_CNT | TIL_HAZARD_CNT | TIL_MOVE_TS | TIL_MOVE_ST | TIL_MOVE_TD
  | TIL_MOVE_DT | TIL_CLEAR_STAT | STR_BANK_MAP | STR_BANK_ERR | STR_GROUP_STATE
  | STR_MOVE_CTL | STR_PATROL | STR_ZERO_STAT | STR_FREE | SIV_CMD_CNT
  | SIV_ERR_CNT | SIV_BUSY | SIV_LAST_NS | INT_RX_CFG | INT_RX_ERR_CNT
  | INT_STREAM_CFG | INT_STREAM_GEOM | INT_STREAM_CONV | INT_STREAM_BASE | INT_STALE_CFG
  | INT_STRIPE_CFG | INT_STREAM_STAT | INT_LINE_POS | INT_LINE_VT | INT_STREAM_CNT
  | INT_MARK_BASE | TEL_DB_TAIL | TEL_DB_HEAD | TEL_DB_CQ_TAIL | TEL_DB_CQ_HEAD
  | TEL_DB_STATE | TEL_DB_INFLIGHT | WIN_CTL | WIN_FRAME | WIN_PHASE
  | WIN_ACT_VT | WIN_STAT | WIN_JITTER | WIN_PART_CFG | WIN_PART_CORES
  | WIN_DISP_STAT | WIN_STALE_GEN | TLY_CTL | TLY_TASK_BASE | TLY_STAGING
  | TLY_AUDIT_CFG | TLY_VERDICT_CNT | TLY_FAULT_CNT | TLY_DISCARD_CNT | TLY_ASSAY_STAT
  | TLY_AUDIT_STAT | TLY_TASK_STATE | TLY_MODE_VT | SVC_REC_STAT | SVC_SPARE
  | SVC_DRAM | SVC_PC_RETIRED | SVC_PC_PENDING | SVC_HATCH | SVC_SOAK
  | MNT_CLASS_CFG | MNT_CLASS_PORTS | MNT_CLASS_EFF | MNT_CLASS_AGE | MNT_BUDGET
  | MNT_FB_CFG | MNT_MISS | MNT_BW_RD | MNT_BW_WR | MNT_SURPLUS
  | MNT_ECC | MNT_SHUT | MNT_CHAN_SHUT | MNT_INT | HTC_LINK
  | HTC_ERR_CNT | HTC_VIOL_LAST | HTC_SEM_STAT | HTC_VT_DIFF | GTW_CTL
  | GTW_OVF_BASE | GTW_STAT | GTW_DROP | GTW_STREAM_ERR | GTW_FWD_CNT
  | TEL_ID | TEL_GEN | TEL_STATE | TEL_NOTICE | TEL_NOTICE_EN
  | TEL_NOTICE_DETAIL | TEL_MBX_REQ | TEL_MBX_GO | TEL_MBX_STAT | TEL_MBX_REPLY
  | TEL_DMA_WIN | TEL_PORT_STAT | TEL_DP_CTL | TEL_DP_CNT | TEL_DP_ERR
  | TEL_VDI_STAT | DSP_PIPE_CTL | DSP_PIPE_TIMING0 | DSP_PIPE_TIMING1 | DSP_PIPE_LINK
  | DSP_PIPE_VT | DSP_PIPE_STAT | DSP_PLANE_POS | DSP_PLANE_FMT | DSP_PLANE_RING
  | DSP_FLIP_STAT | DSP_TT_STATE | DSP_TT_ERR | DSP_RAS_STAT | SVC_FW_STAT
  | SVC_FW_ACT | SVC_FW_CRASH | SVC_UFS_STAT | SVC_VAULT_STAT | SVC_VAULT_CNT
  | SVC_LIFECYCLE | CLK_GATE_OWNER | CLK_GATE_REFUSED | CLK_STAT | CLK_TRIM
  | CLK_MON | CLK_THERM | CLK_WAKE_STAT | CLK_RESET_CAUSE | CLK_VT_STAT
  | CLK_VT_OFFSET
deriving DecidableEq, Repr

end Sys2Proof
end

