-- ==== Sys2Proof/Syntax.lean ====
section
/-! DEFINITION. The commands of the block: one constructor per row of spec/opcode_table.json, in the table's order.
Every constructor carries an `Ev` (the half it concerns and the ns since the command before it) and the row's operands. -/
namespace Sys2Proof

inductive Instr where
  /-- POWER_GOOD_RISE (R513): The rising edge of PWRGOOD starts a power-on reset (P) and the boot chain of both halves. -/
  | powerGoodRise (e : Ev)
  /-- POWER_GOOD_FALL (R514): PWRGOOD falling resets both halves at once. -/
  | powerGoodFall (e : Ev)
  /-- PWRGOOD_MISMATCH_TIMEOUT (R514): The two halves' PWRGOOD balls have differed for more than 100 µs, so the package is held in reset until they agree. -/
  | pwrgoodMismatchTimeout (e : Ev)
  /-- RESET_N_LOW (R517): A low level of at least 1 µs on RESET_N requests a package warm reset (K). -/
  | resetNLow (e : Ev) (ns : Nat)
  /-- RESET_N_RELEASE (R517): Release of a held RESET_N ball lets the pending K proceed. -/
  | resetNRelease (e : Ev)
  /-- CRYSTAL_JUDGED_STABLE (R492): 65,536 crystal cycles counted without interruption judge the crystal stable. -/
  | crystalJudgedStable (e : Ev)
  /-- CRYSTAL_START_TIMEOUT (R492): The crystal is not judged stable within 10 ms of a rim start; the half stays in reset, asserts SERR_N and retries every 100 ms. -/
  | crystalStartTimeout (e : Ev)
  /-- PLL_JUDGED_LOCKED (R492): The root PLL's lock is judged stable, and firmware switches the trees from the crystal to the PLL. -/
  | pllJudgedLocked (e : Ev)
  /-- CLOCK_MONITOR_FAILURE (R494): Two consecutive failing 2 µs monitor windows on a clock assert the reset that the clock's domain names. -/
  | clockMonitorFailure (e : Ev) (fails : List ClkFail)
  /-- RC_OSCILLATOR_CHECK (R495): The steward's 1 ms comparison of the RC oscillator against the crystal; a ratio out of range requests an M. -/
  | rcOscillatorCheck (e : Ev) (ppm : Nat)
  /-- CORE_DIVIDER_CHANGE (R496): The steward changes a core's local divider at a tile boundary of that core. -/
  | coreDividerChange (e : Ev) (p : Nat) (div : Nat)
  /-- THERMAL_SENSOR_POLL (R501): The 1 ms junction sensor poll enters or leaves the WARN, TRIM and SHED stages. -/
  | thermalSensorPoll (e : Ev) (temps : List Int)
  /-- TRIM_STEP_TIMER (R501): Each further 1 s at or above 105 °C steps cores without critical duty to the next slower divider. -/
  | trimStepTimer (e : Ev)
  /-- THERMAL_TRIP (R502): A hardware TRIP comparator crossing requests an H of the half and holds its compute domain off until it cools. -/
  | thermalTrip (e : Ev) (src : TripSrc)
  /-- TRIP_COOLDOWN_RELEASE (R502): Every sensor that caused a TRIP reads 10 °C below its threshold, so the compute domain restarts. -/
  | tripCooldownRelease (e : Ev) (temps : List Int) (stackTemps : List Int)
  /-- DRAM_TEMPERATURE_POLL (R327): The 1 ms stack temperature read applies the DRAM WARN, SHED and TRIP stages. -/
  | dramTemperaturePoll (e : Ev) (t0 : Int) (t1 : Int)
  /-- PMBUS_POLL (R516): The 1 ms PMBus poll of the half's regulators raises or clears the supply alert. -/
  | pmbusPoll (e : Ev) (fault : Bool) (alertHigh : Bool)
  /-- VR_ALERT_N_LOW (R516): A regulator pulls VR_ALERT_N low and raises the supply alert. -/
  | vrAlertNLow (e : Ev)
  /-- EMERGENCY_CLEAR (R466): One second passes with no emergency cause, the emergency clears, and a deferred activation runs. -/
  | emergencyClear (e : Ev)
  /-- CAN_ROUTE_WAKE (R500): A CAN frame routed to a gateway queue wakes the package from PARK. -/
  | canRouteWake (e : Ev) (ctrl : Nat)
  /-- TC10_WAKE (R500): A TC10 wake-up on a control port wakes the package from PARK or SLEEP. -/
  | tc10Wake (e : Ev)
  /-- WAKE_INPUT_BALL (R500): A wake input ball wakes the package from PARK or SLEEP. -/
  | wakeInputBall (e : Ev) (ball : Nat)
  /-- PARK_ENTRY_COMPLETE (R499): PARK is reached after GOING_DOWN and self-refresh, and a latched wake then begins the exit. -/
  | parkEntryComplete (e : Ev)
  /-- SLEEP_ENTRY_COMPLETE (R515): SLEEP is reached and SLP_N goes low. -/
  | sleepEntryComplete (e : Ev)
  /-- CORE_RESET (R99): A core reset stops the core, drops its tile, zeroes its memories and requeues or completes its command. -/
  | coreReset (e : Ev) (p : Nat) (cause : Nat)
  /-- CORE_RESET_DONE (R99): A core reset completes within 50 µs and the core returns to service. -/
  | coreResetDone (e : Ev) (p : Nat)
  /-- HALF_COMPUTE_RESTART (R311): An H restarts the half's compute domain, drops its commands and disables its queues. -/
  | halfComputeRestart (e : Ev) (reason : Nat) (fwStopped : Bool)
  /-- HALF_RIM_RESTART (R313): An M restarts both domains of one half through the steps of R313. -/
  | halfRimRestart (e : Ev) (reason : Nat) (fwStopped : Bool)
  /-- PACKAGE_WARM_RESET (R504): A K restarts both halves. -/
  | packageWarmReset (e : Ev) (reason : Nat) (fwStopped : Bool)
  /-- GATEHOUSE_READY (R290): A restarted half's Gatehouse reports ready once its VT agrees within 1 µs, and rejoin begins. -/
  | gatehouseReady (e : Ev)
  /-- REJOIN_ACTIVATION (R290): When both halves report every rejoin assay passed, both activate their normal banks at one major-frame start. -/
  | rejoinActivation (e : Ev) (vt : Nat)
  /-- TEL_DB_TAIL_WRITE (R231): A doorbell tail write sets the producer index of a command ring, or is ignored and counted. -/
  | telDbTailWrite (e : Ev) (q : Nat) (v : Nat)
  /-- TEL_DB_CQ_HEAD_WRITE (R232): A completion-head write hands back completion records, or is ignored and counted. -/
  | telDbCqHeadWrite (e : Ev) (q : Nat) (v : Nat)
  /-- CORE_FREE_DISPATCH (R245): A core free at a tile boundary lets the arbiter choose and dispatch the next command. -/
  | coreFreeDispatch (e : Ev) (p : Nat)
  /-- CONTEXT_FETCH_DONE (R244): A context record and its handle set arrive in the context cache, so the controller may post its candidate. -/
  | contextFetchDone (e : Ev) (ctx : Nat)
  /-- CONTEXT_WRITE_BACK (R244): A changed cached context record is written back to DRAM within 10 ms or at eviction. -/
  | contextWriteBack (e : Ev) (ctx : Nat)
  /-- TILE_END (R91): A tile's last store ends, so the next tile, the epilogue or a pre-emption, switch or clear follows. -/
  | tileEnd (e : Ev) (p : Nat) (sched : List Nat)
  /-- TILE_WATCHDOG_FIRE (R94): A tile reaches its tile limit, is killed, and its command is requeued or completed with TIMEOUT. -/
  | tileWatchdogFire (e : Ev) (p : Nat)
  /-- DMA_DESCRIPTOR_END (R91): A core DMA descriptor ends and releases the phase it belongs to. -/
  | dmaDescriptorEnd (e : Ev) (p : Nat) (desc : Nat)
  /-- DMA_DESCRIPTOR_FAILURE (R92): A failed DMA descriptor drops its remaining rows and ends its command after the current tile. -/
  | dmaDescriptorFailure (e : Ev) (p : Nat) (desc : Nat) (st : Status)
  /-- DETECTED_MEMORY_ERROR (R119): A tile's read finds a detection-code or parity error, so the tile is re-run once or the command ends with DATA_ERROR. -/
  | detectedMemoryError (e : Ev) (p : Nat) (mem : Nat) (off : Nat)
  /-- NON_TILE_READ_ERROR (R120): A detected error in a read outside a tile faults the application-core load or fails the window transfer or Hatch read. -/
  | nonTileReadError (e : Ev) (who : ReadKind) (addr : Nat)
  /-- ROW_WRITE_LANDS (R112): A marked Till row's write lands, its mark returns to 0, and the waiting readers go on. -/
  | rowWriteLands (e : Ev) (p : Nat) (row : Nat)
  /-- TOKEN_BARRIER_PASS (R114): A Till-reading descriptor with a row token starts once no row bears that token. -/
  | tokenBarrierPass (e : Ev) (p : Nat) (desc : Nat)
  /-- PREEMPTION_REQUEST (R247): An eligible context without a free core makes the arbiter request pre-emption of a victim core. -/
  | preemptionRequest (e : Ev) (ctx : Nat)
  /-- GRAPHICS_SWITCH_REQUEST (R251): At S − (B + L_max + 3 µs) the owning controller requests the switch to graphics on the partition's cores. -/
  | graphicsSwitchRequest (e : Ev) (part : Nat)
  /-- MODE_SWITCH_DONE (R98): A compute–graphics switch completes within 3 µs and the first warp of the new mode issues. -/
  | modeSwitchDone (e : Ev) (p : Nat)
  /-- WAIT_LOCAL_EVALUATION (R237): A fence signal or the 10 µs poll re-evaluates a local WAIT, which completes OK when its fence word is reached. -/
  | waitLocalEvaluation (e : Ev) (q : Nat)
  /-- WAIT_LIMIT_EXPIRY (R236): A WAIT still unmet after wait_limit_ms completes with TIMEOUT. -/
  | waitLimitExpiry (e : Ev) (q : Nat)
  /-- REMOTE_WATCH_REPEAT (R239): The requester repeats a remote watch request every 1 ms until a reply arrives. -/
  | remoteWatchRepeat (e : Ev) (q : Nat)
  /-- REMOTE_WATCH_REPLY (R239): A watch reply arrives; a current one completes the WAIT, a stale one is discarded and counted. -/
  | remoteWatchReply (e : Ev) (q : Nat) (gen : Nat) (idx : Nat)
  /-- ROW_CONDITION_EVALUATION (R204): A row condition is evaluated at queue head or window start, after an awaited mark write, or at the 10 µs poll. -/
  | rowConditionEvaluation (e : Ev) (w : Work)
  /-- LAG_LIMIT_EXPIRY (R206): A halo condition's lag clock reaches the stream's lag limit, so the fallback runs or the command times out. -/
  | lagLimitExpiry (e : Ev) (w : Work)
  /-- WINDOW_PRE_ARM (R224): One µs before a COMMAND instance, the sequencer pre-arms the core with a tenant clear and handle load. -/
  | windowPreArm (e : Ev) (n : Nat)
  /-- WINDOW_INSTANCE_START (R224): A window instance starts: the condition is evaluated and the command dispatched, or the instance is skipped when the engine is busy. -/
  | windowInstanceStart (e : Ev) (n : Nat)
  /-- WINDOW_INSTANCE_END_UNMET (R224): An instance that ends with its condition unmet completes with TIMEOUT, cause 0x5. -/
  | windowInstanceEndUnmet (e : Ev) (n : Nat)
  /-- BANK_ACTIVATION_VT (R223): A validated pending window bank becomes active at its stated VT. -/
  | bankActivationVt (e : Ev)
  /-- MAJOR_FRAME_END_DISABLE (R255): A cleared WIN_CTL.enable takes effect at the end of the current major frame. -/
  | majorFrameEndDisable (e : Ev)
  /-- DISPATCH_WATCHDOG (R444): A dispatch controller misses its 1 ms kick and restarts from the active dispatch copy. -/
  | dispatchWatchdog (e : Ev) (d : Nat)
  /-- DISPATCH_RESTART_DONE (R253): A restarted dispatch controller rebuilds its state from the hardware and resumes dispatch. -/
  | dispatchRestartDone (e : Ev) (d : Nat)
  /-- STEWARD_WATCHDOG (R444): The steward misses its kick and restarts; its executing message is answered INTERNAL. -/
  | stewardWatchdog (e : Ev)
  /-- STEWARD_RESTART_DONE (R445): The restarted steward resumes service from the rim-SRAM queues. -/
  | stewardRestartDone (e : Ev)
  /-- LOCKSTEP_MISMATCH (R274): A Gatehouse lockstep mismatch or a missed kick resets the Gatehouse controller while the Tally runs on. -/
  | lockstepMismatch (e : Ev)
  /-- SIEVE_COMMAND_START (R186): The Sieve starts a window or queue command after the checks of R174. -/
  | sieveCommandStart (e : Ev) (w : Work)
  /-- SIEVE_COMMAND_END (R182): A Sieve run writes its records, header and completion and signals its fence. -/
  | sieveCommandEnd (e : Ev)
  /-- SIEVE_DATA_ERROR (R183): A detected error in a Sieve read drops the run and re-runs it once. -/
  | sieveDataError (e : Ev)
  /-- SIEVE_WATCHDOG (R185): A Sieve run exceeds its bound plus 10 µs and completes with TIMEOUT. -/
  | sieveWatchdog (e : Ev)
  /-- PATROL_ROW_READ (R121): The patrol reader reads a Strongroom row in an idle bank cycle, rewriting or reporting errors. -/
  | patrolRowRead (e : Ev) (row : Nat) (err : Bool)
  /-- STRONGROOM_BANK_RETIRE (R122): 8 errors in one bank within 1 h retire it to a spare, starting a move. -/
  | strongroomBankRetire (e : Ev) (bank : Nat)
  /-- BANK_MOVE_DONE (R129): The last row of a bank move is copied, the map switches to the spare, and the old bank shuts. -/
  | bankMoveDone (e : Ev) (badRows : List Nat)
  /-- GROUP_WITHDRAWAL (R305): A fifth bank retirement withdraws the group, shuts it and re-places device regions. -/
  | groupWithdrawal (e : Ev) (g : Nat)
  /-- GRANULE_ZEROED (R528): The zero engine finishes zeroing a freed granule and returns it to the free pool, granting a waiting allocation. -/
  | granuleZeroed (e : Ev)
  /-- SHUTTER_CLOSE (R342): The steward closes a unit's door, drains its writes and powers it off, or aborts after 2 µs. -/
  | shutterClose (e : Ev) (unit : ShutUnit)
  /-- SHUTTER_DRAIN_TIMEOUT (R342): Writes not drained within 2 µs abort the shutter, which is retried after 1 ms. -/
  | shutterDrainTimeout (e : Ev) (unit : ShutUnit)
  /-- SHUT_DOOR_REFUSAL (R343): A request that reaches a closed door is dropped with BANK_SHUT. -/
  | shutDoorRefusal (e : Ev) (unit : ShutUnit) (who : Master)
  /-- GROUP_REOPEN_DONE (R128): A shuttered Strongroom group reopens within 20 µs, reading as zero. -/
  | groupReopenDone (e : Ev) (g : Nat)
  /-- MODEL_LOAD_DONE (R132): A model-cache entry finishes loading, becomes RESIDENT and releases its waiting commands. -/
  | modelLoadDone (e : Ev) (key : Nat) (vdi : Nat)
  /-- LONG_PACKET (R191): A CSI-2 long packet is placed by count, checked, converted and written as a line. -/
  | longPacket (e : Ev) (rx : Nat) (vc : Nat) (dt : Nat) (px : List Nat) (crcOk : Bool) (corrected : Bool)
  /-- FRAME_START (R197): An FS short packet opens a frame, advances the sequence and runs the interval and counter checks. -/
  | frameStart (e : Ev) (hd : RxHdr) (vc : Nat) (frameNo : Nat)
  /-- FRAME_END (R199): An FE short packet closes the frame, marks absent rows and writes the frame record. -/
  | frameEnd (e : Ev) (hd : RxHdr) (vc : Nat)
  /-- FRAME_CLOSE_TIMEOUT (R199): VT reaches the FS stamp plus 1.5 × nominal_ns, so the frame closes by timeout. -/
  | frameCloseTimeout (e : Ev) (slot : Nat)
  /-- EMBEDDED_DATA_LINE (R211): The first embedded-data line carries the counter checked with counter_src = 1. -/
  | embeddedDataLine (e : Ev) (hd : RxHdr) (vc : Nat) (line : EmbLine)
  /-- CHANNEL_RESULT_DELIVERED (R262): A delivering instance's final completion copies the result, or its absence, into both halves' staging slots. -/
  | channelResultDelivered (e : Ev) (n : Nat)
  /-- ROUND_DUE_TIME (R266): A round's due time passes without a result, so the verdict is LATE. -/
  | roundDueTime (e : Ev) (task : Nat) (round : Nat)
  /-- TALLY_JUDGEMENT (R264): The Tally judges a round whose both results or statuses are present. -/
  | tallyJudgement (e : Ev) (task : Nat) (round : Nat)
  /-- VERDICT_EXCHANGE (R267): The other Tally's verdict arrives, and the speaker writes the verdict record or both write INTERNAL. -/
  | verdictExchange (e : Ev) (task : Nat) (round : Nat) (v : Verdict)
  /-- VERDICT_EXCHANGE_TIMEOUT (R267): No verdict from the other Tally within 2 µs, so the Tally degrades or writes INTERNAL. -/
  | verdictExchangeTimeout (e : Ev) (task : Nat) (round : Nat)
  /-- LATE_RESULT_DISCARD (R266): A result that arrives after its round was judged is dropped and counted. -/
  | lateResultDiscard (e : Ev) (task : Nat) (round : Nat)
  /-- LOCATING_SEARCH_STEP (R271): The Gatehouse hands a core's duty to its spare and runs the channel's assay. -/
  | locatingSearchStep (e : Ev) (task : Nat)
  /-- ASSAY_DUE (R276): A channel's assay interval expires and its assay is scheduled. -/
  | assayDue (e : Ev) (task : Nat) (ch : Nat)
  /-- ASSAY_VERDICT (R279): An assay round is judged; a failure sends the task to LOCATING. -/
  | assayVerdict (e : Ev) (task : Nat) (round : Nat)
  /-- AUDIT_DUE (R280): The next core's audit falls due every interval / 136 and is placed or postponed. -/
  | auditDue (e : Ev)
  /-- AUDIT_DONE (R284): A core's 400 µs self-test ends; a failure retires the core. -/
  | auditDone (e : Ev) (p : Nat) (fail : Bool) (block : Nat)
  /-- AUDIT_OVERDUE (R283): An audit that would become overdue takes a SLOT instance, or is recorded after two intervals. -/
  | auditOverdue (e : Ev) (p : Nat)
  /-- DUTY_HANDOVER (R281): At an instance boundary a core's critical duty passes to its group's spare, or returns. -/
  | dutyHandover (e : Ev) (p : Nat)
  /-- DEGRADED_ENTRY (R286): Detection of the other half's loss activates the degraded standby bank at the next frame start. -/
  | degradedEntry (e : Ev) (cause : LossCause)
  /-- SERR_HB_CHECK (R287): 3 ms after a link loss, a still-toggling SERR_HB makes half 1 yield. -/
  | serrHbCheck (e : Ev) (toggling : Bool)
  /-- YIELD_HALF (R287): The yielding half stops its instances, sends GOING_DOWN with reason 0x11, and requests an M. -/
  | yieldHalf (e : Ev)
  /-- FLIT_RECEIVE (R347): A flit is corrected and checked; on failure, replay from the failed sequence is requested. -/
  | flitReceive (e : Ev) (module : Nat) (ok : Bool) (corrected : Bool) (seq : Nat) (tail : FlitEnd)
  /-- HATCH_LANE_REPAIR (R306): 16 replays attributed to one lane within 1 s repair the lane within its module. -/
  | hatchLaneRepair (e : Ev) (module : Nat) (lane : Nat)
  /-- HATCH_MODULE_FAILOVER (R306): A failed module's place is taken by the spare module. -/
  | hatchModuleFailover (e : Ev) (module : Nat)
  /-- HATCH_LINK_LOSS (R348): No valid flit for 2 µs declares the Hatch link lost. -/
  | hatchLinkLoss (e : Ev)
  /-- HATCH_LINK_TRAINING (R358): Link training exchanges releases and brings the link up at the lower protocol, or refuses it. -/
  | hatchLinkTraining (e : Ev) (peerRelease : Nat) (ok : Bool)
  /-- HATCH_VIOLATION (R360): A received packet violation is dropped and counted, and repeats demote or drop the link. -/
  | hatchViolation (e : Ev) (code : Nat) (type : Nat) (tag : Nat)
  /-- MWR (R350): A posted write packet from the other half is carried to its target port. -/
  | mWrite (e : Ev) (k : Pkt) (addr : Nat) (data : List Byte)
  /-- MRD (R350): A read packet from the other half is served and answered with CPL. -/
  | mRead (e : Ev) (k : Pkt) (addr : Nat) (len : Nat)
  /-- AMO (R356): A remote atomic runs at the home bridge as one read-modify-write. -/
  | amo (e : Ev) (k : Pkt) (op : AmoOp) (addr : Nat) (width : Nat) (val : Nat)
  /-- LR (R357): A load-reserved takes a semaphore-bank entry for its hart and granule. -/
  | loadReserved (e : Ev) (k : Pkt) (hart : Nat) (addr : Nat) (width : Nat)
  /-- SC (R357): A store-conditional writes and succeeds only while its entry is still held. -/
  | storeConditional (e : Ev) (k : Pkt) (hart : Nat) (addr : Nat) (width : Nat) (val : Nat)
  /-- SEMAPHORE_ENTRY_EXPIRY (R357): A semaphore-bank entry expires 10 µs after it was taken. -/
  | semaphoreEntryExpiry (e : Ev) (idx : Nat)
  /-- CPL (R350): A completion with data returns to the requester. -/
  | cpl (e : Ev) (tag : Nat) (data : List Byte)
  /-- CPL_ST (R350): A completion without data returns its status to the requester. -/
  | cplSt (e : Ev) (tag : Nat) (st : Status)
  /-- RES_WR (R354): A result write copies result data into the staging region. -/
  | resWr (e : Ev) (addr : Nat) (data : List Byte)
  /-- MSG_INTERRUPT (R354): Message kind 0x01 raises an interrupt in an application-core interrupt file of the other half. -/
  | msgInterrupt (e : Ev) (x : MsgH) (hart : Nat) (ident : Nat)
  /-- MSG_QUEUE_COMPLETION_IRQ (R354): Message kind 0x02 raises a queue completion interrupt for a VDI hosted on the other half. -/
  | msgQueueCompletionIrq (e : Ev) (x : MsgH) (q : Nat)
  /-- MSG_REMOTE_WATCH_REQUEST (R354): Message kind 0x03 asks the other half's dispatch firmware to watch a fence word. -/
  | msgRemoteWatchRequest (e : Ev) (x : MsgH) (q : Nat) (gen : Nat) (idx : Nat) (addr : Nat) (val : Nat)
  /-- MSG_REMOTE_WATCH_REPLY (R354): Message kind 0x04 carries a remote watch reply. -/
  | msgRemoteWatchReply (e : Ev) (x : MsgH) (q : Nat) (gen : Nat) (idx : Nat)
  /-- MSG_GATEWAY_FRAME (R354): Message kind 0x05 carries a gateway frame to a destination on the other half. -/
  | msgGatewayFrame (e : Ev) (x : MsgH) (f : Frame) (dst : Nat)
  /-- MSG_CONTROL_RELAY (R354): Message kind 0x06 carries a control-port frame relayed for a retired port. -/
  | msgControlRelay (e : Ev) (x : MsgH) (frag : List Byte)
  /-- RES_MSG_RESULT (R354): Message kind 0x40 reports a delivered result or an absent channel. -/
  | resMsgResult (e : Ev) (x : MsgH) (task : Nat) (ch : Nat) (round : Nat) (st : Status)
  /-- RES_MSG_VERDICT (R354): Message kind 0x41 exchanges the Tally verdict. -/
  | resMsgVerdict (e : Ev) (x : MsgH) (task : Nat) (round : Nat) (v : Verdict)
  /-- VT_COMPARE (R355): A 125 µs VT compare message updates the VT difference and sets the alarm above 1 µs. -/
  | vtCompare (e : Ev) (x : MsgH) (peerVt : Nat)
  /-- RES_MSG_GOING_DOWN (R354): Message kind 0x43 announces that the other half is going down. -/
  | resMsgGoingDown (e : Ev) (x : MsgH) (kind : Nat) (reason : Nat) (vt : Nat)
  /-- RES_MSG_GATEHOUSE_STATE (R354): Message kind 0x44 carries the Gatehouse state or the servo state. -/
  | resMsgGatehouseState (e : Ev) (x : MsgH) (st : GhState)
  /-- RES_MSG_REPAIR_NOTICE (R354): Message kind 0x45 carries a repair or version notice. -/
  | resMsgRepairNotice (e : Ev) (x : MsgH) (release : Nat)
  /-- CAN_FRAME_RECEIVE (R371): A frame at a CAN endpoint is looked up and forwarded to every destination of its route. -/
  | canFrameReceive (e : Ev) (bus : Nat) (f : Frame)
  /-- STREAM_INGRESS (R369): An IEEE 1722 frame on a stream slot is unpacked and its messages routed. -/
  | streamIngress (e : Ev) (slot : Nat) (seqNum : Nat) (msgs : List AcfMsg)
  /-- STREAM_EGRESS_HOLD_EXPIRY (R368): The hold time of an egress stream slot runs out and its packed frame is sent. -/
  | streamEgressHoldExpiry (e : Ev) (slot : Nat)
  /-- GATEWAY_QUEUE_DOORBELL (R370): A gateway queue doorbell submits a frame for routing. -/
  | gatewayQueueDoorbell (e : Ev) (gq : Nat) (f : Frame)
  /-- BUS_OFF_RECOVERY (R362): A bus-off controller recovers after 128 × 11 recessive bits. -/
  | busOffRecovery (e : Ev) (ctrl : Nat)
  /-- HELLO (R380): A HELLO frame opens or resets a control session. -/
  | hello (e : Ev) (partner : Nat) (seq : Nat) (pid : Nat)
  /-- MAILBOX (R389): A MAILBOX frame queues its messages for execution in sequence. -/
  | mailbox (e : Ev) (hd : FrameHdr) (msgs : List MsgHead)
  /-- REG_READ (R379): A REG_READ frame reads Teller registers of a named VDI. -/
  | regRead (e : Ev) (hd : FrameHdr) (vdi : Nat) (off : Nat) (count : Nat)
  /-- REG_WRITE (R379): A REG_WRITE frame writes Teller registers of a named VDI. -/
  | regWrite (e : Ev) (hd : FrameHdr) (vdi : Nat) (off : Nat) (vals : List Nat)
  /-- DATA_WRITE (R379): A DATA_WRITE frame writes bytes into the session's staging buffer. -/
  | dataWrite (e : Ev) (hd : FrameHdr) (off : Nat) (data : List Byte)
  /-- DATA_READ (R379): A DATA_READ frame returns staging bytes in a DATA frame. -/
  | dataRead (e : Ev) (hd : FrameHdr) (off : Nat) (len : Nat)
  /-- RING (R399): A partner RING frame writes request slots of ring pair 0 and advances req_tail. -/
  | ringFrame (e : Ev) (hd : FrameHdr) (index : Nat) (slots : List Nat)
  /-- PEER_WATCH (R402): A PEER_WATCH on a data port asks this package to watch a fence word. -/
  | peerWatch (e : Ev) (src : Nat) (q : Nat) (gen : Nat) (idx : Nat) (addr : Nat) (val : Nat) (rpeer : Nat)
  /-- PEER_REPLY (R402): A PEER_REPLY on a data port answers a peer fence watch. -/
  | peerReply (e : Ev) (src : Nat) (q : Nat) (gen : Nat) (idx : Nat)
  /-- MALFORMED_FRAME (R382): A malformed control frame is dropped or NAKed and counted. -/
  | malformedFrame (e : Ev) (partner : Nat) (kind : BadFrame)
  /-- MALFORMED_BLOCK_EXPIRY (R382): The 1 s drop period after 64 malformed frames from one partner ends. -/
  | malformedBlockExpiry (e : Ev) (partner : Nat)
  /-- SESSION_IDLE_TIMEOUT (R380): A session with no partner frame for 1 s closes. -/
  | sessionIdleTimeout (e : Ev) (partner : Nat)
  /-- HEARTBEAT (R383): Every 1 ms each port sends a HEARTBEAT to every open session. -/
  | heartbeat (e : Ev)
  /-- LATCH_LEASE_EXPIRY (R386): The Latch lease expires, freeing the Latch and discarding uncommitted configuration. -/
  | latchLeaseExpiry (e : Ev)
  /-- CONTROL_PORT_RETIRE (R309): A control port that lost its link three times or failed its self-test is retired, and its traffic moves to the other port. -/
  | controlPortRetire (e : Ev) (selfTestFail : Bool)
  /-- LATCH_TAKE (R386): Takes the free Latch and starts a 100 ms lease. -/
  | latchTake (e : Ev) (m : Msg) (pid : Nat)
  /-- LATCH_RENEW (R386): Restarts the holder's lease. -/
  | latchRenew (e : Ev) (m : Msg)
  /-- LATCH_RELEASE (R386): Frees the Latch. -/
  | latchRelease (e : Ev) (m : Msg)
  /-- LATCH_QUERY (R391): Returns the Latch state. -/
  | latchQuery (e : Ev) (m : Msg)
  /-- DEV_INFO (R391): Returns releases, ordering code, lifecycle and the states of both halves. -/
  | devInfo (e : Ev) (m : Msg)
  /-- STATS_READ (R392): Returns register words of a block, optionally clearing rc fields. -/
  | statsRead (e : Ev) (m : Msg) (block : Nat) (clear : Bool) (unit : Nat) (reg : Nat) (index : Nat) (count : Nat)
  /-- INCIDENT_READ (R525): Copies incident records from a given seq into dst. -/
  | incidentRead (e : Ev) (m : Msg) (first : Nat) (count : Nat) (dst : Nat)
  /-- ACCOUNT_READ (R391): Copies a context's accounting record to dst. -/
  | accountRead (e : Ev) (m : Msg) (ctx : Nat) (dst : Nat)
  /-- WIN_WRITE (R391): Writes window entries into the inactive bank. -/
  | winWrite (e : Ev) (m : Msg) (first : Nat) (count : Nat) (src : Nat)
  /-- WIN_ACTIVATE (R223): Validates the inactive bank and its tasks, and schedules activation at a VT. -/
  | winActivate (e : Ev) (m : Msg) (vt : Nat) (standby : Bool)
  /-- WIN_FRAME (R222): Sets the major frame length and phase. -/
  | winFrame (e : Ev) (m : Msg) (length : Nat) (phase : Nat)
  /-- PART_WRITE (R254): Writes a partition record and its core set. -/
  | partWrite (e : Ev) (m : Msg) (part : Nat) (cfg : Nat) (cores : Nat)
  /-- TASK_WRITE (R259): Writes a task record. -/
  | taskWrite (e : Ev) (m : Msg) (task : Nat) (src : Nat)
  /-- TLY_CFG (R293): Writes the Tally base, staging, audit and enable settings. -/
  | tlyCfg (e : Ev) (m : Msg) (base : Nat) (staging : Nat) (audit : Nat) (enable : Bool)
  /-- WIN_ENABLE_SET (R255): Starts the active bank at the first major-frame start at or after the named VT. -/
  | winEnableSet (e : Ev) (m : Msg) (vt : Nat)
  /-- WIN_ENABLE_CLEAR (R255): Stops the sequencer at the end of the current major frame. -/
  | winEnableClear (e : Ev) (m : Msg)
  /-- MNT_SHADOW (R338): Writes a class setting into the Mint shadow set. -/
  | mntShadow (e : Ev) (m : Msg) (cls : Nat) (cfg : Nat) (ports : Nat)
  /-- MNT_COMMIT (R338): Checks and commits the shadow class set to all ports. -/
  | mntCommit (e : Ev) (m : Msg)
  /-- MNT_FB (R334): Writes the throttle threshold and hysteresis. -/
  | mntFb (e : Ev) (m : Msg) (cfg : Nat)
  /-- STR_ALLOC (R528): Grants a contiguous run of Strongroom granules. -/
  | strAlloc (e : Ev) (m : Msg) (count : Nat) (group : Nat)
  /-- STR_FREE (R528): Frees a run of granules to the zero engine. -/
  | strFree (e : Ev) (m : Msg) (off : Nat) (count : Nat)
  /-- CACHE_SIZE (R130): Sets the size of the model cache region. -/
  | cacheSize (e : Ev) (m : Msg) (count : Nat)
  /-- MODEL_LOAD (R132): Loads a Bluko image into the model cache. -/
  | modelLoad (e : Ev) (m : Msg) (key : Nat) (src : Nat) (size : Nat)
  /-- MODEL_PIN (R133): Pins a model-cache entry. -/
  | modelPin (e : Ev) (m : Msg) (key : Nat)
  /-- MODEL_UNPIN (R133): Unpins a model-cache entry. -/
  | modelUnpin (e : Ev) (m : Msg) (key : Nat)
  /-- STR_PATROL (R255): Enables or disables the patrol reader. -/
  | strPatrol (e : Ev) (m : Msg) (enable : Bool)
  /-- RX_CFG (R216): Configures a CSI-2 receiver. -/
  | rxCfg (e : Ev) (m : Msg) (rx : Nat) (cfg : Nat)
  /-- STREAM_CFG (R216): Configures a stream slot, effective at its next FS, or closes it at once when disabled. -/
  | streamCfg (e : Ev) (m : Msg) (slot : Nat) (src : Nat)
  /-- ROUTE_WRITE (R366): Places gateway routes in the hardware table or in overflow. -/
  | routeWrite (e : Ev) (m : Msg) (count : Nat) (src : Nat)
  /-- ROUTE_DELETE (R391): Deletes gateway routes by key. -/
  | routeDelete (e : Ev) (m : Msg) (count : Nat) (src : Nat)
  /-- FANOUT_WRITE (R365): Writes fan-out entries. -/
  | fanoutWrite (e : Ev) (m : Msg) (first : Nat) (count : Nat) (src : Nat)
  /-- GTW_CFG (R372): Writes GTW_CTL and the overflow table base, re-placing routes on a seed change. -/
  | gtwCfg (e : Ev) (m : Msg) (ctl : Nat) (ovf : Nat)
  /-- SLOT_CFG (R368): Configures a gateway stream slot. -/
  | slotCfg (e : Ev) (m : Msg) (slot : Nat) (src : Nat)
  /-- PORT_CFG (R376): Sets the control ports' UDP port and IP addresses. -/
  | portCfg (e : Ev) (m : Msg) (udp : Nat) (ip4 : Nat) (pfx4 : Nat) (pfx6 : Nat) (ip6 : Nat)
  /-- QBV_WRITE (R400): Writes a data port's gate control list. -/
  | qbvWrite (e : Ev) (m : Msg) (port : Nat) (count : Nat) (cycle : Nat) (base : Nat) (src : Nat)
  /-- PEER_FENCE_WRITE (R238): Writes peer fence table entries. -/
  | peerFenceWrite (e : Ev) (m : Msg) (first : Nat) (count : Nat) (src : Nat)
  /-- PEER_LIST_WRITE (R402): Writes peer list entries. -/
  | peerListWrite (e : Ev) (m : Msg) (first : Nat) (count : Nat) (src : Nat)
  /-- VDI_CREATE (R405): Creates a VDI from its configuration. -/
  | vdiCreate (e : Ev) (m : Msg) (vdi : Nat) (profile : Nat) (mark : Nat) (src : Nat)
  /-- VDI_RESET (R412): Performs a VDI function reset. -/
  | vdiReset (e : Ev) (m : Msg)
  /-- VDI_REMOVE (R413): Resets and releases a VDI. -/
  | vdiRemove (e : Ev) (m : Msg) (vdi : Nat)
  /-- LOG_START (R416): Starts dirty-page logging; the VDI becomes MIGRATING. -/
  | logStart (e : Ev) (m : Msg) (vdi : Nat) (src : Nat)
  /-- LOG_SWAP (R418): Swaps the dirty-page bitmap buffers at one FAB cycle. -/
  | logSwap (e : Ev) (m : Msg) (vdi : Nat)
  /-- QUIESCE (R419): Suspends the VDI's queues, raises generations and makes a final swap. -/
  | quiesce (e : Ev) (m : Msg) (vdi : Nat)
  /-- EXPORT (R420): Writes the migration image. -/
  | exportImage (e : Ev) (m : Msg) (vdi : Nat) (src : Nat)
  /-- IMPORT (R421): Creates the VDI on the target from a migration image. -/
  | importImage (e : Ev) (m : Msg) (vdi : Nat) (src : Nat)
  /-- RESUME (R416): Restores exported queue states on the target and makes the VDI ACTIVE. -/
  | resumeVdi (e : Ev) (m : Msg) (vdi : Nat)
  /-- ABORT (R416): Stops logging and resumes the source, or removes the imported VDI on the target. -/
  | abortMigration (e : Ev) (m : Msg) (vdi : Nat)
  /-- RELEASE (R416): Removes the migrated VDI from the source. -/
  | releaseVdi (e : Ev) (m : Msg) (vdi : Nat)
  /-- CTX_WRITE (R408): Writes a context record and copies its checked handle set. -/
  | ctxWrite (e : Ev) (m : Msg) (ctx : Nat) (src : Nat)
  /-- QUEUE_WRITE (R229): Writes the record of a DISABLED queue. -/
  | queueWrite (e : Ev) (m : Msg) (q : Nat) (src : Nat)
  /-- QUEUE_ENABLE (R235): Enables a queue, zeroing its indices. -/
  | queueEnable (e : Ev) (m : Msg) (q : Nat)
  /-- QUEUE_SUSPEND (R235): Suspends a queue; running commands leave at tile boundaries. -/
  | queueSuspend (e : Ev) (m : Msg) (q : Nat)
  /-- QUEUE_RESUME (R235): Resumes dispatch of a suspended queue. -/
  | queueResume (e : Ev) (m : Msg) (q : Nat)
  /-- QUEUE_DISABLE (R235): Disables a queue, dropping its work and raising its generation. -/
  | queueDisable (e : Ev) (m : Msg) (q : Nat)
  /-- LATE_ARRIVAL_DISCARD (R411): A completion, fence or interrupt with an old generation is discarded and counted. -/
  | lateArrivalDiscard (e : Ev) (q : Nat) (gen : Nat)
  /-- SVC_READ (R391): Copies bytes of the service record to dst. -/
  | svcRead (e : Ev) (m : Msg) (off : Nat) (bytes : Nat) (dst : Nat)
  /-- SVC_REBUILD (R300): Rebuilds a half's service record while none is valid. -/
  | svcRebuild (e : Ev) (m : Msg) (badCores : List Nat) (badBanks : List Nat)
  /-- PORT_RESTORE (R302): Restores a retired control port after its self-test. -/
  | portRestore (e : Ev) (m : Msg) (passes : Bool)
  /-- HALF_RESTART_H (R314): Requests an H of one half. -/
  | halfRestartH (e : Ev) (m : Msg) (half : Nat)
  /-- HALF_RESTART_M (R314): Requests an M of one half. -/
  | halfRestartM (e : Ev) (m : Msg) (half : Nat)
  /-- FW_WRITE (R450): Writes package bytes into the inactive firmware slot, and verifies and stages a complete package. -/
  | fwWrite (e : Ev) (m : Msg) (off : Nat) (bytes : Nat) (src : Nat)
  /-- FW_ACTIVATE (R456): Checks and activates staged firmware components in order. -/
  | fwActivate (e : Ev) (m : Msg) (mask : Nat)
  /-- FW_COMMIT (R315): Raises the anti-rollback counters to the new release. -/
  | fwCommit (e : Ev) (m : Msg)
  /-- FW_WITHDRAW (R467): Cancels a deferred activation. -/
  | fwWithdraw (e : Ev) (m : Msg)
  /-- ATTEST (R486): Writes a signed attestation report for the half. -/
  | attest (e : Ev) (m : Msg) (nonce : Nat) (dst : Nat)
  /-- DSP_CFG_PIPE (R436): Configures a display pipe and its planes, effective at its next S. -/
  | dspCfgPipe (e : Ev) (m : Msg) (pipe : Nat) (src : Nat)
  /-- DSP_CFG_TELLTALE (R436): Writes the tell-tale slot states of a pipe. -/
  | dspCfgTelltale (e : Ev) (m : Msg) (pipe : Nat) (src : Nat)
  /-- POWER_REQ_RUN (R500): Wakes the package from PARK. -/
  | powerReqRun (e : Ev) (m : Msg)
  /-- POWER_REQ_PARK (R499): Checks and enters PARK. -/
  | powerReqPark (e : Ev) (m : Msg)
  /-- POWER_REQ_SLEEP (R499): Checks and enters SLEEP. -/
  | powerReqSleep (e : Ev) (m : Msg)
  /-- UNKNOWN_OPCODE (R390): A mailbox opcode not listed replies BAD_ARG. -/
  | unknownOpcode (e : Ev) (m : Msg) (opcode : Nat)
  /-- TEL_MBX_GO (R395): A Teller GO write sends the request message, or is ignored while busy. -/
  | telMbxGo (e : Ev) (vdi : Nat)
  /-- TELLER_MAILBOX_REPLY (R394): A Teller request completes, its reply is placed, and done is set. -/
  | tellerMailboxReply (e : Ev) (vdi : Nat)
  /-- REQ_TAIL_WRITE (R397): A service-ring req_tail write makes the steward execute the new request slots. -/
  | reqTailWrite (e : Ev) (pair : Nat) (tail : Nat)
  /-- REGISTER_WRITE (R12): A write to a register without a row of its own sets, ignores or w1c-clears fields. -/
  | registerWrite (e : Ev) (who : Master) (reg : Reg) (unit : Nat) (index : Nat) (word : Nat) (val : Nat)
  /-- RENDER (R424): A render descriptor is checked and its binning and rendering passes run. -/
  | render (e : Ev) (q : Nat) (run : RenderRun)
  /-- VERTICAL_BLANK (R438): At S each pipe reads its flip rings and latches, repeats or drops entries. -/
  | verticalBlank (e : Ev) (pipe : Nat) (nextS : Nat)
  /-- TELLTALE_CRC_COMPARE (R440): Each frame's tell-tale slot CRCs are compared, and repeated mismatches force tt_only or blanking. -/
  | telltaleCrcCompare (e : Ev) (pipe : Nat) (crcs : List SlotCrc)
  /-- DRAM_READ_ECC (R325): A DRAM read with a corrected or uncorrectable ECC severity is delivered or answered DATA_ERROR. -/
  | dramReadEcc (e : Ev) (pc : Nat) (bank : Nat) (row : Nat) (unc : Bool)
  /-- ROW_REMAP (R307): A failing DRAM row is copied into a spare row and remapped. -/
  | rowRemap (e : Ev) (pc : Nat) (bank : Nat) (row : Nat) (lost : Nat)
  /-- ECS_SCRUB (R326): ECS during refresh reports the row with most errors as one corrected read. -/
  | ecsScrub (e : Ev) (pc : Nat) (bank : Nat) (row : Nat)
  /-- PSEUDO_CHANNEL_RETIRE (R308): A pseudo-channel is marked pending and the budget is cut at once. -/
  | pseudoChannelRetire (e : Ev) (idx : Nat) (training : Bool)
  /-- STACK_THROTTLE (R334): A pseudo-channel queue reaching its threshold throttles surplus toward the stack until below threshold − hyst. -/
  | stackThrottle (e : Ev) (stack : Nat) (level : Nat)
  /-- GUARANTEE_MISS (R337): A paid request still held window_us after paying is counted as a miss. -/
  | guaranteeMiss (e : Ev) (port : Nat) (cls : Nat)
  /-- PORT_REQUEST_HELD_RELEASE (R331): A request held at a port for coins leaves when its bucket refills or surplus is allowed. -/
  | portRequestHeldRelease (e : Ev) (port : Nat) (cls : Nat) (to_ : DramReq) (bytes : Nat) (write : Bool)
  /-- SERVICE_RECORD_WRITE_DONE (R299): A record write is verified and the RPMB counter raised to the new generation. -/
  | serviceRecordWriteDone (e : Ev) (ok : Bool)
  /-- SERVICE_RECORD_LOAD (R300): At boot the steward loads and applies the valid record, or holds the compute domain. -/
  | serviceRecordLoad (e : Ev) (ok0 : Bool) (ok1 : Bool)
  /-- BOOT_SLOT_FAILURE (R453): A firmware slot that fails verification at boot is skipped for the other slot. -/
  | bootSlotFailure (e : Ev) (slot : Nat)
  /-- TRIAL_BOOT_CONFIRM (R453): The Gatehouse reports ready, so the steward confirms the trial slot. -/
  | trialBootConfirm (e : Ev)
  /-- CONFIG_STORE_APPLY (R454): At M, K or P the steward applies the configuration store. -/
  | configStoreApply (e : Ev) (bad : List Nat)
  /-- SOAK_TIMER (R319): Each 24 h of soak beyond 72 h writes an incident record. -/
  | soakTimer (e : Ev)
  /-- VT_SERVO_STEP (R503): The servo lock of 802.1AS, with VT stepped once or slewed, or held over on grandmaster loss. -/
  | vtServoStep (e : Ev) (ev : ServoEv)
  /-- VT_DEVIATION_INCIDENT (R503): A θ deviation above 1 ms writes an incident once per 100 ms. -/
  | vtDeviationIncident (e : Ev) (devNs : Int)
  /-- DOOR_CALL (R475): Enters a sealed vault at a door entry. -/
  | doorCall (e : Ev) (hart : Nat) (vault : Nat) (entry : Nat) (save : HartSave)
  /-- DOOR_RET (R476): Exits a vault with return values. -/
  | doorRet (e : Ev) (hart : Nat) (a0 : Nat) (a1 : Nat)
  /-- DOOR_CREATE (R477): Checks a creation block and installs a CREATING vault. -/
  | doorCreate (e : Ev) (hart : Nat) (mode : Priv) (addr : Nat)
  /-- VAULT_SEAL_DONE (R477): The Gatehouse finishes verifying and measuring a vault and seals or frees it. -/
  | vaultSealDone (e : Ev) (vault : Nat)
  /-- DOOR_DESTROY (R478): Starts the destruction of a vault. -/
  | doorDestroy (e : Ev) (hart : Nat) (mode : Priv) (vault : Nat)
  /-- VAULT_DESTROY_DONE (R478): Zeroing of a destroyed vault's ranges ends and the vault becomes FREE. -/
  | vaultDestroyDone (e : Ev) (vault : Nat)
  /-- DOOR_SUBMIT (R485): Submits a signed lifecycle record. -/
  | doorSubmit (e : Ev) (hart : Nat) (addr : Nat)
  /-- DOOR_CLAIM (R479): Claims a gateable block or interrupt identity for a vault. -/
  | doorClaim (e : Ev) (hart : Nat) (code : Nat)
  /-- DOOR_RELEASE (R480): Releases a claimed block or interrupt identity to the normal world. -/
  | doorRelease (e : Ev) (hart : Nat) (code : Nat)
  /-- DOOR_KEY (R483): Derives the vault sealing key into the vault's data range. -/
  | doorKey (e : Ev) (hart : Nat) (addr : Nat) (label : Nat)
  /-- VAULT_QUANTUM_EXPIRY (R476): A stay reaches quantum_us and exits with TIMEOUT. -/
  | vaultQuantumExpiry (e : Ev) (hart : Nat)
  /-- VAULT_EXCEPTION (R476): An exception in vault code enters the fault door or exits with INTERNAL. -/
  | vaultException (e : Ev) (hart : Nat) (cause : Nat)
  /-- SECURE_INTERRUPT (R479): A vault-owned interrupt pre-empts a normal-world hart and enters the interrupt door. -/
  | secureInterrupt (e : Ev) (hart : Nat) (ident : Nat) (save : HartSave)
  /-- VAULT_FILTER_REFUSAL (R473): A request without the vault's tag to a vault range is dropped and counted. -/
  | vaultFilterRefusal (e : Ev) (vault : Nat) (who : Master)
  /-- PUF_RECONSTRUCTION (R482): At each rim start the Gatehouse reconstructs the UDS, or holds the half on failure. -/
  | pufReconstruction (e : Ev) (ok : Bool)
  /-- DEBUG_UNLOCK (R488): An unlock record in the debug port is verified and opens the port, destroying vaults. -/
  | debugUnlock (e : Ev) (record : Nat)
  /-- FABRIC_OUT_OF_RANGE (R28): An access outside the address map is refused and recorded. -/
  | fabricOutOfRange (e : Ev) (who : Master) (addr : Nat)
  /-- WINDOW_ENABLE_FRAME_START (R255): The first major-frame start at or after the VT named by WIN_ENABLE starts the active bank and makes its tasks NORMAL. -/
  | windowEnableFrameStart (e : Ev)
  /-- GATEHOUSE_RESET_DONE (R274): The Gatehouse controller finishes its 1 ms reset, held state changes proceed, a LOCATING in progress starts again and tell-tale compares resume. -/
  | gatehouseResetDone (e : Ev)
  /-- SEMAPHORE_ENTRY_STEAL (R357): An LR waiting on an entry held for another hart or granule takes it once that entry has been held for 1 µs, counting a steal. -/
  | semaphoreEntrySteal (e : Ev) (k : Pkt) (hart : Nat) (addr : Nat) (width : Nat)
  /-- UNCORRECTABLE_HEADER (R191): A CSI-2 packet whose header cannot be corrected is counted, and every enabled stream of the receiver with a frame open publishes no further row of that frame. -/
  | uncorrectableHeader (e : Ev) (rx : Nat)
  /-- CAN_BUS_OFF (R362): A CAN controller's error counters take it to bus-off, after which frames routed to it are dropped and counted. -/
  | canBusOff (e : Ev) (ctrl : Nat)
  /-- QBV_LIST_SWAP (R400): A data port's administrative gate control list is swapped in at its base VT. -/
  | qbvListSwap (e : Ev) (port : Nat)
  /-- REP_HEAD_WRITE (R397): Software advances rep_head of a service-ring pair, freeing reply slots so that the steward writes waiting replies. -/
  | repHeadWrite (e : Ev) (pair : Nat) (head : Nat)
  /-- MKA_FRAME (R377): An MKA frame on a control port carries out key agreement and establishes or renews the MACsec secure association that vehicle-bound frames require. -/
  | mkaFrame (e : Ev) (partner : Nat) (ok : Bool)
  /-- CONTROL_PORT_LINK_LOSS (R303): A control port's link is lost for over 1 s and the loss is counted toward retirement at three within 10 min. -/
  | controlPortLinkLoss (e : Ev) (ms : Nat)
  /-- DISPLAY_LINK_CHANGE (R440): A display pipe's link goes down or comes back, which decides whether its shown tell-tale slots count as failing every 16.7 ms. -/
  | displayLinkChange (e : Ev) (pipe : Nat) (up : Bool)
  /-- SERR_HB_TOGGLE (R518): Every 1 ms SERR_HB toggles while the half's Tally is enabled and the half carries critical duty, also feeding the other half's Gatehouse. -/
  | serrHbToggle (e : Ev)
deriving DecidableEq, Repr

/-- The half that a command names and the time since the last one. -/
def Instr.ev : Instr → Ev
  | .powerGoodRise e => e
  | .powerGoodFall e => e
  | .pwrgoodMismatchTimeout e => e
  | .resetNLow e _ => e
  | .resetNRelease e => e
  | .crystalJudgedStable e => e
  | .crystalStartTimeout e => e
  | .pllJudgedLocked e => e
  | .clockMonitorFailure e _ => e
  | .rcOscillatorCheck e _ => e
  | .coreDividerChange e _ _ => e
  | .thermalSensorPoll e _ => e
  | .trimStepTimer e => e
  | .thermalTrip e _ => e
  | .tripCooldownRelease e _ _ => e
  | .dramTemperaturePoll e _ _ => e
  | .pmbusPoll e _ _ => e
  | .vrAlertNLow e => e
  | .emergencyClear e => e
  | .canRouteWake e _ => e
  | .tc10Wake e => e
  | .wakeInputBall e _ => e
  | .parkEntryComplete e => e
  | .sleepEntryComplete e => e
  | .coreReset e _ _ => e
  | .coreResetDone e _ => e
  | .halfComputeRestart e _ _ => e
  | .halfRimRestart e _ _ => e
  | .packageWarmReset e _ _ => e
  | .gatehouseReady e => e
  | .rejoinActivation e _ => e
  | .telDbTailWrite e _ _ => e
  | .telDbCqHeadWrite e _ _ => e
  | .coreFreeDispatch e _ => e
  | .contextFetchDone e _ => e
  | .contextWriteBack e _ => e
  | .tileEnd e _ _ => e
  | .tileWatchdogFire e _ => e
  | .dmaDescriptorEnd e _ _ => e
  | .dmaDescriptorFailure e _ _ _ => e
  | .detectedMemoryError e _ _ _ => e
  | .nonTileReadError e _ _ => e
  | .rowWriteLands e _ _ => e
  | .tokenBarrierPass e _ _ => e
  | .preemptionRequest e _ => e
  | .graphicsSwitchRequest e _ => e
  | .modeSwitchDone e _ => e
  | .waitLocalEvaluation e _ => e
  | .waitLimitExpiry e _ => e
  | .remoteWatchRepeat e _ => e
  | .remoteWatchReply e _ _ _ => e
  | .rowConditionEvaluation e _ => e
  | .lagLimitExpiry e _ => e
  | .windowPreArm e _ => e
  | .windowInstanceStart e _ => e
  | .windowInstanceEndUnmet e _ => e
  | .bankActivationVt e => e
  | .majorFrameEndDisable e => e
  | .dispatchWatchdog e _ => e
  | .dispatchRestartDone e _ => e
  | .stewardWatchdog e => e
  | .stewardRestartDone e => e
  | .lockstepMismatch e => e
  | .sieveCommandStart e _ => e
  | .sieveCommandEnd e => e
  | .sieveDataError e => e
  | .sieveWatchdog e => e
  | .patrolRowRead e _ _ => e
  | .strongroomBankRetire e _ => e
  | .bankMoveDone e _ => e
  | .groupWithdrawal e _ => e
  | .granuleZeroed e => e
  | .shutterClose e _ => e
  | .shutterDrainTimeout e _ => e
  | .shutDoorRefusal e _ _ => e
  | .groupReopenDone e _ => e
  | .modelLoadDone e _ _ => e
  | .longPacket e _ _ _ _ _ _ => e
  | .frameStart e _ _ _ => e
  | .frameEnd e _ _ => e
  | .frameCloseTimeout e _ => e
  | .embeddedDataLine e _ _ _ => e
  | .channelResultDelivered e _ => e
  | .roundDueTime e _ _ => e
  | .tallyJudgement e _ _ => e
  | .verdictExchange e _ _ _ => e
  | .verdictExchangeTimeout e _ _ => e
  | .lateResultDiscard e _ _ => e
  | .locatingSearchStep e _ => e
  | .assayDue e _ _ => e
  | .assayVerdict e _ _ => e
  | .auditDue e => e
  | .auditDone e _ _ _ => e
  | .auditOverdue e _ => e
  | .dutyHandover e _ => e
  | .degradedEntry e _ => e
  | .serrHbCheck e _ => e
  | .yieldHalf e => e
  | .flitReceive e _ _ _ _ _ => e
  | .hatchLaneRepair e _ _ => e
  | .hatchModuleFailover e _ => e
  | .hatchLinkLoss e => e
  | .hatchLinkTraining e _ _ => e
  | .hatchViolation e _ _ _ => e
  | .mWrite e _ _ _ => e
  | .mRead e _ _ _ => e
  | .amo e _ _ _ _ _ => e
  | .loadReserved e _ _ _ _ => e
  | .storeConditional e _ _ _ _ _ => e
  | .semaphoreEntryExpiry e _ => e
  | .cpl e _ _ => e
  | .cplSt e _ _ => e
  | .resWr e _ _ => e
  | .msgInterrupt e _ _ _ => e
  | .msgQueueCompletionIrq e _ _ => e
  | .msgRemoteWatchRequest e _ _ _ _ _ _ => e
  | .msgRemoteWatchReply e _ _ _ _ => e
  | .msgGatewayFrame e _ _ _ => e
  | .msgControlRelay e _ _ => e
  | .resMsgResult e _ _ _ _ _ => e
  | .resMsgVerdict e _ _ _ _ => e
  | .vtCompare e _ _ => e
  | .resMsgGoingDown e _ _ _ _ => e
  | .resMsgGatehouseState e _ _ => e
  | .resMsgRepairNotice e _ _ => e
  | .canFrameReceive e _ _ => e
  | .streamIngress e _ _ _ => e
  | .streamEgressHoldExpiry e _ => e
  | .gatewayQueueDoorbell e _ _ => e
  | .busOffRecovery e _ => e
  | .hello e _ _ _ => e
  | .mailbox e _ _ => e
  | .regRead e _ _ _ _ => e
  | .regWrite e _ _ _ _ => e
  | .dataWrite e _ _ _ => e
  | .dataRead e _ _ _ => e
  | .ringFrame e _ _ _ => e
  | .peerWatch e _ _ _ _ _ _ _ => e
  | .peerReply e _ _ _ _ => e
  | .malformedFrame e _ _ => e
  | .malformedBlockExpiry e _ => e
  | .sessionIdleTimeout e _ => e
  | .heartbeat e => e
  | .latchLeaseExpiry e => e
  | .controlPortRetire e _ => e
  | .latchTake e _ _ => e
  | .latchRenew e _ => e
  | .latchRelease e _ => e
  | .latchQuery e _ => e
  | .devInfo e _ => e
  | .statsRead e _ _ _ _ _ _ _ => e
  | .incidentRead e _ _ _ _ => e
  | .accountRead e _ _ _ => e
  | .winWrite e _ _ _ _ => e
  | .winActivate e _ _ _ => e
  | .winFrame e _ _ _ => e
  | .partWrite e _ _ _ _ => e
  | .taskWrite e _ _ _ => e
  | .tlyCfg e _ _ _ _ _ => e
  | .winEnableSet e _ _ => e
  | .winEnableClear e _ => e
  | .mntShadow e _ _ _ _ => e
  | .mntCommit e _ => e
  | .mntFb e _ _ => e
  | .strAlloc e _ _ _ => e
  | .strFree e _ _ _ => e
  | .cacheSize e _ _ => e
  | .modelLoad e _ _ _ _ => e
  | .modelPin e _ _ => e
  | .modelUnpin e _ _ => e
  | .strPatrol e _ _ => e
  | .rxCfg e _ _ _ => e
  | .streamCfg e _ _ _ => e
  | .routeWrite e _ _ _ => e
  | .routeDelete e _ _ _ => e
  | .fanoutWrite e _ _ _ _ => e
  | .gtwCfg e _ _ _ => e
  | .slotCfg e _ _ _ => e
  | .portCfg e _ _ _ _ _ _ => e
  | .qbvWrite e _ _ _ _ _ _ => e
  | .peerFenceWrite e _ _ _ _ => e
  | .peerListWrite e _ _ _ _ => e
  | .vdiCreate e _ _ _ _ _ => e
  | .vdiReset e _ => e
  | .vdiRemove e _ _ => e
  | .logStart e _ _ _ => e
  | .logSwap e _ _ => e
  | .quiesce e _ _ => e
  | .exportImage e _ _ _ => e
  | .importImage e _ _ _ => e
  | .resumeVdi e _ _ => e
  | .abortMigration e _ _ => e
  | .releaseVdi e _ _ => e
  | .ctxWrite e _ _ _ => e
  | .queueWrite e _ _ _ => e
  | .queueEnable e _ _ => e
  | .queueSuspend e _ _ => e
  | .queueResume e _ _ => e
  | .queueDisable e _ _ => e
  | .lateArrivalDiscard e _ _ => e
  | .svcRead e _ _ _ _ => e
  | .svcRebuild e _ _ _ => e
  | .portRestore e _ _ => e
  | .halfRestartH e _ _ => e
  | .halfRestartM e _ _ => e
  | .fwWrite e _ _ _ _ => e
  | .fwActivate e _ _ => e
  | .fwCommit e _ => e
  | .fwWithdraw e _ => e
  | .attest e _ _ _ => e
  | .dspCfgPipe e _ _ _ => e
  | .dspCfgTelltale e _ _ _ => e
  | .powerReqRun e _ => e
  | .powerReqPark e _ => e
  | .powerReqSleep e _ => e
  | .unknownOpcode e _ _ => e
  | .telMbxGo e _ => e
  | .tellerMailboxReply e _ => e
  | .reqTailWrite e _ _ => e
  | .registerWrite e _ _ _ _ _ _ => e
  | .render e _ _ => e
  | .verticalBlank e _ _ => e
  | .telltaleCrcCompare e _ _ => e
  | .dramReadEcc e _ _ _ _ => e
  | .rowRemap e _ _ _ _ => e
  | .ecsScrub e _ _ _ => e
  | .pseudoChannelRetire e _ _ => e
  | .stackThrottle e _ _ => e
  | .guaranteeMiss e _ _ => e
  | .portRequestHeldRelease e _ _ _ _ _ => e
  | .serviceRecordWriteDone e _ => e
  | .serviceRecordLoad e _ _ => e
  | .bootSlotFailure e _ => e
  | .trialBootConfirm e => e
  | .configStoreApply e _ => e
  | .soakTimer e => e
  | .vtServoStep e _ => e
  | .vtDeviationIncident e _ => e
  | .doorCall e _ _ _ _ => e
  | .doorRet e _ _ _ => e
  | .doorCreate e _ _ _ => e
  | .vaultSealDone e _ => e
  | .doorDestroy e _ _ _ => e
  | .vaultDestroyDone e _ => e
  | .doorSubmit e _ _ => e
  | .doorClaim e _ _ => e
  | .doorRelease e _ _ => e
  | .doorKey e _ _ _ => e
  | .vaultQuantumExpiry e _ => e
  | .vaultException e _ _ => e
  | .secureInterrupt e _ _ _ => e
  | .vaultFilterRefusal e _ _ => e
  | .pufReconstruction e _ => e
  | .debugUnlock e _ => e
  | .fabricOutOfRange e _ _ => e
  | .windowEnableFrameStart e => e
  | .gatehouseResetDone e => e
  | .semaphoreEntrySteal e _ _ _ _ => e
  | .uncorrectableHeader e _ => e
  | .canBusOff e _ => e
  | .qbvListSwap e _ => e
  | .repHeadWrite e _ _ => e
  | .mkaFrame e _ _ => e
  | .controlPortLinkLoss e _ => e
  | .displayLinkChange e _ _ => e
  | .serrHbToggle e => e

end Sys2Proof
end

