-- ==== Sys2Proof/Decode.lean ====
section
/-! DEFINITION. The decoder of table words. Every row of spec/opcode_table.json has no bits ("fields" is empty in all 266 rows): the manual gives
its commands as messages, frames and events and spells none of them in a word, so no word is a command. -/
namespace Sys2Proof

/-- The command that a word spells by the table's bits: none, since no row of the table gives bits. -/
def decodeTableWord (_nbits _w : Nat) : Option Instr := none

end Sys2Proof
end

