-- ==== Sys2Proof/Config.lean ====
section
/-! DEFINITION. What the manual leaves open: constants without a body, of which nothing can be computed or proved. A meaning applies `free` to
the model's own counter `State.freeCtr` and advances it, so every draw is a fresh value. -/
namespace Sys2Proof.Config

/-- A value the manual does not state (log entry 1). -/
opaque free : Nat → Nat

/-- The parameters of a command's activation function (R61), which no record carries: a function of the descriptor and the parameter's number
(log entry 6). -/
opaque actParam (desc k : Nat) : Nat

/-- Where the FP4 scale plane of a side of a converting DMA descriptor lies, from that side's base: no field gives it (log entry 8). -/
opaque fp4Plane (desc side : Nat) : Nat

/-- The SHA-512 hash of a byte string, as a 512-bit number: a published function the manual names without defining (log entry 2). -/
opaque sha512 : List Byte → Nat

/-- Whether an Ed25519 and an ML-DSA-65 signature both verify over a message under the keys of `keyId` (log entry 2). -/
opaque sigOk (keyId : Nat) (msg sig : List Byte) : Bool

/-- The 64-byte key that DOOR.KEY derives for a half from measurement, lifecycle state, debug state and label (R483; log entry 2). -/
opaque sealKey (half measurement lifecycle debug label : Nat) : Nat

/-- Whether an unlock record of the debug port is signed with both engineering keys and names the half's identity and this challenge (R488; log entry 2). -/
opaque unlockOk (half challenge record : Nat) : Bool

/-- A signed attestation report (R486; log entry 2): the bytes after those the manual gives. -/
opaque attest (half : Nat) (nonce : Nat) (body : List Byte) : List Byte

/-- The fingerprint of the device identity that a signed record must name (R484; log entry 2). -/
opaque deviceId (half : Nat) : Nat

/-- The bases of the package's S table (0) and L table (1) of context records, which the Latch holder sets (R241; log entry 34). -/
opaque ctxTable (large : Nat) : Nat

/-- The value in [0, 1], in 2^-24, of an IoU whose union overflows and that no number therefore is, by the bits of the two boxes (R180; log entry 164). -/
opaque openIou (a b : List Nat) : Nat

/-- The minimum release that a Bluko image declares, by the key of its hash (R316, R317): the manual gives no place of it in the image. -/
opaque minRelease (key : Nat) : Nat

/-- The dispatch controller that owns a partition of a half, modulo 4: the manual names an owner and does not say which it is (R251; log entry 167). -/
opaque partOwner (half part : Nat) : Nat

/-- Which 1 KiB block of its own DRAM holds the device's copy of a context's handle set and record (R408): no file states it (log entry 152). -/
opaque ctxCopy (ctx : Nat) : Nat

/-- The stripe plans that the image declares for a stream slot of a half: for each plan the height of every band in sensor rows (R208; log entry 69). -/
opaque stripePlans (half slot : Nat) : List (List Nat)

/-- The band of a stream slot that a command of a context works for, by the image (R208; log entry 69). -/
opaque bandOf (half slot ctx tag : Nat) : Option Nat

/-- The layer of the halo rows that a command of a context publishes, by the image (R205; log entry 153). -/
opaque haloLayer (ctx tag : Nat) : Nat

/-- The fixed-point number into which triangle setup rounds the exact quotient n / d, in 1/256 of a pixel for a coordinate (R427; log entry 155). -/
opaque rasterFix (n : Int) (d : Nat) : Int

/-- Where sample `s` of `n` lies in its pixel, in 1/256 of a pixel (R427; log entry 155). -/
opaque samplePos (n s : Nat) : Nat × Nat

/-- The depth code that a format (0: FP32, 1: 24 bits) holds for the exact depth n / d (R427; log entry 155). -/
opaque depthCode (fmt : Nat) (n : Int) (d : Nat) : Nat

/-- The sample that blending leaves, by the blend state, the bytes of a sample, the shader's value and the sample before it (R427; log entry 155). -/
opaque blend (state bytes src dst : Nat) : Nat

/-- A pixel of a display plane over what lies beneath it: of its format, premultiplied or straight, times the plane's alpha. How the products are rounded is
not stated (R437, log entry 156). -/
opaque blendPlane (format premult alpha pixel beneath : Nat) : Nat

/-- A palette colour of the tell-tale plane as the link carries it, at 8 or at 10 bits per component (R439, R440, log entry 156). -/
opaque linkPixel (bpc10 rgb : Nat) : Nat

end Sys2Proof.Config
end

