-- ==== Sys2Proof/Machine/KMap.lean ====
section
/-! DEFINITION. Sparse data by key: a list of key and value pairs in one canonical form. Keys rise strictly and no entry equals what an unlisted
key reads as, so equal contents are equal lists. -/
namespace Sys2Proof.Machine

/-- What key `k` reads as; `d k` where it is not listed. -/
def kget {α : Type} (d : Nat → α) (m : List (Nat × α)) (k : Nat) : α :=
  match m with
  | [] => d k
  | (j, v) :: r => if j = k then v else kget d r k

/-- The list without key `k`. -/
def kdel {α : Type} (m : List (Nat × α)) (k : Nat) : List (Nat × α) :=
  match m with
  | [] => []
  | (j, v) :: r => if j = k then kdel r k else (j, v) :: kdel r k

/-- Key `k` listed with value `v`. -/
def kins {α : Type} (m : List (Nat × α)) (k : Nat) (v : α) : List (Nat × α) :=
  match m with
  | [] => [(k, v)]
  | (j, w) :: r => if j = k then (k, v) :: r else if k < j then (k, v) :: (j, w) :: r else (j, w) :: kins r k v

/-- A write: the canonical form is kept, so writing what an unlisted key reads as removes the entry. -/
def kput {α : Type} [DecidableEq α] (d : Nat → α) (m : List (Nat × α)) (k : Nat) (v : α) : List (Nat × α) :=
  if v = d k then kdel m k else kins m k v

/-- The value at a key changed by a function. -/
def kupd {α : Type} [DecidableEq α] (d : Nat → α) (m : List (Nat × α)) (k : Nat) (f : α → α) : List (Nat × α) :=
  kput d m k (f (kget d m k))

/-- Every key in [lo, hi) reads as unlisted. -/
def kclear {α : Type} (m : List (Nat × α)) (lo hi : Nat) : List (Nat × α) :=
  m.filter fun x => x.1 < lo || hi ≤ x.1

/-- The canonical form: keys rise strictly from at least `lo`, and no entry equals its default. -/
def kwfFrom {α : Type} [DecidableEq α] (d : Nat → α) (lo : Nat) (m : List (Nat × α)) : Bool :=
  match m with
  | [] => true
  | (j, v) :: r => decide (lo ≤ j) && decide (v ≠ d j) && kwfFrom d (j + 1) r

/-- The canonical form of a sparse list. -/
def kwf {α : Type} [DecidableEq α] (d : Nat → α) (m : List (Nat × α)) : Bool := kwfFrom d 0 m

/-! ## Stable sorting by structural recursion -/

/-- An element in front of the first one that it may precede. -/
def insertLe {α : Type} (le : α → α → Bool) (x : α) : List α → List α
  | [] => [x]
  | y :: r => if le x y then x :: y :: r else y :: insertLe le x r

/-- The list in order, equal elements as they came. -/
def isort {α : Type} (le : α → α → Bool) (l : List α) : List α := l.foldr (insertLe le) []

end Sys2Proof.Machine
end

