-- ==== Sys2Proof/Machine/Regs.lean ====
section
/-! DEFINITION. The register tables of the manual as data (R12, R14): every field of every register with its place, access code, reset value
and the reset kinds that restore it. A register is held as 64-bit words (R392); a field above bit 63 counts its bits on through the words. -/
namespace Sys2Proof.Machine

/-- The access codes of R12. -/
inductive Access where
  | rw | ro | wo | w1c | rc
deriving DecidableEq, Repr

/-- One row of a register table: register, lowest bit, width, access, reset value, and the reset kinds C F H M K P that restore it (R14). -/
structure Fld where
  reg : Reg
  lo : Nat
  width : Nat
  acc : Access
  reset : Nat
  byC : Bool
  byF : Bool
  byH : Bool
  byM : Bool
  byK : Bool
  byP : Bool
deriving DecidableEq, Repr

/-! TIL_ERR_CNT: R137 -/
def F.TIL_ERR_CNT_till_err : Fld := ⟨.TIL_ERR_CNT, 0, 16, .rc, 0x0, false, false, false, false, true, true⟩
def F.TIL_ERR_CNT_opb_err : Fld := ⟨.TIL_ERR_CNT, 16, 16, .rc, 0x0, false, false, false, false, true, true⟩
/-! TIL_HAZARD_CNT: R137 -/
def F.TIL_HAZARD_CNT_hazard : Fld := ⟨.TIL_HAZARD_CNT, 0, 32, .rc, 0x0, true, false, false, false, true, true⟩
/-! TIL_MOVE_TS: R137 -/
def F.TIL_MOVE_TS_bytes : Fld := ⟨.TIL_MOVE_TS, 0, 64, .ro, 0x0, true, false, true, true, true, true⟩
/-! TIL_MOVE_ST: R137 -/
def F.TIL_MOVE_ST_bytes : Fld := ⟨.TIL_MOVE_ST, 0, 64, .ro, 0x0, true, false, true, true, true, true⟩
/-! TIL_MOVE_TD: R137 -/
def F.TIL_MOVE_TD_bytes : Fld := ⟨.TIL_MOVE_TD, 0, 64, .ro, 0x0, true, false, true, true, true, true⟩
/-! TIL_MOVE_DT: R137 -/
def F.TIL_MOVE_DT_bytes : Fld := ⟨.TIL_MOVE_DT, 0, 64, .ro, 0x0, true, false, true, true, true, true⟩
/-! TIL_CLEAR_STAT: R137 -/
def F.TIL_CLEAR_STAT_clear_count : Fld := ⟨.TIL_CLEAR_STAT, 0, 16, .ro, 0x0, true, false, true, true, true, true⟩
def F.TIL_CLEAR_STAT_last_cycles : Fld := ⟨.TIL_CLEAR_STAT, 16, 10, .ro, 0x0, true, false, true, true, true, true⟩
/-! STR_BANK_MAP: R138 -/
def F.STR_BANK_MAP_phys_bank : Fld := ⟨.STR_BANK_MAP, 0, 7, .ro, 0x0, false, false, true, true, true, true⟩
/-! STR_BANK_ERR: R138 -/
def F.STR_BANK_ERR_err : Fld := ⟨.STR_BANK_ERR, 0, 16, .rc, 0x0, false, false, false, false, true, true⟩
/-! STR_GROUP_STATE: R138 -/
def F.STR_GROUP_STATE_shut : Fld := ⟨.STR_GROUP_STATE, 0, 8, .ro, 0x0, false, false, true, true, true, true⟩
def F.STR_GROUP_STATE_withdrawn : Fld := ⟨.STR_GROUP_STATE, 8, 8, .ro, 0x0, false, false, true, true, true, true⟩
/-! STR_MOVE_CTL: R138 -/
def F.STR_MOVE_CTL_target : Fld := ⟨.STR_MOVE_CTL, 0, 7, .ro, 0x0, false, false, true, true, true, true⟩
def F.STR_MOVE_CTL_active : Fld := ⟨.STR_MOVE_CTL, 7, 1, .ro, 0x0, false, false, true, true, true, true⟩
def F.STR_MOVE_CTL_pointer : Fld := ⟨.STR_MOVE_CTL, 8, 14, .ro, 0x0, false, false, true, true, true, true⟩
/-! STR_PATROL: R138 -/
def F.STR_PATROL_enable : Fld := ⟨.STR_PATROL, 0, 1, .rw, 0x1, false, false, false, false, true, true⟩
def F.STR_PATROL_passes : Fld := ⟨.STR_PATROL, 16, 16, .ro, 0x0, false, false, true, true, true, true⟩
/-! STR_ZERO_STAT: R138 -/
def F.STR_ZERO_STAT_pending : Fld := ⟨.STR_ZERO_STAT, 0, 12, .ro, 0x0, false, false, true, true, true, true⟩
/-! STR_FREE: R138 -/
def F.STR_FREE_free_granules : Fld := ⟨.STR_FREE, 0, 12, .ro, 0x800, false, false, true, true, true, true⟩
/-! SIV_CMD_CNT: R188 -/
def F.SIV_CMD_CNT_commands : Fld := ⟨.SIV_CMD_CNT, 0, 32, .ro, 0x0, false, false, true, true, true, true⟩
/-! SIV_ERR_CNT: R188 -/
def F.SIV_ERR_CNT_data_err : Fld := ⟨.SIV_ERR_CNT, 0, 16, .rc, 0x0, false, false, false, false, true, true⟩
def F.SIV_ERR_CNT_overrun : Fld := ⟨.SIV_ERR_CNT, 16, 16, .rc, 0x0, false, false, false, false, true, true⟩
/-! SIV_BUSY: R188 -/
def F.SIV_BUSY_busy : Fld := ⟨.SIV_BUSY, 0, 1, .ro, 0x0, false, false, true, true, true, true⟩
def F.SIV_BUSY_window : Fld := ⟨.SIV_BUSY, 1, 1, .ro, 0x0, false, false, true, true, true, true⟩
/-! SIV_LAST_NS: R188 -/
def F.SIV_LAST_NS_engine_ns : Fld := ⟨.SIV_LAST_NS, 0, 32, .ro, 0x0, false, false, true, true, true, true⟩
/-! INT_RX_CFG: R217 -/
def F.INT_RX_CFG_enable : Fld := ⟨.INT_RX_CFG, 0, 1, .rw, 0x0, false, false, false, true, true, true⟩
def F.INT_RX_CFG_phy : Fld := ⟨.INT_RX_CFG, 1, 1, .rw, 0x0, false, false, false, true, true, true⟩
def F.INT_RX_CFG_lanes : Fld := ⟨.INT_RX_CFG, 2, 2, .rw, 0x0, false, false, false, true, true, true⟩
def F.INT_RX_CFG_rate : Fld := ⟨.INT_RX_CFG, 4, 13, .rw, 0x0, false, false, false, true, true, true⟩
/-! INT_RX_ERR_CNT: R217 -/
def F.INT_RX_ERR_CNT_ecc_corr : Fld := ⟨.INT_RX_ERR_CNT, 0, 8, .rc, 0x0, false, false, false, false, true, true⟩
def F.INT_RX_ERR_CNT_hdr_drop : Fld := ⟨.INT_RX_ERR_CNT, 8, 8, .rc, 0x0, false, false, false, false, true, true⟩
def F.INT_RX_ERR_CNT_crc_drop : Fld := ⟨.INT_RX_ERR_CNT, 16, 8, .rc, 0x0, false, false, false, false, true, true⟩
def F.INT_RX_ERR_CNT_other_drop : Fld := ⟨.INT_RX_ERR_CNT, 24, 8, .rc, 0x0, false, false, false, false, true, true⟩
/-! INT_STREAM_CFG: R218 -/
def F.INT_STREAM_CFG_enable : Fld := ⟨.INT_STREAM_CFG, 0, 1, .rw, 0x0, false, false, false, true, true, true⟩
def F.INT_STREAM_CFG_vc : Fld := ⟨.INT_STREAM_CFG, 1, 4, .rw, 0x0, false, false, false, true, true, true⟩
def F.INT_STREAM_CFG_data_type : Fld := ⟨.INT_STREAM_CFG, 5, 6, .rw, 0x0, false, false, false, true, true, true⟩
def F.INT_STREAM_CFG_regroup : Fld := ⟨.INT_STREAM_CFG, 11, 2, .rw, 0x0, false, false, false, true, true, true⟩
def F.INT_STREAM_CFG_out_fmt : Fld := ⟨.INT_STREAM_CFG, 13, 4, .rw, 0x3, false, false, false, true, true, true⟩
def F.INT_STREAM_CFG_round_mode : Fld := ⟨.INT_STREAM_CFG, 17, 1, .rw, 0x0, false, false, false, true, true, true⟩
def F.INT_STREAM_CFG_sat_mode : Fld := ⟨.INT_STREAM_CFG, 18, 1, .rw, 0x0, false, false, false, true, true, true⟩
def F.INT_STREAM_CFG_counter_src : Fld := ⟨.INT_STREAM_CFG, 19, 1, .rw, 0x0, false, false, false, true, true, true⟩
def F.INT_STREAM_CFG_irq_en : Fld := ⟨.INT_STREAM_CFG, 20, 1, .rw, 0x0, false, false, false, true, true, true⟩
def F.INT_STREAM_CFG_stale_en : Fld := ⟨.INT_STREAM_CFG, 21, 1, .rw, 0x1, false, false, false, true, true, true⟩
def F.INT_STREAM_CFG_n_buf_m1 : Fld := ⟨.INT_STREAM_CFG, 22, 2, .rw, 0x1, false, false, false, true, true, true⟩
/-! INT_STREAM_GEOM: R218 -/
def F.INT_STREAM_GEOM_width : Fld := ⟨.INT_STREAM_GEOM, 0, 16, .rw, 0x0, false, false, false, true, true, true⟩
def F.INT_STREAM_GEOM_height : Fld := ⟨.INT_STREAM_GEOM, 16, 16, .rw, 0x0, false, false, false, true, true, true⟩
def F.INT_STREAM_GEOM_nominal_ns : Fld := ⟨.INT_STREAM_GEOM, 32, 32, .rw, 0x0, false, false, false, true, true, true⟩
/-! INT_STREAM_CONV: R218 -/
def F.INT_STREAM_CONV_black : Fld := ⟨.INT_STREAM_CONV, 0, 16, .rw, 0x0, false, false, false, true, true, true⟩
def F.INT_STREAM_CONV_gain_exp : Fld := ⟨.INT_STREAM_CONV, 16, 8, .rw, 0x0, false, false, false, true, true, true⟩
def F.INT_STREAM_CONV_int8_exp : Fld := ⟨.INT_STREAM_CONV, 24, 8, .rw, 0x0, false, false, false, true, true, true⟩
def F.INT_STREAM_CONV_black_uv : Fld := ⟨.INT_STREAM_CONV, 32, 16, .rw, 0x0, false, false, false, true, true, true⟩
def F.INT_STREAM_CONV_clip : Fld := ⟨.INT_STREAM_CONV, 48, 16, .rw, 0xFFFF, false, false, false, true, true, true⟩
/-! INT_STREAM_BASE: R218 -/
def F.INT_STREAM_BASE_base : Fld := ⟨.INT_STREAM_BASE, 0, 48, .rw, 0x0, false, false, false, true, true, true⟩
/-! INT_STALE_CFG: R218 -/
def F.INT_STALE_CFG_seed : Fld := ⟨.INT_STALE_CFG, 0, 32, .rw, 0x1, false, false, false, true, true, true⟩
def F.INT_STALE_CFG_counter_offset : Fld := ⟨.INT_STALE_CFG, 32, 8, .rw, 0x0, false, false, false, true, true, true⟩
def F.INT_STALE_CFG_counter_32 : Fld := ⟨.INT_STALE_CFG, 40, 1, .rw, 0x0, false, false, false, true, true, true⟩
/-! INT_STRIPE_CFG: R218 -/
def F.INT_STRIPE_CFG_lag_us : Fld := ⟨.INT_STRIPE_CFG, 0, 14, .rw, 0x7D0, false, false, false, true, true, true⟩
def F.INT_STRIPE_CFG_rebalance_en : Fld := ⟨.INT_STRIPE_CFG, 14, 1, .rw, 0x1, false, false, false, true, true, true⟩
/-! INT_STREAM_STAT: R218 -/
def F.INT_STREAM_STAT_state : Fld := ⟨.INT_STREAM_STAT, 0, 2, .ro, 0x0, false, false, false, true, true, true⟩
def F.INT_STREAM_STAT_good_run : Fld := ⟨.INT_STREAM_STAT, 2, 2, .ro, 0x0, false, false, false, true, true, true⟩
def F.INT_STREAM_STAT_plan : Fld := ⟨.INT_STREAM_STAT, 4, 3, .ro, 0x0, false, false, true, true, true, true⟩
def F.INT_STREAM_STAT_seq : Fld := ⟨.INT_STREAM_STAT, 32, 32, .ro, 0x0, false, false, false, true, true, true⟩
/-! INT_LINE_POS: R218 -/
def F.INT_LINE_POS_line : Fld := ⟨.INT_LINE_POS, 0, 16, .ro, 0x0, false, false, false, true, true, true⟩
def F.INT_LINE_POS_row : Fld := ⟨.INT_LINE_POS, 16, 16, .ro, 0x0, false, false, false, true, true, true⟩
/-! INT_LINE_VT: R218 -/
def F.INT_LINE_VT_vt : Fld := ⟨.INT_LINE_VT, 0, 64, .ro, 0x0, false, false, false, true, true, true⟩
/-! INT_STREAM_CNT: R218 -/
def F.INT_STREAM_CNT_lines_dropped : Fld := ⟨.INT_STREAM_CNT, 0, 16, .rc, 0x0, false, false, false, false, true, true⟩
def F.INT_STREAM_CNT_sat_count : Fld := ⟨.INT_STREAM_CNT, 16, 16, .rc, 0x0, false, false, false, false, true, true⟩
def F.INT_STREAM_CNT_recompute : Fld := ⟨.INT_STREAM_CNT, 32, 16, .rc, 0x0, false, false, false, false, true, true⟩
def F.INT_STREAM_CNT_stale_count : Fld := ⟨.INT_STREAM_CNT, 48, 16, .rc, 0x0, false, false, false, false, true, true⟩
/-! INT_MARK_BASE: R218 -/
def F.INT_MARK_BASE_base : Fld := ⟨.INT_MARK_BASE, 0, 48, .rw, 0x0, false, false, false, true, true, true⟩
/-! TEL_DB_TAIL: R230 -/
def F.TEL_DB_TAIL_tail : Fld := ⟨.TEL_DB_TAIL, 0, 32, .wo, 0x0, false, true, true, true, true, true⟩
/-! TEL_DB_HEAD: R230 -/
def F.TEL_DB_HEAD_head : Fld := ⟨.TEL_DB_HEAD, 0, 32, .ro, 0x0, false, true, true, true, true, true⟩
/-! TEL_DB_CQ_TAIL: R230 -/
def F.TEL_DB_CQ_TAIL_cq_tail : Fld := ⟨.TEL_DB_CQ_TAIL, 0, 32, .ro, 0x0, false, true, true, true, true, true⟩
/-! TEL_DB_CQ_HEAD: R230 -/
def F.TEL_DB_CQ_HEAD_cq_head : Fld := ⟨.TEL_DB_CQ_HEAD, 0, 32, .rw, 0x0, false, true, true, true, true, true⟩
/-! TEL_DB_STATE: R230 -/
def F.TEL_DB_STATE_state : Fld := ⟨.TEL_DB_STATE, 0, 3, .ro, 0x0, false, true, true, true, true, true⟩
def F.TEL_DB_STATE_irq_en : Fld := ⟨.TEL_DB_STATE, 3, 1, .rw, 0x0, false, true, true, true, true, true⟩
def F.TEL_DB_STATE_generation : Fld := ⟨.TEL_DB_STATE, 16, 16, .ro, 0x0, false, false, false, true, true, true⟩
/-! TEL_DB_INFLIGHT: R230 -/
def F.TEL_DB_INFLIGHT_inflight : Fld := ⟨.TEL_DB_INFLIGHT, 0, 5, .ro, 0x0, false, true, true, true, true, true⟩
/-! WIN_CTL: R254 -/
def F.WIN_CTL_enable : Fld := ⟨.WIN_CTL, 0, 1, .rw, 0x0, false, false, false, true, true, true⟩
def F.WIN_CTL_active_bank : Fld := ⟨.WIN_CTL, 1, 1, .ro, 0x0, false, false, false, true, true, true⟩
def F.WIN_CTL_pending : Fld := ⟨.WIN_CTL, 2, 1, .ro, 0x0, false, false, false, true, true, true⟩
/-! WIN_FRAME: R254 -/
def F.WIN_FRAME_length : Fld := ⟨.WIN_FRAME, 0, 24, .rw, 0x2710, false, false, false, true, true, true⟩
/-! WIN_PHASE: R254 -/
def F.WIN_PHASE_phase : Fld := ⟨.WIN_PHASE, 0, 64, .rw, 0x0, false, false, false, true, true, true⟩
/-! WIN_ACT_VT: R254 -/
def F.WIN_ACT_VT_vt : Fld := ⟨.WIN_ACT_VT, 0, 64, .ro, 0x0, false, false, false, true, true, true⟩
/-! WIN_STAT: R254 -/
def F.WIN_STAT_skipped : Fld := ⟨.WIN_STAT, 0, 16, .rc, 0x0, false, false, false, false, true, true⟩
def F.WIN_STAT_unmet : Fld := ⟨.WIN_STAT, 16, 16, .rc, 0x0, false, false, false, false, true, true⟩
/-! WIN_JITTER: R254 -/
def F.WIN_JITTER_max_cycles : Fld := ⟨.WIN_JITTER, 0, 8, .rc, 0x0, false, false, false, false, true, true⟩
/-! WIN_PART_CFG: R254 -/
def F.WIN_PART_CFG_kind : Fld := ⟨.WIN_PART_CFG, 0, 2, .rw, 0x0, false, false, false, true, true, true⟩
def F.WIN_PART_CFG_tile_limit_us : Fld := ⟨.WIN_PART_CFG, 2, 8, .rw, 0x32, false, false, false, true, true, true⟩
def F.WIN_PART_CFG_criticality : Fld := ⟨.WIN_PART_CFG, 10, 4, .rw, 0x0, false, false, false, true, true, true⟩
def F.WIN_PART_CFG_pipes : Fld := ⟨.WIN_PART_CFG, 14, 2, .rw, 0x0, false, false, false, true, true, true⟩
def F.WIN_PART_CFG_render_budget_us : Fld := ⟨.WIN_PART_CFG, 16, 16, .rw, 0x0, false, false, false, true, true, true⟩
/-! WIN_PART_CORES: R254 -/
def F.WIN_PART_CORES_cores : Fld := ⟨.WIN_PART_CORES, 0, 128, .rw, 0x0, false, false, false, true, true, true⟩
/-! WIN_DISP_STAT: R254 -/
def F.WIN_DISP_STAT_restarts : Fld := ⟨.WIN_DISP_STAT, 0, 16, .ro, 0x0, false, false, false, false, true, true⟩
def F.WIN_DISP_STAT_paused : Fld := ⟨.WIN_DISP_STAT, 16, 1, .ro, 0x0, false, false, true, true, true, true⟩
/-! WIN_STALE_GEN: R254 -/
def F.WIN_STALE_GEN_stale_gen : Fld := ⟨.WIN_STALE_GEN, 0, 32, .rc, 0x0, false, false, false, false, true, true⟩
/-! TLY_CTL: R293 -/
def F.TLY_CTL_enable : Fld := ⟨.TLY_CTL, 0, 1, .rw, 0x0, false, false, false, true, true, true⟩
def F.TLY_CTL_degraded : Fld := ⟨.TLY_CTL, 1, 1, .ro, 0x0, false, false, false, true, true, true⟩
def F.TLY_CTL_standby : Fld := ⟨.TLY_CTL, 2, 1, .ro, 0x0, false, false, false, true, true, true⟩
def F.TLY_CTL_witness : Fld := ⟨.TLY_CTL, 3, 1, .ro, 0x0, false, false, false, true, true, true⟩
/-! TLY_TASK_BASE: R293 -/
def F.TLY_TASK_BASE_base : Fld := ⟨.TLY_TASK_BASE, 0, 48, .rw, 0x0, false, false, false, true, true, true⟩
/-! TLY_STAGING: R293 -/
def F.TLY_STAGING_base : Fld := ⟨.TLY_STAGING, 0, 27, .rw, 0x0, false, false, false, true, true, true⟩
def F.TLY_STAGING_granules : Fld := ⟨.TLY_STAGING, 32, 12, .rw, 0x0, false, false, false, true, true, true⟩
/-! TLY_AUDIT_CFG: R293 -/
def F.TLY_AUDIT_CFG_interval_s : Fld := ⟨.TLY_AUDIT_CFG, 0, 6, .rw, 0xA, false, false, false, true, true, true⟩
def F.TLY_AUDIT_CFG_enable : Fld := ⟨.TLY_AUDIT_CFG, 6, 1, .rw, 0x1, false, false, false, true, true, true⟩
/-! TLY_VERDICT_CNT: R293 -/
def F.TLY_VERDICT_CNT_written : Fld := ⟨.TLY_VERDICT_CNT, 0, 32, .ro, 0x0, false, false, false, true, true, true⟩
/-! TLY_FAULT_CNT: R293 -/
def F.TLY_FAULT_CNT_disagree : Fld := ⟨.TLY_FAULT_CNT, 0, 16, .rc, 0x0, false, false, false, false, true, true⟩
def F.TLY_FAULT_CNT_missing : Fld := ⟨.TLY_FAULT_CNT, 16, 16, .rc, 0x0, false, false, false, false, true, true⟩
def F.TLY_FAULT_CNT_late : Fld := ⟨.TLY_FAULT_CNT, 32, 16, .rc, 0x0, false, false, false, false, true, true⟩
def F.TLY_FAULT_CNT_no_verdict : Fld := ⟨.TLY_FAULT_CNT, 48, 16, .rc, 0x0, false, false, false, false, true, true⟩
/-! TLY_DISCARD_CNT: R293 -/
def F.TLY_DISCARD_CNT_late : Fld := ⟨.TLY_DISCARD_CNT, 0, 16, .rc, 0x0, false, false, false, false, true, true⟩
def F.TLY_DISCARD_CNT_truncated : Fld := ⟨.TLY_DISCARD_CNT, 16, 16, .rc, 0x0, false, false, false, false, true, true⟩
/-! TLY_ASSAY_STAT: R293 -/
def F.TLY_ASSAY_STAT_run : Fld := ⟨.TLY_ASSAY_STAT, 0, 16, .ro, 0x0, false, false, false, true, true, true⟩
def F.TLY_ASSAY_STAT_failed : Fld := ⟨.TLY_ASSAY_STAT, 16, 16, .rc, 0x0, false, false, false, false, true, true⟩
def F.TLY_ASSAY_STAT_deferred : Fld := ⟨.TLY_ASSAY_STAT, 32, 16, .rc, 0x0, false, false, false, false, true, true⟩
/-! TLY_AUDIT_STAT: R293 -/
def F.TLY_AUDIT_STAT_done : Fld := ⟨.TLY_AUDIT_STAT, 0, 16, .ro, 0x0, false, false, false, true, true, true⟩
def F.TLY_AUDIT_STAT_failed : Fld := ⟨.TLY_AUDIT_STAT, 16, 16, .rc, 0x0, false, false, false, false, true, true⟩
def F.TLY_AUDIT_STAT_overdue : Fld := ⟨.TLY_AUDIT_STAT, 32, 16, .rc, 0x0, false, false, false, false, true, true⟩
def F.TLY_AUDIT_STAT_postponed : Fld := ⟨.TLY_AUDIT_STAT, 48, 16, .rc, 0x0, false, false, false, false, true, true⟩
/-! TLY_TASK_STATE: R293 -/
def F.TLY_TASK_STATE_state : Fld := ⟨.TLY_TASK_STATE, 0, 3, .ro, 0x0, false, false, false, true, true, true⟩
def F.TLY_TASK_STATE_recent : Fld := ⟨.TLY_TASK_STATE, 3, 2, .ro, 0x0, false, false, false, true, true, true⟩
def F.TLY_TASK_STATE_a_fail : Fld := ⟨.TLY_TASK_STATE, 5, 1, .ro, 0x0, false, false, false, true, true, true⟩
def F.TLY_TASK_STATE_b_fail : Fld := ⟨.TLY_TASK_STATE, 6, 1, .ro, 0x0, false, false, false, true, true, true⟩
/-! TLY_MODE_VT: R293 -/
def F.TLY_MODE_VT_vt : Fld := ⟨.TLY_MODE_VT, 0, 64, .ro, 0x0, false, false, false, true, true, true⟩
/-! SVC_REC_STAT: R320 -/
def F.SVC_REC_STAT_generation : Fld := ⟨.SVC_REC_STAT, 0, 32, .ro, 0x0, false, false, false, true, true, true⟩
def F.SVC_REC_STAT_slot : Fld := ⟨.SVC_REC_STAT, 32, 1, .ro, 0x0, false, false, false, true, true, true⟩
def F.SVC_REC_STAT_pending : Fld := ⟨.SVC_REC_STAT, 33, 1, .ro, 0x0, false, false, false, true, true, true⟩
def F.SVC_REC_STAT_held : Fld := ⟨.SVC_REC_STAT, 34, 1, .ro, 0x0, false, false, false, true, true, true⟩
def F.SVC_REC_STAT_write_fail : Fld := ⟨.SVC_REC_STAT, 48, 16, .rc, 0x0, false, false, false, false, true, true⟩
/-! SVC_SPARE: R320 -/
def F.SVC_SPARE_core_spare_free : Fld := ⟨.SVC_SPARE, 0, 8, .ro, 0xFF, false, false, false, true, true, true⟩
def F.SVC_SPARE_unbacked : Fld := ⟨.SVC_SPARE, 8, 8, .ro, 0x0, false, false, false, true, true, true⟩
def F.SVC_SPARE_bank_spares : Fld := ⟨.SVC_SPARE, 16, 3, .ro, 0x4, false, false, false, true, true, true⟩
/-! SVC_DRAM: R320 -/
def F.SVC_DRAM_remap0 : Fld := ⟨.SVC_DRAM, 0, 13, .ro, 0x0, false, false, false, true, true, true⟩
def F.SVC_DRAM_remap1 : Fld := ⟨.SVC_DRAM, 16, 13, .ro, 0x0, false, false, false, true, true, true⟩
/-! SVC_PC_RETIRED: R320 -/
def F.SVC_PC_RETIRED_mask : Fld := ⟨.SVC_PC_RETIRED, 0, 64, .ro, 0x0, false, false, false, true, true, true⟩
/-! SVC_PC_PENDING: R320 -/
def F.SVC_PC_PENDING_mask : Fld := ⟨.SVC_PC_PENDING, 0, 64, .ro, 0x0, false, false, false, true, true, true⟩
/-! SVC_HATCH: R320 -/
def F.SVC_HATCH_modules : Fld := ⟨.SVC_HATCH, 0, 6, .ro, 0x10, false, false, false, true, true, true⟩
def F.SVC_HATCH_lanes_repaired : Fld := ⟨.SVC_HATCH, 8, 4, .ro, 0x0, false, false, false, true, true, true⟩
def F.SVC_HATCH_protocol : Fld := ⟨.SVC_HATCH, 16, 16, .ro, 0x0, false, false, false, true, true, true⟩
/-! SVC_SOAK: R320 -/
def F.SVC_SOAK_own_release : Fld := ⟨.SVC_SOAK, 0, 16, .ro, 0x0, false, false, false, true, true, true⟩
def F.SVC_SOAK_peer_release : Fld := ⟨.SVC_SOAK, 16, 16, .ro, 0x0, false, false, false, true, true, true⟩
def F.SVC_SOAK_soak_hours : Fld := ⟨.SVC_SOAK, 32, 16, .ro, 0x0, false, false, false, false, true, true⟩
def F.SVC_SOAK_committed : Fld := ⟨.SVC_SOAK, 48, 16, .ro, 0x0, false, false, false, false, true, true⟩
/-! MNT_CLASS_CFG: R345 -/
def F.MNT_CLASS_CFG_dram_g : Fld := ⟨.MNT_CLASS_CFG, 0, 20, .rw, 0x0, false, false, false, true, true, true⟩
def F.MNT_CLASS_CFG_criticality : Fld := ⟨.MNT_CLASS_CFG, 20, 4, .rw, 0x0, false, false, false, true, true, true⟩
def F.MNT_CLASS_CFG_borrow : Fld := ⟨.MNT_CLASS_CFG, 24, 1, .rw, 0x1, false, false, false, true, true, true⟩
def F.MNT_CLASS_CFG_window_us : Fld := ⟨.MNT_CLASS_CFG, 25, 7, .rw, 0x2, false, false, false, true, true, true⟩
def F.MNT_CLASS_CFG_hatch_g : Fld := ⟨.MNT_CLASS_CFG, 32, 16, .rw, 0x0, false, false, false, true, true, true⟩
def F.MNT_CLASS_CFG_depth : Fld := ⟨.MNT_CLASS_CFG, 48, 8, .rw, 0x40, false, false, false, true, true, true⟩
/-! MNT_CLASS_PORTS: R345 -/
def F.MNT_CLASS_PORTS_ports : Fld := ⟨.MNT_CLASS_PORTS, 0, 256, .rw, 0x0, false, false, false, true, true, true⟩
/-! MNT_CLASS_EFF: R345 -/
def F.MNT_CLASS_EFF_dram_eff : Fld := ⟨.MNT_CLASS_EFF, 0, 20, .ro, 0x0, false, false, false, true, true, true⟩
def F.MNT_CLASS_EFF_hatch_eff : Fld := ⟨.MNT_CLASS_EFF, 20, 16, .ro, 0x0, false, false, false, true, true, true⟩
/-! MNT_CLASS_AGE: R345 -/
def F.MNT_CLASS_AGE_vt : Fld := ⟨.MNT_CLASS_AGE, 0, 64, .ro, 0x0, false, false, false, true, true, true⟩
/-! MNT_BUDGET: R345 -/
def F.MNT_BUDGET_dram : Fld := ⟨.MNT_BUDGET, 0, 20, .ro, 0x30000, false, false, false, true, true, true⟩
def F.MNT_BUDGET_hatch : Fld := ⟨.MNT_BUDGET, 20, 16, .ro, 0x8980, false, false, false, true, true, true⟩
/-! MNT_FB_CFG: R345 -/
def F.MNT_FB_CFG_threshold : Fld := ⟨.MNT_FB_CFG, 0, 6, .rw, 0x30, false, false, false, true, true, true⟩
def F.MNT_FB_CFG_hyst : Fld := ⟨.MNT_FB_CFG, 6, 6, .rw, 0x10, false, false, false, true, true, true⟩
def F.MNT_FB_CFG_throttle0 : Fld := ⟨.MNT_FB_CFG, 12, 1, .ro, 0x0, false, false, false, true, true, true⟩
def F.MNT_FB_CFG_throttle1 : Fld := ⟨.MNT_FB_CFG, 13, 1, .ro, 0x0, false, false, false, true, true, true⟩
/-! MNT_MISS: R345 -/
def F.MNT_MISS_count : Fld := ⟨.MNT_MISS, 0, 16, .rc, 0x0, false, false, false, false, true, true⟩
def F.MNT_MISS_last_port : Fld := ⟨.MNT_MISS, 16, 8, .ro, 0x0, false, false, false, false, true, true⟩
/-! MNT_BW_RD: R345 -/
def F.MNT_BW_RD_bytes : Fld := ⟨.MNT_BW_RD, 0, 64, .ro, 0x0, false, false, false, true, true, true⟩
/-! MNT_BW_WR: R345 -/
def F.MNT_BW_WR_bytes : Fld := ⟨.MNT_BW_WR, 0, 64, .ro, 0x0, false, false, false, true, true, true⟩
/-! MNT_SURPLUS: R345 -/
def F.MNT_SURPLUS_bytes : Fld := ⟨.MNT_SURPLUS, 0, 64, .ro, 0x0, false, false, false, true, true, true⟩
/-! MNT_ECC: R345 -/
def F.MNT_ECC_corrected : Fld := ⟨.MNT_ECC, 0, 16, .rc, 0x0, false, false, false, false, true, true⟩
def F.MNT_ECC_uncorrected : Fld := ⟨.MNT_ECC, 16, 16, .rc, 0x0, false, false, false, false, true, true⟩
def F.MNT_ECC_scrub_passes : Fld := ⟨.MNT_ECC, 32, 16, .ro, 0x0, false, false, false, true, true, true⟩
def F.MNT_ECC_temp_c : Fld := ⟨.MNT_ECC, 48, 8, .ro, 0x0, false, false, false, true, true, true⟩
/-! MNT_SHUT: R345 -/
def F.MNT_SHUT_late : Fld := ⟨.MNT_SHUT, 0, 16, .rc, 0x0, false, false, false, false, true, true⟩
def F.MNT_SHUT_aborted : Fld := ⟨.MNT_SHUT, 16, 16, .rc, 0x0, false, false, false, false, true, true⟩
def F.MNT_SHUT_cores_shut : Fld := ⟨.MNT_SHUT, 32, 8, .ro, 0x0, false, false, true, true, true, true⟩
/-! MNT_CHAN_SHUT: R345 -/
def F.MNT_CHAN_SHUT_stack0 : Fld := ⟨.MNT_CHAN_SHUT, 0, 16, .ro, 0x0, false, false, false, true, true, true⟩
def F.MNT_CHAN_SHUT_stack1 : Fld := ⟨.MNT_CHAN_SHUT, 16, 16, .ro, 0x0, false, false, false, true, true, true⟩
/-! MNT_INT: R345 -/
def F.MNT_INT_miss : Fld := ⟨.MNT_INT, 0, 1, .w1c, 0x0, false, false, false, false, true, true⟩
def F.MNT_INT_cut : Fld := ⟨.MNT_INT, 1, 1, .w1c, 0x0, false, false, false, false, true, true⟩
def F.MNT_INT_uncorrected : Fld := ⟨.MNT_INT, 2, 1, .w1c, 0x0, false, false, false, false, true, true⟩
def F.MNT_INT_throttle : Fld := ⟨.MNT_INT, 3, 1, .w1c, 0x0, false, false, false, false, true, true⟩
/-! HTC_LINK: R361 -/
def F.HTC_LINK_state : Fld := ⟨.HTC_LINK, 0, 3, .ro, 0x0, false, false, false, true, true, true⟩
def F.HTC_LINK_modules_up : Fld := ⟨.HTC_LINK, 3, 3, .ro, 0x0, false, false, false, true, true, true⟩
def F.HTC_LINK_protocol : Fld := ⟨.HTC_LINK, 16, 16, .ro, 0x0, false, false, false, true, true, true⟩
def F.HTC_LINK_peer_release : Fld := ⟨.HTC_LINK, 32, 16, .ro, 0x0, false, false, false, true, true, true⟩
/-! HTC_ERR_CNT: R361 -/
def F.HTC_ERR_CNT_replays : Fld := ⟨.HTC_ERR_CNT, 0, 16, .rc, 0x0, false, false, false, false, true, true⟩
def F.HTC_ERR_CNT_fec_corr : Fld := ⟨.HTC_ERR_CNT, 16, 16, .rc, 0x0, false, false, false, false, true, true⟩
def F.HTC_ERR_CNT_violations : Fld := ⟨.HTC_ERR_CNT, 32, 16, .rc, 0x0, false, false, false, false, true, true⟩
def F.HTC_ERR_CNT_demotions : Fld := ⟨.HTC_ERR_CNT, 48, 16, .rc, 0x0, false, false, false, false, true, true⟩
/-! HTC_VIOL_LAST: R361 -/
def F.HTC_VIOL_LAST_code : Fld := ⟨.HTC_VIOL_LAST, 0, 8, .ro, 0x0, false, false, false, false, true, true⟩
def F.HTC_VIOL_LAST_type : Fld := ⟨.HTC_VIOL_LAST, 8, 8, .ro, 0x0, false, false, false, false, true, true⟩
def F.HTC_VIOL_LAST_vt : Fld := ⟨.HTC_VIOL_LAST, 16, 32, .ro, 0x0, false, false, false, false, true, true⟩
/-! HTC_SEM_STAT: R361 -/
def F.HTC_SEM_STAT_held : Fld := ⟨.HTC_SEM_STAT, 0, 9, .ro, 0x0, false, false, false, true, true, true⟩
def F.HTC_SEM_STAT_steals : Fld := ⟨.HTC_SEM_STAT, 16, 16, .rc, 0x0, false, false, false, false, true, true⟩
def F.HTC_SEM_STAT_expiries : Fld := ⟨.HTC_SEM_STAT, 32, 16, .rc, 0x0, false, false, false, false, true, true⟩
/-! HTC_VT_DIFF: R361 -/
def F.HTC_VT_DIFF_diff_ns : Fld := ⟨.HTC_VT_DIFF, 0, 32, .ro, 0x0, false, false, false, true, true, true⟩
def F.HTC_VT_DIFF_alarm : Fld := ⟨.HTC_VT_DIFF, 32, 1, .ro, 0x0, false, false, false, true, true, true⟩
/-! GTW_CTL: R372 -/
def F.GTW_CTL_enable : Fld := ⟨.GTW_CTL, 0, 1, .rw, 0x0, false, false, false, true, true, true⟩
def F.GTW_CTL_mark : Fld := ⟨.GTW_CTL, 1, 4, .rw, 0x0, false, false, false, true, true, true⟩
def F.GTW_CTL_seed : Fld := ⟨.GTW_CTL, 16, 16, .rw, 0x1, false, false, false, true, true, true⟩
/-! GTW_OVF_BASE: R372 -/
def F.GTW_OVF_BASE_base : Fld := ⟨.GTW_OVF_BASE, 0, 48, .rw, 0x0, false, false, false, true, true, true⟩
def F.GTW_OVF_BASE_k : Fld := ⟨.GTW_OVF_BASE, 48, 5, .rw, 0x0, false, false, false, true, true, true⟩
/-! GTW_STAT: R372 -/
def F.GTW_STAT_hw_routes : Fld := ⟨.GTW_STAT, 0, 17, .ro, 0x0, false, false, false, true, true, true⟩
def F.GTW_STAT_ovf_routes : Fld := ⟨.GTW_STAT, 17, 23, .ro, 0x0, false, false, false, true, true, true⟩
/-! GTW_DROP: R372 -/
def F.GTW_DROP_miss : Fld := ⟨.GTW_DROP, 0, 16, .rc, 0x0, false, false, false, false, true, true⟩
def F.GTW_DROP_tx_full : Fld := ⟨.GTW_DROP, 16, 16, .rc, 0x0, false, false, false, false, true, true⟩
def F.GTW_DROP_queue_full : Fld := ⟨.GTW_DROP, 32, 16, .rc, 0x0, false, false, false, false, true, true⟩
def F.GTW_DROP_remote_down : Fld := ⟨.GTW_DROP, 48, 16, .rc, 0x0, false, false, false, false, true, true⟩
/-! GTW_STREAM_ERR: R372 -/
def F.GTW_STREAM_ERR_seq_gap : Fld := ⟨.GTW_STREAM_ERR, 0, 16, .rc, 0x0, false, false, false, false, true, true⟩
def F.GTW_STREAM_ERR_malformed : Fld := ⟨.GTW_STREAM_ERR, 16, 16, .rc, 0x0, false, false, false, false, true, true⟩
/-! GTW_FWD_CNT: R372 -/
def F.GTW_FWD_CNT_frames : Fld := ⟨.GTW_FWD_CNT, 0, 64, .ro, 0x0, false, false, false, true, true, true⟩
/-! TEL_ID: R394 -/
def F.TEL_ID_vdi : Fld := ⟨.TEL_ID, 0, 8, .ro, 0x0, false, false, false, true, true, true⟩
def F.TEL_ID_profile : Fld := ⟨.TEL_ID, 8, 1, .ro, 0x0, false, false, false, true, true, true⟩
def F.TEL_ID_half : Fld := ⟨.TEL_ID, 9, 1, .ro, 0x0, false, false, false, true, true, true⟩
def F.TEL_ID_release : Fld := ⟨.TEL_ID, 16, 16, .ro, 0x0, false, false, false, true, true, true⟩
/-! TEL_GEN: R394 -/
def F.TEL_GEN_generation : Fld := ⟨.TEL_GEN, 0, 16, .ro, 0x0, false, false, false, true, true, true⟩
/-! TEL_STATE: R394 -/
def F.TEL_STATE_state : Fld := ⟨.TEL_STATE, 0, 3, .ro, 0x0, false, true, false, true, true, true⟩
def F.TEL_STATE_degraded : Fld := ⟨.TEL_STATE, 3, 1, .ro, 0x0, false, false, false, true, true, true⟩
/-! TEL_NOTICE: R394 -/
def F.TEL_NOTICE_bank_withdrawn : Fld := ⟨.TEL_NOTICE, 0, 1, .w1c, 0x0, false, true, false, true, true, true⟩
def F.TEL_NOTICE_class_cut : Fld := ⟨.TEL_NOTICE, 1, 1, .w1c, 0x0, false, true, false, true, true, true⟩
def F.TEL_NOTICE_half_down : Fld := ⟨.TEL_NOTICE, 2, 1, .w1c, 0x0, false, true, false, true, true, true⟩
def F.TEL_NOTICE_half_up : Fld := ⟨.TEL_NOTICE, 3, 1, .w1c, 0x0, false, true, false, true, true, true⟩
def F.TEL_NOTICE_stream_stale : Fld := ⟨.TEL_NOTICE, 4, 1, .w1c, 0x0, false, true, false, true, true, true⟩
def F.TEL_NOTICE_gen_change : Fld := ⟨.TEL_NOTICE, 5, 1, .w1c, 0x0, false, true, false, true, true, true⟩
/-! TEL_NOTICE_EN: R394 -/
def F.TEL_NOTICE_EN_enable : Fld := ⟨.TEL_NOTICE_EN, 0, 6, .rw, 0x0, false, true, false, true, true, true⟩
/-! TEL_NOTICE_DETAIL: R394 -/
def F.TEL_NOTICE_DETAIL_detail : Fld := ⟨.TEL_NOTICE_DETAIL, 0, 32, .ro, 0x0, false, true, false, true, true, true⟩
def F.TEL_NOTICE_DETAIL_status : Fld := ⟨.TEL_NOTICE_DETAIL, 32, 8, .ro, 0x0, false, true, false, true, true, true⟩
/-! TEL_MBX_REQ: R394 -/
def F.TEL_MBX_REQ_message : Fld := ⟨.TEL_MBX_REQ, 0, 512, .wo, 0x0, false, true, false, true, true, true⟩
/-! TEL_MBX_GO: R394 -/
def F.TEL_MBX_GO_go : Fld := ⟨.TEL_MBX_GO, 0, 1, .wo, 0x0, false, false, false, false, false, false⟩
/-! TEL_MBX_STAT: R394 -/
def F.TEL_MBX_STAT_busy : Fld := ⟨.TEL_MBX_STAT, 0, 1, .ro, 0x0, false, false, false, true, true, true⟩
def F.TEL_MBX_STAT_done : Fld := ⟨.TEL_MBX_STAT, 1, 1, .w1c, 0x0, false, false, false, true, true, true⟩
def F.TEL_MBX_STAT_irq_en : Fld := ⟨.TEL_MBX_STAT, 2, 1, .rw, 0x0, false, true, false, true, true, true⟩
/-! TEL_MBX_REPLY: R394 -/
def F.TEL_MBX_REPLY_message : Fld := ⟨.TEL_MBX_REPLY, 0, 512, .ro, 0x0, false, false, false, true, true, true⟩
/-! TEL_DMA_WIN: R394 -/
def F.TEL_DMA_WIN_base : Fld := ⟨.TEL_DMA_WIN, 0, 48, .ro, 0x0, false, true, false, true, true, true⟩
def F.TEL_DMA_WIN_size : Fld := ⟨.TEL_DMA_WIN, 64, 48, .ro, 0x0, false, true, false, true, true, true⟩
/-! TEL_PORT_STAT: R401 -/
def F.TEL_PORT_STAT_crc_drop : Fld := ⟨.TEL_PORT_STAT, 0, 16, .rc, 0x0, false, false, false, false, true, true⟩
def F.TEL_PORT_STAT_nak : Fld := ⟨.TEL_PORT_STAT, 16, 16, .rc, 0x0, false, false, false, false, true, true⟩
def F.TEL_PORT_STAT_sessions : Fld := ⟨.TEL_PORT_STAT, 32, 8, .ro, 0x0, false, false, false, true, true, true⟩
def F.TEL_PORT_STAT_insecure : Fld := ⟨.TEL_PORT_STAT, 40, 8, .rc, 0x0, false, false, false, false, true, true⟩
def F.TEL_PORT_STAT_teller_busy : Fld := ⟨.TEL_PORT_STAT, 48, 16, .rc, 0x0, false, false, false, false, true, true⟩
/-! TEL_DP_CTL: R401 -/
def F.TEL_DP_CTL_enable : Fld := ⟨.TEL_DP_CTL, 0, 1, .rw, 0x0, false, false, false, true, true, true⟩
def F.TEL_DP_CTL_qbv_en : Fld := ⟨.TEL_DP_CTL, 1, 1, .rw, 0x0, false, false, false, true, true, true⟩
def F.TEL_DP_CTL_mac : Fld := ⟨.TEL_DP_CTL, 16, 48, .rw, 0x0, false, false, false, true, true, true⟩
/-! TEL_DP_CNT: R401 -/
def F.TEL_DP_CNT_rx_frames : Fld := ⟨.TEL_DP_CNT, 0, 32, .ro, 0x0, false, false, false, true, true, true⟩
def F.TEL_DP_CNT_tx_frames : Fld := ⟨.TEL_DP_CNT, 32, 32, .ro, 0x0, false, false, false, true, true, true⟩
/-! TEL_DP_ERR: R401 -/
def F.TEL_DP_ERR_fcs : Fld := ⟨.TEL_DP_ERR, 0, 16, .rc, 0x0, false, false, false, false, true, true⟩
def F.TEL_DP_ERR_gate_drop : Fld := ⟨.TEL_DP_ERR, 16, 16, .rc, 0x0, false, false, false, false, true, true⟩
/-! TEL_VDI_STAT: R423 -/
def F.TEL_VDI_STAT_stale_gen : Fld := ⟨.TEL_VDI_STAT, 0, 16, .rc, 0x0, false, false, false, false, true, true⟩
def F.TEL_VDI_STAT_resets : Fld := ⟨.TEL_VDI_STAT, 16, 16, .ro, 0x0, false, false, false, false, true, true⟩
def F.TEL_VDI_STAT_exists : Fld := ⟨.TEL_VDI_STAT, 32, 1, .ro, 0x0, false, false, false, true, true, true⟩
def F.TEL_VDI_STAT_log_on : Fld := ⟨.TEL_VDI_STAT, 33, 1, .ro, 0x0, false, false, false, true, true, true⟩
def F.TEL_VDI_STAT_log_buf : Fld := ⟨.TEL_VDI_STAT, 34, 1, .ro, 0x0, false, false, false, true, true, true⟩
def F.TEL_VDI_STAT_log_pages : Fld := ⟨.TEL_VDI_STAT, 35, 21, .ro, 0x0, false, false, false, true, true, true⟩
def F.TEL_VDI_STAT_mig_step : Fld := ⟨.TEL_VDI_STAT, 56, 3, .ro, 0x0, false, false, false, true, true, true⟩
/-! DSP_PIPE_CTL: R443 -/
def F.DSP_PIPE_CTL_enable : Fld := ⟨.DSP_PIPE_CTL, 0, 1, .rw, 0x0, false, false, false, true, true, true⟩
def F.DSP_PIPE_CTL_tt_only : Fld := ⟨.DSP_PIPE_CTL, 1, 1, .ro, 0x0, false, false, false, true, true, true⟩
def F.DSP_PIPE_CTL_blanked : Fld := ⟨.DSP_PIPE_CTL, 2, 1, .ro, 0x0, false, false, false, true, true, true⟩
/-! DSP_PIPE_TIMING0: R443 -/
def F.DSP_PIPE_TIMING0_h_active : Fld := ⟨.DSP_PIPE_TIMING0, 0, 16, .rw, 0x0, false, false, false, true, true, true⟩
def F.DSP_PIPE_TIMING0_h_total : Fld := ⟨.DSP_PIPE_TIMING0, 16, 16, .rw, 0x0, false, false, false, true, true, true⟩
def F.DSP_PIPE_TIMING0_v_active : Fld := ⟨.DSP_PIPE_TIMING0, 32, 16, .rw, 0x0, false, false, false, true, true, true⟩
def F.DSP_PIPE_TIMING0_v_total : Fld := ⟨.DSP_PIPE_TIMING0, 48, 16, .rw, 0x0, false, false, false, true, true, true⟩
/-! DSP_PIPE_TIMING1: R443 -/
def F.DSP_PIPE_TIMING1_h_sync_start : Fld := ⟨.DSP_PIPE_TIMING1, 0, 16, .rw, 0x0, false, false, false, true, true, true⟩
def F.DSP_PIPE_TIMING1_h_sync_width : Fld := ⟨.DSP_PIPE_TIMING1, 16, 16, .rw, 0x0, false, false, false, true, true, true⟩
def F.DSP_PIPE_TIMING1_v_sync_start : Fld := ⟨.DSP_PIPE_TIMING1, 32, 16, .rw, 0x0, false, false, false, true, true, true⟩
def F.DSP_PIPE_TIMING1_v_sync_width : Fld := ⟨.DSP_PIPE_TIMING1, 48, 16, .rw, 0x0, false, false, false, true, true, true⟩
/-! DSP_PIPE_LINK: R443 -/
def F.DSP_PIPE_LINK_pixel_khz : Fld := ⟨.DSP_PIPE_LINK, 0, 32, .rw, 0x0, false, false, false, true, true, true⟩
def F.DSP_PIPE_LINK_protocol : Fld := ⟨.DSP_PIPE_LINK, 32, 1, .rw, 0x0, false, false, false, true, true, true⟩
def F.DSP_PIPE_LINK_rate : Fld := ⟨.DSP_PIPE_LINK, 33, 2, .rw, 0x0, false, false, false, true, true, true⟩
def F.DSP_PIPE_LINK_lanes : Fld := ⟨.DSP_PIPE_LINK, 35, 2, .rw, 0x0, false, false, false, true, true, true⟩
def F.DSP_PIPE_LINK_bpc10 : Fld := ⟨.DSP_PIPE_LINK, 37, 1, .rw, 0x0, false, false, false, true, true, true⟩
def F.DSP_PIPE_LINK_h_pol : Fld := ⟨.DSP_PIPE_LINK, 38, 1, .rw, 0x0, false, false, false, true, true, true⟩
def F.DSP_PIPE_LINK_v_pol : Fld := ⟨.DSP_PIPE_LINK, 39, 1, .rw, 0x0, false, false, false, true, true, true⟩
/-! DSP_PIPE_VT: R443 -/
def F.DSP_PIPE_VT_next_s : Fld := ⟨.DSP_PIPE_VT, 0, 64, .ro, 0x0, false, false, false, true, true, true⟩
/-! DSP_PIPE_STAT: R443 -/
def F.DSP_PIPE_STAT_frames : Fld := ⟨.DSP_PIPE_STAT, 0, 32, .ro, 0x0, false, false, false, true, true, true⟩
def F.DSP_PIPE_STAT_repeats : Fld := ⟨.DSP_PIPE_STAT, 32, 16, .rc, 0x0, false, false, false, false, true, true⟩
def F.DSP_PIPE_STAT_misses : Fld := ⟨.DSP_PIPE_STAT, 48, 16, .rc, 0x0, false, false, false, false, true, true⟩
/-! DSP_PLANE_POS: R443 -/
def F.DSP_PLANE_POS_x : Fld := ⟨.DSP_PLANE_POS, 0, 16, .rw, 0x0, false, false, false, true, true, true⟩
def F.DSP_PLANE_POS_y : Fld := ⟨.DSP_PLANE_POS, 16, 16, .rw, 0x0, false, false, false, true, true, true⟩
def F.DSP_PLANE_POS_width : Fld := ⟨.DSP_PLANE_POS, 32, 16, .rw, 0x0, false, false, false, true, true, true⟩
def F.DSP_PLANE_POS_height : Fld := ⟨.DSP_PLANE_POS, 48, 16, .rw, 0x0, false, false, false, true, true, true⟩
/-! DSP_PLANE_FMT: R443 -/
def F.DSP_PLANE_FMT_format : Fld := ⟨.DSP_PLANE_FMT, 0, 2, .rw, 0x0, false, false, false, true, true, true⟩
def F.DSP_PLANE_FMT_enable : Fld := ⟨.DSP_PLANE_FMT, 2, 1, .rw, 0x0, false, false, false, true, true, true⟩
def F.DSP_PLANE_FMT_owner_vdi : Fld := ⟨.DSP_PLANE_FMT, 3, 8, .rw, 0x0, false, false, false, true, true, true⟩
def F.DSP_PLANE_FMT_premult : Fld := ⟨.DSP_PLANE_FMT, 11, 1, .rw, 0x1, false, false, false, true, true, true⟩
def F.DSP_PLANE_FMT_alpha : Fld := ⟨.DSP_PLANE_FMT, 12, 8, .rw, 0xFF, false, false, false, true, true, true⟩
/-! DSP_PLANE_RING: R443 -/
def F.DSP_PLANE_RING_ring : Fld := ⟨.DSP_PLANE_RING, 0, 48, .rw, 0x0, false, false, false, true, true, true⟩
/-! DSP_FLIP_STAT: R443 -/
def F.DSP_FLIP_STAT_skipped : Fld := ⟨.DSP_FLIP_STAT, 0, 16, .rc, 0x0, false, false, false, false, true, true⟩
def F.DSP_FLIP_STAT_ring_err : Fld := ⟨.DSP_FLIP_STAT, 16, 16, .rc, 0x0, false, false, false, false, true, true⟩
/-! DSP_TT_STATE: R443 -/
def F.DSP_TT_STATE_slots : Fld := ⟨.DSP_TT_STATE, 0, 62, .rw, 0x0, false, false, false, true, true, true⟩
def F.DSP_TT_STATE_slot31 : Fld := ⟨.DSP_TT_STATE, 62, 2, .ro, 0x0, false, false, false, true, true, true⟩
/-! DSP_TT_ERR: R443 -/
def F.DSP_TT_ERR_crc_fail : Fld := ⟨.DSP_TT_ERR, 0, 16, .rc, 0x0, false, false, false, false, true, true⟩
def F.DSP_TT_ERR_consecutive : Fld := ⟨.DSP_TT_ERR, 16, 8, .ro, 0x0, false, false, false, true, true, true⟩
/-! DSP_RAS_STAT: R443 -/
def F.DSP_RAS_STAT_overflows : Fld := ⟨.DSP_RAS_STAT, 0, 16, .rc, 0x0, false, false, false, false, true, true⟩
def F.DSP_RAS_STAT_grows : Fld := ⟨.DSP_RAS_STAT, 16, 16, .ro, 0x0, false, false, true, true, true, true⟩
def F.DSP_RAS_STAT_renders : Fld := ⟨.DSP_RAS_STAT, 32, 32, .ro, 0x0, false, false, true, true, true, true⟩
/-! SVC_FW_STAT: R468 -/
def F.SVC_FW_STAT_release : Fld := ⟨.SVC_FW_STAT, 0, 16, .ro, 0x0, false, false, false, true, true, true⟩
def F.SVC_FW_STAT_staged : Fld := ⟨.SVC_FW_STAT, 16, 16, .ro, 0x0, false, false, false, true, true, true⟩
def F.SVC_FW_STAT_active_slot : Fld := ⟨.SVC_FW_STAT, 32, 1, .ro, 0x0, false, false, false, true, true, true⟩
def F.SVC_FW_STAT_trial : Fld := ⟨.SVC_FW_STAT, 33, 1, .ro, 0x0, false, false, false, true, true, true⟩
def F.SVC_FW_STAT_staged_mask : Fld := ⟨.SVC_FW_STAT, 34, 4, .ro, 0x0, false, false, false, true, true, true⟩
/-! SVC_FW_ACT: R468 -/
def F.SVC_FW_ACT_pending : Fld := ⟨.SVC_FW_ACT, 0, 4, .ro, 0x0, false, false, false, true, true, true⟩
def F.SVC_FW_ACT_deferred : Fld := ⟨.SVC_FW_ACT, 4, 1, .ro, 0x0, false, false, false, true, true, true⟩
def F.SVC_FW_ACT_busy : Fld := ⟨.SVC_FW_ACT, 5, 1, .ro, 0x0, false, false, false, true, true, true⟩
def F.SVC_FW_ACT_cause : Fld := ⟨.SVC_FW_ACT, 8, 3, .ro, 0x0, false, false, false, true, true, true⟩
def F.SVC_FW_ACT_last_status : Fld := ⟨.SVC_FW_ACT, 16, 8, .ro, 0x0, false, false, false, true, true, true⟩
/-! SVC_FW_CRASH: R468 -/
def F.SVC_FW_CRASH_steward : Fld := ⟨.SVC_FW_CRASH, 0, 16, .rc, 0x0, false, false, false, false, true, true⟩
def F.SVC_FW_CRASH_gatehouse : Fld := ⟨.SVC_FW_CRASH, 16, 16, .rc, 0x0, false, false, false, false, true, true⟩
def F.SVC_FW_CRASH_fallback : Fld := ⟨.SVC_FW_CRASH, 32, 16, .rc, 0x0, false, false, false, false, true, true⟩
def F.SVC_FW_CRASH_rollback : Fld := ⟨.SVC_FW_CRASH, 48, 16, .rc, 0x0, false, false, false, false, true, true⟩
/-! SVC_UFS_STAT: R468 -/
def F.SVC_UFS_STAT_gear : Fld := ⟨.SVC_UFS_STAT, 0, 3, .ro, 0x0, false, false, false, true, true, true⟩
def F.SVC_UFS_STAT_lanes : Fld := ⟨.SVC_UFS_STAT, 3, 2, .ro, 0x0, false, false, false, true, true, true⟩
def F.SVC_UFS_STAT_link_up : Fld := ⟨.SVC_UFS_STAT, 5, 1, .ro, 0x0, false, false, false, true, true, true⟩
def F.SVC_UFS_STAT_retries : Fld := ⟨.SVC_UFS_STAT, 16, 16, .rc, 0x0, false, false, false, false, true, true⟩
def F.SVC_UFS_STAT_rpmb_fail : Fld := ⟨.SVC_UFS_STAT, 32, 16, .rc, 0x0, false, false, false, false, true, true⟩
/-! SVC_VAULT_STAT: R490 -/
def F.SVC_VAULT_STAT_sealed : Fld := ⟨.SVC_VAULT_STAT, 0, 64, .ro, 0x0, false, false, false, true, true, true⟩
/-! SVC_VAULT_CNT: R490 -/
def F.SVC_VAULT_CNT_refused : Fld := ⟨.SVC_VAULT_CNT, 0, 16, .rc, 0x0, false, false, false, false, true, true⟩
def F.SVC_VAULT_CNT_faults : Fld := ⟨.SVC_VAULT_CNT, 16, 16, .rc, 0x0, false, false, false, false, true, true⟩
def F.SVC_VAULT_CNT_timeouts : Fld := ⟨.SVC_VAULT_CNT, 32, 16, .rc, 0x0, false, false, false, false, true, true⟩
def F.SVC_VAULT_CNT_unlock_fail : Fld := ⟨.SVC_VAULT_CNT, 48, 8, .rc, 0x0, false, false, false, false, false, true⟩
/-! SVC_LIFECYCLE: R490 -/
def F.SVC_LIFECYCLE_state : Fld := ⟨.SVC_LIFECYCLE, 0, 2, .ro, 0x0, false, false, false, true, true, true⟩
def F.SVC_LIFECYCLE_debug : Fld := ⟨.SVC_LIFECYCLE, 2, 1, .ro, 0x0, false, false, false, false, false, true⟩
def F.SVC_LIFECYCLE_pending : Fld := ⟨.SVC_LIFECYCLE, 3, 1, .ro, 0x0, false, false, false, true, true, true⟩
def F.SVC_LIFECYCLE_counter : Fld := ⟨.SVC_LIFECYCLE, 32, 32, .ro, 0x0, false, false, false, true, true, true⟩
/-! CLK_GATE_OWNER: R490 -/
def F.CLK_GATE_OWNER_receivers : Fld := ⟨.CLK_GATE_OWNER, 0, 8, .ro, 0x0, false, false, false, true, true, true⟩
def F.CLK_GATE_OWNER_pipes : Fld := ⟨.CLK_GATE_OWNER, 8, 2, .ro, 0x0, false, false, false, true, true, true⟩
def F.CLK_GATE_OWNER_can : Fld := ⟨.CLK_GATE_OWNER, 10, 8, .ro, 0x0, false, false, false, true, true, true⟩
def F.CLK_GATE_OWNER_dports : Fld := ⟨.CLK_GATE_OWNER, 18, 2, .ro, 0x0, false, false, false, true, true, true⟩
/-! CLK_GATE_REFUSED: R490 -/
def F.CLK_GATE_REFUSED_count : Fld := ⟨.CLK_GATE_REFUSED, 0, 16, .rc, 0x0, false, false, false, false, true, true⟩
def F.CLK_GATE_REFUSED_last_block : Fld := ⟨.CLK_GATE_REFUSED, 16, 16, .ro, 0x0, false, false, false, false, true, true⟩
/-! CLK_STAT: R508 -/
def F.CLK_STAT_power_state : Fld := ⟨.CLK_STAT, 0, 3, .ro, 0x0, false, false, false, true, true, true⟩
def F.CLK_STAT_stage_logic : Fld := ⟨.CLK_STAT, 3, 3, .ro, 0x0, false, false, false, true, true, true⟩
def F.CLK_STAT_stage_dram : Fld := ⟨.CLK_STAT, 6, 3, .ro, 0x0, false, false, false, true, true, true⟩
def F.CLK_STAT_xtal_ok : Fld := ⟨.CLK_STAT, 9, 1, .ro, 0x0, false, false, false, true, true, true⟩
def F.CLK_STAT_pll_locked : Fld := ⟨.CLK_STAT, 10, 1, .ro, 0x0, false, false, false, true, true, true⟩
def F.CLK_STAT_on_pll : Fld := ⟨.CLK_STAT, 11, 8, .ro, 0x0, false, false, false, true, true, true⟩
/-! CLK_TRIM: R508 -/
def F.CLK_TRIM_div : Fld := ⟨.CLK_TRIM, 0, 2, .ro, 0x0, false, false, true, true, true, true⟩
def F.CLK_TRIM_trimmed : Fld := ⟨.CLK_TRIM, 2, 8, .ro, 0x0, false, false, true, true, true, true⟩
def F.CLK_TRIM_trim_ms : Fld := ⟨.CLK_TRIM, 32, 32, .ro, 0x0, false, false, false, false, false, true⟩
/-! CLK_MON: R508 -/
def F.CLK_MON_stops : Fld := ⟨.CLK_MON, 0, 16, .rc, 0x0, false, false, false, false, true, true⟩
def F.CLK_MON_range : Fld := ⟨.CLK_MON, 16, 16, .rc, 0x0, false, false, false, false, true, true⟩
def F.CLK_MON_last_tree : Fld := ⟨.CLK_MON, 32, 4, .ro, 0x0, false, false, false, false, true, true⟩
def F.CLK_MON_last_core : Fld := ⟨.CLK_MON, 36, 8, .ro, 0x0, false, false, false, false, true, true⟩
def F.CLK_MON_rc_fail : Fld := ⟨.CLK_MON, 48, 16, .rc, 0x0, false, false, false, false, true, true⟩
/-! CLK_THERM: R508 -/
def F.CLK_THERM_tj_max : Fld := ⟨.CLK_THERM, 0, 8, .ro, 0x0, false, false, false, true, true, true⟩
def F.CLK_THERM_sensor : Fld := ⟨.CLK_THERM, 8, 5, .ro, 0x0, false, false, false, true, true, true⟩
def F.CLK_THERM_warn : Fld := ⟨.CLK_THERM, 16, 16, .rc, 0x0, false, false, false, false, true, true⟩
def F.CLK_THERM_shed : Fld := ⟨.CLK_THERM, 32, 16, .rc, 0x0, false, false, false, false, true, true⟩
def F.CLK_THERM_trip : Fld := ⟨.CLK_THERM, 48, 16, .rc, 0x0, false, false, false, false, true, true⟩
/-! CLK_WAKE_STAT: R508 -/
def F.CLK_WAKE_STAT_source : Fld := ⟨.CLK_WAKE_STAT, 0, 4, .ro, 0x0, false, false, false, false, false, true⟩
def F.CLK_WAKE_STAT_unit : Fld := ⟨.CLK_WAKE_STAT, 4, 4, .ro, 0x0, false, false, false, false, false, true⟩
def F.CLK_WAKE_STAT_wakes : Fld := ⟨.CLK_WAKE_STAT, 32, 32, .ro, 0x0, false, false, false, false, false, true⟩
/-! CLK_RESET_CAUSE: R508 -/
def F.CLK_RESET_CAUSE_kind : Fld := ⟨.CLK_RESET_CAUSE, 0, 3, .ro, 0x4, false, false, false, false, false, true⟩
def F.CLK_RESET_CAUSE_cause : Fld := ⟨.CLK_RESET_CAUSE, 8, 8, .ro, 0xF, false, false, false, false, false, true⟩
def F.CLK_RESET_CAUSE_resets : Fld := ⟨.CLK_RESET_CAUSE, 32, 32, .ro, 0x0, false, false, false, false, false, true⟩
/-! CLK_VT_STAT: R508 -/
def F.CLK_VT_STAT_servo : Fld := ⟨.CLK_VT_STAT, 0, 2, .ro, 0x0, false, false, false, true, true, true⟩
def F.CLK_VT_STAT_stepped : Fld := ⟨.CLK_VT_STAT, 2, 1, .ro, 0x0, false, false, false, true, true, true⟩
def F.CLK_VT_STAT_held : Fld := ⟨.CLK_VT_STAT, 3, 1, .ro, 0x0, false, false, false, true, true, true⟩
def F.CLK_VT_STAT_rate_ppb : Fld := ⟨.CLK_VT_STAT, 32, 32, .ro, 0x0, false, false, false, true, true, true⟩
/-! CLK_VT_OFFSET: R508 -/
def F.CLK_VT_OFFSET_theta_ns : Fld := ⟨.CLK_VT_OFFSET, 0, 64, .ro, 0x0, false, false, false, true, true, true⟩

/-- The fields of a register, in its table's order; bits in no field are reserved. -/
def regFields : Reg → List Fld
  | .TIL_ERR_CNT => [F.TIL_ERR_CNT_till_err, F.TIL_ERR_CNT_opb_err]
  | .TIL_HAZARD_CNT => [F.TIL_HAZARD_CNT_hazard]
  | .TIL_MOVE_TS => [F.TIL_MOVE_TS_bytes]
  | .TIL_MOVE_ST => [F.TIL_MOVE_ST_bytes]
  | .TIL_MOVE_TD => [F.TIL_MOVE_TD_bytes]
  | .TIL_MOVE_DT => [F.TIL_MOVE_DT_bytes]
  | .TIL_CLEAR_STAT => [F.TIL_CLEAR_STAT_clear_count, F.TIL_CLEAR_STAT_last_cycles]
  | .STR_BANK_MAP => [F.STR_BANK_MAP_phys_bank]
  | .STR_BANK_ERR => [F.STR_BANK_ERR_err]
  | .STR_GROUP_STATE => [F.STR_GROUP_STATE_shut, F.STR_GROUP_STATE_withdrawn]
  | .STR_MOVE_CTL => [F.STR_MOVE_CTL_target, F.STR_MOVE_CTL_active, F.STR_MOVE_CTL_pointer]
  | .STR_PATROL => [F.STR_PATROL_enable, F.STR_PATROL_passes]
  | .STR_ZERO_STAT => [F.STR_ZERO_STAT_pending]
  | .STR_FREE => [F.STR_FREE_free_granules]
  | .SIV_CMD_CNT => [F.SIV_CMD_CNT_commands]
  | .SIV_ERR_CNT => [F.SIV_ERR_CNT_data_err, F.SIV_ERR_CNT_overrun]
  | .SIV_BUSY => [F.SIV_BUSY_busy, F.SIV_BUSY_window]
  | .SIV_LAST_NS => [F.SIV_LAST_NS_engine_ns]
  | .INT_RX_CFG => [F.INT_RX_CFG_enable, F.INT_RX_CFG_phy, F.INT_RX_CFG_lanes, F.INT_RX_CFG_rate]
  | .INT_RX_ERR_CNT => [F.INT_RX_ERR_CNT_ecc_corr, F.INT_RX_ERR_CNT_hdr_drop, F.INT_RX_ERR_CNT_crc_drop, F.INT_RX_ERR_CNT_other_drop]
  | .INT_STREAM_CFG => [F.INT_STREAM_CFG_enable, F.INT_STREAM_CFG_vc, F.INT_STREAM_CFG_data_type, F.INT_STREAM_CFG_regroup, F.INT_STREAM_CFG_out_fmt, F.INT_STREAM_CFG_round_mode, F.INT_STREAM_CFG_sat_mode, F.INT_STREAM_CFG_counter_src, F.INT_STREAM_CFG_irq_en, F.INT_STREAM_CFG_stale_en, F.INT_STREAM_CFG_n_buf_m1]
  | .INT_STREAM_GEOM => [F.INT_STREAM_GEOM_width, F.INT_STREAM_GEOM_height, F.INT_STREAM_GEOM_nominal_ns]
  | .INT_STREAM_CONV => [F.INT_STREAM_CONV_black, F.INT_STREAM_CONV_gain_exp, F.INT_STREAM_CONV_int8_exp, F.INT_STREAM_CONV_black_uv, F.INT_STREAM_CONV_clip]
  | .INT_STREAM_BASE => [F.INT_STREAM_BASE_base]
  | .INT_STALE_CFG => [F.INT_STALE_CFG_seed, F.INT_STALE_CFG_counter_offset, F.INT_STALE_CFG_counter_32]
  | .INT_STRIPE_CFG => [F.INT_STRIPE_CFG_lag_us, F.INT_STRIPE_CFG_rebalance_en]
  | .INT_STREAM_STAT => [F.INT_STREAM_STAT_state, F.INT_STREAM_STAT_good_run, F.INT_STREAM_STAT_plan, F.INT_STREAM_STAT_seq]
  | .INT_LINE_POS => [F.INT_LINE_POS_line, F.INT_LINE_POS_row]
  | .INT_LINE_VT => [F.INT_LINE_VT_vt]
  | .INT_STREAM_CNT => [F.INT_STREAM_CNT_lines_dropped, F.INT_STREAM_CNT_sat_count, F.INT_STREAM_CNT_recompute, F.INT_STREAM_CNT_stale_count]
  | .INT_MARK_BASE => [F.INT_MARK_BASE_base]
  | .TEL_DB_TAIL => [F.TEL_DB_TAIL_tail]
  | .TEL_DB_HEAD => [F.TEL_DB_HEAD_head]
  | .TEL_DB_CQ_TAIL => [F.TEL_DB_CQ_TAIL_cq_tail]
  | .TEL_DB_CQ_HEAD => [F.TEL_DB_CQ_HEAD_cq_head]
  | .TEL_DB_STATE => [F.TEL_DB_STATE_state, F.TEL_DB_STATE_irq_en, F.TEL_DB_STATE_generation]
  | .TEL_DB_INFLIGHT => [F.TEL_DB_INFLIGHT_inflight]
  | .WIN_CTL => [F.WIN_CTL_enable, F.WIN_CTL_active_bank, F.WIN_CTL_pending]
  | .WIN_FRAME => [F.WIN_FRAME_length]
  | .WIN_PHASE => [F.WIN_PHASE_phase]
  | .WIN_ACT_VT => [F.WIN_ACT_VT_vt]
  | .WIN_STAT => [F.WIN_STAT_skipped, F.WIN_STAT_unmet]
  | .WIN_JITTER => [F.WIN_JITTER_max_cycles]
  | .WIN_PART_CFG => [F.WIN_PART_CFG_kind, F.WIN_PART_CFG_tile_limit_us, F.WIN_PART_CFG_criticality, F.WIN_PART_CFG_pipes, F.WIN_PART_CFG_render_budget_us]
  | .WIN_PART_CORES => [F.WIN_PART_CORES_cores]
  | .WIN_DISP_STAT => [F.WIN_DISP_STAT_restarts, F.WIN_DISP_STAT_paused]
  | .WIN_STALE_GEN => [F.WIN_STALE_GEN_stale_gen]
  | .TLY_CTL => [F.TLY_CTL_enable, F.TLY_CTL_degraded, F.TLY_CTL_standby, F.TLY_CTL_witness]
  | .TLY_TASK_BASE => [F.TLY_TASK_BASE_base]
  | .TLY_STAGING => [F.TLY_STAGING_base, F.TLY_STAGING_granules]
  | .TLY_AUDIT_CFG => [F.TLY_AUDIT_CFG_interval_s, F.TLY_AUDIT_CFG_enable]
  | .TLY_VERDICT_CNT => [F.TLY_VERDICT_CNT_written]
  | .TLY_FAULT_CNT => [F.TLY_FAULT_CNT_disagree, F.TLY_FAULT_CNT_missing, F.TLY_FAULT_CNT_late, F.TLY_FAULT_CNT_no_verdict]
  | .TLY_DISCARD_CNT => [F.TLY_DISCARD_CNT_late, F.TLY_DISCARD_CNT_truncated]
  | .TLY_ASSAY_STAT => [F.TLY_ASSAY_STAT_run, F.TLY_ASSAY_STAT_failed, F.TLY_ASSAY_STAT_deferred]
  | .TLY_AUDIT_STAT => [F.TLY_AUDIT_STAT_done, F.TLY_AUDIT_STAT_failed, F.TLY_AUDIT_STAT_overdue, F.TLY_AUDIT_STAT_postponed]
  | .TLY_TASK_STATE => [F.TLY_TASK_STATE_state, F.TLY_TASK_STATE_recent, F.TLY_TASK_STATE_a_fail, F.TLY_TASK_STATE_b_fail]
  | .TLY_MODE_VT => [F.TLY_MODE_VT_vt]
  | .SVC_REC_STAT => [F.SVC_REC_STAT_generation, F.SVC_REC_STAT_slot, F.SVC_REC_STAT_pending, F.SVC_REC_STAT_held, F.SVC_REC_STAT_write_fail]
  | .SVC_SPARE => [F.SVC_SPARE_core_spare_free, F.SVC_SPARE_unbacked, F.SVC_SPARE_bank_spares]
  | .SVC_DRAM => [F.SVC_DRAM_remap0, F.SVC_DRAM_remap1]
  | .SVC_PC_RETIRED => [F.SVC_PC_RETIRED_mask]
  | .SVC_PC_PENDING => [F.SVC_PC_PENDING_mask]
  | .SVC_HATCH => [F.SVC_HATCH_modules, F.SVC_HATCH_lanes_repaired, F.SVC_HATCH_protocol]
  | .SVC_SOAK => [F.SVC_SOAK_own_release, F.SVC_SOAK_peer_release, F.SVC_SOAK_soak_hours, F.SVC_SOAK_committed]
  | .MNT_CLASS_CFG => [F.MNT_CLASS_CFG_dram_g, F.MNT_CLASS_CFG_criticality, F.MNT_CLASS_CFG_borrow, F.MNT_CLASS_CFG_window_us, F.MNT_CLASS_CFG_hatch_g, F.MNT_CLASS_CFG_depth]
  | .MNT_CLASS_PORTS => [F.MNT_CLASS_PORTS_ports]
  | .MNT_CLASS_EFF => [F.MNT_CLASS_EFF_dram_eff, F.MNT_CLASS_EFF_hatch_eff]
  | .MNT_CLASS_AGE => [F.MNT_CLASS_AGE_vt]
  | .MNT_BUDGET => [F.MNT_BUDGET_dram, F.MNT_BUDGET_hatch]
  | .MNT_FB_CFG => [F.MNT_FB_CFG_threshold, F.MNT_FB_CFG_hyst, F.MNT_FB_CFG_throttle0, F.MNT_FB_CFG_throttle1]
  | .MNT_MISS => [F.MNT_MISS_count, F.MNT_MISS_last_port]
  | .MNT_BW_RD => [F.MNT_BW_RD_bytes]
  | .MNT_BW_WR => [F.MNT_BW_WR_bytes]
  | .MNT_SURPLUS => [F.MNT_SURPLUS_bytes]
  | .MNT_ECC => [F.MNT_ECC_corrected, F.MNT_ECC_uncorrected, F.MNT_ECC_scrub_passes, F.MNT_ECC_temp_c]
  | .MNT_SHUT => [F.MNT_SHUT_late, F.MNT_SHUT_aborted, F.MNT_SHUT_cores_shut]
  | .MNT_CHAN_SHUT => [F.MNT_CHAN_SHUT_stack0, F.MNT_CHAN_SHUT_stack1]
  | .MNT_INT => [F.MNT_INT_miss, F.MNT_INT_cut, F.MNT_INT_uncorrected, F.MNT_INT_throttle]
  | .HTC_LINK => [F.HTC_LINK_state, F.HTC_LINK_modules_up, F.HTC_LINK_protocol, F.HTC_LINK_peer_release]
  | .HTC_ERR_CNT => [F.HTC_ERR_CNT_replays, F.HTC_ERR_CNT_fec_corr, F.HTC_ERR_CNT_violations, F.HTC_ERR_CNT_demotions]
  | .HTC_VIOL_LAST => [F.HTC_VIOL_LAST_code, F.HTC_VIOL_LAST_type, F.HTC_VIOL_LAST_vt]
  | .HTC_SEM_STAT => [F.HTC_SEM_STAT_held, F.HTC_SEM_STAT_steals, F.HTC_SEM_STAT_expiries]
  | .HTC_VT_DIFF => [F.HTC_VT_DIFF_diff_ns, F.HTC_VT_DIFF_alarm]
  | .GTW_CTL => [F.GTW_CTL_enable, F.GTW_CTL_mark, F.GTW_CTL_seed]
  | .GTW_OVF_BASE => [F.GTW_OVF_BASE_base, F.GTW_OVF_BASE_k]
  | .GTW_STAT => [F.GTW_STAT_hw_routes, F.GTW_STAT_ovf_routes]
  | .GTW_DROP => [F.GTW_DROP_miss, F.GTW_DROP_tx_full, F.GTW_DROP_queue_full, F.GTW_DROP_remote_down]
  | .GTW_STREAM_ERR => [F.GTW_STREAM_ERR_seq_gap, F.GTW_STREAM_ERR_malformed]
  | .GTW_FWD_CNT => [F.GTW_FWD_CNT_frames]
  | .TEL_ID => [F.TEL_ID_vdi, F.TEL_ID_profile, F.TEL_ID_half, F.TEL_ID_release]
  | .TEL_GEN => [F.TEL_GEN_generation]
  | .TEL_STATE => [F.TEL_STATE_state, F.TEL_STATE_degraded]
  | .TEL_NOTICE => [F.TEL_NOTICE_bank_withdrawn, F.TEL_NOTICE_class_cut, F.TEL_NOTICE_half_down, F.TEL_NOTICE_half_up, F.TEL_NOTICE_stream_stale, F.TEL_NOTICE_gen_change]
  | .TEL_NOTICE_EN => [F.TEL_NOTICE_EN_enable]
  | .TEL_NOTICE_DETAIL => [F.TEL_NOTICE_DETAIL_detail, F.TEL_NOTICE_DETAIL_status]
  | .TEL_MBX_REQ => [F.TEL_MBX_REQ_message]
  | .TEL_MBX_GO => [F.TEL_MBX_GO_go]
  | .TEL_MBX_STAT => [F.TEL_MBX_STAT_busy, F.TEL_MBX_STAT_done, F.TEL_MBX_STAT_irq_en]
  | .TEL_MBX_REPLY => [F.TEL_MBX_REPLY_message]
  | .TEL_DMA_WIN => [F.TEL_DMA_WIN_base, F.TEL_DMA_WIN_size]
  | .TEL_PORT_STAT => [F.TEL_PORT_STAT_crc_drop, F.TEL_PORT_STAT_nak, F.TEL_PORT_STAT_sessions, F.TEL_PORT_STAT_insecure, F.TEL_PORT_STAT_teller_busy]
  | .TEL_DP_CTL => [F.TEL_DP_CTL_enable, F.TEL_DP_CTL_qbv_en, F.TEL_DP_CTL_mac]
  | .TEL_DP_CNT => [F.TEL_DP_CNT_rx_frames, F.TEL_DP_CNT_tx_frames]
  | .TEL_DP_ERR => [F.TEL_DP_ERR_fcs, F.TEL_DP_ERR_gate_drop]
  | .TEL_VDI_STAT => [F.TEL_VDI_STAT_stale_gen, F.TEL_VDI_STAT_resets, F.TEL_VDI_STAT_exists, F.TEL_VDI_STAT_log_on, F.TEL_VDI_STAT_log_buf, F.TEL_VDI_STAT_log_pages, F.TEL_VDI_STAT_mig_step]
  | .DSP_PIPE_CTL => [F.DSP_PIPE_CTL_enable, F.DSP_PIPE_CTL_tt_only, F.DSP_PIPE_CTL_blanked]
  | .DSP_PIPE_TIMING0 => [F.DSP_PIPE_TIMING0_h_active, F.DSP_PIPE_TIMING0_h_total, F.DSP_PIPE_TIMING0_v_active, F.DSP_PIPE_TIMING0_v_total]
  | .DSP_PIPE_TIMING1 => [F.DSP_PIPE_TIMING1_h_sync_start, F.DSP_PIPE_TIMING1_h_sync_width, F.DSP_PIPE_TIMING1_v_sync_start, F.DSP_PIPE_TIMING1_v_sync_width]
  | .DSP_PIPE_LINK => [F.DSP_PIPE_LINK_pixel_khz, F.DSP_PIPE_LINK_protocol, F.DSP_PIPE_LINK_rate, F.DSP_PIPE_LINK_lanes, F.DSP_PIPE_LINK_bpc10, F.DSP_PIPE_LINK_h_pol, F.DSP_PIPE_LINK_v_pol]
  | .DSP_PIPE_VT => [F.DSP_PIPE_VT_next_s]
  | .DSP_PIPE_STAT => [F.DSP_PIPE_STAT_frames, F.DSP_PIPE_STAT_repeats, F.DSP_PIPE_STAT_misses]
  | .DSP_PLANE_POS => [F.DSP_PLANE_POS_x, F.DSP_PLANE_POS_y, F.DSP_PLANE_POS_width, F.DSP_PLANE_POS_height]
  | .DSP_PLANE_FMT => [F.DSP_PLANE_FMT_format, F.DSP_PLANE_FMT_enable, F.DSP_PLANE_FMT_owner_vdi, F.DSP_PLANE_FMT_premult, F.DSP_PLANE_FMT_alpha]
  | .DSP_PLANE_RING => [F.DSP_PLANE_RING_ring]
  | .DSP_FLIP_STAT => [F.DSP_FLIP_STAT_skipped, F.DSP_FLIP_STAT_ring_err]
  | .DSP_TT_STATE => [F.DSP_TT_STATE_slots, F.DSP_TT_STATE_slot31]
  | .DSP_TT_ERR => [F.DSP_TT_ERR_crc_fail, F.DSP_TT_ERR_consecutive]
  | .DSP_RAS_STAT => [F.DSP_RAS_STAT_overflows, F.DSP_RAS_STAT_grows, F.DSP_RAS_STAT_renders]
  | .SVC_FW_STAT => [F.SVC_FW_STAT_release, F.SVC_FW_STAT_staged, F.SVC_FW_STAT_active_slot, F.SVC_FW_STAT_trial, F.SVC_FW_STAT_staged_mask]
  | .SVC_FW_ACT => [F.SVC_FW_ACT_pending, F.SVC_FW_ACT_deferred, F.SVC_FW_ACT_busy, F.SVC_FW_ACT_cause, F.SVC_FW_ACT_last_status]
  | .SVC_FW_CRASH => [F.SVC_FW_CRASH_steward, F.SVC_FW_CRASH_gatehouse, F.SVC_FW_CRASH_fallback, F.SVC_FW_CRASH_rollback]
  | .SVC_UFS_STAT => [F.SVC_UFS_STAT_gear, F.SVC_UFS_STAT_lanes, F.SVC_UFS_STAT_link_up, F.SVC_UFS_STAT_retries, F.SVC_UFS_STAT_rpmb_fail]
  | .SVC_VAULT_STAT => [F.SVC_VAULT_STAT_sealed]
  | .SVC_VAULT_CNT => [F.SVC_VAULT_CNT_refused, F.SVC_VAULT_CNT_faults, F.SVC_VAULT_CNT_timeouts, F.SVC_VAULT_CNT_unlock_fail]
  | .SVC_LIFECYCLE => [F.SVC_LIFECYCLE_state, F.SVC_LIFECYCLE_debug, F.SVC_LIFECYCLE_pending, F.SVC_LIFECYCLE_counter]
  | .CLK_GATE_OWNER => [F.CLK_GATE_OWNER_receivers, F.CLK_GATE_OWNER_pipes, F.CLK_GATE_OWNER_can, F.CLK_GATE_OWNER_dports]
  | .CLK_GATE_REFUSED => [F.CLK_GATE_REFUSED_count, F.CLK_GATE_REFUSED_last_block]
  | .CLK_STAT => [F.CLK_STAT_power_state, F.CLK_STAT_stage_logic, F.CLK_STAT_stage_dram, F.CLK_STAT_xtal_ok, F.CLK_STAT_pll_locked, F.CLK_STAT_on_pll]
  | .CLK_TRIM => [F.CLK_TRIM_div, F.CLK_TRIM_trimmed, F.CLK_TRIM_trim_ms]
  | .CLK_MON => [F.CLK_MON_stops, F.CLK_MON_range, F.CLK_MON_last_tree, F.CLK_MON_last_core, F.CLK_MON_rc_fail]
  | .CLK_THERM => [F.CLK_THERM_tj_max, F.CLK_THERM_sensor, F.CLK_THERM_warn, F.CLK_THERM_shed, F.CLK_THERM_trip]
  | .CLK_WAKE_STAT => [F.CLK_WAKE_STAT_source, F.CLK_WAKE_STAT_unit, F.CLK_WAKE_STAT_wakes]
  | .CLK_RESET_CAUSE => [F.CLK_RESET_CAUSE_kind, F.CLK_RESET_CAUSE_cause, F.CLK_RESET_CAUSE_resets]
  | .CLK_VT_STAT => [F.CLK_VT_STAT_servo, F.CLK_VT_STAT_stepped, F.CLK_VT_STAT_held, F.CLK_VT_STAT_rate_ppb]
  | .CLK_VT_OFFSET => [F.CLK_VT_OFFSET_theta_ns]

/-- A number of its own for each register, in the order of the tables. -/
def regNum : Reg → Nat
  | .TIL_ERR_CNT => 0
  | .TIL_HAZARD_CNT => 1
  | .TIL_MOVE_TS => 2
  | .TIL_MOVE_ST => 3
  | .TIL_MOVE_TD => 4
  | .TIL_MOVE_DT => 5
  | .TIL_CLEAR_STAT => 6
  | .STR_BANK_MAP => 7
  | .STR_BANK_ERR => 8
  | .STR_GROUP_STATE => 9
  | .STR_MOVE_CTL => 10
  | .STR_PATROL => 11
  | .STR_ZERO_STAT => 12
  | .STR_FREE => 13
  | .SIV_CMD_CNT => 14
  | .SIV_ERR_CNT => 15
  | .SIV_BUSY => 16
  | .SIV_LAST_NS => 17
  | .INT_RX_CFG => 18
  | .INT_RX_ERR_CNT => 19
  | .INT_STREAM_CFG => 20
  | .INT_STREAM_GEOM => 21
  | .INT_STREAM_CONV => 22
  | .INT_STREAM_BASE => 23
  | .INT_STALE_CFG => 24
  | .INT_STRIPE_CFG => 25
  | .INT_STREAM_STAT => 26
  | .INT_LINE_POS => 27
  | .INT_LINE_VT => 28
  | .INT_STREAM_CNT => 29
  | .INT_MARK_BASE => 30
  | .TEL_DB_TAIL => 31
  | .TEL_DB_HEAD => 32
  | .TEL_DB_CQ_TAIL => 33
  | .TEL_DB_CQ_HEAD => 34
  | .TEL_DB_STATE => 35
  | .TEL_DB_INFLIGHT => 36
  | .WIN_CTL => 37
  | .WIN_FRAME => 38
  | .WIN_PHASE => 39
  | .WIN_ACT_VT => 40
  | .WIN_STAT => 41
  | .WIN_JITTER => 42
  | .WIN_PART_CFG => 43
  | .WIN_PART_CORES => 44
  | .WIN_DISP_STAT => 45
  | .WIN_STALE_GEN => 46
  | .TLY_CTL => 47
  | .TLY_TASK_BASE => 48
  | .TLY_STAGING => 49
  | .TLY_AUDIT_CFG => 50
  | .TLY_VERDICT_CNT => 51
  | .TLY_FAULT_CNT => 52
  | .TLY_DISCARD_CNT => 53
  | .TLY_ASSAY_STAT => 54
  | .TLY_AUDIT_STAT => 55
  | .TLY_TASK_STATE => 56
  | .TLY_MODE_VT => 57
  | .SVC_REC_STAT => 58
  | .SVC_SPARE => 59
  | .SVC_DRAM => 60
  | .SVC_PC_RETIRED => 61
  | .SVC_PC_PENDING => 62
  | .SVC_HATCH => 63
  | .SVC_SOAK => 64
  | .MNT_CLASS_CFG => 65
  | .MNT_CLASS_PORTS => 66
  | .MNT_CLASS_EFF => 67
  | .MNT_CLASS_AGE => 68
  | .MNT_BUDGET => 69
  | .MNT_FB_CFG => 70
  | .MNT_MISS => 71
  | .MNT_BW_RD => 72
  | .MNT_BW_WR => 73
  | .MNT_SURPLUS => 74
  | .MNT_ECC => 75
  | .MNT_SHUT => 76
  | .MNT_CHAN_SHUT => 77
  | .MNT_INT => 78
  | .HTC_LINK => 79
  | .HTC_ERR_CNT => 80
  | .HTC_VIOL_LAST => 81
  | .HTC_SEM_STAT => 82
  | .HTC_VT_DIFF => 83
  | .GTW_CTL => 84
  | .GTW_OVF_BASE => 85
  | .GTW_STAT => 86
  | .GTW_DROP => 87
  | .GTW_STREAM_ERR => 88
  | .GTW_FWD_CNT => 89
  | .TEL_ID => 90
  | .TEL_GEN => 91
  | .TEL_STATE => 92
  | .TEL_NOTICE => 93
  | .TEL_NOTICE_EN => 94
  | .TEL_NOTICE_DETAIL => 95
  | .TEL_MBX_REQ => 96
  | .TEL_MBX_GO => 97
  | .TEL_MBX_STAT => 98
  | .TEL_MBX_REPLY => 99
  | .TEL_DMA_WIN => 100
  | .TEL_PORT_STAT => 101
  | .TEL_DP_CTL => 102
  | .TEL_DP_CNT => 103
  | .TEL_DP_ERR => 104
  | .TEL_VDI_STAT => 105
  | .DSP_PIPE_CTL => 106
  | .DSP_PIPE_TIMING0 => 107
  | .DSP_PIPE_TIMING1 => 108
  | .DSP_PIPE_LINK => 109
  | .DSP_PIPE_VT => 110
  | .DSP_PIPE_STAT => 111
  | .DSP_PLANE_POS => 112
  | .DSP_PLANE_FMT => 113
  | .DSP_PLANE_RING => 114
  | .DSP_FLIP_STAT => 115
  | .DSP_TT_STATE => 116
  | .DSP_TT_ERR => 117
  | .DSP_RAS_STAT => 118
  | .SVC_FW_STAT => 119
  | .SVC_FW_ACT => 120
  | .SVC_FW_CRASH => 121
  | .SVC_UFS_STAT => 122
  | .SVC_VAULT_STAT => 123
  | .SVC_VAULT_CNT => 124
  | .SVC_LIFECYCLE => 125
  | .CLK_GATE_OWNER => 126
  | .CLK_GATE_REFUSED => 127
  | .CLK_STAT => 128
  | .CLK_TRIM => 129
  | .CLK_MON => 130
  | .CLK_THERM => 131
  | .CLK_WAKE_STAT => 132
  | .CLK_RESET_CAUSE => 133
  | .CLK_VT_STAT => 134
  | .CLK_VT_OFFSET => 135

/-- 64-bit words of one element of a register (R392). -/
def regWords : Reg → Nat
  | .WIN_PART_CORES => 2
  | .MNT_CLASS_PORTS => 4
  | .TEL_MBX_REQ => 8
  | .TEL_MBX_REPLY => 8
  | .TEL_DMA_WIN => 2
  | _ => 1

/-- Elements of an array register; 1 for a register that is no array. MNT_BW_RD and MNT_BW_WR count 16s + k (R392). -/
def regElems : Reg → Nat
  | .STR_BANK_MAP => 64
  | .STR_BANK_ERR => 68
  | .WIN_PART_CFG => 16
  | .WIN_PART_CORES => 16
  | .WIN_DISP_STAT => 4
  | .TLY_TASK_STATE => 4096
  | .MNT_CLASS_CFG => 16
  | .MNT_CLASS_PORTS => 16
  | .MNT_CLASS_EFF => 16
  | .MNT_CLASS_AGE => 16
  | .MNT_MISS => 16
  | .MNT_BW_RD => 32
  | .MNT_BW_WR => 32
  | .MNT_SURPLUS => 2
  | .MNT_ECC => 2
  | .GTW_STREAM_ERR => 32
  | .TEL_DMA_WIN => 8
  | .DSP_PLANE_POS => 4
  | .DSP_PLANE_FMT => 4
  | .DSP_PLANE_RING => 4
  | _ => 1

/-- Units of a half that hold the register: cores, queues, VDIs, receivers, stream slots, data ports or pipes (R392). -/
def regUnits : Reg → Nat
  | .TIL_ERR_CNT => 128
  | .TIL_HAZARD_CNT => 128
  | .TIL_MOVE_TS => 128
  | .TIL_MOVE_ST => 128
  | .TIL_MOVE_TD => 128
  | .TIL_MOVE_DT => 128
  | .TIL_CLEAR_STAT => 128
  | .INT_RX_CFG => 8
  | .INT_RX_ERR_CNT => 8
  | .INT_STREAM_CFG => 32
  | .INT_STREAM_GEOM => 32
  | .INT_STREAM_CONV => 32
  | .INT_STREAM_BASE => 32
  | .INT_STALE_CFG => 32
  | .INT_STRIPE_CFG => 32
  | .INT_STREAM_STAT => 32
  | .INT_LINE_POS => 32
  | .INT_LINE_VT => 32
  | .INT_STREAM_CNT => 32
  | .INT_MARK_BASE => 32
  | .TEL_DB_TAIL => 8192
  | .TEL_DB_HEAD => 8192
  | .TEL_DB_CQ_TAIL => 8192
  | .TEL_DB_CQ_HEAD => 8192
  | .TEL_DB_STATE => 8192
  | .TEL_DB_INFLIGHT => 8192
  | .TEL_ID => 256
  | .TEL_GEN => 256
  | .TEL_STATE => 256
  | .TEL_NOTICE => 256
  | .TEL_NOTICE_EN => 256
  | .TEL_NOTICE_DETAIL => 256
  | .TEL_MBX_REQ => 256
  | .TEL_MBX_GO => 256
  | .TEL_MBX_STAT => 256
  | .TEL_MBX_REPLY => 256
  | .TEL_DMA_WIN => 256
  | .TEL_DP_CTL => 2
  | .TEL_DP_CNT => 2
  | .TEL_DP_ERR => 2
  | .TEL_VDI_STAT => 256
  | .DSP_PIPE_CTL => 2
  | .DSP_PIPE_TIMING0 => 2
  | .DSP_PIPE_TIMING1 => 2
  | .DSP_PIPE_LINK => 2
  | .DSP_PIPE_VT => 2
  | .DSP_PIPE_STAT => 2
  | .DSP_PLANE_POS => 2
  | .DSP_PLANE_FMT => 2
  | .DSP_PLANE_RING => 2
  | .DSP_FLIP_STAT => 2
  | .DSP_TT_STATE => 2
  | .DSP_TT_ERR => 2
  | _ => 1

/-- The registers of a STATS_READ block, numbered from 0 in the order of R392. -/
def blockRegs : Nat → List Reg
  | 0x02 => [.TIL_ERR_CNT, .TIL_HAZARD_CNT, .TIL_MOVE_TS, .TIL_MOVE_ST, .TIL_MOVE_TD, .TIL_MOVE_DT, .TIL_CLEAR_STAT]
  | 0x03 => [.STR_BANK_MAP, .STR_BANK_ERR, .STR_GROUP_STATE, .STR_MOVE_CTL, .STR_PATROL, .STR_ZERO_STAT, .STR_FREE]
  | 0x04 => [.SIV_CMD_CNT, .SIV_ERR_CNT, .SIV_BUSY, .SIV_LAST_NS]
  | 0x05 => [.INT_RX_CFG, .INT_RX_ERR_CNT, .INT_STREAM_CFG, .INT_STREAM_GEOM, .INT_STREAM_CONV, .INT_STREAM_BASE, .INT_STALE_CFG, .INT_STRIPE_CFG, .INT_STREAM_STAT, .INT_LINE_POS, .INT_LINE_VT, .INT_STREAM_CNT, .INT_MARK_BASE]
  | 0x06 => [.WIN_CTL, .WIN_FRAME, .WIN_PHASE, .WIN_ACT_VT, .WIN_STAT, .WIN_JITTER, .WIN_PART_CFG, .WIN_PART_CORES, .WIN_DISP_STAT, .WIN_STALE_GEN]
  | 0x07 => [.TEL_DB_TAIL, .TEL_DB_HEAD, .TEL_DB_CQ_TAIL, .TEL_DB_CQ_HEAD, .TEL_DB_STATE, .TEL_DB_INFLIGHT]
  | 0x08 => [.TLY_CTL, .TLY_TASK_BASE, .TLY_STAGING, .TLY_AUDIT_CFG, .TLY_VERDICT_CNT, .TLY_FAULT_CNT, .TLY_DISCARD_CNT, .TLY_ASSAY_STAT, .TLY_AUDIT_STAT, .TLY_TASK_STATE, .TLY_MODE_VT]
  | 0x09 => [.MNT_CLASS_CFG, .MNT_CLASS_PORTS, .MNT_CLASS_EFF, .MNT_CLASS_AGE, .MNT_BUDGET, .MNT_FB_CFG, .MNT_MISS, .MNT_BW_RD, .MNT_BW_WR, .MNT_SURPLUS, .MNT_ECC, .MNT_SHUT, .MNT_CHAN_SHUT, .MNT_INT]
  | 0x0A => [.HTC_LINK, .HTC_ERR_CNT, .HTC_VIOL_LAST, .HTC_SEM_STAT, .HTC_VT_DIFF]
  | 0x0B => [.GTW_CTL, .GTW_OVF_BASE, .GTW_STAT, .GTW_DROP, .GTW_STREAM_ERR, .GTW_FWD_CNT]
  | 0x0C => [.TEL_PORT_STAT, .TEL_DP_CTL, .TEL_DP_CNT, .TEL_DP_ERR]
  | 0x0D => [.TEL_ID, .TEL_GEN, .TEL_STATE, .TEL_NOTICE, .TEL_NOTICE_EN, .TEL_NOTICE_DETAIL, .TEL_MBX_REQ, .TEL_MBX_GO, .TEL_MBX_STAT, .TEL_MBX_REPLY, .TEL_DMA_WIN, .TEL_VDI_STAT]
  | 0x0E => [.SVC_REC_STAT, .SVC_SPARE, .SVC_DRAM, .SVC_PC_RETIRED, .SVC_PC_PENDING, .SVC_HATCH, .SVC_SOAK, .SVC_FW_STAT, .SVC_FW_ACT, .SVC_FW_CRASH, .SVC_UFS_STAT]
  | 0x0F => [.DSP_PIPE_CTL, .DSP_PIPE_TIMING0, .DSP_PIPE_TIMING1, .DSP_PIPE_LINK, .DSP_PIPE_VT, .DSP_PIPE_STAT, .DSP_PLANE_POS, .DSP_PLANE_FMT, .DSP_PLANE_RING, .DSP_FLIP_STAT, .DSP_TT_STATE, .DSP_TT_ERR, .DSP_RAS_STAT]
  | 0x11 => [.SVC_VAULT_STAT, .SVC_VAULT_CNT, .SVC_LIFECYCLE]
  | 0x12 => [.CLK_GATE_OWNER, .CLK_GATE_REFUSED, .CLK_STAT, .CLK_TRIM, .CLK_MON, .CLK_THERM, .CLK_WAKE_STAT, .CLK_RESET_CAUSE, .CLK_VT_STAT, .CLK_VT_OFFSET]
  | _ => []

/-- The reset value of a field of element `i` (the rows whose reset value depends on the element: R138, R254, R345). -/
def Fld.resetAt (f : Fld) (i : Nat) : Nat :=
  if f = F.STR_BANK_MAP_phys_bank then i
  else if f = F.WIN_PART_CFG_kind then (if i = 0 then 1 else 0)
  else if f = F.WIN_PART_CFG_criticality then (if i = 0 then 0xF else 0)
  else if f = F.MNT_CLASS_CFG_criticality then (if i = 15 then 0xF else 0)
  else if f = F.MNT_CLASS_PORTS_ports then (if i = 15 then 7 * 2 ^ 130 else 0)
  else f.reset

/-- The reset value of a whole element, all words as one number. -/
def regResetAt (r : Reg) (i : Nat) : Nat :=
  (regFields r).foldl (fun a f => a + f.resetAt i * 2 ^ f.lo) 0

/-- The key of a register word in the register file. -/
def regKey (r : Reg) (unit index word : Nat) : Nat :=
  regNum r * 2 ^ 32 + unit % 2 ^ 16 * 2 ^ 16 + index % 2 ^ 12 * 2 ^ 4 + word % 2 ^ 4

/-- Every register, in the order of its number. -/
def allRegs : List Reg :=
  [.TIL_ERR_CNT, .TIL_HAZARD_CNT, .TIL_MOVE_TS, .TIL_MOVE_ST, .TIL_MOVE_TD, .TIL_MOVE_DT,
   .TIL_CLEAR_STAT, .STR_BANK_MAP, .STR_BANK_ERR, .STR_GROUP_STATE, .STR_MOVE_CTL, .STR_PATROL,
   .STR_ZERO_STAT, .STR_FREE, .SIV_CMD_CNT, .SIV_ERR_CNT, .SIV_BUSY, .SIV_LAST_NS,
   .INT_RX_CFG, .INT_RX_ERR_CNT, .INT_STREAM_CFG, .INT_STREAM_GEOM, .INT_STREAM_CONV, .INT_STREAM_BASE,
   .INT_STALE_CFG, .INT_STRIPE_CFG, .INT_STREAM_STAT, .INT_LINE_POS, .INT_LINE_VT, .INT_STREAM_CNT,
   .INT_MARK_BASE, .TEL_DB_TAIL, .TEL_DB_HEAD, .TEL_DB_CQ_TAIL, .TEL_DB_CQ_HEAD, .TEL_DB_STATE,
   .TEL_DB_INFLIGHT, .WIN_CTL, .WIN_FRAME, .WIN_PHASE, .WIN_ACT_VT, .WIN_STAT,
   .WIN_JITTER, .WIN_PART_CFG, .WIN_PART_CORES, .WIN_DISP_STAT, .WIN_STALE_GEN, .TLY_CTL,
   .TLY_TASK_BASE, .TLY_STAGING, .TLY_AUDIT_CFG, .TLY_VERDICT_CNT, .TLY_FAULT_CNT, .TLY_DISCARD_CNT,
   .TLY_ASSAY_STAT, .TLY_AUDIT_STAT, .TLY_TASK_STATE, .TLY_MODE_VT, .SVC_REC_STAT, .SVC_SPARE,
   .SVC_DRAM, .SVC_PC_RETIRED, .SVC_PC_PENDING, .SVC_HATCH, .SVC_SOAK, .MNT_CLASS_CFG,
   .MNT_CLASS_PORTS, .MNT_CLASS_EFF, .MNT_CLASS_AGE, .MNT_BUDGET, .MNT_FB_CFG, .MNT_MISS,
   .MNT_BW_RD, .MNT_BW_WR, .MNT_SURPLUS, .MNT_ECC, .MNT_SHUT, .MNT_CHAN_SHUT,
   .MNT_INT, .HTC_LINK, .HTC_ERR_CNT, .HTC_VIOL_LAST, .HTC_SEM_STAT, .HTC_VT_DIFF,
   .GTW_CTL, .GTW_OVF_BASE, .GTW_STAT, .GTW_DROP, .GTW_STREAM_ERR, .GTW_FWD_CNT,
   .TEL_ID, .TEL_GEN, .TEL_STATE, .TEL_NOTICE, .TEL_NOTICE_EN, .TEL_NOTICE_DETAIL,
   .TEL_MBX_REQ, .TEL_MBX_GO, .TEL_MBX_STAT, .TEL_MBX_REPLY, .TEL_DMA_WIN, .TEL_PORT_STAT,
   .TEL_DP_CTL, .TEL_DP_CNT, .TEL_DP_ERR, .TEL_VDI_STAT, .DSP_PIPE_CTL, .DSP_PIPE_TIMING0,
   .DSP_PIPE_TIMING1, .DSP_PIPE_LINK, .DSP_PIPE_VT, .DSP_PIPE_STAT, .DSP_PLANE_POS, .DSP_PLANE_FMT,
   .DSP_PLANE_RING, .DSP_FLIP_STAT, .DSP_TT_STATE, .DSP_TT_ERR, .DSP_RAS_STAT, .SVC_FW_STAT,
   .SVC_FW_ACT, .SVC_FW_CRASH, .SVC_UFS_STAT, .SVC_VAULT_STAT, .SVC_VAULT_CNT, .SVC_LIFECYCLE,
   .CLK_GATE_OWNER, .CLK_GATE_REFUSED, .CLK_STAT, .CLK_TRIM, .CLK_MON, .CLK_THERM,
   .CLK_WAKE_STAT, .CLK_RESET_CAUSE, .CLK_VT_STAT, .CLK_VT_OFFSET]

/-- What a register word reads as while nothing has been written to it since reset. -/
def regDefault (key : Nat) : BitVec 64 :=
  match allRegs[key / 2 ^ 32]? with
  | some r => BitVec.ofNat 64 (regResetAt r (key / 2 ^ 4 % 2 ^ 12) >>> (64 * (key % 2 ^ 4)))
  | none => 0

end Sys2Proof.Machine
end

