-- ==== Sys2Proof/Machine/State.lean ====
section
/-! DEFINITION. The state of the package as plain data: one record per block of a half, and what the two halves share.
Collections are sparse lists (KMap) whose unlisted keys read as the reset value. Raw records (descriptors, entries, configurations)
are held as the little-endian number of their bytes, so that reserved bits survive. -/
namespace Sys2Proof.Machine

/-- How a command can stop the model. No meaning answers a fault: every behaviour of the manual is a next state. -/
inductive Fault where
  /-- Raised by nothing; kept so that the type has a name to report. Safe. -/
  | unreachable
deriving DecidableEq, Repr

/-- Why a command is refused by the model. -/
inductive Refusal where
  /-- Raised by a dispatch arm whose command has no meaning yet. Safe. -/
  | notModelled (mnemonic : String)
deriving DecidableEq, Repr

/-- A frame as an ACF message of an egress frame: bus_id, brief form, message_timestamp. -/
structure AcfOut where
  bus : Nat
  brief : Bool
  stamp : Nat
  frame : Frame
deriving DecidableEq, Repr

/-- A slot of a gateway queue's ring: VT of reception, source endpoint, frame (R370). -/
structure GwSlot where
  vt : Nat
  src : Nat
  frame : Frame
deriving DecidableEq, Repr

/-- Something the device sends or signals outside itself, kept as the model's own record of outputs. -/
inductive Out where
  | reply (half : Nat) (m : Msg) (st : Status) (payload : List Nat)
  | frame (half partner seq ack type st : Nat) (relay : Bool) (data : List Nat)  -- control frame (R378): type of R379
  | heartbeat (half : Nat) (fields : List Nat)                        -- R383
  | goingDown (port half kind reason retVt : Nat)                     -- R384, on a port, about a half
  | hatchMsg (half kind : Nat) (args : List Nat)                      -- MSG and RES_MSG sent to the other half (R354)
  | hatchCpl (half tag : Nat) (st : Status) (data : List Byte)        -- CPL and CPL_ST sent (R350)
  | hatchReplay (half module seq : Nat)                               -- replay asked for (R347)
  | queueIrq (half q : Nat)
  | tellerIrq (half vdi : Nat)
  | streamIrq (half slot : Nat)
  | appIrq (half hart ident : Nat)
  | appFault (half hart cause : Nat)                                  -- access-fault exception of a hart: 1 instruction, 5 load, 7 store
  | illegal (half hart : Nat)                                         -- illegal-instruction exception
  | doorStatus (half hart : Nat) (st : Status)                        -- rd of a DOOR function
  | hartEnter (half hart pc : Nat) (a0 : Option Nat)                  -- a hart starts in a vault; none: a0-a7 unchanged
  | hartExit (half hart : Nat) (save : HartSave) (st : Option Status) (a0 a1 : Nat)
  | canSend (half bus : Nat) (f : Frame)
  | streamSend (half slot : Nat) (l : List AcfOut)
  | queueSend (half gq : Nat) (w : GwSlot)
  | peerWatch (half port peer q gen idx addr val rpeer : Nat)         -- R402
  | peerReply (half peer q gen idx : Nat)
  | scanOut (half pipe : Nat) (pixels : List Nat)                     -- a frame that a pipe sends, in raster order (R437, R438)
  | serrHb (half : Nat)
  | wake (source unit : Nat)
deriving DecidableEq, Repr

/-- One incident record (R374), in the fields of its table. -/
structure Incident where
  vt : Nat
  source : Nat
  half : Nat
  unit : Nat
  status : Status
  detail : Nat
  count : Nat
  seq : Nat
deriving DecidableEq, Repr

/-- Threads of a warp that are at one place of their instruction stream (R76): the place, the lane mask, the merge blocks (each with its loop's continue block) and
calls that they are inside of, innermost first, the merge block that they are parked at (0: none), and whether they wait at a barrier. -/
structure Fibre where
  pc : Nat
  lanes : Nat
  stack : List (Nat × Nat)
  tok : Nat
  wait : Bool
deriving DecidableEq, Repr

/-- A resident warp of 32 threads (R72, R76): its workgroup in the grid and its place in it, its paths, and its share of the register file: the value of each
result ID in each lane (ID * 32 + lane), and the threads' own memory (lane * 2^32 + offset). -/
structure Warp where
  wg : Nat
  idx : Nat
  fibres : List Fibre
  regs : List (Nat × List Nat)
  priv : List Host.Cell
deriving DecidableEq, Repr

/-- A SIMT cluster (R72): its warps, and the workgroup memory of each workgroup it holds. -/
structure Cluster where
  warps : List Warp
  mem : List (Nat × List Host.Cell)
deriving DecidableEq, Repr

def Cluster.empty : Cluster := { warps := [], mem := [] }

/-- An element's value: NaN, an infinity, or (-1)^neg × m × 2^e. -/
inductive Num where
  | nan
  | inf (neg : Bool)
  | fin (neg : Bool) (m : Nat) (e : Int)
deriving DecidableEq, Repr

/-- A non-negative fraction. -/
structure Frac where
  n : Nat
  d : Nat
deriving DecidableEq, Repr

/-- One output element before conversion: x the activation's input, v its result, the part of its bound that is its own (R52, R63; none where unbounded),
the factor of the block's largest input magnitude in its bound and its own inputs' (R62), and the bits of a copied element. -/
structure Elt where
  x : Num
  v : Num
  base : Option Frac
  coef : Frac
  mag : Option Frac
  copy : Option Nat
deriving DecidableEq, Repr

/-- A command on a core: where it came from, its descriptor, and how far its tiles and DMA descriptors are (R78-R97). -/
structure Run where
  org : Work
  index : Nat                 -- ring index of the descriptor, or instance number of a window entry
  gen : Nat                   -- queue generation at dispatch
  went : Nat                  -- window entry at the instance start; 0 for a queue command
  desc : Nat                  -- R81, 128 bytes
  params : Nat                -- parameter block (R84, R85, R140)
  dma : List Nat              -- DMA list (R90), 64 bytes each
  ctx : Nat
  vdi : Nat
  part : Nat
  assay : Bool
  fallback : Bool             -- this is the fallback run of a halo condition (R206)
  tile : Nat
  computed : Bool             -- the current tile has computed
  rerun : Bool                -- the current tile is a re-run (R119)
  retried : Bool
  ended : List Nat            -- DMA descriptors that have ended in the current phase of the current tile
  accepted : List Nat         -- descriptors accepted by their channel (R112)
  passed : List Nat           -- descriptors whose token barrier passed (R114)
  fail : Option (Status × Nat)
  sat : Nat
  inv : Nat
  tileSat : Nat
  tileInv : Nat
  tilesRun : Nat
  hazards : Nat
  oob : Nat
  simtNext : Option Nat       -- next workgroup that the clusters admit; none: the tile has not started on them (R85)
  tileOob : Nat               -- accesses of the tile that were dropped (R77)
  refused : Option Status     -- first access of a kept tile refused by steps 1 and 2 of R110
  tileRefused : Option Status -- the same of the current tile
  nextVt : Option Nat         -- when the first load of the next tile started (R94)
  nextSat : Nat               -- events of the next tile's loads (R51)
  nextInv : Nat
  nextRerun : Bool            -- a load of the next tile met a detected error: the next tile starts as a re-run (R119)
  failed : List Nat           -- descriptors that failed, tagged as in ended (R92)
  landed : List (Nat × Nat)   -- (descriptor, Till row) whose bytes landed before the descriptor ended (R112, R115)
  olds : List (Nat × Nat × List Byte)  -- (reader, Till row, bytes): what a read under way has found in a row written since (R115)
  core : Nat                  -- logical core index at dispatch (R87)
  parts : List (Nat × Nat × Nat × Elt)  -- (tile, block, place, element): elements of output blocks that more than one tile writes (R50, R56)
  startVt : Nat
  tileVt : Nat
deriving DecidableEq, Repr

/-- One physical core (R66): Till, operand space, handle table, marks, and what it runs. -/
structure Core where
  run : Option Run
  graphics : Bool
  switching : Bool            -- a mode switch is under way (R98)
  gfxReq : Bool               -- switch to graphics requested (R251)
  preemptBy : Option Nat      -- context that asked for pre-emption (R247), or the run's own for an audit that takes its slot (R283)
  loadedCtx : Option Nat      -- context whose handle set is loaded (R109)
  lastVdi : Option Nat        -- VDI of the previous command (R124)
  handles : List (Nat × Nat)  -- R107, 128-bit entries
  till : List Host.Cell
  opsp : List Host.Cell       -- operand space (R101)
  opKnown : List (Nat × Bool) -- its bytes written since its contents were last left open (R102)
  opSeed : Nat                -- the model's own: 0, or where the free values of its other bytes begin
  opBad : List (Nat × Bool)   -- its 32-bit words of wrong parity (R101)
  clusters : List (Nat × Cluster)  -- the four SIMT clusters (R66, R72)
  rowMark : List (Nat × Nat)  -- R112
  rowWritten : List (Nat × Bool)  -- R123
  rowBad : List (Nat × Bool)  -- rows whose detection code does not match (R118)
  resetting : Bool            -- core reset under way (R99)
  auditing : Bool             -- an audit runs (R280)
  retireDue : Option Nat      -- the core failed its audit and retires at the next instance boundary: the failing block (R284, R303)
  auditDue : Bool             -- an audit is placed and waits for the handover or for a tile to end (R281, R282)
  located : Bool              -- a search located the core: it stays replaced until its audit (R271)
  shut : Bool                 -- shutter closed (R341)
  div : Nat                   -- local divider (R496)
  errVts : List Nat           -- detected errors of the last hour (R122)
  auditVt : Nat               -- end of the last audit (R280)
  auditAsap : Bool            -- next audit brought forward (R122, R273)
  overdue : Bool              -- recorded overdue (R283)
deriving DecidableEq, Repr

def Core.idle : Core :=
  { run := none, graphics := false, switching := false, gfxReq := false, preemptBy := none, loadedCtx := none,
    lastVdi := none, handles := [], till := [], opsp := [], opKnown := [], opSeed := 0, opBad := [], clusters := [], rowMark := [], rowWritten := [], rowBad := [],
    resetting := false, auditing := false, auditDue := false, retireDue := none, located := false, shut := false, div := 6, errVts := [], auditVt := 0, auditAsap := false, overdue := false }

/-- One entry of the model cache (R130). `gran` is its first granule and `len` its granules. -/
structure ModelEntry where
  key : Nat
  vdi : Nat
  state : Nat                 -- 0 ABSENT, 1 LOADING, 2 RESIDENT, 3 PINNED
  gran : Nat
  len : Nat
  src : Nat
  size : Nat
  inUse : Nat
  lastVt : Nat
  bound : List Nat            -- handles that were bound to the entry: context * 64 + slot (R130)
deriving DecidableEq, Repr

/-- An STR_ALLOC that waits for granules to be zeroed or a group to reopen (R528). -/
structure AllocWait where
  msg : Msg
  owner : Nat
  count : Nat
  group : Nat
  run : Option Nat            -- first granule of the run it waits for
  cache : Nat                 -- CACHE_SIZE: granules of the cache region then; 0 for STR_ALLOC
deriving DecidableEq, Repr

/-- A Strongroom bank move (R129). -/
structure Move where
  logical : Nat
  target : Nat
deriving DecidableEq, Repr

/-- A half's Strongroom besides its bytes: granules, zero engine, repairs and model cache (R127-R133). -/
structure Strongroom where
  gran : List (Nat × Nat)     -- granule -> 0 free; 1 awaiting zeroing; 2 + v held by VDI v; 258 device
  zeroQ : List Nat            -- granules awaiting zeroing, in freeing order
  heldBack : List Nat         -- granules of a reset VDI in a vault's ranges: freed with the vault (R489)
  waits : List AllocWait
  opening : List Nat          -- groups being reopened (R128)
  badRow : List (Nat × Bool)  -- rows whose detection code does not match (R118)
  move : Option Move
  moveWait : List Nat         -- banks whose retirement waits for the move (R310)
  bankErr : List (Nat × List Nat)  -- detected-error times per physical bank (R122)
  patrolRow : Nat
  cacheFirst : Nat
  cacheLen : Nat
  models : List ModelEntry
deriving DecidableEq, Repr

/-- The running Sieve command (R172). -/
structure SieveRun where
  org : Work
  index : Nat
  gen : Nat
  desc : Nat
  ctx : Nat
  vdi : Nat
  startVt : Nat
  went : Nat                  -- window entry at the instance start; 0 for a queue command
  assay : Bool                -- the run is an assay (R277, R278)
  ranNs : Nat                 -- time of the dropped run (R183)
  retried : Bool
deriving DecidableEq, Repr

/-- The open frame and the checks of a camera stream (R191-R213). -/
structure Stream where
  pending : Option (List Nat) -- configuration that takes effect at the next FS (R216)
  frameOpen : Bool
  blocked : Bool              -- an uncorrectable header stopped the frame's rows (R191)
  fsVt : Nat
  lines : Nat                 -- long packets counted since FS
  rowData : List (Nat × List Nat)  -- raw lines of the output row being assembled
  intact : Nat                -- sensor lines received intact
  rowsOk : List Nat           -- output rows published, newest first
  firstVt : List (Nat × Nat)  -- output row -> stamp of its first sensor line, for the rows of which it was received
  samples : List (Nat × Nat)  -- signature samples: position k -> raw value + 1 (R212)
  flags : Nat                 -- bits of R200 byte 0x1B
  counter : Nat
  prevCounter : Option Nat
  prevSig : Option Nat
  prevFs : Option Nat
  timedOut : Bool             -- no FS came within 1.5 nominal intervals of the last (R210)
  embedded : Bool             -- an embedded line has arrived in the frame
  noCounter : Bool            -- no usable counter: an image line came first, or the embedded line was too short
  recomputed : Bool           -- a recompute happened in this frame (R208)
deriving DecidableEq, Repr

def Stream.off : Stream :=
  { pending := none, frameOpen := false, blocked := false, fsVt := 0, lines := 0, rowData := [], intact := 0, rowsOk := [], firstVt := [],
    samples := [], flags := 0, counter := 0, prevCounter := none, prevSig := none, prevFs := none, timedOut := false,
    embedded := false, noCounter := false, recomputed := false }

/-- A row condition that is watched for a queue or an entry (R204, R206). -/
structure CondRt where
  cond : Nat                  -- R202 record
  lagVt : Option Nat          -- VT at which the lag clock started
  met : Bool
  viaFallback : Bool          -- the fallback satisfied it (R206)
deriving DecidableEq, Repr

/-- A command that left its core and runs again (R80, R95, R233, R248). -/
structure Requeued where
  index : Nat
  overruns : Nat
  preempts : Nat
deriving DecidableEq, Repr

/-- A WAIT at the head of a queue (R236-R240). -/
structure WaitRt where
  index : Nat
  since : Nat                 -- VT at which it became eligible
  addr : Nat
  value : Nat
  tag : Nat
  remote : Bool
deriving DecidableEq, Repr

/-- A queue besides its doorbell registers (R229-R240). -/
structure Queue where
  record : Nat
  reserved : Nat              -- completion records reserved (R232)
  again : List Requeued       -- commands to dispatch again, and counts of those running
  flying : List Nat           -- indices in flight
  wait : Option WaitRt
  cond : Option CondRt
  eligVt : Option Nat         -- VT at which the head became eligible (R243)
deriving DecidableEq, Repr

def Queue.disabled : Queue :=
  { record := 0, reserved := 0, again := [], flying := [], wait := none, cond := none, eligVt := none }

/-- A watch that this half keeps for the other half or a peer (R239, R402). -/
structure Watch where
  peer : Option Nat           -- none: the other half; some i: peer i
  q : Nat
  gen : Nat
  idx : Nat
  addr : Nat
  value : Nat
deriving DecidableEq, Repr

/-- A window entry's instance state (R224-R226). -/
structure Inst where
  count : Nat                 -- instances since activation
  cond : Option CondRt
  open_ : Bool                -- the current instance has started and its command not yet
  last : Option (Status × Nat)  -- final status and round of the last finished instance
  assayNow : Bool             -- this instance runs the assay descriptor (R278)
  start : Nat                 -- 1 + VT of the last instance's start
  rounds : List (Nat × Nat)   -- (instance, round) of the last 16 instances (R258)
deriving DecidableEq, Repr

def Inst.none : Inst := { count := 0, cond := Option.none, open_ := false, last := Option.none, assayNow := false, start := 0, rounds := [] }

/-- The window sequencer (R221-R228, R255). -/
structure Window where
  bank0 : List (Nat × Nat)    -- R221 entries, 64 bytes each
  bank1 : List (Nat × Nat)
  pendVt : Option Nat         -- validated bank awaits this VT
  enableAt : Option Nat       -- WIN_ENABLE set: frame start to begin at
  disableAt : Option Nat      -- WIN_ENABLE cleared: end of the frame in which it was
  running : Bool              -- the active bank runs
  frame : Nat                 -- major frames since activation
  inst : List (Nat × Inst)
  written : Bool              -- the inactive bank was written and is not activated
deriving DecidableEq, Repr

/-- What a message waits for before it is answered: a queue's running commands (R235), or those of a VDI (R412, R413, R416, R419). -/
inductive LeaveKind where
  | queue | reset | remove | quiesce | release
deriving DecidableEq, Repr

/-- A message under way: its opcode, and the queue or VDI it acts on. -/
structure Leaving where
  msg : Msg
  op : Nat
  kind : LeaveKind
  id : Nat
deriving DecidableEq, Repr

/-- A command that completed for good, for the sums of R208. -/
structure RanCmd where
  ctx : Nat
  tag : Nat
  ns : Nat
  vt : Nat
deriving DecidableEq, Repr

/-- The dispatch side of a half (R229-R253). -/
structure Dispatch where
  queues : List (Nat × Queue)
  watches : List Watch
  peerFence : List (Nat × Nat)
  vclock : List (Nat × Nat)   -- per partition (R246)
  charge : List (Nat × Nat)   -- per context
  active : List (Nat × Bool)
  lastQueue : List (Nat × Nat)  -- rotation pointer per context (R245)
  cached : List Nat           -- context cache, most recently used first (R244)
  dirty : List (Nat × Bool)
  effPool : List (Nat × Nat)  -- effective pool size + 1 (R429)
  restarts : List (Nat × List Nat)  -- watchdog times per controller (R444)
  leaving : List Leaving
  ran : List RanCmd           -- final completions of the frames under way, for the band times (R208)
  genBase : Nat               -- raised at every H and PARK: the generation of every queue of the half is its register plus this (R312)
deriving DecidableEq, Repr

/-- One round of a task in a Tally (R258-R268). -/
structure Round where
  stA : Option Status
  stB : Option Status
  own : Option Verdict
  margin : Nat
  truncated : Bool
  aFail : Bool
  bFail : Bool
  assay : Bool
  opened : Bool               -- the half's delivering instance of the round has started
  counted : Bool              -- the task was NORMAL when the delivering instance started (R270)
  ownVt : Nat
  writtenR : Bool
  other : Option Verdict      -- the other Tally's verdict
deriving DecidableEq, Repr

def Round.new : Round :=
  { stA := none, stB := none, own := none, margin := 0, truncated := false, aFail := false, bFail := false, assay := false,
    opened := false, counted := false, ownVt := 0, writtenR := false, other := none }

/-- A critical task in a half's Gatehouse (R256-R279). -/
structure Task where
  actVt : Nat                 -- VT at which the task became active
  normalVt : Nat              -- VT of the last return to NORMAL
  disVts : List Nat           -- counted DISAGREE verdicts (R270)
  absent : List (Nat × List Nat)  -- absences per channel (R273)
  assayVt : List (Nat × Nat)  -- last assay per channel (R276)
  assayDue : List (Nat × Bool)
  deferred : List (Nat × Bool)
  search : List (Nat × Nat)   -- (channel, logical core) still to be searched, in order (R271)
  stand : Option Nat          -- physical core replaced at the current search step
  unlocated : List Nat        -- channels whose search located nothing
  unbackedRounds : List Nat   -- rounds lost to an unbacked index (R285)
  assayRound : Option Nat     -- ROUND mode: the round that runs the assay (R278)
  held : Option (Bool × Bool) -- assay results that wait for the Gatehouse controller (R274)
  withheld : Nat              -- channels whose result a failed periodic assay withholds until NORMAL: bit 0 A, bit 1 B (R279)
  rounds : List (Nat × Round)
deriving DecidableEq, Repr

def Task.none : Task :=
  { actVt := 0, normalVt := 0, disVts := [], absent := [], assayVt := [], assayDue := [], deferred := [], search := [], stand := Option.none,
    unlocated := [], unbackedRounds := [], assayRound := Option.none, held := Option.none, withheld := 0, rounds := [] }

/-- The Tally and the Gatehouse controller (R256-R290). -/
structure Tally where
  tasks : List (Nat × Task)
  internalVts : List (Nat × Nat × Nat)  -- INTERNAL verdicts: VT, task and round (R273)
  selfTests : Nat
  auditNext : Nat             -- physical core next in audit order
  auditVt : Nat
  standIn : List (Nat × Nat)  -- group -> 1 + physical core its spare stands in for (R281)
  ghReset : Bool              -- the Gatehouse controller resets (R274)
  ghResets : List Nat         -- reset times (R444)
  yielding : Bool             -- R287
  peerServoLost : Bool
  noStandby : Bool            -- R288
  unbacked : Bool             -- degraded for a logical index without backing (R285)
  normalBank : Nat            -- bank number of the normal bank
  degradeAt : Option Nat      -- frame start at which the standby bank becomes active
  rejoining : Bool
  rejoinStep : Nat
  passed : List (Nat × Nat)   -- tasks whose channel passed the assay of R290's step 3: VT of the report plus 1
  lossVt : Option Nat         -- detection of a link loss (R287)
deriving DecidableEq, Repr

/-- A half's service record (R295-R297). -/
structure SvcRecord where
  coreMap : List (Nat × (Nat × Nat))  -- physical -> (logical, state) where it differs from shipment (R19, R296)
  located : List (Nat × Nat)  -- physical -> 1 + powered hours of the last unconfirmed location
  bankMap : List (Nat × Nat)  -- logical -> physical Strongroom bank
  bankState : List (Nat × Nat)  -- per physical bank: 0 in service, 1 spare, 2 retired
  withdrawn : Nat
  portRetired : Bool
  modules : Nat               -- two bits per UCIe module, as hatch_module
  laneFix : List (Nat × List Nat)  -- module -> repaired lanes
  pcRetired : Nat
  pcPending : Nat
  events : List (Nat × Nat)   -- slot of the 64-entry ring -> event_log entry (R297)
  evCount : Nat               -- events written so far; the next slot is this modulo 64
  remap : List (Nat × List (Nat × Nat))  -- stack -> (pc * 2^23 + bank * 2^17 + row, poison mask) of used entries; 2^40 added: not valid
deriving DecidableEq, Repr

/-- The service record store of a half: record in force, writes and the hours (R299-R301). -/
structure Service where
  record : SvcRecord
  saved : SvcRecord           -- the record of the generation in force
  savedVt : Nat               -- its vt_written, powered_hours, release and format (R295)
  savedHours : Nat
  savedRelease : Nat
  savedFormat : Nat
  rpmbGen : Nat
  slotGen : List (Nat × Nat)  -- slot -> generation of the record stored there
  writing : Option SvcRecord  -- the record of generation rpmbGen + 1 while it is being written
  waiting : Bool              -- repairs arose during the write (R301)
  onNs : Nat                  -- powered time in ns, of which the powered hours are whole hours
  soakVt : Option Nat
  soakMarks : Nat             -- incident records of the soak written so far (R319)
  restart : Option (Nat × Nat)  -- a restart of this half that waits for the other half's rejoin: kind and cause (R314)
deriving DecidableEq, Repr

/-- A Mint class setting (R338): MNT_CLASS_CFG and port set. -/
structure ClassSet where
  cfg : Nat
  ports : Nat
deriving DecidableEq, Repr

/-- A request held at a port (R331), with the pseudo-channel, bank and row that it addresses (R323). -/
structure Held where
  port : Nat
  cls : Nat
  pc : Nat
  bank : Nat
  row : Nat
  bytes : Nat
  write : Bool
  since : Nat
  coinsAt : Nat               -- 1 + the time at which it first held the coins for its cost; 0: it has not (R337)
  missed : Bool               -- counted as a guarantee miss (R337)
deriving DecidableEq, Repr

/-- A request in the queue of a pseudo-channel's controller (R322, R332). -/
structure CtlReq where
  pc : Nat
  bank : Nat
  row : Nat
  cls : Nat
  paid : Bool
  crit : Nat                  -- criticality of its class as it came
  past : Nat                  -- row hits of its level served ahead of it
deriving DecidableEq, Repr

/-- The Mint besides its registers (R326-R344). -/
structure Mint where
  shadow : List (Nat × ClassSet)
  coins : List (Nat × Nat)    -- port * 16 + class -> coins in 1/65536, as missing from a full bucket
  filledVt : Nat
  held : List Held
  hatchCoins : List (Nat × Nat)  -- class -> coins in 1/65536 missing from the Hatch bridge's bucket (R336)
  ctl : List CtlReq           -- queues of the controllers, oldest first (R322, R332)
  openRow : List (Nat × Nat)  -- pseudo-channel * 48 + bank -> 1 + the row open there
  ecc : List (Nat × List (Nat × Nat))  -- stack -> (row key, powered hours), newest first, 256 at most
  missVt : List (Nat × Nat)   -- class -> 1 + VT of the last miss incident
  due : List Nat              -- rows to be remapped (R303)
  aborts : List (Nat × List Nat)  -- shutter aborts per unit
  closing : List (Nat × Nat)  -- units whose door is closed and whose writes drain: unit, and when the door closed (R342)
  leftOpen : List Nat         -- units left open after three aborts (R342)
  levels : List (Nat × Nat)   -- stack -> longest queue of the traffic that `ctl` does not list (R334)
  dramBad : List (Nat × Bool) -- lost 32-byte words of the half's DRAM (R307)
  pcFailed : Nat              -- pseudo-channels that failed their training (R308)
deriving DecidableEq, Repr

/-- One entry of the semaphore bank (R357). -/
structure Sem where
  hart : Nat
  granule : Nat
  takenVt : Nat
deriving DecidableEq, Repr

/-- A load-reserved that waits for its entry (R357). -/
structure LrWait where
  pkt : Pkt
  hart : Nat
  addr : Nat
  width : Nat
deriving DecidableEq, Repr

/-- A request packet from the other half (R350): the type 0x01-0x05, and the fields that its type has. -/
structure HatchIn where
  type : Nat
  pkt : Pkt
  hart : Nat
  addr : Nat
  len : Nat                   -- bytes read or written
  op : AmoOp
  data : List Byte            -- bytes of a write
  val : Nat                   -- operand of an atomic or a store-conditional
deriving DecidableEq, Repr

/-- The Hatch bridge of a half (R346-R360). -/
structure Hatch where
  rxSeq : List (Nat × Nat)    -- module -> 1 + next expected flit sequence
  replaying : List (Nat × Bool)
  trainFailed : Bool          -- the last training of the link failed (R303)
  laneReplays : List (Nat × List Nat)  -- module * 64 + lane -> times
  kindSeq : List (Nat × Nat)  -- received kind sequences
  txSeq : List (Nat × Nat)    -- sent kind sequences
  outstanding : List (Nat × Nat)  -- tag -> 1 + expected length
  askers : List (Nat × Nat)   -- tag -> 1 + port of the master that waits for its completion (R349)
  sems : List (Nat × Option Sem)
  lrWait : List LrWait
  inbox : List HatchIn        -- requests held at port 136, oldest first; they hold the credit of their pools (R331, R352)
  outbox : List HatchIn       -- requests to the other half held at this half's bridge, oldest first (R336)
  txUsed : List (Nat × Nat)   -- pool toward the other half -> bytes of its credit in use (R352)
  txWait : List (Nat × List Nat)  -- messages that wait for credit: kind, sequence and arguments, oldest first
  violVts : List Nat
  demotedViol : List Nat
deriving DecidableEq, Repr

/-- The vehicle gateway of a half (R362-R371). -/
structure Gateway where
  hw : List (Nat × Nat)       -- bucket * 4 + way -> R364 entry
  ovf : List (Nat × Nat)      -- overflow slot -> entry
  fanout : List (Nat × Nat)
  slots : List (Nat × Nat)    -- stream slot configurations (R368)
  slotSeq : List (Nat × Nat)  -- 1 + last sequence_num of a slot
  packing : List (Nat × List AcfOut)
  packVt : List (Nat × Nat)   -- slot -> VT at which the first of its packed messages was packed (R368)
  queues : List (Nat × List GwSlot)  -- ring from the gateway, frames waiting
  queueOwner : List (Nat × Nat)     -- 1 + owner VDI
  busOff : List (Nat × Bool)
  tx : List (Nat × List Frame)
deriving DecidableEq, Repr

/-- A message accepted and not replied to (R389): the sequence of its frame, its arrival on the elapsed time, the half it acts on. -/
structure Waiting where
  fs : Nat
  since : Nat
  half : Nat
  hd : MsgHead
deriving DecidableEq, Repr

/-- A control session (R380, R381, R389). -/
structure Session where
  pid : Nat
  expect : Nat                -- E
  devSeq : Nat
  answers : List (Nat × Out)  -- partner seq answered -> the frame sent, newest first, 64 at most
  queued : List Waiting       -- accepted and not replied to
  replies : List Nat          -- replies of the frame at the front, 64 bytes each, not sent yet
  lastVt : Nat                -- elapsed time of the partner's last frame
  staging : List Host.Cell
deriving DecidableEq, Repr

/-- One service-ring pair (R396). -/
structure Ring where
  reqTail : Nat
  reqHead : Nat
  repTail : Nat
  repHead : Nat
  slots : List (Nat × Nat)    -- request slots, 64 bytes each
  replies : List (Nat × Nat)
  area : List Host.Cell       -- 0x5000-0xFFFF
  waiting : List Nat          -- replies that wait for room
deriving DecidableEq, Repr

def Ring.empty : Ring :=
  { reqTail := 0, reqHead := 0, repTail := 0, repHead := 0, slots := [], replies := [], area := [], waiting := [] }

/-- The ports, Teller and rings of a half (R376-R402). -/
structure Ports where
  sessions : List (Nat × Option Session)
  badVts : List (Nat × List Nat)
  blocked : List (Nat × Nat)  -- partner -> 1 + elapsed time of the end of the drop period
  hbCount : Nat
  linkLoss : List Nat
  udp : List Nat              -- UDP port, IPv4, prefixes, IPv6 (R376)
  macsec : List (Nat × Bool)  -- partners with a secure association (R377)
  rings : List (Nat × Ring)
  stage : Nat
  tellerMsg : List (Nat × Nat)  -- Teller request sent and not replied: 1 + message
  tellerReply : List (Nat × Nat)
  qbvAdmin : List (Nat × List Nat)
  qbvOper : List (Nat × List Nat)
  peers : List (Nat × Nat)
  rxq : List (Nat × Instr)    -- frames and Teller accesses that wait for the restarting steward, each with its arrival (R393, R444)
deriving DecidableEq, Repr

/-- A display pipe (R436-R440). -/
structure Pipe where
  pending : Option (List Nat) -- the 16 words that take effect at the next S
  pendTT : Option Nat         -- the tell-tale states that take effect at the next S
  cfgVt : Option Nat          -- VT of the newest configuration that waits (R441)
  linkUp : Bool
  fails : Nat                 -- failing frames in a row since tt_only
  passes : Nat                -- consecutive passing frames since a configuration was written in tt_only or blanked
  recover : Bool
  linkDownVt : Nat            -- VT from which the next 16.7 ms of a down link count
  shown : List (Nat × (Nat × Nat))  -- plane -> image address and pitch of the frame latched (R438)
deriving DecidableEq, Repr

def Pipe.off : Pipe :=
  { pending := none, pendTT := none, cfgVt := none, linkUp := false, fails := 0, passes := 0, recover := false, linkDownVt := 0, shown := [] }

structure Display where
  pipes : List (Nat × Pipe)
  image : List Host.Cell      -- the tell-tale image in UFS
  atlas : List Host.Cell      -- atlas SRAM: the loaded image (R439)
  loaded : Bool               -- the image was loaded and verified
deriving DecidableEq, Repr

/-- A VDI (R403-R422). -/
structure Vdi where
  exists_ : Bool
  half : Nat
  cfg : Nat                   -- 160 bytes (R404)
  profile : Nat
  mark : Nat
  gen : Nat
  migStep : Nat               -- 1 + last step completed
  logOn : Bool
  logBuf : Nat
  bitmaps : List Nat
  qStates : List (Nat × Nat)  -- queue states before the quiesce, and on the target as exported (R416, R419)
deriving DecidableEq, Repr

def Vdi.absent : Vdi :=
  { exists_ := false, half := 0, cfg := 0, profile := 0, mark := 0, gen := 0, migStep := 0, logOn := false, logBuf := 0,
    bitmaps := [], qStates := [] }

/-- The Latch holder's last configuration as the configuration store of a half holds it (R454). -/
structure Conf where
  regs : List (Nat × BitVec 64)
  bank0 : List (Nat × Nat)
  bank1 : List (Nat × Nat)
  tasks : List (Nat × Nat)    -- task -> record (R259)
  hw : List (Nat × Nat)
  ovf : List (Nat × Nat)
  fanout : List (Nat × Nat)
  slots : List (Nat × Nat)
  queueOwner : List (Nat × Nat)
  udp : List Nat
  qbv : List (Nat × List Nat)
  peers : List (Nat × Nat)
  peerFence : List (Nat × Nat)
  vdis : List (Nat × Vdi)
  pinned : List ModelEntry
  regions : List Host.Cell    -- contents of the device-owned regions that window entries name
  cacheFirst : Nat
  cacheLen : Nat
  devGran : List Nat          -- device-owned granules
deriving DecidableEq, Repr

def Conf.none : Conf :=
  { regs := [], bank0 := [], bank1 := [], tasks := [], hw := [], ovf := [], fanout := [], slots := [], queueOwner := [], udp := [], qbv := [],
    peers := [], peerFence := [], vdis := [], pinned := [], regions := [], cacheFirst := 0, cacheLen := 0, devGran := [] }

/-- Firmware, boot and activation of a half (R444-R467). -/
structure Firmware where
  stewardDown : Bool
  stewardVts : List Nat
  slot0 : List Host.Cell
  slot1 : List Host.Cell
  shipped : List Nat          -- slots that still hold the package the part came with, which is valid (log entry 54)
  ghBank0 : List Host.Cell    -- the two image banks of the Gatehouse (R450, R463)
  ghBank1 : List Host.Cell
  ghActive : Nat              -- the active bank
  running : List (Nat × Nat)  -- component id -> SHA-512 hash of the running component (R448)
  fresh : List (Nat × (Nat × Nat))  -- component id -> (1 + powered ns at its activation, stops since), until the commit (R465)
  activeSlot : Nat
  trialSlot : Nat
  attempts : Nat
  rollback : Nat              -- RPMB anti-rollback counter
  emgClearVt : Option Nat     -- VT since which no emergency cause holds
  supplyFault : Bool
  conf : Conf
  failedSlots : List Nat
  wrote : Bool                -- the slot not in force holds firmware writes that are not activated (R386)
  confDue : Bool              -- the configuration store has not been applied since the rim started (R454)
deriving DecidableEq, Repr

/-- A vault descriptor (R471) and the creation block it came from (R477). -/
structure Vault where
  raw : Nat                   -- 160 bytes
  head : List Byte            -- bytes 0x000-0x08F of the block, which both signatures cover
  sigs : List Byte
  block : Nat                 -- address of the creation block
deriving DecidableEq, Repr

def Vault.free : Vault := { raw := 0, head := [], sigs := [], block := 0 }

/-- A DOOR function, or a debug unlock, that the Gatehouse's controller executes (R477-R489). -/
inductive DoorOp where
  | create (hart addr : Nat)
  | destroy (hart vault : Nat)
  | submit (hart addr : Nat)
  | claim (hart code : Nat)
  | release (hart code : Nat)
  | key (hart addr label : Nat)
  | unlock (record : Nat)
deriving DecidableEq, Repr

/-- A hart as the vault rules see it (R475, R476, R479). -/
structure Hart where
  vault : Option Nat
  save : HartSave
  sinceVt : Nat
  inFault : Bool
  byIrq : Bool
  irqs : List Nat             -- secure interrupts pending
deriving DecidableEq, Repr

def Hart.normal : Hart :=
  { vault := none, save := { pc := 0, regs := [], trans := 0, priv := .u }, sinceVt := 0, inFault := false, byIrq := false, irqs := [] }

structure Vaults where
  table : List (Nat × Vault)
  harts : List (Nat × Hart)
  claims : List (Nat × Nat)   -- block code -> 1 + vault
  idents : List (Nat × Nat)   -- interrupt identity -> 1 + vault
  lifecycle : List Byte       -- record in force
  accepted : List Byte        -- accepted record that awaits the next rim start
  rpmb : Nat                  -- lifecycle counter
  challenge : Nat
  pufOk : Bool
  keyDebug : Bool             -- debug state of the keys derived at the last rim start (R483, R488)
  waiting : List DoorOp       -- what waits for the Gatehouse's controller (R489)
deriving DecidableEq, Repr

/-- Clocks, temperatures and reset state of a half (R491-R505). -/
structure Clocks where
  rimUp : Bool
  computeUp : Bool
  ready : Bool                -- the Gatehouse has reported ready
  held : Bool                 -- compute held out of service (R300, R482, R287, R316)
  phase : Nat                 -- heartbeat state of R383
  resetKind : Nat             -- reset in progress: 0 none, 1 H, 2 M, 3 K, 4 P
  reqVt : Nat
  trips : List Nat
  tripSrc : List TripSrc
  tripHold : Bool
  latched : Bool              -- after 3 TRIPs (R502)
  trimVt : Nat
  trimNs : Nat                -- time in TRIM since P, in ns
  belowVt : List (Nat × Nat)  -- stage -> 1 + VT since which every sensor is 3 °C below it
  theta : Int
  frac : Int                  -- VT rate remainder, in ns * 10^-9
  grandmaster : Nat
  devVt : Nat                 -- 1 + VT of the last deviation incident
  supplyVt : Option Nat
  pwrgood : Bool
  resetN : Bool
  slpN : Bool
  vrAlertN : Bool
  serrN : Bool                -- true: high (not asserted)
  serrHb : Bool               -- level of the SERR_HB ball, which toggles (R518)
deriving DecidableEq, Repr

/-- One half. -/
structure Half where
  vt : BitVec 64
  regs : List (Nat × BitVec 64)
  cores : List (Nat × Core)
  str : Strongroom
  sieve : Option SieveRun
  sieveTimes : List Nat
  streams : List (Nat × Stream)
  win : Window
  disp : Dispatch
  tally : Tally
  svc : Service
  mint : Mint
  hatch : Hatch
  gtw : Gateway
  ports : Ports
  dsp : Display
  fw : Firmware
  vaults : Vaults
  clk : Clocks
  incidents : List Incident   -- newest first, 4,096 at most (R374)
  incSeq : Nat
  late : List (Nat × Nat × Status × Nat)  -- incidents of a stopped half: source, unit, status, detail, written at its next start (R494)
  incCount : List (Nat × Nat) -- per source
deriving DecidableEq, Repr

/-- The Latch (R385, R386). -/
structure Latch where
  holder : Option Nat         -- partner_id
  half : Nat                  -- port it was taken through
  partner : Nat
  gen : Nat
  expires : Nat               -- on the package's elapsed time
deriving DecidableEq, Repr

/-- A context record (R241-R243) with the device's copy of its handle set (R408). -/
structure Ctx where
  raw : Nat                   -- 32 or 128 bytes
  handles : List (Nat × Nat)
deriving DecidableEq, Repr

def Ctx.none : Ctx := { raw := 0, handles := [] }

/-- The package. -/
structure State where
  pending : List Instr        -- commands waiting, first in, first out
  es : Bool                   -- ordering code: false AV, true ES (R1)
  now : Nat                   -- ns elapsed, of which both VT counters are trimmed copies
  h0 : Half
  h1 : Half
  mem : List Host.Cell        -- DRAM and Strongroom of both halves at their global addresses (R25)
  latch : Latch
  vdis : List (Nat × Vdi)
  ctxs : List (Nat × Ctx)
  power : Nat                 -- 0 RUN, 2 PARK, 3 SLEEP, 4 entering PARK, 5 entering SLEEP
  wakeLatched : Option (Nat × Nat)
  perrN : Bool                -- PERR_N level, true: high
  resetPending : Bool         -- a RESET_N ball is held low
  mismatchVt : Option Nat     -- time since which the PWRGOOD balls differ
  secondFault : Bool          -- an unlocated second fault has occurred (R289)
  freeCtr : Nat               -- the model's own counter of free values drawn
  out : List Out              -- newest first
deriving DecidableEq, Repr

/-! ## Reset

The state right after a power-on reset has been asserted with both PWRGOOD balls high: neither rim runs yet, and the boot rows
(crystal, PLL, PUF, service record, Hatch training, Gatehouse ready, configuration store) bring the halves up. -/

def SvcRecord.shipped : SvcRecord :=
  { coreMap := [], located := [], bankMap := [], bankState := [], withdrawn := 0, portRetired := false, modules := 0x10, laneFix := [],
    pcRetired := 0, pcPending := 0, events := [], evCount := 0, remap := [] }

def Strongroom.reset : Strongroom :=
  { gran := [], zeroQ := [], heldBack := [], waits := [], opening := [], badRow := [], move := none, moveWait := [], bankErr := [], patrolRow := 0,
    cacheFirst := 0, cacheLen := 0, models := [] }

def Window.reset : Window :=
  { bank0 := [], bank1 := [], pendVt := none, enableAt := none, disableAt := none, running := false, frame := 0, inst := [], written := false }

def Dispatch.reset : Dispatch :=
  { queues := [], watches := [], peerFence := [], vclock := [], charge := [], active := [], lastQueue := [], cached := [], dirty := [],
    effPool := [], restarts := [], leaving := [], ran := [], genBase := 0 }

def Tally.reset : Tally :=
  { tasks := [], internalVts := [], selfTests := 0, auditNext := 0, auditVt := 0, standIn := [], ghReset := false, ghResets := [], yielding := false,
    peerServoLost := false, noStandby := false, unbacked := false, normalBank := 0, degradeAt := none, rejoining := false, rejoinStep := 0, passed := [], lossVt := none }

def Service.reset : Service :=
  { record := .shipped, saved := .shipped, savedVt := 0, savedHours := 0, savedRelease := 0, savedFormat := 0, rpmbGen := 0, slotGen := [], writing := none, waiting := false, onNs := 0, soakVt := none, soakMarks := 0, restart := none }

def Mint.reset : Mint :=
  { shadow := [], coins := [], filledVt := 0, held := [], hatchCoins := [], ctl := [], openRow := [], ecc := [], missVt := [], due := [], aborts := [], closing := [], leftOpen := [], levels := [],
    dramBad := [], pcFailed := 0 }

def Hatch.reset : Hatch :=
  { rxSeq := [], replaying := [], trainFailed := false, laneReplays := [], kindSeq := [], txSeq := [], outstanding := [], askers := [], sems := [], lrWait := [], inbox := [], outbox := [], txUsed := [], txWait := [], violVts := [],
    demotedViol := [] }

def Gateway.reset : Gateway :=
  { hw := [], ovf := [], fanout := [], slots := [], slotSeq := [], packing := [], packVt := [], queues := [], queueOwner := [], busOff := [], tx := [] }

def Ports.reset : Ports :=
  { sessions := [], badVts := [], blocked := [], hbCount := 0, linkLoss := [], udp := [], macsec := [], rings := [], stage := 0, tellerMsg := [],
    tellerReply := [], qbvAdmin := [], qbvOper := [], peers := [], rxq := [] }

def Display.reset : Display := { pipes := [], image := [], atlas := [], loaded := false }

def Firmware.reset : Firmware :=
  { stewardDown := false, stewardVts := [], slot0 := [], slot1 := [], shipped := [0, 1], ghBank0 := [], ghBank1 := [], ghActive := 0, running := [], fresh := [], activeSlot := 0, trialSlot := 0, attempts := 0, rollback := 0,
    emgClearVt := none, supplyFault := false, conf := .none, failedSlots := [], wrote := false, confDue := true }

def Vaults.reset : Vaults :=
  { table := [], harts := [], claims := [], idents := [], lifecycle := [], accepted := [], rpmb := 0, challenge := 0, pufOk := false, keyDebug := false,
    waiting := [] }

def Clocks.reset : Clocks :=
  { rimUp := false, computeUp := false, ready := false, held := false, phase := 0, resetKind := 4, reqVt := 0, trips := [], tripSrc := [],
    tripHold := false, latched := false, trimVt := 0, trimNs := 0, belowVt := [], theta := 0, frac := 0, grandmaster := 0, devVt := 0, supplyVt := none,
    pwrgood := true, resetN := true, slpN := true, vrAlertN := true, serrN := false, serrHb := false }

def Half.reset : Half :=
  { vt := 0, regs := [], cores := [], str := .reset, sieve := none, sieveTimes := [], streams := [], win := .reset, disp := .reset, tally := .reset,
    svc := .reset, mint := .reset, hatch := .reset, gtw := .reset, ports := .reset, dsp := .reset, fw := .reset, vaults := .reset, clk := .reset,
    incidents := [], incSeq := 0, late := [], incCount := [] }

def Latch.reset : Latch := { holder := none, half := 0, partner := 0, gen := 0, expires := 0 }

/-- The package right after a power-on reset is asserted (R504): every register at the reset value of its table, memory with nothing listed. -/
def State.reset : State :=
  { pending := [], es := false, now := 0, h0 := .reset, h1 := .reset, mem := [], latch := .reset, vdis := [], ctxs := [], power := 0,
    wakeLatched := none, perrN := false, resetPending := false, mismatchVt := none, secondFault := false, freeCtr := 0, out := [] }

end Sys2Proof.Machine
end

