-- ==== Sys2Proof/Machine/Ops.lean ====
section
/-! DEFINITION. The named operations every meaning is written with: halves, registers, memory, incident records, messages, time. -/
namespace Sys2Proof.Machine

/-- A sparse list with every listed value changed. -/
def kmapV {α : Type} [DecidableEq α] (d : Nat → α) (m : List (Nat × α)) (f : Nat → α → α) : List (Nat × α) :=
  m.foldl (fun acc e => kput d acc e.1 (f e.1 e.2)) []

/-! ## Halves -/

/-- The half of an index. -/
def State.half (s : State) (h : Nat) : Half := if h = 0 then s.h0 else s.h1

def State.setHalf (s : State) (h : Nat) (x : Half) : State := if h = 0 then { s with h0 := x } else { s with h1 := x }

/-- One half changed by a function. -/
def State.upd (s : State) (h : Nat) (f : Half → Half) : State := s.setHalf h (f (s.half h))

/-- The other half of the package. -/
def peer (h : Nat) : Nat := if h = 0 then 1 else 0

/-- One output added, newest first. -/
def State.emit (s : State) (o : Out) : State := { s with out := o :: s.out }

/-- A value the manual leaves open: drawn fresh, the counter advanced (log entry 1). -/
def State.draw (s : State) : Nat × State := (Config.free s.freeCtr, { s with freeCtr := s.freeCtr + 1 })

/-- Vehicle time of a half in ns. -/
def State.vtOf (s : State) (h : Nat) : Nat := (s.half h).vt.toNat

/-! ## Registers (R12) -/

/-- A whole register element, its words joined. -/
def Half.elem (x : Half) (r : Reg) (u : Nat := 0) (i : Nat := 0) : Nat :=
  (List.range (regWords r)).foldl (fun a w => a + (kget regDefault x.regs (regKey r u i w)).toNat * 2 ^ (64 * w)) 0

/-- One word of a register element. -/
def Half.word (x : Half) (r : Reg) (u i w : Nat) : Nat := (kget regDefault x.regs (regKey r u i w)).toNat

def Half.setWord (x : Half) (r : Reg) (u i w : Nat) (v : Nat) : Half :=
  { x with regs := kput regDefault x.regs (regKey r u i w) (BitVec.ofNat 64 v) }

def Half.setElem (x : Half) (r : Reg) (v : Nat) (u : Nat := 0) (i : Nat := 0) : Half :=
  (List.range (regWords r)).foldl (fun y w => y.setWord r u i w (v >>> (64 * w))) x

/-- The value of a register field. -/
def Half.fld (x : Half) (f : Fld) (u : Nat := 0) (i : Nat := 0) : Nat :=
  if f.lo + f.width ≤ 64 then bits (x.word f.reg u i 0) f.lo f.width else bits (x.elem f.reg u i) f.lo f.width

/-- A register field given a value, the other bits kept. -/
def Half.setFld (x : Half) (f : Fld) (v : Nat) (u : Nat := 0) (i : Nat := 0) : Half :=
  if f.lo + f.width ≤ 64 then x.setWord f.reg u i 0 (setBits (x.word f.reg u i 0) f.lo f.width v)
  else x.setElem f.reg (setBits (x.elem f.reg u i) f.lo f.width v) u i

/-- A counter field raised by `n`; it stops at its largest value (R508 and the other register rules). -/
def Half.inc (x : Half) (f : Fld) (u : Nat := 0) (i : Nat := 0) (n : Nat := 1) : Half :=
  x.setFld f (Nat.min (x.fld f u i + n) (2 ^ f.width - 1)) u i

/-- A counter field marked as wrapping. -/
def Half.incw (x : Half) (f : Fld) (u : Nat := 0) (i : Nat := 0) (n : Nat := 1) : Half :=
  x.setFld f (x.fld f u i + n) u i

/-! ## Memory: DRAM and Strongroom bytes (R25, R11) -/

/-- What an unlisted byte reads as: zero, stated for the Strongroom (R18), the model's choice for DRAM (log entry 3). -/
def memD (_ : Nat) : Byte := 0

def State.rd (s : State) (a : Nat) : Byte := kget memD s.mem a

/-- The home half of an address (R25). -/
def homeHalf (a : Nat) : Nat :=
  if a < 0x1000000000 then 0 else if a < 0x2000000000 then 1 else if a < 0x2010000000 then 0 else 1

/-- A held semaphore entry whose 64-byte granule a range touches (R357). -/
def semHit (a n : Nat) (e : Nat × Option Sem) : Bool :=
  match e.2 with
  | none => false
  | some k => decide (k.granule * 64 < a + n) && decide (a < k.granule * 64 + 64)

/-- HTC_SEM_STAT.held counts the entries held. -/
def Half.syncSems (x : Half) : Half := x.setFld F.HTC_SEM_STAT_held x.hatch.sems.length

/-- Any write to a granule clears its semaphore entry at the home half (R357). -/
def State.clearSems (s : State) (a n : Nat) : State :=
  if !((s.half (homeHalf a)).hatch.sems.any (semHit a n)) then s
  else s.upd (homeHalf a) fun x => ({ x with hatch := { x.hatch with sems := x.hatch.sems.filter fun e => !semHit a n e } } : Half).syncSems

def State.wr (s : State) (a : Nat) (b : Byte) : State := ({ s with mem := kput memD s.mem a b } : State).clearSems a 1

/-- The canonical form of the memory. -/
def Memory.wf (m : List Host.Cell) : Bool := kwf memD m

def cellsRead (m : List Host.Cell) (a n : Nat) : List Byte := (List.range n).map fun i => kget memD m (a + i)

def cellsWrite (m : List Host.Cell) (a : Nat) (l : List Byte) : List Host.Cell :=
  match l with
  | [] => m
  | b :: r => cellsWrite (kput memD m a b) (a + 1) r

/-- Bytes written but for those at addresses that `drop` names. -/
def cellsMask (drop : Nat → Bool) (m : List Host.Cell) (a : Nat) (l : List Byte) : List Host.Cell :=
  match l with
  | [] => m
  | b :: r => cellsMask drop (if drop a then m else kput memD m a b) (a + 1) r

/-- The little-endian number of a byte string (R11). -/
def leNat (l : List Byte) : Nat :=
  match l with
  | [] => 0
  | b :: r => b.toNat + 256 * leNat r

/-- The `n` little-endian bytes of a number (R11). -/
def leBytes (n v : Nat) : List Byte :=
  match n with
  | 0 => []
  | n + 1 => BitVec.ofNat 8 v :: leBytes n (v / 256)

def State.rdBytes (s : State) (a n : Nat) : List Byte := cellsRead s.mem a n

def State.wrBytes (s : State) (a : Nat) (l : List Byte) : State := ({ s with mem := cellsWrite s.mem a l } : State).clearSems a l.length

/-- Bytes written but for those at addresses that `drop` names. -/
def State.wrMask (s : State) (drop : Nat → Bool) (a : Nat) (l : List Byte) : State :=
  ({ s with mem := cellsMask drop s.mem a l } : State).clearSems a l.length

/-- A little-endian read of `n` bytes. -/
def State.rdN (s : State) (a n : Nat) : Nat := leNat (s.rdBytes a n)

/-- A little-endian write of `n` bytes. -/
def State.wrN (s : State) (a n v : Nat) : State := s.wrBytes a (leBytes n v)

/-- The range [lo, lo + n) zeroed. -/
def State.zero (s : State) (lo n : Nat) : State := ({ s with mem := kclear s.mem lo (lo + n) } : State).clearSems lo n

/-- The range [lo, lo + n) lost to a reset: it reads as zero until written, and nothing has written it, so semaphore entries hold (R18, R357). -/
def State.lose (s : State) (lo n : Nat) : State := { s with mem := kclear s.mem lo (lo + n) }

/-! ## CRC-32C (R366, R454, R461) -/

/-- One bit of a reflected CRC-32C. -/
def crcStep (c : Nat) : Nat := if c % 2 = 1 then c / 2 ^^^ 0x82F63B78 else c / 2

/-- CRC-32C over bytes with an initial value; reflected, with the final inversion of that CRC (PRESUMED, log entry 14). -/
def crc32c (init : Nat) (l : List Byte) : Nat :=
  (l.foldl (fun c b => (List.range 8).foldl (fun a _ => crcStep a) (c ^^^ b.toNat)) init) ^^^ 0xFFFFFFFF

/-! ## The address map (R25) -/

def dramBase (h : Nat) : Nat := if h = 0 then 0 else 0x1000000000
def dramSize : Nat := 0xC00000000
def strBase (h : Nat) : Nat := if h = 0 then 0x2000000000 else 0x2010000000
def strSize : Nat := 0x8000000

/-- A range lies within the DRAM of half `h`. -/
def inDram (h a n : Nat) : Bool := decide (dramBase h ≤ a) && decide (a + n ≤ dramBase h + dramSize)

/-- A range lies within the Strongroom of half `h`. -/
def inStr (h a n : Nat) : Bool := decide (strBase h ≤ a) && decide (a + n ≤ strBase h + strSize)

/-- Device DMA reaches DRAM and Strongroom only (R29). -/
def dmaReach (a n : Nat) : Bool := inDram 0 a n || inDram 1 a n || inStr 0 a n || inStr 1 a n

/-- A mapped peripheral address: the six windows of R27. -/
def inPeriph (a : Nat) : Bool :=
  decide (0x3F00000000 ≤ a) && decide (a < 0x3F20000000) && decide (a % 0x10000000 < 0x6000000)

/-- The offset in a 1 MiB device window (the Teller pages, the doorbells, the service rings), whose base is a multiple of its size. -/
def winOff (a : Nat) : Nat := a % 0x100000

/-- An address of the tables of R25 and R27. -/
def mapped (a : Nat) : Bool :=
  dmaReach a 1 || (decide (0x3000000000 ≤ a) && decide (a < 0x3000100000)) || (decide (0x3001000000 ≤ a) && decide (a < 0x3001100000))
    || (decide (0x3010000000 ≤ a) && decide (a < 0x3010100000)) || inPeriph a

/-- The Hatch link of a half carries every class: it is up and not demoted (R360, R361). -/
def Half.linkUp (x : Half) : Bool := x.fld F.HTC_LINK_state = 2

/-- Whether a range of DRAM or Strongroom is served now to a master of half `h`: a down rim answers neither, a down compute domain not its Strongroom, and
a link that is not up does not reach the other half (R17, R30, R348, R360). -/
def State.served (s : State) (h a n : Nat) : Bool :=
  let x := s.half (homeHalf a)
  dmaReach a n && x.clk.rimUp && (x.clk.computeUp || inDram (homeHalf a) a n) && (homeHalf a = h || (s.half h).linkUp)

/-! ## Incident records (R374) -/

/-- The next sequence number, past 0 (R374). -/
def nextSeq (q : Nat) : Nat := if q ≥ 0xFFFFFFFF then 1 else q + 1

/-- One incident record appended to the half's ring, the 4,096 newest kept. -/
def Half.record (x : Half) (src half unit : Nat) (st : Status) (detail : Nat) : Half :=
  let c := (kget (fun _ => 0) x.incCount src + 1) % 2 ^ 32
  let q := nextSeq x.incSeq
  { x with
    incidents := ({ vt := x.vt.toNat, source := src, half := half, unit := unit % 2 ^ 16, status := st, detail := detail % 2 ^ 32,
                    count := c, seq := q } :: x.incidents).take 4096
    incSeq := q
    incCount := kput (fun _ => 0) x.incCount src c }

/-- An incident of half `h`: recorded now, or at the half's next start while its rim is stopped (R494). -/
def State.incident (s : State) (h src unit : Nat) (st : Status) (detail : Nat := 0) : State :=
  s.upd h fun x => if x.clk.rimUp then x.record src h unit st detail else { x with late := x.late ++ [(src, unit, st, detail)] }

/-- The incidents that waited for the start of the half. -/
def Half.flushLate (x : Half) (h : Nat) : Half :=
  x.late.foldl (fun y r => y.record r.1 h r.2.1 r.2.2.1 r.2.2.2) { x with late := [] }

/-! ## Time (R503) -/

/-- A signed 32-bit field as an integer. -/
def sext32 (v : Nat) : Int := if v < 2 ^ 31 then (v : Int) else (v : Int) - 2 ^ 32

/-- One half's clocks advanced by `dt` ns: VT runs from the stable crystal at the trimmed rate. -/
def Half.tick (x : Half) (dt : Nat) : Half :=
  let run := x.fld F.CLK_STAT_xtal_ok = 1
  let total : Int := (dt : Int) * (1000000000 + sext32 (x.fld F.CLK_VT_STAT_rate_ppb)) + x.clk.frac
  let step := (total / 1000000000).toNat
  let trim := x.fld F.CLK_TRIM_div ≠ 0
  let ns := x.clk.trimNs + dt
  let y : Half := { x with
    vt := if run then x.vt + BitVec.ofNat 64 step else x.vt
    svc := { x.svc with onNs := if x.clk.pwrgood then x.svc.onNs + dt else x.svc.onNs }
    clk := { x.clk with frac := if run then total % 1000000000 else x.clk.frac, trimNs := if trim then ns else x.clk.trimNs } }
  if trim then y.setFld F.CLK_TRIM_trim_ms (ns / 1000000) else y

/-- The time that passed before a command: both halves' VT advance (log entry 4). -/
def tick (e : Ev) (s : State) : State :=
  { s with now := s.now + e.dt, h0 := s.h0.tick e.dt, h1 := s.h1.tick e.dt }

/-- Whole powered hours of a half. -/
def Half.hours (x : Half) : Nat := x.svc.onNs / 3600000000000

/-- The events of a list that lie within the last `w` ns of `now`. -/
def within (now w : Nat) (l : List Nat) : List Nat := l.filter fun t => now ≤ t + w

/-! ## Bank moves (R129) -/

/-- The bank move under way has gone on: how far is a matter of timing, so the pointer is a free value not below the one it had (log entry 161). -/
def State.moveOn (s : State) (h : Nat) : State :=
  if (s.half h).str.move.isNone then s else
  let d := s.draw
  d.2.upd h fun x =>
    let p := x.fld F.STR_MOVE_CTL_pointer
    x.setFld F.STR_MOVE_CTL_pointer (p + d.1 % (16384 - p))

/-- The physical bank at which a row of the Strongroom is read: the spare below the pointer of a move of its bank, else the bank of the map (R105, R129). -/
def Half.readBank (x : Half) (off : Nat) : Nat :=
  let l := off / 0x1000000 * 8 + off / 128 % 8
  let mapped := x.fld F.STR_BANK_MAP_phys_bank 0 l
  match x.str.move with
  | some m => if m.logical = l && decide (off / 1024 % 16384 < x.fld F.STR_MOVE_CTL_pointer) then m.target else mapped
  | none => mapped

/-! ## Messages out -/

/-- The credit pool of a message kind (R352; log entry 130): 16 for MSG, 18 for the result channel, as the five bits of a flit number them. -/
def kindPool (kind : Nat) : Nat := if 0x40 ≤ kind then 18 else 16

/-- Bytes of a message's credit pool. -/
def poolSize (pool : Nat) : Nat := if pool = 18 then 16384 else 4096

/-- The messages of a list that leave as far as their pools have credit, each behind those of its pool that wait (R352). -/
def State.hatchFlush (s : State) (h : Nat) (l : List (Nat × List Nat)) : State :=
  l.foldl (fun t m =>
    let x := t.half h
    let pool := kindPool m.1
    let used := kget (fun _ => 0) x.hatch.txUsed pool
    let n := 16 + 8 * (m.2.length - 1)
    if x.hatch.txWait.any (fun w => kindPool w.1 = pool) || poolSize pool < used + n then
      t.upd h fun x => { x with hatch := { x.hatch with txWait := x.hatch.txWait ++ [m] } }
    else (t.upd h fun x => { x with hatch := { x.hatch with txUsed := kput (fun _ => 0) x.hatch.txUsed pool (used + n) } }).emit (.hatchMsg h m.1 m.2)) s

/-- A message of a kind sent across the Hatch (R354), its sequence number advanced, while the link is up; a demoted link carries only the result class
(R360). It waits while its pool has no credit (R352). -/
def State.hatchSend (s : State) (h kind : Nat) (args : List Nat) : State :=
  let x := s.half h
  let q := kget (fun _ => 0) x.hatch.txSeq kind
  if !x.linkUp && !(decide (0x40 ≤ kind) && decide (x.fld F.HTC_LINK_state = 3)) then s
  else (s.upd h fun x => { x with hatch := { x.hatch with txSeq := kput (fun _ => 0) x.hatch.txSeq kind ((q + 1) % 2 ^ 16) } }).hatchFlush h [(kind, q :: args)]

/-- Credit returned by the other half, in units of 16 bytes: what waited for it leaves (R346, R352). -/
def State.creditBack (s : State) (h pool units : Nat) : State :=
  let w := (s.half h).hatch.txWait
  (s.upd h fun x => { x with hatch := { x.hatch with
    txUsed := kput (fun _ => 0) x.hatch.txUsed pool (kget (fun _ => 0) x.hatch.txUsed pool - 16 * units), txWait := [] } }).hatchFlush h w

/-- The newest incident sequence of a half, 0 while its ring is empty. -/
def Half.newest (x : Half) : Nat := if x.incidents = [] then 0 else x.incSeq

/-- GOING_DOWN (R384): twice on the half's own port, and a kind 0x43 message, on which the other half sends the same frame on its port. -/
def State.goingDown (s : State) (h kind reason bound : Nat) : State :=
  let ret := if bound = 0 then 0 else (s.vtOf h + bound) % 2 ^ 64
  ((s.emit (.goingDown h h kind reason ret)).emit (.goingDown h h kind reason ret)).hatchSend h 0x43 [kind, reason, ret]

end Sys2Proof.Machine
end

