-- ==== Sys2Proof/Machine/Operands.lean ====
section
/-! DEFINITION. Operand forms: the records of the manual as little-endian numbers with a named accessor for each field, the checks of a range
against windows and handles, and the reads a command makes before it runs. -/
namespace Sys2Proof.Machine

/-! ## Command descriptor (R81) and tensor descriptor (R83) -/

def dOpcode (d : Nat) := bits d 0 8
def dActFmt (d : Nat) := bits d 8 4
def dWgtFmt (d : Nat) := bits d 12 4
def dOutFmt (d : Nat) := bits d 16 4
def dRound (d : Nat) := bits d 20 1
def dSat (d : Nat) := bits d 21 1
def dGrade (d : Nat) := bits d 22 2
def dAct (d : Nat) := bits d 24 4
def dBias (d : Nat) := bits d 28 1
def dHazard (d : Nat) := bits d 29 1
def dFenced (d : Nat) := bits d 30 1
def dTag (d : Nat) := bits d 32 32
def dTiles (d : Nat) := bits d 64 16
def dParHandle (d : Nat) := bits d 80 6
def dParOff (d : Nat) := bits d 96 32
def dSlot (d k : Nat) := bits d (128 + 128 * k) 128
def dFenceAddr (d : Nat) := bits d 768 48
def dFenceVal (d : Nat) := bits d 832 64
def dDmaHandle (d : Nat) := bits d 896 6
def dDmaCount (d : Nat) := bits d 912 16
def dDmaOff (d : Nat) := bits d 928 32

def tHandle (t : Nat) := bits t 0 6
def tLedHandle (t : Nat) := bits t 8 6
def tLedOn (t : Nat) := bits t 14 1
def tLayout (t : Nat) := bits t 16 4
def tPerCol (t : Nat) := bits t 20 1
def tOff (t : Nat) := bits t 32 32
def tLedOff (t : Nat) := bits t 64 32
def tScale (t : Nat) := bits t 96 32

/-! ## DMA descriptor (R90) -/

def mSrcFmt (d : Nat) := bits d 0 4
def mDstFmt (d : Nat) := bits d 4 4
def mConvert (d : Nat) := bits d 8 1
def mRound (d : Nat) := bits d 9 1
def mSat (d : Nat) := bits d 10 1
def mLedger (d : Nat) := bits d 11 1
def mRegroup (d : Nat) := bits d 12 2
def mPhase (d : Nat) := bits d 14 2
def mChannel (d : Nat) := bits d 16 2
def mSrcIsH (d : Nat) := bits d 18 1
def mDstIsH (d : Nat) := bits d 19 1
def mSrcLed (d : Nat) := bits d 20 1
def mToken (d : Nat) := bits d 24 8
def mRowBytes (d : Nat) := bits d 32 32
def mRows (d : Nat) := bits d 64 32
def mSrcStride (d : Nat) := bits d 96 32
def mDstStride (d : Nat) := bits d 128 32
def mSrcStep (d : Nat) := bits d 160 32
def mSrc (d : Nat) := bits d 192 48
def mSrcH (d : Nat) := bits d 240 6
def mDst (d : Nat) := bits d 256 48
def mDstH (d : Nat) := bits d 304 6
def mDstStep (d : Nat) := bits d 320 32
def mSrcExp (d : Nat) := bits d 360 8
def mDstExp (d : Nat) := bits d 368 8
def mSrcLedger (d : Nat) := bits d 384 48
def mSrcLedgerH (d : Nat) := bits d 432 6
def mDstLedger (d : Nat) := bits d 448 48
def mDstLedgerH (d : Nat) := bits d 496 6

/-! ## Sieve descriptor (R173) and Sieve output (R182) -/

def svMode (d : Nat) := bits d 0 2
def svScoreFmt (d : Nat) := bits d 4 4
def svBoxFmt (d : Nat) := bits d 8 4
def svScoreFn (d : Nat) := bits d 12 1
def svSuppress (d : Nat) := bits d 13 2
def svAgnostic (d : Nat) := bits d 15 1
def svSelect (d : Nat) := bits d 16 1
def svFenced (d : Nat) := bits d 17 1
def svTag (d : Nat) := bits d 32 32
def svCand (d : Nat) := bits d 64 32
def svClass (d : Nat) := bits d 96 16
def svPreK (d : Nat) := bits d 112 16
def svMaxOut (d : Nat) := bits d 128 16
def svLevels (d : Nat) := bits d 144 8
def svScoreThr (d : Nat) := bits d 160 32
def svIouThr (d : Nat) := bits d 192 32
def svSigma (d : Nat) := bits d 224 32
def svSoftMin (d : Nat) := bits d 256 32
def svLogClamp (d : Nat) := bits d 288 32
def svScoreAddr (d : Nat) := bits d 320 48
def svBoxAddr (d : Nat) := bits d 384 48
def svAuxAddr (d : Nat) := bits d 448 48
def svOutAddr (d : Nat) := bits d 512 48
def svFenceAddr (d : Nat) := bits d 576 48
def svFenceVal (d : Nat) := bits d 640 64
def svScoreScale (d : Nat) := bits d 704 32
def svBoxScale (d : Nat) := bits d 736 32
def svVar (d k : Nat) := bits d (768 + 32 * k) 32
def svScaleX (d : Nat) := bits d 896 32
def svScaleY (d : Nat) := bits d 928 32

/-- Tag and fence of a Sieve descriptor at the places of a core descriptor, with opcode 0: what the end of a command reads (R87, R172). -/
def svEnd (d : Nat) : Nat :=
  svFenced d * 2 ^ 30 + svTag d * 2 ^ 32 + svFenceAddr d * 2 ^ 768 + svFenceVal d * 2 ^ 832

/-! ## Render descriptor (R424) -/

def raFenced (d : Nat) := bits d 8 1
def raGrow (d : Nat) := bits d 9 1
def raTag (d : Nat) := bits d 32 32
def raWidth (d : Nat) := bits d 64 16
def raHeight (d : Nat) := bits d 80 16
def raStreamLen (d : Nat) := bits d 96 32
def raStream (d : Nat) := bits d 128 48
def raPool (d : Nat) := bits d 192 48
def raPoolSize (d : Nat) := bits d 256 32
def raPoolMax (d : Nat) := bits d 288 32
def raStore (d : Nat) := bits d 320 48
def raStoreSize (d : Nat) := bits d 384 32
def raFenceAddr (d : Nat) := bits d 448 48
def raFenceVal (d : Nat) := bits d 512 64

/-- Tag and fence of a render descriptor at the places of a core descriptor, with opcode 0x40: what the end of a command reads (R426). -/
def raEnd (d : Nat) : Nat :=
  0x40 + raFenced d * 2 ^ 30 + raTag d * 2 ^ 32 + raFenceAddr d * 2 ^ 768 + raFenceVal d * 2 ^ 832

/-! ## Handle-table entry (R107) -/

def hValid (x : Nat) := bits x 0 1
def hRead (x : Nat) := bits x 1 1
def hWrite (x : Nat) := bits x 2 1
def hMem (x : Nat) := bits x 3 2
def hVdi (x : Nat) := bits x 8 8
def hBase (x : Nat) := bits x 32 27
def hSize (x : Nat) := bits x 64 28

/-- Bytes of each memory a handle can name (R108). -/
def hMemSize : Nat → Nat
  | 0 => 0x180000
  | 1 => 0x8000000
  | 2 => 0x8000000
  | _ => 0x50000

/-- A handle entry that R108 accepts by itself: base and size are checked in every entry, valid or not. -/
def handleOk (k x : Nat) : Bool :=
  (hValid x = 0 || decide (k ≠ 0x3F)) && decide (hBase x % 128 = 0) && decide (hSize x % 128 = 0) &&
    decide (hBase x + hSize x ≤ hMemSize (hMem x)) &&
    (decide (hMem x ≠ 3) ||
      decide (hBase x + hSize x ≤ (if hBase x < 0x20000 then 0x20000 else if hBase x < 0x40000 then 0x40000 else 0x50000)))

/-! ## Queue record (R229), window entry (R221), context record (R242, R243) -/

def qRing (r : Nat) := bits r 0 48
def qRingSize (r : Nat) := 2 ^ (bits r 48 4 + 4)
def qInflight (r : Nat) := bits r 52 4 + 1
def qEngine (r : Nat) := bits r 56 1
def qCq (r : Nat) := bits r 64 48
def qCqSize (r : Nat) := 2 ^ (bits r 112 4 + 4)
def qCond (r : Nat) := bits r 128 48
def qCtx (r : Nat) := bits r 192 20
def qVdi (r : Nat) := bits r 212 8
def qWaitMs (r : Nat) := bits r 224 16

def wStart (w : Nat) := bits w 0 24
def wKind (w : Nat) := bits w 24 4
def wPart (w : Nat) := bits w 28 4
def wDuration (w : Nat) := bits w 32 24
def wInstances (w : Nat) := bits w 64 16
def wPeriod (w : Nat) := bits w 96 24
def wCore (w : Nat) := bits w 128 7
def wEngine (w : Nat) := bits w 135 1
def wCount (w : Nat) := bits w 136 8
def wTask (w : Nat) := bits w 144 12
def wChannel (w : Nat) := bits w 156 1
def wAssay (w : Nat) := bits w 157 1
def wCtx (w : Nat) := bits w 160 20
def wCmd (w : Nat) := bits w 192 48
def wCond (w : Nat) := bits w 256 48
def wRing (w : Nat) := bits w 320 48
def wRingLog (w : Nat) := bits w 368 4
def wDeadline (w : Nat) := bits w 384 24

def cVdi (c : Nat) := bits c 0 8
def cPart (c : Nat) := bits c 8 4
def cPrio (c : Nat) := bits c 12 3
def cSuspended (c : Nat) := bits c 15 1
def cMark (c : Nat) := bits c 16 4
def cWeight (c : Nat) := bits c 32 16
def cHandleSet (c : Nat) := bits c 64 48
def cLead (c : Nat) := bits c 128 64
def cJobs (c : Nat) := bits c 192 32

/-! ## VDI configuration (R404) -/

def vHalf (v : Nat) := bits v 0 1
def vGwQueues (v : Nat) := bits v 16 16
def vStreams (v : Nat) := bits v 32 32
def vQFirst (v : Nat) := bits v 64 13
def vQCount (v : Nat) := bits v 80 14
def vCFirst (v : Nat) := bits v 96 19
def vCCount (v : Nat) := bits v 128 20
def vStrLimit (v : Nat) := bits v 160 12
def vWinBase (v n : Nat) := bits v (256 + 128 * n) 48
def vWinSize (v n : Nat) := bits v (320 + 128 * n) 64

/-! ## Lookups -/

def State.vdi (s : State) (v : Nat) : Vdi := kget (fun _ => Vdi.absent) s.vdis v
def State.setVdi (s : State) (v : Nat) (x : Vdi) : State := { s with vdis := kput (fun _ => Vdi.absent) s.vdis v x }
def State.ctx (s : State) (c : Nat) : Ctx := kget (fun _ => Ctx.none) s.ctxs c
def State.setCtx (s : State) (c : Nat) (x : Ctx) : State := { s with ctxs := kput (fun _ => Ctx.none) s.ctxs c x }
def Half.core (x : Half) (p : Nat) : Core := kget (fun _ => Core.idle) x.cores p
def Half.setCore (x : Half) (p : Nat) (c : Core) : Half := { x with cores := kput (fun _ => Core.idle) x.cores p c }
def Half.updCore (x : Half) (p : Nat) (f : Core → Core) : Half := x.setCore p (f (x.core p))
def Half.queue (x : Half) (u : Nat) : Queue := kget (fun _ => Queue.disabled) x.disp.queues u
def Half.setQueue (x : Half) (u : Nat) (q : Queue) : Half :=
  { x with disp := { x.disp with queues := kput (fun _ => Queue.disabled) x.disp.queues u q } }
def Half.updQueue (x : Half) (u : Nat) (f : Queue → Queue) : Half := x.setQueue u (f (x.queue u))
def Half.gran (x : Half) (g : Nat) : Nat := kget (fun _ => 0) x.str.gran g
def Half.stream (x : Half) (k : Nat) : Stream := kget (fun _ => Stream.off) x.streams k
def Half.setStream (x : Half) (k : Nat) (v : Stream) : Half := { x with streams := kput (fun _ => Stream.off) x.streams k v }
def Half.entry (x : Half) (bank n : Nat) : Nat := kget (fun _ => 0) (if bank = 0 then x.win.bank0 else x.win.bank1) n
def Half.activeEntry (x : Half) (n : Nat) : Nat := x.entry (x.fld F.WIN_CTL_active_bank) n
def Half.inst (x : Half) (n : Nat) : Inst := kget (fun _ => Inst.none) x.win.inst n
def Half.setInst (x : Half) (n : Nat) (i : Inst) : Half :=
  { x with win := { x.win with inst := kput (fun _ => Inst.none) x.win.inst n i } }
def Half.task (x : Half) (t : Nat) : Task := kget (fun _ => Task.none) x.tally.tasks t
def Half.setTask (x : Half) (t : Nat) (k : Task) : Half :=
  { x with tally := { x.tally with tasks := kput (fun _ => Task.none) x.tally.tasks t k } }
def Half.ring (x : Half) (p : Nat) : Ring := kget (fun _ => Ring.empty) x.ports.rings p
def Half.setRing (x : Half) (p : Nat) (r : Ring) : Half :=
  { x with ports := { x.ports with rings := kput (fun _ => Ring.empty) x.ports.rings p r } }
def Half.session (x : Half) (p : Nat) : Option Session := kget (fun _ => none) x.ports.sessions p
def Half.setSession (x : Half) (p : Nat) (r : Option Session) : Half :=
  { x with ports := { x.ports with sessions := kput (fun _ => none) x.ports.sessions p r } }
def Half.pipe (x : Half) (p : Nat) : Pipe := kget (fun _ => Pipe.off) x.dsp.pipes p
def Half.setPipe (x : Half) (p : Nat) (r : Pipe) : Half :=
  { x with dsp := { x.dsp with pipes := kput (fun _ => Pipe.off) x.dsp.pipes p r } }
def Half.hart (x : Half) (n : Nat) : Hart := kget (fun _ => Hart.normal) x.vaults.harts n
def Half.setHart (x : Half) (n : Nat) (r : Hart) : Half :=
  { x with vaults := { x.vaults with harts := kput (fun _ => Hart.normal) x.vaults.harts n r } }


/-- Kind of a partition (R219): 0 unused, 1 critical, 2 shared compute, 3 graphics; partition 0 is the critical one. -/
def Half.partKind (x : Half) (q : Nat) : Nat := if q = 0 then 1 else x.fld F.WIN_PART_CFG_kind 0 q

/-! ## The core map (R19, R20, R296) -/

/-- Logical index and state (R296: 0 active, 1 spare free, 2 spare permanent, 3 retired) of a physical core. -/
def Half.coreEntry (x : Half) (p : Nat) : Nat × Nat :=
  kget (fun p => if p % 17 = 16 then (0xFF, 1) else (p / 17 * 16 + p % 17, 0)) x.svc.record.coreMap p

/-- The logical index a physical core serves now: its own, or the one it stands in for (R281). -/
def Half.logical (x : Half) (p : Nat) : Option Nat :=
  let own := x.coreEntry p
  let standing := (kget (fun _ => 0) x.tally.standIn (p / 17))
  if own.2 = 1 then
    (if standing = 0 then none else some (x.coreEntry (standing - 1)).1)
  else if own.2 = 0 || own.2 = 2 then (if standing = p + 1 then none else some own.1)
  else none

/-- The physical core that serves a logical index now; none: unbacked (R21). -/
def Half.physical (x : Half) (l : Nat) : Option Nat :=
  (List.range 17).map (fun k => l / 16 * 17 + k) |>.find? fun p => x.logical p = some l

/-! ## Range checks -/

/-- A byte address lies in an allocated granule of a Strongroom: the granule's half and index. -/
def granOf (a : Nat) : Option (Nat × Nat) :=
  if inStr 0 a 1 then some (0, (a - strBase 0) / 0x10000)
  else if inStr 1 a 1 then some (1, (a - strBase 1) / 0x10000) else none

/-- The first address past `a` that is not covered by a window or owned granule of the VDI beginning at or before `a`: `a` itself if none. -/
def State.coverEnd (s : State) (v a : Nat) : Nat :=
  let cfg := (s.vdi v).cfg
  let w := (List.range 8).foldl (fun best n =>
    if vWinBase cfg n ≤ a && a < vWinBase cfg n + vWinSize cfg n then Nat.max best (vWinBase cfg n + vWinSize cfg n) else best) a
  match granOf a with
  | some (h, g) => if (s.half h).gran g = 2 + v then Nat.max w (strBase h + (g + 1) * 0x10000) else w
  | none => w

def State.coverRun (s : State) (v stop : Nat) : Nat → Nat → Bool
  | 0, a => decide (stop ≤ a)
  | k + 1, a => if stop ≤ a then true else if s.coverEnd v a ≤ a then false else s.coverRun v stop k (s.coverEnd v a)

/-- Every byte of a range lies in a window or owned granule of the VDI (R406); it may run across adjacent ones. -/
def State.inWindows (s : State) (v a n : Nat) : Bool := s.coverRun v (a + n) (n / 0x10000 + 10) a

/-- Every granule of a Strongroom range is device-owned. -/
def State.inDevice (s : State) (a n : Nat) : Bool :=
  (inStr 0 a n || inStr 1 a n) &&
  (List.range ((a % 0x10000 + n + 0xFFFF) / 0x10000)).all fun k =>
    match granOf (a + k * 0x10000) with
    | some (h, g) => (s.half h).gran g = 258
    | none => false

/-- The pseudo-channels that the interleave uses, in increasing order. -/
def Half.channels (x : Half) : List Nat := (List.range 64).filter fun i => bits x.svc.record.pcRetired i 1 = 0

/-- A range of the half's DRAM lies in part in a pseudo-channel that failed its training (R308). -/
def Half.pcFails (x : Half) (o n : Nat) : Bool :=
  x.mint.pcFailed ≠ 0 && n ≠ 0 &&
    let c := x.channels
    (List.range ((o + n - 1) / 256 - o / 256 + 1)).any fun i => bits x.mint.pcFailed (c.getD ((o / 256 + i) % Nat.max c.length 1) 0) 1 = 1

/-- A Strongroom row or DRAM word of a range is damaged (R118, R325, R307). -/
def State.damaged (s : State) (a n : Nat) : Bool :=
  let h := homeHalf a
  if inStr h a n then
    (s.half h).str.badRow.any fun r => r.2 && decide (strBase h + r.1 * 128 < a + n) && decide (a < strBase h + r.1 * 128 + 128)
  else ((s.half h).mint.dramBad.any fun r => r.2 && decide (dramBase h + r.1 * 32 < a + n) && decide (a < dramBase h + r.1 * 32 + 32)) ||
    (s.half h).pcFails (a - dramBase h) n

/-- A short number of a unit that a shutter gates (R341). -/
def shutKey : ShutUnit → Nat
  | .group g => g
  | .core p => 256 + p
  | .chan c => 1024 + c

/-- When the door of a unit closed whose writes drain (R342). -/
def Half.closingAt (x : Half) (key : Nat) : Option Nat := (x.mint.closing.find? fun e => e.1 = key).map (·.2)

def Half.closeDoor (x : Half) (key now : Nat) : Half := { x with mint := { x.mint with closing := x.mint.closing ++ [(key, now)] } }

def Half.openDoor (x : Half) (key : Nat) : Half := { x with mint := { x.mint with closing := x.mint.closing.filter fun e => e.1 ≠ key } }

/-- The door of a group of the Strongroom of half `h` is closed: the group is shut, closing or withdrawn (R128, R305, R342). -/
def Half.groupShut (x : Half) (g : Nat) : Bool :=
  (x.closingAt (shutKey (.group g))).isSome || decide (bits (x.fld F.STR_GROUP_STATE_shut) g 1 = 1) || decide (bits (x.fld F.STR_GROUP_STATE_withdrawn) g 1 = 1)

/-! ## Vault descriptor (R471) -/

def vtState (v : Nat) := bits v 0 2
def vtBound (v : Nat) := bits v 2 1
def vtVdi (v : Nat) := bits v 8 8
def vtQuantum (v : Nat) := bits v 16 16
def vtEntries (v : Nat) := bits v 32 16
def vtHarts (v : Nat) := bits v 64 12
def vtBase (v n : Nat) := bits v (128 + 64 * n) 32 * 0x10000
def vtSize (v n : Nat) := bits v (160 + 64 * n) 20 * 0x10000
def vtKind (v n : Nat) := bits v (180 + 64 * n) 2
def vtMeasure (v : Nat) := bits v 640 512

/-- Range k of a vault is in use (R471). -/
def vtUsed (v k : Nat) : Bool := decide (vtKind v k ≠ 0) && decide (vtSize v k ≠ 0)

/-- Range k of a vault touches [a, a + n). -/
def vtTouches (v k a n : Nat) : Bool := vtUsed v k && decide (vtBase v k < a + n) && decide (a < vtBase v k + vtSize v k)

def State.inVault (s : State) (a n : Nat) : Bool :=
  let one (g : Nat) : Bool := (s.half g).vaults.table.any fun v => (List.range 8).any fun k => vtTouches v.2.raw k a n
  one 0 || one 1

/-- Some range touched by [a, a + n) is not one that a request may use, `opens` deciding over half, vault, descriptor and range (R473). -/
def State.vaultBlocks (s : State) (a n : Nat) (opens : Nat → Nat → Nat → Nat → Bool) : Bool :=
  let one (g : Nat) : Bool := (s.half g).vaults.table.any fun t => (List.range 8).any fun k => vtTouches t.2.raw k a n && !opens g t.1 t.2.raw k
  one 0 || one 1

/-- The filters against a request of a master of half `h` (R470, R473): commands and transfers of VDI `v` carry the tag of a sealed vault of their half bound
to it, which opens its data ranges. A tag does not cross the Hatch. -/
def State.vaultDenies (s : State) (h : Nat) (v : Option Nat) (a n : Nat) : Bool :=
  s.vaultBlocks a n fun g _ r k =>
    decide (g = h) && decide (vtState r = 2) && decide (vtBound r = 1) && decide (v = some (vtVdi r)) && decide (vtKind r k = 2)

/-- Bytes of the half's DRAM range that its interleave backs (R324). -/
def Half.backed (x : Half) : Nat := (64 - ((List.range 64).filter fun i => bits x.svc.record.pcRetired i 1 = 1).length) * 0x30000000

/-- A range of Strongroom, or of DRAM that lies in its backed part: what lies above is no memory (R29, R324). -/
def State.reaches (s : State) (a n : Nat) : Bool :=
  dmaReach a n && !(inDram (homeHalf a) a n && decide (dramBase (homeHalf a) + (s.half (homeHalf a)).backed < a + n))

/-- An address with something behind it: of the tables of R25 and R27, and backed where it is DRAM (R28, R324). -/
def State.present (s : State) (a : Nat) : Bool := mapped a && (!dmaReach a 1 || s.reaches a 1)

/-- What the fabric answers to a read of a range by a master of half `h`, `denied` by the vault filters or not (R17, R29, R30, R120, R343, R473). -/
def State.fabric (s : State) (h a n : Nat) (denied : Bool) : Status :=
  if !s.reaches a n then .outOfRange
  else if !s.served h a n then .timeout
  else if denied then .notOwner
  else if inStr (homeHalf a) a n && (s.half (homeHalf a)).groupShut ((a - strBase (homeHalf a)) / 0x1000000) then .bankShut
  else if s.damaged a n then .dataError
  else .ok

/-- The same for a device master, which acts for VDI `v` or for none: OK, or the status of the refusal. -/
def State.access (s : State) (h a n : Nat) (v : Option Nat := none) : Status := s.fabric h a n (s.vaultDenies h v a n)

/-! ## DRAM rows (R322-R324, R307) -/

/-- A row's key, as the remap table names it: pseudo-channel (with its stack), bank, row. -/
def rowKey (pc bank row : Nat) : Nat := pc * 2 ^ 23 + bank * 2 ^ 17 + row

/-- Pseudo-channel, bank, row and word within the row of a 32-byte word of the half's DRAM range (R323). -/
def Half.wordRow (x : Half) (w : Nat) : Nat × Nat :=
  let c := x.channels
  let n := Nat.max c.length 1
  let q := w / 8
  let l := q / n
  (rowKey (c.getD (q % n) 0) (l / 4 % 48) (l / 192), l % 4 * 8 + w % 8)

/-- The 32-byte word of the DRAM range that is word `i` of a row; none where its pseudo-channel is retired. -/
def Half.rowWord (x : Half) (key i : Nat) : Option Nat :=
  let c := x.channels
  match c.idxOf? (key / 2 ^ 23) with
  | none => none
  | some slot => some ((((key % 2 ^ 17) * 192 + key / 2 ^ 17 % 64 * 4 + i / 8) * c.length + slot) * 8 + i % 8)

/-- Lost words that were written in full leave the record's poison masks, for the next generation (R307, R301). -/
def Half.unpoison (x : Half) (words : List Nat) : Half :=
  if words = [] then x else
  let fix (m : List (Nat × List (Nat × Nat))) (w : Nat) : List (Nat × List (Nat × Nat)) :=
    let r := x.wordRow w
    let s := r.1 / 2 ^ 28
    kput (fun _ => []) m s ((kget (fun _ => []) m s).map fun e => if e.1 = r.1 then (e.1, setBits e.2 r.2 1 0) else e)
  let rec1 : SvcRecord := { x.svc.record with remap := words.foldl fix x.svc.record.remap }
  let v : Service := if x.svc.writing.isSome then { x.svc with record := rec1, waiting := true } else { x.svc with record := rec1, writing := some rec1 }
  ({ x with svc := v } : Half).setFld F.SVC_REC_STAT_pending 1

/-- Rows and words wholly written get a fresh code (R118), and lost words wholly written are lost no more (R307). -/
def State.refresh (s : State) (a n : Nat) : State :=
  let h := homeHalf a
  let whole (base w k : Nat) : Bool := decide (a ≤ base + k * w) && decide (base + k * w + w ≤ a + n)
  s.upd h fun x =>
    let gone := (x.mint.dramBad.filter fun r => whole (dramBase h) 32 r.1).map (·.1)
    let y : Half := { x with str := { x.str with badRow := x.str.badRow.filter fun r => !whole (strBase h) 128 r.1 }
                             mint := { x.mint with dramBad := x.mint.dramBad.filter fun r => !whole (dramBase h) 32 r.1 } }
    y.unpoison gone

/-- A detected error of a Strongroom row counted in the physical bank that it was read at; the row stays damaged (R118, R122, R129, R138). -/
def State.strErr (s : State) (h off : Nat) : State :=
  let t := s.moveOn h
  let bank := (t.half h).readBank off
  t.upd h fun x => { (x.inc F.STR_BANK_ERR_err 0 bank) with str := { x.str with
    badRow := kput (fun _ => false) x.str.badRow (off / 128) true,
    bankErr := kupd (fun _ => []) x.str.bankErr bank fun l => x.svc.onNs :: within x.svc.onNs 3600000000000 l } }

/-- A read of a range found its damaged Strongroom rows: each is counted where it was read (R118, R138). -/
def State.strErrs (s : State) (a n : Nat) : State :=
  let g := homeHalf a
  if n = 0 || !inStr g a n then s else
  let o := a - strBase g
  ((List.range ((o + n - 1) / 128 - o / 128 + 1)).map (o / 128 + ·)).foldl (fun s r =>
    if kget (fun _ => false) (s.half g).str.badRow r then s.strErr g (r * 128) else s) s

/-- A request that a closed door refused is counted by the half whose unit it names (R343). -/
def State.late (s : State) (a : Nat) (st : Status) : State := if st = .bankShut then s.upd (homeHalf a) fun x => x.inc F.MNT_SHUT_late else s

/-- A read that the fabric answers with a data error counts the damaged rows that it met (R118, R120, R138), one that a closed door refuses is counted there
(R343). -/
def State.readErrs (s : State) (h a n : Nat) : State :=
  let st := s.access h a n
  if st = .dataError then s.strErrs a n else s.late a st

/-- A device write of a range by a master of half `h`. Where the range is refused it lands nowhere; the bytes of a damaged Strongroom row that is written in
part cannot be merged, and that row is counted and kept (R104, R118, R120, R138), while a part of a lost DRAM word is stored and the word stays lost (R307). -/
def State.store (s : State) (h a : Nat) (l : List Byte) (v : Option Nat := none) : State :=
  match s.access h a l.length v with
  | .ok => s.wrBytes a l
  | .dataError =>
      let s1 := s.refresh a l.length
      if inStr (homeHalf a) a l.length then (s1.wrMask (fun b => s1.damaged b 1) a l).strErrs a l.length else s1.wrBytes a l
  | st => s.late a st

/-- Rows of a half's Strongroom zeroed with fresh codes (R121, R127, R128). -/
def State.clearRows (s : State) (h off n : Nat) : State :=
  (s.zero (strBase h + off) n).upd h fun x => { x with str := { x.str with
    badRow := x.str.badRow.filter fun r => !(decide (off ≤ r.1 * 128) && decide (r.1 * 128 + 128 ≤ off + n)) } }

/-! ## Writes on a VDI's behalf (R417) -/

/-- Pages of 64 KiB in the windows before window `n`. -/
def pagesBefore (cfg n : Nat) : Nat := (List.range n).foldl (fun a k => a + vWinSize cfg k / 0x10000) 0

/-- The page bits of a VDI's windows that a write of [a, a + n) touches. -/
def pageBits (cfg a n : Nat) : List Nat :=
  if n = 0 then [] else
  (List.range 8).flatMap fun w =>
    let b := vWinBase cfg w
    let z := vWinSize cfg w
    let lo := (Nat.max a b - b) / 0x10000
    let hi := (Nat.min (a + n) (b + z) - b + 0xFFFF) / 0x10000
    if z = 0 || a + n ≤ b || b + z ≤ a then [] else (List.range (hi - lo)).map fun k => pagesBefore cfg w + lo + k

/-- One page marked in the active buffer of a VDI's log. -/
def State.markPage (s : State) (v bit : Nat) : State :=
  let x := s.vdi v
  let a := x.bitmaps.getD x.logBuf 0 + bit / 8
  let b := (s.rd a).toNat
  if bits b (bit % 8) 1 = 1 then s
  else (s.wr a (BitVec.ofNat 8 (b + 2 ^ (bit % 8)))).upd x.half fun y => y.inc F.TEL_VDI_STAT_log_pages v

/-- A write of a VDI that memory accepted, logged while logging runs: of the hosting half's ports, to DRAM. -/
def State.logWrite (s : State) (h v a n : Nat) : State :=
  let x := s.vdi v
  if !x.logOn || x.half ≠ h || !(inDram 0 a n || inDram 1 a n) then s else (pageBits x.cfg a n).foldl (fun t b => t.markPage v b) s

/-- A device write on behalf of VDI `v`. -/
def State.storeV (s : State) (h v a : Nat) (l : List Byte) : State :=
  match s.access h a l.length (some v) with
  | .ok | .dataError => (s.store h a l (some v)).logWrite h v a l.length
  | st => s.late a st

/-! ## Handle accesses (R110) -/

/-- The check of an access through a handle entry: BAD_HANDLE or OUT_OF_RANGE, in the order of R110. -/
def handleCheck (entry vdi off n : Nat) (write : Bool) : Status :=
  if hValid entry = 0 || hVdi entry ≠ vdi then .badHandle
  else if (if write then hWrite entry else hRead entry) = 0 then .badHandle
  else if hSize entry < off + n then .outOfRange
  else .ok

/-! ### The operand space (R101, R102) -/

/-- A byte of the operand space. After a Kerbel command its contents are the feeder's, which nothing states: bytes not written since read as free values. -/
def Core.opByte (c : Core) (a : Nat) : Byte :=
  if c.opSeed = 0 || kget (fun _ => false) c.opKnown a then kget memD c.opsp a else BitVec.ofNat 8 (Config.free (c.opSeed + a))

def Core.opRead (c : Core) (a n : Nat) : List Byte := (List.range n).map fun i => c.opByte (a + i)

/-- A write of the operand space: words written whole get a fresh parity bit. -/
def Core.opWrite (c : Core) (a : Nat) (l : List Byte) : Core :=
  { c with opsp := cellsWrite c.opsp a l
           opKnown := if c.opSeed = 0 then c.opKnown else (List.range l.length).foldl (fun m i => kput (fun _ => false) m (a + i) true) c.opKnown
           opBad := c.opBad.filter fun w => !(decide (a ≤ w.1 * 4) && decide (w.1 * 4 + 4 ≤ a + l.length)) }

/-- A word of the operand space in a range has wrong parity. -/
def Core.opParity (c : Core) (a n : Nat) : Bool := c.opBad.any fun w => w.2 && decide (w.1 * 4 < a + n) && decide (a < w.1 * 4 + 4)

/-- The operand space zeroed (R124). -/
def Core.opClear (c : Core) : Core := { c with opsp := [], opKnown := [], opBad := [], opSeed := 0 }

/-- A Till row in a range does not match its code (R118). -/
def Core.tillBad (c : Core) (a n : Nat) : Bool := c.rowBad.any fun r => r.2 && decide (r.1 * 128 < a + n) && decide (a < r.1 * 128 + 128)

/-- Bytes that one code of a memory covers: a row of a Till or a Strongroom (R118), a word of the operand space (R101). -/
def codeUnit (mem : Nat) : Nat := if mem = 3 then 4 else 128

/-- The units that a range touches, and those of them that it does not cover whole: a store reads only the latter (R104). -/
def unitsOf (mem a n : Nat) : List Nat :=
  let u := codeUnit mem
  if n = 0 then [] else (List.range ((a + n - 1) / u - a / u + 1)).map fun k => a / u + k
def partUnits (mem a n : Nat) : List Nat :=
  let u := codeUnit mem
  (unitsOf mem a n).filter fun r => !(decide (a ≤ r * u) && decide (r * u + u ≤ a + n))

/-- A unit fails its check: memory 0 the Till of core `p`, 1 the Strongroom of half `h`, 2 that of its peer, 3 the operand space. -/
def State.unitBad (s : State) (h p mem unit : Nat) : Bool :=
  let c := (s.half h).core p
  match mem with
  | 0 => c.tillBad (unit * 128) 128
  | 3 => c.opParity (unit * 4) 4
  | _ => kget (fun _ => false) (s.half (if mem = 2 then peer h else h)).str.badRow unit

/-- The offset in its memory of the first of the units that fails its check, which is what the access that reads them detects (R118, R119). -/
def State.detects (s : State) (h p mem : Nat) (units : List Nat) : Option Nat :=
  (units.find? fun r => s.unitBad h p mem r).map (· * codeUnit mem)

/-- `n` bytes through a handle of core `p` of half `h`. -/
def State.hRd (s : State) (h p entry off n : Nat) : List Byte :=
  let c := (s.half h).core p
  match hMem entry with
  | 0 => cellsRead c.till (hBase entry + off) n
  | 1 => s.rdBytes (strBase h + hBase entry + off) n
  | 2 => s.rdBytes (strBase (peer h) + hBase entry + off) n
  | _ => c.opRead (hBase entry + off) n

/-- Till rows [lo, lo + n) of bytes become written (R123); rows written whole get a fresh code (R118). -/
def Core.touch (c : Core) (lo n : Nat) : Core :=
  if n = 0 then c else
  { c with rowWritten := (List.range ((lo + n - 1) / 128 - lo / 128 + 1)).foldl (fun m k => kput (fun _ => false) m (lo / 128 + k) true) c.rowWritten
           rowBad := c.rowBad.filter fun r => !(decide (lo ≤ r.1 * 128) && decide (r.1 * 128 + 128 ≤ lo + n)) }

/-- A write of Till bytes. A damaged row written in part cannot be merged and keeps what it holds (R104, R118). -/
def Core.tillWrite (c : Core) (a : Nat) (l : List Byte) : Core :=
  let d := c.touch a l.length
  { d with till := if d.tillBad a l.length then cellsMask (fun b => d.tillBad b 1) c.till a l else cellsWrite c.till a l }

/-- A write of bytes through a handle. -/
def State.hWr (s : State) (h p entry off : Nat) (l : List Byte) : State :=
  match hMem entry with
  | 0 => s.upd h fun x => x.updCore p fun c => c.tillWrite (hBase entry + off) l
  | 1 => s.store h (strBase h + hBase entry + off) l (some (hVdi entry))
  | 2 => s.store h (strBase (peer h) + hBase entry + off) l (some (hVdi entry))
  | _ => s.upd h fun x => x.updCore p fun c => c.opWrite (hBase entry + off) l

/-- The status of an access to the memory behind a handle, beyond the check of the entry itself. -/
def State.hAccess (s : State) (h p entry off n : Nat) : Status :=
  match hMem entry with
  | 0 => if ((s.half h).core p).tillBad (hBase entry + off) n then .dataError else .ok
  | 1 => s.access h (strBase h + hBase entry + off) n (some (hVdi entry))
  | 2 => s.access h (strBase (peer h) + hBase entry + off) n (some (hVdi entry))
  | _ => if ((s.half h).core p).opParity (hBase entry + off) n then .dataError else .ok

/-! ## Detection codes (R118) -/

/-- One bit into the CRC of R118: generator 0x8BB7, most significant bit first. -/
def crcBit (crc : Nat) (b : Bool) : Nat :=
  let top := decide (bits crc 15 1 = 1)
  let sh := crc * 2 % 65536
  if top != b then Nat.xor sh 0x8BB7 else sh

def crcByte (crc b : Nat) : Nat := (List.range 8).foldl (fun c i => crcBit c (decide (bits b (7 - i) 1 = 1))) crc

/-- The detection code of a row: over its offset in its memory, 4 bytes little-endian, and its 128 data bytes. -/
def rowCrc (off : Nat) (data : List Byte) : Nat := (leBytes 4 off ++ data).foldl (fun c b => crcByte c b.toNat) 0

/-- The code that a row holds: its own, or, in a damaged row, one that does not match; a move inverts it (R129). What else a wrong code may be shows nowhere. -/
def rowCode (bad : Bool) (off : Nat) (data : List Byte) : Nat := if bad then 0xFFFF - rowCrc off data else rowCrc off data

/-- The check that every read makes. -/
def rowPasses (bad : Bool) (off : Nat) (data : List Byte) : Bool := decide (rowCode bad off data = rowCrc off data)

end Sys2Proof.Machine
end

