-- ==== Sys2Proof/Machine/Flags.lean ====
section
/-! DEFINITION. Flags: the access codes of register fields (R12), the notices and interrupts of a Teller page (R394), and the safety outputs (R518). -/
namespace Sys2Proof.Machine

/-! ## Access codes (R12) -/

/-- Fields of a register that have bits in word `w`, for registers whose fields lie within words. -/
def inWord (f : Fld) (w : Nat) : Bool := decide (f.lo / 64 ≤ w) && decide (w ≤ (f.lo + f.width - 1) / 64)

/-- The mask of a field in word `w`. -/
def fldMask (f : Fld) (w : Nat) : Nat := ((2 ^ f.width - 1) * 2 ^ f.lo) / 2 ^ (64 * w) % 2 ^ 64

/-- The state of tell-tale slot 31 of a pipe: on while the half is degraded or the pipe shows tell-tales only (R439). -/
def Half.slot31 (x : Half) (u : Nat) : Nat := if x.fld F.TLY_CTL_degraded = 1 || x.fld F.DSP_PIPE_CTL_tt_only u = 1 then 1 else 0

/-- What a read of a register word returns: wo and rsv bits read 0. The generation of a queue shows the half's raises of R312 added; a Teller page of a
VDI shows its half's degraded state and release (R394), SVC_SOAK the hours of the soak (R319), a task's state the
counted DISAGREE verdicts of the last 100 ms (R293). -/
def Half.readWord (x : Half) (r : Reg) (u i w : Nat) : Nat :=
  let v := x.word r u i w
  let vis := (regFields r).foldl (fun a f => if f.acc = .wo then a else a ||| (v &&& fldMask f w)) 0
  if r = .TEL_DB_STATE && w = 0 then
    setBits vis 16 16 (x.fld F.TEL_DB_STATE_generation u i + x.disp.genBase)
  else if r = .SVC_SOAK then setBits vis 32 16 (match x.svc.soakVt with | some v => (x.vt.toNat - v) / 3600000000000 | none => 0)
  else if r = .TEL_STATE && x.fld F.TEL_VDI_STAT_exists u = 1 then setBits vis 3 1 (x.fld F.TLY_CTL_degraded)
  else if r = .TLY_TASK_STATE then setBits vis 3 2 (Nat.min (within x.vt.toNat 100000000 (x.task i).disVts).length 3)
  else if r = .DSP_TT_STATE then setBits vis 62 2 (x.slot31 u)
  else if r = .TEL_ID && x.fld F.TEL_VDI_STAT_exists u = 1 then setBits vis 16 16 (x.fld F.SVC_FW_STAT_release)
  else vis

/-- The half's 802.1AS servo has lost lock (R287, R503). -/
def Half.servoLost (x : Half) : Bool := decide (x.fld F.CLK_VT_STAT_servo = 0) || decide (x.fld F.CLK_VT_STAT_servo = 2)

/-- The effect of a read of the lowest `n` bits of a word: the rc fields that it returned clear in the same access. -/
def Half.clearRcLow (x : Half) (r : Reg) (u i w n : Nat) : Half :=
  x.setWord r u i w ((regFields r).foldl (fun v f => if f.acc = .rc then v - (v &&& fldMask f w &&& (2 ^ n - 1)) else v) (x.word r u i w))

/-- The effect of a read of a whole word. -/
def Half.clearRc (x : Half) (r : Reg) (u i w : Nat) : Half := x.clearRcLow r u i w 64

/-- A write of a register word: rw fields take the value, w1c bits written 1 clear, all others ignore it. -/
def Half.writeWord (x : Half) (r : Reg) (u i w v : Nat) : Half :=
  x.setWord r u i w ((regFields r).foldl (fun a f =>
    let m := fldMask f w
    match f.acc with
    | .rw => a - (a &&& m) + (v &&& m)
    | .w1c => a - (a &&& m &&& v)
    | _ => a) (x.word r u i w))

/-! ## Teller notices and interrupts (R394) -/

/-- The half that hosts a VDI. -/
def State.hostOf (s : State) (v : Nat) : Nat := (s.vdi v).half

/-- A notice bit of a VDI set, with its detail and status; it raises the Teller interrupt where the bit is enabled. -/
def State.notice (s : State) (v bit detail : Nat) (st : Status) : State :=
  if !(s.vdi v).exists_ then s else
  let h := s.hostOf v
  let s1 := s.upd h fun x =>
    ((x.setElem .TEL_NOTICE (x.elem .TEL_NOTICE v ||| 2 ^ bit) v).setFld F.TEL_NOTICE_DETAIL_detail detail v).setFld
      F.TEL_NOTICE_DETAIL_status st.code v
  if bits ((s.half h).fld F.TEL_NOTICE_EN_enable v) bit 1 = 1 then s1.emit (.tellerIrq h v) else s1

/-- A notice whose detail and status the manual does not state: free values (log entry 1). -/
def State.noticeBare (s : State) (v bit : Nat) : State :=
  if !(s.vdi v).exists_ then s else
  let d := s.draw
  let h := s.hostOf v
  let s1 := d.2.upd h fun x =>
    (x.setElem .TEL_NOTICE (x.elem .TEL_NOTICE v ||| 2 ^ bit) v).setElem .TEL_NOTICE_DETAIL (d.1 % 2 ^ 40) v
  if bits ((s.half h).fld F.TEL_NOTICE_EN_enable v) bit 1 = 1 then s1.emit (.tellerIrq h v) else s1

/-- The VDIs that exist and are hosted by a half. -/
def State.hosted (s : State) (h : Nat) : List Nat :=
  (s.vdis.filter fun v => v.2.exists_ && decide (v.2.half = h)).map (·.1)

/-! ## Safety outputs (R518) -/

/-- A half carries critical duty while its window sequencer runs and it is up and not yielding. -/
def Half.carries (x : Half) : Bool :=
  x.clk.rimUp && x.clk.computeUp && decide (x.fld F.WIN_CTL_enable = 1) && !x.tally.yielding && !x.clk.held

/-- Causes that keep SERR_N asserted: a reset, a hold, an unstable crystal, a blanked pipe. -/
def Half.serrCause (x : Half) : Bool :=
  decide (x.clk.resetKind ≠ 0) || x.clk.held || decide (x.fld F.CLK_STAT_xtal_ok = 0) ||
    decide (x.fld F.DSP_PIPE_CTL_blanked 0 = 1) || decide (x.fld F.DSP_PIPE_CTL_blanked 1 = 1)

/-- SERR_N follows its causes; it goes high again only once no cause remains and the Gatehouse has reported ready. -/
def Half.serr (x : Half) : Half :=
  { x with clk := { x.clk with serrN := if x.serrCause then false else if x.clk.ready then true else x.clk.serrN } }

def State.serr (s : State) (h : Nat) : State := s.upd h Half.serr

end Sys2Proof.Machine
end

