-- ==== Sys2Proof/Machine/Coins.lean ====
section
/-! DEFINITION. The Mint's ports (R322-R337): class settings, backed ports, coin buckets, what traffic pays, and the queues of the controllers. -/
namespace Sys2Proof.Machine

/-! ## Class settings (R338, R345) -/

def mcDram (c : Nat) := bits c 0 20
def mcCrit (c : Nat) := bits c 20 4
def mcBorrow (c : Nat) := bits c 24 1
def mcWindow (c : Nat) := bits c 25 7
def mcHatch (c : Nat) := bits c 32 16
def mcDepth (c : Nat) := bits c 48 8

/-- The setting of a class in force. -/
def Half.classSet (x : Half) (k : Nat) : ClassSet := { cfg := x.word .MNT_CLASS_CFG 0 k 0, ports := x.elem .MNT_CLASS_PORTS 0 k }

/-- A port is backed: a logical core that some core serves, or the Sieve and raster ports, while the compute domain runs; a rim port always (R330, R340). -/
def Half.portBacked (x : Half) (p : Nat) : Bool :=
  if p < 128 then x.clk.computeUp && (x.physical p).isSome else if p < 130 then x.clk.computeUp else decide (p < 142)

def Half.backedPorts (x : Half) (ports : Nat) : Nat := ((List.range 142).filter fun p => bits ports p 1 = 1 && x.portBacked p).length

/-- The criticality of a class; class 15 is fixed (R329). -/
def Half.classCrit (x : Half) (k : Nat) : Nat := if k = 15 then 15 else x.fld F.MNT_CLASS_CFG_criticality 0 k

/-! ## Coins (R331) -/

/-- Coins that a bucket lacks, in 1/65,536; an unlisted bucket is full (log entry 12). -/
def Half.missing (x : Half) (p k : Nat) : Nat := kget (fun _ => 0) x.mint.coins (p * 16 + k)

def Half.setMissing (x : Half) (p k v : Nat) : Half := { x with mint := { x.mint with coins := kput (fun _ => 0) x.mint.coins (p * 16 + k) v } }

/-- Refill of a port's bucket per FAB cycle, in 1/65,536 coin, rounded down: one coin a cycle is 9,600 units of 10 MB/s. -/
def Half.refill (x : Half) (k : Nat) : Nat :=
  x.fld F.MNT_CLASS_EFF_dram_eff 0 k * 65536 / (9600 * Nat.max (x.backedPorts (x.elem .MNT_CLASS_PORTS 0 k)) 1)

/-- What a request costs, in 1/65,536 coin. -/
def coinCost (bytes : Nat) : Nat := (bytes + 63) / 64 * 65536

/-- The bucket of a port and class holds a cost: the port is in the class's set, which has a guarantee. -/
def Half.pays (x : Half) (p k cost : Nat) : Bool :=
  decide (x.missing p k + cost ≤ x.fld F.MNT_CLASS_CFG_depth 0 k * 65536) && decide (bits (x.elem .MNT_CLASS_PORTS 0 k) p 1 = 1) &&
    decide (x.fld F.MNT_CLASS_EFF_dram_eff 0 k ≠ 0)

/-- When the bucket of a held request takes in what it lacks of the cost, by `now` (R337). -/
def Half.coinTime (x : Half) (q : Held) (now : Nat) : Nat :=
  let lacks := x.missing q.port q.cls + coinCost q.bytes - x.fld F.MNT_CLASS_CFG_depth 0 q.cls * 65536
  Nat.min now (Nat.max q.since (x.mint.filledVt + (2 * ((lacks + x.refill q.cls - 1) / x.refill q.cls) + 2) / 3))

/-- A function applied to the oldest request of each port and class. -/
def mapOldest (f : Held → Held) (l : List Held) : List Held :=
  (l.foldl (fun (a : List (Nat × Nat) × List Held) q =>
    if a.1.contains (q.port, q.cls) then (a.1, a.2 ++ [q]) else ((q.port, q.cls) :: a.1, a.2 ++ [f q])) ([], [])).2

/-- Every bucket of a port set and of the Hatch bridge refilled for the FAB cycles since the last refill; `now` is the elapsed time. A held request
that has come to hold its coins notes when (R337). -/
def Half.fillBuckets (x : Half) (now : Nat) : Half :=
  let cycles := now * 3 / 2 - x.mint.filledVt * 3 / 2
  let fill (key v : Nat) : Nat :=
    let k := key % 16
    if bits (x.elem .MNT_CLASS_PORTS 0 k) (key / 16) 1 = 1 && x.portBacked (key / 16) then v - x.refill k * cycles else v
  let hatch (k v : Nat) : Nat := v - x.fld F.MNT_CLASS_EFF_hatch_eff 0 k * 65536 / 9600 * cycles
  let y : Half := { x with mint := { x.mint with
    coins := kmapV (fun _ => 0) x.mint.coins fill, hatchCoins := kmapV (fun _ => 0) x.mint.hatchCoins hatch, filledVt := now } }
  { y with mint := { y.mint with held := mapOldest (fun q =>
    if q.coinsAt = 0 && y.pays q.port q.cls (coinCost q.bytes) then { q with coinsAt := x.coinTime q now + 1 } else q) y.mint.held } }

/-- A stack that is throttled issues no surplus (R334). -/
def Half.throttled (x : Half) (stack : Nat) : Bool := x.fld (if stack = 0 then F.MNT_FB_CFG_throttle0 else F.MNT_FB_CFG_throttle1) = 1

/-- Requests of a class may leave unpaid toward a stack. -/
def Half.borrows (x : Half) (k stack : Nat) : Bool := decide (x.fld F.MNT_CLASS_CFG_borrow 0 k = 1) && !x.throttled stack

/-- Traffic of a class toward a stack counted, and as surplus where it was not paid (R345). -/
def Half.countBw (x : Half) (k stack bytes : Nat) (write paid : Bool) : Half :=
  let i := 16 * stack + k
  let y := if write then x.incw F.MNT_BW_WR_bytes 0 i bytes else x.incw F.MNT_BW_RD_bytes 0 i bytes
  if paid then y else y.incw F.MNT_SURPLUS_bytes 0 stack bytes

/-! ## Controllers (R322, R332) -/

/-- A row that the interleave uses. -/
def Half.dramUsed (x : Half) (pc bank row : Nat) : Bool := x.channels.contains pc && decide (bank < 48) && decide (row < 16384)

def Held.stack (r : Held) : Nat := r.pc / 32

/-- The queue of a controller has room: it holds 64 requests. -/
def Half.ctlRoom (x : Half) (pc : Nat) : Bool := decide ((x.mint.ctl.filter fun r => r.pc = pc).length < 64)

/-- The level of a request in its controller's order: class 15, then paid by criticality, then surplus. -/
def CtlReq.level (r : CtlReq) : Nat := if r.cls = 15 then 17 else if r.paid then r.crit + 1 else 0

/-- The requests of a controller at its highest level, oldest first. -/
def ctlTop (l : List CtlReq) (pc : Nat) : List CtlReq :=
  let m := l.filter fun r => r.pc = pc
  let top := m.foldl (fun t r => Nat.max t r.level) 0
  m.filter fun r => r.level = top

/-- The request that a controller serves next: the oldest of its highest level, or with `ahead` the oldest row hit there, which goes ahead of each older
one at most 16 times. -/
def ctlPick (l : List CtlReq) (hit : CtlReq → Bool) (pc : Nat) (ahead : Bool) : Option CtlReq :=
  let c := ctlTop l pc
  let older := c.takeWhile fun r => !hit r
  if ahead && (older.all fun r => decide (r.past < 16)) then
    match c.find? hit with
    | some r => some r
    | none => c.head?
  else c.head?

/-- One request served by a controller: it leaves the queue, its row is open, and the older ones of its level that it passed count it. -/
def Half.ctlTurn (x : Half) (pc : Nat) (ahead : Bool) : Half :=
  let hit (r : CtlReq) : Bool := decide (kget (fun _ => 0) x.mint.openRow (r.pc * 48 + r.bank) = r.row + 1)
  match ctlPick x.mint.ctl hit pc ahead with
  | none => x
  | some r =>
    let older := x.mint.ctl.takeWhile fun q => decide (q ≠ r)
    let passed := older.map fun q => if q.pc = pc && q.level = r.level then { q with past := q.past + 1 } else q
    { x with mint := { x.mint with ctl := passed ++ x.mint.ctl.drop (older.length + 1)
                                   openRow := kput (fun _ => 0) x.mint.openRow (pc * 48 + r.bank) (r.row + 1) } }

/-- The longest queue of a stack: what `Mint.ctl` lists, and the level reported for the traffic that it does not list (R334). -/
def Half.queueLevel (x : Half) (stack : Nat) : Nat :=
  (List.range 32).foldl (fun m i => Nat.max m (x.mint.ctl.filter fun r => r.pc = 32 * stack + i).length) (kget (fun _ => 0) x.mint.levels stack)

/-- A stack is throttled from the level at which a queue of it reaches the threshold until every one is at or below threshold − hyst (R334). -/
def Half.feedback (x : Half) (stack : Nat) : Half :=
  let th := x.fld F.MNT_FB_CFG_threshold
  let f := if stack = 0 then F.MNT_FB_CFG_throttle0 else F.MNT_FB_CFG_throttle1
  if th ≤ x.queueLevel stack then (if x.throttled stack then x else (x.setFld f 1).setFld F.MNT_INT_throttle 1)
  else if x.queueLevel stack ≤ th - x.fld F.MNT_FB_CFG_hyst then (if x.throttled stack then x.setFld f 0 else x)
  else x

/-- The requests that a controller has served, by its choices. -/
def Half.ctlServe (x : Half) (pc : Nat) (turns : List Bool) : Half := (turns.foldl (fun y t => y.ctlTurn pc t) x).feedback (pc / 32)

/-- A request that leaves its port: counted, and at the end of its controller's queue. -/
def Half.leaves (x : Half) (r : Held) (paid : Bool) : Half :=
  let y := x.countBw r.cls r.stack r.bytes r.write paid
  Half.feedback { y with mint := { y.mint with ctl := y.mint.ctl ++
      [{ pc := r.pc, bank := r.bank, row := r.row, cls := r.cls, paid := paid, crit := x.classCrit r.cls, past := 0 }] } } r.stack

/-! ## What device traffic pays (R328, R330, R331, R336) -/

/-- Bytes of a range of the half's DRAM range that lie in each stack (R323). -/
def Half.stackBytes (x : Half) (o n : Nat) : Nat × Nat :=
  let c := x.channels
  if n = 0 then (0, 0) else
  (List.range ((o + n - 1) / 256 - o / 256 + 1)).foldl (fun a i =>
    let q := o / 256 + i
    let k := Nat.min (o + n) (q * 256 + 256) - Nat.max o (q * 256)
    if c.getD (q % Nat.max c.length 1) 0 < 32 then (a.1 + k, a.2) else (a.1, a.2 + k)) (0, 0)

/-- What a transfer's requests of 128 bytes take of a bucket: what the bucket then lacks, and the bytes that were paid. Each request is paid whole; beyond the
bucket they go unpaid where the class may borrow, and else they waited for what the bucket took in (R331). -/
def coinsTaken (depth lacks bytes : Nat) (borrow : Bool) : Nat × Nat :=
  if lacks + coinCost bytes ≤ depth then (lacks + coinCost bytes, bytes)
  else if borrow then
    let n := (depth - lacks) / coinCost 128
    (lacks + n * coinCost 128, Nat.min bytes (n * 128))
  else (Nat.max lacks depth, bytes)

/-- The port is in the class's port set, and the class has a guarantee: its requests can be paid there. -/
def Half.guaranteed (x : Half) (p k : Nat) : Bool :=
  decide (bits (x.elem .MNT_CLASS_PORTS 0 k) p 1 = 1) && decide (x.fld F.MNT_CLASS_EFF_dram_eff 0 k ≠ 0)

/-- Traffic of a port and class toward a stack that has been served: surplus throughout where it cannot be paid (R331). -/
def Half.payStack (x : Half) (p k stack bytes : Nat) (write : Bool) : Half :=
  if bytes = 0 then x else
  if !x.guaranteed p k then x.countBw k stack bytes write false else
  let r := coinsTaken (x.fld F.MNT_CLASS_CFG_depth 0 k * 65536) (x.missing p k) bytes (x.borrows k stack)
  let y := (x.setMissing p k r.1).countBw k stack r.2 write true
  if r.2 = bytes then y else y.countBw k stack (bytes - r.2) write false

/-- The bucket of the Hatch bridge for a class holds the coins for a request, or the class may borrow (R331, R336). -/
def Half.bridgeOk (x : Half) (k bytes : Nat) : Bool :=
  (decide (x.fld F.MNT_CLASS_EFF_hatch_eff 0 k ≠ 0) &&
    decide (kget (fun _ => 0) x.mint.hatchCoins k + coinCost bytes ≤ x.fld F.MNT_CLASS_CFG_depth 0 k * 65536)) ||
  decide (x.fld F.MNT_CLASS_CFG_borrow 0 k = 1)

/-- Coins of the Hatch bridge's bucket of a class taken for traffic toward the other half; a class without a Hatch guarantee has none to take (R336). -/
def Half.payBridge (x : Half) (k bytes : Nat) : Half :=
  if x.fld F.MNT_CLASS_EFF_hatch_eff 0 k = 0 then x else
  let r := coinsTaken (x.fld F.MNT_CLASS_CFG_depth 0 k * 65536) (kget (fun _ => 0) x.mint.hatchCoins k) bytes
    (decide (x.fld F.MNT_CLASS_CFG_borrow 0 k = 1))
  { x with mint := { x.mint with hatchCoins := kput (fun _ => 0) x.mint.hatchCoins k r.1 } }

/-- What a served access of a master of half `h` pays: at its own port for its half's DRAM; at its own bridge for the other half, whose DRAM is paid for at that
half's port 136; its own Strongroom is free. -/
def State.pay (s : State) (h p k : Nat) (write : Bool) (a n : Nat) : State :=
  let g := homeHalf a
  let s1 := if g = h || n = 0 then s else s.upd h fun x => (x.fillBuckets s.now).payBridge k n
  if n = 0 || !inDram g a n then s1 else
  let port := if g = h then p else 136
  s1.upd g fun x =>
    let b := x.stackBytes (a - dramBase g) n
    ((x.fillBuckets s.now).payStack port k 0 b.1 write).payStack port k 1 b.2 write

end Sys2Proof.Machine
end

