-- ==== Sys2Proof/Machine/QueueOps.lean ====
section
/-! DEFINITION. Shared operations on queues, contexts and completion rings (R87, R88, R229-R246). -/
namespace Sys2Proof.Machine

/-- Half and index within the half of a package queue ID (R26). -/
def qHalf (q : Nat) : Nat := q / 8192
def qIdx (q : Nat) : Nat := q % 8192

/-- The generation of a queue: its register plus the half's raises of R312, modulo 65,536. -/
def Half.qGen (x : Half) (u : Nat) : Nat := (x.fld F.TEL_DB_STATE_generation u + x.disp.genBase) % 2 ^ 16

/-- A queue's generation raised by 1, modulo 65,536. -/
def Half.qGenUp (x : Half) (u : Nat) : Half := x.incw F.TEL_DB_STATE_generation u

/-- A context record with the two profiles told apart by bit 19 of the ID (R241). -/
def isL (c : Nat) : Bool := decide (bits c 19 1 = 1)

/-- Bytes of a context's record (R241). -/
def ctxBytes (c : Nat) : Nat := if isL c then 128 else 32

/-- The place of a context's record in the S or the L table of the package (R241). The Latch holder's bases are constants of Config; each table lies in a part of
its own of one half's DRAM, which every interleave backs (log entry 34). -/
def recordAt (c : Nat) : Nat :=
  let k := if isL c then 1 else 0
  let b := Config.ctxTable k
  dramBase (b % 2) + k * 0x10000000 + b / 2 % 0xC000000 / 128 * 128 + ctxBytes c * bits c 0 19

/-- The place of the device's copy of a context's handle set: in the half's own DRAM; where nothing states (log entry 152). -/
def ctxAt (h c : Nat) : Nat := dramBase h + 0x20000000 + Config.ctxCopy c % 0x40000 * 1024

/-- The read of a context's record and of the device's copy of its handle set (R527). -/
def State.ctxRead (s : State) (h c : Nat) : Status :=
  let st := s.access h (recordAt c) (ctxBytes c)
  if st = .ok then s.access h (ctxAt h c) 1024 else st

/-- A used context moves to the front of the cache (R244). -/
def useCtx (l : List Nat) (c : Nat) : List Nat := c :: l.filter (· ≠ c)

/-- A record read from its table on its first use (R244), unless a cache of the package holds it or a change of it that is not written back yet. -/
def State.fetchRecord (s : State) (c : Nat) : State :=
  let held (x : Half) : Bool := x.disp.cached.contains c || kget (fun _ => false) x.disp.dirty c
  if held s.h0 || held s.h1 then s else s.setCtx c { s.ctx c with raw := s.rdN (recordAt c) (ctxBytes c) }

/-- A changed record of a half's cache written to its table (R244). -/
def State.writeBack (s : State) (h c : Nat) : State :=
  let st := s.access h (recordAt c) (ctxBytes c)
  if !kget (fun _ => false) (s.half h).disp.dirty c || !(st = .ok || st = .dataError) then s
  else (s.store h (recordAt c) (leBytes (ctxBytes c) (s.ctx c).raw)).upd h fun x =>
    { x with disp := { x.disp with dirty := kput (fun _ => false) x.disp.dirty c false } }

/-- A context in a half's cache, the most recently used one: past 16,384 records the least recently used one without a command in flight leaves, written back,
and with it its effective pool size (R244, R429). -/
def State.cacheCtx (s : State) (h c : Nat) : State :=
  let busy (c : Nat) : Bool := (s.half h).disp.queues.any (fun k => qCtx k.2.record = c && k.2.flying ≠ []) ||
    (s.half h).cores.any fun k => match k.2.run with | some r => r.ctx = c | none => false
  let l := useCtx (s.half h).disp.cached c
  match if 16384 < l.length then l.reverse.find? (fun o => !busy o && o ≠ c) else none with
  | none => (s.fetchRecord c).upd h fun x => { x with disp := { x.disp with cached := l } }
  | some o => ((s.fetchRecord c).writeBack h o).upd h fun x => { x with disp := { x.disp with
      cached := l.filter (· ≠ o), effPool := kput (fun _ => 0) x.disp.effPool o 0 } }

/-- A record has changed since it was written to its table. -/
def State.touchCtx (s : State) (h c : Nat) : State :=
  s.upd h fun x => { x with disp := { x.disp with dirty := kput (fun _ => false) x.disp.dirty c true } }

/-- Records that are no longer valid, zeroed in their table. -/
def State.wipeRecords (s : State) (l : List Nat) : State := l.foldl (fun s c => s.zero (recordAt c) (ctxBytes c)) s

/-- One field of a context record added to, wrapping in its width. -/
def Ctx.add (x : Ctx) (lo n v : Nat) : Ctx := { x with raw := setBits x.raw lo n (bits x.raw lo n + v) }

/-- a < b of the unsigned 64-bit share quantities: the signed difference is negative (R246). -/
def shareLt (a b : Nat) : Bool := decide ((a + 2 ^ 64 - b % 2 ^ 64) % 2 ^ 64 ≥ 2 ^ 63)

def Half.charge (x : Half) (c : Nat) : Nat := kget (fun _ => 0) x.disp.charge c
def Half.vclock (x : Half) (p : Nat) : Nat := kget (fun _ => 0) x.disp.vclock p
def Half.isActive (x : Half) (c : Nat) : Bool := kget (fun _ => false) x.disp.active c

/-- on_ready of R246. -/
def State.shareReady (s : State) (h c : Nat) : State :=
  let x := s.half h
  if x.isActive c then s else
  let r := (s.ctx c).raw
  s.upd h fun x => { x with disp := { x.disp with
    charge := kput (fun _ => 0) x.disp.charge c ((x.vclock (cPart r) + cLead r) % 2 ^ 64)
    active := kput (fun _ => false) x.disp.active c true } }

/-- The least charge of the active contexts of a partition. -/
def State.leastCharge (s : State) (h p : Nat) : Option Nat :=
  (s.half h).disp.active.foldl (fun best a =>
    if a.2 && decide (cPart (s.ctx a.1).raw = p) then
      let v := (s.half h).charge a.1
      match best with
      | none => some v
      | some b => if shareLt v b then some v else some b
    else best) none

/-- on_completion of R246. -/
def State.shareCharge (s : State) (h c ns : Nat) : State :=
  let r := (s.ctx c).raw
  let w := Nat.max (cWeight r) 1
  let s1 := s.upd h fun x => { x with disp := { x.disp with
    charge := kput (fun _ => 0) x.disp.charge c ((x.charge c + (ns * 65536 + w - 1) / w) % 2 ^ 64) } }
  match s1.leastCharge h (cPart r) with
  | some v => s1.upd h fun x => { x with disp := { x.disp with vclock := kput (fun _ => 0) x.disp.vclock (cPart r) v } }
  | none => s1

/-- on_idle of R246: the lead is clamped to 0 .. 2^40. -/
def State.shareIdle (s : State) (h c : Nat) : State :=
  let x := s.half h
  if !x.isActive c then s else
  let r := (s.ctx c).raw
  let d := (x.charge c + 2 ^ 64 - x.vclock (cPart r)) % 2 ^ 64
  let lead := if d ≥ 2 ^ 63 then 0 else Nat.min d (2 ^ 40)
  (s.setCtx c { s.ctx c with raw := setBits (s.ctx c).raw 128 64 lead }).upd h fun x =>
    { x with disp := { x.disp with active := kput (fun _ => false) x.disp.active c false, dirty := kput (fun _ => false) x.disp.dirty c true } }

/-- A condition that is evaluated again: what a fallback has satisfied stays so (R206, R235, R253). -/
def CondRt.afresh (c : CondRt) : CondRt := { c with met := c.met && c.viaFallback }

/-! ## Completion records (R87) -/

/-- What a completion record carries. -/
structure Cpl where
  tag : Nat
  status : Status
  final : Bool
  retried : Bool
  detail : Nat
  sat : Nat
  inv : Nat
  tiles : Nat
  hazards : Nat
  ns : Nat
  core : Nat                  -- logical core, half in bit 7
deriving DecidableEq, Repr

/-- A record without a run, of half `h`. No core ran the command, so nothing states a core index: the model's is 0 (log entry 150). -/
def Cpl.plain (h tag : Nat) (st : Status) (final : Bool) (detail : Nat) : Cpl :=
  { tag := tag, status := st, final := final, retried := false, detail := detail, sat := 0, inv := 0, tiles := 0, hazards := 0, ns := 0, core := 128 * (h % 2) }

/-- The 32 bytes of a completion record. -/
def Cpl.bytes (c : Cpl) (queue gen vt : Nat) : List Byte :=
  leBytes 4 c.tag ++ leBytes 1 c.status.code ++ leBytes 1 ((if c.final then 1 else 0) + (if c.retried then 2 else 0)) ++
  leBytes 2 c.detail ++ leBytes 2 (Nat.min c.sat 0xFFFF) ++ leBytes 2 (Nat.min c.inv 0xFFFF) ++ leBytes 2 c.tiles ++
  leBytes 2 (Nat.min c.hazards 0xFFFF) ++ leBytes 4 c.ns ++ leBytes 2 (queue % 2 ^ 14) ++ leBytes 2 (c.core % 256) ++ leBytes 2 gen ++ leBytes 2 0 ++
  leBytes 4 vt

/-- A cause and overrun count as the detail of R88. -/
def causeDetail (cause overruns : Nat) : Nat := cause * 2 ^ 12 + overruns % 16

/-- The two register counts of a queue after its lists changed (R230). -/
def Half.syncQueue (x : Half) (u : Nat) : Half :=
  let q := x.queue u
  let n := q.flying.length + (q.again.filter fun r => !q.flying.contains r.index).length
  let st := x.fld F.TEL_DB_STATE_state u
  let st' := if st = 0 || st = 4 then st else if n > 0 then 2 else if q.wait.isSome || q.cond.isSome then 3 else 1
  (x.setFld F.TEL_DB_INFLIGHT_inflight n u).setFld F.TEL_DB_STATE_state st' u

/-- The accounting of a completion record (R243, R244, R246). Window work is accounted but not charged. -/
def State.account (s : State) (h c : Nat) (r : Cpl) (charged : Bool) : State :=
  let cause := r.detail / 2 ^ 12
  let caused := r.status = .preempted || r.status = .timeout
  let x0 := s.ctx c
  let x1 := if r.final then x0.add 192 32 1 else x0
  let x2 := if !isL c then x1 else
    let a := x1.add 256 64 r.ns
    let b := if r.status = .preempted && (cause = 1 || cause = 3) then a.add 416 32 1 else a
    let d := if caused && cause = 2 then b.add 448 32 1 else b
    if r.status = .preempted && cause = 3 then d.add 480 32 1 else d
  let s1 := (s.setCtx c x2).upd h fun x => { x with disp := { x.disp with
    dirty := kput (fun _ => false) x.disp.dirty c true
    ran := x.disp.ran ++ [{ ctx := c, tag := r.tag, ns := r.ns, vt := x.vt.toNat }] } }
  if charged then s1.shareCharge h c r.ns else s1

/-- A completion record of a queue, unless it is a late arrival (R411): written at cq_tail, its reservation consumed, accounted, its interrupt
raised where enabled (R230, R232). -/
def State.postQ (s : State) (q gen : Nat) (r : Cpl) : State :=
  let h := qHalf q
  let u := qIdx q
  let x := s.half h
  let k := x.queue u
  if gen ≠ x.qGen u || x.fld F.TEL_DB_STATE_state u = 0 then
    s.upd h fun x => x.inc F.TEL_VDI_STAT_stale_gen (qVdi k.record)
  else
    let tail := x.fld F.TEL_DB_CQ_TAIL_cq_tail u
    let s1 := s.storeV h (qVdi k.record) (qCq k.record + tail % qCqSize k.record * 32) (r.bytes q gen (s.vtOf h))
    let s2 := s1.upd h fun x => (x.incw F.TEL_DB_CQ_TAIL_cq_tail u).updQueue u fun k => { k with reserved := k.reserved - 1 }
    let s3 := s2.account h (qCtx k.record) r true
    if x.fld F.TEL_DB_STATE_irq_en u = 1 then s3.emit (.queueIrq h q) else s3

/-! ## Watches kept for the other half and for peers (R237, R239, R402) -/

/-- A frame counted on a data port of the half (R401); which port it came or went by is free where nothing says it (log entry 1). -/
def State.countRx (s : State) (h : Nat) : State :=
  let d := s.draw
  d.2.upd h fun x => x.incw F.TEL_DP_CNT_rx_frames (d.1 % 2)

def State.countTx (s : State) (h : Nat) (port : Option Nat) : State :=
  match port with
  | some p => s.upd h fun x => x.incw F.TEL_DP_CNT_tx_frames (p % 2)
  | none =>
    let d := s.draw
    d.2.upd h fun x => x.incw F.TEL_DP_CNT_tx_frames (d.1 % 2)

/-- The word that a watch names has its value. -/
def State.reached (s : State) (h : Nat) (w : Watch) : Bool := s.access h w.addr 8 = .ok && decide (w.value ≤ s.rdN w.addr 8)

/-- The reply to a watch, to the other half or to the peer. -/
def State.watchAnswer (s : State) (h : Nat) (w : Watch) : State :=
  match w.peer with
  | none => s.hatchSend h 0x04 [w.q, w.gen, w.idx]
  | some i => (s.countTx h none).emit (.peerReply h i w.q w.gen w.idx)

/-- A watch request: answered where the word has its value, else kept, one per requester, queue and index. -/
def State.addWatch (s : State) (h : Nat) (w : Watch) : State :=
  if s.reached h w then s.watchAnswer h w
  else s.upd h fun x => { x with disp := { x.disp with
    watches := w :: x.disp.watches.filter fun o => !(decide (o.peer = w.peer) && decide (o.q = w.q) && decide (o.idx = w.idx)) } }

/-- The kept watches whose words have their values now are answered and dropped. -/
def State.answerWatches (s : State) (h : Nat) : State :=
  let due := (s.half h).disp.watches.filter fun w => s.reached h w
  due.foldl (fun t w => t.watchAnswer h w) (s.upd h fun x => { x with disp := { x.disp with watches := x.disp.watches.filter fun w => !s.reached h w } })

/-- The fence of a descriptor signalled (R81), and the watches on it answered: nothing where it has none or it lies outside the VDI's windows (R406). -/
def State.fence (s : State) (h d v : Nat) : State :=
  if dFenced d = 1 && dFenceAddr d % 8 = 0 && bits (dFenceAddr d) 47 1 = 0 && s.inWindows v (dFenceAddr d) 8
  then (s.storeV h v (dFenceAddr d) (leBytes 8 (dFenceVal d))).answerWatches (homeHalf (dFenceAddr d)) else s

/-- The overrun and pre-emption counts of a command. -/
def Queue.counts (k : Queue) (i : Nat) : Requeued := (k.again.find? fun r => r.index = i).getD { index := i, overruns := 0, preempts := 0 }

/-- A command of a queue that is final: its record, then its fence; it leaves the queue's lists (R87, R81). -/
def State.finishQ (s : State) (q gen i d : Nat) (r : Cpl) : State :=
  let h := qHalf q
  let u := qIdx q
  let live := gen = (s.half h).qGen u && (s.half h).fld F.TEL_DB_STATE_state u ≠ 0
  let v := qVdi ((s.half h).queue u).record
  let s1 := s.postQ q gen r
  if live then
    (if dOpcode d = 0x06 then s1 else s1.fence h d v).upd h fun x =>
      (x.updQueue u fun k => { k with flying := k.flying.erase i, again := k.again.filter fun a => a.index ≠ i }).syncQueue u
  else s1

/-- A command of a queue that leaves its core and runs again (R80): its record is not final, it keeps its counts. -/
def State.requeueQ (s : State) (q gen i : Nat) (r : Cpl) (past pre : Nat) : State :=
  let h := qHalf q
  let u := qIdx q
  let live := gen = (s.half h).qGen u && (s.half h).fld F.TEL_DB_STATE_state u ≠ 0
  let s1 := s.postQ q gen r
  if live then
    s1.upd h fun x => (x.updQueue u fun k =>
      let c := k.counts i
      { k with flying := k.flying.erase i, eligVt := none
               again := { c with overruns := c.overruns + past, preempts := c.preempts + pre } :: k.again.filter fun a => a.index ≠ i }).syncQueue u
  else s1

/-- A window entry's completion record (R226): at index n mod ring of the entry's ring, and the entry's last outcome. -/
def State.postE (s : State) (h n entry k : Nat) (r : Cpl) : State :=
  let s1 := if wRing entry = 0 then s else
    s.storeV h (cVdi (s.ctx (wCtx entry)).raw) (wRing entry + k % 2 ^ wRingLog entry * 32) (r.bytes 0x3FFF (k % 2 ^ 16) (s.vtOf h))
  (s1.account h (wCtx entry) r false).upd h fun x => x.setInst n { x.inst n with open_ := false, cond := none, last := some (r.status, k) }

/-- A completion by origin: a queue command or a window instance. -/
def State.finish (s : State) (h : Nat) (w : Work) (gen i rec d : Nat) (r : Cpl) : State :=
  match w with
  | .queue q => s.finishQ q gen i d r
  | .entry n => (s.postE h n rec i r).fence h d (cVdi (s.ctx (wCtx rec)).raw)

/-! ## WAITs (R236-R240) -/

/-- The watch that the other half keeps for a queue is dropped. -/
def State.dropWatch (s : State) (q : Nat) : State :=
  s.upd (peer (qHalf q)) fun x => { x with disp := { x.disp with watches := x.disp.watches.filter fun w => !(decide (w.peer = none) && decide (w.q = q)) } }

/-- The rewind of a remote WAIT (R240): the watch is dropped, the generation rises, the record carries PREEMPTED, cause 0x3, not final, and the WAIT
is issued afresh later. A local WAIT is not rewound. -/
def State.rewind (s : State) (q : Nat) : State :=
  let h := qHalf q
  let u := qIdx q
  match ((s.half h).queue u).wait with
  | none => s
  | some w =>
    if !w.remote then s else
    let s1 := (s.dropWatch q).upd h fun x => x.qGenUp u
    (s1.postQ q ((s1.half h).qGen u) (.plain h w.tag .preempted false (causeDetail 3 0))).upd h fun x =>
      (x.updQueue u fun k => { k with wait := none, eligVt := none }).syncQueue u

/-- Queues that have been given a record, of a half: (package queue ID). -/
def State.queuesOf (s : State) (h : Nat) : List Nat := (s.half h).disp.queues.map fun q => h * 8192 + q.1

/-- Every remote WAIT of the half's queues that satisfies `p` rewound. -/
def State.rewindAll (s : State) (h : Nat) (p : Nat → Bool) : State :=
  (s.queuesOf h).foldl (fun t q => if p q then t.rewind q else t) s

end Sys2Proof.Machine
end

