-- ==== Sys2Proof/Machine/Models.lean ====
section
/-! DEFINITION. The model cache (R130-R133): which commands need an entry, its in-use count, eviction and loading. -/
namespace Sys2Proof.Machine

/-- The lowest run of `n` granules in [lo, hi) that all satisfy `p`. -/
def findRun (lo hi n : Nat) (p : Nat → Bool) : Option Nat :=
  if hi < lo + n then none else
  ((List.range (hi - lo - n + 1)).map (lo + ·)).find? fun i => (List.range n).all fun k => p (i + k)

/-! ## Use of an entry (R130, R131) -/

/-- A command of a context needs a model-cache entry: the entry is its VDI's and a handle of the context is bound to it (R130; log entry 9). -/
def ModelEntry.usedBy (m : ModelEntry) (ctx vdi : Nat) : Bool := m.vdi = vdi && m.bound.any fun b => b / 64 = ctx

/-- Commands of a half that need an entry and were dispatched to a core and are not final: those on cores, and those requeued. -/
def Half.modelUse (x : Half) (m : ModelEntry) : Nat :=
  (x.cores.filter fun c => match c.2.run with | some r => m.usedBy r.ctx r.vdi | none => false).length +
  (x.disp.queues.foldl (fun n q => if m.usedBy (qCtx q.2.record) (qVdi q.2.record) then
    n + (q.2.again.filter fun a => !q.2.flying.contains a.index).length else n) 0)

/-- The in-use counts follow the commands. -/
def State.syncModels (s : State) : State :=
  let f (x : Half) : Half := { x with str := { x.str with models := x.str.models.map fun m => { m with inUse := s.h0.modelUse m + s.h1.modelUse m } } }
  { s with h0 := f s.h0, h1 := f s.h1 }

/-- The last dispatch of the entries that a command needs is now (R131). -/
def State.touchModels (s : State) (h ctx vdi : Nat) : State :=
  let f (x : Half) : Half := { x with str := { x.str with models := x.str.models.map fun m => if m.usedBy ctx vdi then { m with lastVt := s.vtOf h } else m } }
  { s with h0 := f s.h0, h1 := f s.h1 }

/-- The entries that a command needs, each with its half. -/
def State.needs (s : State) (ctx vdi : Nat) : List (Nat × ModelEntry) :=
  ((s.h0.str.models.filter fun m => m.usedBy ctx vdi).map fun m => (0, m)) ++ ((s.h1.str.models.filter fun m => m.usedBy ctx vdi).map fun m => (1, m))

/-! ## Handles over entries (R130; log entry 9) -/

/-- A granule of a half lies in an entry of VDI `v`. -/
def Half.modelGran (x : Half) (v g : Nat) : Bool := x.str.models.any fun m => m.vdi = v && decide (m.state ≠ 0) && decide (m.gran ≤ g) && decide (g < m.gran + m.len)

/-- A Strongroom handle names part of an entry that is in the Strongroom. -/
def ModelEntry.holds (m : ModelEntry) (x : Nat) : Bool :=
  decide (m.state ≠ 0) && decide (hValid x = 1) && decide (hVdi x = m.vdi) && decide (m.gran * 0x10000 ≤ hBase x) &&
    decide (hBase x + hSize x ≤ (m.gran + m.len) * 0x10000) && decide (hSize x ≠ 0)

/-- A context's handles bound to the entries that they name: memory 1 in the half's own cache, memory 2 in the other half's. -/
def State.bindModels (s : State) (h ctx : Nat) (set : List (Nat × Nat)) : State :=
  let f (mem : Nat) (x : Half) : Half := { x with str := { x.str with models := x.str.models.map fun m =>
    { m with bound := (m.bound.filter fun b => b / 64 ≠ ctx) ++ ((set.filter fun e => hMem e.2 = mem && m.holds e.2).map fun e => ctx * 64 + e.1) } } }
  (s.upd h (f 1)).upd (peer h) (f 2)

/-- The handles bound to an entry follow it to its new place; cores load their handle sets afresh. -/
def State.moveBound (s : State) (m : ModelEntry) (g : Nat) : State :=
  let s1 := m.bound.foldl (fun (s : State) b =>
    let x := s.ctx (b / 64)
    s.setCtx (b / 64) { x with handles := x.handles.map fun e =>
      if e.1 = b % 64 then (e.1, setBits e.2 32 27 (hBase e.2 + g * 0x10000 - m.gran * 0x10000)) else e }) s
  let f (x : Half) : Half := (x.cores.map (·.1)).foldl (fun x p => x.updCore p fun k =>
    match k.loadedCtx with
    | some c => if k.run.isNone && m.bound.any (fun b => b / 64 = c) then { k with loadedCtx := none } else k
    | none => k) x
  { s1 with h0 := f s1.h0, h1 := f s1.h1 }

/-! ## Places and loads (R131, R132) -/

def granBytes (n : Nat) : Nat := (n + 0xFFFF) / 0x10000

def Half.model (x : Half) (key vdi : Nat) : Option ModelEntry := x.str.models.find? fun m => m.key = key && m.vdi = vdi && m.state ≠ 0

/-- Granules of the cache region that no entry holds. -/
def modelFree (l : List ModelEntry) (g : Nat) : Bool := !(l.any fun m => m.state ≠ 0 && decide (m.gran ≤ g) && decide (g < m.gran + m.len))

/-- The RESIDENT entry with no use and the oldest last dispatch (R131). -/
def evictee (l : List ModelEntry) : Option ModelEntry :=
  l.foldl (fun b m => if m.state = 2 && m.inUse = 0 then
    match b with
    | some k => if m.lastVt < k.lastVt then some m else b
    | none => some m
  else b) none

/-- Entries that are no longer in the Strongroom; what they were is remembered. -/
def evict (p : ModelEntry → Bool) (l : List ModelEntry) : List ModelEntry := l.map fun m => if p m then { m with state := 0 } else m

/-- A place for `n` granules in the cache region, evicting as needed: the place and the entries then. -/
def Half.modelPlace (x : Half) (n : Nat) (fuel : Nat) (l : List ModelEntry) : Option (Nat × List ModelEntry) :=
  match findRun x.str.cacheFirst (x.str.cacheFirst + x.str.cacheLen) n (modelFree l) with
  | some i => some (i, l)
  | none => match fuel with
    | 0 => none
    | k + 1 => match evictee l with
      | some m => x.modelPlace n k (evict (fun e => e = m) l)
      | none => none

/-- An image copied to a place of the cache: the entry is LOADING. An entry that was there before is the same entry. -/
def State.putModel (s0 : State) (h key vdi mark src size i : Nat) (img : List Byte) (l : List ModelEntry) : State :=
  let s := s0.pay h 141 mark false src size           -- device engines, in the class that the load is charged to (R132, R328, R330)
  let s1 := (s.clearRows h (i * 0x10000) (granBytes size * 0x10000)).wrBytes (strBase h + i * 0x10000) img
  let old := l.find? fun m => m.key = key && m.vdi = vdi
  let e : ModelEntry := { key := key, vdi := vdi, state := 1, gran := i, len := granBytes size, src := src, size := size, inUse := 0, lastVt := s.vtOf h
                          bound := match old with | some m => m.bound | none => [] }
  let s2 := match old with | some m => s1.moveBound m i | none => s1
  s2.upd h fun x => { x with str := { x.str with models := e :: l.filter fun m => !(decide (m.key = key) && decide (m.vdi = vdi)) } }

/-- An ABSENT entry loaded from its DRAM copy because a command of a context needs it, in the context's class (R132): NO_SPACE where no place can be made; a copy that cannot be read stops the transfer
and is recorded (R407). Where the entry has no DRAM copy the steward reads the image from UFS, whose bytes are free values (log entry 151). -/
def State.fetchModel (s : State) (h ctx : Nat) (m : ModelEntry) : State × Status :=
  let mark := cMark (s.ctx ctx).raw
  match (s.half h).modelPlace m.len (s.half h).str.models.length (s.half h).str.models with
  | none => (s, .noSpace)
  | some (i, l) =>
    if !inDram 0 m.src m.size && !inDram 1 m.src m.size then
      (({ s with freeCtr := s.freeCtr + m.size } : State).putModel h m.key m.vdi mark m.src m.size i
        ((List.range m.size).map fun k => BitVec.ofNat 8 (Config.free (s.freeCtr + k))) l, .ok)
    else match s.access h m.src m.size with
    | .ok => (s.putModel h m.key m.vdi mark m.src m.size i (s.rdBytes m.src m.size) l, .ok)
    | .dataError => (s.incident h 0x0E m.vdi .dataError, .dataError)
    | st => (s, st)

end Sys2Proof.Machine
end

