-- ==== Sys2Proof/Machine/VaultOps.lean ====
section
/-! DEFINITION. Vaults as shared operations (R469-R490): entry and exit of a hart, the end of a vault, block owners, and the DOOR functions that the
Gatehouse's controller executes. -/
namespace Sys2Proof.Machine

/-! ## Strongroom granules and block owners -/

/-- STR_FREE.free_granules and STR_ZERO_STAT.pending from the allocation (R528). -/
def Half.syncFree (x : Half) : Half :=
  let wd := x.fld F.STR_GROUP_STATE_withdrawn
  let gone := (List.range 8).foldl (fun n g => n + bits wd g 1) 0
  let used := (x.str.gran.filter fun e => decide (bits wd (e.1 / 256) 1 = 0)).length
  (x.setFld F.STR_FREE_free_granules (2048 - 256 * gone - used)).setFld F.STR_ZERO_STAT_pending x.str.zeroQ.length

/-- A vault has a Strongroom range (R472). -/
def hasStrRange (v : Nat) : Bool := (List.range 8).any fun n => vtUsed v n && decide (0x2000000000 ≤ vtBase v n)

/-- Secure owner of a gateable block code of R480. -/
def Half.secureOwned (x : Half) (code : Nat) : Bool := decide (kget (fun _ => 0) x.vaults.claims code ≠ 0)

/-- CLK_GATE_OWNER shows the blocks that vaults have claimed (R490). -/
def Half.syncOwners (x : Half) : Half :=
  let mask (cls n : Nat) : Nat := (List.range n).foldl (fun a i => if x.secureOwned (cls * 256 + i) then a + 2 ^ i else a) 0
  (((x.setFld F.CLK_GATE_OWNER_receivers (mask 1 8)).setFld F.CLK_GATE_OWNER_pipes (mask 2 2)).setFld F.CLK_GATE_OWNER_can (mask 3 8)).setFld
    F.CLK_GATE_OWNER_dports (mask 4 2)

/-- A request to gate a block with a secure owner, counted and recorded (R481). -/
def State.gateRefuse (s : State) (h code : Nat) : State :=
  (s.upd h fun x => (x.inc F.CLK_GATE_REFUSED_count).setFld F.CLK_GATE_REFUSED_last_block code).incident h 0x12 code .notOwner

/-! ## Lookups -/

/-- A vault of a half; an unlisted one is FREE. -/
def Half.vault (x : Half) (n : Nat) : Vault := kget (fun _ => Vault.free) x.vaults.table n

def Half.setVault (x : Half) (n : Nat) (v : Vault) : Half :=
  { x with vaults := { x.vaults with table := kput (fun _ => Vault.free) x.vaults.table n v } }

/-- The state of a vault given a value; SVC_VAULT_STAT shows the sealed ones (R471, R490). -/
def Half.setVtState (x : Half) (n st : Nat) : Half :=
  (x.setVault n { x.vault n with raw := setBits (x.vault n).raw 0 2 st }).setFld F.SVC_VAULT_STAT_sealed
    (setBits (x.fld F.SVC_VAULT_STAT_sealed) n 1 (if st = 2 then 1 else 0))

/-- Ranges of a kind, in range order. -/
def vtRanges (raw kind : Nat) : List (Nat × Nat) :=
  (List.range 8).filterMap fun k => if vtUsed raw k && vtKind raw k = kind then some (vtBase raw k, vtSize raw k) else none

/-- The entry point of a door: the offset of its table entry from the first code range, where the index and the entry are valid (R475). -/
def State.door (s : State) (raw e : Nat) : Option Nat :=
  match vtRanges raw 3, vtRanges raw 1 with
  | d :: _, c :: _ =>
    let w := s.rdN (d.1 + 8 * e) 8
    if e < vtEntries raw && bits w 32 1 = 1 then some (c.1 + bits w 0 32) else none
  | _, _ => none

/-! ## Entry and exit (R475, R476, R479) -/

/-- A hart enters a vault at an entry point; the stay's quantum begins. -/
def State.enterVault (s : State) (h hart n pc : Nat) (a0 : Option Nat) (save : HartSave) (byIrq : Bool) : State :=
  (s.upd h fun x =>
    let v := x.vault n
    (x.setVault n { v with raw := setBits v.raw (64 + hart) 1 1 }).setHart hart
      { x.hart hart with vault := some n, save := save, sinceVt := x.vt.toNat, inFault := false, byIrq := byIrq }).emit (.hartEnter h hart pc a0)

/-- A pending interrupt of a hart in the normal world: an identity of the normal world is taken there, one of a vault enters that vault at the interrupt
door, and where the vault has no valid interrupt door, or an earlier one has taken the hart into a vault, it stays pending. -/
def State.takeIrq (s : State) (h hart : Nat) (save : HartSave) (i : Nat) : State :=
  let x := s.half h
  let k := x.hart hart
  let door (i : Nat) : Option (Option (Nat × Nat)) :=
    match kget (fun _ => 0) x.vaults.idents i with
    | 0 => some none
    | n + 1 =>
      let raw := (x.vault n).raw
      if vtState raw = 2 then (s.door raw 1).map fun pc => some (n, pc) else none
  let s1 := s.upd h fun x => x.setHart hart { k with irqs := k.irqs.erase i }
  if k.vault.isSome then s else
  match door i with
  | none => s
  | some none => s1.emit (.appIrq h hart i)
  | some (some p) => s1.enterVault h hart p.1 p.2 (some i) save true

/-- The pending interrupts of a hart that is in the normal world, one after another, until one takes it into a vault (R479). -/
def State.deliverIrq (s : State) (h hart : Nat) (save : HartSave) : State :=
  ((s.half h).hart hart).irqs.foldl (fun t i => t.takeIrq h hart save i) s

/-- An interrupt that reaches a hart (R479): a normal identity is taken in the normal world, a vault's enters its vault from there, and either stays pending
while the hart is in the secure world. -/
def State.interrupt (s : State) (h hart ident : Nat) (save : HartSave) : State :=
  let x := s.half h
  let free := (x.hart hart).vault.isNone
  if free && kget (fun _ => 0) x.vaults.idents ident = 0 then s.emit (.appIrq h hart ident)
  else
    let s1 := s.upd h fun x => x.setHart hart { x.hart hart with irqs := (x.hart hart).irqs ++ [ident] }
    if free then s1.deliverIrq h hart save else s1

/-- What a hart saves where no command says it: its registers are no state of the device, so the values are free. -/
def freeSave (n : Nat) : HartSave :=
  { pc := bits n 0 64, regs := (List.range 16).map fun i => bits n (64 * i + 64) 64, trans := bits n 1088 64
    priv := [Priv.u, Priv.s, Priv.hs, Priv.m].getD (n / 2 ^ 1152 % 4) .u }

/-- A hart leaves its vault: the saved state returns, rd of a DOOR.CALL receives the status, and a pending secure interrupt follows (R476, R479). -/
def State.exitVault (s : State) (h hart : Nat) (st : Status) (a0 a1 : Nat) : State :=
  let k := (s.half h).hart hart
  match k.vault with
  | none => s
  | some n =>
    let s1 := s.upd h fun x =>
      let v := x.vault n
      let y := (if x.vaults.table.any (fun t => t.1 = n) then x.setVault n { v with raw := setBits v.raw (64 + hart) 1 0 } else x).setHart hart
        { Hart.normal with irqs := k.irqs }
      match st with
      | .timeout => y.inc F.SVC_VAULT_CNT_timeouts
      | .internal => y.inc F.SVC_VAULT_CNT_faults
      | _ => y
    (s1.emit (.hartExit h hart k.save (if k.byIrq then none else some st) a0 a1)).deliverIrq h hart k.save

/-- An exception of a hart in a vault: the fault door runs where it is valid and does not run already, otherwise the stay ends with INTERNAL (R476). -/
def State.vaultFault (s : State) (h hart cause : Nat) : State :=
  let k := (s.half h).hart hart
  match k.vault with
  | none => s
  | some n =>
    let raw := ((s.half h).vault n).raw
    match (if k.inFault || vtState raw ≠ 2 then none else s.door raw 0) with
    | some pc => (s.upd h fun x => x.setHart hart { k with inFault := true }).emit (.hartEnter h hart pc (some cause))
    | none => s.exitVault h hart .internal 0 0

/-- An illegal instruction of a hart: an exception of the normal world, or of the vault that the hart is in (cause 2 of RISC-V). -/
def State.illegalAt (s : State) (h hart : Nat) : State :=
  match ((s.half h).hart hart).vault with
  | none => s.emit (.illegal h hart)
  | some _ => s.vaultFault h hart 2

/-- An access fault of a hart, of the normal world or of the vault that the hart is in, with its cause. -/
def State.hartFault (s : State) (h hart cause : Nat) : State :=
  match ((s.half h).hart hart).vault with
  | none => s.emit (.appFault h hart cause)
  | some _ => s.vaultFault h hart cause

/-- A refused access of a hart: a fault of an instruction, a load or a store, as a free value chooses. -/
def State.accessFault (s : State) (h hart : Nat) : State := let d := s.draw; d.2.hartFault h hart ([1, 5, 7].getD (d.1 % 3) 5)

/-- A load or a store of a hart to an address without memory: a load or a store access fault (R28). -/
def State.dataFault (s : State) (h hart : Nat) : State := let d := s.draw; d.2.hartFault h hart ([5, 7].getD (d.1 % 2) 5)

/-- The harts that are inside a vault which ends under them leave it with INTERNAL: their next fetch would be refused (R473, R476). -/
def State.expel (s : State) (h n : Nat) : State :=
  (List.range 12).foldl (fun t i => if ((t.half h).hart i).vault = some n then t.exitVault h i .internal 0 0 else t) s

/-! ## The end of a vault (R478, R489) -/

/-- A vault's claimed blocks and identities return to the normal world. -/
def Half.dropClaims (x : Half) (n : Nat) : Half :=
  ({ x with vaults := { x.vaults with claims := x.vaults.claims.filter fun c => c.2 ≠ n + 1
                                      idents := x.vaults.idents.filter fun c => c.2 ≠ n + 1 } } : Half).syncOwners

/-- A vault becomes FREE: its ranges read zero, and granules of a reset VDI that were held back for it are freed. -/
def State.endVault (s : State) (h n : Nat) : State :=
  let raw := ((s.half h).vault n).raw
  let s0 := (s.upd h fun x => (x.setVtState n 3).dropClaims n).expel h n
  let s1 := (List.range 8).foldl (fun t k => if vtUsed raw k then t.zero (vtBase raw k) (vtSize raw k) else t) s0
  s1.upd h fun x =>
    let y : Half := { x with vaults := { x.vaults with table := kdel x.vaults.table n } }
    let mine (g : Nat) : Bool := (List.range 8).any fun k => vtTouches raw k (strBase h + g * 0x10000) 1
    let back := x.str.heldBack.filter mine
    if back = [] then y else ({ y with str := { y.str with
      heldBack := y.str.heldBack.filter fun g => !mine g
      gran := back.foldl (fun m g => kput (fun _ => 0) m g 1) y.str.gran
      zeroQ := y.str.zeroQ ++ back } } : Half).syncFree

/-- The destruction of a vault starts (R478). -/
def State.startDestroy (s : State) (h n : Nat) : State :=
  (s.upd h fun x => (x.setVtState n 3).dropClaims n).expel h n

/-! ## DOOR.CREATE (R472, R477) -/

/-- The lifecycle state in force (R484): 0 manufacturing, 1 vehicle-bound, 2 decommissioned. -/
def Half.lifecycle (x : Half) : Nat := x.fld F.SVC_LIFECYCLE_state

/-- A range lies in the DRAM of half `h` outside the firmware reserve, or in its Strongroom (R472, R451). -/
def rangePlaced (h base size : Nat) : Bool := (inDram h base size && decide (dramBase h + 0x10000000 ≤ base)) || inStr h base size

/-- The checks of DOOR.CREATE on a descriptor for vault `n`; memory that is not backed is no place for a range (R324, R472, R477). -/
def State.vaultCheck (s : State) (h n raw : Nat) : Option Status :=
  let x := s.half h
  let rs := (List.range 8).filterMap fun k => if vtUsed raw k then some (vtBase raw k, vtSize raw k) else none
  let strs := rs.filter fun r => inStr h r.1 r.2
  if x.lifecycle = 2 || 64 ≤ n || vtState (x.vault n).raw ≠ 0 then some .badArg
  else if vtQuantum raw = 0 || 10000 < vtQuantum raw || vtEntries raw = 0 || 512 < vtEntries raw then some .badArg
  else if (vtRanges raw 1).length = 0 || (vtRanges raw 3).map (·.2) ≠ [0x10000] then some .badArg
  else if rs.any fun r => !(rangePlaced h r.1 r.2 && s.reaches r.1 r.2) then some .outOfRange
  else if rs.any (fun r => s.inVault r.1 r.2) || (strs ≠ [] && vtBound raw = 0) then some .badArg
  else if strs.any fun r => (List.range (r.2 / 0x10000)).any fun k => x.gran ((r.1 - strBase h) / 0x10000 + k) ≠ 2 + vtVdi raw then some .notOwner
  else none

/-- DOOR.CREATE by the controller: the synchronous checks, then CREATING. -/
def State.doorCreate (s : State) (h hart addr : Nat) : State :=
  let refuse (st : Status) : State := s.emit (.doorStatus h hart st)
  match s.access h addr 3528 with
  | .ok =>
    if addr % 64 ≠ 0 then refuse .badArg else
    let head := s.rdBytes addr 0x90
    let n := (head.getD 6 0).toNat
    let raw := setBits (setBits (setBits (leNat head) 0 2 1) 48 16 0) 64 12 0
    match s.vaultCheck h n raw with
    | some st => refuse st
    | none =>
      (((s.wrN (addr + 0xDC0) 1 0xFF).upd h fun x =>
        x.setVault n { raw := raw, head := head, sigs := s.rdBytes (addr + 0x90) 3373, block := addr }).emit (.doorStatus h hart .ok))
  | .dataError => (s.readErrs h addr 3528).emit (.doorStatus h hart .dataError)
  | _ => refuse .outOfRange

/-- The key pair an owner's record names (log entry 2): its two public keys as one number, beyond the numbers of the device's own keys. -/
def ownerKeys (rec_ : List Byte) : Nat := 16 + leNat ((rec_.drop 0x50).take 1984)

/-- The measurement that a vault's ranges have (R471). -/
def State.measure (s : State) (raw : Nat) : Nat :=
  Config.sha512 ((vtRanges raw 1 ++ vtRanges raw 3).flatMap fun r => s.rdBytes r.1 r.2)

/-- The end of a creation (R477): sealed with its data zeroed, or free with everything zeroed. -/
def State.sealVault (s : State) (h n : Nat) : State :=
  let v := (s.half h).vault n
  if Config.sigOk (ownerKeys (s.half h).vaults.lifecycle) (leBytes 64 (Config.sha512 v.head)) v.sigs && s.measure v.raw = vtMeasure v.raw then
    (((vtRanges v.raw 2).foldl (fun t r => t.zero r.1 r.2) s).upd h fun x => x.setVtState n 2).wrN (v.block + 0xDC0) 1 0
  else (s.endVault h n).wrN (v.block + 0xDC0) 1 Status.authFail.code

/-! ## DOOR.DESTROY, DOOR.CLAIM, DOOR.KEY (R478-R480, R483) -/

/-- DOOR.DESTROY by the controller: a vault with harts inside is destroyed by itself only, and the caller then exits as by DOOR.RET. -/
def State.doorDestroy (s : State) (h hart n : Nat) : State :=
  let own := ((s.half h).hart hart).vault = some n
  let raw := ((s.half h).vault n).raw
  if own then
    let d := s.draw
    ((d.2.exitVault h hart .ok n (d.1 % 2 ^ 64)).startDestroy h n)
  else if 64 ≤ n || vtState raw = 0 || vtHarts raw ≠ 0 then s.emit (.doorStatus h hart .badArg)
  else (s.startDestroy h n).emit (.doorStatus h hart .ok)

/-- A block code that exists (R480), and whether vaults may claim it. -/
def blockCode (code : Nat) : Bool × Bool :=
  let i := code % 256
  match code / 256 with
  | 1 => (decide (i < 8), true)
  | 2 => (decide (i < 2), true)
  | 3 => (decide (i < 8), true)
  | 4 => (decide (i < 2), true)
  | 5 => (decide (i < 136), false)
  | 6 => (decide (i < 8), false)
  | 7 => (decide (i < 32), false)
  | _ => (false, false)

/-- The privileges of a vault: bits 3 submit, 4 gate, 5 interrupts (R471). -/
def vtPriv (raw b : Nat) : Bool := decide (bits raw b 1 = 1)

/-- The claim or release that vault `n` asks for: the status, and the half after it (R479, R480). -/
def Half.claim (x : Half) (n code : Nat) (take : Bool) : Status × Half :=
  let raw := (x.vault n).raw
  if bits code 31 1 = 1 then
    let i := code % 2 ^ 31
    let owner := kget (fun _ => 0) x.vaults.idents i
    if !vtPriv raw 5 then (.notOwner, x)
    else if (take && owner ≠ 0 && owner ≠ n + 1) || (!take && owner ≠ n + 1) then (.notOwner, x)
    else (.ok, { x with vaults := { x.vaults with idents := kput (fun _ => 0) x.vaults.idents i (if take then n + 1 else 0) } })
  else
    let owner := kget (fun _ => 0) x.vaults.claims code
    if 0x10000 ≤ code || !(blockCode code).1 then (.badArg, x)
    else if !(blockCode code).2 || !vtPriv raw 4 then (.notOwner, x)
    else if (take && owner ≠ 0 && owner ≠ n + 1) || (!take && owner ≠ n + 1) then (.notOwner, x)
    else (.ok, ({ x with vaults := { x.vaults with claims := kput (fun _ => 0) x.vaults.claims code (if take then n + 1 else 0) } } : Half).syncOwners)

def State.doorClaim (s : State) (h hart code : Nat) (take : Bool) : State :=
  match ((s.half h).hart hart).vault with
  | none => s
  | some n =>
    let r := (s.half h).claim n code take
    (s.setHalf h r.2).emit (.doorStatus h hart r.1)

/-- DOOR.KEY by the controller: the sealing key into the vault's data range (R483). -/
def State.doorKey (s : State) (h hart addr label : Nat) : State :=
  let x := s.half h
  match (x.hart hart).vault with
  | none => s
  | some n =>
    let raw := (x.vault n).raw
    if !((vtRanges raw 2).any fun r => decide (r.1 ≤ addr) && decide (addr + 64 ≤ r.1 + r.2)) then s.emit (.doorStatus h hart .outOfRange)
    else (s.wrN addr 64 (Config.sealKey h (vtMeasure raw) x.lifecycle (if x.vaults.keyDebug then 1 else 0) (label % 2 ^ 32))).emit (.doorStatus h hart .ok)

/-! ## DOOR.SUBMIT (R484, R485) -/

def recordBytes : Nat := 5517

/-- What a read of a hart is answered: its own vault's code and data ranges are open to it (R473). -/
def State.hartAccess (s : State) (h hart a n : Nat) : Status :=
  let v := ((s.half h).hart hart).vault
  s.fabric h a n (s.vaultBlocks a n fun g i r k => decide (g = h) && decide (v = some i) && decide (vtState r = 2) &&
    (decide (vtKind r k = 1) || decide (vtKind r k = 2)))

/-- The conditions of R485 on a record, as one half checks them (R2). -/
def State.recordOk (s : State) (h : Nat) (l : List Byte) : Bool :=
  let x := s.half h
  let byte (i : Nat) : Nat := (l.getD i 0).toNat
  let word (i n : Nat) : Nat := leNat ((l.drop i).take n)
  let signer := word 0x0C 4
  let keys := if signer = 0 then 2 else ownerKeys x.vaults.lifecycle
  let hash := leBytes 64 (Config.sha512 (l.take 0x860))
  let step := match x.lifecycle, byte 4, signer with
    | 0, 0, 0 => true
    | 0, 1, 0 => !s.es
    | 0, 2, 0 => true
    | 1, 1, 1 => true
    | 1, 2, 1 => true
    | _, _, _ => false
  step && Config.sigOk keys hash (l.drop 0x860) && decide (word 0x10 32 = Config.deviceId 0) && decide (word 0x30 32 = Config.deviceId 1) &&
    decide (byte 5 = if s.es then 1 else 0) && decide (x.vaults.rpmb < word 8 4)

/-- The record written to a half's logical unit 3, its RPMB counter raised. -/
def Half.takeRecord (x : Half) (l : List Byte) : Half :=
  let c := leNat ((l.drop 8).take 4)
  (({ x with vaults := { x.vaults with accepted := l, rpmb := c } } : Half).setFld F.SVC_LIFECYCLE_pending 1).setFld F.SVC_LIFECYCLE_counter c

/-- DOOR.SUBMIT by the steward of the submitting half, then by the other one across the Hatch; rd receives the first failing status. -/
def State.doorSubmit (s : State) (h hart addr : Nat) : State :=
  let g := peer h
  let refuse (t : State) (k : Nat) : State := (t.incident k 0x11 0 .authFail).emit (.doorStatus h hart .authFail)
  match s.hartAccess h hart addr recordBytes with
  | .ok =>
    let l := s.rdBytes addr recordBytes
    if !s.recordOk h l then refuse s h else
    let s1 := s.upd h fun x => x.takeRecord l
    if !(s1.half h).linkUp || !(s1.half g).clk.rimUp then s1.emit (.doorStatus h hart .timeout)
    else if !s1.recordOk g l then refuse s1 g
    else (s1.upd g fun x => x.takeRecord l).emit (.doorStatus h hart .ok)
  | st => s.emit (.doorStatus h hart st)

/-! ## The debug access port (R488) -/

/-- A verified unlock destroys every vault of the half and opens the port until P; a failed one is counted and changes the challenge. -/
def State.debugUnlock (s : State) (h record : Nat) : State :=
  let x := s.half h
  if Config.unlockOk h x.vaults.challenge record then
    ((x.vaults.table.map (·.1)).foldl (fun t n => t.startDestroy h n) s).upd h fun x => x.setFld F.SVC_LIFECYCLE_debug 1
  else
    let d := s.draw
    d.2.upd h fun x => ({ x with vaults := { x.vaults with challenge := d.1 % 2 ^ 256 } } : Half).inc F.SVC_VAULT_CNT_unlock_fail

/-! ## What waits for the controller (R489) -/

def State.doDoor (s : State) (h : Nat) (op : DoorOp) : State :=
  match op with
  | .create hart addr => s.doorCreate h hart addr
  | .destroy hart n => s.doorDestroy h hart n
  | .submit hart addr => s.doorSubmit h hart addr
  | .claim hart code => s.doorClaim h hart code true
  | .release hart code => s.doorClaim h hart code false
  | .key hart addr label => s.doorKey h hart addr label
  | .unlock record => s.debugUnlock h record

/-- A function done at once, or once the Gatehouse's controller runs again (R489). -/
def State.viaController (s : State) (h : Nat) (op : DoorOp) : State :=
  if (s.half h).tally.ghReset then s.upd h fun x => { x with vaults := { x.vaults with waiting := x.vaults.waiting ++ [op] } }
  else s.doDoor h op

/-- What waited, in order, after a Gatehouse reset. -/
def State.runWaiting (s : State) (h : Nat) : State :=
  (s.half h).vaults.waiting.foldl (fun t op => t.doDoor h op) (s.upd h fun x => { x with vaults := { x.vaults with waiting := [] } })

end Sys2Proof.Machine
end

