-- ==== Sys2Proof/Machine/ResetOps.lean ====
section
/-! DEFINITION. The reset kinds H, M, K and P as shared operations (R311-R313, R504-R507), the configuration store (R454). Kinds are numbered as CLK_RESET_CAUSE.kind: 1 H, 2 M, 3 K, 4 P, 5 exit from SLEEP. -/
namespace Sys2Proof.Machine

/-! ## Registers at a reset (R14, R507) -/

/-- Whether a reset kind returns a field: its column, but error counters (rc) return at K and power-on alone (R14, R507). -/
def Fld.restored (f : Fld) (kind : Nat) : Bool :=
  match kind with
  | 1 => f.byH && f.acc ≠ .rc
  | 2 => f.byM && f.acc ≠ .rc
  | 3 => f.byK || f.acc = .rc
  | 5 => f.byP && f.acc ≠ .rc && f.reg ≠ .CLK_WAKE_STAT
  | _ => f.byP

/-- A register word with the restored fields at their reset values. -/
def restoreWord (key : Nat) (v : BitVec 64) (restored : Fld → Bool) : BitVec 64 :=
  match allRegs[key / 2 ^ 32]? with
  | none => v
  | some r =>
    let w := key % 16
    let i := key / 16 % 4096
    BitVec.ofNat 64 ((regFields r).foldl (fun a f =>
      if restored f then a - (a &&& fldMask f w) + ((f.resetAt i * 2 ^ f.lo) / 2 ^ (64 * w) % 2 ^ 64) else a) v.toNat)

def Half.restore (x : Half) (restored : Fld → Bool) : Half :=
  { x with regs := kmapV regDefault x.regs fun k v => restoreWord k v restored }

/-! ## Teller pages of a VDI (R394, R423) -/

/-- The registers of a VDI's page that its configuration gives. -/
def Half.showVdi (x : Half) (v : Nat) (d : Vdi) : Half :=
  let y := ((((x.setFld F.TEL_ID_vdi v v).setFld F.TEL_ID_profile d.profile v).setFld F.TEL_ID_half d.half v).setFld F.TEL_GEN_generation d.gen v).setFld
    F.TEL_VDI_STAT_exists 1 v
  (List.range 8).foldl (fun z n => (z.setWord .TEL_DMA_WIN v n 0 (vWinBase d.cfg n)).setWord .TEL_DMA_WIN v n 1 (vWinSize d.cfg n % 2 ^ 48)) y

/-- The page of a VDI that is gone. -/
def Half.hideVdi (x : Half) (v : Nat) : Half :=
  let tel : List Reg := [.TEL_ID, .TEL_GEN, .TEL_STATE, .TEL_NOTICE, .TEL_NOTICE_EN, .TEL_NOTICE_DETAIL, .TEL_MBX_REQ, .TEL_MBX_STAT, .TEL_MBX_REPLY, .TEL_DMA_WIN]
  let y : Half := { x with regs := x.regs.filter fun e => !(decide (e.1 / 2 ^ 16 % 2 ^ 16 = v) && tel.any fun r => regKey r v 0 0 / 2 ^ 32 = e.1 / 2 ^ 32) }
  ((((y.setFld F.TEL_VDI_STAT_exists 0 v).setFld F.TEL_VDI_STAT_log_on 0 v).setFld F.TEL_VDI_STAT_log_buf 0 v).setFld F.TEL_VDI_STAT_log_pages 0 v).setFld
    F.TEL_VDI_STAT_mig_step 0 v

/-! ## The tell-tale image (R439) -/

/-- Bytes of the tell-tale image in the atlas. -/
def atlasBytes : Nat := 0x40800

/-- The tell-tale image loaded from UFS at a rim start, or refused with AUTH_FAIL: the plane stays empty. -/
def State.loadAtlas (s : State) (h : Nat) : State :=
  let x := s.half h
  if x.dsp.loaded then s
  else if Config.sigOk 0 (cellsRead x.dsp.image 0 atlasBytes) [] then s.upd h fun x => { x with dsp := { x.dsp with atlas := x.dsp.image, loaded := true } }
  else s.incident h 0x0F 0 .authFail

/-! ## The configuration store (R454) -/

/-- Registers that come back from the configuration store at M, K and P (R507). -/
def confRegs : List Reg :=
  [.WIN_CTL, .WIN_FRAME, .WIN_PHASE, .WIN_PART_CFG, .WIN_PART_CORES, .TLY_CTL, .TLY_TASK_BASE, .TLY_STAGING, .TLY_AUDIT_CFG, .MNT_CLASS_CFG,
   .MNT_CLASS_PORTS, .MNT_FB_CFG, .INT_RX_CFG, .INT_STREAM_CFG, .INT_STREAM_GEOM, .INT_STREAM_CONV, .INT_STREAM_BASE, .INT_STALE_CFG,
   .INT_STRIPE_CFG, .INT_MARK_BASE, .GTW_CTL, .GTW_OVF_BASE, .TEL_DP_CTL, .DSP_PIPE_CTL, .DSP_PIPE_TIMING0, .DSP_PIPE_TIMING1, .DSP_PIPE_LINK,
   .DSP_PLANE_POS, .DSP_PLANE_FMT, .DSP_PLANE_RING, .DSP_TT_STATE]

/-- Items of the store by number, for a failed CRC: 0 windows and partitions, 1 tasks and Tally, 2 Mint, 3 streams, 4 routes, 5 display, 6 ports,
7 VDIs, 8 models and regions. -/
def confItem (r : Reg) : Nat :=
  match r with
  | .WIN_CTL | .WIN_FRAME | .WIN_PHASE | .WIN_PART_CFG | .WIN_PART_CORES => 0
  | .TLY_CTL | .TLY_TASK_BASE | .TLY_STAGING | .TLY_AUDIT_CFG => 1
  | .MNT_CLASS_CFG | .MNT_CLASS_PORTS | .MNT_FB_CFG => 2
  | .INT_RX_CFG | .INT_STREAM_CFG | .INT_STREAM_GEOM | .INT_STREAM_CONV | .INT_STREAM_BASE | .INT_STALE_CFG | .INT_STRIPE_CFG | .INT_MARK_BASE => 3
  | .GTW_CTL | .GTW_OVF_BASE => 4
  | .TEL_DP_CTL => 6
  | _ => 5

def keyReg (key : Nat) : Option Reg := allRegs[key / 2 ^ 32]?

def isConfKey (key : Nat) : Bool := match keyReg key with | some r => confRegs.contains r | none => false

/-- The Latch holder's configuration of half `h` as it stands, into the store: every committed or activated item, the banks only at an activation. -/
def State.saveConf (s : State) (h : Nat) (banks : Bool) : State :=
  s.upd h fun x =>
    let c := x.fw.conf
    { x with fw := { x.fw with conf := { c with
      regs := x.regs.filter fun e => isConfKey e.1,
      bank0 := if banks then x.win.bank0 else c.bank0,
      bank1 := if banks then x.win.bank1 else c.bank1,
      hw := x.gtw.hw, ovf := x.gtw.ovf, fanout := x.gtw.fanout, slots := x.gtw.slots, queueOwner := x.gtw.queueOwner,
      udp := x.ports.udp, qbv := x.ports.qbvAdmin, peers := x.ports.peers, peerFence := x.disp.peerFence,
      vdis := s.vdis.filter fun v => v.2.exists_ && decide (v.2.half = h),
      pinned := x.str.models.filter fun m => m.state = 3,
      regions := s.mem.filter fun e => inStr h e.1 1 && decide (x.gran ((e.1 - strBase h) / 0x10000) = 258),
      cacheFirst := x.str.cacheFirst, cacheLen := x.str.cacheLen,
      devGran := (x.str.gran.filter fun e => e.2 = 258).map (·.1) } } }

/-- The runs of consecutive granules among some: first granule and length. -/
def granRuns (l : List Nat) : List (Nat × Nat) :=
  ((isort (fun a b => decide (a ≤ b)) l).foldl (fun m g => match m with
    | (a, n) :: r => if a + n = g then (a, n + 1) :: r else (g, 1) :: m
    | [] => [(g, 1)]) []).reverse

/-- New places for runs among free granules: first granule, length, new first granule; a run without one is left out (R305). -/
def placeRuns (free : Nat → Bool) (runs : List (Nat × Nat)) : List (Nat × Nat × Nat) :=
  runs.foldl (fun m r =>
    match findRun 0 2048 r.2 fun g => free g && !m.any fun q => decide (q.2.2 ≤ g) && decide (g < q.2.2 + q.2.1) with
    | some i => m ++ [(r.1, r.2, i)]
    | none => m) []

/-- Where a granule, or an address of the Strongroom of half `h`, lies after its region has moved. -/
def relGran (rel : List (Nat × Nat × Nat)) (g : Nat) : Nat :=
  match rel.find? fun r => decide (r.1 ≤ g) && decide (g < r.1 + r.2.1) with
  | some r => r.2.2 + (g - r.1)
  | none => g
def relAddr (rel : List (Nat × Nat × Nat)) (h a : Nat) : Nat :=
  if inStr h a 1 then strBase h + relGran rel ((a - strBase h) / 0x10000) * 0x10000 + (a - strBase h) % 0x10000 else a

/-- The steward's bases follow the device-owned regions that have moved: streams, marks, staging and model cache (R305). -/
def Half.rebase (x : Half) (h : Nat) (rel : List (Nat × Nat × Nat)) : Half :=
  if rel = [] then x else
  let y := (List.range 32).foldl (fun y k => (y.setFld F.INT_STREAM_BASE_base (relAddr rel h (y.fld F.INT_STREAM_BASE_base k)) k).setFld
    F.INT_MARK_BASE_base (relAddr rel h (y.fld F.INT_MARK_BASE_base k)) k) x
  let z := y.setFld F.TLY_STAGING_base (relAddr rel h (strBase h + y.fld F.TLY_STAGING_base) - strBase h)
  { z with str := { z.str with cacheFirst := relGran rel z.str.cacheFirst } }

/-- Device-owned regions and pinned models reloaded after the compute domain returns (R311, R507); those of a withdrawn group come back in free granules (R305). -/
def State.reloadRegions (s : State) (h : Nat) (bad : List Nat) : State :=
  if bad.contains 8 then s else
  let x := s.half h
  let c := x.fw.conf
  let gone (g : Nat) : Bool := bits (x.fld F.STR_GROUP_STATE_withdrawn) (g / 256) 1 = 1
  let rel := placeRuns (fun g => !gone g && !c.devGran.contains g && decide (x.gran g = 0)) (granRuns (c.devGran.filter gone))
  let placed (g : Nat) : Bool := !gone (relGran rel g)
  let s1 := (c.regions.filter fun e => placed ((e.1 - strBase h) / 0x10000)).foldl (fun t e => t.wr (relAddr rel h e.1) e.2) s
  s1.upd h fun x => (({ x with str := { x.str with
    gran := (c.devGran.filter placed).foldl (fun m g => kput (fun _ => 0) m (relGran rel g) 258) x.str.gran,
    models := ((c.pinned.filter fun m => placed m.gran).map fun m => { m with gran := relGran rel m.gran }) ++ x.str.models,
    cacheFirst := c.cacheFirst, cacheLen := c.cacheLen } } : Half).rebase h rel).syncFree

/-- A stored word over the word in force: its settings (rw fields, the active bank and the standby mark) come back, its status bits do not. -/
def confMerge (key : Nat) (stored cur : BitVec 64) : BitVec 64 :=
  match keyReg key with
  | none => cur
  | some r =>
    let w := key % 16
    BitVec.ofNat 64 ((regFields r).foldl (fun a f =>
      if f.acc = .rw || f = F.WIN_CTL_active_bank || f = F.TLY_CTL_standby
      then a - (a &&& fldMask f w) + (stored.toNat &&& fldMask f w) else a) cur.toNat)

/-- The stored register words of the items that satisfy `p`, written over the register file. -/
def confWords (stored regs : List (Nat × BitVec 64)) (p : Nat → Bool) : List (Nat × BitVec 64) :=
  stored.foldl (fun m e => if (match keyReg e.1 with | some r => p (confItem r) | none => false) then
    kput regDefault m e.1 (confMerge e.1 e.2 (kget regDefault m e.1)) else m) regs

/-- Window banks, frame, phase and partitions reloaded (R311). -/
def Half.reloadWindows (x : Half) (bad : List Nat) : Half :=
  if bad.contains 0 then x else
  let c := x.fw.conf
  let y : Half := { x with win := { x.win with bank0 := c.bank0, bank1 := c.bank1, pendVt := none, written := false } }
  { y with regs := confWords c.regs y.regs fun k => decide (k = 0) }

/-- Streams that a configuration enables are LIVE (R209). -/
def Half.startStreams (x : Half) : Half :=
  (List.range 32).foldl (fun y k => if y.fld F.INT_STREAM_CFG_enable k = 1 && y.fld F.INT_STREAM_STAT_state k = 0 then y.setFld F.INT_STREAM_STAT_state 1 k else y) x

/-- Every item of the store applied whose CRC holds (R454). -/
def State.applyConf (s : State) (h : Nat) (bad : List Nat) : State :=
  let c := (s.half h).fw.conf
  let s1 := s.upd h fun x =>
    let y := x.reloadWindows bad
    let z : Half := { y with regs := confWords c.regs y.regs fun k => !bad.contains k }
    let g := if bad.contains 4 then z.gtw else { z.gtw with hw := c.hw, ovf := c.ovf, fanout := c.fanout, slots := c.slots, queueOwner := c.queueOwner }
    let p := if bad.contains 6 then z.ports else { z.ports with udp := c.udp, qbvAdmin := c.qbv, qbvOper := c.qbv, peers := c.peers }
    let d := if bad.contains 6 then z.disp else { z.disp with peerFence := c.peerFence }
    ({ z with gtw := g, ports := p, disp := d } : Half).startStreams
  let s2 := if bad.contains 1 then s1 else
    c.tasks.foldl (fun t k => t.wrN (bits (c.regs.foldl (fun a e => if keyReg e.1 = some .TLY_TASK_BASE then e.2.toNat else a) 0) 0 48 + k.1 * 256) 256 k.2) s1
  let s3 := if bad.contains 7 then s2 else
    c.vdis.foldl (fun t v => (t.setVdi v.1 { v.2 with logOn := false, migStep := 0, qStates := [] }).upd h fun x => x.showVdi v.1 v.2) s2
  s3.reloadRegions h bad

/-! ## Entering a reset -/

/-- The buckets of the compute domain's ports 0-129, empty: what they lack is their depth (R344). -/
def Half.emptied (x : Half) : List (Nat × Nat) :=
  let d := (List.range 16).map fun k => x.fld F.MNT_CLASS_CFG_depth 0 k * 65536
  ((List.range 130).flatMap fun p => (d.zip (List.range 16)).map fun e => (p * 16 + e.2, e.1)).filter fun e => e.2 ≠ 0

/-- The half without its compute domain's state (R311, R312, R18, R507). -/
def Half.dropCompute (x : Half) : Half :=
  { x with
    cores := kmapV (fun _ => Core.idle) x.cores fun _ c =>
      { Core.idle with errVts := c.errVts, auditVt := c.auditVt, auditAsap := c.auditAsap, overdue := c.overdue, located := c.located }
    str := { Strongroom.reset with bankErr := x.str.bankErr }
    sieve := none
    streams := kmapV (fun _ => Stream.off) x.streams fun _ t => { t with recomputed := false }
    win := { x.win with inst := [], pendVt := none, running := false, enableAt := none, disableAt := none }
    disp := { Dispatch.reset with peerFence := x.disp.peerFence, restarts := x.disp.restarts, leaving := x.disp.leaving, genBase := x.disp.genBase + 1 }
    mint := { x.mint with held := x.mint.held.filter fun r => decide (130 ≤ r.port)
                          coins := x.emptied ++ x.mint.coins.filter fun c => decide (130 * 16 ≤ c.1)
                          closing := x.mint.closing.filter fun e => decide (1024 ≤ e.1)
                          leftOpen := x.mint.leftOpen.filter fun k => decide (1024 ≤ k) }
    clk := { x.clk with computeUp := false, ready := false } }

/-- The multiplexers of trees 0-2 forced to the crystal by the reset of their domain (R491, R493). -/
def Half.treesToCrystal (x : Half) : Half := x.setFld F.CLK_STAT_on_pll (x.fld F.CLK_STAT_on_pll / 8 * 8)

/-- The compute domain of a half goes down (R312): its VDIs are told, remote WAITs that watch it are rewound, its migrations end (R422), vaults in
its Strongroom are lost (R489), and its Strongroom reads zero (R18). -/
def State.downCompute (s : State) (h : Nat) : State :=
  let v1 := (s.hosted h).foldl (fun t v =>
    let x := t.vdi v
    if x.migStep = 5 then (t.setVdi v Vdi.absent).upd h fun y => y.hideVdi v else
    let t1 := (t.noticeBare v 2).upd h fun y => y.setFld F.TEL_STATE_state 4 v
    if x.migStep ≥ 1 && x.migStep ≤ 3 then
      (t1.setVdi v { x with migStep := 0, logOn := false, qStates := [] }).upd h fun y => (y.setFld F.TEL_VDI_STAT_log_on 0 v).setFld F.TEL_VDI_STAT_log_pages 0 v
    else t1) s
  let v2 := v1.rewindAll (peer h) fun q =>
    match ((v1.half (peer h)).queue (qIdx q)).wait with
    | some w => w.remote && decide (homeHalf w.addr = h)
    | none => false
  let v3 := (((s.half h).vaults.table.filter fun t => hasStrRange t.2.raw).map (·.1)).foldl (fun t n => t.endVault h n) v2
  (v3.lose (strBase h) strSize).upd h fun x => (x.fillBuckets s.now).dropCompute.treesToCrystal

/-- The bytes of a half's firmware reserve (R451). -/
def reserveSize : Nat := 0x10000000

/-- The half without its rim's state (R313, R507). What UFS, RPMB and the always-on block hold stays. -/
def Half.dropRim (x : Half) (kind : Nat) : Half :=
  let late := if x.fld F.SVC_FW_ACT_deferred = 1 then x.late ++ [(0x0E, 0, .internal, x.fld F.SVC_FW_ACT_pending)] else x.late
  { Half.reset with
    vt := if kind = 2 then x.vt else 0
    regs := x.regs
    cores := if kind = 2 then kmapV (fun _ => Core.idle) x.cores (fun _ c => { Core.idle with errVts := c.errVts }) else []
    str := { Strongroom.reset with bankErr := x.str.bankErr }
    svc := { x.svc with record := if kind = 2 then { x.svc.saved with pcPending := x.svc.saved.pcPending ||| x.svc.record.pcPending } else x.svc.saved
                        writing := none, waiting := false, soakVt := if kind = 2 then x.svc.soakVt else none
                        soakMarks := if kind = 2 then x.svc.soakMarks else 0 }
    fw := { Firmware.reset with slot0 := x.fw.slot0, slot1 := x.fw.slot1, shipped := x.fw.shipped, running := x.fw.running, activeSlot := x.fw.activeSlot
                                trialSlot := x.fw.trialSlot, attempts := x.fw.attempts, rollback := x.fw.rollback, conf := x.fw.conf
                                stewardVts := x.fw.stewardVts }
    tally := { Tally.reset with ghResets := x.tally.ghResets }
    vaults := { Vaults.reset with lifecycle := x.vaults.lifecycle, accepted := x.vaults.accepted, rpmb := x.vaults.rpmb, challenge := x.vaults.challenge }
    dsp := { Display.reset with image := x.dsp.image }
    clk := { Clocks.reset with phase := x.clk.phase, resetKind := x.clk.resetKind, reqVt := x.clk.reqVt, trips := x.clk.trips, latched := x.clk.latched
                               tripSrc := x.clk.tripSrc, tripHold := x.clk.tripHold, pwrgood := x.clk.pwrgood, resetN := x.clk.resetN
                               slpN := x.clk.slpN, vrAlertN := x.clk.vrAlertN, trimNs := if kind ≥ 4 then 0 else x.clk.trimNs }
    late := if kind = 4 then [] else late }

/-- The bridge of a half answers what waits beyond a link that no longer carries it: the hart that asked, one of its cluster's four, takes an access
fault (R30, R348, R360). -/
def State.answerOut (s : State) (h : Nat) : State :=
  let waiting := (s.half h).hatch.askers.map fun e => e.2 - 1
  let s1 := s.upd h fun x => { x with hatch := { x.hatch with outstanding := [], askers := [] } }
  waiting.foldl (fun t p => if p < 133 || 135 < p then t else
    let d := t.draw
    d.2.accessFault h ((p - 133) * 4 + d.1 % 4)) s1

/-- The rim of a half goes down: DRAM outside a preserved reserve is lost (R18, R451), the link is down at both ends, the contexts and VDIs it hosts
leave until the configuration returns them. -/
def State.downRim (s : State) (h kind : Nat) (kept : Bool) : State :=
  let s1 := if kept then s.zero (dramBase h + reserveSize) (dramSize - reserveSize) else s.zero (dramBase h) dramSize
  let hs := s.hosted h
  let s2 : State := { s1.wipeRecords ((s1.ctxs.filter fun c => hs.contains (cVdi c.2.raw)).map (·.1)) with
    ctxs := s1.ctxs.filter fun c => !hs.contains (cVdi c.2.raw)
    vdis := s1.vdis.filter fun v => !hs.contains v.1
    latch := if kind = 2 && (s.half (peer h)).clk.rimUp then s1.latch else { s1.latch with holder := none } }
  let s3 := s2.upd h fun x => (x.dropRim kind).restore fun f => f.restored kind
  (s3.answerOut (peer h)).upd (peer h) fun x => (x.setFld F.HTC_LINK_state 0).setFld F.HTC_LINK_modules_up 0

/-- Restart bounds of R384 in ns. -/
def restartBound : Nat → Nat
  | 1 => 200000000
  | 2 => 1200000000
  | 3 => 2000000000
  | _ => 0

/-- A reset of one half requested (R504, R505): absorbed into one of equal or wider scope in progress, otherwise entered at once. `told`: the firmware
runs and sends GOING_DOWN (R384). The cause goes to CLK_RESET_CAUSE and the half's SERR_N goes low (R518). -/
def State.enterReset (s : State) (h kind cause : Nat) (told : Bool) : State :=
  if kind ≤ (s.half h).clk.resetKind then s else
  let tell := told && (s.half h).clk.rimUp && !(s.half h).fw.stewardDown && decide (kind ≤ 3)
  let s1 := if tell then s.goingDown h (kind + 1) cause (restartBound kind) else s
  let s2 := if (s.half h).clk.computeUp then s1.downCompute h else s1
  let s3 := if kind = 1 then s2.upd h (fun x => (x.restore fun f => f.restored 1).setFld F.CLK_STAT_power_state 0) else s2.downRim h kind tell
  s3.upd h fun x =>
    let y : Half := { x with clk := { x.clk with resetKind := kind, reqVt := x.vt.toNat, phase := if kind ≥ 4 then 0 else 5, serrN := false }
                             svc := { x.svc with restart := match x.svc.restart with | some (k, c) => if k ≤ kind then none else some (k, c) | none => none } }
    let z := (y.setFld F.CLK_RESET_CAUSE_kind kind).setFld F.CLK_RESET_CAUSE_cause cause
    if kind ≤ 3 then z.incw F.CLK_RESET_CAUSE_resets else z

/-- PERR_N: low while no half carries the critical work (R518). It is released by the rows that bring critical duty back. -/
def State.perr (s : State) : State :=
  if (s.h0.clk.resetKind ≠ 0 && s.h1.clk.resetKind ≠ 0) || s.secondFault then { s with perrN := false } else s

/-- A reset of one half, with PERR_N judged after it. -/
def State.resetHalf (s : State) (h kind cause : Nat) (told : Bool) : State := (s.enterReset h kind cause told).perr

/-- A restart that a half's firmware asks for: at most one half restarts at a time, so it waits while the other restarts or rejoins (R314). -/
def State.askRestart (s : State) (h kind cause : Nat) : State :=
  let o := (s.half (peer h)).clk
  if o.resetKind ≠ 0 || o.phase = 1 || o.phase = 5 then s.upd h fun x => { x with svc := { x.svc with
    restart := match x.svc.restart with
      | some (k, c) => if kind ≤ k then some (k, c) else some (kind, cause)
      | none => some (kind, cause) } }
  else s.resetHalf h kind cause true

/-- A restart that waited is asked for again, the other half being back (R314). -/
def State.runRestart (s : State) (h : Nat) : State :=
  match (s.half h).svc.restart with
  | none => s
  | some (k, c) => (s.upd h fun x => { x with svc := { x.svc with restart := none } }).askRestart h k c

/-- A reset of the package: K or P on both halves (R504). -/
def State.resetPackage (s : State) (kind cause : Nat) (told : Bool) : State :=
  { (s.enterReset 0 kind cause told).enterReset 1 kind cause told with perrN := false }

end Sys2Proof.Machine
end

