-- ==== Sys2Proof/Machine/Numbers.lean ====
section
/-! DEFINITION. Number formats, exact arithmetic, rounding, conversion and ledger bounds (R35-R63). Values are exact: a sign, a natural mantissa
and a power of two; fractions are pairs of naturals. -/
namespace Sys2Proof.Machine

def Frac.add (a b : Frac) : Frac := if a.d = b.d then ⟨a.n + b.n, a.d⟩ else ⟨a.n * b.d + b.n * a.d, a.d * b.d⟩
def Frac.mul (a b : Frac) : Frac := ⟨a.n * b.n, a.d * b.d⟩
def Frac.le (a b : Frac) : Bool := decide (a.n * b.d ≤ b.n * a.d)
def Frac.lt (a b : Frac) : Bool := decide (a.n * b.d < b.n * a.d)
def Frac.max (a b : Frac) : Frac := if a.le b then b else a
def Frac.zero : Frac := ⟨0, 1⟩
/-- m × 2^e as a fraction. -/
def Frac.pow2 (m : Nat) (e : Int) : Frac := if e < 0 then ⟨m, 2 ^ e.natAbs⟩ else ⟨m * 2 ^ e.toNat, 1⟩

/-- Magnitude of a finite value; zero for the others. -/
def Num.mag : Num → Frac
  | .fin _ m e => .pow2 m e
  | _ => .zero

/-- A magnitude that a bound may use: none for an infinity or a NaN, which leave no bound. -/
def Num.mag? : Num → Option Frac
  | .fin _ m e => some (.pow2 m e)
  | _ => none

/-! A bound of R52 is `Option Frac`: none where no finite bound exists. -/

def bndAdd (a b : Option Frac) : Option Frac := a.bind fun x => b.map x.add
def bndMul (a b : Option Frac) : Option Frac := a.bind fun x => b.map x.mul
def bndMax (a b : Option Frac) : Option Frac := a.bind fun x => b.map x.max

/-- The largest of a list of bounds; 0 of none. -/
def bndMaxAll (l : List (Option Frac)) : Option Frac := l.foldl bndMax (some .zero)

def Num.neg? : Num → Bool
  | .fin n _ _ => n
  | .inf n => n
  | .nan => false

def Num.isZero : Num → Bool
  | .fin _ m _ => decide (m = 0)
  | _ => false

def Num.finite : Num → Bool
  | .fin _ _ _ => true
  | _ => false

def Num.negate : Num → Num
  | .nan => .nan
  | .inf n => .inf !n
  | .fin n m e => .fin (!n) m e

def Num.abs : Num → Num
  | .fin _ m e => .fin false m e
  | .inf _ => .inf false
  | .nan => .nan

def Num.zero : Num := .fin false 0 0
def Num.one : Num := .fin false 1 0

/-! ## Formats (R35-R37) -/

/-- Precision with the hidden bit, exponent bits and bias of a float format; INT8 (0x5) is apart. -/
structure Fmt where
  p : Nat
  eb : Nat
  bias : Nat
deriving DecidableEq, Repr

def fmtOf : Nat → Fmt
  | 0 => ⟨24, 8, 127⟩
  | 1 => ⟨11, 5, 15⟩
  | 2 => ⟨8, 8, 127⟩
  | 3 => ⟨4, 4, 7⟩
  | 4 => ⟨3, 5, 15⟩
  | _ => ⟨2, 2, 1⟩

/-- Bits of an element in memory; FP4 is half a byte. -/
def fmtBits : Nat → Nat
  | 0 => 32
  | 1 => 16
  | 2 => 16
  | 6 => 4
  | _ => 8

def Fmt.qmin (f : Fmt) : Int := 1 - (f.bias : Int) - ((f.p : Int) - 1)

/-- Decode an element of a float format (R36, R37). -/
def decodeFloat (code w : Nat) : Num :=
  let f := fmtOf code
  let mb := f.p - 1
  let m := bits w 0 mb
  let ex := bits w mb f.eb
  let s := decide (bits w (mb + f.eb) 1 = 1)
  if code = 3 && ex = 15 && m = 7 then .nan
  else if code ≠ 3 && code ≠ 6 && ex = 2 ^ f.eb - 1 then (if m = 0 then .inf s else .nan)
  else if ex = 0 then .fin s m f.qmin
  else .fin s (m + 2 ^ mb) ((ex : Int) - f.bias - mb)

/-- A two's-complement byte (R40). -/
def sext8 (w : Nat) : Int := if w < 128 then (w : Int) else (w : Int) - 256

/-- An INT8 element times its scale, exactly. -/
def int8Val (q : Int) (scale : Num) : Num :=
  match scale with
  | .fin n m e => .fin (decide (q < 0) != n) (q.natAbs * m) e
  | x => x

/-- The signed exponent byte of a DMA conversion as the scale 2^x (R90). -/
def expScale (x : Nat) : Num := .fin false 1 (sext8 x)

/-! ## Rounding -/

/-- The floor of log2 of a positive fraction. -/
def floorLog2 (a : Frac) : Int :=
  let l : Int := (Nat.log2 a.n : Int) - Nat.log2 a.d
  if (Frac.pow2 1 l).le a then l else l - 1

/-- A fraction rounded to `p` bits with the last place at least 2^qmin: quotient and place. `rtz`: toward zero, else to nearest, ties to even (R47). -/
def roundFrac (p : Nat) (qmin : Int) (rtz : Bool) (a : Frac) : Nat × Int :=
  if a.n = 0 then (0, qmin) else
  let u := max (floorLog2 a - ((p : Int) - 1)) qmin
  let num := if u < 0 then a.n * 2 ^ u.natAbs else a.n
  let den := if u < 0 then a.d else a.d * 2 ^ u.toNat
  let q := num / den
  let r := num % den
  let up := !rtz && (decide (den < 2 * r) || (decide (2 * r = den) && decide (q % 2 = 1)))
  ((if up then q + 1 else q), u)

/-- The largest finite magnitude of a float format (R37). -/
def maxFinite (code : Nat) : Frac :=
  match code with
  | 0 => .pow2 (2 ^ 24 - 1) 104
  | 1 => ⟨65504, 1⟩
  | 2 => .pow2 255 120
  | 3 => ⟨448, 1⟩
  | 4 => ⟨57344, 1⟩
  | _ => ⟨6, 1⟩

/-- The unit in the last place at the largest finite value. -/
def maxUlp (code : Nat) : Frac :=
  match code with
  | 0 => .pow2 1 104
  | 1 => ⟨32, 1⟩
  | 2 => .pow2 1 120
  | 3 => ⟨32, 1⟩
  | 4 => ⟨8192, 1⟩
  | _ => ⟨2, 1⟩

/-- The threshold of a saturation event (R48). -/
def threshold (code : Nat) (rtz : Bool) : Frac :=
  (maxFinite code).add ((maxUlp code).mul (if rtz then ⟨1, 1⟩ else ⟨1, 2⟩))

/-- Encode a magnitude that needs no rounding, its sign given. -/
def encodeFloat (code : Nat) (neg : Bool) (q : Nat) (u : Int) : Nat :=
  let f := fmtOf code
  let mb := f.p - 1
  let s := if neg then 2 ^ (mb + f.eb) else 0
  if q < 2 ^ mb then s + q
  else
    let q' := if q = 2 ^ f.p then 2 ^ mb else q
    let u' := if q = 2 ^ f.p then u + 1 else u
    s + ((u' + mb + f.bias).toNat * 2 ^ mb) + (q' - 2 ^ mb)

/-- The canonical NaN of a format (R49). -/
def canonNan : Nat → Nat
  | 0 => 0x7FC00000
  | 1 => 0x7E00
  | 2 => 0x7FC0
  | 3 => 0x7F
  | 4 => 0x7F
  | _ => 0

def infBits (code : Nat) (neg : Bool) : Nat :=
  (match code with | 0 => 0x7F800000 | 1 => 0x7C00 | 2 => 0x7F80 | 3 => 0x7F | 4 => 0x7C | _ => 0x7) +
    (if neg && code ≠ 3 then 2 ^ (fmtBits code - 1) else 0)

def maxBits (code : Nat) (neg : Bool) : Nat :=
  (match code with | 0 => 0x7F7FFFFF | 1 => 0x7BFF | 2 => 0x7F7F | 3 => 0x7E | 4 => 0x7B | _ => 0x7) + (if neg then 2 ^ (fmtBits code - 1) else 0)

/-- The bits a conversion writes and its saturation and invalid events (R48, R49, R51). -/
structure Conv where
  w : Nat
  sat : Bool
  inv : Bool
deriving DecidableEq, Repr

/-- Conversion of a value to a float format other than block-scaled FP4. -/
def convFloat (code : Nat) (rtz special : Bool) (v : Num) : Conv :=
  match v with
  | .nan => ⟨canonNan code, false, true⟩
  | .inf n =>
      if code = 3 then (if special then ⟨0x7F, false, true⟩ else ⟨maxBits 3 n, true, false⟩) else ⟨infBits code n, false, false⟩
  | .fin n m e =>
      let a := Frac.pow2 m e
      if (threshold code rtz).le a then
        (if special && code ≠ 6 then ⟨infBits code n, true, decide (code = 3)⟩ else ⟨maxBits code n, true, false⟩)
      else
        let r := roundFrac (fmtOf code).p (fmtOf code).qmin rtz a
        if (maxFinite code).lt (Frac.pow2 r.1 r.2) then ⟨maxBits code n, false, false⟩ else ⟨encodeFloat code n r.1 r.2, false, false⟩

/-- Conversion of a value to INT8 under a scale (R48, R49); never -128 (R40). -/
def convInt8 (rtz : Bool) (scale : Num) (v : Num) : Conv :=
  match v with
  | .nan => ⟨0, false, true⟩
  | .inf n => ⟨if n then 0x81 else 127, true, false⟩
  | .fin n m e =>
      let s := scale.mag
      let a : Frac := ⟨(Frac.pow2 m e).n * s.d, (Frac.pow2 m e).d * s.n⟩
      if (if rtz then Frac.le ⟨128, 1⟩ a else Frac.le ⟨255, 2⟩ a) then ⟨if n then 0x81 else 127, true, false⟩
      else
        let r := (roundFrac 64 0 rtz a).1
        let r := Nat.min r 127
        ⟨if n && r ≠ 0 then 256 - r else r, false, false⟩

/-- Round a value to FP32 under RNE; above the range it becomes an infinity (R43, R75). -/
def toF32 (v : Num) : Num :=
  match v with
  | .fin n m e =>
      let a := Frac.pow2 m e
      if (threshold 0 false).le a then .inf n
      else let r := roundFrac 24 (-149) false a; .fin n r.1 r.2
  | x => x

/-- A signed fraction rounded to FP32 under RNE. -/
def fracF32 (n : Bool) (a : Frac) : Num :=
  if (threshold 0 false).le a then .inf n else let r := roundFrac 24 (-149) false a; .fin n r.1 r.2

/-! ## Exact operations (R42) with the special operands of R49 -/

def Num.mulX (a b : Num) : Num :=
  match a, b with
  | .nan, _ => .nan
  | _, .nan => .nan
  | .inf n, y => if y.isZero then .nan else .inf (n != y.neg?)
  | x, .inf n => if x.isZero then .nan else .inf (n != x.neg?)
  | .fin n m e, .fin n' m' e' => .fin (n != n') (m * m') (e + e')

/-- An exact sum; a zero sum of unlike signs is +0. -/
def Num.addX (a b : Num) : Num :=
  match a, b with
  | .nan, _ => .nan
  | _, .nan => .nan
  | .inf n, .inf n' => if n = n' then .inf n else .nan
  | .inf n, _ => .inf n
  | _, .inf n => .inf n
  | .fin n m e, .fin n' m' e' =>
      let k := min e e'
      let x := m * 2 ^ (e - k).toNat
      let y := m' * 2 ^ (e' - k).toNat
      if n = n' then .fin n (x + y) k
      else if y < x then .fin n (x - y) k else if x < y then .fin n' (y - x) k else .fin false 0 k

/-- FP32 addition and multiplication with RNE and gradual underflow (R43). -/
def Num.add32 (a b : Num) : Num := toF32 (a.addX b)
def Num.mul32 (a b : Num) : Num := toF32 (a.mulX b)

/-- a < b with −∞ < finite < +∞ and −0 < +0 (R155). -/
def Num.before (a b : Num) : Bool :=
  match a, b with
  | .nan, _ => false
  | _, .nan => false
  | .inf n, .inf n' => n && !n'
  | .inf n, _ => n
  | _, .inf n => !n
  | .fin n m e, .fin n' m' e' =>
      if n && !n' then true else if !n && n' then false
      else if n then (Frac.pow2 m' e').lt (.pow2 m e) else (Frac.pow2 m e).lt (.pow2 m' e')

/-! ## Free order (R44) and free flush (R43) -/

/-- Take out the element at a position. -/
def takeAt (l : List Num) (k : Nat) : Num × List Num := (l.getD k .zero, l.eraseIdx k)

/-- A reduction in an order the manual leaves open: two terms are picked by free values and replaced by their sum until one is left, so every order
and grouping is possible (R44). Returns the sum and the advanced counter. -/
def reduceFree (op : Num → Num → Num) : Nat → List Num → Nat → Num × Nat
  | 0, l, c => (l.getD 0 .zero, c)
  | _ + 1, [], c => (.zero, c)
  | _ + 1, [x], c => (x, c)
  | k + 1, l, c =>
    let f := Config.free c
    let a := takeAt l (f % l.length)
    let b := takeAt a.2 (f / l.length % a.2.length)
    reduceFree op k (op a.1 b.1 :: b.2) (c + 1)

def sum32 (l : List Num) (c : Nat) : Num × Nat := reduceFree Num.add32 l.length l c

/-- A product below 2^-126 kept or flushed to zero as a free value chooses (R43). -/
def flushFree (on : Bool) (v : Num) (c : Nat) : Num × Nat :=
  if on && !v.isZero && v.finite && v.mag.lt (.pow2 1 (-126)) then
    (if Config.free c % 2 = 1 then .fin v.neg? 0 0 else v, c + 1)
  else (v, c)

/-! ## Conversion error terms (R54) and activations (R61) -/

/-- u_acc = 2^-24 (1 + 2^-7). -/
def uAcc : Frac := ⟨129, 2 ^ 31⟩

/-- u_out of an output format. -/
def uOut (code : Nat) (rtz : Bool) : Frac :=
  let k : Frac := if rtz then ⟨2, 1⟩ else ⟨1, 1⟩
  match code with
  | 0 => k.mul (.pow2 1 (-24))
  | 1 => k.mul (.pow2 1 (-11))
  | 2 => k.mul (.pow2 1 (-8))
  | 3 => k.mul (.pow2 1 (-4))
  | 4 => k.mul (.pow2 1 (-3))
  | 5 => Frac.mul ⟨2, 1⟩ uAcc
  | _ => k.mul ⟨1, 4⟩

/-- η_out of an output format; `s` is the INT8 scale or the FP4 block scale. -/
def etaOut (code : Nat) (rtz : Bool) (s : Frac) : Frac :=
  let k : Frac := if rtz then ⟨2, 1⟩ else ⟨1, 1⟩
  match code with
  | 0 => k.mul (.pow2 1 (-150))
  | 1 => k.mul (.pow2 1 (-25))
  | 2 => k.mul (.pow2 1 (-134))
  | 3 => k.mul (.pow2 1 (-10))
  | 4 => k.mul (.pow2 1 (-17))
  | 5 => s.mul (if rtz then ⟨1, 1⟩ else ⟨1, 2⟩)
  | _ => k.mul (s.mul ⟨1, 4⟩)

/-- A parameter of a command's activation, which no record carries: 0 lo and 1 hi of clamp, 2 the slope of leaky ReLU. It is one value for the command, a
function of its descriptor that the manual leaves open; a NaN or an infinity is no such parameter (log entry 6). -/
def actParam (d k : Nat) : Num :=
  let v := decodeFloat 0 (Config.actParam d k % 2 ^ 32)
  if v.finite then v else .zero

/-- lo and hi of clamp, in order. -/
def clampLo (d : Nat) : Num := if (actParam d 1).before (actParam d 0) then actParam d 1 else actParam d 0
def clampHi (d : Nat) : Num := if (actParam d 1).before (actParam d 0) then actParam d 0 else actParam d 1

/-- Λ of an activation (R61). -/
def actLip (act d : Nat) : Frac :=
  match act with
  | 3 => Frac.max ⟨1, 1⟩ (actParam d 2).mag
  | 4 => ⟨1, 4⟩
  | 6 => ⟨113, 100⟩
  | 7 => ⟨11, 10⟩
  | 8 => ⟨3, 2⟩
  | _ => ⟨1, 1⟩

/-- ε of an activation, |x| being the largest of the block (R61). -/
def actEps (act : Nat) (x : Option Frac) : Option Frac :=
  match act with
  | 3 => bndMul (some uAcc) x
  | 4 => some (.pow2 1 (-22))
  | 5 => some (.pow2 1 (-22))
  | 6 => bndAdd (bndMul (some (.pow2 1 (-21))) x) (some (.pow2 1 (-22)))
  | 7 => bndAdd (bndMul (some (.pow2 1 (-21))) x) (some (.pow2 1 (-22)))
  | 8 => bndMul (some uAcc) x
  | _ => some .zero

/-- An FP32 value the manual does not state. -/
def freeF32 (c : Nat) : Num := decodeFloat 0 (Config.free c % 2 ^ 32)

/-! ## Ledger bytes (R57) -/

/-- The bound a byte decodes to; none: no bound known. -/
def ledBound (e : Nat) : Option Frac := if e = 0 || e ≥ 0xFF then none else some (.pow2 1 ((e : Int) - 127))

/-- The smallest byte whose bound is not below `l`. -/
def ledEncode (l : Frac) : Nat :=
  if l.le (.pow2 1 (-126)) then 1
  else if (Frac.pow2 1 127).lt l then 0
  else
    let k := floorLog2 l
    (((if (Frac.pow2 1 k).le l && l.le (.pow2 1 k) then k else k + 1) + 127).toNat)

/-- The byte of a bound that the ledger units rounded toward +∞ at every step (R55). Where at most the last step rounds, the byte is that of the exact bound,
because a power of two is exact in every binary format. The widths of further roundings are not stated, so the byte may then be one above (log entry 7). -/
def ledEncodeFree (exact : Bool) (l : Frac) (c : Nat) : Nat × Nat :=
  let e := ledEncode l
  if exact then (e, c) else (if e ≠ 0 && e < 0xFE && Config.free c % 2 = 1 then e + 1 else e, c + 1)

/-- The byte of data movement: the largest source byte, 0x00 if any is (R63). 0xFF reads as 0x00 (R57). -/
def ledMove (l : List Nat) : Nat :=
  if l.any fun e => e = 0 || e ≥ 0xFF then 0 else l.foldl Nat.max 1

/-- A value rounded upward to a 4-bit significand (R53). -/
def up4 (a : Frac) : Frac :=
  if a.n = 0 then a else
  let u := floorLog2 a - 3
  let r := roundFrac 4 (-1024) true a
  if (Frac.pow2 r.1 r.2).lt a then .pow2 (r.1 + 1) u else .pow2 r.1 r.2

/-- The scale byte of an FP4 block from its largest magnitude (R50): ⌈log2(m / 6)⌉ + 127, clamped. -/
def fp4Scale (m : Frac) : Nat :=
  if m.n = 0 then 0 else
  let a : Frac := ⟨m.n, m.d * 6⟩
  let k := floorLog2 a
  let c := if a.le (.pow2 1 k) then k else k + 1
  (max 0 (min 254 (c + 127))).toNat

/-- An FP4 block as a conversion leaves it (R39, R50, R51): its scale byte, its element codes, and whether each element saturated. -/
structure Fp4 where
  scale : Nat
  codes : List Nat
  sats : List Bool
deriving DecidableEq, Repr

/-- The block is marked NaN: one invalid event (R51). -/
def Fp4.isNan (q : Fp4) : Bool := q.scale = 0xFF

/-- Conversion of a block's values to FP4. The data nibbles of a block marked NaN are not stated: free values (log entry 138). -/
def convFp4 (rtz : Bool) (vs : List Num) (c : Nat) : Fp4 × Nat :=
  if vs.any fun v => !v.finite then
    ({ scale := 0xFF, codes := (List.range vs.length).map fun i => Config.free (c + i) % 16, sats := vs.map fun _ => false }, c + vs.length)
  else
    let s := fp4Scale (vs.foldl (fun a v => a.max v.mag) .zero)
    let cs := vs.map fun v =>
      match v with
      | .fin n m e => convFloat 6 rtz false (.fin n m (e - ((s : Int) - 127)))
      | _ => ⟨0, false, false⟩
    ({ scale := s, codes := cs.map (·.w), sats := cs.map (·.sat) }, c)

end Sys2Proof.Machine
end

