-- ==== Sys2Proof/Machine/SieveNum.lean ====
section
/-! DEFINITION. The FP32 arithmetic of the Sieve and of box judgement (R175, R176, R180, R264): comparison, division, square root, exponential, and the
intersection of rotated rectangles. -/
namespace Sys2Proof.Machine

/-! ## Comparison and exact helpers -/

/-- a < b; −0 and +0 are equal (R179). -/
def Num.lt (a b : Num) : Bool :=
  match a, b with
  | .nan, _ => false
  | _, .nan => false
  | .inf n, .inf n' => n && !n'
  | .inf n, _ => n
  | _, .inf n => !n
  | .fin n m e, .fin n' m' e' =>
      let x := (Frac.pow2 m e)
      let y := (Frac.pow2 m' e')
      if m = 0 && m' = 0 then false
      else if n && !n' then true else if !n && n' then false
      else if n then y.lt x else x.lt y

def Num.le (a b : Num) : Bool := a ≠ .nan && b ≠ .nan && !b.lt a

def Num.sub32 (a b : Num) : Num := a.add32 b.negate
def Num.subX (a b : Num) : Num := a.addX b.negate

/-- FP32 division with RNE. -/
def Num.div32 (a b : Num) : Num :=
  match a, b with
  | .nan, _ => .nan
  | _, .nan => .nan
  | .inf _, .inf _ => .nan
  | .inf n, y => .inf (n != y.neg?)
  | .fin n _ _, .inf n' => .fin (n != n') 0 0
  | .fin n m e, .fin n' m' e' =>
      if m' = 0 then (if m = 0 then .nan else .inf (n != n'))
      else fracF32 (n != n') ⟨(Frac.pow2 m e).n * (Frac.pow2 m' e').d, (Frac.pow2 m e).d * (Frac.pow2 m' e').n⟩

def Num.max32 (a b : Num) : Num := if a.lt b then b else a
def Num.min32 (a b : Num) : Num := if b.lt a then b else a

/-- Integer square root by its bits, from bit `k` down. -/
def isqrtBits (n : Nat) : Nat → Nat → Nat
  | 0, r => r
  | k + 1, r => if (r + 2 ^ k) * (r + 2 ^ k) ≤ n then isqrtBits n k (r + 2 ^ k) else isqrtBits n k r

def isqrt (n : Nat) : Nat := isqrtBits n (Nat.log2 n / 2 + 1) 0

/-- FP32 square root with RNE: enough root bits and a sticky bit are kept to round once. -/
def Num.sqrt32 (a : Num) : Num :=
  match a with
  | .fin n m e =>
      if m = 0 then a else if n then .nan else
      let ev := e % 2 = 0
      let m1 := (if ev then m else 2 * m) * 2 ^ 80
      let e1 : Int := (if ev then e else e - 1) / 2 - 40
      let r := isqrt m1
      toF32 (.fin false (2 * r + (if r * r = m1 then 0 else 1)) (e1 - 1))
  | .inf n => if n then .nan else a
  | .nan => .nan

/-! ## Fixed-point values at 2^-200 -/

def fixOne : Int := 2 ^ 200

/-- An FP32 value in fixed point; every FP32 value is exact. -/
def Num.fix : Num → Int
  | .fin n m e => let v : Int := (m : Int) * 2 ^ (e + 200).toNat; if n then -v else v
  | _ => 0

def fixMul (a b : Int) : Int := a * b / fixOne

/-- π in fixed point. -/
def fixPi : Int := 5048344754617993871973410141242436836214643421488662971535368

/-- Σ x^k / k! from a term on, in fixed point. -/
def expTerms (x : Int) : Nat → Int → Int → Int
  | 0, _, _ => 0
  | n + 1, t, k => t + expTerms x n (fixMul t x / (k + 1)) (k + 1)

/-- `x` squared `n` times. -/
def sqTimes : Nat → Int → Int
  | 0, x => x
  | n + 1, x => sqTimes n (fixMul x x)

/-- e^x of a fixed-point |x| ≤ 128, in fixed point. -/
def fixExp (x : Int) : Int :=
  if x < 0 then fixOne * fixOne / sqTimes 8 (expTerms (-x / 256) 40 fixOne 0)
  else sqTimes 8 (expTerms (x / 256) 40 fixOne 0)

/-- An FP32 exponential within 3 units in the last place of the exact value, as a free value chooses (R176): the exact value cut to its last place lies at or
below it by less than one unit, so up to two units below the cut and three above are within the bound. -/
def Num.exp32 (x : Num) (c : Nat) : Num × Nat :=
  match x with
  | .nan => (.nan, c)
  | .inf n => (if n then .zero else .inf false, c)
  | .fin n m e =>
      if m = 0 then (.one, c)
      else if (Frac.pow2 m e).lt ⟨128, 1⟩ then
        let v := fixExp x.fix
        let r := roundFrac 24 (-149) true ⟨v.toNat, fixOne.toNat⟩
        (toF32 (.fin false (r.1 + Config.free c % 6 - 2) r.2), c + 1)
      else (if n then .zero else .inf false, c)

/-- Terms of sine (k odd start) or cosine (k even start). -/
def trigTerms (x2 : Int) : Nat → Int → Int → Int
  | 0, _, _ => 0
  | n + 1, t, k => t + trigTerms x2 n (-(fixMul t x2) / ((k + 1) * (k + 2))) (k + 2)

/-- An angle brought to [−π, π) in fixed point. -/
def fixWrap (t : Int) : Int := (t + fixPi) % (2 * fixPi) - fixPi

def fixCos (t : Int) : Int := let x := fixWrap t; trigTerms (fixMul x x) 60 fixOne 0
def fixSin (t : Int) : Int := let x := fixWrap t; trigTerms (fixMul x x) 60 x 1

/-! ## IoU (R180) -/

/-- Clamped to [0, 1]. -/
def clamp01 (x : Num) : Num := if x.lt .zero then .zero else if Num.one.lt x then .one else x

/-- The IoU of boxes whose areas overflow so that the quotient is no number: a value in [0, 1] that nothing states (log entry 164). -/
def Num.orOpen (x : Num) (a b : List Num) : Num :=
  if x = .nan then .fin false (Config.openIou (a.map fun v => (convFloat 0 false true v).w) (b.map fun v => (convFloat 0 false true v).w) % (2 ^ 24 + 1)) (-24)
  else x

/-- Axis-aligned IoU of boxes x1, y1, x2, y2 in FP32. -/
def iouAxis (a b : List Num) : Num :=
  let g (l : List Num) (i : Nat) := l.getD i .zero
  let area (l : List Num) := ((g l 2).sub32 (g l 0)).mul32 ((g l 3).sub32 (g l 1))
  let w := (((g a 2).min32 (g b 2)).sub32 ((g a 0).max32 (g b 0))).max32 .zero
  let h := (((g a 3).min32 (g b 3)).sub32 ((g a 1).max32 (g b 1))).max32 .zero
  let inter := w.mul32 h
  let union := ((area a).add32 (area b)).sub32 inter
  if union.isZero then .zero else clamp01 ((inter.div32 union).orOpen a b)

/-- The corners of a rotated box cx, cy, cz, l, w, h, θ, counter-clockwise. -/
def corners (b : List Num) : List (Int × Int) :=
  let g (i : Nat) := (b.getD i .zero).fix
  let co := fixCos (g 6)
  let si := fixSin (g 6)
  [(1, 1), (-1, 1), (-1, -1), (1, -1)].map fun (u, v) =>
    let x := u * g 3 / 2
    let y := v * g 4 / 2
    (g 0 + fixMul x co - fixMul y si, g 1 + fixMul x si + fixMul y co)

def cross (p q x : Int × Int) : Int := (q.1 - p.1) * (x.2 - p.2) - (q.2 - p.2) * (x.1 - p.1)

/-- A polygon clipped to the left of p → q. -/
def clipEdge (p q : Int × Int) (poly : List (Int × Int)) : List (Int × Int) :=
  (List.range poly.length).flatMap fun i =>
    let a := poly.getD i (0, 0)
    let b := poly.getD ((i + 1) % poly.length) (0, 0)
    let da := cross p q a
    let db := cross p q b
    let mid := (a.1 + (b.1 - a.1) * da / (da - db), a.2 + (b.2 - a.2) * da / (da - db))
    (if 0 ≤ da then [a] else []) ++ (if (0 < da && db < 0) || (da < 0 && 0 < db) then [mid] else [])

/-- Twice the area of a polygon. -/
def area2 (poly : List (Int × Int)) : Int :=
  (List.range poly.length).foldl (fun s i =>
    let a := poly.getD i (0, 0)
    let b := poly.getD ((i + 1) % poly.length) (0, 0)
    s + (a.1 * b.2 - b.1 * a.2)) 0

/-- Rotated IoU: the intersection polygon of the two rectangles, its IoU rounded to FP32 (log entry 10). -/
def iouRot (a b : List Num) : Num :=
  let ca := corners a
  let cb := corners b
  let inter := (List.range 4).foldl (fun p i => clipEdge (cb.getD i (0, 0)) (cb.getD ((i + 1) % 4) (0, 0)) p) ca
  let i2 := (area2 inter).toNat
  let union := (area2 ca + area2 cb).toNat - i2
  if union = 0 then .zero else clamp01 (fracF32 false ⟨i2, union⟩)

def iou (rot : Bool) (a b : List Num) : Num := if rot then iouRot a b else iouAxis a b

end Sys2Proof.Machine
end

