-- ==== Sys2Proof/Machine/Activations.lean ====
section
/-! DEFINITION. The activation functions of the array's output stage (R61): identity and ReLU exactly, the others within the implementation error that the
manual bounds, as free values choose. -/
namespace Sys2Proof.Machine

/-- 1/(1 + e^-x) in fixed point. -/
def fixSigmoid (x : Int) : Int :=
  if 128 * fixOne ≤ x then fixOne else if x ≤ -128 * fixOne then 0 else fixOne * fixOne / (fixOne + fixExp (-x))

/-- Σ x^(2n+1) / (1·3·5·…·(2n+1)) from a term on, in fixed point; `x2` is x². -/
def oddTerms (x2 : Int) : Nat → Int → Int → Int
  | 0, _, _ => 0
  | n + 1, t, k => t + oddTerms x2 n (fixMul t x2 / (k + 2)) (k + 2)

/-- The normal distribution function in fixed point; beyond 12 its distance from 0 or 1 is below 2^-100. -/
def fixNormal (x : Int) : Int :=
  if 12 * fixOne ≤ x then fixOne else if x ≤ -12 * fixOne then 0 else
  let phi := fixMul (fixExp (-(fixMul x x) / 2)) (isqrt (fixOne * fixOne * fixOne / (2 * fixPi)).toNat : Nat)
  fixOne / 2 + fixMul phi (oddTerms (fixMul x x) 400 x 1)

/-- x · clamp(x + 3, 0, 6) / 6 in fixed point. -/
def fixHardSwish (x : Int) : Int := fixMul x (min (max (x + 3 * fixOne) 0) (6 * fixOne)) / 6

/-- An FP32 value within `eps` of `f`, both in fixed point, that a free value chooses; where the choice rounds to a value outside, the FP32 value nearest to
`f`. The last places of the fixed point are kept off the edge of `eps`. -/
def freeNear (f eps : Int) (c : Nat) : Num × Nat :=
  let r := f - eps + ((Config.free c % (2 * eps + 1).toNat : Nat) : Int)
  let v := fracF32 (decide (r < 0)) ⟨r.natAbs, fixOne.toNat⟩
  (if ((v.fix - f).natAbs : Int) + 2 ^ 100 ≤ eps then v else fracF32 (decide (f < 0)) ⟨f.natAbs, fixOne.toNat⟩, c + 1)

/-- The implementation error ε of an activation at an input (R61), in fixed point. -/
def fixEps (act : Nat) (x : Int) : Int :=
  let m : Int := x.natAbs
  match act with
  | 4 => 2 ^ 178
  | 5 => 2 ^ 178
  | 6 => m / 2 ^ 21 + 2 ^ 178
  | 7 => m / 2 ^ 21 + 2 ^ 178
  | _ => m * 129 / 2 ^ 31

/-- The result for an infinite input (R61): the function's limit. `d` is the command's descriptor, on which clamp's bounds and leaky ReLU's slope depend. -/
def activateInf (d act : Nat) (neg : Bool) : Num :=
  match act, neg with
  | 1, true => .zero
  | 2, true => clampLo d
  | 2, false => clampHi d
  | 3, true => if (actParam d 2).isZero then .zero else .inf (!(actParam d 2).neg?)
  | 4, true => .zero
  | 4, false => .one
  | 5, n => .fin n 1 0
  | 6, true => .fin true 0 0
  | 7, true => .fin true 0 0
  | 8, true => .fin true 0 0
  | _, n => .inf n

/-- The activation of an FP32 value by the command `d` (R61): its result and the advanced counter. -/
def activate (d act : Nat) (x : Num) (c : Nat) : Num × Nat :=
  match act, x with
  | 0, x => (x, c)
  | _, .nan => (.nan, c)
  | act, .inf n => (activateInf d act n, c)
  | 1, x => (if x.neg? then .zero else x, c)
  | 2, x => (if x.before (clampLo d) then clampLo d else if (clampHi d).before x then clampHi d else x, c)
  | 3, x => if x.neg? then freeNear (fixMul (actParam d 2).fix x.fix) (fixEps 3 x.fix) c else freeNear x.fix (fixEps 3 x.fix) c
  | 4, x => freeNear (fixSigmoid x.fix) (fixEps 4 x.fix) c
  | 5, x => freeNear (2 * fixSigmoid (2 * x.fix) - fixOne) (fixEps 5 x.fix) c
  | 6, x => freeNear (fixMul x.fix (fixNormal x.fix)) (fixEps 6 x.fix) c
  | 7, x => freeNear (fixMul x.fix (fixSigmoid x.fix)) (fixEps 7 x.fix) c
  | 8, x => freeNear (fixHardSwish x.fix) (fixEps 8 x.fix) c
  | _, _ => (freeF32 c, c + 1)

end Sys2Proof.Machine
end

