-- ==== Sys2Proof/Machine/Kerbel.lean ====
section
/-! DEFINITION. What a tile of a Kerbel command computes: tensor geometry (R526), matrix products (R84), convolutions, pools and resizes (R139-R171),
the output stage (R46), and the ledger bytes of its output blocks (R52-R63). -/
namespace Sys2Proof.Machine

def ceilDiv (a b : Nat) : Nat := (a + b - 1) / b

/-! ## Parameter blocks (R84, R85, R140) -/

def mmVectors (b : Nat) := bits b 0 32
def mmN (b : Nat) := bits b 32 32
def mmCols (b : Nat) := bits b 64 32
def mmPer (b : Nat) := bits b 96 16

def slCode (b : Nat) := bits b 0 6
def slRegs (b : Nat) := bits b 8 8
def slCodeOff (b : Nat) := bits b 32 32
def slThreads (b : Nat) := bits b 64 16 * bits b 80 16 * bits b 96 16
def slMem (b : Nat) := bits b 112 16 * 256
def slGridX (b : Nat) := bits b 128 32
def slGridY (b : Nat) := bits b 160 16
def slGridZ (b : Nat) := bits b 176 16
def slBind (b : Nat) := bits b 192 6
def slBindCount (b : Nat) := bits b 208 16
def slBindOff (b : Nat) := bits b 224 32

def cbBatch (b : Nat) := bits b 0 16
def cbHIn (b : Nat) := bits b 16 16
def cbWIn (b : Nat) := bits b 32 16
def cbCIn (b : Nat) := bits b 48 16
def cbHOut (b : Nat) := bits b 64 16
def cbWOut (b : Nat) := bits b 80 16
def cbCOut (b : Nat) := bits b 96 16
def cbGroups (b : Nat) := bits b 112 16
def cbKH (b : Nat) := bits b 128 8
def cbKW (b : Nat) := bits b 136 8
def cbSH (b : Nat) := bits b 144 8
def cbSW (b : Nat) := bits b 152 8
def cbDH (b : Nat) := bits b 160 8
def cbDW (b : Nat) := bits b 168 8
def cbOPH (b : Nat) := bits b 176 8
def cbOPW (b : Nat) := bits b 184 8
def cbPT (b : Nat) := bits b 192 8
def cbPB (b : Nat) := bits b 200 8
def cbPL (b : Nat) := bits b 208 8
def cbPR (b : Nat) := bits b 216 8
def cbOp (b : Nat) := bits b 224 4
def cbPadMode (b : Nat) := bits b 228 2
def cbTransposed (b : Nat) := bits b 230 1
def cbCeil (b : Nat) := bits b 231 1
def cbCountPad (b : Nat) := bits b 232 1
def cbCoord (b : Nat) := bits b 233 2
def cbOrder (b : Nat) := bits b 235 2
def cbPack (b : Nat) := bits b 240 8
def cbPane (b : Nat) := bits b 248 8
def cbPadValue (b : Nat) := bits b 256 32
def cbRows (b : Nat) := bits b 288 16
def cbChans (b : Nat) := bits b 304 16
def cbIdxH (b : Nat) := bits b 320 6
def cbIdxOff (b : Nat) := bits b 352 32

/-- Input channels of a group. -/
def cbGIn (b : Nat) : Nat := cbCIn b / Nat.max (cbGroups b) 1
/-- Window extent E = dil × (k − 1) + 1. -/
def winE (dil k : Nat) : Nat := dil * (k - 1) + 1
def cbEH (b : Nat) : Nat := winE (cbDH b) (cbKH b)
def cbEW (b : Nat) : Nat := winE (cbDW b) (cbKW b)
/-- A pool that takes a window (R146). -/
def cbIsPool (b : Nat) : Bool := decide (1 ≤ cbOp b) && decide (cbOp b ≤ 3)
def cbIsGlobal (b : Nat) : Bool := cbOp b = 4 || cbOp b = 5
def cbIsResize (b : Nat) : Bool := cbOp b = 6 || cbOp b = 7

/-- Output size of a direct window (R147, R148). A stride of 0 is no size: step 5 refuses it (R143), so it may not look like an empty output before. -/
def outDirect (inn pb pa e stride : Nat) (ceil : Bool) : Nat :=
  let a := inn + pb + pa
  if a < e then 0
  else if stride = 0 then 1
  else if ceil then
    let o := ceilDiv (a - e) stride + 1
    if inn + pb ≤ (o - 1) * stride then o - 1 else o
  else (a - e) / stride + 1

/-- Output size of a transposed convolution (R149). -/
def outTransposed (inn pb pa e stride outPad : Nat) : Nat :=
  (((inn : Int) - 1) * stride - pb - pa + e + outPad).toNat

/-- The computed output height and width (R147-R149). -/
def cbComputed (b : Nat) : Nat × Nat :=
  if cbIsGlobal b then (1, 1)
  else if cbIsResize b then (cbHOut b, cbWOut b)
  else if cbOp b = 0 && cbTransposed b = 1 then
    (outTransposed (cbHIn b) (cbPT b) (cbPB b) (cbEH b) (cbSH b) (cbOPH b), outTransposed (cbWIn b) (cbPL b) (cbPR b) (cbEW b) (cbSW b) (cbOPW b))
  else
    let c := cbIsPool b && cbCeil b = 1
    (outDirect (cbHIn b) (cbPT b) (cbPB b) (cbEH b) (cbSH b) c, outDirect (cbWIn b) (cbPL b) (cbPR b) (cbEW b) (cbSW b) c)

/-- Row bands and channel groups of a command (R141). -/
def cbBands (b : Nat) : Nat := ceilDiv (cbHOut b) (Nat.max (cbRows b) 1)
def cbGrps (b : Nat) : Nat := ceilDiv (cbCOut b) (Nat.max (cbChans b) 1)

/-- Image, band and channel group of a tile (R141). -/
def cbTile (b t : Nat) : Nat × Nat × Nat :=
  let r := cbBands b
  let g := cbGrps b
  let rem := t % (r * g)
  let x := if cbOrder b = 0 || cbOrder b = 2 then (rem / g, rem % g) else (rem % r, rem / r)
  let y := if 2 ≤ cbOrder b then (r - 1 - x.1, g - 1 - x.2) else x
  (t / (r * g), y.1, y.2)

/-! ## Tensor geometry (R526, R38) -/

/-- Layout and sizes of a dense tensor. -/
structure Geo where
  layout : Nat
  n : Nat
  h : Nat
  w : Nat
  c : Nat
deriving DecidableEq, Repr

def Geo.blocked (g : Geo) : Bool := g.layout = 1 || g.layout = 2
def Geo.beta (g : Geo) : Nat := if g.layout = 1 then 16 else 32
def Geo.cb (g : Geo) : Nat := ceilDiv g.c g.beta

/-- Element index of (b, y, x, k). -/
def Geo.elem (g : Geo) (b y x k : Nat) : Nat :=
  if g.blocked then (((b * g.cb + k / g.beta) * g.h + y) * g.w + x) * g.beta + k % g.beta
  else ((b * g.h + y) * g.w + x) * g.c + k

/-- Block number of the element: also the place of its ledger byte and FP4 scale byte. -/
def Geo.blk (g : Geo) (b y x k : Nat) : Nat :=
  if g.blocked then ((b * g.cb + k / g.beta) * g.h + y) * g.w + x
  else ((b * g.h + y) * g.w + x) * ceilDiv g.c 32 + k / 32

def Geo.elems (g : Geo) : Nat := if g.blocked then g.n * g.cb * g.h * g.w * g.beta else g.n * g.h * g.w * g.c
def Geo.blocks (g : Geo) : Nat := if g.blocked then g.n * g.cb * g.h * g.w else g.n * g.h * g.w * ceilDiv g.c 32
/-- Bytes of the data plane. -/
def Geo.bytes (g : Geo) (fmt : Nat) : Nat := if fmt = 6 then 16 * g.blocks else g.elems * (fmtBits fmt / 8)

/-! ## Operands -/

def Core.handle (c : Core) (k : Nat) : Nat := if k = 0x3F then 0 else kget (fun _ => 0) c.handles k

/-- A running Kerbel command seen by its engines: the core and the command. -/
structure Kb where
  s : State
  h : Nat
  p : Nat
  d : Nat
  b : Nat

def Kb.core (k : Kb) : Core := (k.s.half k.h).core k.p
/-- `n` bytes at an offset of a buffer, little-endian. -/
def Kb.get (k : Kb) (handle off n : Nat) : Nat := leNat (k.s.hRd k.h k.p (k.core.handle handle) off n)
def Kb.slot (k : Kb) (i : Nat) : Nat := dSlot k.d i
def Kb.isMm (k : Kb) : Bool := dOpcode k.d = 1
def Kb.isDg (k : Kb) : Bool := dOpcode k.d = 3
/-- Whether the command uses weights. -/
def Kb.weighted (k : Kb) : Bool := k.isMm || cbOp k.b = 0

def Kb.gIn (k : Kb) : Geo :=
  if k.isMm then ⟨tLayout (k.slot 0), 1, 1, mmVectors k.b, mmN k.b⟩
  else ⟨tLayout (k.slot 0), cbBatch k.b, cbHIn k.b, cbWIn k.b, cbCIn k.b⟩
def Kb.gOut (k : Kb) : Geo :=
  if k.isMm then ⟨tLayout (k.slot 3), 1, 1, mmVectors k.b, mmCols k.b⟩
  else ⟨tLayout (k.slot 3), cbBatch k.b, cbHOut k.b, cbWOut k.b, cbCOut k.b⟩
def Kb.pack (k : Kb) : Nat := if dOpcode k.d = 2 then Nat.max (cbPack k.b) 1 else 1
/-- Columns of the window that a reduction folds: the kernel's, or those of the widened window (R165). -/
def Kb.kw (k : Kb) : Nat := if k.pack = 1 then cbKW k.b else cbEW k.b + (k.pack - 1) * cbSW k.b
/-- The output column of channel `j` at output column position `x`: with out_pack the position in the pack selects it (R69, R165). -/
def Kb.col (k : Kb) (x j : Nat) : Nat := x % k.pack * cbCOut k.b + j
/-- Output columns of the weight block, C_T of R69. -/
def Kb.cT (k : Kb) : Nat := if k.isMm then mmCols k.b else cbCOut k.b * k.pack
/-- Length of one output column's weights, padding channels included (R162). -/
def Kb.wLen (k : Kb) : Nat :=
  if k.isMm then mmN k.b
  else if k.gIn.blocked then ceilDiv (cbGIn k.b) k.gIn.beta * k.gIn.beta * cbKH k.b * k.kw else cbKH k.b * k.kw * cbGIn k.b
/-- The weights as one pixel per output column (R526). R142 gives slot 1 of a convolution no row, so its gather layout is read as NHWC (DESIGN CHOICE, log
entry 140). -/
def Kb.gW (k : Kb) : Geo := ⟨tLayout (k.slot 1), 1, 1, k.cT, k.wLen⟩
/-- Input blocks of one pixel's channels that a group touches. -/
def Kb.pixBlocks (k : Kb) (grp : Nat) : Nat :=
  let g := k.gIn
  (grp * cbGIn k.b + cbGIn k.b - 1) / g.beta - grp * cbGIn k.b / g.beta + 1
/-- Rows of T (R69). -/
def Kb.tRows (k : Kb) : Nat :=
  if k.isMm then ceilDiv (mmN k.b) k.gIn.beta
  else if k.isDg then 1
  else (List.range (Nat.max (cbGroups k.b) 1)).foldl (fun m grp => Nat.max m (k.pixBlocks grp)) 1 * cbKH k.b * k.kw
/-- Reduction length of a direct output: the widened window where one is folded (R165). -/
def Kb.redLen (k : Kb) : Nat := if k.isMm then mmN k.b else cbKH k.b * k.kw * cbGIn k.b

/-- T is needed (R69). -/
def Kb.needT (k : Kb) : Bool := k.weighted && decide (dGrade k.d ≠ 0) && decide (tLedOn (k.slot 0) = 1)
/-- The output ledger plane is written (R53, R58). -/
def Kb.ledOut (k : Kb) : Bool := decide (dGrade k.d ≠ 0) && decide (tLedOn (k.slot 3) = 1)

/-- The scale of an INT8 tensor for an output column (R40, R83). -/
def Kb.scale (k : Kb) (i col : Nat) : Num :=
  let t := k.slot i
  decodeFloat 0 (if tPerCol t = 1 then k.get (tHandle t) (tScale t + 4 * col) 4 else tScale t)

/-- One element read from a tensor: its value in real units, its unscaled value, its bits, its FP4 scale exponent, its block, its ledger byte. -/
structure Opd where
  real : Num
  raw : Num
  code : Nat                  -- the element's bits
  sc : Int
  blk : Nat
  led : Nat
deriving DecidableEq, Repr

/-- An element of a data plane at element place `el` of block `bk`; `byteBase` is the plane's offset. -/
def Kb.fetch (k : Kb) (t fmt byteBase el pos bk : Nat) (scale : Num) (led : Nat) : Opd :=
  if fmt = 6 then
    let w := k.get (tHandle t) (byteBase + 16 * bk + pos / 2) 1
    let s := k.get (tHandle t) (tScale t + bk) 1
    let w4 := bits w (4 * (pos % 2)) 4
    let v := if s = 0xFF then Num.nan else decodeFloat 6 w4
    let e : Int := (s : Int) - 127
    ⟨v.mulX (.fin false 1 e), v, w4, e, bk, led⟩
  else
    let n := fmtBits fmt / 8
    let w := k.get (tHandle t) (byteBase + el * n) n
    if fmt = 5 then
      let q := sext8 w
      ⟨int8Val q scale, .fin (decide (q < 0)) q.natAbs 0, w, 0, bk, led⟩
    else ⟨decodeFloat fmt w, decodeFloat fmt w, w, 0, bk, led⟩

/-- The ledger byte of block `bk` of slot 0; a tensor without a plane reads as 0x00 (R58). -/
def Kb.inLed (k : Kb) (bk : Nat) : Nat :=
  let t := k.slot 0
  if tLedOn t = 1 then k.get (tLedHandle t) (tLedOff t + bk) 1 else 0

/-- The constant of a padding element in the activation format (R145, R146). The block scale of an FP4 constant is not stated: the one that R50 gives the
constant alone (DESIGN CHOICE, log entry 139). -/
def Kb.padOpd (k : Kb) (bk col : Nat) : Opd :=
  let v := if cbPadMode k.b = 1 then decodeFloat 0 (cbPadValue k.b) else .zero
  let f := dActFmt k.d
  if f = 5 then
    let w := (convInt8 false (k.scale 0 col) v).w
    let q := sext8 w
    ⟨int8Val q (k.scale 0 col), .fin (decide (q < 0)) q.natAbs 0, w, 0, bk, 1⟩
  else if f = 6 then
    let c := (convFp4 false [v] 0).1
    let w := decodeFloat 6 (c.codes.getD 0 0)
    let e : Int := (c.scale : Int) - 127
    ⟨w.mulX (.fin false 1 e), w, c.codes.getD 0 0, e, bk, 1⟩
  else let w := (convFloat f false false v).w; ⟨decodeFloat f w, decodeFloat f w, w, 0, bk, 1⟩

/-- Byte offset of a gather pixel from the tensor's offset; none: absent (R163). -/
def Kb.gatherOff (k : Kb) (b y x : Nat) : Option Nat :=
  let v := k.get (cbIdxH k.b) (cbIdxOff k.b + 4 * ((b * cbHIn k.b + y) * cbWIn k.b + x)) 4
  if v = 0xFFFFFFFF then none else some v

/-- The input element (b, y, x, c), or the padding element an absent gather pixel reads as. The FP4 scale bytes of a gather input lie in the order of its logical
pixels, as its ledger plane does (log entry 166). -/
def Kb.input (k : Kb) (b y x c col : Nat) : Opd :=
  let g := k.gIn
  let bk := g.blk b y x c
  let t := k.slot 0
  let f := dActFmt k.d
  if g.layout = 3 then
    match k.gatherOff b y x with
    | none => k.padOpd bk col
    | some o =>
      if f = 6 then
        let w := k.get (tHandle t) (tOff t + o + 16 * (c / 32) + c % 32 / 2) 1
        let s := k.get (tHandle t) (tScale t + bk) 1
        let w4 := bits w (4 * (c % 2)) 4
        let v := if s = 0xFF then Num.nan else decodeFloat 6 w4
        ⟨v.mulX (.fin false 1 ((s : Int) - 127)), v, w4, (s : Int) - 127, bk, k.inLed bk⟩
      else k.fetch t f (tOff t + o) c 0 bk (k.scale 0 col) (k.inLed bk)
  else k.fetch t f (tOff t) (g.elem b y x c) (c % g.beta) bk (k.scale 0 col) (k.inLed bk)

/-- The weight of output column `col` at fold place `i`. -/
def Kb.weight (k : Kb) (col i : Nat) : Opd :=
  let g := k.gW
  let t := k.slot 1
  k.fetch t (dWgtFmt k.d) (tOff t) (g.elem 0 0 col i) (i % g.beta) (g.blk 0 0 col i) (k.scale 1 col) 1

/-! ## Padding (R145) -/

/-- The element at index `i` of an axis of length `l`: none is a padding element of its own. -/
def padMap (mode l : Nat) (i : Int) : Option Nat :=
  if 0 ≤ i && i < l then some i.toNat
  else if mode = 2 then some (if i < 0 then 0 else l - 1)
  else if mode = 3 then some (if i < 0 then i.natAbs else l - 1 - (i.toNat - (l - 1)))
  else none

/-! ## Reductions -/

/-- One product of an output's reduction: the weight's place in the fold, the row of T, the block identity of the tap, and the activation. -/
structure Tap where
  fold : Nat
  row : Nat
  a : Opd
deriving DecidableEq, Repr

/-- Whether a column of the widened window is a tap of some output of the pack (R152, R165). -/
def Kb.tapUsed (k : Kb) (x0 px : Nat) : Bool :=
  k.pack = 1 || (List.range k.pack).any fun q =>
    decide (x0 + q < cbWOut k.b) && decide (q * cbSW k.b ≤ px) && decide ((px - q * cbSW k.b) % Nat.max (cbDW k.b) 1 = 0) &&
      decide ((px - q * cbSW k.b) / Nat.max (cbDW k.b) 1 < cbKW k.b)

/-- Input coordinates of tap (ky, px) of output (y, x), direct or transposed: outer none where no product exists (R154), inner none in padding. -/
def Kb.at (k : Kb) (y x ky px : Nat) : Option (Option (Nat × Nat)) :=
  let b := k.b
  if cbTransposed b = 1 && cbOp b = 0 && !k.isDg then
    let ny : Int := (y : Int) + cbPT b - ky * cbDH b
    let nx : Int := (x : Int) + cbPL b - px * cbDW b
    if ny % (cbSH b : Int) = 0 && nx % (cbSW b : Int) = 0 && 0 ≤ ny && 0 ≤ nx && ny / cbSH b < cbHIn b && nx / cbSW b < cbWIn b
    then some (some ((ny / cbSH b).toNat, (nx / cbSW b).toNat)) else none
  else
    let x0 := x / k.pack * k.pack
    if !k.tapUsed x0 px then none else
    let dx := if k.pack = 1 then px * cbDW b else px
    let iy : Int := (y : Int) * cbSH b - cbPT b + ky * cbDH b
    let ix : Int := (x0 : Int) * cbSW b - cbPL b + dx
    match padMap (cbPadMode b) (cbHIn b) iy, padMap (cbPadMode b) (cbWIn b) ix with
    | some r, some c => some (some (r, c))
    | _, _ => some none

/-- The taps of the output at (b, y, x) in channel `j` (R162). -/
def Kb.taps (k : Kb) (n y x j : Nat) : List Tap :=
  let g := k.gIn
  if k.isMm then (List.range (mmN k.b)).map fun i => ⟨i, i / g.beta, k.input 0 0 x i j⟩
  else
    let col := k.col x j
    let gi := cbGIn k.b
    let grp := j / Nat.max (cbCOut k.b / Nat.max (cbGroups k.b) 1) 1
    let kw := k.kw
    let nb := k.pixBlocks grp
    let first := grp * gi / g.beta
    (List.range (cbKH k.b)).flatMap fun ky => (List.range kw).flatMap fun px =>
      match k.at y x ky px with
      | none => []
      | some pos => (List.range gi).map fun c' =>
        let c := grp * gi + c'
        let cb := c / g.beta - first
        let row := if g.blocked then (cb * cbKH k.b + ky) * kw + px else (ky * kw + px) * nb + cb
        let fold := if g.blocked then ((c' / g.beta * cbKH k.b + ky) * kw + px) * g.beta + c' % g.beta else (ky * kw + px) * gi + c'
        ⟨fold, row, match pos with
          | some (iy, ix) => k.input n iy ix c col
          | none => k.padOpd (2 ^ 64 + row) col⟩

/-- Partial sums of an FP4 pairing: exact within a pair of blocks, then scaled (R42). -/
def fp4Partials (l : List (Tap × Opd)) : List Num :=
  let keys := (l.map fun t => (t.1.a.blk, t.2.blk)).eraseDups
  keys.map fun key =>
    let m := l.filter fun t => t.1.a.blk = key.1 && t.2.blk = key.2
    let sum := m.foldl (fun acc t => acc.addX (t.1.a.raw.mulX t.2.raw)) Num.zero
    match m with
    | t :: _ => sum.mulX (.fin false 1 (t.1.a.sc + t.2.sc))
    | [] => sum

/-- A term kept as FP32 holds it: above the range an infinity (R43). -/
def rangeF32 (v : Num) : Num :=
  match v with
  | .fin n m e => if (threshold 0 false).le (.pow2 m e) then .inf n else if (Frac.pow2 m e).lt (.pow2 1 (-126)) then toF32 v else v
  | x => x

/-- Each term kept or flushed as a free value chooses (R43). -/
def flushAll (on : Bool) : List Num → Nat → List Num × Nat
  | [], c => ([], c)
  | v :: r, c =>
    let a := flushFree on v c
    let b := flushAll on r a.2
    (rangeF32 a.1 :: b.1, b.2)

/-- The accumulator of an output in FP32, for INT8 already scaled (R42-R46). -/
def Kb.acc (k : Kb) (l : List (Tap × Opd)) (j c : Nat) : Num × Nat :=
  let fa := dActFmt k.d
  let fw := dWgtFmt k.d
  if fa = 5 then
    let sum := l.foldl (fun acc t => acc.addX (t.1.a.raw.mulX t.2.raw)) Num.zero
    (toF32 ((toF32 sum).mulX ((k.scale 0 j).mulX (k.scale 1 j))), c)
  else
    let terms := if fw = 6 then fp4Partials l else l.map fun t => t.1.a.raw.mulX t.2.raw
    let f := flushAll (fa = 2 || fw = 6) terms c
    let r := sum32 f.1 f.2
    (toF32 r.1, r.2)

/-- A magnitude rounded upward to a 4-bit significand (R53). -/
def upNum4 (v : Num) : Num :=
  match v with
  | .fin n m e =>
    let l := Nat.log2 m + 1
    if l ≤ 4 then v else .fin n (ceilDiv m (2 ^ (l - 4))) (e + ((l - 4 : Nat) : Int))
  | x => x

/-- The magnitude sum G_j (R53), none where an operand is infinite. `dgMax` is the largest |a| of the channel over the tile's band in diagonal mode. -/
def Kb.gSum (k : Kb) (l : List (Tap × Opd)) (n : Nat) (dgMax : Option Frac) (c : Nat) : Option Frac × Nat :=
  let wMax := bndMaxAll (l.map fun t => t.2.real.mag?)
  if dGrade k.d = 2 then
    let r := reduceFree (fun a b => upNum4 (a.addX b)) l.length (l.map fun t => upNum4 (t.1.a.real.mulX t.2.real).abs) c
    (r.1.mag?, r.2)
  else if k.isDg then (bndMul (bndMul (some ⟨n, 1⟩) dgMax) wMax, c)
  else (bndMul (l.foldl (fun m t => bndAdd m t.1.a.real.mag?) (some .zero)) wMax, c)

/-- The propagated input bound P_j (R59, R69); none where an input block has no bound or an entry of T is no finite number. -/
def Kb.prop (k : Kb) (l : List Tap) (col : Nat) : Option Frac :=
  let tv (row : Nat) : Option Frac := (decodeFloat 0 (k.get (tHandle (k.slot 4)) (tOff (k.slot 4) + 4 * (row * k.cT + col)) 4)).mag?
  if k.isDg then bndMul (bndMaxAll (l.map fun t => ledBound t.a.led)) (tv 0)
  else
    let rows := (l.map fun t => (t.row, t.a.led)).eraseDups
    rows.foldl (fun m r => bndAdd m (bndMul (ledBound r.2) (tv r.1))) (some Frac.zero)

/-- A weighted output element (R46, R52). A transposed output's reduction length is the count of products that reach it (R154). -/
def Kb.eltW (k : Kb) (n y x j : Nat) (dgMax : Option Frac) (c0 : Nat) : Elt × Nat :=
  let col := k.col x j
  let taps := k.taps n y x j
  let l := taps.map fun t => (t, k.weight col t.fold)
  let a := k.acc l col c0
  let y1 := if dBias k.d = 1 then
      let t := k.slot 2
      a.1.add32 (decodeFloat 0 (k.get (tHandle t) (tOff t + 4 * col) 4))
    else a.1
  let v := activate k.d (dAct k.d) y1 a.2
  let elt (b : Option Frac) : Elt := { x := y1, v := v.1, base := b, coef := .zero, mag := some .zero, copy := none }
  if !k.ledOut then (elt none, v.2) else
  let len := if cbTransposed k.b = 1 && dOpcode k.d = 2 then taps.length else k.redLen
  let g := k.gSum l len dgMax v.2
  let fa := dActFmt k.d
  let gamma := if fa = 5 then bndMul (some (Frac.mul ⟨2, 1⟩ uAcc)) g.1 else
    bndAdd (bndMul (some (Frac.mul ⟨len, 1⟩ uAcc)) g.1) (some (if fa = 2 || dWgtFmt k.d = 6 then .pow2 len (-126) else .zero))
  let b := if k.needT then k.prop taps col else (if taps = [] then some Frac.zero else none)
  let biasTerm := if dBias k.d = 1 then bndMul (some uAcc) y1.mag? else some .zero
  (elt (bndAdd (bndAdd gamma b) biasTerm), g.2)

/-! ## Pools and resizes (R155-R160) -/

/-- The input elements of a pool's window, padding excluded, and the count of AVG_POOL. -/
def Kb.window (k : Kb) (n y x c : Nat) : List Opd × Nat :=
  let b := k.b
  if cbIsGlobal b then
    ((List.range (cbHIn b)).flatMap fun iy => (List.range (cbWIn b)).map fun ix => k.input n iy ix c c, cbHIn b * cbWIn b)
  else
    let pos := (List.range (cbKH b)).flatMap fun ky => (List.range (cbKW b)).map fun kx =>
      (((y * cbSH b + ky * cbDH b : Nat) : Int) - cbPT b, ((x * cbSW b + kx * cbDW b : Nat) : Int) - cbPL b)
    let ins := pos.filter fun q => decide (0 ≤ q.1) && decide (q.1 < (cbHIn b : Int)) && decide (0 ≤ q.2) && decide (q.2 < (cbWIn b : Int))
    let padded := pos.filter fun q => decide (q.1 < ((cbHIn b + cbPB b : Nat) : Int)) && decide (q.2 < ((cbWIn b + cbPR b : Nat) : Int))
    (ins.map fun q => k.input n q.1.toNat q.2.toNat c c, if cbCountPad b = 1 then padded.length else ins.length)

/-- Source coordinate of an output index as a fraction (R158). -/
def srcCoord (mode x inn out : Nat) : Int × Nat :=
  match mode with
  | 0 => (((2 * x + 1) * inn : Nat) - (out : Int), 2 * out)
  | 1 => if out = 1 then (0, 1) else (((x * (inn - 1) : Nat) : Int), out - 1)
  | _ => (((x * inn : Nat) : Int), out)

/-- The input index of RESIZE_NEAREST (R159). -/
def nearestIdx (mode x inn out : Nat) : Nat :=
  let s := srcCoord mode x inn out
  let i := if mode = 2 then s.1 / s.2 else (2 * s.1 + s.2) / (2 * s.2)
  Nat.min i.toNat (inn - 1)

/-- The lower index, the upper index and the fraction of RESIZE_BILINEAR (R160). -/
def bilinearIdx (mode x inn out : Nat) : Nat × Nat × Num :=
  let s := srcCoord mode x inn out
  let num := min (max s.1 0) (((inn - 1) * s.2 : Nat) : Int)
  let i := (num / s.2).toNat
  (i, Nat.min (i + 1) (inn - 1), fracF32 false ⟨(num % s.2).toNat, s.2⟩)

/-- One linear interpolation in FP32. -/
def lerp32 (f a b : Num) : Num :=
  ((Num.one.add32 f.negate).mul32 a).add32 (f.mul32 b)

/-- The largest decoded bound of a set of inputs; none where one has no bound. -/
def maxLed (l : List Nat) : Option Frac := bndMaxAll (l.map ledBound)

/-- The input coordinates of a resize's output: one of a nearest resize, four corners of a bilinear one (R159, R160). -/
def Kb.corners (k : Kb) (y x : Nat) : List (Nat × Nat) :=
  let b := k.b
  if cbOp b = 6 then [(nearestIdx (cbCoord b) y (cbHIn b) (cbHOut b), nearestIdx (cbCoord b) x (cbWIn b) (cbWOut b))]
  else
    let fy := bilinearIdx (cbCoord b) y (cbHIn b) (cbHOut b)
    let fx := bilinearIdx (cbCoord b) x (cbWIn b) (cbWOut b)
    [(fy.1, fx.1), (fy.1, fx.2.1), (fy.2.1, fx.1), (fy.2.1, fx.2.1)]

/-- A nearest resize copies its elements' bits: source and output formats and scales agree (R159). FP4 elements pass through R50's block scale. -/
def Kb.copies (k : Kb) : Bool :=
  cbOp k.b = 6 && !k.weighted && decide (dActFmt k.d = dOutFmt k.d) && decide (dOutFmt k.d ≠ 6) &&
    (decide (dOutFmt k.d ≠ 5) || (decide (tPerCol (k.slot 0) = 0) && decide (tPerCol (k.slot 3) = 0) && decide (tScale (k.slot 0) = tScale (k.slot 3))))

/-- An element of a pool or resize, with its bound of R63 before the output format's term. A dilated window may hold no input element although each padding
is below E: its value and its bound are then free values (log entry 141). -/
def Kb.eltP (k : Kb) (n y x c ctr : Nat) : Elt × Nat :=
  let b := k.b
  let elt (v : Num) (base : Option Frac) (coef : Frac) (mag : Option Frac) : Elt := { x := v, v := v, base := base, coef := coef, mag := mag, copy := none }
  if cbOp b = 6 then
    let q := (k.corners y x).getD 0 (0, 0)
    let o := k.input n q.1 q.2 c c
    ({ elt o.real (ledBound o.led) .zero (some .zero) with copy := if k.copies then some o.code else none }, ctr)
  else if cbOp b = 7 then
    let fy := bilinearIdx (cbCoord b) y (cbHIn b) (cbHOut b)
    let fx := bilinearIdx (cbCoord b) x (cbWIn b) (cbWOut b)
    let qs := (k.corners y x).map fun q => k.input n q.1 q.2 c c
    let q (i : Nat) : Num := (qs.map (·.real)).getD i .zero
    let v := if Config.free ctr % 2 = 0
      then lerp32 fy.2.2 (lerp32 fx.2.2 (q 0) (q 1)) (lerp32 fx.2.2 (q 2) (q 3))
      else lerp32 fx.2.2 (lerp32 fy.2.2 (q 0) (q 2)) (lerp32 fy.2.2 (q 1) (q 3))
    (elt v (maxLed (qs.map (·.led))) (Frac.mul ⟨8, 1⟩ uAcc) (bndMaxAll (qs.map fun o => o.real.mag?)), ctr + 1)
  else
    let w := k.window n y x c
    let led := maxLed (w.1.map (·.led))
    let isMin := cbOp b = 2
    if w.1 = [] then
      (elt (freeF32 ctr) (ledBound (Config.free (ctr + 1) % 256)) .zero (some .zero), ctr + 2)
    else if cbOp b = 3 || cbOp b = 4 then
      let s := sum32 (w.1.map (·.real)) ctr
      let v := (toF32 s.1).mul32 (fracF32 false ⟨1, Nat.max w.2 1⟩)
      (elt v led (Frac.mul ⟨w.2 + 1, 1⟩ uAcc) (bndMaxAll (w.1.map fun o => o.real.mag?)), s.2)
    else
      let v := if w.1.any fun q => q.real = .nan then Num.nan else
        match w.1.map (·.real) with
        | [] => .zero
        | f :: r => r.foldl (fun a q => if (if isMin then q.before a else a.before q) then q else a) f
      (elt v led .zero (some .zero), ctr)

/-! ## Output blocks -/

/-- A part of an output block that one tile writes: its place, its first channel, its channels, and the padding positions after them (R526). -/
structure OBlk where
  n : Nat
  y : Nat
  x : Nat
  c0 : Nat
  len : Nat
  pad : Nat
deriving DecidableEq, Repr

/-- The output rows, columns and channels of a tile: image, first row, rows, first column, columns, first channel, channels. -/
def Kb.tileRange (k : Kb) (t : Nat) : Nat × Nat × Nat × Nat × Nat × Nat × Nat :=
  if k.isMm then
    let per := mmPer k.b
    (0, 0, 1, t * per, Nat.min per (mmVectors k.b - t * per), 0, mmCols k.b)
  else
    let (n, band, grp) := cbTile k.b t
    (n, band * cbRows k.b, Nat.min (cbRows k.b) (cbHOut k.b - band * cbRows k.b), 0, cbWOut k.b, grp * cbChans k.b,
      Nat.min (cbChans k.b) (cbCOut k.b - grp * cbChans k.b))

/-- The block parts of a tile's outputs, in memory order within the tile. -/
def Kb.oblks (k : Kb) (t : Nat) : List OBlk :=
  let (n, y0, ny, x0, nx, c0, nc) := k.tileRange t
  let g := k.gOut
  let cs := (List.range (ceilDiv (c0 + nc) g.beta - c0 / g.beta)).map fun i =>
    let lo := Nat.max c0 ((c0 / g.beta + i) * g.beta)
    let hi := Nat.min (c0 + nc) ((c0 / g.beta + i + 1) * g.beta)
    (lo, hi - lo, if g.blocked && hi = g.c then (c0 / g.beta + i + 1) * g.beta - hi else 0)
  (List.range ny).flatMap fun y => (List.range nx).flatMap fun x => cs.map fun c => ⟨n, y0 + y, x0 + x, c.1, c.2.1, c.2.2⟩

/-- A write of the output stage: handle, offset, bytes. -/
structure KWr where
  handle : Nat
  off : Nat
  data : List Byte
deriving DecidableEq, Repr

/-- The ledger byte places of a tile's output blocks. -/
def Kb.ledPlaces (k : Kb) (t : Nat) : List (Nat × Nat) :=
  if !k.ledOut then [] else
  (k.oblks t).map fun o => (tLedHandle (k.slot 3), tLedOff (k.slot 3) + k.gOut.blk o.n o.y o.x o.c0)

/-- Two FP4 codes to a byte. -/
def packNibbles (l : List Nat) : List Byte :=
  match l with
  | [] => []
  | [a] => [BitVec.ofNat 8 a]
  | a :: b :: r => BitVec.ofNat 8 (a + 16 * b) :: packNibbles r

/-- What a tile's engines leave: writes in order, saturation and invalid events, the elements of blocks that it writes in part (block, place, element), the
advanced counter. -/
structure KOut where
  wr : List KWr
  sat : Nat
  inv : Nat
  parts : List (Nat × Nat × Elt)
  ctr : Nat

/-- The output elements of one block part. -/
def Kb.elts (k : Kb) (o : OBlk) (dg : Nat → Option Frac) : List Nat → Nat → List Elt × Nat
  | [], c => ([], c)
  | i :: r, c =>
    let a := if k.weighted then k.eltW o.n o.y o.x (o.c0 + i) (dg (o.c0 + i)) c else k.eltP o.n o.y o.x (o.c0 + i) c
    let b := k.elts o dg r a.2
    (a.1 :: b.1, b.2)

/-- Two values are the same number. -/
def Num.same (a b : Num) : Bool :=
  match a, b with
  | .fin n m e, .fin n' m' e' => (n = n' || m = 0) && (Frac.pow2 m e).le (.pow2 m' e') && (Frac.pow2 m' e').le (.pow2 m e)
  | x, y => x = y

/-- The largest L_j of a block and whether only its last step rounds (R52, R54, R62, R63). `s j` is the INT8 output scale of element j or the FP4 block scale;
`moved` tells that every element is written unchanged. -/
def Kb.blockBound (k : Kb) (es : List Elt) (s : Nat → Frac) (moved : Bool) : Option Frac × Bool :=
  let code := dOutFmt k.d
  let rtz := decide (dRound k.d = 1)
  let mx := bndMaxAll (es.map fun e => e.x.mag?)
  let mv := bndMaxAll (es.map fun e => e.v.mag?)
  let mi := bndMaxAll (es.map (·.mag))
  let conv (j : Nat) := bndAdd (bndMul (some (uOut code rtz)) mv) (some (etaOut code rtz (s j)))
  let one (j : Nat) (e : Elt) : Option Frac :=
    if k.weighted then bndAdd (bndAdd (bndMul (some (actLip (dAct k.d) k.d)) e.base) (actEps (dAct k.d) mx)) (conv j)
    else
      let own := bndAdd e.base (bndMul (some e.coef) mi)
      if moved || code = 0 then own else bndAdd own (conv j)
  (bndMaxAll ((List.range es.length).zip es |>.map fun e => one e.1 e.2),
   !k.weighted && es.all (fun e => e.coef = .zero) && (moved || code = 0 || mv = some .zero || es.all fun e => e.v.isZero))

/-- The ledger byte of a block: 0x00 where it holds a special value or an event (R56). -/
def Kb.ledByte (k : Kb) (es : List Elt) (s : Nat → Frac) (moved event : Bool) (c : Nat) : Nat × Nat :=
  if event || es.any fun e => !e.v.finite then (0, c) else
  let b := k.blockBound es s moved
  match b.1 with
  | none => (0, c)
  | some l => ledEncodeFree b.2 l c

/-- The writes of an FP4 block of `n` elements whose codes at some places are known: a whole block with its unused nibbles zero (R39), otherwise the bytes of
the known places, the other nibbles kept. -/
def Kb.nibbles (k : Kb) (handle off n : Nat) (codes : List (Nat × Nat)) : List KWr :=
  let code (i : Nat) : Option Nat := (codes.find? fun q => q.1 = i).map (·.2)
  if codes.length = n then [⟨handle, off, packNibbles (codes.map (·.2) ++ List.replicate (32 - n) 0)⟩]
  else (List.range 16).filterMap fun j =>
    match code (2 * j), code (2 * j + 1) with
    | none, none => none
    | a, b =>
      let old := k.get handle (off + j) 1
      some ⟨handle, off + j, [BitVec.ofNat 8 (a.getD (old % 16) + 16 * b.getD (old / 16))]⟩

/-- Elements of an output block: the block's channels that the tensor has. -/
def Kb.blockLen (k : Kb) (c0 : Nat) : Nat := Nat.min k.gOut.beta (k.gOut.c - c0 / k.gOut.beta * k.gOut.beta)

/-- The elements of block `bk` that kept tiles have written, with their places. -/
def Kb.held (k : Kb) (bk : Nat) : List (Nat × Elt) :=
  match k.core.run with
  | some r => (r.parts.filter fun q => q.1 ≠ r.tile && q.2.1 = bk).map fun q => q.2.2
  | none => []

/-- The elements of an output block that are written once this tile has written its own, in order of their places. -/
def Kb.known (k : Kb) (o : OBlk) (own : List Elt) : List (Nat × Elt) :=
  let first := o.c0 % k.gOut.beta
  let all := (List.range own.length).zipWith (fun i e => (first + i, e)) own ++ k.held (k.gOut.blk o.n o.y o.x o.c0)
  (List.range (k.blockLen o.c0)).filterMap fun i => all.find? fun q => q.1 = i

/-- The bits of an element of an output block in a format other than FP4; `j` is its place. -/
def Kb.convert (k : Kb) (o : OBlk) (j : Nat) (e : Elt) : Conv :=
  let code := dOutFmt k.d
  let rtz := decide (dRound k.d = 1)
  match e.copy with
  | some w => ⟨w, false, e.v = .nan⟩
  | none =>
    if code = 5 then convInt8 rtz (k.scale 3 (k.col o.x (o.c0 / k.gOut.beta * k.gOut.beta + j))) e.v else convFloat code rtz (decide (dSat k.d = 1)) e.v

/-- One block part converted and written: data, then scale byte, then ledger byte (R46-R58). Where more than one tile writes a block, an FP4 scale is that of the
elements written so far, the codes of earlier ones being written again under it, and the ledger byte comes with the block's last element (log entry 24). -/
def Kb.block (k : Kb) (o : OBlk) (dg : Nat → Option Frac) (ctr : Nat) : KOut :=
  let code := dOutFmt k.d
  let rtz := decide (dRound k.d = 1)
  let t := k.slot 3
  let g := k.gOut
  let r := k.elts o dg (List.range o.len) ctr
  let bk := g.blk o.n o.y o.x o.c0
  let first := o.c0 % g.beta
  let n := k.blockLen o.c0
  let all := k.known o r.1
  let es := all.map (·.2)
  let whole := decide (all.length = n)
  let own (i : Nat) : Bool := decide (first ≤ i) && decide (i < first + o.len)
  let led (s : Nat → Frac) (moved event : Bool) (c : Nat) : List KWr × Nat :=
    if k.ledOut && whole then
      let b := k.ledByte es s moved event c
      ([⟨tLedHandle t, tLedOff t + bk, [BitVec.ofNat 8 b.1]⟩], b.2)
    else ([], c)
  let parts := if o.len = n then [] else (all.filter fun q => own q.1).map fun q => (bk, q.1, q.2)
  if code = 6 then
    let q := convFp4 rtz (es.map (·.v)) r.2
    let codes := all.zipWith (fun e c => (e.1, c)) q.1.codes
    let val (c : Nat) : Num := (decodeFloat 6 c).mulX (.fin false 1 ((q.1.scale : Int) - 127))
    let moved := cbOp k.b = 6 && !k.weighted && dActFmt k.d = 6 && (es.zip q.1.codes).all fun e => (val e.2).same e.1.v
    let l := led (fun _ => .pow2 1 ((q.1.scale : Int) - 127)) moved (q.1.sats.any id) q.2
    { wr := k.nibbles (tHandle t) (tOff t + 16 * bk) n codes ++ [⟨tHandle t, tScale t + bk, [BitVec.ofNat 8 q.1.scale]⟩] ++ l.1
      sat := ((all.zip q.1.sats).filter fun e => own e.1.1 && e.2).length
      inv := if q.1.isNan && (k.held bk).all (fun e => e.2.v.finite) then 1 else 0
      parts := parts, ctr := l.2 }
  else
    let cv := all.map fun e => (e.1, k.convert o e.1 e.2)
    let mine := (cv.filter fun c => own c.1).map (·.2)
    let s (j : Nat) : Frac := if code = 5 then (k.scale 3 (k.col o.x (o.c0 / g.beta * g.beta + j))).mag else .zero
    let l := led s k.copies (cv.any fun c => c.2.sat || c.2.inv) r.2
    let w := fmtBits code / 8
    { wr := [⟨tHandle t, tOff t + w * g.elem o.n o.y o.x o.c0, (mine.flatMap fun c => leBytes w c.w) ++ List.replicate (w * o.pad) 0⟩] ++ l.1
      sat := (mine.filter (·.sat)).length, inv := (mine.filter (·.inv)).length, parts := parts, ctr := l.2 }

/-- Block parts in turn. -/
def Kb.run (k : Kb) (dg : Nat → Option Frac) : List OBlk → KOut → KOut
  | [], a => a
  | o :: r, a =>
    let b := k.block o dg a.ctr
    k.run dg r { wr := a.wr ++ b.wr, sat := a.sat + b.sat, inv := a.inv + b.inv, parts := a.parts ++ b.parts, ctr := b.ctr }

/-- Largest |a| of each output channel of the tile over the tile's band in diagonal mode (R53), with the first of those channels. -/
def Kb.dgMaxes (k : Kb) (t : Nat) : Nat × List (Option Frac) :=
  let (n, y0, ny, x0, nx, c0, nc) := k.tileRange t
  if !k.isDg || !k.weighted || !k.ledOut then (c0, []) else
  (c0, (List.range nc).map fun j => (List.range ny).foldl (fun m y => (List.range nx).foldl (fun m x =>
    (k.taps n (y0 + y) (x0 + x) (c0 + j)).foldl (fun m t => bndMax m t.a.real.mag?) m) m) (some Frac.zero))

/-- A tile's outputs. -/
def Kb.tile (k : Kb) (t : Nat) : KOut :=
  let ms := k.dgMaxes t
  k.run (fun j => ms.2.getD (j - ms.1) (some .zero)) (k.oblks t) { wr := [], sat := 0, inv := 0, parts := [], ctr := k.s.freeCtr }

/-! ## What a tile's engines reach (R110, R113, R118, R152) -/

/-- An access of an engine through a handle. -/
structure KAcc where
  handle : Nat
  off : Nat
  n : Nat
  write : Bool
deriving DecidableEq, Repr

/-- The input coordinates (row, column, channel) that the taps of an output use. -/
def Kb.coords (k : Kb) (y x j : Nat) : List (Nat × Nat × Nat) :=
  let b := k.b
  if k.isMm then (List.range (mmN b)).map fun i => (0, x, i)
  else if k.weighted then
    let gi := cbGIn b
    let grp := j / Nat.max (cbCOut b / Nat.max (cbGroups b) 1) 1
    (List.range (cbKH b)).flatMap fun ky => (List.range k.kw).flatMap fun px =>
      match k.at y x ky px with
      | some (some (iy, ix)) => (List.range gi).map fun c => (iy, ix, grp * gi + c)
      | _ => []
  else if cbIsResize b then (k.corners y x).map fun q => (q.1, q.2, j)
  else if cbIsGlobal b then (List.range (cbHIn b)).flatMap fun iy => (List.range (cbWIn b)).map fun ix => (iy, ix, j)
  else (List.range (cbKH b)).flatMap fun ky => (List.range (cbKW b)).filterMap fun kx =>
    let iy : Int := ((y * cbSH b + ky * cbDH b : Nat) : Int) - cbPT b
    let ix : Int := ((x * cbSW b + kx * cbDW b : Nat) : Int) - cbPL b
    if 0 ≤ iy && iy < (cbHIn b : Int) && 0 ≤ ix && ix < (cbWIn b : Int) then some (iy.toNat, ix.toNat, j) else none

/-- What reading an element of a tensor's data plane touches: the element, and its block's scale byte in FP4. -/
def planeAcc (t fmt base el pos bk : Nat) : List KAcc :=
  if fmt = 6 then [⟨tHandle t, base + 16 * bk + pos / 2, 1, false⟩, ⟨tHandle t, tScale t + bk, 1, false⟩]
  else [⟨tHandle t, base + el * (fmtBits fmt / 8), fmtBits fmt / 8, false⟩]

/-- What reading an input element touches: its gather entry, its data, and its ledger byte where a bound is computed. -/
def Kb.inputAcc (k : Kb) (n : Nat) (q : Nat × Nat × Nat) : List KAcc :=
  let g := k.gIn
  let t := k.slot 0
  let f := dActFmt k.d
  let c := q.2.2
  let bk := g.blk n q.1 q.2.1 c
  let led : List KAcc := if k.ledOut && tLedOn t = 1 then [⟨tLedHandle t, tLedOff t + bk, 1, false⟩] else []
  if g.layout = 3 then
    ⟨cbIdxH k.b, cbIdxOff k.b + 4 * ((n * cbHIn k.b + q.1) * cbWIn k.b + q.2.1), 4, false⟩ ::
    (match k.gatherOff n q.1 q.2.1 with
     | none => []
     | some o =>
       (if f = 6 then [⟨tHandle t, tOff t + o + 16 * (c / 32) + c % 32 / 2, 1, false⟩, ⟨tHandle t, tScale t + bk, 1, false⟩]
        else planeAcc t f (tOff t + o) c 0 bk) ++ led)
  else planeAcc t f (tOff t) (g.elem n q.1 q.2.1 c) (c % g.beta) bk ++ led

/-- What the engines of a tile read: inputs that some tap uses (R152), weights, scales, bias and T of the tile's columns. -/
def Kb.reads (k : Kb) (t : Nat) : List KAcc :=
  let outs := (k.oblks t).flatMap fun o => (List.range o.len).map fun i => (o.n, o.y, o.x, o.c0 + i)
  let ins := outs.flatMap fun o => (k.coords o.2.1 o.2.2.1 o.2.2.2).flatMap fun q => k.inputAcc o.1 q
  let cols := (outs.map fun o => k.col o.2.2.1 o.2.2.2).eraseDups
  let w := k.slot 1
  let colScale (i : Nat) (c : Nat) : List KAcc := if tPerCol (k.slot i) = 1 then [⟨tHandle (k.slot i), tScale (k.slot i) + 4 * c, 4, false⟩] else []
  let ws := if !k.weighted then [] else cols.flatMap fun c =>
    ((List.range k.wLen).flatMap fun i => planeAcc w (dWgtFmt k.d) (tOff w) (k.gW.elem 0 0 c i) (i % k.gW.beta) (k.gW.blk 0 0 c i)) ++
    (if dWgtFmt k.d = 5 then colScale 1 c else []) ++
    (if dBias k.d = 1 then [⟨tHandle (k.slot 2), tOff (k.slot 2) + 4 * c, 4, false⟩] else []) ++
    (if k.needT then (List.range k.tRows).map fun r => ⟨tHandle (k.slot 4), tOff (k.slot 4) + 4 * (r * k.cT + c), 4, false⟩ else [])
  let sc := cols.flatMap fun c => (if dActFmt k.d = 5 then colScale 0 c else []) ++ (if dOutFmt k.d = 5 then colScale 3 c else [])
  (ins ++ ws ++ sc).eraseDups

/-- What the output stage of a tile writes: each block part's data, scale byte and ledger byte. -/
def Kb.writes (k : Kb) (t : Nat) : List KAcc :=
  let s := k.slot 3
  let g := k.gOut
  let f := dOutFmt k.d
  (k.oblks t).flatMap fun o =>
    let bk := g.blk o.n o.y o.x o.c0
    let places := (List.range o.len).map (o.c0 % g.beta + ·) ++ (k.held bk).map (·.1)
    let whole := (List.range (k.blockLen o.c0)).all places.contains
    (if f = 6 then
      (if whole then [⟨tHandle s, tOff s + 16 * bk, 16, true⟩]
       else ((places.map (· / 2)).eraseDups).map fun j => ⟨tHandle s, tOff s + 16 * bk + j, 1, true⟩) ++ [⟨tHandle s, tScale s + bk, 1, true⟩]
     else [⟨tHandle s, tOff s + fmtBits f / 8 * g.elem o.n o.y o.x o.c0, fmtBits f / 8 * (o.len + o.pad), true⟩]) ++
    (if k.ledOut && whole then [⟨tLedHandle s, tLedOff s + bk, 1, true⟩] else [])

/-- What a tile's engines find before they write. -/
inductive EngRes where
  | ok
  | wait                      -- a row they reach bears a mark (R113)
  | fail (st : Status)        -- R110, R343
  | err (mem off : Nat)       -- a detected error: memory and row offset (R119)
deriving DecidableEq, Repr

/-- Rows of 128 bytes that a range of a memory touches. -/
def rowsOf (base n : Nat) : List Nat := if n = 0 then [] else (List.range ((base + n - 1) / 128 - base / 128 + 1)).map fun k => base / 128 + k

/-- The Till rows that a list of accesses touches. -/
def Kb.tillRowsOf (k : Kb) (l : List KAcc) : List Nat :=
  (l.flatMap fun a => let x := k.core.handle a.handle; if hMem x = 0 then rowsOf (hBase x + a.off) a.n else []).eraseDups

/-- A byte of memory `m` is written by one of the accesses. -/
def Kb.covers (k : Kb) (l : List KAcc) (m a : Nat) : Bool :=
  l.any fun w => let x := k.core.handle w.handle; w.write && decide (hMem x = m) && decide (hBase x + w.off ≤ a) && decide (a < hBase x + w.off + w.n)

/-- The units of an access that it must read: all of a load, and of a store the rows or words that the tile's stores do not cover whole, which are merged (R101,
R104). -/
def Kb.readUnits (k : Kb) (l : List KAcc) (a : KAcc) : List Nat :=
  let x := k.core.handle a.handle
  let u := codeUnit (hMem x)
  (unitsOf (hMem x) (hBase x + a.off) a.n).filter fun r => !a.write || !(List.range u).all fun i => k.covers l (hMem x) (r * u + i)

/-- The outcome of one access: the memory's refusal, or a detected error in a row that it reads. -/
def Kb.accRes (k : Kb) (l : List KAcc) (a : KAcc) : EngRes :=
  let x := k.core.handle a.handle
  match k.s.hAccess k.h k.p x a.off a.n with
  | .ok => .ok
  | .dataError =>
    (match k.s.detects k.h k.p (hMem x) (k.readUnits l a) with
     | some off => .err (hMem x) off
     | none => .ok)
  | st => .fail st

/-- The checks of a tile's engines, in order: handles, marks, memory. -/
def Kb.engine (k : Kb) (vdi t : Nat) : EngRes :=
  let l := k.reads t ++ k.writes t
  match l.findSome? (fun a => match handleCheck (k.core.handle a.handle) vdi a.off a.n a.write with | .ok => none | st => some st) with
  | some st => .fail st
  | none =>
    if (k.tillRowsOf l).any fun r => kget (fun _ => 0) k.core.rowMark r ≠ 0 then .wait
    else (l.findSome? fun a => match k.accRes l a with | .ok => none | r => some r).getD .ok

/-- The most products that reach one output of a transposed convolution on an axis (R154): over outputs 0 .. out - 1, of `k` taps. -/
def maxReach (inn out k dil stride pad : Nat) : Nat :=
  (List.range out).foldl (fun m (y : Nat) => Nat.max m ((List.range k).filter fun (t : Nat) =>
    let v : Int := ((y + pad : Nat) : Int) - ((t * dil : Nat) : Int)
    decide (0 ≤ v) && decide (v % (stride : Int) = 0) && decide (v / (stride : Int) < inn)).length) 0

/-- The reduction length that R45 limits: the products that reach an output of a transposed convolution (R154), otherwise the kernel's. -/
def Kb.limitLen (k : Kb) : Nat :=
  let b := k.b
  if cbTransposed b = 1 && dOpcode k.d = 2 then
    maxReach (cbHIn b) (cbHOut b) (cbKH b) (cbDH b) (Nat.max (cbSH b) 1) (cbPT b) *
      maxReach (cbWIn b) (cbWOut b) (cbKW b) (cbDW b) (Nat.max (cbSW b) 1) (cbPL b) * cbGIn b
  else cbKH b * cbKW b * cbGIn b

end Sys2Proof.Machine
end

