-- ==== Sys2Proof/Machine/Check.lean ====
section
/-! DEFINITION. The checks a command meets before its first tile (COMMAND_CHECK, R86) and the reads it makes then (R527). -/
namespace Sys2Proof.Machine

/-! ## DMA descriptors (R90, R171) -/

/-- Element size of a format in half bytes. -/
def halfBytes (fmt : Nat) : Nat := fmtBits fmt / 4

/-- Bytes of a block of 32 elements. -/
def blockBytes (fmt : Nat) : Nat := 16 * halfBytes fmt

/-- Block size of each side: a byte copy uses src_fmt on both sides. -/
def mSrcBlock (d : Nat) : Nat := blockBytes (mSrcFmt d)
def mDstBlock (d : Nat) : Nat := blockBytes (if mConvert d = 1 then mDstFmt d else mSrcFmt d)

/-- Bytes of a destination row (R90). -/
def mDstRow (d : Nat) : Nat := if mConvert d = 1 then mRowBytes d * halfBytes (mDstFmt d) / halfBytes (mSrcFmt d) else mRowBytes d

/-- The side of a square channels-to-space group (R171). -/
def mR (d : Nat) : Nat := match mRegroup d with | 1 => 2 | 2 => 4 | _ => 1

/-- The descriptor is a load: its destination is a handle of the core (R91). -/
def mLoad (d : Nat) : Bool := mDstIsH d = 1

/-- An INT8 exponent of a conversion outside -126 .. 127. -/
def badExp (x : Nat) : Bool := x = 0x80 || x = 0x81

/-- A descriptor that R90 or R171 refuses with BAD_ARG. A byte copy uses src_fmt on both sides, where it uses a format at all. -/
def dmaBad (d : Nat) : Bool :=
  let conv := decide (mConvert d = 1)
  let used := conv || mLedger d = 1 || mRegroup d ≠ 0
  decide (mRegroup d = 3) || decide (mPhase d = 3)
    || (used && decide (6 < mSrcFmt d)) || (conv && decide (6 < mDstFmt d))
    || (conv && ((decide (mSrcFmt d = 5) && badExp (mSrcExp d)) || (decide (mDstFmt d = 5) && badExp (mDstExp d))))
    || (decide (mLedger d = 1) && (decide (mRowBytes d % mSrcBlock d ≠ 0) || decide (mSrcStride d % mSrcBlock d ≠ 0)
        || decide (mSrcStep d % mSrcBlock d ≠ 0) || decide (mDstStride d % mDstBlock d ≠ 0) || decide (mDstStep d % mDstBlock d ≠ 0)))
    || (decide (mRegroup d ≠ 0) && (decide (2 * mRowBytes d % (mR d * mR d * halfBytes (mSrcFmt d)) ≠ 0) || decide (mSrcFmt d = 6)
        || (conv && decide (mDstFmt d = 6)) || mLoad d))

/-- The byte span of one side over its rows, beyond its base (tile 0). -/
def mSrcSpan (d : Nat) : Nat := if mRows d = 0 || mRowBytes d = 0 then 0 else (mRows d - 1) * mSrcStride d + mRowBytes d
def mDstSpan (d : Nat) : Nat :=
  if mRows d = 0 || mRowBytes d = 0 then 0
  else if mRegroup d = 0 then (mRows d - 1) * mDstStride d + mDstRow d
  else (mR d - 1) * mDstStride d + mRows d * (mDstRow d / mR d)

/-- Ledger bytes of a whole descriptor. -/
def mSrcLedSpan (d : Nat) : Nat := (mSrcSpan d + mSrcBlock d - 1) / mSrcBlock d
def mDstLedSpan (d : Nat) : Nat := (mDstSpan d + mDstBlock d - 1) / mDstBlock d

/-- The handle sides of a descriptor: handle, offset, size. -/
def dmaHandles (d : Nat) : List (Nat × Nat × Nat) :=
  (if mSrcIsH d = 1 then [(mSrcH d, mSrc d, mSrcSpan d)] else []) ++ (if mDstIsH d = 1 then [(mDstH d, mDst d, mDstSpan d)] else []) ++
  (if mLedger d = 1 && mSrcLed d = 1 && mSrcIsH d = 1 then [(mSrcLedgerH d, mSrcLedger d, mSrcLedSpan d)] else []) ++
  (if mLedger d = 1 && mDstIsH d = 1 then [(mDstLedgerH d, mDstLedger d, mDstLedSpan d)] else [])

/-! ## Parts of R86 -/

def isKerbel (d : Nat) : Bool := dOpcode d = 1 || dOpcode d = 2 || dOpcode d = 3

/-- The pairings of R41. -/
def pairOk (a w : Nat) : Bool :=
  let fp8 (x : Nat) := x = 3 || x = 4
  (fp8 a && (fp8 w || decide (w = 6))) || (decide (a = w) && (decide (a = 5) || decide (a = 6) || decide (a = 1) || decide (a = 2)))

/-- The format codes, ledger grade and activation code of the fields that an opcode uses; `weighted` tells a pool, whose weights are ignored (R139). -/
def codesOk (d : Nat) (weighted : Bool) : Bool :=
  decide (dActFmt d ≤ 6) && (!weighted || decide (dWgtFmt d ≤ 6)) && decide (dOutFmt d ≤ 6) && decide (dGrade d ≠ 3) && decide (dAct d ≤ 8)

/-- Step 1: opcode and reserved codes (R82, R35, R83, R41, R53, R61). SIMT_DISPATCH ignores the slots only. -/
def check1 (d : Nat) (weighted : Bool) : Bool :=
  decide (dOpcode d ≤ 6) && (decide (dOpcode d ≠ 4) || codesOk d true) &&
  (!isKerbel d ||
    (codesOk d weighted && decide (tLayout (dSlot d 0) ≤ 3) && decide (tLayout (dSlot d 3) ≤ 3)
      && (!weighted || (pairOk (dActFmt d) (dWgtFmt d) && decide (tLayout (dSlot d 1) ≤ 3)
          && (decide (dBias d = 0) || decide (tLayout (dSlot d 2) ≤ 3))))))

/-- Bytes of the parameter block of an opcode (R82). -/
def paramBytes (d : Nat) : Nat := match dOpcode d with | 1 => 16 | 2 => 64 | 3 => 64 | 4 => 32 | _ => 0

/-- The scale plane of an FP4 slot, or the scale array of an INT8 slot with a scale per column: handle, offset, size. -/
def Kb.scaleExt (k : Kb) (i fmt blocks : Nat) : List (Nat × Nat × Nat) :=
  let t := k.slot i
  if fmt = 6 then [(tHandle t, tScale t, blocks)]
  else if fmt = 5 && tPerCol t = 1 then [(tHandle t, tScale t, 4 * k.cT)] else []

def Kb.gathers (k : Kb) : Bool := !k.isMm && k.gIn.layout = 3

/-- The buffers that a Kerbel command reads: handle, offset, size. A gather tensor's pixels lie where its index plane says (R163), so no size of it is fixed here. -/
def Kb.inExts (k : Kb) : List (Nat × Nat × Nat) :=
  let gi := k.gIn
  let t (i : Nat) := k.slot i
  (if k.gathers then [(tHandle (t 0), tOff (t 0), 0), (cbIdxH k.b, cbIdxOff k.b, 4 * gi.n * gi.h * gi.w)] else [(tHandle (t 0), tOff (t 0), gi.bytes (dActFmt k.d))]) ++
  k.scaleExt 0 (dActFmt k.d) gi.blocks ++
  (if dGrade k.d ≠ 0 && tLedOn (t 0) = 1 then [(tLedHandle (t 0), tLedOff (t 0), gi.blocks)] else []) ++
  (if k.weighted then [(tHandle (t 1), tOff (t 1), k.gW.bytes (dWgtFmt k.d))] ++ k.scaleExt 1 (dWgtFmt k.d) k.gW.blocks else []) ++
  (if k.weighted && dBias k.d = 1 then [(tHandle (t 2), tOff (t 2), 4 * k.cT)] else []) ++
  (if dOutFmt k.d = 5 then k.scaleExt 3 5 0 else []) ++
  (if k.needT && tHandle (t 4) ≠ 0x3F then [(tHandle (t 4), tOff (t 4), 4 * k.tRows * k.cT)] else [])

/-- The buffers that it writes: the output tensor with its FP4 scale plane, and its ledger plane. -/
def Kb.outExts (k : Kb) : List (Nat × Nat × Nat) :=
  let go := k.gOut
  let t := k.slot 3
  [(tHandle t, tOff t, go.bytes (dOutFmt k.d))] ++ (if dOutFmt k.d = 6 then k.scaleExt 3 6 go.blocks else []) ++
  (if k.ledOut then [(tLedHandle t, tLedOff t, go.blocks)] else [])

def Kb.extents (k : Kb) : List (Nat × Nat × Nat) := k.inExts ++ k.outExts

/-- The pixels of a gather tensor, as its index plane names them when the command is checked: a load of the command itself that rewrites the plane comes later
(log entry 166). -/
def Kb.pixelExts (k : Kb) : List (Nat × Nat × Nat) :=
  if !k.gathers then [] else
  let g := k.gIn
  let n := if dActFmt k.d = 6 then 16 * ceilDiv g.c 32 else g.c * (fmtBits (dActFmt k.d) / 8)
  (List.range (g.n * g.h * g.w)).filterMap fun i =>
    (k.gatherOff (i / (g.h * g.w)) (i / g.w % g.h) (i % g.w)).map fun o => (tHandle (k.slot 0), tOff (k.slot 0) + o, n)

/-- Bytes that each extent names in its memory: memory, first byte, size. -/
def Kb.placed (k : Kb) (l : List (Nat × Nat × Nat)) : List (Nat × Nat × Nat) :=
  l.map fun e => (hMem (k.core.handle e.1), hBase (k.core.handle e.1) + e.2.1, e.2.2)

/-- Output extents overlap no input extent, whichever handles name them (R144). -/
def Kb.disjoint (k : Kb) : Bool :=
  (k.placed k.outExts).all fun o => (k.placed (k.inExts ++ k.pixelExts)).all fun i =>
    decide (o.1 ≠ i.1) || decide (o.2.2 = 0) || decide (i.2.2 = 0) || decide (o.2.1 + o.2.2 ≤ i.2.1) || decide (i.2.1 + i.2.2 ≤ o.2.1)

/-- Handles of the slots that a Kerbel command uses whatever its parameter block holds, for a command whose block lies outside its handle. -/
def Kb.slotHandles (k : Kb) : List Nat :=
  let t (i : Nat) := k.slot i
  let w := dOpcode k.d ≠ 3
  [tHandle (t 0), tHandle (t 3)] ++ (if w then [tHandle (t 1)] else []) ++ (if w && dBias k.d = 1 then [tHandle (t 2)] else []) ++
  (if dGrade k.d ≠ 0 && tLedOn (t 0) = 1 then [tLedHandle (t 0)] else []) ++ (if k.ledOut then [tLedHandle (t 3)] else []) ++
  (if w && dGrade k.d ≠ 0 && tLedOn (t 0) = 1 && tHandle (t 4) ≠ 0x3F then [tHandle (t 4)] else [])

/-- A finite, normal FP32 value above 0 (R40). -/
def scaleOk (v : Num) : Bool :=
  match v with
  | .fin n m e => !n && decide (m ≠ 0) && (Frac.pow2 1 (-126)).le (.pow2 m e)
  | _ => false

/-- Every INT8 scale that the command names (R40). -/
def Kb.scalesOk (k : Kb) : Bool :=
  let ok (i fmt cols : Nat) : Bool :=
    fmt ≠ 5 || (List.range (if tPerCol (k.slot i) = 1 then cols else 1)).all fun c => scaleOk (k.scale i c)
  ok 0 (dActFmt k.d) k.cT && (!k.weighted || ok 1 (dWgtFmt k.d) k.cT) && ok 3 (dOutFmt k.d) k.cT

/-- Step 5 of a convolution, pool or resize (R139-R150, R163, R165), the reduction length and tile count among them. A resize with the reserved coord_mode 0x3
is refused and other operations ignore the field; a pad_value that is not finite is refused of every operation (DESIGN CHOICES, log entries 142, 143). -/
def Kb.convOk (k : Kb) : Bool :=
  let b := k.b
  let d := k.d
  let op := cbOp b
  let dw := dOpcode d = 3
  let conv := op = 0
  let tr := conv && cbTransposed b = 1
  let groups := cbGroups b
  let gi := cbGIn b
  let m := cbCOut b / Nat.max groups 1
  let eh := cbEH b
  let ew := cbEW b
  let fits (lo x hi : Nat) : Bool := decide (lo ≤ x) && decide (x ≤ hi)
  let kMax := if dw then 16 else 32
  let kernel := cbIsGlobal b || (fits 1 (cbKH b) kMax && fits 1 (cbKW b) kMax && fits 1 (cbSH b) 16 && fits 1 (cbSW b) 16
    && fits 1 (cbDH b) 16 && fits 1 (cbDW b) 16)
  let grp := !conv || (decide (groups ≠ 0) && decide (cbCIn b % groups = 0) && decide (cbCOut b % groups = 0) &&
    (!dw || (fits 1 gi 16 && [1, 2, 4, 8, 16].contains m && decide (cbKH b * cbKW b * gi ≤ 256))))
  let opad := !conv || (if tr then decide (cbOPH b < cbSH b) && decide (cbOPW b < cbSW b) else decide (cbOPH b = 0) && decide (cbOPW b = 0))
  let ceil := decide (cbCeil b = 0) || (dw && cbIsPool b)
  let pane := !dw || [1, 2, 4, 8, 16].contains (cbPane b)
  let pack := dw || ([1, 2, 4].contains (cbPack b) && (decide (cbPack b = 1) || (!tr && decide (groups = 1) &&
    (k.gIn.layout = 0 || k.gIn.layout = 3) && decide (cbCOut b * cbPack b ≤ 64) && decide (cbKH b * k.kw * cbCIn b ≤ 64))))
  let lay := (!dw || decide (k.gIn.layout ≠ 3)) && decide (k.gOut.layout ≠ 3)
  let len := if cbIsGlobal b then decide (cbHIn b * cbWIn b ≤ 16777216) else !conv || decide (k.limitLen ≤ 65536)
  let mode := cbPadMode b
  let padMode := (!tr || decide (mode = 0)) && (decide (op ≠ 3) || decide (mode = 0)) &&
    (decide (mode ≠ 3) || op = 1 || op = 2 || cbIsResize b || cbIsGlobal b ||
      (decide (cbPT b ≤ cbHIn b - 1) && decide (cbPB b ≤ cbHIn b - 1) && decide (cbPL b ≤ cbWIn b - 1) && decide (cbPR b ≤ cbWIn b - 1))) &&
    (decide (k.gIn.layout ≠ 3) || decide (mode ≤ 1)) &&
    (!cbIsPool b || (decide (cbPT b < eh) && decide (cbPB b < eh) && decide (cbPL b < ew) && decide (cbPR b < ew))) &&
    (decodeFloat 0 (cbPadValue b)).finite
  let sizes := decide (cbComputed b = (cbHOut b, cbWOut b)) && (conv || decide (cbCOut b = cbCIn b))
  let tiles := decide (dTiles d = cbBatch b * cbBands b * cbGrps b)
  let ops := decide (op ≤ 7) && (dw || conv) && (conv || (decide (dBias d = 0) && decide (dAct d = 0))) && (!cbIsResize b || decide (cbCoord b ≠ 3))
    && (!dw || !tr)
  ops && kernel && grp && opad && ceil && pane && pack && lay && len && padMode && sizes && tiles && k.disjoint

/-- Zero sizes of a convolution block and the computed output size (R143, R150). -/
def convZero (b : Nat) : Bool :=
  let c := cbComputed b
  [cbBatch b, cbHIn b, cbWIn b, cbCIn b, cbHOut b, cbWOut b, cbCOut b, cbRows b, cbChans b, c.1, c.2].contains 0 ||
    (!cbIsGlobal b && (decide (cbKH b = 0) || decide (cbKW b = 0)))

/-- A workgroup fits a cluster (R73). -/
def wgFits (b : Nat) : Bool :=
  let r := (slRegs b + 7) / 8 * 8
  let warps := ceilDiv (slThreads b) 32
  decide (warps ≤ Nat.min 64 (65536 / (32 * Nat.max r 1))) && (decide (slMem b = 0) || decide (1 ≤ 65536 / slMem b))

/-- What the checks of R86 found: the status that ends the command, none where it runs; whether a read failed (R527); what was read. -/
structure Chk where
  st : Option Status
  readFail : Bool
  params : Nat
  dma : List Nat
  bad : Nat × Nat × Nat        -- what that read reached: handle entry, offset, bytes
deriving DecidableEq, Repr

def Chk.stop (st : Status) : Chk := { st := some st, readFail := false, params := 0, dma := [], bad := (0, 0, 0) }

/-- A read before the first tile failed (R527). -/
def Chk.failed (st : Status) (entry off n : Nat) : Chk := { st := some st, readFail := true, params := 0, dma := [], bad := (entry, off, n) }

/-- A handle that the device reads itself before the first tile: owned, and readable (R86 step 2, R110). -/
def handleReads (x vdi : Nat) : Bool := decide (hValid x = 1) && decide (hVdi x = vdi) && decide (hMem x ≠ 2) && decide (hRead x = 1)

/-- A handle that is mapped and owned by the VDI; only a core DMA descriptor may name the other half's Strongroom (R86 step 2, R111). -/
def handleOwned (x vdi : Nat) (dma : Bool) : Bool :=
  decide (hValid x = 1) && decide (hVdi x = vdi) && (dma || decide (hMem x ≠ 2))

/-- The reads of a range through a handle outside any tile (R527). -/
def Kb.readSt (k : Kb) (handle off n : Nat) : Status := if n = 0 then .ok else k.s.hAccess k.h k.p (k.core.handle handle) off n

def splitWords (w n : Nat) : List Nat := (List.range n).map fun i => bits w (512 * i) 512

/-- The checks of R86 on a command of a core, in their order. `s` holds the core with the handle set of the command's context loaded. -/
def checkCmd (s : State) (h p vdi d : Nat) : Chk :=
  let op := dOpcode d
  let k0 : Kb := { s := s, h := h, p := p, d := d, b := 0 }
  let hs := fun n => k0.core.handle n
  let fits (e : Nat × Nat × Nat) : Bool := decide (e.2.1 + e.2.2 ≤ hSize (hs e.1))
  let pn := paramBytes d
  let pOwned := handleReads (hs (dParHandle d)) vdi
  let pFits := fits (dParHandle d, dParOff d, pn)
  let peek := if pn ≠ 0 && pOwned && pFits then k0.get (dParHandle d) (dParOff d) pn else 0
  let weighted := op ≠ 3 || cbOp peek = 0
  if !check1 d weighted then .stop .badArg
  else if op = 0 then (if dTiles d = 0 then .stop .empty else if dFenced d = 1 && bits (dFenceAddr d) 47 1 = 1 then .stop .badArg else .stop .ok)
  else if op = 6 then { st := none, readFail := false, params := 0, dma := [], bad := (0, 0, 0) }
  else if pn ≠ 0 && !pOwned then .stop .badHandle
  else
    let k : Kb := { k0 with b := peek }
    let pSt := if pn ≠ 0 && pFits then k.readSt (dParHandle d) (dParOff d) pn else .ok
    let list := (dDmaHandle d, dDmaOff d, 64 * dDmaCount d)
    let lOwned := dDmaCount d = 0 || handleReads (hs (dDmaHandle d)) vdi
    let lFits := dDmaCount d = 0 || fits list
    let lSt := if dDmaCount d ≠ 0 && lOwned && lFits then k.readSt list.1 list.2.1 list.2.2 else .ok
    let dmas := if lOwned && lFits then splitWords (k.get list.1 list.2.1 list.2.2) (dDmaCount d) else []
    let bindOk := slBindCount peek = 0 || handleReads (hs (slBind peek)) vdi
    let binds := if op = 4 && bindOk && fits (slBind peek, slBindOff peek, 16 * slBindCount peek)
      then (List.range (slBindCount peek)).map fun i => k.get (slBind peek) (slBindOff peek + 16 * i) 16 else []
    let bindSt := if op = 4 && binds ≠ [] then k.readSt (slBind peek) (slBindOff peek) (16 * slBindCount peek) else .ok
    -- a read that fails before the checks could use it ends the command (R527)
    if pSt ≠ .ok then .failed pSt (hs (dParHandle d)) (dParOff d) pn
    else
    let bufs : List (Nat × Nat × Nat) :=
      if !pFits then (if isKerbel d then k.slotHandles.map fun i => (i, 0, 0) else [])
      else if isKerbel d then k.extents
      else if op = 4 then [(slCode peek, slCodeOff peek, 0)] ++
        (if slBindCount peek ≠ 0 then [(slBind peek, slBindOff peek, 16 * slBindCount peek)] else []) ++
        (binds.filter fun t => tHandle t ≠ 0x3F).map fun t => (tHandle t, tOff t, 0)
      else []
    if !lOwned || (op = 4 && pFits && (!bindOk || !handleReads (hs (slCode peek)) vdi)) || bufs.any (fun e => !handleOwned (hs e.1) vdi false) then .stop .badHandle
    else if lSt ≠ .ok then .failed lSt (hs list.1) list.2.1 list.2.2
    else if bindSt ≠ .ok then .failed bindSt (hs (slBind peek)) (slBindOff peek) (16 * slBindCount peek)
    else if dmas.any (fun m => (dmaHandles m).any fun e => !handleOwned (hs e.1) vdi true) then .stop .badHandle
    else if (pn ≠ 0 && !pFits) || !lFits || bufs.any (fun e => !fits e) || dmas.any (fun m => (dmaHandles m).any fun e => !fits e)
      || binds.any (fun t => tHandle t = 0x3F && !s.inWindows vdi (tOff t + tScale t % 2 ^ 16 * 2 ^ 32) (tLedOff t)) then .stop .outOfRange
    else
      let zero := decide (dTiles d = 0) || (match op with
        | 1 => decide (mmVectors peek = 0) || decide (mmN peek = 0) || decide (mmCols peek = 0) || decide (mmPer peek = 0)
        | 2 => convZero peek
        | 3 => convZero peek
        | 4 => decide (slThreads peek = 0) || decide (slGridX peek = 0) || decide (slGridY peek = 0) || decide (slGridZ peek = 0)
        | _ => false)
      if zero then .stop .empty
      else
        let fine := (pn = 0 || decide (dParOff d % 16 = 0)) && (dDmaCount d = 0 || decide (dDmaOff d % 64 = 0)) && !dmas.any dmaBad &&
          (dFenced d = 0 || (decide (dFenceAddr d % 8 = 0) && decide (bits (dFenceAddr d) 47 1 = 0))) &&
          (match op with
          | 1 => decide (mmN peek ≤ 65536) && decide (ceilDiv (mmVectors peek) (mmPer peek) = dTiles d) &&
              decide (tLayout (k.slot 0) ≠ 3) && decide (tLayout (k.slot 1) ≠ 3) && decide (tLayout (k.slot 3) ≠ 3) &&
              (!k.needT || decide (tHandle (k.slot 4) ≠ 0x3F)) && k.scalesOk
          | 2 => k.convOk && (!k.needT || decide (tHandle (k.slot 4) ≠ 0x3F)) && k.scalesOk
          | 3 => k.convOk && (!k.needT || decide (tHandle (k.slot 4) ≠ 0x3F)) && k.scalesOk
          | 4 => decide (8 ≤ slRegs peek) && decide (slThreads peek ≤ 1024) && decide (slMem peek ≤ 65536) &&
              decide (slBindCount peek ≤ 32) && wgFits peek
          | _ => true)
        if fine then { st := none, readFail := false, params := peek, dma := dmas, bad := (0, 0, 0) } else .stop .badArg

end Sys2Proof.Machine
end

