-- ==== Sys2Proof/Machine/WinOps.lean ====
section
/-! DEFINITION. Shared operations on windows, partitions and row conditions: instance times (R222), the window guard (R228), the task record and a channel's
entries (R256, R259, R260), the geometry of a camera stream (R194, R196), the check of a row condition (R202-R206). -/
namespace Sys2Proof.Machine

/-! ## Partitions (R219, R254) -/

/-- Tile limit of a partition in ns (R93). -/
def Half.tileLimit (x : Half) (q : Nat) : Nat := x.fld F.WIN_PART_CFG_tile_limit_us 0 q * 1000
def Half.partCrit (x : Half) (q : Nat) : Nat := x.fld F.WIN_PART_CFG_criticality 0 q
def Half.inPart (x : Half) (q l : Nat) : Bool := bits (x.elem .WIN_PART_CORES 0 q) l 1 = 1

/-! ## Instance times (R222) -/

/-- Major frame length in ns. -/
def Half.frameNs (x : Half) : Nat := x.fld F.WIN_FRAME_length * 100

/-- The last major-frame start at or before a VT; 0 where VT is before the phase. -/
def Half.frameStart (x : Half) (vt : Nat) : Nat :=
  let l := Nat.max x.frameNs 1
  let ph := x.elem .WIN_PHASE % l
  if vt < ph then 0 else vt - (vt - ph) % l

/-- A VT is a major-frame start. -/
def Half.isFrameStart (x : Half) (vt : Nat) : Bool :=
  let l := Nat.max x.frameNs 1
  let ph := x.elem .WIN_PHASE % l
  decide (ph ≤ vt) && decide ((vt - ph) % l = 0)

/-- The first major-frame start at or after a VT. -/
def Half.nextFrame (x : Half) (vt : Nat) : Nat :=
  let l := Nat.max x.frameNs 1
  let ph := x.elem .WIN_PHASE % l
  if vt ≤ ph then ph else ph + ceilDiv (vt - ph) l * l

/-- The start of instance `k` of an entry in the frame that starts at `f`. -/
def instStart (f w k : Nat) : Nat := f + (wStart w + k * wPeriod w) * 100

/-- The next instance start of an entry at or after a VT. -/
def Half.nextInst (x : Half) (w vt : Nat) : Option Nat :=
  if wInstances w = 0 then none else
  let f := x.frameStart vt
  let s0 := instStart f w 0
  let per := wPeriod w * 100
  let k := if vt ≤ s0 then 0 else if per = 0 then wInstances w else ceilDiv (vt - s0) per
  some (if k < wInstances w then instStart f w k else instStart (f + x.frameNs) w 0)

/-- The instance of an entry whose hold covers a VT: its start and end. -/
def Half.nowInst (x : Half) (w vt : Nat) : Option (Nat × Nat) :=
  let f := x.frameStart vt
  let s0 := instStart f w 0
  if wInstances w = 0 || vt < s0 then none else
  let per := Nat.max (wPeriod w * 100) 1
  let k := Nat.min ((vt - s0) / per) (wInstances w - 1)
  let s := instStart f w k
  if vt < s + wDuration w * 100 then some (s, s + wDuration w * 100) else none

/-- The entries of the active bank while the sequencer runs it. -/
def Half.liveEntries (x : Half) : List (Nat × Nat) :=
  if x.win.running then (if x.fld F.WIN_CTL_active_bank = 0 then x.win.bank0 else x.win.bank1) else []

/-- Entries whose instances start from one VT until another. -/
structure Plan where
  entries : List (Nat × Nat)
  from_ : Nat
  until_ : Option Nat

/-- The VT at which the other bank takes over: the standby bank of a half that degrades, else the bank that awaits its activation (R223, R286). -/
def Half.switchVt (x : Half) : Option Nat := x.tally.degradeAt.orElse fun _ => x.win.pendVt

/-- The banks as they will start instances: the one that runs or is to be enabled, and the one that takes over from it (R223, R255, R286). -/
def Half.plans (x : Half) : List Plan :=
  let a := decide (x.fld F.WIN_CTL_active_bank = 0)
  let act := if a then x.win.bank0 else x.win.bank1
  let idle := if a then x.win.bank1 else x.win.bank0
  let from_ (f : Nat) (u : Option Nat) : List Plan := match x.switchVt with
    | some t => [⟨act, f, some (match u with | some v => Nat.min t v | none => t)⟩, ⟨idle, Nat.max f t, u⟩]
    | none => [⟨act, f, u⟩]
  (if x.win.running then from_ 0 x.win.disableAt else []) ++
    match x.win.enableAt with
    | some v => from_ (x.nextFrame v) none
    | none => []

/-- The next start, at or after a VT, of an instance of an entry that satisfies `p`. -/
def Half.nextStart (x : Half) (p : Nat → Bool) (vt : Nat) : Option Nat :=
  x.plans.foldl (fun m k => (k.entries.filter fun e => p e.2).foldl (fun (m : Option Nat) e =>
    match x.nextInst e.2 (Nat.max vt k.from_) with
    | none => m
    | some t =>
      if (match k.until_ with | some u => decide (u ≤ t) | none => false) then m
      else match m with
        | some b => some (Nat.min t b)
        | none => some t) m) none

/-- Entry `n` of the bank that starts its next instance, where that start is at most 1 µs after the VT (R224). -/
def Half.armEntry (x : Half) (n vt : Nat) : Option Nat :=
  x.plans.foldl (fun a k => a.orElse fun _ => (k.entries.find? fun e => e.1 = n).bind fun e =>
    match x.nextInst e.2 (Nat.max vt k.from_) with
    | some t => if t ≤ vt + 1000 && (match k.until_ with | some u => decide (t < u) | none => true) then some e.2 else none
    | none => none) none

/-- A logical core is among the cores an entry holds (R221). -/
def wHolds (w l : Nat) : Bool :=
  if wKind w = 1 then wEngine w = 0 && wCore w = l else wKind w = 2 && decide (wCore w ≤ l) && decide (l < wCore w + wCount w)

/-- The half sheds: partitions of criticality below 15 receive no new tiles (R501, R327). -/
def Half.sheds (x : Half) (q : Nat) : Bool :=
  decide (x.partCrit q < 15) && (decide (x.fld F.CLK_STAT_stage_logic ≥ 3) || decide (x.fld F.CLK_STAT_stage_dram ≥ 3))

/-- No window of logical core `l` that shuts out partition `q` starts within `span` of a VT, nor a COMMAND instance within 1 µs more (R228). -/
def Half.clearFor (x : Half) (l q vt span : Nat) : Bool :=
  let by_ (p : Nat → Bool) (t : Nat) : Bool := match x.nextStart p vt with | some s => decide (t ≤ s) | none => true
  by_ (fun w => wHolds w l && decide (wKind w = 1)) (vt + span + 1000) &&
    by_ (fun w => wHolds w l && decide (wKind w ≠ 1) && decide (wPart w ≠ q)) (vt + span)

/-- A shared tile of partition `q` may start on logical core `l` at a VT (R227, R228, R501). -/
def Half.guardOk (x : Half) (l q vt : Nat) : Bool :=
  let cmd (w : Nat) : Bool := wHolds w l && decide (wKind w = 1)
  let slot (w : Nat) : Bool := wHolds w l && decide (wKind w ≠ 1) && decide (wPart w ≠ q)
  !x.sheds q && (x.liveEntries.all fun e => !(cmd e.2 || slot e.2) || (x.nowInst e.2 vt).isNone) && x.clearFor l q vt (x.tileLimit q)

/-! ## The task record (R259, R260) -/

def tkValid (r : Nat) := bits r 0 1
def tkKind (r : Nat) := bits r 1 1
def tkSpeaker (r : Nat) := bits r 2 1
def tkRelease (r : Nat) := bits r 3 1
def tkRoundMode (r : Nat) := bits r 4 1
def tkAgnostic (r : Nat) := bits r 5 1
def tkDiversity (r : Nat) := bits r 8 3
def tkVdi (r : Nat) := bits r 16 8
def tkN (r : Nat) := bits r 32 16
def tkH (r : Nat) := bits r 48 16
def tkW (r : Nat) := bits r 64 16
def tkC (r : Nat) := bits r 80 16
def tkAssayMs (r : Nat) := bits r 96 16
def tkBudget (r : Nat) := bits r 112 8
def tkTol (r : Nat) := bits r 128 48
def tkRingLog (r : Nat) := bits r 240 4
/-- The verdict ring of a half. -/
def tkRing (r h : Nat) := if h = 0 then bits r 192 48 else bits r 256 48
def tkIouMatch (r : Nat) := bits r 320 32
def tkScoreTol (r : Nat) := bits r 352 32
def tkPosTol (r : Nat) := bits r 384 32
def tkAngleTol (r : Nat) := bits r 416 32
def tkScoreThr (r : Nat) := bits r 448 32
def tkIouThr (r : Nat) := bits r 480 32
def tkIouMargin (r : Nat) := bits r 512 32

/-- The sub-record of channel `c`. -/
def chRec (r c : Nat) := bits r (1024 + 512 * c) 512
def chResult (k : Nat) := bits k 0 48
def chFmt (k : Nat) := bits k 48 4
def chLayout (k : Nat) := bits k 52 4
def chLedger (k : Nat) := bits k 64 48
def chScale (k : Nat) := bits k 128 32
def chStages (k : Nat) := bits k 160 4
def chAssayCmd (k : Nat) := bits k 192 48
def chExp (k : Nat) := bits k 256 48
def chLexp (k : Nat) := bits k 320 48

def State.taskAddr (s : State) (h t : Nat) : Nat := (s.half h).fld F.TLY_TASK_BASE_base + 256 * t

/-- The task record in the copy of half `h`. -/
def State.taskRec (s : State) (h t : Nat) : Nat := s.rdN (s.taskAddr h t) 256

def Half.taskState (x : Half) (t : Nat) : Nat := x.fld F.TLY_TASK_STATE_state t
def Half.updTask (x : Half) (t : Nat) (f : Task → Task) : Half := x.setTask t (f (x.task t))

def Task.round (k : Task) (r : Nat) : Round := kget (fun _ => Round.new) k.rounds r
def Task.setRound (k : Task) (r : Nat) (v : Round) : Task := { k with rounds := kput (fun _ => Round.new) k.rounds r v }

/-! ## A channel's entries (R256) -/

/-- The entries of the bank in force, whether or not the sequencer runs it. -/
def Half.bankEntries (x : Half) : List (Nat × Nat) := if x.fld F.WIN_CTL_active_bank = 0 then x.win.bank0 else x.win.bank1

/-- The COMMAND entries of a channel of a task among `l`, in increasing index. -/
def chEntries (l : List (Nat × Nat)) (t c assay : Nat) : List (Nat × Nat) :=
  l.filter fun e => wKind e.2 = 1 && wTask e.2 = t && wChannel e.2 = c && wAssay e.2 = assay

/-- The delivering entry of a channel, or with `assay` = 1 its assay delivering entry (R256, R261). -/
def delivering (l : List (Nat × Nat)) (t c assay : Nat) : Option (Nat × Nat) := (chEntries l t c assay).find? fun e => wDeadline e.2 ≠ 0

/-- An entry delivers its channel's result. -/
def wDelivers (w : Nat) : Bool := wKind w = 1 && wAssay w = 0 && wDeadline w ≠ 0

/-- The stage of an entry: its rank among its channel's entries with assay = 0 (R260). -/
def Half.stageOf (x : Half) (n w : Nat) : Nat := ((chEntries x.bankEntries (wTask w) (wChannel w) 0).filter fun e => e.1 < n).length

/-- Tasks that a bank names: every COMMAND entry names the task whose index it carries. -/
def bankTasks (l : List (Nat × Nat)) : List Nat := isort (fun a b => decide (a ≤ b)) ((l.filter fun e => wKind e.2 = 1).map fun e => wTask e.2).eraseDups

def Half.degraded (x : Half) : Bool := x.fld F.TLY_CTL_degraded = 1

/-- The half on which a channel runs: A on 0 and B on 1, both on a degraded half (R256, R286). -/
def State.chanHalf (s : State) (h c : Nat) : Nat := if (s.half h).degraded then h else c

/-! ## Geometry of a stream (R194, R196) -/

/-- A stream's configuration, with the derived sizes of R196. -/
structure Geom where
  r : Nat                     -- regroup block
  c0 : Nat                    -- components per pixel
  w : Nat                     -- w_out
  hgt : Nat                   -- h_out
  fmt : Nat
  nbuf : Nat
  base : Nat
  mbase : Nat
deriving DecidableEq, Repr

def Geom.chans (g : Geom) : Nat := g.r * g.r * g.c0
def Geom.blocks (g : Geom) : Nat := (g.chans + 31) / 32
def Geom.rowPitch (g : Geom) : Nat := (g.w * g.chans * (fmtBits g.fmt / 8) + 127) / 128 * 128
def Geom.lrowPitch (g : Geom) : Nat := (g.w * g.blocks + 127) / 128 * 128
def Geom.markPitch (g : Geom) : Nat := (16 * g.hgt + 127) / 128 * 128
def Geom.ledAt (g : Geom) : Nat := g.nbuf * g.hgt * g.rowPitch
def Geom.dataBytes (g : Geom) : Nat := g.ledAt + g.nbuf * g.hgt * g.lrowPitch
def Geom.markBytes (g : Geom) : Nat := g.nbuf * g.markPitch + 32 * g.nbuf
def Geom.dataRow (g : Geom) (i k : Nat) : Nat := g.base + i * g.hgt * g.rowPitch + k * g.rowPitch
def Geom.ledRow (g : Geom) (i k : Nat) : Nat := g.base + g.ledAt + i * g.hgt * g.lrowPitch + k * g.lrowPitch
def Geom.mark (g : Geom) (i k : Nat) : Nat := g.mbase + i * g.markPitch + 16 * k
def Geom.record (g : Geom) (i : Nat) : Nat := g.mbase + g.nbuf * g.markPitch + 32 * i

def isYuv (dt : Nat) : Bool := dt = 0x1E || dt = 0x1F
def imageType (dt : Nat) : Bool := [0x2B, 0x2C, 0x2E, 0x1E, 0x1F].contains dt

/-- The geometry from the raw words of INT_STREAM_CFG, GEOM, BASE and MARK_BASE. -/
def geomOf (cfg geom base mark : Nat) : Geom :=
  let r := match bits cfg 11 2 with | 1 => 2 | 2 => 4 | _ => 1
  { r := r, c0 := if isYuv (bits cfg 5 6) then 3 else 1, w := bits geom 0 16 / r, hgt := bits geom 16 16 / r, fmt := bits cfg 13 4
    nbuf := bits cfg 22 2 + 1, base := bits base 0 48, mbase := bits mark 0 48 }

def Half.geom (x : Half) (k : Nat) : Geom :=
  geomOf (x.word .INT_STREAM_CFG k 0 0) (x.word .INT_STREAM_GEOM k 0 0) (x.word .INT_STREAM_BASE k 0 0) (x.word .INT_MARK_BASE k 0 0)

/-! ## Row conditions (R198, R202-R206) -/

def rAddr (c : Nat) := bits c 0 48
def rCount (c : Nat) := bits c 48 16
def rSeq (c : Nat) := bits c 64 32
def rLayer (c : Nat) := bits c 96 8
def rKind (c : Nat) := bits c 104 1
def rStale (c : Nat) := bits c 105 1
def rFallback (c : Nat) := bits c 106 1
def rStream (c : Nat) := bits c 112 16
def rHorizon (c : Nat) := bits c 128 48
def rFallAddr (c : Nat) := bits c 192 48

/-- A halo condition: rows of a layer above 0 (R206). -/
def rHalo (c : Nat) : Bool := rKind c = 0 && rLayer c ≠ 0

/-- `a` is later than `b` modulo 2^32, within 2^31. -/
def seqLater (a b : Nat) : Bool :=
  let d := (a + 2 ^ 32 - b % 2 ^ 32) % 2 ^ 32
  decide (0 < d) && decide (d < 2 ^ 31)

/-- What an evaluation of a condition finds (R203). -/
inductive CondSt where
  | met
  | unmet
  | failed (st : Status)
deriving DecidableEq, Repr

/-- The finding on one mark or frame record. -/
def markFind (c acc m : Nat) : CondSt :=
  let seq := bits m 0 32
  if rKind c = 1 then
    let st := bits m (8 * 0x1A) 8
    if seqLater seq (rSeq c) then .failed .staleStream
    else if seq ≠ rSeq c then .unmet
    else if st = Status.dataError.code then .failed .dataError
    else if st = Status.staleStream.code then (if acc = 1 then .met else .failed .staleStream)
    else if st = 0 then .met else .unmet
  else
    if seqLater seq (rSeq c) then .failed .staleStream
    else if seq ≠ rSeq c then .unmet
    else if bits m 40 1 = 1 then .failed .dataError
    else if bits m 41 1 = 1 && acc ≠ 1 then .failed .staleStream
    else if bits m 32 8 ≠ rLayer c then .unmet
    else .met

/-- A condition evaluated now; `crit`: a command of the critical partition, whose accept_stale is forced to 0 (R202, R203). -/
def State.evalCond (s : State) (h c : Nat) (crit : Bool) : CondSt :=
  if rHalo c && 31 < rStream c && rCount c = 0 then .failed .badArg
  else if rCount c = 0 then .met else
  let n := if rKind c = 1 then 1 else rCount c
  let size := if rKind c = 1 then 32 else 16
  let acc := if crit then 0 else rStale c
  let inS (a k : Nat) := inStr 0 a k || inStr 1 a k
  if !inS (rAddr c) (n * size) || (rHorizon c ≠ 0 && !inS (rHorizon c) 16) then .failed .outOfRange
  else if rHalo c && 31 < rStream c then .failed .badArg
  else (List.range n).foldl (fun a i =>
    let ad := rAddr c + i * size
    let f := match s.access h ad size with
      | .ok => markFind c acc (s.rdN ad size)
      | .dataError => .failed .dataError
      | _ => .unmet
    match a, f with
    | .failed st, _ => .failed st
    | _, .failed st => .failed st
    | .unmet, _ => .unmet
    | _, x => x) .met

/-- What an evaluation that failed has read is checked: the damaged rows of the condition's record at `a`, of its marks and of its horizon mark are counted (R118, R138). -/
def State.condErrs (s : State) (a c : Nat) : State :=
  ((s.strErrs a 32).strErrs (rAddr c) (if rKind c = 1 then 32 else 16 * rCount c)).strErrs (rHorizon c) 16

/-- The horizon mark has matched (R206). -/
def State.horizonMet (s : State) (h c : Nat) : Bool :=
  rHorizon c = 0 || (s.access h (rHorizon c) 16 = .ok &&
    (let q := s.rdN (rHorizon c) 4; decide (q = rSeq c) || seqLater q (rSeq c)))

/-- The lag clock of a condition after an evaluation at a VT. -/
def State.lagStart (s : State) (h c vt : Nat) (old : Option Nat) : Option Nat :=
  if !rHalo c then none else match old with
    | some t => some t
    | none => if s.horizonMet h c then some vt else none

/-- The lag limit of a condition's stream in ns (R206). -/
def Half.lagNs (x : Half) (c : Nat) : Nat := x.fld F.INT_STRIPE_CFG_lag_us (rStream c) * 1000

end Sys2Proof.Machine
end

