-- ==== Sys2Proof/Machine/Dma.lean ====
section
/-! DEFINITION. Core DMA: what one descriptor moves, converts and marks (R89-R92, R112-R117, R171). -/
namespace Sys2Proof.Machine

/-! ## One side of a row -/

/-- The status of a row access of one side: the handle check of R110, or the window check of R406, then what the memory answers. -/
def State.sideSt (s : State) (h p vdi : Nat) (isH : Bool) (hd a n : Nat) (write : Bool) : Status :=
  if isH then
    let x := ((s.half h).core p).handle hd
    match handleCheck x vdi a n write with
    | .ok => s.hAccess h p x a n
    | st => st
  else if !s.inWindows vdi a n then .outOfRange else s.access h a n (some vdi)

def State.sideRd (s : State) (h p : Nat) (isH : Bool) (hd a n : Nat) : List Byte :=
  if isH then s.hRd h p (((s.half h).core p).handle hd) a n else s.rdBytes a n

def State.sideWr (s : State) (h p : Nat) (vdi : Nat) (isH : Bool) (hd a : Nat) (l : List Byte) : State :=
  if isH then s.hWr h p (((s.half h).core p).handle hd) a l else s.storeV h vdi a l

/-- A side lies in a Till, operand space or Strongroom of the core's own half, whose detected errors belong to the tile (R119). -/
def State.ownSide (s : State) (h p : Nat) (isH : Bool) (hd a : Nat) : Bool :=
  if isH then hMem (((s.half h).core p).handle hd) ≠ 2 else inStr h a 1

/-- Where the range of a side lies: memory (0 Till, 1 Strongroom, 3 operand space, 4 DRAM), half, and byte offset in it. -/
def State.sideAt (s : State) (h p : Nat) (isH : Bool) (hd a : Nat) : Nat × Nat × Nat :=
  if isH then
    let x := ((s.half h).core p).handle hd
    (if hMem x = 2 then 1 else hMem x, if hMem x = 2 then peer h else h, hBase x + a)
  else if inStr (homeHalf a) a 1 then (1, homeHalf a, a - strBase (homeHalf a)) else (4, homeHalf a, a)

/-- A descriptor's access that a closed door of a Strongroom refused is counted by that Strongroom's half: of its source where that is shut, else of its
destination (R343). -/
def State.lateSide (s : State) (h p d : Nat) : State :=
  let a := s.sideAt h p (mSrcIsH d = 1) (mSrcH d) (mSrc d)
  let b := s.sideAt h p (mDstIsH d = 1) (mDstH d) (mDst d)
  s.upd (if a.1 = 1 && (s.half a.2.1).groupShut (a.2.2 / 0x1000000) then a.2.1 else b.2.1) fun x => x.inc F.MNT_SHUT_late

/-- What a descriptor's run found: it ended, a status failed it, an own-half row's detected error (memory, offset), or one of a row of the other half's
Strongroom, which fails it too (R92, R119, R120). -/
inductive DmaRes where
  | ok
  | fail (st : Status)
  | err (mem off : Nat)
  | peer (off : Nat)
deriving DecidableEq, Repr

/-- A detected error in one of the units of a side's range: the tile's where the unit is the core's own half's (R119), else the descriptor's (R92). -/
def State.sideErr (s : State) (h p : Nat) (isH : Bool) (hd a : Nat) (units : List Nat) : DmaRes :=
  let w := s.sideAt h p isH hd a
  match s.detects w.2.1 p w.1 units with
  | some off => if s.ownSide h p isH hd a then .err w.1 off else .peer off
  | none => .ok

/-- The outcome of reading a range of a side. -/
def State.readRes (s : State) (h p vdi : Nat) (isH : Bool) (hd a n : Nat) : DmaRes :=
  match s.sideSt h p vdi isH hd a n false with
  | .ok => .ok
  | .dataError =>
    let w := s.sideAt h p isH hd a
    if w.1 = 4 then .fail .dataError else s.sideErr h p isH hd a (unitsOf w.1 w.2.2 n)
  | st => .fail st

/-- The outcome of writing a range of a side: a damaged row or word that it covers in part cannot be merged (R101, R104, R118). -/
def State.writeRes (s : State) (h p vdi : Nat) (isH : Bool) (hd a n : Nat) : DmaRes :=
  match s.sideSt h p vdi isH hd a n true with
  | .ok => .ok
  | .dataError =>
    let w := s.sideAt h p isH hd a
    if w.1 = 4 then .ok else s.sideErr h p isH hd a (partUnits w.1 w.2.2 n)
  | st => .fail st

/-! ## Conversion of a row (R90) -/

def chunks (n : Nat) : Nat → List Byte → List (List Byte)
  | 0, _ => []
  | k + 1, l => if l.length < n || n = 0 then [] else l.take n :: chunks n k (l.drop n)

/-- The elements of a row; `sc i` is the scale byte of FP4 block i of the row. -/
def decodeRow (fmt exp : Nat) (l : List Byte) (sc : Nat → Nat) : List Num :=
  if fmt = 6 then
    (List.range (2 * l.length)).map fun i =>
      let s := sc (i / 32)
      if s = 255 then Num.nan else (decodeFloat 6 (bits (l.getD (i / 2) 0).toNat (4 * (i % 2)) 4)).mulX (.fin false 1 ((s : Int) - 127))
  else
    (chunks (fmtBits fmt / 8) l.length l).map fun b =>
      if fmt = 5 then int8Val (sext8 (leNat b)) (expScale exp) else decodeFloat fmt (leNat b)

def chunksN (n : Nat) : Nat → List Num → List (List Num)
  | 0, _ => []
  | k + 1, l => if l = [] then [] else l.take n :: chunksN n k (l.drop n)

/-- A row as a conversion writes it: its bytes, the scale bytes of its FP4 blocks, and for each element whether it saturated and whether it counts an
invalid event (R51: one for an FP4 block marked NaN). -/
structure Enc where
  bytes : List Byte
  scales : List Nat
  evs : List (Bool × Bool)

def Enc.raw (l : List Byte) : Enc := { bytes := l, scales := [], evs := [] }

/-- FP4 blocks of a row in turn. -/
def encodeFp4 (rtz : Bool) : List (List Num) → Nat → Enc × Nat
  | [], c => (.raw [], c)
  | b :: r, c =>
    let q := convFp4 rtz b c
    let m := encodeFp4 rtz r q.2
    ({ bytes := packNibbles q.1.codes ++ m.1.bytes, scales := q.1.scale :: m.1.scales
       evs := ((List.range b.length).map fun i => (q.1.sats.getD i false, q.1.isNan && i = 0)) ++ m.1.evs }, m.2)

def encodeRow (fmt exp : Nat) (rtz special : Bool) (l : List Num) (c : Nat) : Enc × Nat :=
  if fmt = 6 then encodeFp4 rtz (chunksN 32 l.length l) c
  else
    let cv := l.map fun v => if fmt = 5 then convInt8 rtz (expScale exp) v else convFloat fmt rtz special v
    ({ bytes := cv.flatMap fun c => leBytes (fmtBits fmt / 8) c.w, scales := [], evs := cv.map fun c => (c.sat, c.inv) }, c)

/-- The place of the FP4 scale byte of the block that begins `o` bytes into a side's data (log entry 8). -/
def fp4Place (d side o : Nat) : Nat := Config.fp4Plane d side % 2 ^ 32 + o / 16

/-! ## Pieces -/

/-- A contiguous move within a descriptor: offsets of source and destination from src and dst, and source bytes. -/
structure Piece where
  so : Nat
  do_ : Nat
  n : Nat
deriving DecidableEq, Repr

/-- The pieces of row `r`: the row itself, or the r × r groups of a source pixel (R171). -/
def dmaPieces (d r : Nat) : List Piece :=
  if mRegroup d = 0 then [⟨r * mSrcStride d, r * mDstStride d, mRowBytes d⟩]
  else
    let k := mR d
    let g := mRowBytes d / (k * k)
    let gd := mDstRow d / (k * k)
    (List.range k).flatMap fun dy => (List.range k).map fun dx =>
      ⟨r * mSrcStride d + (dy * k + dx) * g, dy * mDstStride d + (r * k + dx) * gd, g⟩

/-- What one element of a moved block adds to a ledger byte: destination block, source block, magnitude, and whether it leaves no bound (R56). -/
structure LedEl where
  db : Nat
  sb : Nat
  mag : Frac
  none_ : Bool
deriving DecidableEq, Repr

/-- A running move: state, counter, events, source bytes moved, elements for the ledger, and the outcome so far. -/
structure Mv where
  s : State
  ctr : Nat
  sat : Nat
  inv : Nat
  moved : Nat
  els : List LedEl
  res : DmaRes

/-- A move before its first row. -/
def Mv.start (s : State) : Mv := { s := s, ctr := s.freeCtr, sat := 0, inv := 0, moved := 0, els := [], res := .ok }

/-- The scale bytes of an FP4 source row: read where they lie, a free value where they cannot be read. -/
def Mv.fp4Scale (m : Mv) (h p vdi d so i : Nat) : Nat :=
  let a := mSrc d + fp4Place d 0 so + i
  let sh := decide (mSrcIsH d = 1)
  if m.s.sideSt h p vdi sh (mSrcH d) a 1 false = .ok then leNat (m.s.sideRd h p sh (mSrcH d) a 1) else Config.free (m.ctr + i) % 256

/-- What the scale bytes of an FP4 row meet: only a detected error stops the move, since where they lie is not stated (log entry 8). -/
def DmaRes.found (r : DmaRes) : DmaRes := match r with | .err _ _ | .peer _ => r | .fail .dataError => r | _ => .ok

/-- The outcome of reading the scale bytes of an FP4 source row, and of writing those of an FP4 destination row. -/
def State.scaleRes (s : State) (h p vdi d so dq n : Nat) (conv : Bool) : DmaRes :=
  let rd := if conv && mSrcFmt d = 6 then (s.readRes h p vdi (decide (mSrcIsH d = 1)) (mSrcH d) (mSrc d + fp4Place d 0 so) (ceilDiv (2 * n) 32)).found else .ok
  match rd with
  | .ok =>
    if conv && mDstFmt d = 6 then
      (s.writeRes h p vdi (decide (mDstIsH d = 1)) (mDstH d) (mDst d + fp4Place d 1 dq) (ceilDiv (2 * (n * halfBytes (mDstFmt d) / halfBytes (mSrcFmt d))) 32)).found
    else .ok
  | r => r

/-- The scale bytes of an FP4 destination row written where they lie, as far as that place takes them. -/
def State.putScales (s : State) (h p vdi d dq : Nat) (l : List Nat) : State :=
  let a := mDst d + fp4Place d 1 dq
  let dh := decide (mDstIsH d = 1)
  match s.writeRes h p vdi dh (mDstH d) a l.length with
  | .ok => if l = [] then s else s.sideWr h p vdi dh (mDstH d) a (l.map (BitVec.ofNat 8))
  | _ => s

/-- A core's DMA traffic with DRAM pays at the port of its logical index, for the class of its command's context (R328, R330). -/
def State.payCore (s : State) (h p : Nat) (write isH : Bool) (a n : Nat) : State :=
  match isH, ((s.half h).core p).run with
  | false, some r => s.pay h r.core (cMark (s.ctx r.ctx).raw) write a n
  | _, _ => s

/-- One piece moved at tile `t`. -/
def movePiece (h p vdi d t : Nat) (m : Mv) (q : Piece) : Mv :=
  match m.res with
  | .ok =>
    let step := decide (mPhase d = 1)
    let so := (if step then t * mSrcStep d else 0) + q.so
    let dq := (if step then t * mDstStep d else 0) + q.do_
    let sh := decide (mSrcIsH d = 1)
    let dh := decide (mDstIsH d = 1)
    let conv := decide (mConvert d = 1)
    match m.s.readRes h p vdi sh (mSrcH d) (mSrc d + so) q.n, m.s.scaleRes h p vdi d so dq q.n conv with
    | .ok, .ok =>
      let raw := m.s.sideRd h p sh (mSrcH d) (mSrc d + so) q.n
      let dec := if conv then decodeRow (mSrcFmt d) (mSrcExp d) raw (m.fp4Scale h p vdi d so) else []
      let c1 := if conv && mSrcFmt d = 6 then m.ctr + ceilDiv (2 * raw.length) 32 else m.ctr
      let enc := if conv then encodeRow (mDstFmt d) (mDstExp d) (decide (mRound d = 1)) (decide (mSat d = 1)) dec c1 else (.raw raw, c1)
      let n := enc.1.bytes.length
      match m.s.writeRes h p vdi dh (mDstH d) (mDst d + dq) n with
      | .ok =>
        let els := if mLedger d = 0 then [] else
          let fd := if conv then mDstFmt d else mSrcFmt d
          (List.range (2 * q.n / halfBytes (mSrcFmt d))).map fun i =>
            let ev := enc.1.evs.getD i (false, false)
            { db := (2 * dq + i * halfBytes fd) / (2 * mDstBlock d), sb := (2 * so + i * halfBytes (mSrcFmt d)) / (2 * mSrcBlock d)
              mag := (dec.getD i .zero).mag, none_ := conv && (ev.1 || ev.2 || !(dec.getD i .zero).finite) : LedEl }
        { s := (((m.s.sideWr h p vdi dh (mDstH d) (mDst d + dq) enc.1.bytes).putScales h p vdi d dq enc.1.scales).payCore h p false sh
            (mSrc d + so) q.n).payCore h p true dh (mDst d + dq) n
          ctr := enc.2
          sat := m.sat + (enc.1.evs.filter (·.1)).length
          inv := m.inv + (enc.1.evs.filter (·.2)).length
          moved := m.moved + q.n
          els := m.els ++ els
          res := .ok }
      | r => { m with res := r }
    | .ok, r => { m with res := r }
    | r, _ => { m with res := r }
  | _ => m

/-- The destination ledger bytes of a descriptor (R63, R90). -/
def moveLedger (h p vdi d : Nat) (m : Mv) : Mv :=
  match m.res with
  | .ok =>
    (m.els.map (·.db)).eraseDups.foldl (fun (m : Mv) db =>
      match m.res with
      | .ok =>
        let es := m.els.filter fun e => e.db = db
        let srcs := (es.map (·.sb)).eraseDups
        let sh := decide (mSrcIsH d = 1)
        let dh := decide (mDstIsH d = 1)
        let bad := if mSrcLed d = 0 then none else
          srcs.findSome? fun b => match m.s.readRes h p vdi sh (mSrcLedgerH d) (mSrcLedger d + b) 1 with | .ok => none | r => some r
        let led := if mSrcLed d = 0 then 0 else ledMove (srcs.map fun b => leNat (m.s.sideRd h p sh (mSrcLedgerH d) (mSrcLedger d + b) 1))
        let out := if mConvert d = 0 then (led, m.ctr)
          else if es.any (·.none_) then (0, m.ctr)
          else match ledBound led with
            | none => (0, m.ctr)
            | some b =>
              let mv := es.foldl (fun a e => a.max e.mag) Frac.zero
              let rtz := decide (mRound d = 1)
              let sc : Frac := if mDstFmt d = 5 then (expScale (mDstExp d)).mag else if mDstFmt d = 6 then .pow2 1 ((fp4Scale mv : Int) - 127) else .zero
              ledEncodeFree (mv.n = 0) (b.add (((uOut (mDstFmt d) rtz).mul mv).add (etaOut (mDstFmt d) rtz sc))) m.ctr
        match bad with
        | some r => { m with res := r }
        | none =>
          match m.s.writeRes h p vdi dh (mDstLedgerH d) (mDstLedger d + db) 1 with
          | .ok => { m with s := m.s.sideWr h p vdi dh (mDstLedgerH d) (mDstLedger d + db) [BitVec.ofNat 8 out.1], ctr := out.2 }
          | r => { m with res := r }
      | _ => m) m
  | _ => m

/-- The data of a descriptor moved at tile `t`, up to `stop` rows, and its ledger bytes where all rows moved. -/
def State.dmaMove (s : State) (h p vdi d t stop : Nat) : Mv :=
  let rows := if mRowBytes d = 0 then 0 else mRows d
  let m1 := (List.range (Nat.min rows stop)).foldl (fun m r => (dmaPieces d r).foldl (movePiece h p vdi d t) m) (.start s)
  if rows ≤ stop then moveLedger h p vdi d m1 else m1

/-- The destination ledger byte places of a descriptor at tile `t`: (is handle, handle, address), for what it has not written (R92). -/
def dmaLedPlaces (d t : Nat) : List (Bool × Nat × Nat) :=
  if mLedger d = 0 || mRowBytes d = 0 then [] else
  let dq := if mPhase d = 1 then t * mDstStep d else 0
  ((List.range (mRows d)).flatMap fun r => (dmaPieces d r).flatMap fun q =>
    let n := if mConvert d = 1 then q.n * halfBytes (mDstFmt d) / halfBytes (mSrcFmt d) else q.n
    (List.range (ceilDiv n (mDstBlock d))).map fun b => (decide (mDstIsH d = 1), mDstLedgerH d, mDstLedger d + (dq + q.do_) / mDstBlock d + b)).eraseDups

/-! ## Rows of the Till that a descriptor reads or fills (R112-R114) -/

def tillRows (base span : Nat) : List Nat := rowsOf base span

/-- What the pieces of a descriptor cover on one side at tile `t`: offset from src or dst, and bytes. -/
def dmaSpans (d t : Nat) (dst : Bool) : List (Nat × Nat) :=
  let step := if mPhase d = 1 then t * (if dst then mDstStep d else mSrcStep d) else 0
  (List.range (mRows d)).flatMap fun r => (dmaPieces d r).map fun q =>
    if dst then (step + q.do_, if mConvert d = 1 then q.n * halfBytes (mDstFmt d) / halfBytes (mSrcFmt d) else q.n) else (step + q.so, q.n)

/-- Till rows of one side of a descriptor at tile `t`: of its data, of the FP4 scale bytes and of the ledger plane that it moves with them. -/
def Core.dmaRows (c : Core) (d t : Nat) (dst : Bool) : List Nat :=
  let isH := if dst then mDstIsH d else mSrcIsH d
  let x := c.handle (if dst then mDstH d else mSrcH d)
  let y := c.handle (if dst then mDstLedgerH d else mSrcLedgerH d)
  if isH = 0 || mRowBytes d = 0 then [] else
  let spans := dmaSpans d t dst
  let data := if hMem x ≠ 0 then [] else spans.flatMap fun q => tillRows (hBase x + (if dst then mDst d else mSrc d) + q.1) q.2
  let scales := if hMem x ≠ 0 || mConvert d = 0 || (if dst then mDstFmt d else mSrcFmt d) ≠ 6 then [] else
    spans.flatMap fun q => tillRows (hBase x + (if dst then mDst d else mSrc d) + fp4Place d (if dst then 1 else 0) q.1) (ceilDiv (2 * q.2) 32)
  let led := if hMem y ≠ 0 || mLedger d = 0 || (!dst && mSrcLed d = 0) then [] else
    let blk := if dst then mDstBlock d else mSrcBlock d
    spans.flatMap fun q => tillRows (hBase y + (if dst then mDstLedger d else mSrcLedger d) + q.1 / blk) (ceilDiv q.2 blk)
  (data ++ scales ++ led).eraseDups

/-- Source bytes of a descriptor's data that lie in a Till row of its destination. -/
def Core.rowBytes (c : Core) (d t row : Nat) : Nat :=
  let x := c.handle (mDstH d)
  if mDstIsH d = 0 || hMem x ≠ 0 then 0 else
  let n := (dmaSpans d t true).foldl (fun n q =>
    let a := hBase x + mDst d + q.1
    n + (Nat.min (a + q.2) (row * 128 + 128) - Nat.max a (row * 128))) 0
  if mConvert d = 1 then n * halfBytes (mSrcFmt d) / Nat.max (halfBytes (mDstFmt d)) 1 else n

def Core.mark (c : Core) (row : Nat) : Nat := kget (fun _ => 0) c.rowMark row

/-- The marks of an accepted load's destination rows set (R112). -/
def Core.setMarks (c : Core) (d t : Nat) : Core :=
  if mToken d = 0 then c else
  { c with rowMark := (c.dmaRows d t true).foldl (fun m r => kput (fun _ => 0) m r (mToken d)) c.rowMark }

/-- Marks of token `k` on the given rows return to 0; another load's marks stay (R116). -/
def Core.dropMarks (c : Core) (k : Nat) (rows : List Nat) : Core :=
  { c with rowMark := rows.foldl (fun m r => if kget (fun _ => 0) m r = k then kput (fun _ => 0) m r 0 else m) c.rowMark }

/-- A descriptor that still waits on a mark (R113, R114). -/
def Core.dmaWaits (c : Core) (d t : Nat) (passed : Bool) : Bool :=
  let reads := c.dmaRows d t false
  reads.any (fun r => c.mark r ≠ 0)
    || (decide (mToken d ≠ 0) && decide (reads ≠ []) && !passed && c.rowMark.any fun e => e.2 = mToken d)
    || (c.dmaRows d t true).any fun r => c.mark r ≠ 0 && c.mark r ≠ mToken d

/-- `n` source bytes that a descriptor moved between a core and a Strongroom or DRAM, counted by path (R134, R137; log entry 145). -/
def State.countMove (s : State) (h p unit d n : Nat) : State :=
  let c := (s.half h).core p
  let kind (isH hd a : Nat) : Nat :=
    if isH = 1 then (match hMem (c.handle hd) with | 0 => 0 | 3 => 0 | _ => 1)
    else if inStr 0 a 1 || inStr 1 a 1 then 1 else 2
  match kind (mSrcIsH d) (mSrcH d) (mSrc d), kind (mDstIsH d) (mDstH d) (mDst d) with
  | 0, 1 => s.upd h fun x => x.incw F.TIL_MOVE_TS_bytes unit 0 n
  | 1, 0 => s.upd h fun x => x.incw F.TIL_MOVE_ST_bytes unit 0 n
  | 0, 2 => s.upd h fun x => x.incw F.TIL_MOVE_TD_bytes unit 0 n
  | 2, 0 => s.upd h fun x => x.incw F.TIL_MOVE_DT_bytes unit 0 n
  | _, _ => s

end Sys2Proof.Machine
end

