-- ==== Sys2Proof/Machine/Spirv.lean ====
section
/-! DEFINITION. SPIR-V 1.6 modules as the SIMT clusters read them (R74): instructions, types and their layout, constants and variables, and the arithmetic of one
thread (R75). Opcode numbers, decorations and built-ins are those of the SPIR-V specification, which the manual names without repeating (log entry 146). -/
namespace Sys2Proof.Machine

/-! ## Modules -/

/-- An instruction: its opcode and its operand words. -/
structure Ins where
  op : Nat
  a : List Nat
deriving DecidableEq, Repr

def Ins.arg (i : Ins) (k : Nat) : Nat := i.a.getD k 0

/-- The instructions in a word stream: each first word gives its own length and opcode; a length of 0 ends the module. -/
def parseIns : Nat → List Nat → List Ins
  | 0, _ => []
  | _ + 1, [] => []
  | k + 1, w :: r =>
    let n := w / 65536
    if n = 0 then [] else ⟨w % 65536, r.take (n - 1)⟩ :: parseIns k (r.drop (n - 1))

/-- A value of a thread: its scalars in order, each as its bits. A pointer is four scalars: what it points into, which one, the byte offset, and the bytes from
one component to the next of a vector that is a column of a row-major matrix, 0 elsewhere. -/
abbrev Val := List Nat

/-- A module with its constants, and its variables' pointers, by result ID. -/
structure Mod where
  ins : List Ins
  vals : List (Nat × Val)
deriving DecidableEq, Repr

def Mod.at (m : Mod) (pc : Nat) : Ins := m.ins.getD pc ⟨0, []⟩

/-- The defining instruction of a type. -/
def tyIns (l : List Ins) (id : Nat) : Ins := (l.find? fun i => decide (19 ≤ i.op) && decide (i.op ≤ 33) && decide (i.arg 0 = id)).getD ⟨0, []⟩

/-- A decoration of an ID, and of a structure's member. -/
def deco (l : List Ins) (id d : Nat) : Option Nat := (l.find? fun i => i.op = 71 && i.arg 0 = id && i.arg 1 = d).map (·.arg 2)
def memberDeco (l : List Ins) (id k d : Nat) : Option Nat := (l.find? fun i => i.op = 72 && i.arg 0 = id && i.arg 1 = k && i.arg 2 = d).map (·.arg 3)

/-- The literal of an integer constant, as an array's length names it. -/
def constLit (l : List Ins) (id : Nat) : Nat := ((l.find? fun i => (i.op = 43 || i.op = 50) && i.arg 1 = id).map (·.arg 2)).getD 0

/-- Bytes of a scalar type. -/
def scalarBytes (i : Ins) : Nat := match i.op with | 20 => 4 | 21 => i.arg 1 / 8 | 22 => i.arg 1 / 8 | _ => 8

/-- The scalars of a type in memory: byte offset and bytes. Explicit layouts follow their decorations (ArrayStride 6, MatrixStride 7, Offset 35); what carries
none is packed. `ms` is the matrix stride of the member, 0 for none, with `rowMajor` added where the member is row-major (RowMajor 4). The first argument bounds the
nesting. -/
def rowMajor : Nat := 2 ^ 40

/-- Matrix stride and order of a structure's member. -/
def memberMatrix (l : List Ins) (ty c : Nat) : Nat :=
  (memberDeco l ty c 7).getD 0 + if l.any fun i => i.op = 72 && i.arg 0 = ty && i.arg 1 = c && i.arg 2 = 4 then rowMajor else 0

/-- The scalars of a type in memory, as above. -/
def leaves (l : List Ins) : Nat → Nat → Nat → Nat → List (Nat × Nat)
  | 0, _, _, _ => []
  | k + 1, ty, ms, off =>
    let i := tyIns l ty
    let span (t s : Nat) : Nat := ((leaves l k t s 0).map fun e => e.1 + e.2).foldl Nat.max 0
    match i.op with
    | 20 => [(off, scalarBytes i)]
    | 21 => [(off, scalarBytes i)]
    | 22 => [(off, scalarBytes i)]
    | 32 => [(off, 8), (off + 8, 8), (off + 16, 8), (off + 24, 8)]
    | 23 => (List.range (i.arg 2)).flatMap fun c => leaves l k (i.arg 1) 0 (off + c * span (i.arg 1) 0)
    | 24 =>
      let v := tyIns l (i.arg 1)
      let w := scalarBytes (tyIns l (v.arg 1))
      let st := if ms = 0 then span (i.arg 1) 0 else ms
      if rowMajor ≤ ms then (List.range (i.arg 2)).flatMap fun c => (List.range (v.arg 2)).map fun r => (off + c * w + r * (ms - rowMajor), w) else (List.range (i.arg 2)).flatMap fun c => leaves l k (i.arg 1) 0 (off + c * st)
    | 28 =>
      let st := (deco l ty 6).getD (span (i.arg 1) ms)
      (List.range (constLit l (i.arg 2))).flatMap fun c => leaves l k (i.arg 1) ms (off + c * st)
    | 30 =>
      let ms' (c : Nat) := memberMatrix l ty c
      let place (c : Nat) := (memberDeco l ty c 35).getD ((List.range c).foldl (fun a j => a + span (i.a.getD (j + 1) 0) (ms' j)) 0)
      (List.range (i.a.length - 1)).flatMap fun c => leaves l k (i.a.getD (c + 1) 0) (ms' c) (off + place c)
    | _ => []

/-- Nesting bound of types. -/
def tyFuel : Nat := 12

def tyLeaves (l : List Ins) (ty : Nat) : List (Nat × Nat) := leaves l tyFuel ty 0 0
def tySpan (l : List Ins) (ty : Nat) : Nat := ((tyLeaves l ty).map fun e => e.1 + e.2).foldl Nat.max 0
def tyCount (l : List Ins) (ty : Nat) : Nat := (tyLeaves l ty).length

/-- The element type and the scalars before element `k` of a composite. -/
def elemAt (l : List Ins) (ty k : Nat) : Nat × Nat :=
  let i := tyIns l ty
  if i.op = 30 then (i.a.getD (k + 1) 0, (List.range k).foldl (fun a j => a + tyCount l (i.a.getD (j + 1) 0)) 0) else (i.arg 1, k * tyCount l (i.arg 1))

/-- The scalars that an index path selects: first and number. -/
def pathAt (l : List Ins) : List Nat → Nat → Nat → Nat × Nat
  | [], ty, at0 => (at0, tyCount l ty)
  | k :: r, ty, at0 => let e := elemAt l ty k; pathAt l r e.1 (at0 + e.2)

/-- From a pointer to a value of type `ty`: the byte offset of the value that the indices select, as an integer, and the distance of its components where it is a
column of a row-major matrix. `ms` is the matrix stride of the member, or the distance of the components of such a column. -/
def chainOff (l : List Ins) : List Int → Nat → Nat → Int → Int × Nat
  | [], ty, ms, off => (off, if (tyIns l ty).op = 23 then ms else 0)
  | k :: r, ty, ms, off =>
    let i := tyIns l ty
    if i.op = 30 then
      let c := k.toNat
      let place := (memberDeco l ty c 35).getD ((List.range c).foldl (fun a j => a + tySpan l (i.a.getD (j + 1) 0)) 0)
      chainOff l r (i.a.getD (c + 1) 0) (memberMatrix l ty c) (off + place)
    else if i.op = 24 && rowMajor ≤ ms then chainOff l r (i.arg 1) (ms - rowMajor) (off + k * scalarBytes (tyIns l ((tyIns l (i.arg 1)).arg 1)))
    else
      let st := if (i.op = 24 || i.op = 23) && ms ≠ 0 then ms else (deco l ty 6).getD (tySpan l (i.arg 1))
      chainOff l r (i.arg 1) (if i.op = 24 then 0 else ms) (off + k * st)

/-- Width in bits and kind (float) of the components of a type. -/
def compIns (l : List Ins) (ty : Nat) : Ins :=
  let i := tyIns l ty
  let j := if i.op = 23 || i.op = 24 then tyIns l (i.arg 1) else i
  if j.op = 23 then tyIns l (j.arg 1) else j
def compBits (l : List Ins) (ty : Nat) : Nat := let i := compIns l ty; if i.op = 20 then 1 else if i.op = 32 then 64 else i.arg 1
def compFloat (l : List Ins) (ty : Nat) : Bool := (compIns l ty).op = 22

/-! ## Arithmetic of a thread (R75) -/

/-- A two's-complement value of `w` bits. -/
def sgnW (w v : Nat) : Int := if v < 2 ^ (w - 1) then (v : Int) else (v : Int) - 2 ^ w
def wrapW (w : Nat) (v : Int) : Nat := (v % 2 ^ w).toNat

/-- FP32 or FP16 bits as a value, and a value rounded to the nearest of them, ties to even; NaN results are the canonical NaN. -/
def fDec (w v : Nat) : Num := decodeFloat (if w = 16 then 1 else 0) v
def fEnc (w : Nat) (v : Num) : Nat := (convFloat (if w = 16 then 1 else 0) false true v).w

def boolVal (b : Bool) : Nat := if b then 1 else 0

/-- A value cut to an integer toward zero. -/
def Num.trunc (v : Num) : Int :=
  match v with
  | .fin n m e => let q : Nat := if e < 0 then m / 2 ^ e.natAbs else m * 2 ^ e.toNat; if n then -(q : Int) else q
  | _ => 0

/-- Rounded to an integer value: mode 0 nearest even, 1 toward zero, 2 down, 3 up. -/
def Num.toInteger (mode : Nat) (v : Num) : Num :=
  match v with
  | .fin n m e =>
    if 0 ≤ e then v else
    let d := 2 ^ e.natAbs
    let q := m / d
    let r := m % d
    let up := match mode with
      | 0 => decide (d < 2 * r) || (decide (2 * r = d) && decide (q % 2 = 1))
      | 1 => false
      | 2 => n && decide (r ≠ 0)
      | _ => !n && decide (r ≠ 0)
    .fin n (if up then q + 1 else q) 0
  | x => x

/-- Bits of a value reversed, and counted. -/
def bitRev (w v : Nat) : Nat := (List.range w).foldl (fun a i => a * 2 + bits v i 1) 0
def bitCnt (w v : Nat) : Nat := (List.range w).foldl (fun a i => a + bits v i 1) 0

/-- An integer operation on two components of `w` bits; none where SPIR-V leaves the result undefined. -/
def intOp (op w a b : Nat) : Option Nat :=
  let sa := sgnW w a
  let sb := sgnW w b
  match op with
  | 128 => some ((a + b) % 2 ^ w)
  | 130 => some (wrapW w ((a : Int) - b))
  | 132 => some (a * b % 2 ^ w)
  | 134 => if b = 0 then none else some (a / b)
  | 135 => if b = 0 || (sa = -(2 ^ (w - 1) : Int) && sb = -1) then none else some (wrapW w (sa.tdiv sb))
  | 137 => if b = 0 then none else some (a % b)
  | 138 => if b = 0 || (sa = -(2 ^ (w - 1) : Int) && sb = -1) then none else some (wrapW w (sa.tmod sb))
  | 139 => if b = 0 || (sa = -(2 ^ (w - 1) : Int) && sb = -1) then none else some (wrapW w (sa.fmod sb))
  | 164 => some (boolVal (a = b))
  | 165 => some (boolVal (a ≠ b))
  | 166 => some (boolVal (a = 1 || b = 1))
  | 167 => some (boolVal (a = 1 && b = 1))
  | 170 => some (boolVal (a = b))
  | 171 => some (boolVal (a ≠ b))
  | 172 => some (boolVal (b < a))
  | 173 => some (boolVal (sb < sa))
  | 174 => some (boolVal (b ≤ a))
  | 175 => some (boolVal (sb ≤ sa))
  | 176 => some (boolVal (a < b))
  | 177 => some (boolVal (sa < sb))
  | 178 => some (boolVal (a ≤ b))
  | 179 => some (boolVal (sa ≤ sb))
  | 194 => if w ≤ b then none else some (a / 2 ^ b)
  | 195 => if w ≤ b then none else some (wrapW w (sa / 2 ^ b))
  | 196 => if w ≤ b then none else some (a * 2 ^ b % 2 ^ w)
  | 197 => some (a ||| b)
  | 198 => some (a ^^^ b)
  | 199 => some (a &&& b)
  | _ => none

/-- Ordered comparison of two values: less, equal, or unordered. -/
def fCmp (a b : Num) : Option (Bool × Bool) := if a = .nan || b = .nan then none else some (a.lt b, !a.lt b && !b.lt a)

/-- A comparison of two floats: the unordered forms (odd opcodes) hold on NaN. -/
def fRel (op : Nat) (a b : Num) : Nat :=
  match fCmp a b with
  | none => boolVal (op % 2 = 1)
  | some (l, e) =>
    boolVal (match op / 2 with
      | 90 => e
      | 91 => !e
      | 92 => l
      | 93 => !l && !e
      | 94 => l || e
      | _ => !l)

/-- The remainder of a finite value by a finite divisor other than 0: with the dividend's sign, or with the divisor's where `floor`. -/
def Num.rem (a b : Num) (floor : Bool) : Option Num :=
  match a, b with
  | .fin n m e, .fin n' m' e' =>
    if m' = 0 then none else
    let k := min e e'
    let x : Int := (m * 2 ^ (e - k).toNat : Nat)
    let y : Int := (m' * 2 ^ (e' - k).toNat : Nat)
    let u := if n then -x else x
    let v := if n' then -y else y
    let r := if floor then u.fmod v else u.tmod v
    some (.fin (if r = 0 then (if floor then n' else n) else decide (r < 0)) r.natAbs k)
  | .fin _ _ _, .inf _ => if floor then none else some a
  | _, _ => none

/-- A float operation; none where R75 states no result. -/
def fltOp (op w a b : Nat) : Option Nat :=
  let x := fDec w a
  let y := fDec w b
  match op with
  | 129 => some (fEnc w (x.addX y))
  | 131 => some (fEnc w (x.addX y.negate))
  | 133 => some (fEnc w (x.mulX y))
  | 142 => some (fEnc w (x.mulX y))
  | 143 => some (fEnc w (x.mulX y))
  | 136 => some (fEnc w (x.div32 y))
  | 140 => (x.rem y false).map (fEnc w)
  | 141 => (x.rem y true).map (fEnc w)
  | _ => if 180 ≤ op && op ≤ 191 then some (fRel op x y) else none

/-- log2 of a positive fixed-point value between 1 and 2, in fixed point, bit by bit. -/
def fixLog2 : Nat → Int → Int → Int
  | 0, _, _ => 0
  | k + 1, x, u => let y := fixMul x x; if 2 * fixOne ≤ y then u + fixLog2 k (y / 2) (u / 2) else fixLog2 k y (u / 2)

/-- An FP32 value within 3 units in the last place of a fixed-point value (R75), as a free value chooses. -/
def near3 (f : Int) (c : Nat) : Num × Nat :=
  let r := roundFrac 24 (-149) true ⟨f.natAbs, fixOne.toNat⟩
  (toF32 (.fin (decide (f < 0)) (r.1 + Config.free c % 6 - 2) r.2), c + 1)

/-- exp2 and log2 (R75). -/
def exp2Near (x : Num) (c : Nat) : Num × Nat :=
  match x with
  | .nan => (.nan, c)
  | .inf n => (if n then .zero else .inf false, c)
  | .fin n m e =>
    if m = 0 then (.one, c)
    else if (Frac.pow2 128 0).le (.pow2 m e) && !n then (.inf false, c)
    else if (Frac.pow2 160 0).le (.pow2 m e) then near3 0 c
    else
      let k := (Num.fin n m e).fix / fixOne
      let f := (Num.fin n m e).fix % fixOne
      -- ln 2 in fixed point
      let y := fixExp (fixMul f 1113844574712631719546256151097547306333272293549090750737802)
      near3 (if k < 0 then y / 2 ^ k.natAbs else y * 2 ^ k.toNat) c

def log2Near (x : Num) (c : Nat) : Num × Nat :=
  match x with
  | .nan => (.nan, c)
  | .inf n => (if n then .nan else .inf false, c)
  | .fin n m e =>
    if m = 0 then (.inf true, c) else if n then (.nan, c)
    else
      let k := Nat.log2 m
      let f : Int := (m : Int) * fixOne / 2 ^ k
      let v := ((k : Int) + e) * fixOne + fixLog2 100 f (fixOne / 2)
      if v = 0 then (.zero, c) else near3 v c

/-- A conversion of one component from `ws` to `w` bits; none where it is undefined. -/
def convOp (op ws w a : Nat) : Option Nat :=
  let x := fDec ws a
  match op with
  | 109 => let t := x.trunc; if x.finite && 0 ≤ t && t < 2 ^ w then some t.toNat else none
  | 110 => let t := x.trunc; if x.finite && -(2 ^ (w - 1) : Int) ≤ t && t < 2 ^ (w - 1) then some (wrapW w t) else none
  | 111 => some (fEnc w (.fin (decide (sgnW ws a < 0)) (sgnW ws a).natAbs 0))
  | 112 => some (fEnc w (.fin false a 0))
  | 113 => some (a % 2 ^ w)
  | 114 => some (wrapW w (sgnW ws a))
  | 115 => some (fEnc w x)
  | 116 => some (fEnc 32 (fDec 16 (fEnc 16 x)))
  | 126 => some (wrapW w (-(sgnW w a)))
  | 127 => some (fEnc w x.negate)
  | 156 => some (boolVal (x = .nan))
  | 157 => some (boolVal (x = .inf true || x = .inf false))
  | 168 => some (1 - a)
  | 200 => some (2 ^ w - 1 - a % 2 ^ w)
  | 204 => some (bitRev w a)
  | 205 => some (bitCnt ws a)
  | _ => none

/-- The lowest or the highest set bit of a value; all ones for none. -/
def findBit (w v : Nat) (high : Bool) : Nat :=
  match (if high then ((List.range w).reverse.find? fun i => bits v i 1 = 1) else ((List.range w).find? fun i => bits v i 1 = 1)) with
  | some i => i
  | none => 2 ^ w - 1

/-- An instruction of the GLSL.std.450 set on components; none where R75 and the set state no result. Instructions that the set defines by an expression are
computed by it, each operation rounded (log entry 146). -/
def extOp (op w : Nat) (x : List Nat) : Option Nat :=
  let a := x.getD 0 0
  let b := x.getD 1 0
  let d := x.getD 2 0
  let fa := fDec w a
  let fb := fDec w b
  let fd := fDec w d
  let fmin (p q : Num) : Num := if q.lt p then q else p
  let fmax (p q : Num) : Num := if p.lt q then q else p
  let add (p q : Nat) : Nat := (fltOp 129 w p q).getD 0
  let sub (p q : Nat) : Nat := (fltOp 131 w p q).getD 0
  let mul (p q : Nat) : Nat := (fltOp 133 w p q).getD 0
  let one : Nat := fEnc w .one
  let nmin (p q : Num) : Num := if p = .nan then q else if q = .nan then p else fmin p q
  let nmax (p q : Num) : Num := if p = .nan then q else if q = .nan then p else fmax p q
  match op with
  | 1 => some (fEnc w (fa.toInteger 0))
  | 2 => some (fEnc w (fa.toInteger 0))
  | 3 => some (fEnc w (fa.toInteger 1))
  | 8 => some (fEnc w (fa.toInteger 2))
  | 9 => some (fEnc w (fa.toInteger 3))
  | 10 => some (fEnc w (fa.addX (fa.toInteger 2).negate))
  | 4 => some (fEnc w fa.abs)
  | 5 => some (wrapW w (sgnW w a).natAbs)
  | 6 => some (fEnc w (if fa.isZero || fa = .nan then fa else .fin fa.neg? 1 0))
  | 7 => some (wrapW w (sgnW w a).sign)
  | 31 => some (fEnc w fa.sqrt32)
  | 37 => if fa = .nan || fb = .nan then none else some (fEnc w (fmin fa fb))
  | 38 => some (Nat.min a b)
  | 39 => some (if sgnW w a ≤ sgnW w b then a else b)
  | 40 => if fa = .nan || fb = .nan then none else some (fEnc w (fmax fa fb))
  | 41 => some (Nat.max a b)
  | 42 => some (if sgnW w a ≤ sgnW w b then b else a)
  | 43 => if fa = .nan || fb = .nan || fd = .nan || fd.lt fb then none else some (fEnc w (fmin (fmax fa fb) fd))
  | 44 => if d < b then none else some (Nat.min (Nat.max a b) d)
  | 45 => if sgnW w d < sgnW w b then none else some (if sgnW w a < sgnW w b then b else if sgnW w d < sgnW w a then d else a)
  | 46 => some (add (mul a (sub one d)) (mul b d))
  | 48 => some (fEnc w (if fb.lt fa then .zero else .one))
  | 49 =>
    if fa = .nan || fb = .nan || fd = .nan || !fa.lt fb then none else
    let t := fEnc w (fmin (fmax (fDec w ((fltOp 136 w (sub d a) (sub b a)).getD 0)) .zero) .one)
    some (mul (mul t t) (sub (fEnc w (.fin false 3 0)) (mul (fEnc w (.fin false 2 0)) t)))
  | 50 => some (fEnc w ((fa.mulX fb).addX fd))
  | 53 => if fa.finite then some (fEnc w (fa.mulX (.fin false 1 (sgnW 32 b)))) else some (fEnc w fa)
  | 73 => some (findBit w a false)
  | 74 => some (findBit w (if sgnW w a < 0 then 2 ^ w - 1 - a else a) true)
  | 75 => some (findBit w a true)
  | 79 => some (fEnc w (nmin fa fb))
  | 80 => some (fEnc w (nmax fa fb))
  | 81 => some (fEnc w (nmin (nmax fa fb) fd))
  | _ => none

/-- The given result, or a free value of the width where there is none. -/
def orFree (w : Nat) (v : Option Nat) (c : Nat) : Nat × Nat :=
  match v with
  | some x => (x, c)
  | none => (Config.free c % 2 ^ w, c + 1)

/-- Components in turn, the counter threaded. -/
def mapFree (f : Nat → Nat → Nat × Nat) : List Nat → Nat → List Nat × Nat
  | [], c => ([], c)
  | i :: r, c => let a := f i c; let b := mapFree f r a.2; (a.1 :: b.1, b.2)

/-- Scalars of width `ws` joined and cut again to width `w` (Bitcast). -/
def recast (ws w n : Nat) (v : Val) : Val :=
  let all := (List.range v.length).foldl (fun a i => a + v.getD i 0 % 2 ^ ws * 2 ^ (ws * i)) 0
  (List.range n).map fun i => bits all (w * i) w

/-- A dot product of FP32 or FP16 components: rounded products summed in an order left open. -/
def dotFree (w : Nat) (a b : List Nat) (c : Nat) : Nat × Nat :=
  let ps := (List.range a.length).map fun i => fDec w (fEnc w ((fDec w (a.getD i 0)).mulX (fDec w (b.getD i 0))))
  let r := reduceFree (fun x y => fDec w (fEnc w (x.addX y))) ps.length ps c
  (fEnc w r.1, r.2)

/-- Instructions that act on values alone: the result's scalars. `ty` is the result type, `tys` the operand types, `vs` the operands. -/
def alu (l : List Ins) (op ty : Nat) (tys : List Nat) (vs : List Val) (lits : List Nat) (c : Nat) : Val × Nat :=
  let n := tyCount l ty
  let w := compBits l ty
  let t0 := tys.getD 0 0
  let ws := compBits l t0
  let v (k : Nat) : Val := vs.getD k []
  let g (k i : Nat) : Nat := (v k).getD i 0
  let each (f : Nat → Nat → Nat × Nat) : Val × Nat := mapFree f (List.range n) c
  -- matrix columns: rows of the operand k's columns
  let rows (t : Nat) : Nat := tyCount l ((tyIns l t).arg 1)
  let col (k r j : Nat) : List Nat := ((v k).drop (j * r)).take r
  let row (k r i : Nat) : List Nat := (List.range ((v k).length / Nat.max r 1)).map fun j => g k (j * r + i)
  match op with
  | 80 => (vs.flatten, c)
  | 83 => (v 0, c)
  | 400 => (v 0, c)
  | 81 => let p := pathAt l lits t0 0; (((v 0).drop p.1).take p.2, c)
  | 82 => let p := pathAt l lits (tys.getD 1 0) 0; ((v 1).take p.1 ++ v 0 ++ (v 1).drop (p.1 + p.2), c)
  | 77 => if g 1 0 < (v 0).length then ([g 0 (g 1 0)], c) else each fun _ c => orFree w none c
  | 78 => if g 2 0 < (v 0).length then ((v 0).set (g 2 0) (g 1 0), c) else each fun _ c => orFree w none c
  | 79 => each fun i c => let k := lits.getD i 0; if k < (v 0).length + (v 1).length then ((v 0 ++ v 1).getD k 0, c) else orFree w none c
  | 84 => let r := rows t0; ((List.range r).flatMap fun i => row 0 r i, c)
  | 124 => (recast ws w n (v 0), c)
  | 142 => each fun i c => orFree w (fltOp 142 w (g 0 i) (g 1 0)) c
  | 143 => each fun i c => orFree w (fltOp 143 w (g 0 i) (g 1 0)) c
  | 144 => each fun i c => dotFree w (v 0) (col 1 (v 0).length i) c
  | 145 => each fun i c => dotFree w (row 0 (rows t0) i) (v 1) c
  | 146 => each fun i c => let r := rows t0; let q := rows (tys.getD 1 0); dotFree w (row 0 r (i % r)) (col 1 q (i / r)) c
  | 147 => each fun i c => let r := (v 0).length; orFree w (fltOp 133 w (g 0 (i % r)) (g 1 (i / r))) c
  | 148 => let r := dotFree w (v 0) (v 1) c; ([r.1], r.2)
  | 149 => let k := (v 0).length; ((List.range n).map fun i => if i < k then (g 0 i + g 1 i) % 2 ^ ws else (g 0 (i - k) + g 1 (i - k)) / 2 ^ ws, c)
  | 150 => let k := (v 0).length; ((List.range n).map fun i => if i < k then wrapW ws ((g 0 i : Int) - g 1 i) else boolVal (g 0 (i - k) < g 1 (i - k)), c)
  | 151 => let k := (v 0).length; ((List.range n).map fun i => if i < k then g 0 i * g 1 i % 2 ^ ws else g 0 (i - k) * g 1 (i - k) / 2 ^ ws, c)
  | 152 =>
    let k := (v 0).length
    let p (i : Nat) : Nat := wrapW (2 * ws) (sgnW ws (g 0 i) * sgnW ws (g 1 i))
    ((List.range n).map fun i => if i < k then p i % 2 ^ ws else p (i - k) / 2 ^ ws, c)
  | 154 => ([boolVal ((v 0).any (· = 1))], c)
  | 155 => ([boolVal ((v 0).all (· = 1))], c)
  | 169 => (if (v 0).length = 1 then (if g 0 0 = 1 then v 1 else v 2) else (List.range n).map fun i => if g 0 i = 1 then g 1 i else g 2 i, c)
  | 201 => each fun i c =>
      let o := g 2 0
      let k := g 3 0
      if w < o + k then orFree w none c else (setBits (g 0 i) o k (g 1 i), c)
  | 202 => each fun i c => let o := g 1 0; let k := g 2 0; if w < o + k then orFree w none c else (if k = 0 then 0 else wrapW w (sgnW k (bits (g 0 i) o k)), c)
  | 203 => each fun i c => let o := g 1 0; let k := g 2 0; if w < o + k then orFree w none c else (bits (g 0 i) o k, c)
  | 401 => ([boolVal (v 0 = v 1)], c)
  | 402 => ([boolVal (v 0 ≠ v 1)], c)
  | _ =>
    if (decide (109 ≤ op) && decide (op ≤ 116)) || op = 126 || op = 127 || op = 156 || op = 157 || op = 168 || op = 200 || op = 204 || op = 205 then
      each fun i c => orFree w (convOp op ws w (g 0 i)) c
    else if op = 129 || op = 131 || op = 133 || op = 136 || op = 140 || op = 141 || (decide (180 ≤ op) && decide (op ≤ 191)) then
      each fun i c => orFree w (fltOp op ws (g 0 i) (g 1 i)) c
    else each fun i c => orFree w (intOp op ws (g 0 i) (g 1 i)) c

/-- A value as a signed or an unsigned fixed-point fraction of `b` bits, and back (the pack and unpack instructions of GLSL.std.450). -/
def packNorm (signed : Bool) (b : Nat) (v : Num) : Nat :=
  let top : Nat := if signed then 2 ^ (b - 1) - 1 else 2 ^ b - 1
  match v with
  | .nan => 0
  | .inf n => if n then (if signed then 2 ^ b - top else 0) else top
  | .fin n m e =>
    match (Num.fin n m e |>.mulX (.fin false top 0)).toInteger 0 with
    | .fin n m e =>
      let q := Nat.min (m * 2 ^ e.toNat) top
      if n then (if signed then (2 ^ b - q) % 2 ^ b else 0) else q
    | _ => 0
def unpackNorm (signed : Bool) (b v : Nat) : Num :=
  if signed then (let q := sgnW b v; let t : Num := .fin (decide (q < 0)) (Nat.min q.natAbs (2 ^ (b - 1) - 1)) 0; t.div32 (.fin false (2 ^ (b - 1) - 1) 0))
  else (Num.fin false v 0).div32 (.fin false (2 ^ b - 1) 0)

/-- The instructions of GLSL.std.450 that do not act component by component: cross product, and the packed forms. -/
def extWhole (op w : Nat) (x y : Val) : Option Val :=
  let f (op a b : Nat) : Nat := (fltOp op w a b).getD 0
  let cross (i j : Nat) : Nat := f 131 (f 133 (x.getD i 0) (y.getD j 0)) (f 133 (y.getD i 0) (x.getD j 0))
  let pack (k b : Nat) (g : Nat → Nat) : Val := [(List.range k).foldl (fun a i => a + g (x.getD i 0) % 2 ^ b * 2 ^ (b * i)) 0]
  let unpack (k b : Nat) (g : Nat → Nat) : Val := (List.range k).map fun i => g (bits (x.getD 0 0) (b * i) b)
  match op with
  | 54 => some (pack 4 8 fun v => packNorm true 8 (fDec 32 v))
  | 55 => some (pack 4 8 fun v => packNorm false 8 (fDec 32 v))
  | 56 => some (pack 2 16 fun v => packNorm true 16 (fDec 32 v))
  | 57 => some (pack 2 16 fun v => packNorm false 16 (fDec 32 v))
  | 58 => some (pack 2 16 fun v => fEnc 16 (fDec 32 v))
  | 60 => some (unpack 2 16 fun v => fEnc 32 (unpackNorm true 16 v))
  | 61 => some (unpack 2 16 fun v => fEnc 32 (unpackNorm false 16 v))
  | 62 => some (unpack 2 16 fun v => fEnc 32 (fDec 16 v))
  | 63 => some (unpack 4 8 fun v => fEnc 32 (unpackNorm true 8 v))
  | 64 => some (unpack 4 8 fun v => fEnc 32 (unpackNorm false 8 v))
  | 68 => some [cross 1 2, cross 2 0, cross 0 1]
  | _ => none

/-- An extended instruction of GLSL.std.450. -/
def aluExt (l : List Ins) (op ty : Nat) (vs : List Val) (c : Nat) : Val × Nat :=
  let w := compBits l ty
  match extWhole op w (vs.getD 0 []) (vs.getD 1 []) with
  | some v => (v, c)
  | none => mapFree (fun i c =>
    let x := vs.map fun v => v.getD i 0
    if op = 29 && w = 32 then let r := exp2Near (fDec 32 (x.getD 0 0)) c; (fEnc 32 r.1, r.2)
    else if op = 30 && w = 32 then let r := log2Near (fDec 32 (x.getD 0 0)) c; (fEnc 32 r.1, r.2)
    else orFree w (extOp op w x) c) (List.range (tyCount l ty)) c

/-! ## Constants and variables -/

/-- What a pointer points into: 1 a binding, 2 workgroup memory, 3 the thread's own memory, 4 an input. -/
def ptrKind (storage : Nat) : Nat := match storage with | 4 => 2 | 6 => 3 | 7 => 3 | 1 => 4 | 3 => 3 | _ => 1

/-- A module's IDs that have a value before any thread runs, in order of definition: constants, and the pointers of variables. `wg` and `pv` are the bytes of
workgroup and of private memory given out so far. A module-level undef is a free value. -/
def modVals (l : List Ins) : List Ins → Nat → Nat → Nat → List (Nat × Val) → List (Nat × Val)
  | [], _, _, _, m => m
  | i :: r, wg, pv, c, m =>
    let put (v : Val) : List (Nat × Val) := kput (fun _ => []) m (i.arg 1) v
    let ty := i.arg 0
    let n := tyCount l ty
    let val (k : Nat) : Val := kget (fun _ => []) m k
    match i.op with
    | 1 => modVals l r wg pv (c + n) (put ((List.range n).map fun k => Config.free (c + k) % 2 ^ compBits l ty))
    | 41 => modVals l r wg pv c (put [1])
    | 48 => modVals l r wg pv c (put [1])
    | 42 => modVals l r wg pv c (put [0])
    | 49 => modVals l r wg pv c (put [0])
    | 43 => modVals l r wg pv c (put [(i.arg 2 + 2 ^ 32 * i.arg 3) % 2 ^ compBits l ty])
    | 50 => modVals l r wg pv c (put [(i.arg 2 + 2 ^ 32 * i.arg 3) % 2 ^ compBits l ty])
    | 44 => modVals l r wg pv c (put ((i.a.drop 2).flatMap val))
    | 51 => modVals l r wg pv c (put ((i.a.drop 2).flatMap val))
    | 46 => modVals l r wg pv c (put (List.replicate n 0))
    | 52 =>
      let args := i.a.drop 3
      let tyOf (k : Nat) : Nat := ((l.find? fun j => decide (41 ≤ j.op) && decide (j.op ≤ 52) && j.arg 1 = k).map (·.arg 0)).getD 0
      let a := alu l (i.arg 2) ty (args.map tyOf) (args.map val) (args.drop 1) c
      modVals l r wg pv a.2 (put a.1)
    | 59 =>
      let pointee := (tyIns l ty).arg 2
      let k := ptrKind (i.arg 2)
      let size := tySpan l pointee
      if k = 2 then modVals l r (wg + size) pv c (put [2, 0, wg])
      else if k = 3 then modVals l r wg (pv + size) c (put [3, 0, pv])
      else if k = 4 then modVals l r wg pv c (put [4, i.arg 1, 0])
      else modVals l r wg pv c (put [1, (deco l (i.arg 1) 33).getD 0, 0])
    | _ => modVals l r wg pv c m

/-- A module from its words after the five of its header; `c` is where its free values begin. -/
def Mod.ofWords (l : List Nat) (c : Nat) : Mod :=
  let ins := parseIns l.length (l.drop 5)
  { ins := ins, vals := modVals ins ins 0 0 c [] }

/-- The place of a label, of a function, and the label of the block that an instruction lies in. -/
def Mod.label (m : Mod) (id : Nat) : Nat := (m.ins.findIdx? fun i => i.op = 248 && i.arg 0 = id).getD m.ins.length
def Mod.fn (m : Mod) (id : Nat) : Nat := (m.ins.findIdx? fun i => i.op = 54 && i.arg 1 = id).getD m.ins.length
def Mod.block (m : Mod) (pc : Nat) : Nat := (((m.ins.take (pc + 1)).reverse.find? fun i => i.op = 248).map (·.arg 0)).getD 0

/-- The first label at or after a place. -/
def Mod.firstLabel (m : Mod) (pc : Nat) : Nat := (((m.ins.drop pc).find? fun i => i.op = 248).map (·.arg 0)).getD 0

/-- The entry function of the GLCompute execution model; none: no thread runs. -/
def Mod.entry (m : Mod) : Option Nat := (m.ins.find? fun i => i.op = 15 && i.arg 0 = 5).map (·.arg 1)

/-- The type of an ID's value. -/
def Mod.tyOf (m : Mod) (id : Nat) : Nat :=
  ((m.ins.find? fun i => decide (i.arg 1 = id) && (i.op = 1 || i.op = 12 || i.op = 55 || i.op = 57 || (decide (41 ≤ i.op) && decide (i.op ≤ 52)) || i.op = 59 || i.op = 60 || i.op = 61 ||
    (decide (65 ≤ i.op) && decide (i.op ≤ 70)) || (decide (77 ≤ i.op) && decide (i.op ≤ 223)) || (decide (227 ≤ i.op) && decide (i.op ≤ 242) && i.op ≠ 228) ||
    i.op = 245 || (decide (333 ≤ i.op) && decide (i.op ≤ 366)) || (decide (400 ≤ i.op) && decide (i.op ≤ 403)))).map (·.arg 0)).getD 0

/-- The type that a pointer ID points to. -/
def Mod.pointee (m : Mod) (id : Nat) : Nat := (tyIns m.ins (m.tyOf id)).arg 2

end Sys2Proof.Machine
end

