-- ==== Sys2Proof/Machine/Simt.lean ====
section
/-! DEFINITION. The SIMT clusters of a core (R66, R72-R77, R85): residency of workgroups, warps that diverge and reconverge, the execution of one instruction for
one warp, and the accesses of threads through bindings. -/
namespace Sys2Proof.Machine

/-! ## Workgroups (R73, R85) -/

/-- Workgroups of a launch block, and those of a tile: the first and their number; earlier tiles take one more. -/
def slGroups (b : Nat) : Nat := slGridX b * slGridY b * slGridZ b
def slTile (b tiles t : Nat) : Nat × Nat :=
  let n := Nat.max tiles 1
  let q := slGroups b / n
  let r := slGroups b % n
  (t * q + Nat.min t r, q + (if t < r then 1 else 0))

/-- Workgroups that a cluster holds at once (R73). -/
def slResident (b : Nat) : Nat :=
  let warps := ceilDiv (slThreads b) 32
  let regs := 65536 / (32 * Nat.max (ceilDiv (slRegs b) 8 * 8) 1)
  Nat.min (Nat.min 64 regs / Nat.max warps 1) (if slMem b = 0 then 64 else 65536 / slMem b)

/-- x, y and z of a workgroup's size, and of a number counted x-fastest in a box. -/
def slSize (b : Nat) : Nat × Nat × Nat := (bits b 64 16, bits b 80 16, bits b 96 16)
def box (n x y : Nat) : Nat × Nat × Nat := (n % Nat.max x 1, n / Nat.max x 1 % Nat.max y 1, n / Nat.max x 1 / Nat.max y 1)

/-! ## Bindings (R77, R85) -/

/-- What a running SIMT command is to its threads. -/
structure Cx where
  m : Mod
  h : Nat
  p : Nat
  vdi : Nat
  b : Nat

def Cx.core (cx : Cx) (s : State) : Core := (s.half cx.h).core cx.p

/-- An entry of the binding table. -/
def Cx.entry (cx : Cx) (s : State) (i : Nat) : Nat :=
  leNat (s.hRd cx.h cx.p ((cx.core s).handle (slBind cx.b)) (slBindOff cx.b + 16 * i) 16)

def bindBase (t : Nat) : Nat := tOff t + tScale t % 2 ^ 16 * 2 ^ 32

/-- Bytes of a binding's extent. -/
def Cx.extent (cx : Cx) (s : State) (i : Nat) : Nat :=
  let t := cx.entry s i
  if tHandle t = 0x3F then tLedOff t else hSize ((cx.core s).handle (tHandle t)) - tOff t

/-- The outcome of an access of a thread. -/
inductive SimtRes where
  | ok
  | drop (st : Status)        -- outside the extent, or refused by the handle (R77, R110)
  | wait                      -- a marked Till row (R113)
  | fail (st : Status)        -- the memory refuses it
  | err (mem off : Nat)       -- a detected error in the core's own half (R119)
  | peer (off : Nat)          -- a detected error of a row of the other half's Strongroom (R120)
deriving DecidableEq, Repr

/-- The outcome of an access of the core's memory `mem`, 2 being the other half's Strongroom: an error is detected in the rows or words that it reads, all of a
load's, and of a store's those that it covers in part (R101, R104, R118). -/
def Cx.checked (cx : Cx) (s : State) (mem a n : Nat) (write : Bool) : SimtRes :=
  match s.detects cx.h cx.p mem (if write then partUnits mem a n else unitsOf mem a n) with
  | some off => if mem = 2 then .peer off else .err mem off
  | none => .ok

def Cx.access (cx : Cx) (s : State) (i off n : Nat) (write : Bool) : SimtRes :=
  let t := cx.entry s i
  if slBindCount cx.b ≤ i then .drop .outOfRange
  else if tHandle t = 0x3F then
    let a := bindBase t + off
    if tLedOff t < off + n then .drop .outOfRange
    else match s.access cx.h a n (some cx.vdi) with
      | .ok => .ok
      | .dataError =>
        if inStr cx.h a n then cx.checked s 1 (a - strBase cx.h) n write
        else if inStr (peer cx.h) a n then cx.checked s 2 (a - strBase (peer cx.h)) n write
        else if write then .ok else .fail .dataError
      | st => .fail st
  else
    let x := (cx.core s).handle (tHandle t)
    match handleCheck x cx.vdi (tOff t + off) n write with
    | .ok =>
      if hMem x = 0 && (rowsOf (hBase x + tOff t + off) n).any fun r => kget (fun _ => 0) (cx.core s).rowMark r ≠ 0 then .wait
      else match s.hAccess cx.h cx.p x (tOff t + off) n with
        | .ok => .ok
        | .dataError => cx.checked s (hMem x) (hBase x + tOff t + off) n write
        | st => .fail st
    | st => .drop st

def Cx.read (cx : Cx) (s : State) (i off n : Nat) : List Byte :=
  let t := cx.entry s i
  if tHandle t = 0x3F then s.rdBytes (bindBase t + off) n else s.hRd cx.h cx.p ((cx.core s).handle (tHandle t)) (tOff t + off) n

def Cx.write (cx : Cx) (s : State) (i off : Nat) (l : List Byte) : State :=
  let t := cx.entry s i
  if tHandle t = 0x3F then s.storeV cx.h cx.vdi (bindBase t + off) l else s.hWr cx.h cx.p ((cx.core s).handle (tHandle t)) (tOff t + off) l

/-- Till rows that an access touches. -/
def Cx.tillRows (cx : Cx) (s : State) (i off n : Nat) : List Nat :=
  let t := cx.entry s i
  let x := (cx.core s).handle (tHandle t)
  if tHandle t ≠ 0x3F && hMem x = 0 then rowsOf (hBase x + tOff t + off) n else []

/-! ## One warp while it executes -/

/-- The package, the counter of free values, what the tile has met so far, the warp, and its workgroup's memory. -/
structure Ex where
  s : State
  ctr : Nat
  oob : Nat
  refused : Option Status
  fail : Option Status
  err : Option (Nat × Nat)
  rows : List Nat
  w : Warp
  mem : List Host.Cell

def lanesOf (mask : Nat) : List Nat := (List.range 32).filter fun i => bits mask i 1 = 1
def maskOf (l : List Nat) : Nat := l.foldl (fun a i => setBits a i 1 1) 0

/-- The value of an ID in a lane: a constant or variable of the module, else the lane's register. -/
def Ex.val (e : Ex) (cx : Cx) (lane id : Nat) : Val :=
  match kget (fun _ => []) cx.m.vals id with
  | [] => kget (fun _ => []) e.w.regs (id * 32 + lane)
  | v => v

def Ex.num (e : Ex) (cx : Cx) (lane id : Nat) : Nat := (e.val cx lane id).getD 0 0
def Ex.set (e : Ex) (lane id : Nat) (v : Val) : Ex := { e with w := { e.w with regs := kput (fun _ => []) e.w.regs (id * 32 + lane) v } }
def Ex.onLanes (e : Ex) (mask : Nat) (f : Ex → Nat → Ex) : Ex := (lanesOf mask).foldl f e

/-- An access that a memory answered other than OK, noted: a dropped access is counted, other answers end the tile (R77, R110, R119). -/
def Ex.note (e : Ex) (cx : Cx) (r : SimtRes) : Ex :=
  match r with
  | .drop .outOfRange => { e with oob := e.oob + 1 }
  | .drop st => { e with refused := e.refused.orElse fun _ => some st }
  | .fail st => { e with fail := e.fail.orElse fun _ => some st }
  | .err m o => { e with err := e.err.orElse fun _ => some (m, o) }
  | .peer o => { e with s := e.s.strErr (peer cx.h) o, fail := e.fail.orElse fun _ => some .dataError }
  | _ => e

/-- Bytes of a span of scalars. -/
def spanOf (ls : List (Nat × Nat)) : Nat := (ls.map fun q => q.1 + q.2).foldl Nat.max 0

/-- Inputs of a thread, by built-in (R85). -/
def Cx.builtin (cx : Cx) (w : Warp) (lane var : Nat) : Val :=
  let z := slSize cx.b
  let n := 32 * w.idx + lane
  let loc := box n z.1 z.2.1
  let g := box w.wg (slGridX cx.b) (slGridY cx.b)
  let below (k : Nat) : Val := [2 ^ k % 2 ^ 32, 0, 0, 0]
  match (deco cx.m.ins var 11).getD 0 with
  | 24 => [slGridX cx.b, slGridY cx.b, slGridZ cx.b]
  | 25 => [z.1, z.2.1, z.2.2]
  | 26 => [g.1, g.2.1, g.2.2]
  | 27 => [loc.1, loc.2.1, loc.2.2]
  | 28 => [g.1 * z.1 + loc.1, g.2.1 * z.2.1 + loc.2.1, g.2.2 * z.2.2 + loc.2.2]
  | 29 => [n]
  | 36 => [32]
  | 38 => [ceilDiv (slThreads cx.b) 32]
  | 40 => [w.idx]
  | 41 => [lane]
  | 4416 => below lane
  | 4417 => [(2 ^ 32 - 2 ^ lane) % 2 ^ 32, 0, 0, 0]
  | 4418 => [(2 ^ 32 - 2 ^ (lane + 1)) % 2 ^ 32, 0, 0, 0]
  | 4419 => [2 ^ (lane + 1) - 1, 0, 0, 0]
  | 4420 => [2 ^ lane - 1, 0, 0, 0]
  | _ => []

/-- What a pointer's access of a span meets; only bindings can refuse. -/
def Ex.reach (e : Ex) (cx : Cx) (ptr : Val) (n : Nat) (write : Bool) : SimtRes :=
  if ptr.getD 0 0 = 1 then cx.access e.s (ptr.getD 1 0) (ptr.getD 2 0) n write else .ok

/-- The scalars of a value at a pointer: those of a column of a row-major matrix lie apart. -/
def placeOf (ptr : Val) (ls : List (Nat × Nat)) : List (Nat × Nat) :=
  let st := ptr.getD 3 0
  if st = 0 then ls else (List.range ls.length).map fun k => (k * st, (ls.getD k (0, 0)).2)

/-- The scalars of a value at a pointer; a dropped load gives zeros (R77). What workgroup memory, private memory and registers hold before anything has written
them is not stated: the model reads zeros (DESIGN CHOICE, log entry 163). -/
def Ex.load (e : Ex) (cx : Cx) (lane : Nat) (ptr : Val) (ls0 : List (Nat × Nat)) : Val × Ex :=
  let off := ptr.getD 2 0
  let ls := placeOf ptr ls0
  let n := spanOf ls
  let cut (l : List Byte) : Val := ls.map fun q => leNat ((l.drop q.1).take q.2)
  match ptr.getD 0 0 with
  | 1 =>
    match e.reach cx ptr n false with
    | .ok => (cut (cx.read e.s (ptr.getD 1 0) off n), { e with rows := e.rows ++ cx.tillRows e.s (ptr.getD 1 0) off n })
    | r => (ls.map fun _ => 0, e.note cx r)
  | 2 => (cut (cellsRead e.mem off n), e)
  | 3 => (cut (cellsRead e.w.priv (lane * 2 ^ 32 + off) n), e)
  | _ => (ls.map fun q => (cx.builtin e.w lane (ptr.getD 1 0)).getD ((off + q.1) / 4) 0, e)

/-- The scalars of a value stored at a pointer; a dropped store is discarded (R77). -/
def Ex.store (e : Ex) (cx : Cx) (lane : Nat) (ptr : Val) (ls0 : List (Nat × Nat)) (v : Val) : Ex :=
  let off := ptr.getD 2 0
  let ls := placeOf ptr ls0
  let ws := (List.range ls.length).map fun k => ((ls.getD k (0, 0)).1, leBytes (ls.getD k (0, 0)).2 (v.getD k 0))
  match ptr.getD 0 0 with
  | 1 =>
    match e.reach cx ptr (spanOf ls) true with
    | .ok => { e with s := ws.foldl (fun s q => cx.write s (ptr.getD 1 0) (off + q.1) q.2) e.s
                      rows := e.rows ++ cx.tillRows e.s (ptr.getD 1 0) off (spanOf ls) }
    | r => e.note cx r
  | 2 => { e with mem := ws.foldl (fun m q => cellsWrite m (off + q.1) q.2) e.mem }
  | 3 => { e with w := { e.w with priv := ws.foldl (fun m q => cellsWrite m (lane * 2 ^ 32 + off + q.1) q.2) e.w.priv } }
  | _ => e

/-! ## Paths of a warp (R76) -/

/-- A path enters block `t`: leaving what it was inside of up to the construct that merges there, or up to the loop that continues there. -/
def enter (stack : List (Nat × Nat)) (t : Nat) : List (Nat × Nat) × Nat :=
  match stack.findIdx? fun q => q.1 = t with
  | some k => (stack.drop (k + 1), t)
  | none =>
    match stack.findIdx? fun q => q.2 = t && q.2 ≠ 0 with
    | some k => (stack.drop k, 0)
    | none => (stack, 0)

/-- A construct begins: its merge block is noted once. -/
def begins (stack : List (Nat × Nat)) (q : Nat × Nat) : List (Nat × Nat) :=
  match stack.findIdx? fun r => r.1 = q.1 with
  | some k => stack.drop k
  | none => q :: stack

/-- A path parked at a merge block waits for every other path that is still inside the construct. -/
def Fibre.blocked (f : Fibre) (others : List Fibre) : Bool :=
  decide (f.tok ≠ 0) && others.any fun g => (List.range g.stack.length).any fun i => (g.stack.getD i (0, 0)).1 = f.tok && g.stack.drop (i + 1) = f.stack

/-- Paths that meet at one merge block become one. -/
def addFibre (l : List Fibre) (f : Fibre) : List Fibre :=
  if f.lanes = 0 then l
  else if f.tok ≠ 0 && l.any (fun g => g.pc = f.pc && g.tok = f.tok && g.stack = f.stack) then
    l.map fun g => if g.pc = f.pc && g.tok = f.tok && g.stack = f.stack then { g with lanes := maskOf (lanesOf g.lanes ++ lanesOf f.lanes) } else g
  else f :: l

/-- Lanes of a path branch to a block: its phi instructions take their values at once. -/
def Ex.goto (e : Ex) (cx : Cx) (f : Fibre) (lanes t : Nat) : Ex × Fibre :=
  let from_ := cx.m.block f.pc
  let pc := cx.m.label t
  let phis := (cx.m.ins.drop (pc + 1)).takeWhile fun i => i.op = 245
  let src (i : Ins) : Nat := ((List.range (i.a.length / 2)).find? fun k => i.arg (2 * k + 3) = from_ && k + 1 < i.a.length / 2).elim 0 fun k => i.arg (2 * k + 2)
  let e1 := e.onLanes lanes fun x lane =>
    let vs := phis.map fun i => (i.arg 1, x.val cx lane (src i))
    vs.foldl (fun y q => y.set lane q.1 q.2) x
  let q := enter f.stack t
  (e1, { pc := pc, lanes := lanes, stack := q.1, tok := q.2, wait := false })

/-- Lanes grouped by target block, in the order of the targets. -/
def Ex.spread (e : Ex) (cx : Cx) (f : Fibre) (ts : List Nat) (target : Nat → Nat) : Ex × List Fibre :=
  ts.eraseDups.foldl (fun a t =>
    let l := (lanesOf f.lanes).filter fun i => target i = t
    if l = [] then a else let g := a.1.goto cx f (maskOf l) t; (g.1, a.2 ++ [g.2])) (e, [])

/-- Marks a call among what a path is inside of. -/
def callTok : Nat := 2 ^ 32

/-- The end of a function: back to the call, with its value, or the end of the threads. -/
def Ex.ret (e : Ex) (cx : Cx) (f : Fibre) (v : Option Nat) : Ex × List Fibre :=
  match f.stack.findIdx? fun q => decide (callTok ≤ q.1) with
  | none => (e, [])
  | some k =>
    let tok := (f.stack.getD k (0, 0)).1
    let call := tok - callTok
    let e1 := match v with
      | some id => e.onLanes f.lanes fun x lane => x.set lane ((cx.m.at call).arg 1) (x.val cx lane id)
      | none => e
    (e1, [{ pc := call + 1, lanes := f.lanes, stack := f.stack.drop (k + 1), tok := tok, wait := false }])

/-! ## Subgroup operations (R74) -/

/-- The combination of two components by a group operation, and its identity. -/
def groupOp (op w a b : Nat) : Nat :=
  match op with
  | 349 => (intOp 128 w a b).getD 0
  | 350 => (fltOp 129 w a b).getD 0
  | 351 => (intOp 132 w a b).getD 0
  | 352 => (fltOp 133 w a b).getD 0
  | 353 => if sgnW w a ≤ sgnW w b then a else b
  | 354 => Nat.min a b
  | 355 => (extOp 79 w [a, b]).getD 0
  | 356 => if sgnW w a ≤ sgnW w b then b else a
  | 357 => Nat.max a b
  | 358 => (extOp 80 w [a, b]).getD 0
  | 359 => a &&& b
  | 360 => a ||| b
  | 361 => a ^^^ b
  | 362 => a &&& b
  | 363 => a ||| b
  | _ => a ^^^ b

def groupId (op w : Nat) : Nat :=
  match op with
  | 351 => 1
  | 352 => fEnc w .one
  | 353 => 2 ^ (w - 1) - 1
  | 354 => 2 ^ w - 1
  | 355 => fEnc w (.inf false)
  | 356 => 2 ^ (w - 1)
  | 358 => fEnc w (.inf true)
  | 359 => 2 ^ w - 1
  | 362 => 1
  | _ => 0

/-- A subgroup instruction over the active lanes. Group arithmetic combines in lane order (log entry 147); a value of a lane that is not active is free. -/
def Ex.group (e : Ex) (cx : Cx) (f : Fibre) (i : Ins) : Ex :=
  let act := lanesOf f.lanes
  let ty := i.arg 0
  let w := compBits cx.m.ins ty
  let n := tyCount cx.m.ins ty
  let v (x : Ex) (k lane : Nat) : Val := x.val cx lane (i.arg k)
  let first := act.headD 0
  let pred (lane : Nat) : Bool := (v e 3 lane).getD 0 0 = 1
  let ballot : Nat := maskOf (act.filter pred)
  let from_ (src : Nat → Nat) : Ex := e.onLanes f.lanes fun x lane =>
    if act.contains (src lane) then x.set lane (i.arg 1) (v e 3 (src lane))
    else let r := mapFree (fun _ c => orFree w none c) (List.range n) x.ctr; { x with ctr := r.2 }.set lane (i.arg 1) r.1
  let all (g : Nat → Val) : Ex := e.onLanes f.lanes fun x lane => x.set lane (i.arg 1) (g lane)
  match i.op with
  | 333 => all fun lane => [boolVal (lane = first)]
  | 334 => all fun _ => [boolVal (act.all pred)]
  | 335 => all fun _ => [boolVal (act.any pred)]
  | 336 => all fun _ => [boolVal (act.all fun k => v e 3 k = v e 3 first)]
  | 337 => from_ fun lane => (v e 4 lane).getD 0 0
  | 338 => from_ fun _ => first
  | 339 => all fun _ => [ballot, 0, 0, 0]
  | 340 => all fun lane => [bits ((v e 3 lane).getD 0 0) lane 1]
  | 341 => all fun lane => [bits ((v e 3 lane).getD 0 0) ((v e 4 lane).getD 0 0) 1]
  | 342 => all fun lane =>
      let m := (v e 4 lane).getD 0 0
      [bitCnt (match i.arg 3 with | 0 => 32 | 1 => lane + 1 | _ => lane) m]
  | 343 => all fun lane => [findBit 32 ((v e 3 lane).getD 0 0) false]
  | 344 => all fun lane => [findBit 32 ((v e 3 lane).getD 0 0) true]
  | 345 => from_ fun lane => (v e 4 lane).getD 0 0
  | 346 => from_ fun lane => lane ^^^ (v e 4 lane).getD 0 0
  | 347 => from_ fun lane => let d := (v e 4 lane).getD 0 0; if d ≤ lane then lane - d else 32
  | 348 => from_ fun lane => lane + (v e 4 lane).getD 0 0
  | _ =>
    all fun lane =>
      let size := if i.arg 3 = 3 then Nat.max ((v e 5 lane).getD 0 0) 1 else 32
      let set := act.filter fun k => k / size = lane / size && (match i.arg 3 with | 1 => decide (k ≤ lane) | 2 => decide (k < lane) | _ => true)
      (List.range n).map fun c =>
        match set.map fun k => (v e 4 k).getD c 0 with
        | [] => groupId i.op w
        | a :: r => r.foldl (groupOp i.op w) a

/-! ## Instructions -/

/-- The pointer and the bytes that a memory instruction reaches in a lane, and whether it writes. -/
def Ex.memOf (e : Ex) (cx : Cx) (i : Ins) (lane : Nat) : List (Val × Nat × Bool) :=
  let at_ (k : Nat) (wr : Bool) : List (Val × Nat × Bool) :=
    [(e.val cx lane (i.arg k), spanOf (placeOf (e.val cx lane (i.arg k)) (tyLeaves cx.m.ins (cx.m.pointee (i.arg k)))), wr)]
  match i.op with
  | 61 => at_ 2 false
  | 62 => at_ 0 true
  | 63 => at_ 1 false ++ at_ 0 true
  | 227 => at_ 2 false
  | 228 => at_ 0 true
  | _ => if 229 ≤ i.op && i.op ≤ 242 then at_ 2 true else []

/-- An access of the instruction waits on a row mark (R113). -/
def Ex.stalls (e : Ex) (cx : Cx) (f : Fibre) (i : Ins) : Bool :=
  (lanesOf f.lanes).any fun lane => (e.memOf cx i lane).any fun q => e.reach cx q.1 q.2.1 q.2.2 = .wait

/-- The value that an atomic leaves, from the old value and the operands (R74). -/
def atomicNew (op w old v cmp : Nat) : Nat :=
  match op with
  | 229 => v
  | 230 => if old = cmp then v else old
  | 232 => (old + 1) % 2 ^ w
  | 233 => wrapW w ((old : Int) - 1)
  | 234 => (old + v) % 2 ^ w
  | 235 => wrapW w ((old : Int) - v)
  | 236 => groupOp 353 w old v
  | 237 => groupOp 354 w old v
  | 238 => groupOp 356 w old v
  | 239 => groupOp 357 w old v
  | 240 => old &&& v
  | 241 => old ||| v
  | 242 => old ^^^ v
  | _ => old

/-- An instruction of one path: what it leaves, and the paths that go on. Lanes act in increasing order (log entry 147). -/
def Ex.ins (e : Ex) (cx : Cx) (f : Fibre) (i : Ins) : Ex × List Fibre :=
  let l := cx.m.ins
  let go : Fibre := { f with pc := f.pc + 1, tok := 0 }
  let lanes (g : Ex → Nat → Ex) : Ex × List Fibre := (e.onLanes f.lanes g, [go])
  let leavesOf (id : Nat) : List (Nat × Nat) := tyLeaves l (cx.m.pointee id)
  let width (id : Nat) : Nat := if compBits l (cx.m.tyOf id) = 64 then 64 else 32
  let chain (x : Ex) (lane base : Nat) (ids : List Nat) (first : Int) : Val :=
    let p := x.val cx lane base
    let idx := ids.map fun k => sgnW (width k) (x.num cx lane k)
    let q := chainOff l idx (cx.m.pointee base) (p.getD 3 0) ((p.getD 2 0 : Int) + first)
    [p.getD 0 0, p.getD 1 0, wrapW 64 q.1, q.2]
  match i.op with
  | 1 => lanes fun x lane =>
      let r := mapFree (fun _ c => orFree (compBits l (i.arg 0)) none c) (List.range (tyCount l (i.arg 0))) x.ctr
      { x with ctr := r.2 }.set lane (i.arg 1) r.1
  | 12 => lanes fun x lane =>
      let r := aluExt l (i.arg 3) (i.arg 0) ((i.a.drop 4).map (x.val cx lane)) x.ctr
      { x with ctr := r.2 }.set lane (i.arg 1) r.1
  | 57 =>
      let fn := cx.m.fn (i.arg 2)
      let params := ((l.drop fn).takeWhile fun q => q.op ≠ 248).filter fun q => q.op = 55
      let e1 := e.onLanes f.lanes fun x lane => (List.range params.length).foldl (fun y k => y.set lane ((params.getD k ⟨0, []⟩).arg 1) (x.val cx lane (i.arg (k + 3)))) x
      (e1, [{ go with pc := cx.m.label (cx.m.firstLabel fn), stack := (callTok + f.pc, 0) :: f.stack }])
  | 59 => if i.a.length ≤ 3 then (e, [go]) else lanes fun x lane => x.store cx lane (x.val cx lane (i.arg 1)) (tyLeaves l ((tyIns l (i.arg 0)).arg 2)) (x.val cx lane (i.arg 3))
  | 61 => lanes fun x lane => let r := x.load cx lane (x.val cx lane (i.arg 2)) (tyLeaves l (i.arg 0)); r.2.set lane (i.arg 1) r.1
  | 62 => lanes fun x lane => x.store cx lane (x.val cx lane (i.arg 0)) (leavesOf (i.arg 0)) (x.val cx lane (i.arg 1))
  | 63 => lanes fun x lane =>
      let r := x.load cx lane (x.val cx lane (i.arg 1)) (leavesOf (i.arg 1))
      r.2.store cx lane (x.val cx lane (i.arg 0)) (leavesOf (i.arg 0)) r.1
  | 65 => lanes fun x lane => x.set lane (i.arg 1) (chain x lane (i.arg 2) (i.a.drop 3) 0)
  | 66 => lanes fun x lane => x.set lane (i.arg 1) (chain x lane (i.arg 2) (i.a.drop 3) 0)
  | 67 => lanes fun x lane =>
      let st := (deco l (cx.m.tyOf (i.arg 2)) 6).getD (tySpan l (cx.m.pointee (i.arg 2)))
      x.set lane (i.arg 1) (chain x lane (i.arg 2) (i.a.drop 4) (sgnW (width (i.arg 3)) (x.num cx lane (i.arg 3)) * st))
  | 70 => lanes fun x lane =>
      let st := (deco l (cx.m.tyOf (i.arg 2)) 6).getD (tySpan l (cx.m.pointee (i.arg 2)))
      x.set lane (i.arg 1) (chain x lane (i.arg 2) (i.a.drop 4) (sgnW (width (i.arg 3)) (x.num cx lane (i.arg 3)) * st))
  | 68 => lanes fun x lane =>
      let sty := cx.m.pointee (i.arg 2)
      let off := (memberDeco l sty (i.arg 3) 35).getD 0
      let arr := (tyIns l sty).arg (i.arg 3 + 1)
      let st := (deco l arr 6).getD (tySpan l ((tyIns l arr).arg 1))
      let p := x.val cx lane (i.arg 2)
      x.set lane (i.arg 1) [(cx.extent x.s (p.getD 1 0) - p.getD 2 0 - off) / Nat.max st 1]
  | 403 => lanes fun x lane =>
      let st := (deco l (cx.m.tyOf (i.arg 2)) 6).getD (tySpan l (cx.m.pointee (i.arg 2)))
      x.set lane (i.arg 1) [wrapW (compBits l (i.arg 0)) ((((x.val cx lane (i.arg 2)).getD 2 0 : Int) - (x.val cx lane (i.arg 3)).getD 2 0) / (Nat.max st 1 : Nat))]
  | 224 => (e, [{ go with wait := decide (e.num cx 0 (i.arg 0) ≤ 2) }])
  | 228 => lanes fun x lane => x.store cx lane (x.val cx lane (i.arg 0)) (leavesOf (i.arg 0)) (x.val cx lane (i.arg 3))
  | 246 => (e, [{ go with stack := begins f.stack (i.arg 0, i.arg 1) }])
  | 247 => (e, [{ go with stack := begins f.stack (i.arg 0, 0) }])
  | 249 => let g := e.goto cx f f.lanes (i.arg 0); (g.1, [g.2])
  | 250 => e.spread cx f [i.arg 1, i.arg 2] fun lane => if e.num cx lane (i.arg 0) = 1 then i.arg 1 else i.arg 2
  | 251 =>
      let wide := compBits l (cx.m.tyOf (i.arg 0)) = 64
      let step := if wide then 3 else 2
      let cases := (List.range ((i.a.length - 2) / step)).map fun k =>
        (i.arg (2 + step * k) + (if wide then i.arg (3 + step * k) * 2 ^ 32 else 0), i.arg (1 + step * (k + 1)))
      e.spread cx f (cases.map (·.2) ++ [i.arg 1]) fun lane => ((cases.find? fun q => q.1 = e.num cx lane (i.arg 0)).map (·.2)).getD (i.arg 1)
  | 252 => (e, [])
  | 253 => e.ret cx f none
  | 254 => e.ret cx f (some (i.arg 0))
  | 255 => (e, [])
  | _ =>
    if 227 ≤ i.op && i.op ≤ 242 then
      lanes fun x lane =>
        let p := x.val cx lane (i.arg 2)
        let ls := tyLeaves l (i.arg 0)
        let w := compBits l (i.arg 0)
        let r := x.load cx lane p ls
        let old := r.1.getD 0 0
        let v := if i.op = 230 then x.num cx lane (i.arg 6) else x.num cx lane (i.arg 5)
        let y := if i.op = 227 then r.2 else r.2.store cx lane p ls [atomicNew i.op w old v (x.num cx lane (i.arg 7))]
        -- a dropped atomic is one access
        { y with oob := if y.oob = x.oob then y.oob else x.oob + 1 }.set lane (i.arg 1) r.1
    else if 333 ≤ i.op && i.op ≤ 366 then (e.group cx f i, [go])
    else if (77 ≤ i.op && i.op ≤ 223) || (400 ≤ i.op && i.op ≤ 402) then
      let ids := match i.op with
        | 79 => [i.arg 2, i.arg 3]
        | 81 => [i.arg 2]
        | 82 => [i.arg 2, i.arg 3]
        | _ => i.a.drop 2
      let lits := match i.op with
        | 79 => i.a.drop 4
        | 81 => i.a.drop 3
        | 82 => i.a.drop 4
        | _ => []
      lanes fun x lane =>
        let r := alu l i.op (i.arg 0) (ids.map cx.m.tyOf) (ids.map (x.val cx lane)) lits x.ctr
        { x with ctr := r.2 }.set lane (i.arg 1) r.1
    else (e, [go])

/-- One instruction issued for a warp: its first path that may go on (R72, R76). -/
def Ex.issue (e : Ex) (cx : Cx) : Ex :=
  let fs := e.w.fibres
  match (List.range fs.length).find? fun k =>
      match fs[k]? with
      | some f => !f.wait && !f.blocked (fs.eraseIdx k)
      | none => false with
  | none => e
  | some k =>
    match fs[k]? with
    | none => e
    | some f =>
      let i := cx.m.at f.pc
      if e.stalls cx f i then e
      else
        let r := e.ins cx f i
        let rest := fs.eraseIdx k
        let l := if cx.m.ins.length ≤ f.pc then rest else r.2.reverse.foldl addFibre rest
        { r.1 with w := { r.1.w with fibres := l } }

/-! ## Clusters -/

def Core.cluster (c : Core) (k : Nat) : Cluster := kget (fun _ => Cluster.empty) c.clusters k
def Core.setCluster (c : Core) (k : Nat) (q : Cluster) : Core := { c with clusters := kput (fun _ => Cluster.empty) c.clusters k q }

/-- Workgroups of a cluster that still have threads. -/
def Cluster.live (q : Cluster) : List Nat := ((q.warps.filter fun w => w.fibres ≠ []).map (·.wg)).eraseDups

/-- The warps of a workgroup at its start. -/
def Cx.newWarps (cx : Cx) (g : Nat) : List Warp :=
  let n := slThreads cx.b
  (List.range (ceilDiv n 32)).map fun i =>
    { wg := g, idx := i, regs := [], priv := []
      fibres := match cx.m.entry with
        | none => []
        | some fn => [{ pc := cx.m.label (cx.m.firstLabel (cx.m.fn fn)), lanes := 2 ^ Nat.min 32 (n - 32 * i) - 1, stack := [], tok := 0, wait := false }] }

/-- Private variables with an initialiser, set in every thread of a warp before it runs. -/
def Ex.init (e : Ex) (cx : Cx) : Ex :=
  let vars := (cx.m.ins.takeWhile fun i => i.op ≠ 54).filter fun i => i.op = 59 && decide (3 < i.a.length)
  vars.foldl (fun x i => x.onLanes (2 ^ 32 - 1) fun y lane => y.store cx lane (y.val cx lane (i.arg 1)) (tyLeaves cx.m.ins ((tyIns cx.m.ins (i.arg 0)).arg 2)) (y.val cx lane (i.arg 3))) e

/-- A tile of a SIMT command on its clusters: the next workgroup to admit and the first of the next tile, and what it has met. -/
structure Sx where
  s : State
  ctr : Nat
  next : Nat
  stop : Nat
  oob : Nat
  refused : Option Status
  fail : Option Status
  err : Option (Nat × Nat)
  rows : List Nat

def Sx.core (x : Sx) (cx : Cx) : Core := cx.core x.s
def Sx.upd (x : Sx) (cx : Cx) (f : Core → Core) : Sx := { x with s := x.s.upd cx.h fun y => y.updCore cx.p f }

/-- Whole workgroups admitted while a cluster has room, the lowest-numbered first (R73). -/
def Sx.admitGroups (cx : Cx) : Nat → Sx → Sx
  | 0, x => x
  | k + 1, x =>
    if x.stop ≤ x.next then x else
    match (List.range 4).find? fun q => decide ((((x.core cx).cluster q).live).length < slResident cx.b) with
    | none => x
    | some q =>
      let c := (x.core cx).cluster q
      let ws := (cx.newWarps x.next).map fun w =>
        (({ s := x.s, ctr := x.ctr, oob := 0, refused := none, fail := none, err := none, rows := [], w := w, mem := [] } : Ex).init cx).w
      Sx.admitGroups cx k { x.upd cx (fun y => y.setCluster q
        { warps := (c.warps.filter fun w => w.fibres ≠ []) ++ ws
          mem := (c.mem.filter fun m => c.live.contains m.1) }) with next := x.next + 1 }

/-- A workgroup whose every path waits at a barrier goes on. -/
def Cluster.release (q : Cluster) (g : Nat) : Cluster :=
  if (q.warps.filter fun w => w.wg = g).all fun w => w.fibres.all (·.wait) then
    { q with warps := q.warps.map fun w => if w.wg = g then { w with fibres := w.fibres.map fun f => { f with wait := false } } else w }
  else q

/-- One issue: `pick` counts among the warps that still have threads, cluster by cluster. Freed room is given out at once. -/
def Sx.step (cx : Cx) (x : Sx) (pick : Nat) : Sx :=
  if x.err.isSome || x.fail.isSome then x else
  let live := (List.range 4).flatMap fun q => (List.range ((x.core cx).cluster q).warps.length).filterMap fun k =>
    match ((x.core cx).cluster q).warps[k]? with
    | some w => if w.fibres = [] then none else some (q, k, w)
    | none => none
  match live[pick % Nat.max live.length 1]? with
  | none => x
  | some (q, k, w) =>
    let c := (x.core cx).cluster q
    let e := ({ s := x.s, ctr := x.ctr, oob := x.oob, refused := x.refused, fail := x.fail, err := x.err, rows := x.rows, w := w
                mem := kget (fun _ => []) c.mem w.wg } : Ex).issue cx
    let d : Cluster := { warps := c.warps.set k e.w, mem := kput (fun _ => []) c.mem w.wg e.mem }
    let y : Sx := { x with s := e.s, ctr := e.ctr, oob := e.oob, refused := e.refused, fail := e.fail, err := e.err, rows := e.rows }
    Sx.admitGroups cx 256 (y.upd cx fun z => z.setCluster q (d.release w.wg))

/-- Every workgroup of the tile has ended. -/
def Sx.done (x : Sx) (cx : Cx) : Bool := decide (x.stop ≤ x.next) && (List.range 4).all fun q => ((x.core cx).cluster q).live = []

/-- The words of the module that a launch block names, up to the end of its buffer. -/
def State.moduleWords (s : State) (h p b : Nat) : List Nat :=
  let x := ((s.half h).core p).handle (slCode b)
  (List.range ((hSize x - slCodeOff b) / 4)).map fun i => leNat (s.hRd h p x (slCodeOff b + 4 * i) 4)

def Run.cx (r : Run) (s : State) (h p : Nat) : Cx :=
  { m := .ofWords (s.moduleWords h p r.params) s.freeCtr, h := h, p := p, vdi := r.vdi, b := r.params }

/-- A warp of the running tile stands before an access to one of the Till rows. -/
def State.simtWaits (s : State) (h p : Nat) (r : Run) (rows : List Nat) : Bool :=
  let cx := r.cx s h p
  (cx.core s).clusters.any fun q => q.2.warps.any fun w =>
    let e : Ex := { s := s, ctr := 0, oob := 0, refused := none, fail := none, err := none, rows := [], w := w, mem := [] }
    (List.range w.fibres.length).any fun k => match w.fibres[k]? with
      | none => false
      | some f => !f.wait && !f.blocked (w.fibres.eraseIdx k) && (lanesOf f.lanes).any fun lane => (e.memOf cx (cx.m.at f.pc) lane).any fun a =>
          a.1.getD 0 0 = 1 && (cx.tillRows s (a.1.getD 1 0) (a.1.getD 2 0) a.2.1).any rows.contains

/-- The tile's clusters run on: one issue for each element of the schedule, which warp issues being its choice (R72, R76). A tile that has not started begins with
empty clusters. Nothing runs where the module itself cannot be read. -/
def State.simtRun (s : State) (h p : Nat) (r : Run) (sched : List Nat) : Sx × Bool :=
  let cx := r.cx s h p
  let t := slTile r.params (dTiles r.desc) r.tile
  let code := ((s.half h).core p).handle (slCode r.params)
  let x0 : Sx := { s := s, ctr := s.freeCtr + cx.m.ins.length * 64, next := r.simtNext.getD t.1, stop := t.1 + t.2, oob := 0, refused := none, fail := none, err := none, rows := [] }
  let n := 4 * cx.m.ins.foldl (fun a i => a + 1 + i.a.length) 5
  match handleCheck code r.vdi (slCodeOff r.params) 20 false, s.hAccess h p code (slCodeOff r.params) n with
  | .ok, .ok =>
    let x1 := if r.simtNext.isNone then Sx.admitGroups cx 256 (x0.upd cx fun c => { c with clusters := [] }) else x0
    let x := sched.foldl (Sx.step cx) x1
    (x, x.done cx)
  | .ok, .dataError => ({ x0 with err := (s.detects h p (hMem code) (unitsOf (hMem code) (hBase code + slCodeOff r.params) n)).map fun o => (hMem code, o) }, false)
  | .ok, st => ({ x0 with fail := some st }, false)
  | st, _ => ({ x0 with fail := some st }, false)

end Sys2Proof.Machine
end

