-- ==== Sys2Proof/Machine/CoreOps.lean ====
section
/-! DEFINITION. Shared operations on a core: phases of DMA and tiles (R91), how a command ends, leaves or is re-run (R80, R87, R92-R99, R119), and
what a core clears between tenants (R124-R126). -/
namespace Sys2Proof.Machine

def State.updCore (s : State) (h p : Nat) (f : Core → Core) : State := s.upd h fun x => x.updCore p f

/-- The register unit of a physical core: its logical index; a core that serves none has no numbered unit (R135). -/
def Half.coreUnit (x : Half) (p : Nat) : Nat := (x.logical p).getD (512 + p)

/-- The command a core runs, as its engines see it. -/
def Run.kb (r : Run) (s : State) (h p : Nat) : Kb := { s := s, h := h, p := p, d := r.desc, b := r.params }

/-! ## DMA phases of a run (R91) -/

/-- Tag added to a descriptor's index for the load of the next tile. -/
def nextTag : Nat := 65536

/-- The tag under which a tile's engines stand among the readers of R115. -/
def engineTag : Nat := 2 * nextTag

def Run.tiles (r : Run) : Nat := dTiles r.desc

def Run.idx (r : Run) (p : Nat → Bool) : List Nat := (List.range r.dma.length).filter fun i => p (r.dma.getD i 0)

def Run.endedAll (r : Run) (l : List Nat) : Bool := l.all fun i => r.ended.contains i

/-- A descriptor has ended or failed. -/
def Run.isOver (r : Run) (tag : Nat) : Bool := r.ended.contains tag || r.failed.contains tag

/-- Every descriptor that its channel had accepted has ended or failed (R92 item 4). -/
def Run.settled (r : Run) : Bool := r.accepted.all r.isOver

/-- A descriptor that the current tile needs has failed. -/
def Run.curFail (r : Run) : Bool := r.failed.any (· < nextTag)

def Run.prologue (r : Run) : List Nat := r.idx fun d => mPhase d = 0
def Run.loads (r : Run) : List Nat := r.idx fun d => mPhase d = 1 && mLoad d
def Run.stores (r : Run) : List Nat := r.idx fun d => mPhase d = 1 && !mLoad d
def Run.epilogue (r : Run) : List Nat := r.idx fun d => mPhase d = 2

/-- What must end before the current tile computes. -/
def Run.ready (r : Run) : Bool := (r.tile ≠ 0 || r.endedAll r.prologue) && r.endedAll r.loads

/-- The descriptors that the phases let run now: those of the current tile in list order, then the loads of the next tile (R89, R91; log entry 148). -/
def Run.allowed (r : Run) : List Nat :=
  if r.tiles ≤ r.tile then r.epilogue
  else
    (r.idx fun d => (mPhase d = 0 && r.tile = 0 && !r.computed) || (mPhase d = 1 && (if mLoad d then !r.computed else r.ready && r.computed))) ++
      (if r.ready && r.tile + 1 < r.tiles && !r.nextRerun then r.loads.map (· + nextTag) else [])

/-- After a failure no descriptor starts but, where only a load of the next tile failed, those of the current tile (R92). -/
def Run.blocked (r : Run) (tag : Nat) : Bool :=
  if r.tiles ≤ r.tile then r.fail.isSome else r.curFail || (r.fail.isSome && nextTag ≤ tag)

/-- The descriptors that may run and that have not ended, each with the tag of its tile. -/
def Run.openDma (r : Run) : List Nat := r.allowed.filter fun g => !r.isOver g && (r.accepted.contains g || !r.blocked g)

/-- The descriptor at the head of each channel (R89: one channel runs in list order). -/
def Run.heads (r : Run) : List Nat :=
  let ch (i : Nat) := mChannel (r.dma.getD (i % nextTag) 0)
  let op := r.openDma
  op.filter fun i => (op.find? fun j => ch j = ch i) = some i

/-- The tile a tagged descriptor works for. -/
def Run.dmaTile (r : Run) (i : Nat) : Nat := if i ≥ nextTag then r.tile + 1 else r.tile

/-- The heads accepted by their channels: marked loads set their marks (R112), and the count of the next tile starts with its first load (R94). -/
def State.acceptDma (s : State) (h p : Nat) : State :=
  match ((s.half h).core p).run with
  | none => s
  | some r =>
    r.heads.foldl (fun s i =>
      if r.accepted.contains i then s else
      s.updCore h p fun c =>
        let d := r.dma.getD (i % nextTag) 0
        let t := r.dmaTile i
        if c.dmaWaits d t true then c else
        { c.setMarks d t with run := c.run.map fun q =>
          { q with accepted := i :: q.accepted
                   nextVt := if nextTag ≤ i then q.nextVt.orElse fun _ => some (s.vtOf h) else q.nextVt } }) s

/-! ## Completion of a core's command (R87) -/

def State.coreCpl (s : State) (h : Nat) (r : Run) (st : Status) (final : Bool) (detail : Nat) : Cpl :=
  let kept := if final then 1 else 0
  { tag := dTag r.desc, status := st, final := final, retried := r.retried, detail := detail, sat := kept * r.sat, inv := kept * r.inv,
    tiles := kept * r.tilesRun, hazards := r.hazards, ns := (s.vtOf h - r.startVt) % 2 ^ 32, core := r.core % 128 + 128 * h }

/-- Rows that a cancelled load has landed count as moved (R94, R137): those of the descriptors under way that `sel` names. -/
def State.countLanded (s : State) (h p : Nat) (r : Run) (sel : Nat → Bool) : State :=
  (r.landed.filter fun l => sel l.1 && !r.isOver l.1).foldl (fun s l =>
    let d := r.dma.getD (l.1 % nextTag) 0
    s.countMove h p ((s.half h).coreUnit p) d (((s.half h).core p).rowBytes d (r.dmaTile l.1) l.2)) s

/-- A fallback that ends gives back the completion record that it reserved for the command that waits (R206, R232). -/
def State.unreserve (s : State) (r : Run) : State :=
  match r.org with
  | .queue q =>
    if r.fallback && r.gen = (s.half (qHalf q)).qGen (qIdx q) then
      s.upd (qHalf q) fun x => x.updQueue (qIdx q) fun k => { k with reserved := k.reserved - 1 }
    else s
  | .entry _ => s

/-- The core is free: nothing of the command stays but the Till's contents; what the feeder left in the operand buffers is not stated (R102). -/
def State.freeCore (s : State) (h p : Nat) (r : Run) : State :=
  (((({ s with freeCtr := s.freeCtr + 1 + 0x50000 } : State).countLanded h p r fun _ => true).updCore h p fun c =>
    { c with run := none, preemptBy := none, rowMark := [], lastVdi := some r.vdi, clusters := []
             opsp := [], opKnown := [], opSeed := s.freeCtr + 1
             switching := c.switching || (c.gfxReq && !c.auditing), gfxReq := c.gfxReq && c.auditing }).unreserve r).syncModels

/-- The descriptor of a queue's command `i` (R231); of a Sieve command or a render, what its end reads. -/
def State.queueDesc (s : State) (q i : Nat) : Nat :=
  let k := (s.half (qHalf q)).queue (qIdx q)
  let d := s.rdN (qRing k.record + i % qRingSize k.record * 128) 128
  if (s.half (qHalf q)).partKind (cPart (s.ctx (qCtx k.record)).raw) = 3 then raEnd d
  else if qEngine k.record = 1 then svEnd d else d

/-- A command at the head of its queue that completes without running: its record and fence, and the head advances (R86, R203, R242, R527). -/
def State.completeHead (s : State) (q d : Nat) (st : Status) (detail : Nat) (known : Bool) : State :=
  let h := qHalf q
  let u := qIdx q
  let i := (s.half h).fld F.TEL_DB_HEAD_head u
  let s1 := s.upd h fun x => (x.incw F.TEL_DB_HEAD_head u).updQueue u fun k =>
    { k with reserved := k.reserved + 1, cond := none, wait := none, eligVt := none }
  let s2 := s1.finishQ q ((s1.half h).qGen u) i (if known then d else 0) (.plain h (if known then dTag d else 0) st true detail)
  s2.upd h fun x => x.syncQueue u

/-- The descriptor that an instance runs: the entry's, or the assay's of its stage (R278). -/
def State.instCmd (s : State) (h n : Nat) : Nat :=
  let x := s.half h
  let e := x.activeEntry n
  let r := s.taskRec h (wTask e)
  if (x.inst n).assayNow && wAssay e = 0 then chAssayCmd (chRec r (wChannel e)) + 128 * x.stageOf n e else wCmd e

/-- A window instance that completes without running (R224, R225, R203): the tag and the fence are those of the descriptor that it was to run (R86, R278). -/
def State.completeInst (s : State) (h n st : Nat) (status : Status) (detail : Nat) : State :=
  let x := s.half h
  let e := x.activeEntry n
  let da := s.instCmd h n
  let raw := if s.access h da 128 = .ok then s.rdN da 128 else 0
  let d := if wEngine e = 1 then svEnd raw else raw
  let i := (x.inst n).count
  let s1 := s.postE h n e i (.plain h (dTag d) status true detail)
  let s2 := s1.upd h fun x => x.setInst n { x.inst n with count := i + st }
  s2.fence h d (cVdi (s.ctx (wCtx e)).raw)

/-- The end of a fallback: the waiting command may run, or ends with the fallback's status (R206). -/
def State.endFallback (s : State) (h : Nat) (r : Run) (st : Status) (detail : Nat) : State :=
  let good := st = .ok || st = .retriedOk
  match r.org with
  | .queue q =>
    if good then s.upd h fun x => x.updQueue (qIdx q) fun k => { k with cond := k.cond.map fun c => { c with met := true } }
    else s.completeHead q (s.queueDesc q r.index) st detail true
  | .entry n =>
    if ((s.half h).inst n).count ≠ r.index then s
    else if good then s.upd h fun x => x.setInst n { x.inst n with cond := (x.inst n).cond.map fun c => { c with met := true } }
    else s.completeInst h n 1 st detail

/-- A command that is final on its core. -/
def State.finishCore (s : State) (h p : Nat) (r : Run) (st : Status) (detail : Nat) : State :=
  let s1 := if r.fallback then s.endFallback h r st detail
    else s.finish h r.org r.gen r.index r.went r.desc (s.coreCpl h r st true detail)
  s1.freeCore h p r

/-- A queue command that leaves its core and runs again from tile 0 (R80). -/
def State.requeueCore (s : State) (h p : Nat) (r : Run) (cause past pre : Nat) : State :=
  let s1 := match r.org with
    | .queue q =>
      if r.fallback then s else
      let n := (((s.half h).queue (qIdx q)).counts r.index).overruns + past
      s.requeueQ q r.gen r.index (s.coreCpl h r .preempted false (causeDetail cause n)) past pre
    | .entry _ => s
  s1.freeCore h p r

/-- The status of a command that has run all its tiles (R77, R88, R110). -/
def Run.status (r : Run) : Status × Nat :=
  match r.refused with
  | some st => (st, 0)
  | none => if r.oob > 0 then (.outOfRange, Nat.min r.oob 0xFFFF) else if r.retried then (.retriedOk, 0) else (.ok, 0)

/-! ## Detected errors (R119, R122) -/

/-- A detected error counted in the memory it was found in (R122, R137, R138): memory 0 Till, 1 Strongroom, 3 operand space, whose word keeps its wrong parity. -/
def State.countErr (s : State) (h p mem off : Nat) : State :=
  if mem = 1 then s.strErr h off
  else
    let u := (s.half h).coreUnit p
    s.upd h fun x =>
      let y := if mem = 0 then x.inc F.TIL_ERR_CNT_till_err u else x.inc F.TIL_ERR_CNT_opb_err u
      y.updCore p fun c =>
        let l := x.svc.onNs :: within x.svc.onNs 3600000000000 c.errVts
        { c with rowBad := if mem = 0 then kput (fun _ => false) c.rowBad (off / 128) true else c.rowBad
                 opBad := if mem = 0 || c.opParity (off / 128 * 128) 128 then c.opBad else kput (fun _ => false) c.opBad (off / 4) true
                 errVts := l, auditAsap := c.auditAsap || decide (3 ≤ l.length) }

/-- A detected error counted and recorded (R119). -/
def State.countMemErr (s : State) (h p mem off : Nat) : State :=
  let t := s.countErr h p mem off
  if mem = 1 then t.incident h 0x03 ((t.half h).readBank off) .dataError off else t.incident h 0x02 p .dataError off

/-- The damaged rows and words of a range behind a handle entry, counted: a read of a command before its first tile found them (R118, R527). -/
def State.countRange (s : State) (h p : Nat) (r : Nat × Nat × Nat) : State :=
  let a := hBase r.1 + r.2.1
  if hMem r.1 = 2 then s.strErrs (strBase (peer h) + a) r.2.2 else
  ((unitsOf (hMem r.1) a r.2.2).filter fun u => s.unitBad h p (hMem r.1) u).foldl (fun s u => s.countErr h p (hMem r.1) (u * codeUnit (hMem r.1))) s

/-! ## Ledger bytes of what a command has not completed (R58, R92, R96, R119) -/

/-- One byte of a side written, where the access is allowed (R110); a damaged row or word that it would be merged into is counted and kept (R104, R118). -/
def State.putByte (s : State) (h p vdi : Nat) (isH : Bool) (hd a v : Nat) : State :=
  match s.writeRes h p vdi isH hd a 1 with
  | .ok => s.sideWr h p vdi isH hd a [BitVec.ofNat 8 v]
  | .err mem off => s.countMemErr h p mem off
  | .peer off => s.strErr (peer h) off
  | .fail _ => s

def State.zeroKernelLed (s : State) (h p : Nat) (r : Run) (tiles : List Nat) : State :=
  let k := r.kb s h p
  if !isKerbel r.desc then s else
  tiles.foldl (fun s t => (k.ledPlaces t).foldl (fun s w => s.putByte h p r.vdi true w.1 w.2 0) s) s

/-- 0x00 into the destination ledger bytes of descriptors at a tile. -/
def State.zeroDmaAt (s : State) (h p : Nat) (r : Run) (l : List (Nat × Nat)) : State :=
  (l.flatMap fun i => dmaLedPlaces (r.dma.getD i.1 0) i.2).foldl (fun s w => s.putByte h p r.vdi w.1 w.2.1 w.2.2 0) s

def State.zeroDmaLed (s : State) (h p : Nat) (r : Run) : State :=
  if dOpcode r.desc ≠ 5 then s else
  let cur := if r.tile < r.tiles then
      (((if r.tile = 0 then r.prologue else []) ++ r.loads ++ r.stores).filter fun i => !r.ended.contains i).map fun i => (i, r.tile)
    else []
  let rest := (List.range (r.tiles - r.tile - 1)).flatMap fun k =>
    ((r.loads ++ r.stores).filter fun i => !(k = 0 && r.ended.contains (i + nextTag))).map fun i => (i, r.tile + 1 + k)
  let ep := (r.epilogue.filter fun i => !(r.ended.contains i && r.tiles ≤ r.tile)).map fun i => (i, 0)
  s.zeroDmaAt h p r (cur ++ rest ++ ep)

/-- 0x00 into the ledger bytes of every output block not completed, from the current tile on. -/
def State.zeroUndone (s : State) (h p : Nat) (r : Run) : State :=
  (s.zeroKernelLed h p r ((List.range (r.tiles - r.tile)).map (· + r.tile))).zeroDmaLed h p r

/-- The run whose current tile is dropped: nothing of it is completed, and the last tile is dropped with the epilogue (R94, R96, R119). -/
def Run.dropTile (r : Run) : Run :=
  { r with tile := Nat.min r.tile (r.tiles - 1)
           ended := if r.tiles ≤ r.tile then [] else r.ended.filter (nextTag ≤ ·) }

/-- 0x00 into the ledger bytes of the output blocks that the tile of a re-run has written, by its engines and by its descriptors (R119 item 2). -/
def State.zeroTileLed (s : State) (h p : Nat) (r : Run) : State :=
  let t := Nat.min r.tile (r.tiles - 1)
  let out (i : Nat) : Bool := dOpcode r.desc = 5 || !mLoad (r.dma.getD i 0)
  let l := if r.tiles ≤ r.tile then (r.stores.map fun i => (i, t)) ++ ((r.epilogue.filter r.ended.contains).map fun i => (i, 0))
    else (r.ended.filter fun i => decide (i < nextTag)).map fun i => (i, t)
  (s.zeroKernelLed h p r [t]).zeroDmaAt h p r (l.filter fun i => out i.1)

/-! ## Clears (R124-R126) and handle loads (R109) -/

/-- The Till rows of a handle range. -/
def Core.rangeRows (c : Core) (vdi : Nat) : List Nat :=
  c.handles.flatMap fun x => if hValid x.2 = 1 && hMem x.2 = 0 && hVdi x.2 = vdi then tillRows (hBase x.2) (hSize x.2) else []

def Core.zeroRows (c : Core) (rows : List Nat) : Core :=
  { c with
    till := c.till.filter fun e => !rows.contains (e.1 / 128)
    rowWritten := c.rowWritten.filter fun r => !rows.contains r.1
    rowBad := c.rowBad.filter fun r => !rows.contains r.1 }

/-- The tenant clear: rows of the outgoing VDI's handles and written rows, operand buffers, marks (R124). -/
def Core.clear (c : Core) (out : Nat) : Core :=
  ({ c.zeroRows (c.rangeRows out ++ (c.rowWritten.filter (·.2)).map (·.1)) with rowMark := [], clusters := [] } : Core).opClear

/-- The Till ranges of a reset VDI cleared, and its handle-table entries gone (R107, R126, R412). -/
def Core.dropVdi (c : Core) (v : Nat) : Core :=
  if c.handles.any (fun x => hVdi x.2 = v) then
    { c.zeroRows (c.rangeRows v) with handles := c.handles.filter (fun x => hVdi x.2 ≠ v), loadedCtx := none }
  else c

/-- The tenant clear counted; the cycles of the clear are bounded by 700 and not stated more closely (R124, R137). -/
def State.tenantClear (s : State) (h p out : Nat) : State :=
  let d := s.draw
  let u := (s.half h).coreUnit p
  (d.2.updCore h p fun c => c.clear out).upd h fun x => (x.inc F.TIL_CLEAR_STAT_clear_count u).setFld F.TIL_CLEAR_STAT_last_cycles (d.1 % 701) u

/-- The tenant clear before a command of another VDI (R124). -/
def State.clearFor (s : State) (h p vdi : Nat) : State :=
  match ((s.half h).core p).lastVdi with
  | some v => if v = vdi then s else s.tenantClear h p v
  | none => s

/-- The handle set of a context loaded into the handle table (R109). -/
def State.loadHandles (s : State) (h p ctx : Nat) : State :=
  s.updCore h p fun c => if c.loadedCtx = some ctx then c else { c with handles := (s.ctx ctx).handles, loadedCtx := some ctx }

/-! ## Meetings on Till rows (R115) -/

/-- The Till rows of descriptors under way but `tag`: those that they write, and those that they read. -/
def Core.busyRows (c : Core) (r : Run) (tag : Nat) (dst : Bool) : List Nat :=
  (r.accepted.filter fun g => g ≠ tag && !r.isOver g).flatMap fun g => c.dmaRows (r.dma.getD (g % nextTag) 0) (r.dmaTile g) dst

/-- The unmarked rows on which accesses that read `rd` and write `wr` may meet descriptors under way. -/
def Core.meetRows (c : Core) (r : Run) (tag : Nat) (rd wr : List Nat) : List Nat :=
  let dw := c.busyRows r tag true
  let dr := c.busyRows r tag false
  ((rd.filter dw.contains) ++ (wr.filter fun x => dw.contains x || dr.contains x)).eraseDups.filter fun x => c.mark x = 0

/-- Hazards on the rows: how many, only cycles show; none where no row is shared (R115; log entry 149). -/
def State.meet (s : State) (h p : Nat) (r : Run) (rows : List Nat) : State × Run :=
  if dHazard r.desc = 0 || rows = [] then (s, r) else
  let d := s.draw
  (d.2.upd h fun x => x.inc F.TIL_HAZARD_CNT_hazard (x.coreUnit p) 0 d.1, { r with hazards := r.hazards + d.1 })

/-- The bytes of a Till row. -/
def Core.row (c : Core) (row : Nat) : List Byte := cellsRead c.till (row * 128) 128

def Core.putRow (c : Core) (row : Nat) (l : List Byte) : Core := { c with till := cellsWrite c.till (row * 128) l }

/-- The Till as a reader under way finds it (R115). -/
def State.asFound (s : State) (h p : Nat) (r : Run) (tag : Nat) : State :=
  (r.olds.filter fun o => o.1 = tag).foldl (fun s o => s.updCore h p fun c => c.putRow o.2.1 o.2.2) s

/-- A descriptor that copies a publication mark: 16 bytes from the command's parameter block (R205). -/
def markCopy (desc d : Nat) : Bool :=
  mConvert d = 0 && mRegroup d = 0 && mRows d = 1 && mRowBytes d = 16 && mSrcIsH d = 1 && decide (mSrcH d = dParHandle desc) && decide (dParOff desc ≤ mSrc d)

/-- The mark of a halo row bears the VT at which it is published (R198, R205). -/
def State.stampMark (s : State) (h p : Nat) (r : Run) (d t : Nat) : State :=
  let dh := decide (mDstIsH d = 1)
  let a := mDst d + (if mPhase d = 1 then t * mDstStep d else 0)
  let inS := if dh then hMem (((s.half h).core p).handle (mDstH d)) = 1 || hMem (((s.half h).core p).handle (mDstH d)) = 2 else inStr 0 a 16 || inStr 1 a 16
  if markCopy r.desc d && inS then s.sideWr h p r.vdi dh (mDstH d) (a + 8) (leBytes 8 (s.vtOf h)) else s

/-- A descriptor's move: it reads rows as it found them, and leaves alone the rows whose writes have landed before (R112, R115). -/
def State.moveOf (s : State) (h p : Nat) (r : Run) (tag stop : Nat) : Mv :=
  let d := r.dma.getD (tag % nextTag) 0
  let t := r.dmaTile tag
  let m0 := (s.asFound h p r tag).dmaMove h p r.vdi d t stop
  let m := if m0.res = .ok && mRows d ≤ stop then { m0 with s := m0.s.stampMark h p r d t } else m0
  let c := (s.half h).core p
  let wr := c.dmaRows d t true
  let back := ((r.olds.filter fun o => o.1 = tag).map (·.2.1)).filter (fun x => !wr.contains x) ++ (r.landed.filter fun l => l.1 = tag).map (·.2)
  if back = [] then m else { m with s := m.s.updCore h p fun k => back.foldl (fun k x => k.putRow x (c.row x)) k }

/-- One row of a descriptor under way lands before the descriptor ends (R112, R115). -/
def State.landRow (s : State) (h p tag row : Nat) : State :=
  match ((s.half h).core p).run with
  | none => s
  | some r =>
    let d := r.dma.getD (tag % nextTag) 0
    let m := s.moveOf h p r tag (2 ^ 32)
    let l := ((m.s.half h).core p).row row
    s.updCore h p fun c =>
      { ((c.putRow row l).touch (row * 128) 128).dropMarks (mToken d) [row] with run := some { r with landed := (tag, row) :: r.landed } }

/-- Before a descriptor moves, what descriptors of other channels under way do on the unmarked rows that it shares with them: a write of theirs may have landed
first, and a read of theirs may have found the old contents. In one cycle the lower channel's write lands first and a read returns the old contents (R115). -/
def State.race (s : State) (h p : Nat) (r : Run) (tag : Nat) : State :=
  let c := (s.half h).core p
  let d := r.dma.getD (tag % nextTag) 0
  let wr := c.dmaRows d (r.dmaTile tag) true
  let rd := c.dmaRows d (r.dmaTile tag) false
  (r.accepted.filter fun g => g ≠ tag && !r.isOver g).foldl (fun s g =>
    let e := r.dma.getD (g % nextTag) 0
    let ew := (c.dmaRows e (r.dmaTile g) true).filter fun x => c.mark x = 0 && !r.landed.contains (g, x)
    let er := (c.dmaRows e (r.dmaTile g) false).filter fun x => c.mark x = 0
    let s1 := (ew.filter fun x => wr.contains x || rd.contains x).foldl (fun (s : State) x =>
      let f := s.draw
      let first := f.1 % 3 = 2 || (f.1 % 3 = 0 && wr.contains x && decide (mChannel e < mChannel d))
      if first && !c.dmaWaits e (r.dmaTile g) (r.passed.contains g) then f.2.landRow h p g x else f.2) s
    (er.filter wr.contains).foldl (fun (s : State) x =>
      let f := s.draw
      if f.1 % 2 = 0 then f.2.updCore h p fun k => { k with run := k.run.map fun q => { q with olds := (g, x, c.row x) :: q.olds } } else f.2) s1) s

/-- The same for a Kerbel tile that has not computed yet: its engines may have read old contents of a row that the descriptor writes (R115). -/
def State.raceEngine (s : State) (h p : Nat) (r : Run) (tag : Nat) : State :=
  if r.computed || !r.ready || r.tiles ≤ r.tile || !isKerbel r.desc then s else
  let c := (s.half h).core p
  let k := r.kb s h p
  let d := r.dma.getD (tag % nextTag) 0
  let wr := (c.dmaRows d (r.dmaTile tag) true).filter fun x => c.mark x = 0
  if wr = [] then s else
  ((k.tillRowsOf (k.reads r.tile)).filter wr.contains).foldl (fun (s : State) x =>
    let f := s.draw
    if f.1 % 2 = 0 then f.2.updCore h p fun k => { k with run := k.run.map fun q => { q with olds := (engineTag, x, c.row x) :: q.olds } } else f.2) s

/-! ## Tiles -/

/-- A run before its first tile. -/
def Run.start (org : Work) (index gen went d ctx vdi part vt : Nat) (k : Chk) : Run :=
  { org := org, index := index, gen := gen, went := went, desc := d, params := k.params, dma := k.dma, ctx := ctx, vdi := vdi, part := part,
    assay := false, fallback := false, tile := 0, computed := false, rerun := false, retried := false, ended := [], accepted := [], passed := [],
    fail := none, sat := 0, inv := 0, tileSat := 0, tileInv := 0, tilesRun := 0, hazards := 0, oob := 0, simtNext := none, tileOob := 0, refused := none,
    tileRefused := none, nextVt := none, nextSat := 0, nextInv := 0, nextRerun := false, failed := [], landed := [], olds := [], core := 0, parts := [],
    startVt := vt, tileVt := vt }

/-- A command that completes without running because its row condition failed leaves its output ledger bytes 0x00 (R203, R224). It holds no core, so a place in a
Till is nobody's; `spot` is no core's number and is left as it was. -/
def State.zeroOutputs (s : State) (h ctx vdi d : Nat) : State :=
  let spot := 136
  let s1 := s.loadHandles h spot ctx
  let ck := checkCmd s1 h spot vdi d
  if ck.st.isSome || dOpcode d = 0 || dOpcode d = 6 then s
  else (s1.zeroUndone h spot (Run.start (.entry 0) 0 0 0 d ctx vdi 0 0 ck)).updCore h spot fun _ => .idle

/-- The run with its next tile. -/
def Run.advance (r : Run) (vt : Nat) : Run :=
  let nx (l : List Nat) : List Nat := (l.filter (nextTag ≤ ·)).map (· - nextTag)
  { r with tile := r.tile + 1, computed := false, rerun := r.nextRerun, retried := r.retried || r.nextRerun, nextRerun := false
           tileSat := r.nextSat, tileInv := r.nextInv, nextSat := 0, nextInv := 0, tileVt := r.nextVt.getD vt, nextVt := none
           simtNext := none, tileOob := 0, tileRefused := none
           ended := nx r.ended, accepted := nx r.accepted, failed := nx r.failed, passed := nx r.passed
           landed := (r.landed.filter fun l => nextTag ≤ l.1).map fun l => (l.1 - nextTag, l.2)
           olds := (r.olds.filter fun o => nextTag ≤ o.1 && o.1 < engineTag).map fun o => (o.1 - nextTag, o.2.1, o.2.2) }

/-- The rows of a memory behind a handle that a tile's writes cover whole: (memory, row). -/
def Kb.wholeRows (k : Kb) (l : List KAcc) : List (Nat × Nat) :=
  (l.flatMap fun a =>
    let x := k.core.handle a.handle
    ((rowsOf (hBase x + a.off) a.n).filter fun r => (List.range 128).all fun i => k.covers l (hMem x) (r * 128 + i)).map fun r => (hMem x, r)).eraseDups

/-- A row that is written whole gets a fresh code (R118) or fresh parity (R101). -/
def State.freshRow (s : State) (h p mem row : Nat) : State :=
  match mem with
  | 0 => s.updCore h p fun c => { c with rowBad := c.rowBad.filter fun b => b.1 ≠ row }
  | 1 => s.refresh (strBase h + row * 128) 128
  | 2 => s.refresh (strBase (peer h) + row * 128) 128
  | _ => s.updCore h p fun c => { c with opBad := c.opBad.filter fun w => w.1 / 32 ≠ row }

/-- The feeder has moved the tile's operands into the operand buffers (R102). Where it puts them is not stated: what the buffers hold is open, but for the
ranges that the command's own slots name there (log entry 162). -/
def State.feedOperands (s : State) (h p : Nat) (k : Kb) : State :=
  let l := ((List.range 5).map fun i => k.core.handle (tHandle (k.slot i))).filter fun x => hMem x = 3
  let kept (a : Nat) : Bool := l.any fun x => decide (hBase x ≤ a) && decide (a < hBase x + hSize x)
  ({ s with freeCtr := s.freeCtr + 1 + 0x50000 } : State).updCore h p fun c =>
    let known (a : Nat) : Bool := c.opSeed = 0 || kget (fun _ => false) c.opKnown a
    let l := if l = [] then [] else (List.range 0x50000).filter fun a => kept a && known a
    { c with opsp := c.opsp.filter fun e => kept e.1 && known e.1
             opKnown := l.map fun a => (a, true), opSeed := s.freeCtr + 1 }

/-- The writes of a tile's output stage, landed. -/
def State.putOutputs (s : State) (h p : Nat) (k : Kb) (t : Nat) (l : List KWr) : State :=
  let s1 := (k.wholeRows (k.writes t)).foldl (fun s m => s.freshRow h p m.1 m.2) s
  l.foldl (fun s w => s.hWr h p (k.core.handle w.handle) w.off w.data) s1

/-- The engines of the current tile go on once its loads have ended (R91). A Kerbel tile computes at once, unless a row that it reaches is marked; a SIMT tile's
warps issue as the schedule says, and it has computed when its workgroups have ended; other commands compute nothing. -/
def State.compute (s : State) (h p : Nat) (r : Run) (sched : List Nat) : State × Run × EngRes :=
  if r.computed || !r.ready || r.tiles ≤ r.tile || r.curFail then (s, r, .ok)
  else if isKerbel r.desc then
    let k := r.kb (s.asFound h p r engineTag) h p
    match k.engine r.vdi r.tile with
    | .ok =>
      let o := k.tile r.tile
      let m := s.meet h p r (k.core.meetRows r engineTag (k.tillRowsOf (k.reads r.tile)) (k.tillRowsOf (k.writes r.tile)))
      ((({ m.1 with freeCtr := Nat.max m.1.freeCtr o.ctr } : State).feedOperands h p k).putOutputs h p k r.tile o.wr,
       { m.2 with computed := true, tileSat := r.tileSat + o.sat, tileInv := r.tileInv + o.inv
                  parts := m.2.parts.filter (·.1 ≠ r.tile) ++ o.parts.map fun q => (r.tile, q) }, .ok)
    | e => (s, r, e)
  else if dOpcode r.desc = 4 then
    let a := s.simtRun h p r sched
    let x := a.1
    let c := (s.half h).core p
    let m := ({ x.s with freeCtr := x.ctr } : State).meet h p r (c.meetRows r engineTag x.rows x.rows)
    let r1 := { m.2 with simtNext := some x.next, tileOob := r.tileOob + x.oob, tileRefused := r.tileRefused.orElse fun _ => x.refused, computed := a.2 }
    (m.1, r1, match x.err, x.fail with
      | some e, _ => .err e.1 e.2
      | none, some st => .fail st
      | none, none => .ok)
  else (s, { r with computed := true }, .ok)

/-- A failure of the tile's engines: its outputs are dropped and the command ends with the status (R110). -/
def State.engineFail (s : State) (h p : Nat) (r : Run) (st : Status) : State :=
  ((s.incident h 0x01 p st r.tile).zeroUndone h p r.dropTile).finishCore h p r st 0

/-! ## Overruns and re-runs (R94-R97, R119) -/

/-- The tile's count of CORE cycles has reached its limit less 1 µs (R94). Counts are kept in 1 GHz equivalents, a nanosecond each, whatever the divider (R496). -/
def Half.timeUp (x : Half) (_p : Nat) (r : Run) : Bool := decide (x.tileLimit r.part - 1000 ≤ x.vt.toNat - r.tileVt)

/-- The tile's last store has ended (R97); the last tile includes the epilogue (R94). -/
def Run.tileEnded (r : Run) : Bool :=
  decide (r.tile < r.tiles) && r.computed && r.endedAll r.stores && (decide (r.tile + 1 < r.tiles) || r.epilogue = [])

/-- A tile overrun (R95, R96): the tile is dropped; a queue command is requeued, and ends at its third. -/
def State.overrun (s : State) (h p : Nat) (r : Run) : State :=
  match r.org with
  | .entry _ => (s.zeroUndone h p r.dropTile).finishCore h p r .timeout (causeDetail 2 1)
  | .queue q =>
    let n := (((s.half h).queue (qIdx q)).counts r.index).overruns + 1
    let s1 := s.incident h 0x01 p .preempted (causeDetail 2 n)
    if r.fallback then s1.finishCore h p r .timeout (causeDetail 2 1)
    else if 3 ≤ n then s1.finishCore h p r .timeout (causeDetail 2 n)
    else s1.requeueCore h p r 2 1 0

/-- The run whose current tile starts again (R119): what the next tile's loads have done stays. -/
def Run.again (r : Run) (vt : Nat) : Run :=
  let nx (l : List Nat) : List Nat := l.filter (nextTag ≤ ·)
  let late := decide (r.tiles ≤ r.tile)
  { r with rerun := true, retried := true, computed := false, tileSat := 0, tileInv := 0, tileVt := vt, simtNext := none, tileOob := 0, tileRefused := none
           ended := nx r.ended, accepted := nx r.accepted, failed := nx r.failed, passed := nx r.passed
           landed := r.landed.filter fun l => nextTag ≤ l.1, olds := r.olds.filter fun o => nextTag ≤ o.1 && o.1 < engineTag
           tile := if late then r.tiles - 1 else r.tile }

/-- The marks of the current tile's descriptors under way, dropped with them (R116). -/
def Core.dropTileMarks (c : Core) (r : Run) : Core :=
  (r.accepted.filter fun g => decide (g < nextTag) && !r.isOver g).foldl (fun c g =>
    let d := r.dma.getD g 0
    c.dropMarks (mToken d) (c.dmaRows d r.tile true)) c

/-- A tile's detected error: re-run once, or the command ends with DATA_ERROR (R119). A pending pre-emption comes first, and a tile whose count has reached its
limit is overrun (R97). -/
def State.tileError (s : State) (h p : Nat) (r : Run) : State :=
  let x := s.half h
  if (x.core p).preemptBy.isSome && (match r.org with | .queue _ => true | .entry _ => false) then s.requeueCore h p r 1 0 1
  else if x.timeUp p r then s.overrun h p r
  else if r.rerun then (s.zeroUndone h p r.dropTile).finishCore h p r .dataError (Nat.min r.tile (r.tiles - 1))
  else (((((s.countLanded h p r fun g => decide (g < nextTag)).zeroTileLed h p r)).updCore h p fun c => { c.dropTileMarks r with clusters := [], run := some (r.again (s.vtOf h)) }).acceptDma h p)

/-- A load of the next tile met a detected error (R119): its loads are dropped, and the next tile starts as a re-run. -/
def State.nextError (s : State) (h p : Nat) (r : Run) : State :=
  let cur (l : List Nat) : List Nat := l.filter (· < nextTag)
  (s.countLanded h p r fun g => decide (nextTag ≤ g)).updCore h p fun c =>
    let k := (r.accepted.filter fun g => decide (nextTag ≤ g) && !r.isOver g).foldl (fun c g =>
      let d := r.dma.getD (g % nextTag) 0
      c.dropMarks (mToken d) (c.dmaRows d (r.dmaTile g) true)) c
    { k with run := some { r with
        nextRerun := true, nextSat := 0, nextInv := 0, nextVt := none, ended := cur r.ended, accepted := cur r.accepted, failed := cur r.failed, passed := cur r.passed
        landed := r.landed.filter fun l => l.1 < nextTag, olds := r.olds.filter fun o => o.1 < nextTag || engineTag ≤ o.1 } }

/-- The status of a descriptor written into its status byte, where the list's handle allows the write (R90, R110). -/
def State.dmaStatus (s : State) (h p : Nat) (r : Run) (i : Nat) (st : Status) : State :=
  s.putByte h p r.vdi true (dDmaHandle r.desc) (dDmaOff r.desc + 64 * i + 0x2C) st.code

/-- The current tile waits on rows that a load of the next tile marks: its engines, a warp of it, or one of its own descriptors (R113). -/
def State.tileWaits (s : State) (h p : Nat) (r : Run) (rows : List Nat) : Bool :=
  let c := (s.half h).core p
  let marked := rows.filter fun x => c.mark x ≠ 0
  let dma := (r.accepted.filter fun g => decide (g < nextTag) && !r.isOver g).any fun g =>
    let e := r.dma.getD g 0
    (c.dmaRows e r.tile false ++ c.dmaRows e r.tile true).any marked.contains
  let eng :=
    if r.computed || !r.ready || r.tiles ≤ r.tile then false
    else if isKerbel r.desc then let k := r.kb s h p; (k.tillRowsOf (k.reads r.tile ++ k.writes r.tile)).any marked.contains
    else decide (dOpcode r.desc = 4) && r.simtNext.isSome && s.simtWaits h p r marked
  marked ≠ [] && (dma || eng)

/-- A descriptor that failed (R92): its status byte, its incident, and the command's first failure. -/
def State.dmaFailed (s : State) (h p : Nat) (r : Run) (tag : Nat) (st : Status) : State :=
  let i := tag % nextTag
  let d := r.dma.getD i 0
  let s1 := (s.dmaStatus h p r i st).incident h 0x01 p st i
  -- the current tile that waited on the marks of a failed load of the next one is dropped too (R116)
  let waited := decide (nextTag ≤ tag) && mToken d ≠ 0 && s.tileWaits h p r (((s.half h).core p).dmaRows d (r.dmaTile tag) true)
  s1.updCore h p fun c => { c.dropMarks (mToken d) (c.dmaRows d (r.dmaTile tag) true) with
    run := some { r with fail := r.fail.orElse fun _ => some (st, tag), failed := tag :: (if waited then [i] else []) ++ r.failed } }

/-- The boundary after a tile that was not the last (R97, R228, R247, R250-R252, R277, R282). -/
def State.boundary (s : State) (h p : Nat) (r : Run) : State :=
  let x := s.half h
  let c := x.core p
  let l := (x.logical p).getD 0x7F
  match r.org with
  | .queue q =>
    if x.fld F.TEL_DB_STATE_state (qIdx q) = 4 then s.requeueCore h p r 1 0 0
    else if c.gfxReq then (s.requeueCore h p r 1 0 0).updCore h p fun c => { c with switching := true, gfxReq := false }
    else if c.preemptBy.isSome then s.requeueCore h p r 1 0 1
    else if c.auditing || c.auditDue then s.requeueCore h p r 1 0 0
    else if !x.guardOk l r.part x.vt.toNat then s.requeueCore h p r 1 0 0
    else (s.updCore h p fun c => { c with clusters := [], run := some (r.advance x.vt.toNat) }).acceptDma h p
  | .entry _ =>
    -- a deferred assay takes the core from a real command of the critical partition (R277)
    if c.preemptBy.isSome && !r.assay then (s.zeroUndone h p (r.advance x.vt.toNat)).finishCore h p r .late 0
    else (s.updCore h p fun c => { c with clusters := [], run := some (r.advance x.vt.toNat) }).acceptDma h p

/-- A kept tile: its events count (R51, R77). -/
def Run.keep (r : Run) : Run :=
  { r with sat := r.sat + r.tileSat, inv := r.inv + r.tileInv, oob := r.oob + r.tileOob, refused := r.refused.orElse fun _ => r.tileRefused
           tilesRun := r.tilesRun + 1 }

/-- The stores of the last tile have ended: its epilogue opens, or it is kept and the command is final (R91, R94). -/
def State.lastTile (s : State) (h p : Nat) (r : Run) : State :=
  if r.epilogue = [] then s.finishCore h p r.keep r.keep.status.1 r.keep.status.2
  else (s.updCore h p fun c => { c with run := some { r with tile := r.tiles, ended := [], accepted := [], failed := [], passed := [], landed := [], olds := [] } }).acceptDma h p

/-- A command that a failed descriptor ends, once the descriptors that were accepted have ended (R92): its current tile is kept where it completed. -/
def State.endFailed (s : State) (h p : Nat) (r : Run) (st : Status) (tag : Nat) : State :=
  let kept := decide (r.tile < r.tiles) && !r.curFail
  let r1 := if kept then { r.keep with tile := r.tile + 1 } else r
  let s1 := if !kept && r.tile < r.tiles && r.computed then
      (s.zeroKernelLed h p r ((List.range (r.tiles - r.tile - 1)).map (· + r.tile + 1))).zeroDmaLed h p r
    else if kept then (s.zeroKernelLed h p r1 ((List.range (r.tiles - r1.tile)).map (· + r1.tile))).zeroDmaLed h p
      { r1 with ended := (r.ended.filter (nextTag ≤ ·)).map (· - nextTag) }
    else s.zeroUndone h p r
  s1.finishCore h p r1 st (tag % nextTag)

/-! ## Kill and core reset (R94, R99) -/

/-- A run dropped with the watchdog kill: nothing of it is completed, marks clear (R94, R116). -/
def State.killRun (s : State) (h p : Nat) : State :=
  match ((s.half h).core p).run with
  | none => s
  | some r => s.freeCore h p r

/-- A core reset begins (R99): Till and operand buffers zero, the running command requeued or ended. `l` is the logical index that the core served, 0xFF for none. -/
def State.startCoreReset (s : State) (h p cause l : Nat) : State :=
  let x := s.half h
  let s1 := match (x.core p).run with
    | none => s
    | some r =>
      match r.org with
      | .queue _ => s.requeueCore h p r 4 0 0
      | .entry _ => (s.zeroUndone h p r.dropTile).finishCore h p r .timeout (causeDetail 4 0)
  let s2 := s1.updCore h p fun c =>
    { Core.idle with graphics := c.graphics, gfxReq := c.gfxReq, shut := c.shut, div := c.div, errVts := c.errVts, auditVt := c.auditVt, auditAsap := c.auditAsap
                     overdue := c.overdue, auditing := c.auditing, auditDue := c.auditDue, located := c.located, resetting := true }
  let u := x.coreUnit p
  let s3 := s2.upd h fun y => { y with regs := kmapV regDefault y.regs fun k v =>
    if k / 2 ^ 16 % 2 ^ 16 = u && k / 2 ^ 32 < 7 then restoreWord k v (fun f => f.byC && f.acc ≠ .rc) else v }
  s3.incident h 0x01 p .internal (l + cause * 256)

/-- The divider of a core changed; what its running tile counts does not depend on it (R496). -/
def State.setDiv (s : State) (h p d : Nat) : State := s.upd h fun x => x.updCore p fun c => { c with div := d }

end Sys2Proof.Machine
end

