-- ==== Sys2Proof/Machine/Queues.lean ====
section
/-! DEFINITION. Queues and dispatch (R229-R253): doorbells, the arbiter, context fetches, pre-emption, mode switches and WAITs. -/
namespace Sys2Proof.Machine

/-! ## Doorbells (R231, R232) -/

/-- A modulo-2^32 distance. -/
def dist32 (a b : Nat) : Nat := (a + 2 ^ 32 - b % 2 ^ 32) % 2 ^ 32

/-- Whether the queue engine of a half answers doorbells: it is part of the compute domain. -/
def State.queueUp (s : State) (q : Nat) : Bool := (s.half (qHalf q)).clk.computeUp

def Half.qState (x : Half) (u : Nat) : Nat := x.fld F.TEL_DB_STATE_state u

/-- The completion ring has room for one more reservation (R232). -/
def Half.cqRoom (x : Half) (u : Nat) : Bool :=
  decide (dist32 (x.fld F.TEL_DB_CQ_TAIL_cq_tail u) (x.fld F.TEL_DB_CQ_HEAD_cq_head u) + (x.queue u).reserved < qCqSize (x.queue u).record)

/-- Index of the next command of a queue: a requeued one first (R233), else its head; none on an empty queue. -/
def Half.nextIndex (x : Half) (u : Nat) : Option (Nat × Bool) :=
  let k := x.queue u
  let back := k.again.filter fun a => !k.flying.contains a.index
  match back with
  | a :: r => some ((r.foldl (fun m b => if dist32 b.index (x.fld F.TEL_DB_HEAD_head u) < dist32 m (x.fld F.TEL_DB_HEAD_head u) then b.index else m)
                a.index), false)
  | [] => if x.fld F.TEL_DB_HEAD_head u = x.fld F.TEL_DB_TAIL_tail u then none else some (x.fld F.TEL_DB_HEAD_head u, true)

/-- The VDI of a queue takes work: it exists and is ACTIVE (R412, R416). -/
def State.vdiRuns (s : State) (v : Nat) : Bool :=
  (s.vdi v).exists_ && decide ((s.half (s.hostOf v)).fld F.TEL_STATE_state v = 0)

/-- A core runs the fallback of a queue's head (R206). -/
def Half.fallbackRuns (x : Half) (q : Nat) : Bool := x.cores.any fun c => match c.2.run with
  | some r => r.fallback && decide (r.org = .queue q)
  | none => false

/-- Eligibility of R234, apart from the model-cache entries that the command needs. -/
def State.readyBut (s : State) (q : Nat) : Bool :=
  let x := s.half (qHalf q)
  let u := qIdx q
  let k := x.queue u
  s.queueUp q && decide (x.qState u ≠ 0) && decide (x.qState u ≠ 4) && k.wait.isNone && s.vdiRuns (qVdi k.record) && x.cqRoom u &&
    decide (k.flying.length < qInflight k.record) && decide (cSuspended (s.ctx (qCtx k.record)).raw = 0) &&
    (match x.nextIndex u with
     | none => false
     | some (i, head) =>
       (!head || qCond k.record = 0 || (match k.cond with | some c => c.met || (c.viaFallback && !x.fallbackRuns q) | none => false)) &&
       (dOpcode (s.queueDesc q i) ≠ 6 || (k.flying = [] && k.again = [])))

/-- Eligibility of R234: every entry that the command needs is usable (R130, R132). -/
def State.ready (s : State) (q : Nat) : Bool :=
  let k := (s.half (qHalf q)).queue (qIdx q)
  s.readyBut q && (s.needs (qCtx k.record) (qVdi k.record)).all fun m => decide (2 ≤ m.2.state)

/-- The dispatch controller of a queue restarts: it evaluates and dispatches nothing (R253). -/
def State.ctlPaused (s : State) (q : Nat) : Bool := decide ((s.half (qHalf q)).fld F.WIN_DISP_STAT_paused 0 (qIdx q / 2048) = 1)

/-- The entries that a queue's next command needs and that are ABSENT are loaded; it stays in its queue, and completes with NO_SPACE where one finds no place (R132).
A controller that restarts does neither (R253). -/
def State.wantModels (s : State) (q : Nat) : State :=
  let k := (s.half (qHalf q)).queue (qIdx q)
  if !s.readyBut q || s.ctlPaused q then s else
  let r := ((s.needs (qCtx k.record) (qVdi k.record)).filter fun m => m.2.state = 0).foldl (fun (a : State × Status) m =>
    if a.2 = .noSpace then a else a.1.fetchModel m.1 (qCtx k.record) m.2) (s, .ok)
  if r.2 ≠ .noSpace then r.1 else
  match (s.half (qHalf q)).nextIndex (qIdx q) with
  | some (i, true) => r.1.completeHead q (s.queueDesc q i) .noSpace 0 true
  | _ => r.1

/-- A queue that has become eligible: its waiting time starts and its context is active (R243, R246). -/
def State.noteReady (s0 : State) (q : Nat) : State :=
  let s := s0.wantModels q
  let h := qHalf q
  if !s.ready q then s else
  (s.upd h fun x => x.updQueue (qIdx q) fun k => { k with eligVt := k.eligVt.orElse fun _ => some x.vt.toNat }).shareReady h
    (qCtx ((s.half h).queue (qIdx q)).record)

/-- A context with no eligible and no running command goes idle (R246). -/
def State.noteIdle (s : State) (h c : Nat) : State :=
  let x := s.half h
  let busy := x.disp.queues.any fun e => qCtx e.2.record = c && (e.2.flying ≠ [] || s.ready (h * 8192 + e.1))
  if busy then s else s.shareIdle h c

def doorbellIncident (s : State) (q : Nat) : State := s.incident (qHalf q) 0x07 q .badArg

/-- A new producer index of a command ring; one behind the last or past the ring is ignored and recorded (R231). -/
def State.dbTail (s : State) (q v : Nat) : State :=
  let x := s.half (qHalf q)
  let u := qIdx q
  if !s.queueUp q || x.qState u = 0 then s else
  let head := x.fld F.TEL_DB_HEAD_head u
  if qRingSize (x.queue u).record < dist32 v head || dist32 v head < dist32 (x.fld F.TEL_DB_TAIL_tail u) head then doorbellIncident s q
  else (s.upd (qHalf q) fun x => x.setFld F.TEL_DB_TAIL_tail v u).noteReady q

/-- TEL_DB_TAIL_WRITE (R231). -/
def execTelDbTailWrite (e : Ev) (q v : Nat) (s0 : State) : Host.Outcome State Fault Refusal := .next ((tick e s0).dbTail q v)

/-- Completion records handed back; more than were written is ignored and recorded (R232). -/
def State.dbCqHead (s : State) (q v : Nat) : State :=
  let x := s.half (qHalf q)
  let u := qIdx q
  if !s.queueUp q || x.qState u = 0 then s else
  let head := x.fld F.TEL_DB_CQ_HEAD_cq_head u
  if dist32 (x.fld F.TEL_DB_CQ_TAIL_cq_tail u) head < dist32 v head then doorbellIncident s q
  else (s.upd (qHalf q) fun x => x.setFld F.TEL_DB_CQ_HEAD_cq_head v u).noteReady q

/-- TEL_DB_CQ_HEAD_WRITE (R232). -/
def execTelDbCqHeadWrite (e : Ev) (q v : Nat) (s0 : State) : Host.Outcome State Fault Refusal := .next ((tick e s0).dbCqHead q v)

/-! ## WAIT (R236-R240) -/

/-- A watch request sent for a remote WAIT: across the Hatch, or over a data port to a peer (R237-R239, R402). The reply index is the requester's place in
the peer's own list, which nothing tells the requester: a free value. -/
def State.sendWatch (s : State) (q : Nat) (w : WaitRt) : State :=
  let h := qHalf q
  let gen := (s.half h).qGen (qIdx q)
  if bits w.addr 47 1 = 1 then
    let e := kget (fun _ => 0) (s.half h).disp.peerFence (w.addr % 1024)
    let d := s.draw
    (d.2.countTx h (some (bits e 48 4))).emit (.peerWatch h (bits e 48 4) (bits e 52 8) q gen w.index (bits e 0 48) w.value (d.1 % 256))
  else s.hatchSend h 0x03 [q, gen, w.index, w.addr, w.value]

/-- The queue's next command is a WAIT that may start: a readable descriptor of a queue of cores, with nothing of the queue unfinished (R233, R236). -/
def State.waitAtHead (s : State) (q : Nat) : Option (Nat × Nat) :=
  let x := s.half (qHalf q)
  let r := (x.queue (qIdx q)).record
  if !s.ready q || s.ctlPaused q || qEngine r = 1 || x.partKind (cPart (s.ctx (qCtx r)).raw) = 3 then none else
  match x.nextIndex (qIdx q) with
  | some (i, true) =>
    if s.access (qHalf q) (qRing r + i % qRingSize r * 128) 128 = .ok && dOpcode (s.queueDesc q i) = 6 then some (i, s.queueDesc q i) else none
  | _ => none

/-- A WAIT starts: refused at once, EMPTY with a tile count of 0 (R6, R81), or held as the queue's barrier with a record reserved (R236-R239). -/
def State.startWait (s : State) (q i d : Nat) : State :=
  let h := qHalf q
  let u := qIdx q
  let a := dFenceAddr d
  let v := qVdi ((s.half h).queue u).record
  let peerW := bits a 47 1 = 1
  let pe := kget (fun _ => 0) (s.half h).disp.peerFence (a % 1024)
  if (s.ctx (qCtx ((s.half h).queue u).record)).raw / 2 ^ 32 % 2 ^ 16 = 0 then s.completeHead q d .badArg 0 true
  else if dFenced d = 0 then s.completeHead q d .badArg 0 true
  else if peerW && bits a 10 37 ≠ 0 then s.completeHead q d .badArg 0 true
  else if !peerW && a % 8 ≠ 0 then s.completeHead q d .badArg 0 true
  else if peerW && bits pe 63 1 = 0 then s.completeHead q d .badHandle 0 true
  else if !peerW && !s.inWindows v a 8 then s.completeHead q d .outOfRange 0 true
  else if dTiles d = 0 then s.completeHead q d .empty 0 true
  else
    let w : WaitRt := { index := i, since := ((s.half h).queue u).eligVt.getD (s.vtOf h), addr := a, value := dFenceVal d, tag := dTag d, remote := peerW || homeHalf a ≠ h }
    let s1 := s.upd h fun x => (x.updQueue u fun k => { k with wait := some w, reserved := k.reserved + 1, eligVt := none }).syncQueue u
    if w.remote then s1.sendWatch q w else s1

/-- A WAIT that is final: its record, no fence, and the head advances (R236). -/
def State.endWait (s : State) (q : Nat) (w : WaitRt) (st : Status) (detail : Nat) : State :=
  let h := qHalf q
  let u := qIdx q
  let c := qCtx ((s.half h).queue u).record
  let s1 := (if w.remote then s.dropWatch q else s).postQ q ((s.half h).qGen u) (.plain h w.tag st true detail)
  let s2 := s1.upd h fun x => ((x.updQueue u fun k => { k with wait := none, eligVt := none, cond := none }).incw F.TEL_DB_HEAD_head u).syncQueue u
  (s2.noteReady q).noteIdle h c

/-- The fence word of a local WAIT is reached; a word that cannot be read is unmet (R236). -/
def State.waitMet (s : State) (w : WaitRt) : Bool := s.access (homeHalf w.addr) w.addr 8 = .ok && decide (w.value ≤ s.rdN w.addr 8)

/-- WAIT_LOCAL_EVALUATION (R237): at the queue's head, at a fence signal, and at the 10 µs poll. -/
def execWaitLocalEvaluation (e : Ev) (q : Nat) (s0 : State) : Host.Outcome State Fault Refusal :=
  let s := tick e s0
  let s1 := match s.waitAtHead q with | some (i, d) => s.startWait q i d | none => s
  let x := s1.half (qHalf q)
  let u := qIdx q
  match (x.queue u).wait with
  | none => .next s1
  | some w =>
    if w.remote || x.qState u = 4 || s.ctlPaused q || !s1.vdiRuns (qVdi (x.queue u).record) then .next s1
    else if s1.waitMet w then .next (s1.endWait q w .ok 0)
    else .next s1

/-- WAIT_LIMIT_EXPIRY (R236). -/
def execWaitLimitExpiry (e : Ev) (q : Nat) (s0 : State) : Host.Outcome State Fault Refusal :=
  let s := tick e s0
  let x := s.half (qHalf q)
  let k := x.queue (qIdx q)
  match k.wait with
  | none => .next s
  | some w => if w.since + qWaitMs k.record * 1000000 ≤ x.vt.toNat && !s.ctlPaused q && x.qState (qIdx q) ≠ 4 then .next (s.endWait q w .timeout (causeDetail 7 0)) else .next s

/-- REMOTE_WATCH_REPEAT (R239): the request is sent again, or for the first time after a rewind (R240). -/
def execRemoteWatchRepeat (e : Ev) (q : Nat) (s0 : State) : Host.Outcome State Fault Refusal :=
  let s := tick e s0
  match ((s.half (qHalf q)).queue (qIdx q)).wait with
  | some w => if w.remote && !s.ctlPaused q then .next (s.sendWatch q w) else .next s
  | none => match s.waitAtHead q with
    | some (i, d) => .next (s.startWait q i d)
    | none => .next s

/-- A reply to a watch on its arrival: it completes the WAIT, or is discarded and counted (R239). -/
def State.watchReply (s : State) (q gen idx : Nat) : State :=
  let h := qHalf q
  let x := s.half h
  let stale := s.upd h fun x => x.inc F.WIN_STALE_GEN_stale_gen
  if s.ctlPaused q then s
  else match (x.queue (qIdx q)).wait with
  | none => stale
  | some w => if w.remote && gen = x.qGen (qIdx q) && idx = w.index then s.endWait q w .ok 0 else stale

/-- REMOTE_WATCH_REPLY (R239). -/
def execRemoteWatchReply (e : Ev) (q gen idx : Nat) (s0 : State) : Host.Outcome State Fault Refusal :=
  .next ((tick e s0).watchReply q gen idx)

/-! ## The arbiter (R245) -/

/-- The partition that a core serves a queue's context in, where one of its tiles may start now (R219, R227, R228, R245). -/
def State.mayServe (s : State) (h l q : Nat) : Option Nat :=
  let x := s.half h
  let part := cPart (s.ctx (qCtx (x.queue (qIdx q)).record)).raw
  if x.partKind part = 2 && x.inPart part l && x.guardOk l part x.vt.toNat then some part else none

/-- A queue's controller posts it: the controller runs and the context is in the cache (R244, R245, R253). -/
def State.posted (s : State) (q : Nat) : Bool :=
  let x := s.half (qHalf q)
  let k := x.queue (qIdx q)
  decide (qEngine k.record = 0) && !s.ctlPaused q && x.disp.cached.contains (qCtx k.record) && s.ready q

/-- Elements with the least key. -/
def minBy (f : Nat → Nat) (l : List Nat) : List Nat :=
  match l with
  | [] => []
  | a :: r => let m := r.foldl (fun m x => Nat.min m (f x)) (f a); l.filter fun x => f x = m

/-- The contexts among `l` of least charge, by signed difference (R246). -/
def State.leastCharged (s : State) (h : Nat) (l : List Nat) : List Nat :=
  let ch (c : Nat) := if (s.half h).isActive c then (s.half h).charge c else
    ((s.half h).vclock (cPart (s.ctx c).raw) + cLead (s.ctx c).raw) % 2 ^ 64
  l.filter fun c => l.all fun d => !shareLt (ch d) (ch c)

/-- The queue the arbiter chooses among candidates: criticality, priority, charge, context ID, rotation (R245). Partitions of equal criticality tie: the choice
among them is a free value `pick`. -/
def State.chooseOf (s : State) (h : Nat) (cands : List Nat) (pick : Nat) : Option Nat :=
  let x := s.half h
  let ctxOf (q : Nat) := qCtx (x.queue (qIdx q)).record
  let parts := minBy (fun p => 15 - x.partCrit p) ((cands.map fun q => cPart (s.ctx (ctxOf q)).raw).eraseDups)
  let part := parts.getD (if parts.length ≤ 1 then 0 else pick % parts.length) 0
  let inP := cands.filter fun q => cPart (s.ctx (ctxOf q)).raw = part
  let ctxs := minBy (fun c => 7 - cPrio (s.ctx c).raw) ((inP.map ctxOf).eraseDups)
  match minBy id (s.leastCharged h ctxs) with
  | [] => none
  | c :: _ =>
    let last := kget (fun _ => 0) x.disp.lastQueue c
    let qs := inP.filter fun q => ctxOf q = c
    (minBy (fun q => (qIdx q + 8192 - last) % 8192) qs).head?

/-- The queue the arbiter chooses for a core (R245). -/
def State.choose (s : State) (h l pick : Nat) : Option Nat :=
  s.chooseOf h ((s.queuesOf h).filter fun q => s.posted q && (s.mayServe h l q).isSome) pick

/-- The dispatch accounting of an L record (R243) and the queue's place in its context's rotation. -/
def State.accountDispatch (s : State) (h q c : Nat) : State :=
  let x := s.half h
  let vt := x.vt.toNat
  let w := vt - ((x.queue (qIdx q)).eligVt.getD vt)
  let r := s.ctx c
  let r1 := if !isL c then r else
    let a := r.add 320 64 w
    { a with raw := setBits (setBits a.raw 384 32 (Nat.min (Nat.max (bits a.raw 384 32) w) 0xFFFFFFFF)) 512 64 vt }
  ((s.setCtx c r1).shareReady h c).upd h fun x => { x with disp := { x.disp with
    lastQueue := kput (fun _ => 0) x.disp.lastQueue c ((qIdx q + 1) % 8192)
    cached := useCtx x.disp.cached c
    dirty := if isL c then kput (fun _ => false) x.disp.dirty c true else x.disp.dirty } }

/-- A command that completes at its dispatch without running: from the head, or one that had been requeued (R86, R527). -/
def State.refuseDispatch (s : State) (q i : Nat) (head : Bool) (d : Nat) (st : Status) (known readFail : Bool) : State :=
  let k := (s.half (qHalf q)).queue (qIdx q)
  let s1 := if readFail then (s.strErrs (qRing k.record + i % qRingSize k.record * 128) 128).incident (qHalf q) 0x07 q st else s
  let c := qCtx k.record
  let s2 := if head then s1.completeHead q d st 0 known
    else
      let s3 := s1.upd (qHalf q) fun x => x.updQueue (qIdx q) fun k => { k with reserved := k.reserved + 1 }
      (s3.finishQ q ((s3.half (qHalf q)).qGen (qIdx q)) i (if known then d else 0) (.plain (qHalf q) (if known then dTag d else 0) st true 0)).syncModels
  (s2.noteReady q).noteIdle (qHalf q) c

/-- What the handle load of a context reads from DRAM is answered with: nothing is read where the core or the half's cache holds the set (R109, R244, R527). -/
def State.loadStatus (s : State) (h p c : Nat) : Status :=
  if ((s.half h).core p).loadedCtx = some c || (s.half h).disp.cached.contains c then .ok else s.ctxRead h c

/-- A command placed on a core: clear, handle load, its run with the marks of its accepted loads (R109, R112, R124). -/
def State.place (s : State) (h p : Nat) (r : Run) : State :=
  let s1 := (s.clearFor h p r.vdi).loadHandles h p r.ctx
  let l := ((s.half h).logical p).getD 0x7F
  let s2 := s1.updCore h p fun c => { c with run := some { r with core := l }, lastVdi := some r.vdi, preemptBy := none, clusters := [] }
  ((s2.touchModels h r.ctx r.vdi).syncModels).acceptDma h p

/-- A command bound to the frame of its row condition: sequence and layer written where its mark descriptors copy from (R205; log entry 153). -/
def State.bindFrame (s : State) (h p : Nat) (cond : Option CondRt) : State :=
  match cond, ((s.half h).core p).run with
  | some k, some r =>
    if rCount k.cond = 0 then s else
    (r.dma.filter (markCopy r.desc)).foldl (fun t d => t.hWr h p (((s.half h).core p).handle (mSrcH d)) (mSrc d)
      (leBytes 4 (rSeq k.cond) ++ leBytes 1 (Config.haloLayer r.ctx (dTag r.desc)))) s
  | _, _ => s

/-- The checks of a command on a core, with its context's handle set in place (R86). -/
def State.check (s : State) (h p ctx vdi d : Nat) : Chk :=
  checkCmd ((s.clearFor h p vdi).loadHandles h p ctx) h p vdi d

/-- The chosen command of a queue dispatched to a core (R242, R245, R527): refused at once, started as a WAIT, or placed on the core. -/
def State.dispatch (s : State) (h p q : Nat) : State :=
  let x := s.half h
  let u := qIdx q
  let k := x.queue u
  let c := qCtx k.record
  let raw := (s.ctx c).raw
  match x.nextIndex u with
  | none => s
  | some (i, head) =>
    let a := qRing k.record + i % qRingSize k.record * 128
    let viaFall := head && (match k.cond with | some c => c.viaFallback && !c.met | none => false)
    let da := if viaFall then (match k.cond with | some c => rFallAddr c.cond | none => 0) else a
    let rst := if viaFall && !s.inWindows (qVdi k.record) da 128 then .outOfRange else s.access h da 128
    let d := s.rdN da 128
    if rst ≠ .ok then s.refuseDispatch q i head d rst false true
    else if cWeight raw = 0 then s.refuseDispatch q i head d .badArg true false
    else if dOpcode d = 6 && !viaFall then s.startWait q i d
    else
      let ck := s.check h p c (qVdi k.record) d
      match ck.st with
      | some st => if viaFall then s.endFallback h (Run.start (.queue q) i (x.qGen u) 0 d c (qVdi k.record) (cPart raw) x.vt.toNat ck) st 0
                   else (s.countRange h p ck.bad).refuseDispatch q i head d st true ck.readFail
      | none =>
        let r := { Run.start (.queue q) i (x.qGen u) 0 d c (qVdi k.record) (cPart raw) x.vt.toNat ck with fallback := viaFall }
        let s1 := s.accountDispatch h q c
        let s2 := if viaFall then s1.upd h fun x => x.updQueue u fun k => { k with reserved := k.reserved + 1 } else s1.upd h fun x =>
          let y := if head then x.incw F.TEL_DB_HEAD_head u else x
          (y.updQueue u fun k => { k with reserved := k.reserved + 1, flying := i :: k.flying, eligVt := none
                                          cond := if head then none else k.cond }).syncQueue u
        ((s2.place h p r).bindFrame h p (if head then k.cond else none)).noteReady q

/-- The next command of a queue whose context is not valid is not run: it completes with BAD_ARG (R242). -/
def State.refuseInvalid (s : State) (p q : Nat) : State :=
  if s.posted q && cWeight (s.ctx (qCtx ((s.half (qHalf q)).queue (qIdx q)).record)).raw = 0 then s.dispatch (qHalf q) p q else s

/-- A core takes work now: it exists, runs in compute mode and nothing holds it. -/
def Core.free (c : Core) : Bool := c.run.isNone && !c.graphics && !c.switching && !c.resetting && !c.auditing && !c.auditDue && c.retireDue.isNone && !c.shut && !c.gfxReq

/-- CORE_FREE_DISPATCH (R245). -/
def execCoreFreeDispatch (e : Ev) (p : Nat) (s0 : State) : Host.Outcome State Fault Refusal :=
  let s := tick e s0
  let x := s.half e.half
  match x.logical p with
  | none => .next s
  | some l =>
    if !x.clk.computeUp || !(x.core p).free then .next s else
    let d := ((s.queuesOf e.half).foldl (fun t q => (t.refuseInvalid p q).wantModels q) s).draw
    match d.2.choose e.half l d.1 with
    | none => .next d.2
    | some q => .next (d.2.dispatch e.half p q)

/-- A context whose record or handle set could not be read: the next command of each of its queues that is eligible is not run (R527). -/
def State.fetchFailed (s : State) (h ctx : Nat) (st : Status) : State :=
  (s.queuesOf h).foldl (fun s q =>
    if qCtx ((s.half h).queue (qIdx q)).record ≠ ctx || !s.ready q then s else
    match (s.half h).nextIndex (qIdx q) with
    | none => s
    | some (i, head) => s.refuseDispatch q i head (s.queueDesc q i) st true true) s

/-- CONTEXT_FETCH_DONE (R244, R527): the record is in the cache, or its read failed. -/
def execContextFetchDone (e : Ev) (ctx : Nat) (s0 : State) : Host.Outcome State Fault Refusal :=
  let s := tick e s0
  let h := e.half
  if !(s.half h).clk.computeUp then .next s
  else if s.ctxRead h ctx ≠ .ok then .next (s.fetchFailed h ctx (s.ctxRead h ctx)) else
  .next (s.cacheCtx h ctx)

/-- CONTEXT_WRITE_BACK (R244): the cached record goes to its table in DRAM. -/
def execContextWriteBack (e : Ev) (ctx : Nat) (s0 : State) : Host.Outcome State Fault Refusal :=
  .next ((tick e s0).writeBack e.half ctx)

/-! ## Pre-emption (R247-R250) -/

/-- The physical cores that serve a partition now. -/
def Half.partCores (x : Half) (part : Nat) : List Nat :=
  (List.range 136).filter fun p => match x.logical p with | some l => x.inPart part l | none => false

/-- The physical core that the arbiter asks to give way to a context without a free core (R247); none where the context has no ready queue, a core of its
partition is free, or no core may be asked. -/
def State.victim (s : State) (h ctx : Nat) : Option Nat :=
  let x := s.half h
  let raw := (s.ctx ctx).raw
  let part := cPart raw
  let wants := (s.queuesOf h).any fun q => qCtx (x.queue (qIdx q)).record = ctx && s.ready q && !s.ctlPaused q
  let ps := (x.partCores part).filter fun _ => x.partKind part = 2
  let allowed (p : Nat) : Bool := match x.logical p with | some l => x.guardOk l part x.vt.toNat | none => false
  if !wants || ps.any (fun p => (x.core p).free) then none else
  let l (p : Nat) := (x.logical p).getD 0x7F
  let victim := ps.filter fun p => match (x.core p).run with
    | none => false
    | some r => match r.org with
      | .entry _ => false
      | .queue q =>
        let c := (s.ctx r.ctx).raw
        decide (((x.queue (qIdx q)).counts r.index).preempts < 4) && allowed p &&
          (decide (x.partCrit r.part < x.partCrit part) || decide (cPrio c < cPrio raw))
  let run (p : Nat) : Nat × Nat × Nat := match (x.core p).run with
    | some r => (x.partCrit r.part, cPrio (s.ctx r.ctx).raw, r.ctx)
    | none => (0, 0, 0)
  let v1 := minBy (fun p => (run p).1) victim
  let v2 := minBy (fun p => (run p).2.1) v1
  let v3 := v2.filter fun p => v2.all fun o => !shareLt (x.charge (run p).2.2) (x.charge (run o).2.2)
  (minBy l v3).head?

/-- PREEMPTION_REQUEST (R247): the victim core for an eligible context without a free core, if any command may be taken; two requests that choose one
victim cause one pre-emption. -/
def execPreemptionRequest (e : Ev) (ctx : Nat) (s0 : State) : Host.Outcome State Fault Refusal :=
  let s := tick e s0
  match s.victim e.half ctx with
  | none => .next s
  | some p => .next (s.updCore e.half p fun c => { c with preemptBy := c.preemptBy.orElse fun _ => some ctx })

/-! ## Compute and graphics (R98, R251, R252) -/

/-- A core asked to turn to graphics: a free one switches, a busy one at its next tile boundary, one that resets or that turns back to compute once that is done
(R251). -/
def Core.toGraphics (c : Core) : Core :=
  if decide (c.graphics ≠ c.switching) then c
  else if c.run.isNone && !c.auditing && !c.switching && !c.resetting then { c with switching := true } else { c with gfxReq := true }

/-- The largest tile limit of the partitions that share a core with a partition, in ns (R251). -/
def Half.largestLimit (x : Half) (part : Nat) : Nat :=
  ((List.range 16).filter fun q => x.partKind q ≠ 0 && (x.elem .WIN_PART_CORES 0 q &&& x.elem .WIN_PART_CORES 0 part) ≠ 0).foldl
    (fun m q => Nat.max m (x.tileLimit q)) 0

/-- The switch of a graphics partition is due: S of one of its pipes that is on is no further away than the budget, the largest limit and 3 µs (R251). -/
def Half.switchDue (x : Half) (part : Nat) : Bool :=
  [0, 1].any fun u => bits (x.fld F.WIN_PART_CFG_pipes 0 part) u 1 = 1 && x.fld F.DSP_PIPE_CTL_enable u = 1 &&
    decide (x.fld F.DSP_PIPE_VT_next_s u ≤ x.vt.toNat + x.fld F.WIN_PART_CFG_render_budget_us 0 part * 1000 + x.largestLimit part + 3000)

/-- The controller that owns a partition restarts: it requests no switch (R253). -/
def Half.ownerPaused (x : Half) (h part : Nat) : Bool := decide (x.fld F.WIN_DISP_STAT_paused 0 (Config.partOwner h part % 4) = 1)

/-- GRAPHICS_SWITCH_REQUEST (R251): the partition's idle cores begin to switch; running tiles end first. -/
def execGraphicsSwitchRequest (e : Ev) (part : Nat) (s0 : State) : Host.Outcome State Fault Refusal :=
  let s := tick e s0
  let h := e.half
  let x := s.half h
  if x.partKind part ≠ 3 || !x.clk.computeUp || x.ownerPaused h part || !x.switchDue part then .next s else
  .next ((x.partCores part).foldl (fun s p => s.updCore h p Core.toGraphics) s)

/-- MODE_SWITCH_DONE (R98): the core is in the other mode. The tenant clear is part of the switch where the work after it is another VDI's: it runs with the
first work placed on the core, which alone tells whose it is (R124). -/
def execModeSwitchDone (e : Ev) (p : Nat) (s0 : State) : Host.Outcome State Fault Refusal :=
  let s := tick e s0
  let c := (s.half e.half).core p
  if !c.switching then .next s else
  -- a core that was asked to turn to graphics on its way back to compute turns again (R251)
  .next (s.updCore e.half p fun c =>
    { c with switching := c.graphics && c.gfxReq, gfxReq := c.gfxReq && !c.graphics, graphics := !c.graphics, loadedCtx := none, clusters := [] })

/-! ## Late arrivals (R411) -/

/-- LATE_ARRIVAL_DISCARD (R411): a record, fence signal or interrupt with a past generation is discarded and counted in its VDI's hosting half. -/
def execLateArrivalDiscard (e : Ev) (q gen : Nat) (s0 : State) : Host.Outcome State Fault Refusal :=
  let s := tick e s0
  let h := qHalf q
  if gen = (s.half h).qGen (qIdx q) then .next s
  else .next (s.upd h fun x => x.inc F.TEL_VDI_STAT_stale_gen (qVdi (x.queue (qIdx q)).record))

end Sys2Proof.Machine
end

