-- ==== Sys2Proof/Machine/VdiOps.lean ====
section
/-! DEFINITION. Queue states and virtual device instances as shared operations (R235, R410-R419): suspend, disable, the function reset, removal and the
dirty-page log. -/
namespace Sys2Proof.Machine

/-- A run handed to the zero engine (R127). -/
def Half.freeRun (x : Half) (l : List Nat) : Half :=
  ({ x with str := { x.str with gran := l.foldl (fun m g => kput (fun _ => 0) m g 1) x.str.gran, zeroQ := x.str.zeroQ ++ l } } : Half).syncFree

/-! ## Queue states (R235) -/

/-- A queue has no command on a core or the Sieve. -/
def State.queueQuiet (s : State) (q : Nat) : Bool :=
  let x := s.half (qHalf q)
  !(x.cores.any fun c => match c.2.run with | some r => decide (r.org = .queue q) | none => false) &&
    (match x.sieve with | some r => decide (r.org ≠ .queue q) | none => true)

/-- A VDI has no command on a core or the Sieve of half `h`. -/
def State.vdiQuiet (s : State) (h v : Nat) : Bool :=
  let x := s.half h
  !(x.cores.any fun c => match c.2.run with | some r => decide (r.vdi = v) | none => false) &&
    (match x.sieve with | some r => decide (r.vdi ≠ v) | none => true)

/-- The running tiles that satisfy `p` dropped with the watchdog kill (R94). -/
def State.killRuns (s : State) (h : Nat) (p : Run → Bool) : State :=
  (s.half h).cores.foldl (fun t c => match c.2.run with
    | some r => if p r then t.killRun h c.1 else t
    | none => t) s

/-- Enable: the indices are 0, the generation is kept. -/
def Half.enableQueue (x : Half) (u : Nat) : Half :=
  ((((x.setFld F.TEL_DB_HEAD_head 0 u).setFld F.TEL_DB_TAIL_tail 0 u).setFld F.TEL_DB_CQ_TAIL_cq_tail 0 u).setFld F.TEL_DB_CQ_HEAD_cq_head 0 u).setFld
    F.TEL_DB_STATE_state 1 u

/-- Doorbell registers other than the generation at their reset values, and the queue's work forgotten; its record stays. -/
def Half.clearQueue (x : Half) (u : Nat) : Half :=
  let y := ((((x.setFld F.TEL_DB_HEAD_head 0 u).setFld F.TEL_DB_TAIL_tail 0 u).setFld F.TEL_DB_CQ_TAIL_cq_tail 0 u).setFld F.TEL_DB_CQ_HEAD_cq_head 0 u).setFld
    F.TEL_DB_INFLIGHT_inflight 0 u
  ((y.setFld F.TEL_DB_STATE_state 0 u).setFld F.TEL_DB_STATE_irq_en 0 u).updQueue u fun k => { Queue.disabled with record := k.record }

/-- Disable: tiles dropped, watches dropped, everything abandoned; the generation rises. -/
def State.disableQueue (s : State) (q : Nat) : State :=
  let h := qHalf q
  let u := qIdx q
  let c := qCtx ((s.half h).queue u).record
  let s1 := (s.killRuns h fun r => decide (r.org = .queue q)).dropWatch q
  (s1.upd h fun x => (x.clearQueue u).qGenUp u).noteIdle h c

/-- Suspend: nothing further is dispatched; `own`: remote WAITs are rewound as part of it. -/
def State.suspendQueue (s : State) (q : Nat) (own : Bool) : State :=
  let s1 := if own then s.rewind q else s
  (s1.upd (qHalf q) fun x => (x.setFld F.TEL_DB_STATE_state 4 (qIdx q)).updQueue (qIdx q) fun k => { k with eligVt := none }).noteIdle (qHalf q) (qCtx ((s.half (qHalf q)).queue (qIdx q)).record)

/-- Resume: dispatch restarts from head, and its row condition is evaluated again (R234, R235). -/
def State.resumeQueue (s : State) (q : Nat) : State :=
  (s.upd (qHalf q) fun x => ((x.setFld F.TEL_DB_STATE_state 1 (qIdx q)).updQueue (qIdx q) fun k => { k with cond := k.cond.map CondRt.afresh }).syncQueue
    (qIdx q)).noteReady q

/-! ## Generations and the function reset (R410-R413) -/

/-- The queue IDs of a VDI. -/
def Vdi.queueIds (x : Vdi) : List Nat := (List.range (vQCount x.cfg)).map (x.half * 8192 + vQFirst x.cfg + ·)

/-- A queue's generation raised by 1, a remote WAIT rewound in the same step (R240, R410). -/
def State.raiseQueue (s : State) (q : Nat) : State :=
  match ((s.half (qHalf q)).queue (qIdx q)).wait with
  | some w => if w.remote then s.rewind q else s.upd (qHalf q) fun x => x.qGenUp (qIdx q)
  | none => s.upd (qHalf q) fun x => x.qGenUp (qIdx q)

/-- The generations of a VDI and of all its queues raised (R410). -/
def State.raiseVdi (s : State) (v : Nat) : State :=
  let x := s.vdi v
  let g := (x.gen + 1) % 2 ^ 16
  x.queueIds.foldl (fun t q => t.raiseQueue q) ((s.setVdi v { x with gen := g }).upd x.half fun y => y.setFld F.TEL_GEN_generation g v)

/-- Granules of an owner freed; those in a vault's ranges wait for the vault (R412, R489). -/
def State.freeGranules (s : State) (v : Nat) : State :=
  [0, 1].foldl (fun t h =>
    let l := ((t.half h).str.gran.filter fun e => e.2 = 2 + v).map (·.1)
    let kept (g : Nat) : Bool := t.inVault (strBase h + g * 0x10000) 0x10000
    t.upd h fun x =>
      let y := x.freeRun (l.filter fun g => !kept g)
      { y with str := { y.str with heldBack := y.str.heldBack ++ l.filter kept, models := y.str.models.filter fun m => m.vdi ≠ v } }) s

/-- The accounting of a context record at 0: jobs and the fields of an L record (R243, R507). -/
def Ctx.unaccount (x : Ctx) : Ctx := { x with raw := setBits x.raw 192 32 0 % 2 ^ 256 }

/-- The Teller registers of a VDI that F restores, but the windows, which the configuration keeps (R394, R507). -/
def Half.tellerF (x : Half) (v : Nat) : Half :=
  { x with regs := kmapV regDefault x.regs fun k w =>
      if k / 2 ^ 16 % 2 ^ 16 = v then restoreWord k w (fun f => f.byF &&
        (f.reg = .TEL_NOTICE || f.reg = .TEL_NOTICE_EN || f.reg = .TEL_NOTICE_DETAIL || f.reg = .TEL_MBX_REQ || f.reg = .TEL_MBX_STAT)) else w }

/-- Steps 1 to 5 of a VDI function reset (R412): a Sieve command of the VDI runs on. -/
def State.resetVdi (s : State) (v : Nat) : State :=
  let h := s.hostOf v
  let s1 := (s.raiseVdi v).upd h fun x => (x.setFld F.TEL_STATE_state 3 v).tellerF v
  let s2 := (s1.killRuns h fun r => decide (r.vdi = v)).killRuns (peer h) fun r => decide (r.vdi = v)
  let drop (x : Half) : Half := { x with cores := kmapV (fun _ => Core.idle) x.cores fun _ c => c.dropVdi v }
  let s3 : State := { s2 with h0 := drop s2.h0, h1 := drop s2.h1 }
  let first := h * 8192 + vQFirst (s.vdi v).cfg
  let s4 := ((s3.half h).disp.queues.filter fun k => decide (first ≤ h * 8192 + k.1) && decide (h * 8192 + k.1 < first + vQCount (s.vdi v).cfg)).foldl
    (fun t k => (t.dropWatch (h * 8192 + k.1)).upd h fun x => (x.clearQueue k.1).setQueue k.1 Queue.disabled) s3
  let s5 := s4.freeGranules v
  let own := (s5.ctxs.filter fun c => cVdi c.2.raw = v).map (·.1)
  let s6 : State := { s5 with ctxs := kmapV (fun _ => Ctx.none) s5.ctxs fun _ c => if cVdi c.raw = v then c.unaccount else c }
  own.foldl (fun t c => (t.noteIdle h c).touchCtx h c) s6

/-- What a removed VDI held goes: queues, contexts, windows and gateway queues; its page reads 0 (R403, R413). -/
def State.releaseVdi (s : State) (v : Nat) : State :=
  let x := s.vdi v
  let mine (c : Nat) : Bool := decide (bits c 19 1 = x.profile) && decide (vCFirst x.cfg ≤ bits c 0 19) && decide (bits c 0 19 < vCFirst x.cfg + vCCount x.cfg)
  let s1 : State := { s.wipeRecords ((s.ctxs.filter fun c => mine c.1).map (·.1)) with ctxs := s.ctxs.filter fun c => !mine c.1, vdis := kput (fun _ => Vdi.absent) s.vdis v Vdi.absent }
  let s2 := [0, 1].foldl (fun t h => t.upd h fun y => { y with disp := { y.disp with
    cached := y.disp.cached.filter fun c => !mine c, dirty := y.disp.dirty.filter (fun c => !mine c.1)
    active := y.disp.active.filter (fun c => !mine c.1), charge := y.disp.charge.filter (fun c => !mine c.1) } }) s1
  s2.upd x.half fun y =>
    let own := y.gtw.queueOwner.filter fun e => e.2 = v + 1
    ({ y with gtw := { y.gtw with
      queueOwner := y.gtw.queueOwner.filter fun e => e.2 ≠ v + 1
      queues := y.gtw.queues.filter fun e => !(own.any fun o => o.1 = e.1) } } : Half).hideVdi v

/-! ## The dirty-page log (R416-R418) -/

/-- A bitmap buffer of the log zeroed. -/
def State.zeroBitmap (s : State) (v k : Nat) : State :=
  let x := s.vdi v
  s.zero (x.bitmaps.getD k 0) ((pagesBefore x.cfg 8 + 7) / 8 + 63 - ((pagesBefore x.cfg 8 + 7) / 8 + 63) % 64)

/-- The swap: the other buffer, zeroed, is active. -/
def State.swapLog (s : State) (v : Nat) : State :=
  let x := s.vdi v
  let b := 1 - x.logBuf
  ((s.zeroBitmap v b).setVdi v { x with logBuf := b }).upd x.half fun y => (y.setFld F.TEL_VDI_STAT_log_buf b v).setFld F.TEL_VDI_STAT_log_pages 0 v

/-- A migration step completed (R416, R423): the phase and the register. -/
def State.migrated (s : State) (v step : Nat) (done : Bool) : State :=
  (s.setVdi v { s.vdi v with migStep := if done then 0 else step + 1 }).upd (s.hostOf v) fun x => x.setFld F.TEL_VDI_STAT_mig_step step v

end Sys2Proof.Machine
end

