-- ==== Sys2Proof/Machine/MboxOps.lean ====
section
/-! DEFINITION. Mailbox messages as shared operations (R387-R398): who may send what, where src and dst lie, and how a reply travels. A reply's
payload is the little-endian number of the bytes from 0x10. -/
namespace Sys2Proof.Machine

/-! ## The Latch (R385, R386) -/

/-- A renewal from the holder's session that arrived in time waits to execute: it counts at its arrival (R386, R445). -/
def State.renewWaiting (s : State) : Bool :=
  let mine (g p : Nat) : Bool := (decide (s.latch.half = g) && decide (s.latch.partner = p)) ||
    (match (s.half g).session p with | some k => decide (s.latch.holder = some k.pid) | none => false)
  let inTime (t : Nat) : Bool := decide (t / 1000000 < s.latch.expires / 1000000)
  s.latch.holder.isSome && [0, 1].any fun g =>
    ((s.half g).ports.sessions.any fun e => mine g e.1 &&
      (match e.2 with | some k => k.queued.any fun q => decide (q.hd.opcode = 0x02) && inTime q.since | none => false)) ||
    ((s.half g).ports.rxq.any fun r => match r.2 with
      | .mailbox _ hd l => mine g hd.partner && inTime r.1 && l.any fun q => decide (q.opcode = 0x02)
      | _ => false)

/-- The lease runs. -/
def State.latchLive (s : State) : Bool := s.latch.holder.isSome && (decide (s.now < s.latch.expires) || s.renewWaiting)

/-- A ring pair as a Latch sender, beside the partner numbers of the ports. -/
def ringPartner (k : Nat) : Nat := 2 ^ 20 + k

/-- The half whose port carries the sessions of a half: its own, or the other one once its port is retired (R309, R376). -/
def State.portOf (s : State) (h : Nat) : Nat := if (s.half h).svc.record.portRetired then peer h else h

/-- The sender is the Latch holder: the session or ring that took it, or a session of the same partner_id on either port (R385). -/
def State.holds (s : State) (h : Nat) (m : Msg) : Bool :=
  let g := s.portOf h
  s.latchLive && match m.org with
  | .session p => (decide (s.latch.half = g) && decide (s.latch.partner = p)) ||
      (match (s.half g).session p with | some k => decide (s.latch.holder = some k.pid) | none => false)
  | .ring k => decide (s.latch.half = h) && decide (s.latch.partner = ringPartner k)
  | .teller _ => false

/-! ## Scopes (R390, R391, R395, R397, R398) -/

inductive Scope where
  | a | any | l | v | vl
deriving DecidableEq, Repr

/-- Opcodes of other scopes that a service ring carries (R397); STATS_READ is of scope A, and its clear needs the Latch besides. -/
def ringOps : List Nat := [0x01, 0x02, 0x03, 0x04, 0x11, 0x90, 0x91, 0x93, 0x94, 0x95, 0x97, 0xA0]

/-- The message comes through a service ring: a ring pair, or a port in ring mode (R398). -/
def State.viaRing (s : State) (h : Nat) (m : Msg) : Bool :=
  match m.org with
  | .ring _ => true
  | .session _ => decide ((s.half h).ports.stage ≠ 4)
  | .teller _ => false

/-- The refusal of a message of scope L: the generation first, then the sender (R385, R386). -/
def State.scopeL (s : State) (h : Nat) (m : Msg) : Option Status :=
  match m.org with
  | .teller _ => some .notOwner
  | _ => if m.gen ≠ s.latch.gen then some .staleGen else if s.holds h m then none else some .latchHeld

/-- The refusal of a message of scope V (R388, R390, R391). -/
def State.scopeV (s : State) (h : Nat) (m : Msg) : Option Status :=
  let st : Option Status := match m.org with
    | .teller v => if m.vdi = v then none else some .notOwner
    | _ => if s.holds h m then none else some .latchHeld
  match st with
  | some x => some x
  | none => if !(s.vdi m.vdi).exists_ then some .badArg else if m.gen ≠ (s.vdi m.vdi).gen then some .staleGen else none

/-- The refusal of a message before its opcode's own checks. -/
def State.refusal (s : State) (h : Nat) (m : Msg) (op : Nat) (sc : Scope) (compute : Bool) : Option Status :=
  let st := (s.half h).ports.stage
  if st = 0 && op ≠ 0x10 && op ≠ 0x94 && op ≠ 0x95 then some .badArg
  else if s.viaRing h m && sc ≠ .a && !ringOps.contains op then some .badArg
  else
    let r : Option Status := match sc with
      | .a => none
      | .any => (match m.org with | .teller _ => some .notOwner | _ => none)
      | .l => s.scopeL h m
      | .v => s.scopeV h m
      | .vl => (match m.org with
        | .teller _ => s.scopeV h m
        | _ => if m.vdi = 0xFF then s.scopeL h m else s.scopeV h m)
    match r with
    | some x => some x
    | none => if compute && !(s.half h).clk.computeUp then some .timeout else none

/-! ## src and dst (R379, R391, R396, R397, R406) -/

def stagingSize : Nat := 0x20000

/-- The bytes that a src names, or the refusal. -/
def State.srcBytes (s : State) (h : Nat) (m : Msg) (src n : Nat) : Status × List Byte :=
  if n = 0 then (.ok, []) else
  let off := bits src 0 17
  let staged (c : List Host.Cell) : Status × List Byte :=
    if bits src 63 1 = 0 then (.badArg, []) else if stagingSize < off + n then (.outOfRange, []) else (.ok, cellsRead c off n)
  match m.org with
  | .session p => staged (match (s.half (s.portOf h)).session p with | some k => k.staging | none => [])
  | .ring k =>
    let a := ((s.half h).ring k).area
    if k = 0 then staged a else if src < 0x5000 || 0x10000 < src + n then (.outOfRange, []) else (.ok, cellsRead a src n)
  | .teller v => if !s.inWindows v src n then (.outOfRange, []) else match s.access h src n (some v) with
    | .ok => (.ok, s.rdBytes src n)
    | st => (st, [])

/-- The bytes written where a dst names, or the refusal. -/
def State.dstBytes (s : State) (h : Nat) (m : Msg) (dst : Nat) (l : List Byte) : Status × State :=
  let n := l.length
  if n = 0 then (.ok, s) else
  let off := bits dst 0 17
  let bad : Option Status := if bits dst 63 1 = 0 then some .badArg else if stagingSize < off + n then some .outOfRange else none
  match m.org with
  | .session p =>
    let g := s.portOf h
    (match bad, (s.half g).session p with
    | some st, _ => (st, s)
    | none, some k => (.ok, s.upd g fun x => x.setSession p (some { k with staging := cellsWrite k.staging off l }))
    | none, none => (.ok, s))
  | .ring k =>
    let r := (s.half h).ring k
    if k = 0 then
      (match bad with
      | some st => (st, s)
      | none => (.ok, s.upd h fun x => x.setRing k { r with area := cellsWrite r.area off l }))
    else if dst < 0x5000 || 0x10000 < dst + n then (.outOfRange, s)
    else (.ok, s.upd h fun x => x.setRing k { r with area := cellsWrite r.area dst l })
  | .teller v => if !s.inWindows v dst n then (.outOfRange, s) else match s.access h dst n (some v) with
    | .ok => (.ok, s.storeV h v dst l)
    | st => (st, s)

/-! ## Answers and replies (R381, R387, R389, R394, R397) -/

/-- The sequence number of a frame sent. -/
def outSeq : Out → Nat
  | .frame _ _ seq _ _ _ _ _ => seq
  | _ => 0

/-- An answer to frame `fs` of a session, with a new device sequence number, held with the last 64 (R381). `relay`: it was relayed for the other half
(R376). -/
def State.answer (s : State) (g p fs type : Nat) (st : Status) (relay : Bool) (data : List Nat) : State :=
  match (s.half g).session p with
  | none => s
  | some k =>
    let q := (k.devSeq + 1) % 2 ^ 32
    let f := Out.frame g p q ((k.expect + 2 ^ 32 - 1) % 2 ^ 32) type st.code relay data
    let s := if type = 0x05 then s.upd g fun x => x.inc F.TEL_PORT_STAT_nak else s
    (s.upd g fun x => x.setSession p (some { k with devSeq := q, answers := ((fs, f) :: k.answers).take 64 })).emit f

/-- The 64 bytes of a reply as a number (R387). -/
def replyMsg (op : Nat) (m : Msg) (st : Status) (pay : Nat) : Nat :=
  op + st.code * 2 ^ 16 + 2 ^ 24 + m.tag % 2 ^ 32 * 2 ^ 32 + m.gen % 2 ^ 16 * 2 ^ 64 + m.vdi % 2 ^ 8 * 2 ^ 80 + pay % 2 ^ 384 * 2 ^ 128

/-- A reply slot written while there is room, else kept until there is (R397). -/
def Ring.pushReply (r : Ring) (w : Nat) : Ring :=
  if r.waiting = [] && (r.repTail + 2 ^ 32 - r.repHead) % 2 ^ 32 < 128 then
    { r with replies := kput (fun _ => 0) r.replies (r.repTail % 128) w, repTail := (r.repTail + 1) % 2 ^ 32 }
  else { r with waiting := r.waiting ++ [w] }

/-- The reply to a message, by the path it came: a REPLY frame once the replies of its frame are complete, the Teller's reply, or a ring slot. A session
that was reset or closed gets none (R380). -/
def State.reply (s : State) (h : Nat) (m : Msg) (op : Nat) (st : Status) (pay : Nat) : State :=
  let w := replyMsg op m st pay
  let s1 := s.emit (.reply h m st [pay % 2 ^ 384])
  match m.org with
  | .session p =>
    let g := s.portOf h
    (match (s.half g).session p with
    | none => s
    | some k =>
      match k.queued with
      | [] => s1
      | q :: rest =>
        let done := k.replies ++ [w]
        if rest.any (fun r => r.fs = q.fs) then s1.upd g fun x => x.setSession p (some { k with queued := rest, replies := done })
        else (s1.upd g fun x => x.setSession p (some { k with queued := rest, replies := [] })).answer g p q.fs 0x03 .ok (decide (g ≠ h)) done)
  | .teller v => s1.upd h fun x => { x with ports := { x.ports with tellerReply := kput (fun _ => 0) x.ports.tellerReply v (w + 1) } }
  | .ring k => s1.upd h fun x =>
      let r := x.ring k
      let r1 : Ring := if r.reqHead = r.reqTail then r else { r with reqHead := (r.reqHead + 1) % 2 ^ 32 }
      x.setRing k (r1.pushReply w)

/-- A path whose message is under way takes no other. -/
def Half.underWay (x : Half) (o : Origin) : Bool := x.disp.leaving.any (fun l => l.msg.org = o) || x.str.waits.any fun a => a.msg.org = o

/-- The message is the one that its path executes now: the front of its session's queue, the Teller's request, a ring's next slot; a path with nothing
waiting takes the message as it comes. -/
def State.turn (s : State) (h : Nat) (m : Msg) (op : Nat) : Bool :=
  let x := s.half h
  !x.underWay m.org && match m.org with
  | .session p => (match (s.half (s.portOf h)).session p with
    | none => false
    | some k => match k.queued with
      | [] => true
      | q :: _ => decide (q.hd = { opcode := op, tag := m.tag }) && decide (q.half = h))
  | .teller v => kget (fun _ => 0) x.ports.tellerReply v = 0 &&
    (match kget (fun _ => 0) x.ports.tellerMsg v with
    | 0 => decide (s.hostOf v = h) && (s.vdi v).exists_
    | w => decide (bits (w - 1) 0 16 = op) && decide (bits (w - 1) 32 32 = m.tag))
  | .ring k => (decide (k = 0) || decide (x.ports.stage ≠ 0)) && (match kget (fun _ => 0) (x.ring k).slots ((x.ring k).reqHead % 128) with
    | 0 => true
    | w => (x.ring k).reqHead = (x.ring k).reqTail || (decide (bits w 0 16 = op) && decide (bits w 32 32 = m.tag)))

/-- The steward serves mailboxes (R396, R444). -/
def Half.serves (x : Half) : Bool := x.clk.rimUp && !x.fw.stewardDown

/-! ## Messages that wait for running commands (R235, R412-R419) -/

/-- What a message waited for has ended. -/
def State.left (s : State) (h : Nat) (l : Leaving) : Bool :=
  match l.kind with
  | .queue => s.queueQuiet l.id
  | _ => s.vdiQuiet h l.id

/-- The rest of a message under way, with its reply's payload. -/
def State.rest (s : State) (h : Nat) (l : Leaving) : State × Nat :=
  match l.kind with
  | .queue => (s, (s.half h).qGen (qIdx l.id))
  | .reset =>
    let s1 := (s.upd h fun x => (x.setFld F.TEL_STATE_state (if x.clk.computeUp then 0 else 4) l.id).inc F.TEL_VDI_STAT_resets l.id).noticeBare l.id 5
    (s1.saveConf h false, (s.vdi l.id).gen)
  | .remove => ((s.releaseVdi l.id).saveConf h false, 0)
  | .release => ((s.releaseVdi l.id).saveConf h false, (s.vdi l.id).gen)
  | .quiesce =>
    let s1 := ((s.raiseVdi l.id).swapLog l.id).migrated l.id 2 false
    (s1, (s1.vdi l.id).gen)

/-- A message under way completed and answered. -/
def State.complete (s : State) (h : Nat) (l : Leaving) : State :=
  let r := s.rest h l
  r.1.reply h l.msg l.op .ok r.2

/-- Messages under way whose commands have ended are completed, in their order. -/
def State.settleMsgs (s : State) (h : Nat) : State :=
  if !(s.half h).serves then s else
  (s.half h).disp.leaving.foldl (fun t l =>
    if t.left h l then (t.upd h fun x => { x with disp := { x.disp with leaving := x.disp.leaving.erase l } }).complete h l else t) s

/-- A message that waits for running commands, completed at once where none runs. -/
def State.underWay (s : State) (h : Nat) (l : Leaving) : State :=
  (s.upd h fun x => { x with disp := { x.disp with leaving := x.disp.leaving ++ [l] } }).settleMsgs h

/-- A message that the steward takes now and that nothing refuses. -/
def State.accepts (s : State) (h : Nat) (m : Msg) (op : Nat) (sc : Scope) (compute : Bool) : Bool :=
  (s.half h).serves && s.turn h m op && decide (s.refusal h m op sc compute = none)

/-- One mailbox message: its turn, its refusals, its effect, its reply. A body that answers no status replies later. -/
def State.mboxW (s : State) (h : Nat) (m : Msg) (op : Nat) (sc : Scope) (compute : Bool) (body : State → State × Option (Status × Nat)) : State :=
  let s := s.settleMsgs h
  if !(s.half h).serves || !s.turn h m op then s else
  match s.refusal h m op sc compute with
  | some st => s.reply h m op st 0
  | none =>
    let r := body s
    match r.2 with
    | some a => r.1.reply h m op a.1 a.2
    | none => r.1

/-- A message whose reply follows at once. -/
def State.mbox (s : State) (h : Nat) (m : Msg) (op : Nat) (sc : Scope) (compute : Bool) (body : State → State × Status × Nat) : State :=
  s.mboxW h m op sc compute fun t => let r := body t; (r.1, some r.2)

/-- A message of scope L that configures the half: when its effect succeeds, the configuration store follows (R454). -/
def State.mboxL (s : State) (h : Nat) (m : Msg) (op : Nat) (body : State → State × Status × Nat) : State :=
  s.mbox h m op .l false fun t => let r := body t; (if r.2.1 = .ok then r.1.saveConf h false else r.1, r.2)

end Sys2Proof.Machine
end

