-- ==== Sys2Proof/Machine/Cores.lean ====
section
/-! DEFINITION. Tiles and core DMA as they end, fail or are killed (R91-R99, R112-R120). -/
namespace Sys2Proof.Machine

/-- What follows the end of a command of a core: its queue's next command may be eligible, its context may go idle (R246), and a
message may have waited for it (R235, R419). -/
def State.afterRun (s : State) (h : Nat) (r : Run) : State :=
  match r.org with
  | .queue q => ((s.noteReady q).noteIdle h r.ctx).settleMsgs h
  | .entry _ => s

/-- The tagged index under which a descriptor may run now (R89, R91). -/
def Run.headTag (r : Run) (i : Nat) : Option Nat :=
  if r.heads.contains i then some i else if r.heads.contains (i + nextTag) then some (i + nextTag) else none

/-- A command that a failed descriptor ends, as soon as no descriptor that was accepted is under way; where only a load of the next tile failed, the current tile
ends first (R92). -/
def State.settleFail (s : State) (h p : Nat) : State :=
  match ((s.half h).core p).run with
  | none => s
  | some r => match r.fail with
    | none => s
    | some (st, tag) => if r.settled && (r.curFail || r.tiles ≤ r.tile) then (s.endFailed h p r st tag).afterRun h r else s

/-- What the engines of a tile have done since: its run is `r`, and a failure or a detected error of theirs ends or re-runs the tile (R110, R119). -/
def State.engineEnd (s : State) (h p : Nat) (r : Run) (e : EngRes) : State :=
  match e with
  | .fail st => (s.engineFail h p r st).afterRun h r
  | .err mem off => ((s.countMemErr h p mem off).tileError h p r).afterRun h r
  | _ => s.updCore h p fun c => { c with run := some r }

/-- The end of a tile whose last store has ended: it is kept, and the boundary or what follows the last tile comes (R91, R97). -/
def State.endTile (s : State) (h p : Nat) (r : Run) : State :=
  (if r.tile + 1 < r.tiles then s.boundary h p r.keep else s.lastTile h p r).afterRun h r

/-- A core without a command at a tile boundary turns to the mode it was asked for (R98, R251). -/
def State.idleBoundary (s : State) (h p : Nat) : State :=
  let c := (s.half h).core p
  if !c.switching && !c.auditing && (c.gfxReq || c.graphics) then s.updCore h p fun c => { c with switching := true, gfxReq := false } else s

/-- TILE_END (R91): the tile's last store has ended. `sched` names the warps that have issued since the last such row, one by one (R72, R76): where the tile's
workgroups have not all ended, or a store has not, only they have gone on. -/
def execTileEnd (e : Ev) (p : Nat) (sched : List Nat) (s0 : State) : Host.Outcome State Fault Refusal :=
  let s := tick e s0
  let h := e.half
  match ((s.half h).core p).run with
  | none => .next (s.idleBoundary h p)
  | some r =>
    let a := s.compute h p r sched
    let q := a.2.1
    match a.2.2 with
    | .ok =>
      let s1 := a.1.updCore h p fun c => { c with run := some q }
      if r.tiles ≤ r.tile || !q.computed || !q.endedAll q.stores then .next ((s1.acceptDma h p).settleFail h p)
      else match q.fail with
        | some (st, tag) => if q.settled then .next ((s1.endFailed h p q st tag).afterRun h q) else .next s1
        | none => .next (s1.endTile h p q)
    | x => .next (a.1.engineEnd h p q x)

/-- TILE_WATCHDOG_FIRE (R94-R97): the tile's count of CORE cycles has reached its limit less 1 µs, and its last store has not ended. -/
def execTileWatchdogFire (e : Ev) (p : Nat) (s0 : State) : Host.Outcome State Fault Refusal :=
  let s := tick e s0
  let h := e.half
  match ((s.half h).core p).run with
  | none => .next s
  | some r =>
    if !(s.half h).timeUp p r || r.tileEnded then .next s else .next ((s.overrun h p r).afterRun h r)

/-- The Till rows on which a descriptor may meet other accesses (R115): of other descriptors, and of a Kerbel tile that has not computed. -/
def State.dmaMeets (s : State) (h p : Nat) (r : Run) (tag : Nat) : List Nat :=
  let c := (s.half h).core p
  let d := r.dma.getD (tag % nextTag) 0
  let wr := c.dmaRows d (r.dmaTile tag) true
  let rd := c.dmaRows d (r.dmaTile tag) false
  let eng := if r.computed || !r.ready || r.tiles ≤ r.tile || !isKerbel r.desc then [] else
    let k := r.kb s h p
    let er := k.tillRowsOf (k.reads r.tile)
    let ew := k.tillRowsOf (k.writes r.tile)
    (wr.filter fun x => er.contains x || ew.contains x) ++ rd.filter ew.contains
  (c.meetRows r tag rd wr ++ eng.filter fun x => c.mark x = 0).eraseDups

/-- A descriptor under way, with the orders in which it meets others settled (R115). -/
def State.settleOrder (s : State) (h p tag : Nat) (r : Run) : State :=
  let m := s.meet h p r (s.dmaMeets h p r tag)
  ((m.1.updCore h p fun c => { c with run := some m.2 }).race h p m.2 tag).raceEngine h p m.2 tag

/-- A descriptor ends with what it has moved (R90-R92, R119). -/
def Mv.done (m : Mv) (h p : Nat) (r : Run) (tag : Nat) : State :=
  let i := tag % nextTag
  let d := r.dma.getD i 0
  let s1 := ({ m.s with freeCtr := m.ctr } : State).countMove h p ((m.s.half h).coreUnit p) d m.moved
  match m.res with
  | .fail st => ((if st = .bankShut then s1.lateSide h p d else s1).dmaFailed h p r tag st).settleFail h p
  | .peer off => ((s1.strErr (peer h) off).dmaFailed h p r tag .dataError).settleFail h p
  | .err mem off =>
    let s2 := s1.countMemErr h p mem off
    if nextTag ≤ tag then s2.nextError h p r else (s2.tileError h p r).afterRun h r
  | .ok =>
    let s2 := s1.dmaStatus h p r i (if mRows d = 0 || mRowBytes d = 0 then .empty else .ok)
    let late := decide (r.tiles ≤ r.tile)
    let next := decide (nextTag ≤ tag)
    let r1 := { r with
      ended := tag :: r.ended
      tileSat := if next then r.tileSat else r.tileSat + m.sat
      tileInv := if next then r.tileInv else r.tileInv + m.inv
      nextSat := if next then r.nextSat + m.sat else r.nextSat
      nextInv := if next then r.nextInv + m.inv else r.nextInv }
    let s3 := s2.updCore h p fun c => { c.dropMarks (mToken d) (c.dmaRows d (r.dmaTile tag) true) with run := some r1 }
    if r1.fail.isSome then s3.settleFail h p
    else if late && r1.endedAll r1.epilogue then (s3.finishCore h p r1.keep r1.keep.status.1 r1.keep.status.2).afterRun h r
    else s3.acceptDma h p

/-- The move of a descriptor that ends, and what follows. -/
def State.endDma (s : State) (h p tag : Nat) (r : Run) : State :=
  let s1 := s.settleOrder h p tag r
  match ((s1.half h).core p).run with
  | none => s1
  | some q => (s1.moveOf h p q tag (2 ^ 32)).done h p q tag

/-- What the engines do before descriptor `i` goes on: a tile computes before a store of it; before a load of the next tile it may have computed or not, which nothing
orders (R91, R115). A SIMT tile's warps issue at the rows that say so. -/
def State.computeFirst (s : State) (h p : Nat) (r : Run) (i : Nat) : State × Run × EngRes :=
  if dOpcode r.desc = 4 || r.tiles ≤ r.tile then (s, r, .ok)
  else if r.stores.contains i then s.compute h p r []
  else if r.heads.contains (i + nextTag) && isKerbel r.desc && !r.computed then
    let d := s.draw
    if d.1 % 2 = 0 then d.2.compute h p r [] else (d.2, r, .ok)
  else (s, r, .ok)

/-- A descriptor may go on: its channel has accepted it, it waits on no mark, and the tile of a store has computed (R91, R113, R114). -/
def Core.dmaGoes (c : Core) (r : Run) (tag : Nat) : Bool :=
  r.accepted.contains tag && !c.dmaWaits (r.dma.getD (tag % nextTag) 0) (r.dmaTile tag) (r.passed.contains tag) &&
    (nextTag ≤ tag || !r.stores.contains tag || r.computed)

/-- Descriptor `i` ends where it is at the head of its channel and may go on. -/
def State.endHead (s : State) (h p i : Nat) : State :=
  let s1 := s.acceptDma h p
  match ((s1.half h).core p).run with
  | none => s1
  | some q =>
    match q.headTag i with
    | none => s1
    | some tag => if ((s1.half h).core p).dmaGoes q tag then s1.endDma h p tag q else s1

/-- DMA_DESCRIPTOR_END (R91). -/
def execDmaDescriptorEnd (e : Ev) (p i : Nat) (s0 : State) : Host.Outcome State Fault Refusal :=
  let s := (tick e s0).acceptDma e.half p
  let h := e.half
  match ((s.half h).core p).run with
  | none => .next s
  | some r =>
    let a := s.computeFirst h p r i
    match a.2.2 with
    | .fail st => .next (a.1.engineEnd h p a.2.1 (.fail st))
    | .err mem off => .next (a.1.engineEnd h p a.2.1 (.err mem off))
    | _ => .next ((a.1.updCore h p fun c => { c with run := some a.2.1 }).endHead h p i)

/-- Statuses a descriptor can fail with (R92, R473). -/
def dmaFailStatus (st : Status) : Bool :=
  st = .outOfRange || st = .badHandle || st = .bankShut || st = .dataError || st = .timeout || st = .notOwner

/-- A descriptor of a core fails (R92): the rows before the failed one have moved; which row failed is a free value. -/
def State.failHead (s : State) (h p i : Nat) (st : Status) : State :=
  match ((s.half h).core p).run with
  | none => s
  | some r =>
    match r.headTag i with
    | none => s
    | some tag =>
      let s1 := s.settleOrder h p tag r
      match ((s1.half h).core p).run with
      | none => s1
      | some q =>
        let f := s1.draw
        let d := q.dma.getD i 0
        let m := f.2.moveOf h p q tag (f.1 % Nat.max (mRows d) 1)
        let s2 := ({ m.s with freeCtr := m.ctr } : State).countMove h p ((m.s.half h).coreUnit p) d m.moved
        (s2.dmaFailed h p q tag st).settleFail h p

/-- A failure that the bus reports for descriptor `i`; before a store of a tile fails, the tile has computed (R91). -/
def State.failDma (s : State) (h p i : Nat) (st : Status) : State :=
  match ((s.half h).core p).run with
  | none => s
  | some r =>
    if !dmaFailStatus st || (!r.heads.contains i && !r.heads.contains (i + nextTag) && !r.stores.contains i) then s else
    let a := s.computeFirst h p r i
    match a.2.2 with
    | .fail st => a.1.engineEnd h p a.2.1 (.fail st)
    | .err mem off => a.1.engineEnd h p a.2.1 (.err mem off)
    | _ => ((a.1.updCore h p fun c => { c with run := some a.2.1 }).acceptDma h p).failHead h p i st

/-- DMA_DESCRIPTOR_FAILURE (R92). -/
def execDmaDescriptorFailure (e : Ev) (p i : Nat) (st : Status) (s0 : State) : Host.Outcome State Fault Refusal :=
  let s := tick e s0
  .next (s.failDma e.half p i st)

/-- DETECTED_MEMORY_ERROR (R119): in the Till (0), the half's Strongroom (1) or the operand space (3). -/
def execDetectedMemoryError (e : Ev) (p mem off : Nat) (s0 : State) : Host.Outcome State Fault Refusal :=
  let s := tick e s0
  let h := e.half
  let s1 := s.countMemErr h p mem off
  match ((s.half h).core p).run with
  | none => .next s1
  | some r => .next ((s1.tileError h p r).afterRun h r)

/-- Model loads of a VDI that are under way stop (R407): the entries are not in the Strongroom. -/
def Half.failLoads (x : Half) (vdi : Nat) : Half :=
  { x with str := { x.str with models := x.str.models.map fun m => if m.vdi = vdi && m.state = 1 then { m with state := 0 } else m } }

/-- NON_TILE_READ_ERROR (R120, R407). -/
def execNonTileReadError (e : Ev) (who : ReadKind) (addr : Nat) (s0 : State) : Host.Outcome State Fault Refusal :=
  let s := tick e s0
  let h := e.half
  let g := homeHalf addr
  let s1 := if inStr g addr 1 then s.strErr g (addr - strBase g) else s
  match who with
  | .appLoad hart => .next ((s1.hartFault h hart 5).incident h (if inStr g addr 1 then 0x03 else 0x09) hart .dataError (addr % 2 ^ 32))
  | .window vdi => .next ((s1.upd h fun x => x.failLoads vdi).incident h 0x0E vdi .dataError (addr % 2 ^ 32))
  | .rmw vdi => .next ((s1.upd h fun x => x.failLoads vdi).incident h 0x0E vdi .dataError (addr % 2 ^ 32))
  | .hatch tag => .next (s1.emit (.hatchCpl h tag .dataError []))

/-- ROW_WRITE_LANDS (R112): the row holds the load's bytes and its mark is 0. -/
def execRowWriteLands (e : Ev) (p row : Nat) (s0 : State) : Host.Outcome State Fault Refusal :=
  let s := tick e s0
  let h := e.half
  let c := (s.half h).core p
  if c.mark row = 0 then .next s else
  match c.run with
  | none => .next (s.updCore h p fun c => c.dropMarks (c.mark row) [row])
  | some r =>
    let own := r.accepted.find? fun tag =>
      let d := r.dma.getD (tag % nextTag) 0
      !r.isOver tag && mToken d = c.mark row && (c.dmaRows d (r.dmaTile tag) true).contains row
    match own with
    | none => .next (s.updCore h p fun c => c.dropMarks (c.mark row) [row])
    | some tag => .next ((s.landRow h p tag row).acceptDma h p)

/-- TOKEN_BARRIER_PASS (R114). -/
def execTokenBarrierPass (e : Ev) (p i : Nat) (s0 : State) : Host.Outcome State Fault Refusal :=
  let s := tick e s0
  let h := e.half
  let c := (s.half h).core p
  match c.run with
  | none => .next s
  | some r =>
    let d := r.dma.getD i 0
    match r.headTag i with
    | none => .next s
    | some tag =>
      if mToken d = 0 || c.dmaRows d (r.dmaTile tag) false = [] || c.rowMark.any (fun m => m.2 = mToken d) then .next s
      else .next ((s.updCore h p fun c => { c with run := some { r with passed := tag :: r.passed } }).acceptDma h p)

/-- CORE_RESET (R99, R285): a running command is requeued or ended, the core's memories are zeroed, an incident is written. `l` is the logical index that the core
served. -/
def State.coreReset (s : State) (h p cause l : Nat) : State :=
  let r := ((s.half h).core p).run
  let s1 := s.startCoreReset h p cause l
  match r with
  | some r => s1.afterRun h r
  | none => s1

end Sys2Proof.Machine
end

