-- ==== Sys2Proof/Machine/Raster.lean ====
section
/-! DEFINITION. The stages of the raster pipeline (R427-R432): assembly, clipping, culling, binning, coverage, depth and stencil tests, texture
residency, blending and tile stores. The draw stream's format and its shaders are the driver's (R424): what the front end reads from it, and what its
shaders give, is the command's RenderRun. -/
namespace Sys2Proof.Machine

/-! ## Input assembly (R427) -/

/-- Lists of vertices between restarts. -/
def restartRuns : List (Option Nat) → List (List Nat)
  | [] => [[]]
  | none :: r => [] :: restartRuns r
  | some i :: r => match restartRuns r with | [] => [[i]] | l :: ls => (i :: l) :: ls

/-- The vertices of a run's primitives; every second triangle of a strip turns, and a fan turns about its first vertex. -/
def rasTuples (d : RasDraw) (run : List Nat) : List (List Nat) :=
  let g (k : Nat) : Nat := run.getD k 0
  let seq (i : Nat) : List Nat := (List.range d.verts).map fun j => g (i + j)
  let starts := List.range (run.length + 1 - d.verts)
  match d.topo with
  | .list => (List.range (run.length / d.verts)).map fun i => seq (i * d.verts)
  | .strip => starts.map fun i => if d.verts = 3 && i % 2 = 1 then [g i, g (i + 2), g (i + 1)] else seq i
  | .fan => starts.map fun i => if d.verts = 3 then [g (i + 1), g (i + 2), g 0] else seq i

/-- A read by the front end or a bin tile, which pays at port 129 (R425, R330): status and bytes. -/
def State.raRead (s : State) (h v k a n : Nat) : Status × List Byte × State :=
  let st := if s.inWindows v a n then s.access h a n (some v) else .outOfRange
  if st = .ok then (.ok, s.rdBytes a n, s.pay h 129 k false a n) else (st, [], if st = .dataError then s.strErrs a n else s)

/-- The vertex indices of a draw; an index that cannot be read is a free value. -/
def State.raIndices (s : State) (h v k : Nat) (d : RasDraw) : List (Option Nat) × State :=
  match d.indexAddr with
  | none => ((List.range d.count).map some, s)
  | some a =>
    let r := s.raRead h v k a (d.count * d.indexBytes)
    let f := r.2.2.draw
    let raw (i : Nat) : Nat :=
      if r.1 = .ok then leNat ((r.2.1.drop (i * d.indexBytes)).take d.indexBytes) else bits f.1 (8 * i * d.indexBytes) (8 * d.indexBytes)
    ((List.range d.count).map fun i => if d.restart && raw i = 2 ^ (8 * d.indexBytes) - 1 then none else some (raw i),
      if r.1 = .ok then r.2.2 else f.2)

/-! ## Setup: viewport, clipping, culling (R427)

Coordinates are exact: an FP32 number stands as an integer count of 2^-149, a position as homogeneous integers. -/

def fx (w : Nat) : Option Int :=
  match decodeFloat 0 w with
  | .fin n m e => some ((if n then -1 else 1) * (m : Int) * 2 ^ (e + 149).toNat)
  | _ => none

/-- A position in the viewport: x, y and depth over w, and the clip depth and w. -/
structure ClipVtx where
  sx : Int
  sy : Int
  sz : Int
  sw : Int
  z : Int
  w : Int
deriving DecidableEq, Repr

/-- A combination of two positions. -/
def ClipVtx.mix (a b : ClipVtx) (p q : Int) : ClipVtx :=
  { sx := p * a.sx + q * b.sx, sy := p * a.sy + q * b.sy, sz := p * a.sz + q * b.sz, sw := p * a.sw + q * b.sw, z := p * a.z + q * b.z, w := p * a.w + q * b.w }

/-- A shaded position brought to the viewport; none where a coordinate is not finite. -/
def rasView (d : RasDraw) (p : RasVtx) : Option ClipVtx :=
  match fx p.x, fx p.y, fx p.z, fx p.w, d.viewport.map fx with
  | some x, some y, some z, some w, [some vx, some vy, some vw, some vh, some z0, some z1] =>
    some { sx := (2 * vx + vw) * w + vw * x, sy := (2 * vy + vh) * w + vh * y, sz := 2 * (z0 * w + (z1 - z0) * z), sw := 2 ^ 150 * w, z := z, w := w }
  | _, _, _, _, _ => none

/-- The guard band, in pixels. -/
def guardBand : Int := 32768

/-- The planes of a draw: near and far unless depth is clamped, and the guard band. -/
def rasPlanes (d : RasDraw) : List (ClipVtx → Int) :=
  (if d.clampZ then [] else [fun v => v.z, fun v => v.w - v.z]) ++
    [fun v => guardBand * v.sw + v.sx, fun v => guardBand * v.sw - v.sx, fun v => guardBand * v.sw + v.sy, fun v => guardBand * v.sw - v.sy]

/-- What one side of a polygon leaves of itself inside a plane. -/
def clipSide (f : ClipVtx → Int) (a b : ClipVtx) : List ClipVtx :=
  let ina := decide (0 ≤ f a)
  let inb := decide (0 ≤ f b)
  (if ina then [a] else []) ++ (if ina = inb then [] else if ina then [a.mix b (-(f b)) (f a)] else [a.mix b (f b) (-(f a))])

/-- A polygon cut by one plane. -/
def clipPlane (l : List ClipVtx) (f : ClipVtx → Int) : List ClipVtx :=
  ((l.zip (l.drop 1 ++ l.take 1)).map fun e => clipSide f e.1 e.2).flatten

/-- A vertex of a set-up triangle: pixel coordinates in 1/256, and its depth as a fraction. -/
structure RasPt where
  x : Int
  y : Int
  zn : Int
  zd : Int
deriving DecidableEq, Repr

def ClipVtx.toPt (v : ClipVtx) : RasPt :=
  { x := Config.rasterFix (256 * v.sx) v.sw.toNat, y := Config.rasterFix (256 * v.sy) v.sw.toNat, zn := v.sz, zd := v.sw }

/-- A set-up triangle, its vertices in the order that makes its edges positive inside. -/
structure RasTri where
  a : RasPt
  b : RasPt
  c : RasPt
deriving DecidableEq, Repr

/-- The edge function from `a` to `b` at a point. -/
def edgeAt (a b : RasPt) (x y : Int) : Int := (b.x - a.x) * (y - a.y) - (b.y - a.y) * (x - a.x)

/-- Zero area and back faces are culled; the others carry whether they are front faces. -/
def rasSetup (d : RasDraw) (a b c : RasPt) : Option (Bool × RasTri) :=
  let area := edgeAt a b c.x c.y
  let front := if d.frontCcw then decide (area < 0) else decide (0 < area)
  if area = 0 || (d.cullBack && !front) then none
  else some (front, if area < 0 then { a := a, b := c, c := b } else { a := a, b := b, c := c })

/-- A primitive as binning lists it: its draw and number, its face, its triangles, or the samples given where the manual has no rule. -/
structure RasPrim where
  draw : RasDraw
  num : Nat
  front : Bool
  tris : List RasTri
  given : List RasCover
deriving DecidableEq, Repr

/-- The triangles of a clipped polygon. -/
def rasFan (d : RasDraw) : List RasPt → List (Bool × RasTri)
  | a :: r => (r.zip (r.drop 1)).filterMap fun e => rasSetup d a e.1 e.2
  | [] => []

/-- A primitive set up; none where nothing of it is left. -/
def rasPrim (d : RasDraw) (num : Nat) (ix : List Nat) : Option RasPrim :=
  let given : Option RasPrim :=
    match d.covers.filter fun c => c.prim = num with
    | [] => none
    | l => some { draw := d, num := num, front := true, tris := [], given := l }
  match ix.map fun i => (d.positions.find? fun p => p.1 = i).bind fun p => rasView d p.2 with
  | [some a, some b, some c] =>
    let l := rasFan d ((((rasPlanes d).foldl clipPlane [a, b, c]).filter fun v => decide (0 < v.sw)).map ClipVtx.toPt)
    match l with
    | [] => none
    | t :: _ => some { draw := d, num := num, front := t.1, tris := l.map (·.2), given := [] }
  | _ => given

/-- The primitives of a draw, numbered in submission order. -/
def State.raPrims (s : State) (h v k : Nat) (d : RasDraw) : List RasPrim × State :=
  let r := s.raIndices h v k d
  let l := ((restartRuns r.1).map (rasTuples d)).flatten
  ((l.zip (List.range l.length)).filterMap fun e => rasPrim d e.2 e.1, r.2)

/-- The primitives of a stream. -/
def State.raStreamPrims (s : State) (h v k : Nat) (l : List RasDraw) : List RasPrim × State :=
  l.foldl (fun a d => let r := a.2.raPrims h v k d; (a.1 ++ r.1, r.2)) ([], s)

/-! ## Binning (R428, R429) -/

/-- The area of a render in bins. -/
structure RasGrid where
  w : Nat
  h : Nat
deriving DecidableEq, Repr

def RasGrid.cols (g : RasGrid) : Nat := (g.w + 31) / 32
def RasGrid.rows (g : RasGrid) : Nat := (g.h + 31) / 32
def RasGrid.bins (g : RasGrid) : Nat := g.cols * g.rows

/-- A triangle touches a bin: neither its bounding box nor one of its edges keeps them apart. -/
def RasTri.touches (t : RasTri) (bx byy : Nat) : Bool :=
  let x0 : Int := 8192 * bx
  let y0 : Int := 8192 * byy
  let xs := [t.a.x, t.b.x, t.c.x]
  let ys := [t.a.y, t.b.y, t.c.y]
  let corners := [(x0, y0), (x0 + 8192, y0), (x0, y0 + 8192), (x0 + 8192, y0 + 8192)]
  let apart (a b : RasPt) : Bool := corners.all fun c => decide (edgeAt a b c.1 c.2 < 0)
  xs.any (fun x => decide (x0 ≤ x)) && xs.any (fun x => decide (x ≤ x0 + 8192)) && ys.any (fun y => decide (y0 ≤ y)) &&
    ys.any (fun y => decide (y ≤ y0 + 8192)) && !apart t.a t.b && !apart t.b t.c && !apart t.c t.a

/-- The bins that a primitive touches. -/
def RasPrim.bins (p : RasPrim) (g : RasGrid) : List Nat :=
  (List.range g.bins).filter fun b =>
    p.tris.any (fun t => t.touches (b % g.cols) (b / g.cols)) || p.given.any fun c => decide (c.x < g.w) && decide (c.y < g.h) &&
      decide (c.x / 32 + c.y / 32 * g.cols = b)

/-- An entry of the tile-list pool: a bin and the primitive that touches it. -/
structure RasEntry where
  bin : Nat
  prim : RasPrim
deriving DecidableEq, Repr

/-- The entries between two flushes, and the 512-byte chunks that they fill. -/
structure RasSegment where
  entries : List RasEntry
  chunks : Nat
deriving DecidableEq, Repr

/-- A bin's next entry needs a chunk: its chunks, of 63 entries each, are full. -/
def RasSegment.full (g : RasSegment) (b : Nat) : Bool := decide ((g.entries.filter fun e => e.bin = b).length % 63 = 0)

/-- Binning with `cap` chunks: an entry that finds no free chunk opens a new segment. The newest segment stands first. -/
def binEntry (cap : Nat) (l : List RasSegment) (e : RasEntry) : List RasSegment :=
  match l with
  | [] => [{ entries := [e], chunks := 1 }]
  | g :: r =>
    if !g.full e.bin then { g with entries := g.entries ++ [e] } :: r
    else if g.chunks < cap then { entries := g.entries ++ [e], chunks := g.chunks + 1 } :: r
    else { entries := [e], chunks := 1 } :: g :: r

/-- The segments of a stream, oldest first; there is one at least. -/
def binStream (cap : Nat) (g : RasGrid) (prims : List RasPrim) : List RasSegment :=
  match ((prims.map fun p => (p.bins g).map fun b => RasEntry.mk b p).flatten.foldl (binEntry cap) []).reverse with
  | [] => [{ entries := [], chunks := 0 }]
  | l => l

/-- Bins with entries of a segment, in order. -/
def RasSegment.used (g : RasSegment) (grid : RasGrid) : List Nat := (List.range grid.bins).filter fun b => g.entries.any fun e => e.bin = b

/-- One bin tile: its primitives, whether it starts from the store area, and whether it ends there (R429). -/
structure RasTile where
  bin : Nat
  prims : List RasPrim
  fromStore : Bool
  toStore : Bool
deriving DecidableEq, Repr

/-- The tiles of a segment: of a flush those of the bins that have entries, of the last segment those of every bin. -/
def RasSegment.tiles (g : RasSegment) (bins stored : List Nat) (flush : Bool) : List RasTile :=
  bins.map fun b =>
    { bin := b, prims := (g.entries.filter fun e => e.bin = b).map (·.prim), fromStore := stored.contains b, toStore := flush }

/-- The tiles of a render in order; without a store area, those that the first overflow renders (R429). -/
def rasTiles (grid : RasGrid) (store : Bool) : List RasSegment → List Nat → List RasTile
  | [], _ => []
  | [g], stored => g.tiles (List.range grid.bins) stored false
  | g :: r, stored => if store then g.tiles (g.used grid) stored true ++ rasTiles grid store r (stored ++ g.used grid)
      else g.tiles (g.used grid) stored false

/-! ## Coverage and depth (R427) -/

/-- A point lies inside an edge: strictly, or on it where it is a top or a left edge. -/
def edgeIn (a b : RasPt) (x y : Int) : Bool :=
  let e := edgeAt a b x y
  decide (0 < e) || (decide (e = 0) && (decide (b.y < a.y) || (decide (b.y = a.y) && decide (a.x < b.x))))

/-- The depth range of a draw's viewport, over 2^149. -/
def rasZRange (d : RasDraw) : Int × Int := (((d.viewport.map fx).getD 4 none).getD 0, ((d.viewport.map fx).getD 5 none).getD 0)

def zCode : ZFmt → Nat
  | .d24s8 => 1
  | _ => 0

/-- The depth of a triangle at a point that it covers, as a code of the format. -/
def RasTri.depth (t : RasTri) (d : RasDraw) (fmt : ZFmt) (x y : Int) : Nat :=
  let n := edgeAt t.b t.c x y * t.a.zn * t.b.zd * t.c.zd + edgeAt t.c t.a x y * t.b.zn * t.a.zd * t.c.zd + edgeAt t.a t.b x y * t.c.zn * t.a.zd * t.b.zd
  let m := edgeAt t.a t.b t.c.x t.c.y * t.a.zd * t.b.zd * t.c.zd
  let r := rasZRange d
  let lo := min r.1 r.2
  let hi := max r.1 r.2
  if d.clampZ && decide (n * 2 ^ 149 < lo * m) then Config.depthCode (zCode fmt) lo (2 ^ 149)
  else if d.clampZ && decide (hi * m < n * 2 ^ 149) then Config.depthCode (zCode fmt) hi (2 ^ 149)
  else Config.depthCode (zCode fmt) n m.toNat

/-- The depth by sample where a primitive covers a pixel. -/
def RasPrim.depths (p : RasPrim) (fmt : ZFmt) (samples x y : Nat) : List (Option Nat) :=
  match p.given.find? fun c => c.x = x && c.y = y with
  | some c => c.depths
  | none => (List.range samples).map fun i =>
    let o := Config.samplePos samples i
    let sx : Int := 256 * x + o.1 % 256
    let sy : Int := 256 * y + o.2 % 256
    (p.tris.find? fun t => edgeIn t.a t.b sx sy && edgeIn t.b t.c sx sy && edgeIn t.c t.a sx sy).map fun t => t.depth p.draw fmt sx sy

/-! ## Depth and stencil test (R427) -/

/-- Bits of depth, and whether the format holds a stencil value above them. -/
def zBits : ZFmt → Nat
  | .d24s8 => 24
  | _ => 32

def zStencil : ZFmt → Bool
  | .d32f => false
  | _ => true

def cmpHolds (c : RasCmp) (lt eq gt : Bool) : Bool :=
  match c with
  | .never => false
  | .less => lt
  | .equal => eq
  | .lessEqual => lt || eq
  | .greater => gt
  | .notEqual => !eq
  | .greaterEqual => gt || eq
  | .always => true

def cmpNat (c : RasCmp) (a b : Nat) : Bool := cmpHolds c (decide (a < b)) (decide (a = b)) (decide (b < a))

/-- A depth comparison: of codes, or of the FP32 numbers that they are. -/
def zCompare (f : ZFmt) (c : RasCmp) (a b : Nat) : Bool :=
  match f with
  | .d24s8 => cmpNat c a b
  | _ =>
    let x := decodeFloat 0 a
    let y := decodeFloat 0 b
    cmpHolds c (x.lt y) (x.le y && y.le x) (y.lt x)

/-- A stencil value after an operation. -/
def stencilOp (o : StencilOp) (v ref : Nat) : Nat :=
  match o with
  | .keep => v
  | .zero => 0
  | .replace => ref % 256
  | .incClamp => if v = 255 then 255 else v + 1
  | .decClamp => v - 1
  | .invert => 255 - v
  | .incWrap => (v + 1) % 256
  | .decWrap => (v + 255) % 256

/-- A sample's test: whether it passes, and its depth and stencil afterwards. -/
def RasPrim.test (p : RasPrim) (fmt : ZFmt) (word z : Nat) : Bool × Nat :=
  let d := p.draw
  let old := bits word 0 (zBits fmt)
  let st := bits word (zBits fmt) 8
  let zOk := match d.depthCmp with | none => true | some c => zCompare fmt c (z % 2 ^ (zBits fmt)) old
  let put (sOk : Bool) (sv : Nat) : Bool × Nat :=
    let zv := if sOk && zOk && d.depthWrite && d.depthCmp.isSome then z % 2 ^ (zBits fmt) else old
    (sOk && zOk, if zStencil fmt then zv + sv * 2 ^ (zBits fmt) else zv)
  match d.stencil with
  | none => put true st
  | some fs =>
    let f := if p.front then fs.1 else fs.2
    if !zStencil fmt then put true st else
    let sOk := cmpNat f.cmp ((f.ref &&& f.readMask) % 256) (st &&& f.readMask)
    let o := if !sOk then f.fail else if zOk then f.pass else f.depthFail
    let keep := st &&& (255 - f.writeMask % 256)
    put sOk (keep ||| (stencilOp o st f.ref &&& (f.writeMask % 256)))

/-! ## Texture residency (R430-R432) -/

/-- Bit `page` of a residency map in memory; a map that the VDI cannot read marks nothing resident. -/
def State.resident (s : State) (h v : Nat) (t : RasTex) (page : Nat) : Bool :=
  let a := t.map + page / 8
  decide (page < t.pages) && s.inWindows v a 1 && decide (s.access h a 1 (some v) = .ok) && bits (s.rdN a 1) (page % 8) 1 = 1

/-- A level's answer: the first of it and its coarser levels whose footprint is resident, else the border value; with the non-resident pages touched (R431). -/
def texAns (res : Nat → Bool) (border : Nat) : Nat → List (List Nat) → TexAns × List Nat
  | _, [] => (.border border, [])
  | k, foot :: r =>
    match foot.filter fun p => !res p with
    | [] => (.level k, [])
    | m => let t := texAns res border (k + 1) r; (t.1, m ++ t.2)

/-- The answers of a sample, level by level, and the pages for the feedback bitmap. -/
def texSample (r : TexRead) (res : Nat → Nat → Bool) (texs : List RasTex) : List TexAns × List (Nat × Nat) :=
  let l := r.levels.map (texAns (res r.tex) (((texs.drop r.tex).head?.map (·.border)).getD 0) 0)
  (l.map (·.1), (l.map fun a => a.2.map fun p => (r.tex, p)).flatten)

/-- The bit of a non-resident page set in its feedback bitmap. -/
def State.setFeedback (s : State) (h v k : Nat) (texs : List RasTex) (e : Nat × Nat) : State :=
  match (texs.drop e.1).head? with
  | none => s
  | some t =>
    let a := t.feedback + e.2 / 8
    if !s.inWindows v a 1 || s.access h a 1 (some v) ≠ .ok then s
    else (s.pay h 129 k true a 1).storeV h v a [BitVec.ofNat 8 (s.rdN a 1 ||| 2 ^ (e.2 % 8))]

/-! ## Shading, blending and the bin tile (R428) -/

/-- One pixel of a bin: for each sample the words of its attachments, colours first; the feedback pages; the free values' counter. -/
structure RasPixel where
  smp : List (List Nat)
  fed : List (Nat × Nat)
  ctr : Nat
deriving DecidableEq, Repr

/-- What the shader gives for a fragment: the result that the command carries for the answers of its texture samples, else free colours (log entry 155). -/
def RasPrim.shade (p : RasPrim) (r : RenderRun) (res : Nat → Nat → Bool) (x y : Nat) (a : RasPixel) : FragOut × RasPixel :=
  match p.draw.frags.find? fun f => f.prim = p.num && f.x = x && f.y = y with
  | none => ({ mask := 15, depth := none, colours := r.colours.map fun _ => Config.free a.ctr }, { a with ctr := a.ctr + 1 })
  | some f =>
    let l := f.reads.map fun t => texSample t res r.texs
    let b := { a with fed := a.fed ++ (l.map (·.2)).flatten }
    match f.outs.find? fun o => o.1 = l.map (·.1) with
    | some o => (o.2, b)
    | none => ({ mask := 15, depth := none, colours := r.colours.map fun _ => Config.free b.ctr }, { b with ctr := b.ctr + 1 })

def rasZ (r : RenderRun) : ZFmt := (r.depth.map (·.1)).getD .d32f

/-- The tests of a pixel's samples: those kept by `mask`, at their own depth or the shader's. -/
def RasPrim.tests (p : RasPrim) (r : RenderRun) (zs : List (Option Nat)) (mask : Nat) (own : Option Nat) (smp : List (List Nat)) : List (Bool × List Nat) :=
  (List.range r.samples).map fun i =>
    let v := smp.getD i []
    match zs.getD i none, r.depth with
    | none, _ => (false, v)
    | some _, none => (bits mask i 1 = 1, v)
    | some z, some _ =>
      if bits mask i 1 = 0 then (false, v) else
      let t := p.test (rasZ r) (v.getD r.colours.length 0) (own.getD z)
      (t.1, v.set r.colours.length t.2)

/-- The colours of the samples that pass, blended in. -/
def RasPrim.write (p : RasPrim) (r : RenderRun) (o : FragOut) (t : List (Bool × List Nat)) : List (List Nat) :=
  (t.zip (List.range t.length)).map fun e =>
    if !e.1.1 || bits o.mask e.2 1 = 0 then e.1.2 else
    (e.1.2.zip (List.range e.1.2.length)).map fun w => match (r.colours.drop w.2).head? with
      | some c => Config.blend (p.draw.blend.getD w.2 0) c.bytes (o.colours.getD w.2 0) w.1 % 2 ^ (8 * c.bytes)
      | none => w.1

/-- A primitive at one pixel of a bin: early or late tests, shading, blending (R427). -/
def RasPrim.pixel (p : RasPrim) (r : RenderRun) (res : Nat → Nat → Bool) (x y : Nat) (a : RasPixel) : RasPixel :=
  let zs := p.depths (rasZ r) r.samples x y
  if zs.all (·.isNone) then a
  else if p.draw.late then
    let o := p.shade r res x y a
    { o.2 with smp := p.write r o.1 (p.tests r zs o.1.mask o.1.depth a.smp) }
  else
    let t := p.tests r zs 15 none a.smp
    if !t.any (·.1) then { a with smp := t.map (·.2) } else
    let o := p.shade r res x y a
    { o.2 with smp := p.write r o.1 t }

/-- The attachments of a pass, colours first. -/
def rasAtts (r : RenderRun) : List RasAtt := r.colours ++ (r.depth.map (·.2)).toList

/-- Bytes of a bin's attachments. -/
def rasBinBytes (r : RenderRun) : Nat := 1024 * r.samples * ((rasAtts r).map (·.bytes)).sum

/-- The attachments' extents lie where the VDI may reach (R425). -/
def State.attsIn (s : State) (v : Nat) (g : RasGrid) (r : RenderRun) : Bool :=
  (rasAtts r).all fun a => s.inWindows v a.base (if g.w = 0 || g.h = 0 then 0 else (g.h - 1) * a.pitch + g.w * r.samples * a.bytes)

/-- Where a line of a bin's attachment lies: in the attachment itself, or in the bin's place of the store area. -/
def rasLineAt (r : RenderRun) (g : RasGrid) (store bin k : Nat) (a : RasAtt) (area : Bool) (y : Nat) : Nat :=
  if area then store + bin * rasBinBytes r + 1024 * r.samples * (((rasAtts r).take k).map (·.bytes)).sum + y * 32 * r.samples * a.bytes
  else a.base + (bin / g.cols * 32 + y) * a.pitch + bin % g.cols * 32 * r.samples * a.bytes

/-- What a render's tiles have done: state, tiles rendered, and the status that ended it. -/
structure RasRun where
  st : State
  tiles : Nat
  fail : Option Status
deriving DecidableEq, Repr

/-- The first words of a line: from the store area, or by the attachment's load operation. -/
def RasRun.loadLine (q : RasRun) (h v k : Nat) (a : RasAtt) (area : Bool) (at_ n : Nat) : List Nat × RasRun :=
  let words (l : List Byte) : List Nat := (List.range n).map fun i => leNat ((l.drop (i * a.bytes)).take a.bytes)
  let load : List Nat × RasRun :=
    let x := q.st.raRead h v k at_ (n * a.bytes)
    (words x.2.1, if x.1 = .ok then { q with st := x.2.2 } else { q with fail := some (q.fail.getD x.1) })
  if area then load else
  match a.load with
  | .load => load
  | .clear w => ((List.range n).map fun _ => w % 2 ^ (8 * a.bytes), q)
  | .dontCare => let d := q.st.draw; ((List.range n).map fun i => bits d.1 (8 * i * a.bytes) (8 * a.bytes), { q with st := d.2 })

/-- The words of a line stored. -/
def RasRun.storeLine (q : RasRun) (h v k : Nat) (a : RasAtt) (at_ : Nat) (l : List Nat) : RasRun :=
  let b := (l.map fun w => leBytes a.bytes w).flatten
  let st := if q.st.inWindows v at_ b.length then q.st.access h at_ b.length (some v) else .outOfRange
  match st with
  | .ok | .dataError => { q with st := (q.st.pay h 129 k true at_ b.length).storeV h v at_ b }
  | _ => { q with fail := some (q.fail.getD st) }

/-- The loads of a bin's line, attachment by attachment. -/
def RasRun.loadAtts (q : RasRun) (h v k : Nat) (r : RenderRun) (g : RasGrid) (store : Nat) (t : RasTile) (y n : Nat) : List (List Nat) × RasRun :=
  ((rasAtts r).zip (List.range (rasAtts r).length)).foldl (fun a e =>
    let x := a.2.loadLine h v k e.1 t.fromStore (rasLineAt r g store t.bin e.2 e.1 t.fromStore y) n
    (a.1 ++ [x.1], x.2)) ([], q)

/-- One line of a bin tile: loads, every pixel through the tile's primitives in submission order, stores and feedback. -/
def RasRun.line (q : RasRun) (h v k : Nat) (r : RenderRun) (g : RasGrid) (store : Nat) (res : Nat → Nat → Bool) (t : RasTile) (y : Nat) : RasRun :=
  let x0 := t.bin % g.cols * 32
  let n := Nat.min 32 (g.w - x0)
  let l := q.loadAtts h v k r g store t y (n * r.samples)
  match l.2.fail with
  | some _ => l.2
  | none =>
    let px := (List.range n).foldl (fun (a : List (List Nat) × List (Nat × Nat) × Nat) i =>
      let p0 : RasPixel := { smp := (List.range r.samples).map fun j => l.1.map fun w => w.getD (i * r.samples + j) 0, fed := [], ctr := a.2.2 }
      let p := t.prims.foldl (fun p prim => prim.pixel r res (x0 + i) (t.bin / g.cols * 32 + y) p) p0
      (a.1 ++ p.smp, a.2.1 ++ p.fed, p.ctr)) ([], [], l.2.st.freeCtr)
    let q1 : RasRun := { l.2 with st := px.2.1.foldl (fun s e => s.setFeedback h v k r.texs e) { l.2.st with freeCtr := px.2.2 } }
    ((rasAtts r).zip (List.range (rasAtts r).length)).foldl (fun a e =>
      if !t.toStore && !e.1.store then a
      else a.storeLine h v k e.1 (rasLineAt r g store t.bin e.2 e.1 t.toStore y) (px.1.map fun w => w.getD e.2 0)) q1

/-- A bin tile (R428); the residency maps are those of memory at its start (R432). After a failed access no further tile runs. -/
def RasRun.tile (q : RasRun) (h v k : Nat) (r : RenderRun) (g : RasGrid) (store : Nat) (t : RasTile) : RasRun :=
  match q.fail with
  | some _ => q
  | none =>
    let s := q.st
    let res (x p : Nat) : Bool := match (r.texs.drop x).head? with | some m => s.resident h v m p | none => false
    let n := Nat.min 32 (g.h - t.bin / g.cols * 32)
    let q1 := (List.range n).foldl (fun q y => q.line h v k r g store res t y) q
    if q1.fail.isSome then q1 else { q1 with tiles := q1.tiles + 1 }

/-- The chunks that binning filled hold what the device keeps there (R428). -/
def State.fillPool (s : State) (h v k pool chunks : Nat) : State :=
  (List.range chunks).foldl (fun t i =>
    let d := t.draw
    if !d.2.inWindows v (pool + 512 * i) 512 then t else (d.2.pay h 129 k true (pool + 512 * i) 512).storeV h v (pool + 512 * i) (leBytes 512 (d.1 % 2 ^ 4096))) s

end Sys2Proof.Machine
end

