-- ==== Sys2Proof/Machine/Display.lean ====
section
/-! DEFINITION. Raster pipeline and displays (R424-R443). A pipe is named by its number in its half; package pipe 2h + i is pipe i of half h (R435).
The draw stream's format belongs to the driver, so the pass that it holds arrives with the command (RenderRun). -/
namespace Sys2Proof.Machine

/-! ## Configuration (R436) -/

/-- Bits per pixel on the link. -/
def linkBits (link : Nat) : Nat := if bits link 37 1 = 1 then 30 else 24

/-- Lanes of a link field; the reserved value has none. -/
def linkLanes (link : Nat) : Nat := match bits link 35 2 with | 0 => 1 | 1 => 2 | 2 => 4 | _ => 0

/-- Link rate per lane in kbit/s: RBR, HBR, HBR2 and HBR3 as DisplayPort names them. -/
def linkRate (link : Nat) : Nat := match bits link 33 2 with | 0 => 1620000 | 1 => 2700000 | 2 => 5400000 | _ => 8100000

/-- The refusals of R436, over the 16 words of a pipe configuration: active area and refresh within R435, pixel rate within the pipe and the link, planes
within the active area. -/
def pipeCfgOk (w : List Nat) : Bool :=
  let t := w.getD 1 0
  let link := w.getD 3 0
  let khz := bits link 0 32
  let ha := bits t 0 16
  let va := bits t 32 16
  decide (ha ≤ 3840) && decide (va ≤ 2160) && decide (khz * 1000 ≤ 60 * (bits t 16 16 * bits t 48 16)) && decide (khz ≤ 600000) &&
    decide (khz * linkBits link * 10 ≤ linkLanes link * linkRate link * 8) &&
    (List.range 4).all fun p =>
      let pos := w.getD (4 + 3 * p) 0
      decide (bits pos 0 16 + bits pos 32 16 ≤ ha) && decide (bits pos 16 16 + bits pos 48 16 ≤ va)

/-- The words of a byte string, little-endian. -/
def words64 (l : List Byte) (n : Nat) : List Nat := (List.range n).map fun i => bits (leNat l) (64 * i) 64

/-- Whether a message of half `h` may name a package pipe: a message acts on its half alone (R391). -/
def pipeHere (h pipe : Nat) : Bool := decide (pipe % 4 / 2 = h)

/-- DSP_CFG_PIPE (R436, R481): held until the pipe's next S. -/
def execDspCfgPipe (e : Ev) (m : Msg) (pipe src : Nat) (s0 : State) : Host.Outcome State Fault Refusal :=
  let h := e.half
  let u := pipe % 2
  .next ((tick e s0).mboxL h m 0xB0 fun t =>
    if !pipeHere h pipe then (t, .badArg, 0) else
    let r := t.srcBytes h m src 128
    match r.1 with
    | .ok =>
      let w := words64 r.2 16
      if !pipeCfgOk w then (t, .badArg, 0)
      else if bits (w.getD 0 0) 0 1 = 0 && (t.half h).secureOwned (0x200 + u) then (t.gateRefuse h (0x200 + u), .notOwner, 0)
      else (t.upd h fun x => x.setPipe u { x.pipe u with pending := some w, cfgVt := some x.vt.toNat }, .ok, 0)
    | st => (t, st, 0))

/-- DSP_CFG_TELLTALE (R436, R439): slots 0-30, held until the pipe's next S. -/
def execDspCfgTelltale (e : Ev) (m : Msg) (pipe src : Nat) (s0 : State) : Host.Outcome State Fault Refusal :=
  let h := e.half
  let u := pipe % 2
  .next ((tick e s0).mboxL h m 0xB0 fun t =>
    if !pipeHere h pipe then (t, .badArg, 0) else
    let r := t.srcBytes h m src 8
    match r.1 with
    | .ok => (t.upd h fun x => x.setPipe u { x.pipe u with pendTT := some (leNat r.2), cfgVt := some x.vt.toNat }, .ok, 0)
    | st => (t, st, 0))

/-! ## Renders (R424-R429, R434) -/

def raBins (d : Nat) : Nat := (raWidth d + 31) / 32 * ((raHeight d + 31) / 32)

/-- The checks of a render descriptor, in the order of R86 (R424, R425). -/
def State.raCheck (s : State) (v d : Nat) (attsIn : Bool) : Option Status :=
  let store := raStore d ≠ 0
  if dOpcode d ≠ 0x40 then some .badArg
  else if !s.inWindows v (raPool d) (Nat.max (raPoolSize d) (raPoolMax d)) || (store && !s.inWindows v (raStore d) (raStoreSize d)) ||
    !s.inWindows v (raStream d) (raStreamLen d) || !attsIn then some .outOfRange
  else if raWidth d = 0 || raHeight d = 0 || raStreamLen d = 0 then some .empty
  else if raPool d % 512 ≠ 0 || raPoolSize d % 512 ≠ 0 || raPoolMax d < raPoolSize d || raStore d % 256 ≠ 0 || raFenceAddr d % 8 ≠ 0 ||
    (raFenced d = 1 && bits (raFenceAddr d) 47 1 = 1) ||
    16384 < raWidth d || 16384 < raHeight d || raPoolSize d < raBins d * 512 then some .badArg
  else none

/-- The cores of a partition in graphics mode, by physical index (R434). -/
def Half.gfxCores (x : Half) (part : Nat) : List Nat :=
  (List.range 136).filter fun p => match x.logical p with
    | some l => x.inPart part l && (x.core p).graphics && !(x.core p).switching
    | none => false

/-- Those on which a tile of the partition may start (R227, R228, R501). -/
def Half.gfxOpen (x : Half) (part : Nat) : List Nat :=
  (x.gfxCores part).filter fun p => match x.logical p with | some l => x.guardOk l part x.vt.toNat | none => false

/-- Cores that take up render work of a VDI: the tenant clear where their last work was another's (R98, R124). -/
def State.takeGfx (s : State) (h v : Nat) (cores : List Nat) : State :=
  cores.foldl (fun t p => (t.clearFor h p v).updCore h p fun c => { c with lastVdi := some v }) s

/-- The effective pool size of a context's render (R429). -/
def Half.effPool (x : Half) (c d : Nat) : Nat := Nat.max (raPoolSize d) (kget (fun _ => 0) x.disp.effPool c - 1)

/-- One overflow handled by a flush: it is counted, and with pool_grow the effective size doubles up to pool_max (R429). -/
def Half.rasFlush (x : Half) (c d : Nat) : Half :=
  let y := x.inc F.DSP_RAS_STAT_overflows
  let z := Nat.min (2 * x.effPool c d) (raPoolMax d)
  if raGrow d = 0 || z ≤ x.effPool c d then y
  else ({ y with disp := { y.disp with effPool := kput (fun _ => 0) y.disp.effPool c (z + 1) } } : Half).inc F.DSP_RAS_STAT_grows

/-- How a render's passes end: what its tiles did, the status and detail of its completion, its mid-frame flushes, whether a tile's watchdog fired, and whether it
left its cores before a window. -/
structure RasEnd where
  run : RasRun
  status : Status
  detail : Nat
  flushes : Nat
  hung : Bool
  left : Bool
deriving DecidableEq, Repr

/-- Flushes completed by a number of tiles, by the tiles of each flush. -/
def flushesDone : List Nat → Nat → Nat
  | [], _ => 0
  | n :: r, k => if n ≤ k then 1 + flushesDone r (k - n) else 0

/-- A render that ends before its first tile. -/
def State.noTiles (s : State) (st : Status) (detail : Nat) : RasEnd :=
  { run := { st := s, tiles := 0, fail := none }, status := st, detail := detail, flushes := 0, hung := false, left := false }

/-- Both passes of a render (R428, R429): the stream is read, binned under the context's effective pool, and its bin tiles run in order. A stream that does
not parse names its offset; an overflow that the store area cannot take ends the render after the bins of that moment. `leave`: a window comes that every core of
the render must be free for, and after how many tiles of it the render has left them is a free value (R228). -/
def State.rasterize (s0 : State) (h v c d : Nat) (r : RenderRun) (leave : Bool) : RasEnd :=
  let s := s0.draw.2
  let k := cMark (s.ctx c).raw
  let x := s.raRead h v k (raStream d) (raStreamLen d)
  if x.1 ≠ .ok then s.noTiles x.1 0 else
  match r.badAt with
  | some a => x.2.2.noTiles .badArg (a % 2 ^ 16)
  | none =>
    let g : RasGrid := { w := raWidth d, h := raHeight d }
    let p := x.2.2.raStreamPrims h v k r.draws
    let segs := binStream ((s.half h).effPool c d / 512) g p.1
    let store := decide (raStore d ≠ 0) && decide (raBins d * rasBinBytes r ≤ raStoreSize d)
    let tiles := rasTiles g store segs []
    let n0 := r.hung.getD tiles.length
    let out := leave && decide (s0.draw.1 % Nat.max tiles.length 1 < n0)
    let n := if out then s0.draw.1 % Nat.max tiles.length 1 else n0
    let s1 := p.2.fillPool h v k (raPool d) (segs.foldl (fun m q => Nat.max m q.chunks) 0)
    let q : RasRun := (tiles.take n).foldl (fun (q : RasRun) t => q.tile h v k r g (raStore d) t) { st := s1, tiles := 0, fail := none }
    let overflows := segs.length - 1
    let did := if store then flushesDone ((segs.take overflows).map fun q => (q.used g).length) q.tiles else 0
    match q.fail with
    | some st => { run := q, status := st, detail := 0, flushes := did, hung := false, left := false }
    | none =>
      if n < tiles.length then { run := q, status := .preempted, detail := 0, flushes := did, hung := !out, left := out }
      else if overflows ≠ 0 && !store then { run := q, status := .noSpace, detail := 0, flushes := 0, hung := false, left := false }
      else { run := q, status := .ok, detail := Nat.min overflows 0xFFFF, flushes := did, hung := false, left := false }

/-- The graphics cores of a partition begin their switch back to compute after the frame's last render: no queue of the partition is ready (R252). -/
def State.gfxDone (s : State) (h part : Nat) : State :=
  let x := s.half h
  let more := (s.queuesOf h).any fun q => cPart (s.ctx (qCtx (x.queue (qIdx q)).record)).raw = part && s.ready q
  if more then s else (x.gfxCores part).foldl (fun t p => t.updCore h p fun c => { c with switching := true }) s

/-- The completion record of a render (R426): tiles_run above its 16 bits is a free value. -/
def raCpl (h d : Nat) (r : RenderRun) (o : RasEnd) (cores : List Nat) (free : Nat) (st : Status) (final : Bool) (detail : Nat) : Cpl :=
  { tag := raTag d, status := st, final := final, retried := false, detail := detail, sat := 0, inv := 0,
    tiles := if o.run.tiles < 2 ^ 16 then o.run.tiles else free % 2 ^ 16, hazards := 0, ns := r.engineNs % 2 ^ 32,
    core := (if cores.contains r.lastCore then r.lastCore else cores.headD 0) + 128 * h }

/-- The end of a render's run: its record and fence; a tile that overran sends it back to its queue, and ends it the third time (R95, R428), as does a window that its
next tile may not reach (R228). -/
def State.endRender (s : State) (q gen i d : Nat) (o : RasEnd) (cpl : Status → Bool → Nat → Cpl) (core : Nat) : State :=
  let h := qHalf q
  let s0 := s.upd h fun x => (List.range o.flushes).foldl (fun y _ => y.rasFlush (qCtx (x.queue (qIdx q)).record) d) x
  if o.left then s0.requeueQ q gen i (cpl .preempted false (causeDetail 1 (((s.half h).queue (qIdx q)).counts i).overruns)) 0 0
  else if o.hung then
    let n := (((s.half h).queue (qIdx q)).counts i).overruns + 1
    let s1 := s0.incident h 0x01 core .preempted (causeDetail 2 n)
    if 3 ≤ n then s1.finishQ q gen i (raEnd d) (cpl .timeout true (causeDetail 2 n))
    else s1.requeueQ q gen i (cpl .preempted false (causeDetail 2 n)) 1 0
  else
    (s0.upd h fun x => x.incw F.DSP_RAS_STAT_renders).finishQ q gen i (raEnd d) (cpl o.status true o.detail)

/-- A checked render on the graphics cores of its partition, from its dispatch to its end (R426, R428, R429). -/
def State.runRender (s : State) (q i : Nat) (head : Bool) (d c v part : Nat) (cores : List Nat) (r : RenderRun) : State :=
  let h := qHalf q
  let u := qIdx q
  let s1 := ((s.takeGfx h v cores).accountDispatch h q c).upd h fun x =>
    let y := if head then x.incw F.TEL_DB_HEAD_head u else x
    let f (k : Queue) : Queue :=
      { k with reserved := k.reserved + 1, flying := i :: k.flying, eligVt := none, cond := if head then none else k.cond }
    (y.updQueue u f).syncQueue u
  let stays (p : Nat) : Bool := match (s.half h).logical p with
    | some l => (s.half h).clearFor l part (s.vtOf h) (r.engineNs + (s.half h).tileLimit part)
    | none => false
  let o := s1.rasterize h v c d r !(cores.any stays)
  let dr := o.run.st.draw
  let l := cores.filterMap (s.half h).logical
  let p := (cores.find? fun p => (s.half h).logical p = some r.lastCore).getD (cores.headD 0)
  let s2 := dr.2.endRender q ((s.half h).qGen u) i d o (raCpl h d r o l dr.1) p
  ((s2.noteReady q).noteIdle h c).gfxDone h part

/-- A queue of a graphics partition posts its next command: its controller runs and its context is in the cache (R244, R253). -/
def State.gfxPosted (s : State) (q : Nat) : Bool :=
  let k := (s.half (qHalf q)).queue (qIdx q)
  decide ((s.half (qHalf q)).partKind (cPart (s.ctx (qCtx k.record)).raw) = 3) && !s.ctlPaused q && (s.half (qHalf q)).disp.cached.contains (qCtx k.record) && s.ready q

/-- The queue of a graphics partition that renders next (R245, R252). -/
def State.gfxChosen (s : State) (h part : Nat) : Option Nat :=
  s.chooseOf h ((s.queuesOf h).filter fun q => s.gfxPosted q && decide (cPart (s.ctx (qCtx ((s.half h).queue (qIdx q)).record)).raw = part)) 0

/-- RENDER (R424-R429, R434): the next command of a graphics partition's queue, refused by its checks, waiting while no core is in graphics mode, or run. -/
def execRender (e : Ev) (q : Nat) (run : RenderRun) (s0 : State) : Host.Outcome State Fault Refusal :=
  let s := tick e s0
  let h := qHalf q
  let u := qIdx q
  let x := s.half h
  let k := x.queue u
  let c := qCtx k.record
  let v := qVdi k.record
  let raw := (s.ctx c).raw
  let part := cPart raw
  match x.nextIndex u with
  | none => .next s
  | some (i, head) =>
    if !s.gfxPosted q || s.gfxChosen h part ≠ some q then .next s else
    let a := qRing k.record + i % qRingSize k.record * 128
    let d := s.rdN a 128
    let rst := s.access h a 128
    if rst ≠ .ok then .next (s.refuseDispatch q i head (raEnd d) rst false true)
    else if cWeight raw = 0 then .next (s.refuseDispatch q i head (raEnd d) .badArg true false)
    else match s.raCheck v d (s.attsIn v { w := raWidth d, h := raHeight d } run) with
      | some st => .next (s.refuseDispatch q i head (raEnd d) st true false)
      | none =>
        match x.gfxOpen part with
        | [] => .next s
        | p :: ps => .next (s.runRender q i head d c v part (p :: ps) run)

/-! ## Flip rings (R438) -/

/-- Bytes per pixel of a plane format; the reserved format has none stated, so its size is the free value given (log entry 1). -/
def planeBytes (fmt free : Nat) : Nat := match fmt with | 0 => 4 | 1 => 4 | 2 => 8 | _ => free % 16 + 1

/-- Bytes from an image's first to its last. -/
def imageExtent (w hgt bpp pitch : Nat) : Nat := if w = 0 || hgt = 0 then 0 else (hgt - 1) * pitch + w * bpp

/-- What a pipe's walk over a flip ring has found: entries passed by head, one latched, entries passed over, entries dropped, and whether it has stopped. -/
structure Flip where
  passed : Nat
  latched : Bool
  entry : Nat                 -- the latched entry, counted from head
  skipped : Nat
  dropped : Nat
  stopped : Bool
deriving DecidableEq, Repr

/-- One entry of a flip ring: dropped, taken as the newest ready one, or the end of the run (R438). -/
def Flip.step (f : Flip) (inRange ready : Bool) : Flip :=
  if f.stopped then f
  else if !inRange then { f with passed := f.passed + 1, dropped := f.dropped + 1 }
  else if ready then { f with passed := f.passed + 1, latched := true, entry := f.passed, skipped := if f.latched then f.skipped + 1 else f.skipped }
  else { f with stopped := true }

/-- The fence of a flip entry is met: it has none, or its word is at least the value. -/
def State.flipReady (s : State) (h v ent : Nat) : Bool :=
  let a := bits ent 64 48
  decide (a = 0) || (s.inWindows v a 8 && decide (s.access h a 8 = .ok) && decide (bits ent 128 64 ≤ s.rdN a 8))

/-- The walk over the entries from head to tail - 1, at most the 16 that the ring holds. -/
def State.flipWalk (s : State) (h v ring head n w hgt bpp : Nat) : Flip :=
  (List.range (Nat.min n 16)).foldl (fun f j =>
    let ent := s.rdN (ring + 64 + (head + j) % 16 * 32) 32
    f.step (s.inWindows v (bits ent 0 48) (imageExtent w hgt bpp (bits ent 192 32))) (s.flipReady h v ent))
    { passed := 0, latched := false, entry := 0, skipped := 0, dropped := 0, stopped := false }

/-- A frame repeated, and a miss where a head entry was not ready. -/
def Half.repeatFrame (x : Half) (u : Nat) (miss : Bool) : Half :=
  let y := x.inc F.DSP_PIPE_STAT_repeats u
  if miss then y.inc F.DSP_PIPE_STAT_misses u else y

/-- The image that a plane shows from now on. -/
def Half.showImage (x : Half) (u p buffer pitch : Nat) : Half :=
  x.setPipe u { x.pipe u with shown := kput (fun _ => (0, 0)) (x.pipe u).shown p (buffer, pitch) }

/-- One enabled plane of a pipe at S (R438). A control block that cannot be read shows no entry. -/
def State.flipPlane (s : State) (h u p : Nat) : State :=
  let x := s.half h
  let v := x.fld F.DSP_PLANE_FMT_owner_vdi u p
  let ring := x.fld F.DSP_PLANE_RING_ring u p
  if x.fld F.DSP_PLANE_FMT_enable u p = 0 then s
  else if !s.inWindows v ring 576 || s.access h ring 576 ≠ .ok then (s.readErrs h ring 576).upd h fun x => x.repeatFrame u false
  else
    let tail := s.rdN ring 4
    let head := s.rdN (ring + 4) 4
    let dr := s.draw
    let f := s.flipWalk h v ring head (dist32 tail head) (x.fld F.DSP_PLANE_POS_width u p) (x.fld F.DSP_PLANE_POS_height u p)
      (planeBytes (x.fld F.DSP_PLANE_FMT_format u p) dr.1)
    let s1 := if f.passed = 0 then dr.2 else dr.2.storeV h v (ring + 4) (leBytes 4 ((head + f.passed) % 2 ^ 32))
    let s2 := (List.range f.dropped).foldl (fun t _ =>
      (t.upd h fun x => x.inc F.DSP_FLIP_STAT_ring_err u).incident h 0x0F (2 * h + u) .outOfRange) s1
    s2.upd h fun x =>
      let y := x.inc F.DSP_FLIP_STAT_skipped u 0 f.skipped
      let ent := s.rdN (ring + 64 + (head + f.entry) % 16 * 32) 32
      if f.latched then (y.incw F.DSP_PIPE_STAT_frames u).showImage u p (bits ent 0 48) (bits ent 192 32) else y.repeatFrame u f.stopped

/-- A configuration came in the PER cycle of 4 ns that this S falls in: it applies at the next one (R441, R496). -/
def Half.cfgNow (x : Half) (u : Nat) : Bool := (x.pipe u).cfgVt.any fun v => decide (v / 4 = x.vt.toNat / 4)

/-- What was configured before this S's cycle takes effect (R436, R441); a configuration written while the pipe shows tell-tales only or is blanked opens the 60 frames of R440. -/
def State.applyPipe (s : State) (h u : Nat) : State :=
  let k := (s.half h).pipe u
  if (s.half h).cfgNow u then s else
  let s1 := match k.pending with
    | none => s
    | some w => s.upd h fun x =>
      let y := (((x.writeWord .DSP_PIPE_CTL u 0 0 (w.getD 0 0)).writeWord .DSP_PIPE_TIMING0 u 0 0 (w.getD 1 0)).writeWord .DSP_PIPE_TIMING1 u 0 0
        (w.getD 2 0)).writeWord .DSP_PIPE_LINK u 0 0 (w.getD 3 0)
      let z := (List.range 4).foldl (fun (y : Half) p => ((y.writeWord .DSP_PLANE_POS u p 0 (w.getD (4 + 3 * p) 0)).writeWord .DSP_PLANE_FMT u p 0
        (w.getD (5 + 3 * p) 0)).writeWord .DSP_PLANE_RING u p 0 (w.getD (6 + 3 * p) 0)) y
      let down := x.fld F.DSP_PIPE_CTL_tt_only u = 1 || x.fld F.DSP_PIPE_CTL_blanked u = 1
      z.setPipe u { k with pending := none, recover := k.recover || down, passes := if down then 0 else k.passes }
  let s2 := match k.pendTT with
    | none => s1
    | some v => s1.upd h fun x => (x.writeWord .DSP_TT_STATE u 0 0 v).setPipe u { x.pipe u with pendTT := none }
  if k.pending.isNone && k.pendTT.isNone then s else s2.saveConf h false

/-! ## Scan-out (R437, R439) -/

/-- State of a tell-tale slot: of slots 0-30 the register's, of slot 31 the Gatehouse's. -/
def Half.slotState (x : Half) (u k : Nat) : Nat :=
  if k = 31 then x.slot31 u else bits (x.fld F.DSP_TT_STATE_slots u) (2 * k) 2

/-- A slot is shown in a frame (R439): on, or blinking in an even half second; the reserved state shows as the free value given. -/
def Half.slotShown (x : Half) (u k free : Nat) : Bool :=
  x.dsp.loaded && (match x.slotState u k with
    | 0 => false
    | 1 => true
    | 2 => decide (x.vt.toNat / 500000000 % 2 = 0)
    | _ => decide (free % 2 = 1))

/-- Field of 16 bytes that places slot `k` of pipe `u` (R439). -/
def slotAt (u k : Nat) : Nat := 0x40400 + (u * 32 + k) * 16

/-- The palette colour that a shown slot puts at a pixel, if it covers it (R439). -/
def Half.slotPixel (x : Half) (u k px py : Nat) : Option Nat :=
  let f := leNat (cellsRead x.dsp.atlas (slotAt u k) 16)
  let ox := bits f 16 16
  let oy := bits f 32 16
  if px < ox || ox + 128 ≤ px || py < oy || oy + 128 ≤ py then none
  else
    let i := leNat (cellsRead x.dsp.atlas (bits f 0 4 * 16384 + (py - oy) * 128 + (px - ox)) 1)
    some (leNat (cellsRead x.dsp.atlas (0x40000 + 3 * i) 3))

/-- A plane's pixel over what lies beneath; a plane that is off, shows no image yet or does not reach the pixel is transparent. `free` stands for bytes that
memory does not deliver and for the reserved format's size. -/
def State.planePixel (s : State) (h u p px py free beneath : Nat) : Nat :=
  let x := s.half h
  let ox := x.fld F.DSP_PLANE_POS_x u p
  let oy := x.fld F.DSP_PLANE_POS_y u p
  let fmt := x.fld F.DSP_PLANE_FMT_format u p
  let bpp := planeBytes fmt free
  if x.fld F.DSP_PLANE_FMT_enable u p = 0 || px < ox || py < oy || ox + x.fld F.DSP_PLANE_POS_width u p ≤ px || oy + x.fld F.DSP_PLANE_POS_height u p ≤ py
  then beneath
  else match (x.pipe u).shown.find? fun e => e.1 = p with
    | none => beneath
    | some e =>
      let a := e.2.1 + (py - oy) * e.2.2 + (px - ox) * bpp
      Config.blendPlane fmt (x.fld F.DSP_PLANE_FMT_premult u p) (x.fld F.DSP_PLANE_FMT_alpha u p) (if s.access h a bpp = .ok then s.rdN a bpp else free) beneath

/-- A pixel of a frame: planes 0 to 3 from the bottom, none of them in tell-tale-only mode, and a shown slot in place of what is beneath it (R437, R439, R440). -/
def State.framePixel (s : State) (h u px py free : Nat) : Nat :=
  let x := s.half h
  let slots := (List.range 32).filter fun k => x.slotShown u k (free / 2 ^ k)
  match slots.findSome? fun k => x.slotPixel u k px py with
  | some c => Config.linkPixel (x.fld F.DSP_PIPE_LINK_bpc10 u) c
  | none => if x.fld F.DSP_PIPE_CTL_tt_only u = 1 then 0 else [0, 1, 2, 3].foldl (fun c p => s.planePixel h u p px py free c) 0

/-- The fetch of the shown planes, in class 15 through the pipe's port (R330, R437). -/
def State.payScan (s : State) (h u free : Nat) : State :=
  let x := s.half h
  (x.pipe u).shown.foldl (fun t e =>
    let w := x.fld F.DSP_PLANE_POS_width u e.1
    let n := w * planeBytes (x.fld F.DSP_PLANE_FMT_format u e.1) free
    if x.fld F.DSP_PLANE_FMT_enable u e.1 = 0 || w = 0 then t
    else (List.range (x.fld F.DSP_PLANE_POS_height u e.1)).foldl (fun t y => t.pay h (131 + u) 15 false (e.2.1 + y * e.2.2) n) t) s

/-- The frame that follows the blanking, while the link is up and the pipe not blanked: what memory holds at S (log entry 156). -/
def State.scanOut (s : State) (h u : Nat) : State :=
  let x := s.half h
  if !(x.pipe u).linkUp || x.fld F.DSP_PIPE_CTL_blanked u = 1 then s else
  let d := s.draw
  let t := if x.fld F.DSP_PIPE_CTL_tt_only u = 1 then d.2 else d.2.payScan h u d.1
  t.emit (.scanOut h u ((List.range (x.fld F.DSP_PIPE_TIMING0_v_active u)).flatMap fun y =>
    (List.range (x.fld F.DSP_PIPE_TIMING0_h_active u)).map fun px => s.framePixel h u px y d.1))

/-- VERTICAL_BLANK (R438): S of a pipe that is on, or that a waiting configuration turns on. -/
def execVerticalBlank (e : Ev) (pipe nextS : Nat) (s0 : State) : Host.Outcome State Fault Refusal :=
  let s := tick e s0
  let h := e.half
  let u := pipe % 2
  let x := s.half h
  let k := x.pipe u
  if !x.clk.rimUp || (x.fld F.DSP_PIPE_CTL_enable u = 0 && k.pending.isNone && k.pendTT.isNone) || x.vt.toNat < x.fld F.DSP_PIPE_VT_next_s u then .next s else
  let s1 := s.applyPipe h u
  let y := s1.half h
  if y.fld F.DSP_PIPE_CTL_enable u = 0 then .next s1 else
  let s2 := s1.upd h fun x => x.setFld F.DSP_PIPE_VT_next_s nextS u
  if y.fld F.DSP_PIPE_CTL_tt_only u = 1 || y.fld F.DSP_PIPE_CTL_blanked u = 1 then .next (s2.scanOut h u)
  else .next (((List.range 4).foldl (fun t p => t.flipPlane h u p) s2).scanOut h u)

/-! ## Tell-tales (R440) -/

/-- The expected CRC of a slot's icon, at 8 or 10 bits per component (R439). -/
def Half.slotCrc (x : Half) (u k : Nat) : Nat :=
  leNat (cellsRead x.dsp.atlas (slotAt u k + (if x.fld F.DSP_PIPE_LINK_bpc10 u = 1 then 12 else 8)) 4)

/-- The shown slots of a frame whose CRC is not the expected one (R440). -/
def Half.slotsBad (x : Half) (u : Nat) (crcs : List SlotCrc) (free : Nat) : List Nat :=
  (List.range 32).filter fun k => x.slotShown u k (free / 2 ^ k) &&
    !(match crcs.find? fun c => c.slot = k with | some c => decide (c.crc % 2 ^ 32 = x.slotCrc u k) | none => false)

/-- A failing frame of a pipe: three in a row leave the tell-tale plane alone, three more blank the pipe (R440). -/
def Half.failFrame (x : Half) (u : Nat) : Half :=
  let y := x.inc F.DSP_TT_ERR_consecutive u
  let k := x.pipe u
  if x.fld F.DSP_PIPE_CTL_tt_only u = 1 then
    let z := y.setPipe u { k with fails := k.fails + 1, passes := 0 }
    if 3 ≤ k.fails + 1 then z.setFld F.DSP_PIPE_CTL_blanked 1 u else z
  else
    let z := y.setPipe u { k with fails := 0, passes := 0 }
    if 3 ≤ y.fld F.DSP_TT_ERR_consecutive u then z.setFld F.DSP_PIPE_CTL_tt_only 1 u else z

/-- A passing frame: the run ends, and 60 in a row after a configuration clear tt_only and blanked (R440). -/
def Half.passFrame (x : Half) (u : Nat) : Half :=
  let y := x.setFld F.DSP_TT_ERR_consecutive 0 u
  let k := x.pipe u
  if k.recover && 60 ≤ k.passes + 1 then
    ((y.setFld F.DSP_PIPE_CTL_tt_only 0 u).setFld F.DSP_PIPE_CTL_blanked 0 u).setPipe u { k with fails := 0, passes := 0, recover := false }
  else y.setPipe u { k with fails := 0, passes := if k.recover then k.passes + 1 else 0 }

/-- 16.7 ms, the period at which a down link with a slot on counts as failing (R440). -/
def linkFailNs : Nat := 16700000

/-- Each mismatching slot is counted and recorded. -/
def State.slotsFail (s : State) (h u : Nat) (bad : List Nat) : State :=
  bad.foldl (fun t n => (t.upd h fun x => x.inc F.DSP_TT_ERR_crc_fail u).incident h 0x0F (2 * h + u) .dataError n) s

/-- TELLTALE_CRC_COMPARE (R440, R441): one frame of a pipe that is on, or one period of its down link; nothing is compared during a Gatehouse reset. -/
def execTelltaleCrcCompare (e : Ev) (pipe : Nat) (crcs : List SlotCrc) (s0 : State) : Host.Outcome State Fault Refusal :=
  let s := tick e s0
  let h := e.half
  let u := pipe % 2
  let x := s.half h
  let k := x.pipe u
  if !x.clk.rimUp || x.tally.ghReset || x.fld F.DSP_PIPE_CTL_enable u = 0 then .next s else
  let d := s.draw
  if k.linkUp then
    let bad := x.slotsBad u crcs d.1
    .next (((d.2.slotsFail h u bad).upd h fun x => if bad = [] then x.passFrame u else x.failFrame u).serr h)
  else if x.vt.toNat < k.linkDownVt + linkFailNs then .next s
  else
    let on := (List.range 32).any fun n => x.slotShown u n (d.1 / 2 ^ n)
    let s1 := d.2.upd h fun x => x.setPipe u { k with linkDownVt := x.vt.toNat }
    .next ((s1.upd h fun x => if on then x.failFrame u else x).serr h)

/-- A pipe's link state; the time of its loss is kept. -/
def Half.pipeLink (x : Half) (u : Nat) (up : Bool) : Half :=
  x.setPipe u { x.pipe u with linkUp := up, linkDownVt := if up || !(x.pipe u).linkUp then (x.pipe u).linkDownVt else x.vt.toNat }

/-- DISPLAY_LINK_CHANGE (R440): from a link that goes down, periods of 16.7 ms count. -/
def execDisplayLinkChange (e : Ev) (pipe : Nat) (up : Bool) (s0 : State) : Host.Outcome State Fault Refusal :=
  let s := tick e s0
  let h := e.half
  let u := pipe % 2
  if !(s.half h).clk.rimUp then .next s else
  .next (s.upd h fun x => x.pipeLink u up)

end Sys2Proof.Machine
end

