-- ==== Sys2Proof/Machine/RepairOps.lean ====
section
/-! DEFINITION. Shared operations of repair in service: the service record's events and writes (R297, R301), and the retirement of cores (R19-R21, R304). -/
namespace Sys2Proof.Machine

/-- State of a physical Strongroom bank in the record (R295): 0 in service, 1 spare, 2 retired. -/
def SvcRecord.bank (r : SvcRecord) (b : Nat) : Nat := kget (fun b => if 64 ≤ b then 1 else 0) r.bankState b

/-- The spare core of a group that is not permanent, if it still has one (R296). -/
def Half.groupSpare (x : Half) (g : Nat) : Option Nat := ((List.range 17).map (17 * g + ·)).find? fun p => (x.coreEntry p).2 = 1

/-- A group's spare is free: not permanent and not standing in (R281). -/
def Half.spareFree (x : Half) (g : Nat) : Bool := (x.groupSpare g).isSome && kget (fun _ => 0) x.tally.standIn g = 0

/-- A group's spare stands in for the core. -/
def Half.stoodIn (x : Half) (p : Nat) : Bool := decide (kget (fun _ => 0) x.tally.standIn (p / 17) = p + 1)

/-- The core that serves a logical index in the record (R19). -/
def Half.ownCore (x : Half) (l : Nat) : Option Nat :=
  ((List.range 17).map (l / 16 * 17 + ·)).find? fun p => let e := x.coreEntry p; e.1 = l && (e.2 = 0 || e.2 = 2)

/-- Nothing keeps the duty of a core that is stood in for from its return: no audit, reset, location or search (R271, R281, R285). -/
def Half.dutyReturns (x : Half) (p : Nat) : Bool :=
  let c := x.core p
  !c.auditing && !c.auditDue && c.retireDue.isNone && !c.located && !c.resetting && !x.tally.tasks.any fun t => decide (t.2.stand = some p)

/-- A group's spare stands in for a core under audit, or for one whose duty is about to return (R285). -/
def Half.spareAudits (x : Half) (g : Nat) : Bool :=
  match kget (fun _ => 0) x.tally.standIn g with
  | 0 => false
  | p + 1 => (x.core p).auditing || (x.core p).auditDue || x.dutyReturns p

/-- Now is a boundary between the instances of a logical index: none that has been started lasts (R281). -/
def Half.atBoundary (x : Half) (l : Nat) : Bool :=
  x.liveEntries.all fun e => !(wKind e.2 = 1 && wHolds e.2 l) || (match x.nowInst e.2 x.vt.toNat with
    | some (st, _) => decide ((x.inst e.1).start ≠ st + 1)
    | none => true)

/-- The core that serves a logical index from the next instance boundary on: the spare that takes it over for an audit, or the core to which it returns (R281). -/
def Half.servesNext (x : Half) (l : Nat) : Option Nat :=
  match x.ownCore l with
  | none => x.physical l
  | some p =>
    if x.stoodIn p then (if x.dutyReturns p then some p else x.physical l)
    else if (x.core p).auditDue && x.spareFree (p / 17) then x.groupSpare (p / 17) else x.physical l

/-- A logical index that no physical core serves in the record (R21). -/
def Half.unbacked (x : Half) (l : Nat) : Bool :=
  ((List.range 17).map (l / 16 * 17 + ·)).all fun p => let e := x.coreEntry p; !(e.1 = l && (e.2 = 0 || e.2 = 2))

/-- Active modules of the Hatch in the record (R295). -/
def SvcRecord.activeModules (r : SvcRecord) : Nat := ((List.range 3).filter fun k => bits r.modules (2 * k) 2 = 0).length

/-- MNT_BUDGET: 3,072 units of 10 MB/s for each pseudo-channel neither retired nor pending, and the Hatch budget for two active modules or one (R333, R336). -/
def Half.syncBudget (x : Half) : Half :=
  let r := x.svc.record
  let n := ((List.range 64).filter fun i => bits (r.pcRetired ||| r.pcPending) i 1 = 0).length
  (x.setFld F.MNT_BUDGET_dram (3072 * n)).setFld F.MNT_BUDGET_hatch (if 2 ≤ r.activeModules then 35200 else if r.activeModules = 1 then 16000 else 0)

/-- SVC_SPARE and the other steward registers that repeat the record (R320). -/
def Half.syncRecord (x : Half) : Half :=
  let r := x.svc.record
  let free := (List.range 8).foldl (fun n g => if x.spareFree g then n + 2 ^ g else n) 0
  let un := ((List.range 128).filter x.unbacked).length
  let banks := ((List.range 68).filter fun b => r.bank b = 1).length
  let used (s : Nat) := (kget (fun _ => []) r.remap s).length
  let lanes := r.laneFix.foldl (fun n e => n + e.2.length) 0
  let y := ((x.setFld F.SVC_SPARE_core_spare_free free).setFld F.SVC_SPARE_unbacked un).setFld F.SVC_SPARE_bank_spares banks
  let z := (((y.setFld F.SVC_DRAM_remap0 (used 0)).setFld F.SVC_DRAM_remap1 (used 1)).setFld F.SVC_PC_RETIRED_mask r.pcRetired).setFld
    F.SVC_PC_PENDING_mask r.pcPending
  let m := r.bankMap.foldl (fun z e => z.setFld F.STR_BANK_MAP_phys_bank e.2 0 e.1) z
  (((m.setFld F.SVC_HATCH_modules r.modules).setFld F.SVC_HATCH_lanes_repaired lanes).setFld F.STR_GROUP_STATE_withdrawn r.withdrawn).setFld
    F.SVC_REC_STAT_pending (if x.svc.writing.isSome || x.svc.waiting then 1 else 0) |>.syncBudget

/-- A change of the record in the device. -/
def Half.setRecord (x : Half) (f : SvcRecord → SvcRecord) : Half := { x with svc := { x.svc with record := f x.svc.record } }

/-- One repair event in the event log (R297): kind, unit, event and detail. -/
def Half.event (x : Half) (kind unit ev detail : Nat) : Half :=
  let raw := x.hours % 2 ^ 32 + kind * 2 ^ 32 + unit % 2 ^ 16 * 2 ^ 40 + ev * 2 ^ 56 + detail % 2 ^ 32 * 2 ^ 64 + x.vt.toNat % 2 ^ 32 * 2 ^ 96
  x.setRecord fun r => { r with events := kput (fun _ => 0) r.events (r.evCount % 64) raw, evCount := r.evCount + 1 }

/-- The record in the device goes to UFS: a write starts, or waits for the one in progress (R299, R301). -/
def Half.writeRecord (x : Half) : Half :=
  let y : Half := if x.svc.writing.isSome then { x with svc := { x.svc with waiting := true } }
    else { x with svc := { x.svc with writing := some x.svc.record } }
  y.syncRecord

/-- A shuttered core opened before it takes duty; a shutter that is closing gives up (R341). -/
def Half.openCore (x0 : Half) (p : Nat) : Half :=
  let x := x0.openDoor (shutKey (.core p))
  if !(x.core p).shut then x
  else (x.updCore p fun c => { c with shut := false }).setFld F.MNT_SHUT_cores_shut (x.fld F.MNT_SHUT_cores_shut - 1)

/-- A physical core retired: its group's free spare takes its logical index for good, or the index is left unbacked (R20, R21, R284, R304). -/
def Half.retireCore (x : Half) (p detail : Nat) : Half :=
  let g := p / 17
  let e := x.coreEntry p
  if e.2 = 3 then x else
  let d (p : Nat) : Nat × Nat := if p % 17 = 16 then (0xFF, 1) else (p / 17 * 16 + p % 17, 0)
  let out := (x.setRecord fun r => { r with coreMap := kput d r.coreMap p (0xFF, 3) }).event 1 p 1 detail
  let free : Half := { out with tally := { out.tally with standIn := kput (fun _ => 0) out.tally.standIn g 0 } }
  if e.2 = 1 then free.writeRecord else
  match free.groupSpare g with
  | none => free.writeRecord
  | some q => (((free.openCore q).setRecord fun r => { r with coreMap := kput d r.coreMap q (e.1, 2) }).event 1 q 2 e.1).writeRecord

/-- A core that a search located: retired at once on its second location within 1,000 powered hours (R272). -/
def Half.locatedBefore (x : Half) (p : Nat) : Bool :=
  match kget (fun _ => 0) x.svc.record.located p with
  | 0 => false
  | n + 1 => decide (x.hours ≤ n + 1000)

/-- A located core whose audit passed returns to service unconfirmed (R272). -/
def Half.unconfirmed (x : Half) (p : Nat) : Half :=
  ((x.setRecord fun r => { r with located := kput (fun _ => 0) r.located p (x.hours + 1) }).event 1 p 3 0).writeRecord

end Sys2Proof.Machine
end

