-- ==== Sys2Proof/Machine/Ledger.lean ====
section
/-! DEFINITION. The handoff ledger (R459-R462): the sections that the old image of a component writes, their directory and header, and the checks with which the
new image reads them. The manual gives what a section holds and its largest size; the places within a section are the model's (log entry 53). -/
namespace Sys2Proof.Machine

/-- Where the ledger lies in the firmware reserve (R451). -/
def ledgerAt (h : Nat) : Nat := dramBase h + 0x1000000

/-- A value and whether it is there. -/
def leOpt (n : Nat) (v : Option Nat) : List Byte := leBytes 1 (if v.isSome then 1 else 0) ++ leBytes n (v.getD 0)

/-- Section 0x01, 32 bytes a queue: index, generation, head, tail, overruns of the head command, its shield, whether commands wait to run again, and the
VT at which the head became eligible. -/
def Half.queueRec (x : Half) (u : Nat) : List Byte :=
  let k := x.queue u
  let n := k.counts (x.fld F.TEL_DB_HEAD_head u)
  leBytes 2 u ++ leBytes 2 (x.qGen u) ++ leBytes 4 (x.fld F.TEL_DB_HEAD_head u) ++ leBytes 4 (x.fld F.TEL_DB_TAIL_tail u) ++ leBytes 2 n.overruns ++
    leBytes 1 n.preempts ++ leBytes 1 (if k.again = [] then 0 else 1) ++ leOpt 8 k.eligVt ++ leBytes 7 0

/-- Section 0x02, 144 bytes a cached context: ID, record, charge, effective pool size; the lead is in the record. -/
def State.cacheRec (s : State) (h c : Nat) : List Byte :=
  let x := s.half h
  leBytes 4 c ++ leBytes 128 (s.ctx c).raw ++ leBytes 8 (kget (fun _ => 0) x.disp.charge c) ++ leBytes 4 (kget (fun _ => 0) x.disp.effPool c - 1)

/-- Section 0x03: partition clocks, stripe plans, rotation pointers, band times as the commands that they are summed from. -/
def Half.accountSec (x : Half) : List Byte :=
  ((List.range 16).flatMap fun p => leBytes 8 (x.vclock p)) ++ ((List.range 32).flatMap fun k => leBytes 1 (x.fld F.INT_STREAM_STAT_plan k)) ++
    (x.disp.lastQueue.flatMap fun e => leBytes 4 e.1 ++ leBytes 2 e.2) ++
    x.disp.ran.flatMap fun r => leBytes 4 r.ctx ++ leBytes 4 r.tag ++ leBytes 8 r.ns ++ leBytes 8 r.vt

/-- A watched row condition in 64 bytes: who waits (0 a queue, 1 an entry) and its number, the start of its lag clock, what became of it, and its record. -/
def CondRt.bytes (c : CondRt) (kind id : Nat) : List Byte :=
  leBytes 1 kind ++ leBytes 1 ((if c.met then 1 else 0) + if c.viaFallback then 2 else 0) ++ leBytes 2 id ++ leOpt 8 c.lagVt ++ leBytes 19 0 ++ leBytes 32 c.cond

/-- Section 0x04. -/
def Half.condSec (x : Half) : List Byte :=
  let l : List (List Byte) := (x.disp.queues.filterMap fun q => q.2.cond.map fun c => c.bytes 0 q.1) ++
    x.win.inst.filterMap fun i => i.2.cond.map fun c => c.bytes 1 i.1
  (l.take 256).flatten

/-- Section 0x05: the Latch, the uncommitted Mint sets, the entries of a written bank that is not yet activated. -/
def State.latchSec (s : State) (h : Nat) : List Byte :=
  let x := s.half h
  let bank := if !x.win.written then [] else if x.fld F.WIN_CTL_active_bank = 0 then x.win.bank1 else x.win.bank0
  leOpt 4 s.latch.holder ++ leBytes 1 s.latch.half ++ leBytes 4 s.latch.partner ++ leBytes 2 s.latch.gen ++ leBytes 8 s.latch.expires ++
    (x.mint.shadow.flatMap fun c => leBytes 1 c.1 ++ leBytes 8 c.2.cfg ++ leBytes 32 c.2.ports) ++ bank.flatMap fun e => leBytes 2 e.1 ++ leBytes 64 e.2

/-- A stored answer: the sequence that it answers, and the frame. -/
def answerBytes (a : Nat × Out) : List Byte :=
  leBytes 4 a.1 ++ match a.2 with
  | .frame _ _ seq ack type st relay data =>
    leBytes 4 seq ++ leBytes 4 ack ++ leBytes 1 type ++ leBytes 1 st ++ leBytes 1 (if relay then 1 else 0) ++ data.flatMap (leBytes 8)
  | _ => []

/-- Section 0x06: address, expected and own sequence, and stored answers of each session. -/
def Half.sessionSec (x : Half) : List Byte :=
  x.ports.sessions.flatMap fun e => match e.2 with
  | none => []
  | some k => leBytes 4 e.1 ++ leBytes 4 k.pid ++ leBytes 4 k.expect ++ leBytes 4 k.devSeq ++ leBytes 2 k.answers.length ++ k.answers.flatMap answerBytes

/-- Section 0x07: requests of Tellers and messages under way, and the service-ring indices. -/
def Half.mailSec (x : Half) : List Byte :=
  (x.ports.tellerMsg.flatMap fun m => leBytes 2 m.1 ++ leBytes 64 (m.2 - 1)) ++
    (x.disp.leaving.flatMap fun l => leBytes 2 l.op ++ leBytes 4 l.id ++ leBytes 4 l.msg.tag ++ leBytes 2 l.msg.gen ++ leBytes 1 l.msg.vdi) ++
    x.ports.rings.flatMap fun r => leBytes 1 r.1 ++ leBytes 4 r.2.reqTail ++ leBytes 4 r.2.reqHead ++ leBytes 4 r.2.repTail ++ leBytes 4 r.2.repHead

/-- Section 0x08: pending record writes, start of the soak, emergency, deferred activation. -/
def Half.stewardSec (x : Half) : List Byte :=
  leBytes 1 ((if x.svc.writing.isSome then 1 else 0) + if x.svc.waiting then 2 else 0) ++ leOpt 8 x.svc.soakVt ++ leBytes 1 (x.fld F.SVC_FW_ACT_cause) ++
    leOpt 8 x.fw.emgClearVt ++ leBytes 1 (x.fld F.SVC_FW_ACT_deferred) ++ leBytes 1 (x.fld F.SVC_FW_ACT_pending)

/-- Largest size of a section. -/
def secMax (id : Nat) : Nat := match id with
  | 1 => 0x40000 | 2 => 0x240000 | 3 => 0x10000 | 4 => 0x4000 | 5 => 0x10000 | 6 => 0x140000 | 7 => 0x10000 | _ => 0x1000

/-- The bytes of a section. -/
def State.section_ (s : State) (h id : Nat) : List Byte :=
  let x := s.half h
  let l : List Byte := match id with
    | 1 => x.disp.queues.flatMap fun q => x.queueRec q.1
    | 2 => x.disp.cached.flatMap fun c => s.cacheRec h c
    | 3 => x.accountSec
    | 4 => x.condSec
    | 5 => s.latchSec h
    | 6 => x.sessionSec
    | 7 => x.mailSec
    | _ => x.stewardSec
  l.take (secMax id)

/-- The sections that a component writes: 0x05-0x08 the steward, 0x01-0x04 the dispatch image. -/
def compSections (writers : Nat) : List Nat := if writers = 1 then [5, 6, 7, 8] else [1, 2, 3, 4]

/-- The directory, of 16 bytes a section: id, format, offset, length, CRC. -/
def directory (format : Nat) : Nat → List (Nat × List Byte) → List Byte
  | _, [] => []
  | off, (id, l) :: r => leBytes 2 id ++ leBytes 2 format ++ leBytes 4 off ++ leBytes 4 l.length ++ leBytes 4 (crc32c 0xFFFFFFFF l) ++
      directory format (off + l.length) r

/-- The header with a CRC (R461). -/
def ledgerHead (h writers format old new sections length crc vt : Nat) : List Byte :=
  leBytes 4 0x4C475248 ++ leBytes 2 format ++ leBytes 1 h ++ leBytes 1 writers ++ leBytes 2 old ++ leBytes 2 new ++ leBytes 2 sections ++ leBytes 2 0 ++
    leBytes 4 length ++ leBytes 4 crc ++ leBytes 8 vt ++ leBytes 32 0

/-- The ledger that the old image of a component writes at a handoff (R459, R460, R464). -/
def State.writeLedger (s : State) (h writers old new : Nat) : State :=
  let l := (compSections writers).map fun id => (id, s.section_ h id)
  let f := Nat.min old new
  let dir := directory f (64 + 16 * l.length) l
  let body := l.flatMap (·.2)
  let n := 64 + dir.length + body.length
  let crc := crc32c 0xFFFFFFFF (ledgerHead h writers f old new l.length n 0 (s.vtOf h) ++ dir)
  s.wrBytes (ledgerAt h) (ledgerHead h writers f old new l.length n crc (s.vtOf h) ++ dir ++ body)

/-- One directory entry as the new image checks it: section, place and CRC, within the ledger, its bytes read. -/
def State.entryOk (s : State) (h length format i : Nat) : Bool :=
  let a := ledgerAt h
  let d := s.rdN (a + 64 + 16 * i) 16
  let off := bits d 32 32
  let n := bits d 64 32
  decide (bits d 16 16 = format) && decide (n ≤ secMax (bits d 0 16)) && decide (off + n ≤ length) && decide (crc32c 0xFFFFFFFF (s.rdBytes (a + off) n) = bits d 96 32)

/-- The queue pointers and generations that section 0x01 holds are those of the registers. -/
def State.queuesAgree (s : State) (h : Nat) : Bool :=
  let a := ledgerAt h
  let d := s.rdN (a + 64) 16
  let x := s.half h
  bits d 0 16 ≠ 1 || (List.range (bits d 64 32 / 32)).all fun k =>
    let q := s.rdN (a + bits d 32 32 + 32 * k) 32
    let u := bits q 0 16
    decide (bits q 16 16 = x.qGen u) && decide (bits q 32 32 = x.fld F.TEL_DB_HEAD_head u) && decide (bits q 64 32 = x.fld F.TEL_DB_TAIL_tail u)

/-- The new image reads the ledger and validates it (R459): readable, magic, a format that it reads (R460), lengths, every CRC, the queue pointers. -/
def State.ledgerOk (s : State) (h new : Nat) : Bool :=
  let a := ledgerAt h
  let w := s.rdN a 64
  let len := bits w 128 32
  let k := bits w 96 16
  let f := bits w 32 16
  decide (s.access h a 64 = .ok) && decide (bits w 0 32 = 0x4C475248) && decide (f ≤ new) && decide (new ≤ f + 1) && decide (bits w 48 8 = h) &&
    decide (len ≤ 0x1000000) && decide (64 + 16 * k ≤ len) && decide (s.access h a len = .ok) &&
    decide (crc32c 0xFFFFFFFF (s.rdBytes a 20 ++ leBytes 4 0 ++ s.rdBytes (a + 24) (40 + 16 * k)) = bits w 160 32) &&
    ((List.range k).all fun i => s.entryOk h len f i) && s.queuesAgree h

/-- The new image takes up its component's state: the sections hold it as it stands; a ledger that fails its checks is replaced by what the hardware registers
hold, counted and recorded (R465). -/
def State.adoptLedger (s : State) (h new : Nat) : State :=
  if s.ledgerOk h new then s
  else (s.upd h fun x => x.inc F.SVC_FW_CRASH_fallback).incident h 0x0E 0 .internal

end Sys2Proof.Machine
end

