-- ==== Sys2Proof/Machine/FwOps.lean ====
section
/-! DEFINITION. Shared operations of firmware and boot: packages and their validity (R448, R449), the boot slot (R453), the soak (R319), emergencies
(R466), and an activation with its checks and steps (R455-R467). -/
namespace Sys2Proof.Machine

/-! ## Packages (R448, R449) -/

def Half.slot (x : Half) (n : Nat) : List Host.Cell := if n = 0 then x.fw.slot0 else x.fw.slot1

/-- A little-endian field of a package. -/
def pkg (c : List Host.Cell) (off n : Nat) : Nat := leNat (cellsRead c off n)

def pkgRelease (c : List Host.Cell) : Nat := pkg c 6 2
def pkgLength (c : List Host.Cell) : Nat := pkg c 8 4
def pkgKey (c : List Host.Cell) : Nat := pkg c 12 1

/-- The used entries of the component table: (id, offset, size, hash). -/
def pkgComps (c : List Host.Cell) : List (Nat × Nat × Nat × Nat) :=
  (List.range 8).filterMap fun i =>
    let o := 0x40 + 80 * i
    if pkg c o 1 = 0 then none else some (pkg c o 1, pkg c (o + 4) 4, pkg c (o + 8) 4, pkg c (o + 16) 64)

def pkgComp (c : List Host.Cell) (id : Nat) : Option (Nat × Nat × Nat × Nat) := (pkgComps c).find? fun k => k.1 = id

/-- Largest size of a component (R448). -/
def compMax : Nat → Nat
  | 1 => 0x100000
  | 2 => 0x80000
  | 3 => 0x40000
  | 4 => 0x100000
  | _ => 0

/-- Bytes of both signatures. -/
def sigBytes : Nat := 3373

/-- A package is valid (R449). -/
def pkgValid (es : Bool) (rollback : Nat) (c : List Host.Cell) : Bool :=
  decide (pkg c 0 4 = 0x54574650) && decide (pkg c 4 2 = 1) && decide (0x2C0 + sigBytes ≤ pkgLength c) && decide (pkgLength c ≤ 0x4000000) &&
  (decide (pkgKey c = 0) || (es && decide (pkgKey c = 1))) && decide (rollback ≤ pkgRelease c) &&
  Config.sigOk (pkgKey c) (leBytes 64 (Config.sha512 (cellsRead c 0 0x2C0))) (cellsRead c (pkgLength c - sigBytes) sigBytes) &&
  (pkgComps c).all fun k => decide (k.2.2.1 ≤ compMax k.1) && decide (Config.sha512 (cellsRead c k.2.1 k.2.2.1) = k.2.2.2)

/-- The mask of components whose hash differs from the running one's (R450). -/
def Half.staleMask (x : Half) (c : List Host.Cell) : Nat :=
  [1, 2, 3, 4].foldl (fun m id => match pkgComp c id with
    | some k => if kget (fun _ => 0) x.fw.running id = k.2.2.2 then m else m + 2 ^ (id - 1)
    | none => m) 0

/-- The slot that is not in force. -/
def Half.otherSlot (x : Half) : Nat := 1 - x.fld F.SVC_FW_STAT_active_slot

/-- The staged state cleared (R450). -/
def Half.unstage (x : Half) : Half := (x.setFld F.SVC_FW_STAT_staged 0).setFld F.SVC_FW_STAT_staged_mask 0

/-- Places of the dispatch and steward copies in the firmware reserve (R451). -/
def activeCopy (h id : Nat) : Nat := dramBase h + (if id = 2 then 0x100000 else 0x900000)
def stagedCopy (h id : Nat) : Nat := dramBase h + (if id = 2 then 0x500000 else 0xB00000)

/-- The image in the inactive bank of the Gatehouse, and a component of a package put there, which a boot or a swap makes the active one (R450, R452, R463). -/
def Firmware.idleBank (f : Firmware) : List Host.Cell := if f.ghActive = 0 then f.ghBank1 else f.ghBank0

def Firmware.fillBank (f : Firmware) (c : List Host.Cell) : Firmware :=
  match pkgComp c 3 with
  | none => f
  | some k =>
    let img := cellsWrite [] 0 (cellsRead c k.2.1 k.2.2.1)
    if f.ghActive = 0 then { f with ghBank1 := img } else { f with ghBank0 := img }

def Firmware.swapBanks (f : Firmware) : Firmware := { f with ghActive := 1 - f.ghActive }

/-- The image of the inactive bank has the hash of the package's component (R463). -/
def Firmware.bankOk (f : Firmware) (c : List Host.Cell) : Bool :=
  match pkgComp c 3 with
  | some k => decide (Config.sha512 (cellsRead f.idleBank 0 k.2.2.1) = k.2.2.2)
  | none => true

/-- The package in the slot that is not in force staged (R450). -/
def State.stagePkg (s : State) (h : Nat) : State :=
  let c := (s.half h).slot (s.half h).otherSlot
  let s1 := [1, 2].foldl (fun t id => match pkgComp c id with
    | some k => t.wrBytes (stagedCopy h id) (cellsRead c k.2.1 k.2.2.1)
    | none => t) s
  s1.upd h fun x => (({ x with fw := x.fw.fillBank c } : Half).setFld F.SVC_FW_STAT_staged (pkgRelease c)).setFld F.SVC_FW_STAT_staged_mask (x.staleMask c)

/-! ## Boot (R452, R453) -/

/-- The half starts from a slot: its release, its running components, the active copies of the reserve, and the Gatehouse's image, in the bank that then is
the active one. -/
def State.startSlot (s : State) (h slot : Nat) (trial : Bool) : State :=
  let c := (s.half h).slot slot
  let s1 := [1, 2].foldl (fun t id => match pkgComp c id with
    | some k => t.wrBytes (activeCopy h id) (cellsRead c k.2.1 k.2.2.1)
    | none => t) s
  s1.upd h fun x =>
    let y := ((((x.setFld F.SVC_FW_STAT_release (pkgRelease c)).setFld F.SVC_FW_STAT_active_slot slot).setFld F.SVC_FW_STAT_trial
      (if trial then 1 else 0)).setFld F.SVC_SOAK_own_release (pkgRelease c)).setFld F.SVC_SOAK_committed x.fw.rollback
    let f : Firmware := if (pkgComp c 3).isSome then (y.fw.fillBank c).swapBanks else y.fw
    { y with fw := { f with running := (pkgComps c).foldl (fun m k => kput (fun _ => 0) m k.1 k.2.2.2) [] } }

/-- A slot holds a valid package (R449): the one the part came with, or one that passes the checks; neither may be of a release below the counter (R318). -/
def State.slotOk (s : State) (h slot : Nat) : Bool :=
  let x := s.half h
  (x.fw.shipped.contains slot && decide (x.fw.rollback ≤ pkgRelease (x.slot slot))) || pkgValid s.es x.fw.rollback (x.slot slot)

/-- A slot that fails at boot: not started, recorded; with both failed the boot ROM serves ring pair 0 only and the half takes no duty (R453). -/
def State.slotFails (s : State) (h slot : Nat) : State :=
  let failed := slot :: (s.half h).fw.failedSlots
  let s1 := (s.upd h fun x => { x with fw := { x.fw with failedSlots := failed } }).incident h 0x0E slot .authFail
  if failed.contains (1 - slot) then s1.upd h fun x =>
    let y := (x.setFld F.SVC_FW_STAT_release 0).setFld F.SVC_SOAK_own_release 0
    { y with ports := { y.ports with stage := 0 }, clk := { y.clk with held := true, serrN := false }, fw := { y.fw with running := [] } }
  else s1

/-- The other slot tried after one that failed (R453). -/
def State.tryOther (s : State) (h slot : Nat) : State :=
  let s1 := s.slotFails h slot
  if (s1.half h).fw.failedSlots.contains (1 - slot) then s1
  else if s1.slotOk h (1 - slot) then s1.startSlot h (1 - slot) (decide (1 - slot ≠ (s1.half h).fw.activeSlot))
  else s1.slotFails h (1 - slot)

/-- The boot ROM starts a slot, or the other one where its package is not valid (R449, R453). -/
def State.bootSlot (s : State) (h slot : Nat) (trial : Bool) : State :=
  if s.slotOk h slot then s.startSlot h slot trial else s.tryOther h slot

/-- The boot ROM chooses the slot that the boot selector names (R453). -/
def State.bootFirmware (s : State) (h : Nat) : State :=
  let f := (s.half h).fw
  if f.attempts > 0 then
    (s.upd h fun x => { x with fw := { x.fw with attempts := f.attempts - 1, failedSlots := [] } }).bootSlot h f.trialSlot true
  else
    let s1 := (s.upd h fun x => { x with fw := { x.fw with trialSlot := f.activeSlot, failedSlots := [] } }).bootSlot h f.activeSlot false
    if f.trialSlot ≠ f.activeSlot then s1.incident h 0x0E 0 .internal else s1

/-! ## The soak (R319) -/

/-- The link carries the result class at least: it is up or demoted (R360). -/
def Half.linkOn (x : Half) : Bool := x.linkUp || decide (x.fld F.HTC_LINK_state = 3)

/-- The two releases of SVC_SOAK, the protocol that both halves speak while the link is on, the lower release (R316), and the start or end of the soak. While the
link is off a half keeps the release that it knew of the other (R320). -/
def State.syncSoak (s : State) : State :=
  let a := s.h0.fld F.SVC_FW_STAT_release
  let b := s.h1.fld F.SVC_FW_STAT_release
  let on := s.h0.linkOn && s.h1.linkOn
  let one (x : Half) (own other : Nat) : Half :=
    let y := x.setFld F.SVC_SOAK_own_release own
    let z := if on then ((y.setFld F.SVC_SOAK_peer_release other).setFld F.HTC_LINK_protocol (Nat.min a b)).setFld F.SVC_HATCH_protocol (Nat.min a b) else y
    let same := decide (own = z.fld F.SVC_SOAK_peer_release)
    { z with svc := { z.svc with soakVt := if same then none else some (z.svc.soakVt.getD z.vt.toNat), soakMarks := if same then 0 else z.svc.soakMarks } }
  { s with h0 := if s.h0.clk.rimUp then one s.h0 a b else s.h0, h1 := if s.h1.clk.rimUp then one s.h1 b a else s.h1 }

/-! ## Emergencies (R466) -/

/-- Causes of an emergency that hold on one half: bit 0 junction, bit 1 stack, bit 2 supply. -/
def Half.emgCause (x : Half) : Nat :=
  (if x.fld F.CLK_STAT_stage_logic ≥ 3 then 1 else 0) + (if x.fld F.CLK_STAT_stage_dram ≥ 3 then 2 else 0) + (if x.fw.supplyFault then 4 else 0)

/-- An emergency exists: a cause holds, or none has held for less than the second after which it clears. -/
def Half.emergency (x : Half) : Bool := decide (x.fld F.SVC_FW_ACT_cause ≠ 0) || x.fw.emgClearVt.isSome

/-- SVC_FW_ACT.cause of both halves follows the causes on either. -/
def State.syncEmergency (s : State) : State :=
  let c := s.h0.emgCause ||| s.h1.emgCause
  let one (x : Half) : Half :=
    let was := x.fld F.SVC_FW_ACT_cause
    let y := if x.clk.rimUp then x.setFld F.SVC_FW_ACT_cause c else x
    { y with fw := { y.fw with emgClearVt := if c ≠ 0 || !x.clk.rimUp then none else if was ≠ 0 then some x.vt.toNat else x.fw.emgClearVt } }
  { s with h0 := one s.h0, h1 := one s.h1 }

/-! ## Activation (R456-R467) -/

/-- Releases that may run together differ by at most one (R316, R317). -/
def oneApart (a b : Nat) : Bool := decide (a ≤ b + 1) && decide (b ≤ a + 1)

/-- A half's state is NORMAL (R383). -/
def Half.normal (x : Half) : Bool := decide (x.clk.phase = 3)

/-- The release of the other half as this half knows it. -/
def State.peerRelease (s : State) (h : Nat) : Nat :=
  if (s.half (peer h)).clk.rimUp then (s.half (peer h)).fld F.SVC_FW_STAT_release else (s.half h).fld F.HTC_LINK_peer_release

/-- The checks of R456, in order; `again` for a deferred activation that runs. -/
def State.fwCheck (s : State) (h mask : Nat) (again : Bool) : Status :=
  let x := s.half h
  let c := x.slot x.otherSlot
  if x.fld F.SVC_FW_STAT_staged = 0 || mask ≠ x.fld F.SVC_FW_STAT_staged_mask || (x.fld F.SVC_FW_ACT_deferred = 1 && !again) then .badArg
  else if !oneApart (x.fld F.SVC_FW_STAT_staged) (s.peerRelease h) then .versionMismatch
  else if !pkgValid s.es x.fw.rollback c then .authFail
  else if bits mask 3 1 = 1 && !(s.half (peer h)).normal then .badArg
  else if x.emergency then .busyEmergency
  else .ok

/-- The Gatehouse bank may swap now (R463): every task is NORMAL or INACTIVE, and no degraded operation, rejoin, search or handover runs. -/
def Half.swapReady (x : Half) : Bool :=
  !x.tally.ghReset && decide (x.fld F.TLY_CTL_degraded = 0) && decide (x.clk.phase = 3) && x.tally.standIn = [] &&
  ((List.range 4096).all fun t => decide (x.fld F.TLY_TASK_STATE_state t ≤ 1)) &&
  x.tally.tasks.all fun t => t.2.search = [] && t.2.stand = none

/-- A staged copy agrees with the hash that R449 verified (R457). -/
def State.copyOk (s : State) (h : Nat) (c : List Host.Cell) (id : Nat) : Bool :=
  match pkgComp c id with
  | some k => decide (Config.sha512 (s.rdBytes (stagedCopy h id) k.2.2.1) = k.2.2.2)
  | none => true

/-- The staged copy becomes the active copy. -/
def State.adoptCopy (s : State) (h : Nat) (c : List Host.Cell) (id : Nat) : State :=
  match pkgComp c id with
  | some k => s.wrBytes (activeCopy h id) (s.rdBytes (stagedCopy h id) k.2.2.1)
  | none => s

/-- The steps of an activation whose checks passed: Gatehouse bank swap, steward handoff, dispatch handoff (remote WAITs rewound, R459), and for the PHY
the trial boot. A failing step leaves what was active before (R457). -/
def State.activate (s : State) (h mask : Nat) : State × Status :=
  let x := s.half h
  let slot := x.otherSlot
  let c := x.slot slot
  let old := x.fld F.SVC_FW_STAT_release
  let new := pkgRelease c
  let has (i : Nat) : Bool := bits mask i 1 = 1
  let fail (st : Status) : State × Status := (s.upd h fun x => x.setFld F.SVC_FW_ACT_last_status st.code, st)
  if (has 0 && !s.copyOk h c 1) || (has 1 && !s.copyOk h c 2) then fail .authFail
  else if has 2 && !x.swapReady then fail .timeout
  else if has 2 && !x.fw.bankOk c then fail .authFail
  else
    let s1 := if has 0 then ((s.writeLedger h 1 old new).adoptCopy h c 1).adoptLedger h new else s
    let s2 := if has 1 then (((s1.writeLedger h 2 old new).adoptCopy h c 2).adoptLedger h new).rewindAll h (fun _ => true) else s1
    let s3 := s2.upd h fun x =>
      let on := x.svc.onNs
      let fresh := [1, 2, 3].foldl (fun m id => if has (id - 1) then kput (fun _ => ((0, 0) : Nat × Nat)) m id (on + 1, 0) else m) x.fw.fresh
      let run := [1, 2, 3].foldl (fun m id => match has (id - 1), pkgComp c id with
        | true, some k => kput (fun _ => 0) m id k.2.2.2
        | _, _ => m) x.fw.running
      let f : Firmware := { (if has 2 then x.fw.swapBanks else x.fw) with fresh := fresh, running := run, wrote := false }
      let g : Firmware := if has 3 then { f with trialSlot := slot, attempts := 3 } else { f with activeSlot := slot, trialSlot := slot, attempts := 0 }
      let y : Half := (({ x with fw := g } : Half).setFld F.SVC_FW_STAT_release new).setFld F.SVC_FW_ACT_last_status Status.ok.code
      (if has 3 then y else y.setFld F.SVC_FW_STAT_active_slot slot).unstage
    let s4 := (s3.hatchSend h 0x45 [new]).syncSoak
    (s4, .ok)

/-- The M that the PHY component takes after its reply (R455, R457). -/
def State.phyRestart (s : State) (h mask : Nat) (st : Status) : State :=
  if st = .ok && bits mask 3 1 = 1 then s.resetHalf h 2 0x04 true else s

/-- A deferral lost or ended (R467). -/
def Half.undefer (x : Half) : Half := (x.setFld F.SVC_FW_ACT_pending 0).setFld F.SVC_FW_ACT_deferred 0

/-- A pending activation lost, with its incident record (R467). -/
def State.loseDeferred (s : State) (h : Nat) : State :=
  let x := s.half h
  if x.fld F.SVC_FW_ACT_deferred = 0 then s
  else (s.incident h 0x0E 0 .internal (x.fld F.SVC_FW_ACT_pending)).upd h Half.undefer

/-- A deferred activation runs from the checks of R456, and an incident record reports its outcome (R467). A new deferral stays pending. -/
def State.runDeferred (s : State) (h : Nat) : State :=
  let x := s.half h
  if x.fld F.SVC_FW_ACT_deferred = 0 then s else
  let mask := x.fld F.SVC_FW_ACT_pending
  match s.fwCheck h mask true with
  | .busyEmergency => s
  | .ok =>
    let new := x.fld F.SVC_FW_STAT_staged
    let r := (s.upd h Half.undefer).activate h mask
    let s1 := r.1.incident h 0x0E 0 r.2 (if r.2 = .ok then new else 0)
    s1.phyRestart h mask r.2
  | st => ((s.upd h fun x => x.undefer.setFld F.SVC_FW_ACT_last_status st.code)).incident h 0x0E 0 st 0

/-! ## Stops of a component (R444, R446, R465) -/

/-- A reserve copy whose hash fails at a restart is loaded again from the slot in force (R446). -/
def State.reloadCopy (s : State) (h id : Nat) : State :=
  let x := s.half h
  let c := x.slot (x.fld F.SVC_FW_STAT_active_slot)
  match pkgComp c id with
  | none => s
  | some k =>
    if Config.sha512 (s.rdBytes (activeCopy h id) k.2.2.1) = kget (fun _ => 0) x.fw.running id then s
    else (s.wrBytes (activeCopy h id) (cellsRead c k.2.1 k.2.2.1)).incident h 0x0E 0 .internal


/-- The stop of a component counted against its activation: whether it is the second within a powered hour of it. -/
def Half.freshStop (x : Half) (id : Nat) : Half × Bool :=
  let f := kget (fun _ => ((0, 0) : Nat × Nat)) x.fw.fresh id
  if f.1 = 0 || f.1 + 3600000000000 < x.svc.onNs then (x, false)
  else ({ x with fw := { x.fw with fresh := kput (fun _ => ((0, 0) : Nat × Nat)) x.fw.fresh id (f.1, f.2 + 1) } }, decide (f.2 + 1 = 2))

/-- An automatic rollback to the other slot's release by R456 and R457 (R465). -/
def State.rollback (s : State) (h : Nat) : State :=
  let s1 := (s.stagePkg h).upd h fun x => ({ x with fw := { x.fw with fresh := [] } } : Half).inc F.SVC_FW_CRASH_rollback
  let mask := (s1.half h).fld F.SVC_FW_STAT_staged_mask
  let s2 := s1.incident h 0x0E 0 .internal
  match s2.fwCheck h mask true with
  | .ok => let r := s2.activate h mask; r.1.phyRestart h mask r.2
  | st => s2.upd h fun x => x.setFld F.SVC_FW_ACT_last_status st.code

/-- A component stopped: its stop counted, and the rollback where it is the second of a fresh component before the commit. -/
def State.componentStop (s : State) (h id : Nat) : State :=
  let r := (s.half h).freshStop id
  let s1 := s.setHalf h r.1
  if r.2 then s1.rollback h else s1

end Sys2Proof.Machine
end

