-- ==== Sys2Proof/Machine/MintOps.lean ====
section
/-! DEFINITION. Shared operations of the Mint (R329-R340): effective guarantees and their reconciliation. -/
namespace Sys2Proof.Machine

/-! ## Reconciliation (R339) -/

/-- VDIs whose contexts use a class. -/
def State.classVdis (s : State) (k : Nat) : List Nat :=
  ((s.ctxs.filter fun c => decide (cMark c.2.raw = k) && decide (cWeight c.2.raw ≠ 0)).map fun c => cVdi c.2.raw).eraseDups

/-- A cut class recorded, flagged, and told to the VDIs that use it; the notice repeats the incident's detail. -/
def State.tellCut (s : State) (h k g : Nat) : State :=
  let s1 := (s.incident h 0x09 k .noSpace g).upd h fun x => x.setFld F.MNT_INT_cut 1
  (s1.classVdis k).foldl (fun t v => if t.hostOf v = h then t.notice v 1 g .noSpace else t) s1

/-- Classes in the order in which they are cut: criticality ascending, then admission VT descending; the critical classes are not cut. -/
def Half.cutOrder (x : Half) : List Nat :=
  let before (a b : Nat) : Bool :=
    let ca := x.classCrit a
    let cb := x.classCrit b
    decide (ca < cb) || (decide (ca = cb) && decide (x.elem .MNT_CLASS_AGE 0 b ≤ x.elem .MNT_CLASS_AGE 0 a))
  isort before ((List.range 16).filter fun k => decide (x.classCrit k ≠ 15))

/-- The effective guarantees cut to a budget: the state, and whether an excess remains. -/
def State.reconcileField (s : State) (h : Nat) (f : Fld) (budget : Nat) : State × Bool :=
  let x := s.half h
  let sum := (List.range 16).foldl (fun a k => a + x.fld f 0 k) 0
  let r := x.cutOrder.foldl (fun (a : State × Nat) k =>
    let g := (a.1.half h).fld f 0 k
    let cut := Nat.min g a.2
    if a.2 = 0 || cut = 0 then a
    else ((a.1.upd h fun x => x.setFld f (g - cut) 0 k).tellCut h k (g - cut), a.2 - cut)) (s, sum - budget)
  (r.1, decide (r.2 ≠ 0))

/-- Both guarantees against their budgets; the critical classes no longer fitting asks for an H (R308, R339). -/
def State.reconcile (s0 : State) (h cause : Nat) : State :=
  let s := s0.upd h fun x => x.fillBuckets s0.now                  -- what has flowed in so far came at the old rates
  let a := s.reconcileField h F.MNT_CLASS_EFF_dram_eff ((s.half h).fld F.MNT_BUDGET_dram)
  let b := a.1.reconcileField h F.MNT_CLASS_EFF_hatch_eff ((s.half h).fld F.MNT_BUDGET_hatch)
  if a.2 || b.2 then b.1.askRestart h 1 cause else b.1

/-- The effective guarantees of a class set that comes into force. -/
def Half.effective (x : Half) : Half :=
  (List.range 16).foldl (fun y k => (y.setFld F.MNT_CLASS_EFF_dram_eff (y.fld F.MNT_CLASS_CFG_dram_g 0 k) 0 k).setFld F.MNT_CLASS_EFF_hatch_eff
    (y.fld F.MNT_CLASS_CFG_hatch_g 0 k) 0 k) x

end Sys2Proof.Machine
end

