-- ==== Sys2Proof/Machine/TallyOps.lean ====
section
/-! DEFINITION. Critical tasks as the sequencer and the Tally share them: rounds and due times (R258), the staging slots (R263), and the entry into degraded
operation (R286). -/
namespace Sys2Proof.Machine

/-! ## Rounds (R258) -/

/-- The VT from which rounds are counted: the later of the two halves' activations; a degraded half counts from its own. -/
def State.roundZero (s : State) (h t : Nat) : Nat :=
  let own := ((s.half h).task t).actVt
  if (s.half h).degraded then own else Nat.max own ((s.half (peer h)).task t).actVt

/-- The round of an instance of entry `w` that starts at a VT: F × I + k. None before the count begins. -/
def State.roundAt (s : State) (h w start : Nat) : Option Nat :=
  let x := s.half h
  let z := s.roundZero h (wTask w)
  let f := x.frameStart start
  if f < z then none else
  let k := if wPeriod w = 0 then 0 else (start - instStart f w 0) / (wPeriod w * 100)
  some ((f - z) / Nat.max x.frameNs 1 * wInstances w + k)

/-- The start of the delivering instance of round `r` in the VT of the half that runs it. -/
def State.roundStart (s : State) (h w r : Nat) : Nat :=
  let i := Nat.max (wInstances w) 1
  instStart (s.roundZero h (wTask w) + r / i * (s.half h).frameNs) w (r % i)

/-- The due time of a round has passed: the instance start plus deadline of both channels, each in the VT of its own half. A channel whose half is down or
whose delivering entry is missing does not hold it back. -/
def State.isDue (s : State) (h t r : Nat) : Bool :=
  [0, 1].all fun c =>
    let g := s.chanHalf h c
    let x := s.half g
    match delivering x.bankEntries t c 0 with
    | none => true
    | some e => !x.clk.computeUp || decide (s.roundStart h e.2 r + wDeadline e.2 * 100 ≤ x.vt.toNat)

/-- The round that an instance of a stage works for: from each stage to the next one's first instance after its own hold, as far as the delivering one
(R278; the pipeline of R228's example). -/
def State.roundOfStage (s : State) (h n w start : Nat) : Option Nat :=
  let x := s.half h
  let later := (chEntries x.bankEntries (wTask w) (wChannel w) 0).filter fun e => n < e.1
  let last := later.foldl (fun a e => (e.2, (x.nextInst e.2 (a.2 + wDuration a.1 * 100)).getD (a.2 + wDuration a.1 * 100))) (w, start)
  s.roundAt h last.1 last.2

/-! ## The assays of a half that rejoins (R290, step 3) -/

/-- The half has restarted while the other carries the critical work, and runs one assay of each of its channels (R290). -/
def Half.trials (x : Half) : Bool := x.clk.ready && decide (x.clk.phase = 1) && x.tally.rejoining && !x.win.running

/-- The entries that run the assay of this half's channel of a task, in stage order: its assay entries, or in ROUND mode all of them (R277, R278). -/
def State.trialEntries (s : State) (h t : Nat) : List (Nat × Nat) :=
  chEntries (s.half h).bankEntries t h (if tkRoundMode (s.taskRec h t) = 1 then 0 else 1)

/-- Those that have run it. -/
def State.trialDone (s : State) (h t : Nat) : List (Nat × Nat) :=
  (s.trialEntries h t).takeWhile fun e => match ((s.half h).inst e.1).last with
    | some (st, _) => decide (st = .ok) || decide (st = .retriedOk)
    | none => false

/-- The channel's assay has not passed yet. -/
def Half.trialOpen (x : Half) (t : Nat) : Bool := x.trials && decide (kget (fun _ => 0) x.tally.passed t = 0)

/-- Every channel that a rejoining half carries has passed its assay, and its report is at least 100 µs older than `vt` (R290, step 4). -/
def Half.trialsPassed (x : Half) (vt : Nat) : Bool :=
  !(decide (x.clk.phase = 1) && x.tally.rejoining) || (bankTasks x.bankEntries).all fun t =>
    match kget (fun _ => 0) x.tally.passed t with
    | 0 => false
    | v + 1 => decide (v + 100000 ≤ vt)

/-! ## Staging (R263) -/

def up128 (n : Nat) : Nat := (n + 127) / 128 * 128

/-- The result tensor of a channel as a geometry. -/
def chGeo (r c : Nat) : Geo := ⟨chLayout (chRec r c), tkN r, tkH r, tkW r, tkC r⟩

/-- Bytes of a channel's result and of its ledger plane. -/
def chSizes (r c : Nat) : Nat × Nat :=
  if tkKind r = 1 then (64 + 48 * tkC r, 0) else ((chGeo r c).bytes (chFmt (chRec r c)), (chGeo r c).blocks)

/-- Offsets of the result and ledger of a channel in a slot. -/
def slotOff (r c : Nat) : Nat × Nat :=
  let a := chSizes r 0
  let o := 128 + (if c = 0 then 0 else up128 a.1 + up128 a.2)
  (o, o + up128 (chSizes r c).1)

def slotSize (r : Nat) : Nat :=
  128 + up128 (chSizes r 0).1 + up128 (chSizes r 0).2 + up128 (chSizes r 1).1 + up128 (chSizes r 1).2

/-- Slots of a task's ring: the larger deadline of its delivering entries decides. -/
def State.slotCount (s : State) (h t : Nat) : Nat :=
  let e := [0, 1].filterMap fun c => delivering (s.half (s.chanHalf h c)).bankEntries t c 0
  let d := e.foldl (fun m w => Nat.max m (wDeadline w.2 * 100)) 0
  let p := match e with
    | w :: _ => if wInstances w.2 ≤ 1 then (s.half h).frameNs else wPeriod w.2 * 100
    | [] => (s.half h).frameNs
  (d + 3000) / Nat.max p 1 + 1

/-- The address of the slot of round `r` of a task in the staging region of half `g`; the geometry is that of half `h`. -/
def State.slotAddr (s : State) (h g t r : Nat) : Nat :=
  let before := (bankTasks (s.half h).bankEntries).filter fun u => u < t
  let off := before.foldl (fun o u => o + s.slotCount h u * slotSize (s.taskRec h u)) 0
  strBase g + (s.half g).fld F.TLY_STAGING_base + off + r % s.slotCount h t * slotSize (s.taskRec h t)

/-! ## Regions of the critical partition (R305) -/

/-- A row condition named by an entry; 0 where it names none. -/
def State.entryCond (s : State) (w : Nat) : Nat := if wCond w = 0 then 0 else s.rdN (wCond w) 32

/-- A condition on intake rows of an enabled stream of the half, and of which. -/
def State.intakeCond (s : State) (h w k : Nat) : Bool :=
  let c := s.entryCond w
  let g := (s.half h).geom k
  wCond w ≠ 0 && rKind c = 0 && rLayer c = 0 && rCount c ≠ 0 && (s.half h).fld F.INT_STREAM_CFG_enable k = 1 &&
    decide (g.mbase ≤ rAddr c) && decide (rAddr c < g.mbase + g.nbuf * g.markPitch)

/-- A Strongroom range lies in a group. -/
def inGroup (h g a n : Nat) : Bool := decide (a < strBase h + g * 0x1000000 + 0x1000000) && decide (strBase h + g * 0x1000000 < a + n)

/-- A region of the critical partition lies in the group: staging, a verdict ring, an intake region of a stream that a window entry waits on, a
pinned model (R305). -/
def State.criticalIn (s : State) (h g : Nat) : Bool :=
  let x := s.half h
  let tasks := bankTasks x.bankEntries
  let staging := tasks.any fun t => inGroup h g (s.slotAddr h h t 0) (s.slotCount h t * slotSize (s.taskRec h t))
  let rings := tasks.any fun t => inGroup h g (tkRing (s.taskRec h t) h) (2 ^ tkRingLog (s.taskRec h t) * 64)
  let streams := (List.range 32).any fun k => (x.bankEntries.any fun e => wKind e.2 = 1 && s.intakeCond h e.2 k) &&
    (inGroup h g (x.geom k).base (x.geom k).dataBytes || inGroup h g (x.geom k).mbase (x.geom k).markBytes)
  let models := x.str.models.any fun m => m.state = 3 && inGroup h g (strBase h + m.gran * 0x10000) (m.len * 0x10000)
  staging || rings || streams || models

/-- The configuration of a half fits in the Strongroom that withdrawals have left: no critical region lies in a withdrawn group (R305). -/
def State.confFits (s : State) (h : Nat) : Bool :=
  (List.range 8).all fun g => decide (bits ((s.half h).fld F.STR_GROUP_STATE_withdrawn) g 1 = 0) || !s.criticalIn h g

/-! ## Degraded operation (R286, R288) -/

/-- Entry into degraded operation: the standby bank is scheduled for the first frame start at least 20 µs after the detection; without a validated standby the
half keeps its normal bank and no half carries the critical work. -/
def State.degrade (s : State) (h : Nat) : State :=
  let x := s.half h
  if x.degraded || !x.clk.computeUp then s else
  let standby := x.fld F.TLY_CTL_standby = 1
  let s1 := s.upd h fun x =>
    let y := (((x.setFld F.TLY_CTL_degraded 1).setFld F.TLY_CTL_witness 0).setFld F.TLY_MODE_VT_vt x.vt.toNat)
    { y with
      tally := { y.tally with degradeAt := if standby then some (x.nextFrame (x.vt.toNat + 20000)) else none, noStandby := !standby,
                              normalBank := x.fld F.WIN_CTL_active_bank }
      clk := { y.clk with phase := 4 } }
  let s2 := s1.hatchSend h 0x44 [0]
  if standby then s2 else { s2 with perrN := false }

/-- A round of a task lost to an unbacked index; after three the half degrades (R285). -/
def State.unbackedRound (s : State) (h t r : Nat) : State :=
  let k := (s.half h).task t
  let l := if k.unbackedRounds.contains r then k.unbackedRounds else r :: k.unbackedRounds
  let s1 := s.upd h fun x => x.setTask t { k with unbackedRounds := l }
  if l.length < 3 || (s.half h).degraded then s1
  else (s1.degrade h).upd h fun x => { x with tally := { x.tally with unbacked := true } }

/-- PERR_N judged when critical duty may have returned: it goes high once some half is up and no cause of R518 remains. -/
def State.perrClear (s : State) : State :=
  let lone (x other : Half) : Bool := x.tally.noStandby || (x.clk.tripHold && decide (other.clk.phase ≠ 3))
  let up := (s.h0.clk.ready && s.h0.clk.resetKind = 0) || (s.h1.clk.ready && s.h1.clk.resetKind = 0)
  if up && !s.secondFault && !lone s.h0 s.h1 && !lone s.h1 s.h0 then { s with perrN := true } else s

end Sys2Proof.Machine
end

