-- ==== Sys2Proof/Machine/Windows.lean ====
section
/-! DEFINITION. The window sequencer (R221-R228, R255) and the evaluation of row conditions (R202-R206). -/
namespace Sys2Proof.Machine

/-! ## Row conditions read and judged -/

/-- The read of a condition record (R203): its bytes, unmet while its memory is down, or failed. -/
def State.readCond (s : State) (h a : Nat) : Nat × CondSt :=
  match s.access h a 32 with
  | .ok => (s.rdN a 32, .met)
  | .timeout => (0, .unmet)
  | st => (0, .failed st)

/-- A condition record read and evaluated at a VT: the state to watch, and the finding. -/
def State.judgeCond (s : State) (h a : Nat) (crit : Bool) (vt : Nat) (old : Option CondRt) : Option CondRt × CondSt :=
  match old with
  | some c =>
    if c.met then (some c, .met) else
    match s.evalCond h c.cond crit with
    | .met => (some { c with met := true }, .met)
    | .unmet => (some { c with lagVt := s.lagStart h c.cond vt c.lagVt }, .unmet)
    | .failed st => (some c, .failed st)
  | none =>
    match s.readCond h a with
    | (_, .unmet) => (none, .unmet)
    | (_, .failed st) => (none, .failed st)
    | (r, .met) =>
      match s.evalCond h r crit with
      | .met => (some { cond := r, lagVt := none, met := true, viaFallback := false }, .met)
      | .unmet => (some { cond := r, lagVt := s.lagStart h r vt none, met := false, viaFallback := false }, .unmet)
      | .failed st => (none, .failed st)

/-- A recompute counted for its stream (R206, R208). -/
def State.countRecompute (s : State) (h c : Nat) : State :=
  s.upd h fun x => (x.inc F.INT_STREAM_CNT_recompute (rStream c)).setStream (rStream c) { x.stream (rStream c) with recomputed := true }

/-! ## Instances -/

/-- The largest delay from an instance start to its first tile, in CTL cycles (R254). -/
def Half.jitter (x : Half) (start : Nat) : Half :=
  let d := Nat.min ((x.vt.toNat - start) / 2) 255
  if x.fld F.WIN_JITTER_max_cycles < d then x.setFld F.WIN_JITTER_max_cycles d else x

/-- A core takes an instance of a window: nothing runs on it and nothing holds it (R225, R285). -/
def Core.takes (c : Core) : Bool := c.run.isNone && c.retireDue.isNone && !c.switching && !c.resetting && !c.shut && !c.graphics

/-- An instance that a read before its first tile ends (R527). -/
def State.failRead (s : State) (h n : Nat) (st : Status) : State := ((s.strErrs (s.instCmd h n) 128).incident h 0x06 n st).completeInst h n 1 st 0

/-- The command of an instance placed on its core, or completed by what it reads before (R527) or by its checks (R86, R224). -/
def State.startInst (s0 : State) (h n p : Nat) : State :=
  let e := (s0.half h).activeEntry n
  let c := wCtx e
  if s0.loadStatus h p c ≠ .ok then s0.failRead h n (s0.loadStatus h p c) else
  let s := s0.cacheCtx h c
  let x := s.half h
  let i := x.inst n
  let v := cVdi (s.ctx c).raw
  let da := s.instCmd h n
  let d := s.rdN da 128
  match s.access h da 128 with
  | .ok =>
    let ck := s.check h p c v d
    match ck.st with
    | some st => if ck.readFail then (s.countRange h p ck.bad).failRead h n st else s.completeInst h n 1 st 0
    | none =>
      let r := { Run.start (.entry n) i.count 0 e d c v 0 x.vt.toNat ck with assay := i.assayNow }
      let s1 := s.upd h fun x => (x.setInst n { x.inst n with count := i.count + 1, open_ := false, cond := none }).jitter (i.start - 1)
      (s1.place h p r).bindFrame h p i.cond
  | st => s.failRead h n st

/-- An open instance starts once its condition is met and its core takes it, before its end (R224). -/
def State.startOpen (s : State) (h n : Nat) : State :=
  let x := s.half h
  let e := x.activeEntry n
  let i := x.inst n
  let live := i.open_ && (x.win.running || x.trials) && x.clk.computeUp && !x.tally.yielding
  if !live || wEngine e = 1 || (i.cond.isSome && i.start - 1 + wDuration e * 100 ≤ x.vt.toNat) then s else
  match x.physical (wCore e) with
  | none => s
  | some p => if (x.core p).takes then s.startInst h n p else s

/-- The output ledger bytes of an instance's command that completes without running (R203, R224). -/
def State.failOutputs (s : State) (h n : Nat) : State :=
  let e := (s.half h).activeEntry n
  let da := s.instCmd h n
  if wEngine e = 1 || s.access h da 128 ≠ .ok then s else s.zeroOutputs h (wCtx e) (cVdi (s.ctx (wCtx e)).raw) (s.rdN da 128)

/-- The same for the command of a queue (R203). -/
def State.failQueue (s : State) (q i : Nat) : State :=
  let k := (s.half (qHalf q)).queue (qIdx q)
  let a := qRing k.record + i % qRingSize k.record * 128
  if qEngine k.record = 1 || (s.half (qHalf q)).partKind (cPart (s.ctx (qCtx k.record)).raw) = 3 || s.access (qHalf q) a 128 ≠ .ok then s
  else s.zeroOutputs (qHalf q) (qCtx k.record) (qVdi k.record) (s.rdN a 128)

/-- An open instance whose end comes with its condition unmet (R224). -/
def State.endUnmet (s : State) (h n : Nat) : State :=
  let i := (s.half h).inst n
  if !i.open_ || i.cond.isNone then s
  else ((s.failOutputs h n).completeInst h n 1 .timeout (causeDetail 5 0)).upd h fun x => x.inc F.WIN_STAT_unmet

/-- The fallback of an instance's halo condition placed on the entry's core once that takes it, or ended by its checks (R206). -/
def State.startFallback (s : State) (h n : Nat) : State :=
  let x := s.half h
  let en := x.activeEntry n
  let i := x.inst n
  let da := rFallAddr ((i.cond.map (·.cond)).getD 0)
  let ctx := wCtx en
  let v := cVdi (s.ctx ctx).raw
  match x.physical (wCore en) with
  | none => s.completeInst h n 1 .internal 0
  | some p =>
    let st := if !s.inWindows v da 128 && !s.inDevice da 128 then .outOfRange else s.access h da 128
    if st ≠ .ok then (s.strErrs da 128).failRead h n st
    else if !(x.core p).takes then s
    else if s.loadStatus h p ctx ≠ .ok then s.failRead h n (s.loadStatus h p ctx)
    else
      let d := s.rdN da 128
      let ck := s.check h p ctx v d
      let r := { Run.start (.entry n) i.count 0 en d ctx v 0 x.vt.toNat ck with fallback := true }
      match ck.st with
      | some st => s.endFallback h r st 0
      | none => s.place h p r

/-- A halo condition's or intake condition's finding for an open instance. -/
def State.evalInst (s : State) (h n : Nat) : State :=
  let x := s.half h
  let e := x.activeEntry n
  let i := x.inst n
  if !i.open_ then s
  else if wCond e = 0 || i.assayNow then s.startOpen h n
  else if (match i.cond with | some c => c.viaFallback && !c.met | none => false) then s.startFallback h n
  else
    let j := s.judgeCond h (wCond e) true x.vt.toNat i.cond
    match j.2 with
    | .failed st => ((s.condErrs (wCond e) ((i.cond.map (·.cond)).getD (s.rdN (wCond e) 32))).failOutputs h n).completeInst h n 1 st 0
    | f =>
      let unread : CondRt := { cond := 0, lagVt := none, met := false, viaFallback := false }
      let c := (j.1.orElse fun _ => i.cond).getD unread
      let s1 := s.upd h fun x => x.setInst n { x.inst n with cond := some c }
      if f = .met then s1.startOpen h n else s1

/-- A condition of which nothing could be read yet is read afresh at its next evaluation. -/
def State.forgetUnread (s : State) (h n : Nat) : State :=
  s.upd h fun x =>
    let i := x.inst n
    match i.cond with
    | some c => if c.cond = 0 then x.setInst n { i with cond := none } else x
    | none => x

/-- An instance's condition evaluated at its start or later (R203, R204). -/
def State.evalEntry (s : State) (h n : Nat) : State := (s.forgetUnread h n).evalInst h n

/-- Whether the engine of an entry is busy at its instance start (R225). -/
def Half.engineBusy (x : Half) (e : Nat) : Bool :=
  if wEngine e = 1 then x.sieve.isSome else
  match x.physical (wCore e) with
  | none => false
  | some p => !(x.core p).takes

/-- A real command of the critical partition runs on the engine of an assay entry: its core, or the Sieve (R277). -/
def Half.realRuns (x : Half) (e : Nat) : Bool :=
  let real (w : Work) (assay : Bool) : Bool := match w with | .entry _ => !assay | .queue _ => false
  if wEngine e = 1 then (match x.sieve with | some r => real r.org r.assay | none => false) else
  match x.physical (wCore e) with
  | none => false
  | some p => match (x.core p).run with
    | some r => real r.org r.assay
    | none => false

/-- An assay instance that meets a real command of the critical partition still on its core (R277). -/
def State.deferAssay (s : State) (h n e : Nat) : State :=
  let k := (s.half h).task (wTask e)
  let c := wChannel e
  if !kget (fun _ => false) k.deferred c then
    s.upd h fun x => (x.inc F.TLY_ASSAY_STAT_deferred).updTask (wTask e) fun k =>
      { k with deferred := kput (fun _ => false) k.deferred c true }
  else
    let s1 := s.upd h fun x => x.setInst n { x.inst n with open_ := true, cond := none }
    -- a Sieve command has no tile boundary: the assay starts when it has ended
    if wEngine e = 1 then s1 else
    match (s.half h).physical (wCore e) with
    | none => s
    | some p => s1.updCore h p fun c => { c with preemptBy := c.preemptBy.orElse fun _ => some (wCtx e) }

/-- The bookkeeping of an instance that starts: its round, whether it runs the assay, and whether its round counts (R258, R270, R278). -/
def State.openInst (s : State) (h n e start : Nat) : State :=
  let x := s.half h
  let i := x.inst n
  let t := wTask e
  let r := if wAssay e = 1 then s.roundAt h e start else s.roundOfStage h n e start
  let k := x.task t
  let assay := wAssay e = 1 || (r.isSome && k.assayRound = r)
  let s1 := s.upd h fun x => x.setInst n { i with
    start := start + 1, open_ := false, cond := none, assayNow := assay, last := if wAssay e = 1 then none else i.last
    rounds := match r with | some r => ((i.count, r) :: i.rounds).take 16 | none => i.rounds }
  match r with
  | some r =>
    if wDelivers e then s1.upd h fun x => x.updTask t fun k =>
      k.setRound r { k.round r with opened := true, counted := x.taskState t = 1 && decide (k.normalVt < start), assay := assay }
    else s1
  | none => s1

/-! ## The commands -/

/-- What the failed evaluation of the condition at a queue's head found damaged. -/
def State.queueCondErrs (s : State) (q i : Nat) : State :=
  let k := (s.half (qHalf q)).queue (qIdx q)
  let a := qCond k.record + i % qRingSize k.record * 32
  s.condErrs a ((k.cond.map (·.cond)).getD (s.rdN a 32))

/-- The command at a queue's head whose condition failed (R203): it waits until the completion ring has room for its record (R232). -/
def State.failCondition (s : State) (q i : Nat) (st : Status) : State :=
  if !(s.half (qHalf q)).cqRoom (qIdx q) then s
  else ((((s.queueCondErrs q i).failQueue q i).completeHead q (s.queueDesc q i) st 0 true).noteReady q).noteIdle (qHalf q) (qCtx ((s.half (qHalf q)).queue (qIdx q)).record)

/-- ROW_CONDITION_EVALUATION (R204): at a queue's head, or for an open window instance. -/
def execRowConditionEvaluation (e : Ev) (w : Work) (s0 : State) : Host.Outcome State Fault Refusal :=
  let s := tick e s0
  match w with
  | .entry n => .next (s.evalEntry e.half n)
  | .queue q =>
    let h := qHalf q
    let u := qIdx q
    let x := s.half h
    let k := x.queue u
    let runs := s.queueUp q && !s.ctlPaused q && decide (x.qState u ≠ 0) && decide (x.qState u ≠ 4) && k.wait.isNone && s.vdiRuns (qVdi k.record)
    match x.nextIndex u with
    | some (i, true) =>
      if !runs || qCond k.record = 0 then .next s else
      match k.cond with
      | some c =>
        if c.met || c.viaFallback then .next s else
        let j := s.judgeCond h 0 false x.vt.toNat (some c)
        match j.2 with
        | .failed st => .next (s.failCondition q i st)
        | _ => .next (((s.upd h fun x => x.updQueue u fun k => { k with cond := j.1 }).upd h fun x => x.syncQueue u).noteReady q)
      | none =>
        let j := s.judgeCond h (qCond k.record + i % qRingSize k.record * 32) false x.vt.toNat none
        match j.2 with
        | .failed st => .next (s.failCondition q i st)
        | _ => .next (((s.upd h fun x => x.updQueue u fun k => { k with cond := j.1 }).upd h fun x => x.syncQueue u).noteReady q)
    | _ => .next s

/-- The lag clock of a watched condition has reached its stream's limit. -/
def Half.lagOver (x : Half) (c : CondRt) : Bool :=
  !c.met && !c.viaFallback && rHalo c.cond &&
    (match c.lagVt with | some t => decide (t + x.lagNs c.cond ≤ x.vt.toNat) | none => false)

/-- LAG_LIMIT_EXPIRY (R206). A match found at the expiry counts as a match. -/
def execLagLimitExpiry (e : Ev) (w : Work) (s0 : State) : Host.Outcome State Fault Refusal :=
  let s := tick e s0
  match w with
  | .queue q =>
    let h := qHalf q
    let u := qIdx q
    let x := s.half h
    let k := x.queue u
    match k.cond, x.nextIndex u with
    | some c, some (i, true) =>
      if !x.lagOver c || s.ctlPaused q || x.qState u = 4 then .next s
      else if s.evalCond h c.cond false = .met then
        .next ((s.upd h fun x => x.updQueue u fun k => { k with cond := some { c with met := true } }).noteReady q)
      else if rFallback c.cond = 1 then
        .next (((s.countRecompute h c.cond).upd h fun x => x.updQueue u fun k => { k with cond := some { c with viaFallback := true } }).noteReady q)
      else if !x.cqRoom u then .next s
      else .next (((s.completeHead q (s.queueDesc q i) .timeout (causeDetail 6 0) true).noteReady q).noteIdle h (qCtx k.record))
    | _, _ => .next s
  | .entry n =>
    let h := e.half
    let x := s.half h
    let i := x.inst n
    match i.cond with
    | none => .next s
    | some c =>
      if !i.open_ || !x.lagOver c then .next s
      else if s.evalCond h c.cond true = .met then
        .next ((s.upd h fun x => x.setInst n { i with cond := some { c with met := true } }).startOpen h n)
      else if rFallback c.cond = 0 then .next (s.completeInst h n 1 .timeout (causeDetail 6 0))
      else
        .next (((s.countRecompute h c.cond).upd h fun x => x.setInst n { i with cond := some { c with viaFallback := true } }).startFallback h n)

/-- An idle core readied for a context: the tenant clear and the handle load (R224). -/
def State.preArm (s : State) (h p c : Nat) : State :=
  let v := cVdi (s.ctx c).raw
  ((s.clearFor h p v).loadHandles h p c).updCore h p fun k => { k with lastVdi := some v }

/-- WINDOW_PRE_ARM (R224): within 1 µs of the start of an instance, of the bank that will then be in force, the core
that will serve it, if it is idle and its loaded context is another, runs the tenant clear and the handle load. -/
def execWindowPreArm (e : Ev) (n : Nat) (s0 : State) : Host.Outcome State Fault Refusal :=
  let s := tick e s0
  let h := e.half
  let x := s.half h
  match x.armEntry n x.vt.toNat with
  | none => .next s
  | some w => if !x.clk.computeUp || wKind w ≠ 1 || wEngine w = 1 then .next s else
    match x.servesNext (wCore w) with
    | none => .next s
    | some p =>
      if !(x.core p).takes || (x.core p).loadedCtx = some (wCtx w) || s.loadStatus h p (wCtx w) ≠ .ok then .next s
      else .next ((s.cacheCtx h (wCtx w)).preArm h p (wCtx w))

/-- What an instance does at its start, once it is open to run (R224, R225, R277). -/
def State.runInst (s : State) (h n e : Nat) : State :=
  let x := s.half h
  let i := x.inst n
  let idle := s.upd h fun x => x.setInst n { x.inst n with count := i.count + 1 }
  if x.tally.yielding then s.completeInst h n 1 .internal 0
  else if wAssay e = 1 && !kget (fun _ => false) (x.task (wTask e)).assayDue (wChannel e) then idle
  else if wEngine e = 0 && (x.physical (wCore e)).isNone then
    let s1 := (s.incident h 0x06 n .internal).completeInst h n 1 .internal 0
    match i.rounds with
    | (_, r) :: _ => s1.unbackedRound h (wTask e) r
    | [] => s1
  else if wAssay e = 1 && x.realRuns e then
    if kget (fun _ => false) (x.task (wTask e)).deferred (wChannel e) then s.deferAssay h n e
    else (s.deferAssay h n e).upd h fun x => x.setInst n { x.inst n with count := i.count + 1 }
  else if x.engineBusy e then
    ((s.incident h 0x06 n .late).upd h fun x => x.inc F.WIN_STAT_skipped).completeInst h n 1 .late 0
  else (s.upd h fun x => x.setInst n { x.inst n with open_ := true, cond := none }).evalEntry h n

/-- An instance of a half that rejoins (R290): the next entry of a channel whose assay has not passed runs it, once its engine is free; all others stay idle. -/
def State.startTrial (s : State) (h n w st : Nat) : State :=
  let x := s.half h
  let t := wTask w
  let i := x.inst n
  if !x.trialOpen t || ((s.trialEntries h t)[(s.trialDone h t).length]?.map (·.1)) ≠ some n || i.start ≠ 0 || x.engineBusy w then s
  else
    let s1 := s.upd h fun x => x.setInst n { i with start := st + 1, open_ := true, cond := none, assayNow := true }
    if wEngine w = 0 && (x.physical (wCore w)).isNone then s1.completeInst h n 1 .internal 0 else s1.evalEntry h n

/-- The bank in force still starts instances at a VT: before the end of a cleared enable's frame and before another bank's activation (R223, R255). -/
def Half.startsAt (x : Half) (t : Nat) : Bool :=
  let before (u : Option Nat) : Bool := match u with | some v => decide (t < v) | none => true
  before x.win.disableAt && before x.win.pendVt && before x.tally.degradeAt

/-- WINDOW_INSTANCE_START (R224, R225, R290): the instance of the entry that holds its engine now starts. -/
def execWindowInstanceStart (e : Ev) (n : Nat) (s0 : State) : Host.Outcome State Fault Refusal :=
  let s := tick e s0
  let h := e.half
  let x := s.half h
  let w := x.activeEntry n
  if (!x.win.running && !x.trials) || !x.clk.computeUp || wKind w ≠ 1 then .next s else
  match x.nowInst w x.vt.toNat with
  | none => .next s
  | some (st, _) =>
    if x.trials then .next (s.startTrial h n w st)
    else if (x.inst n).start = st + 1 || !x.startsAt st then .next s
    else .next (((s.endUnmet h n).openInst h n w st).runInst h n w)

/-- WINDOW_INSTANCE_END_UNMET (R224). -/
def execWindowInstanceEndUnmet (e : Ev) (n : Nat) (s0 : State) : Host.Outcome State Fault Refusal :=
  let s := tick e s0
  let h := e.half
  let x := s.half h
  if x.vt.toNat < (x.inst n).start - 1 + wDuration (x.activeEntry n) * 100 then .next s else .next (s.endUnmet h n)

/-- The states of the tasks that the bank in force names become NORMAL, and those it does not name INACTIVE (R270, R255). -/
def Half.activateTasks (x : Half) (vt : Nat) : Half :=
  let l := bankTasks x.bankEntries
  let off := ((List.range 4096).filter fun t => x.taskState t ≠ 0 && !l.contains t).foldl (fun y t => y.setFld F.TLY_TASK_STATE_state 0 t) x
  l.foldl (fun y t => ((y.setFld F.TLY_TASK_STATE_state 1 t).setFld F.TLY_TASK_STATE_recent 0 t).setTask t
    { Task.none with actVt := vt, normalVt := vt, assayVt := if vt = 0 then [] else [(0, vt), (1, vt)] }) off

/-- The number under which a command of a bank that is no longer in force stands: no entry of the bank in force. -/
def pastWork : Work → Work
  | .entry n => .entry (4096 + n % 4096)
  | w => w

/-- The commands of window entries that run go on, and no longer stand for an entry of the bank in force (R223). -/
def Half.pastRuns (x : Half) : Half :=
  (x.cores.map (·.1)).foldl (fun y p => y.updCore p fun c => { c with run := c.run.map fun r => { r with org := pastWork r.org } })
    { x with sieve := x.sieve.map fun r => { r with org := pastWork r.org } }

/-- The inactive bank becomes the active one at a VT (R223): instances count afresh, commands that run go on. -/
def Half.swapBank (x0 : Half) (vt : Nat) : Half :=
  let x := x0.pastRuns
  let y := (x.setFld F.WIN_CTL_active_bank (1 - x.fld F.WIN_CTL_active_bank)).setFld F.WIN_ACT_VT_vt vt
  let z : Half := { y with win := { y.win with inst := [], written := false } }
  if z.win.running then z.activateTasks vt else z

/-- The standby bank from `v` on (R286). -/
def Half.toStandby (x : Half) (v : Nat) : Half :=
  let y := (x.swapBank v).setFld F.TLY_CTL_standby 0
  { y with tally := { y.tally with degradeAt := none } }

/-- A half that degraded for an index without backing leaves that operation with a bank that names no such index (R285). -/
def Half.leaveUnbacked (x : Half) (v : Nat) : Half :=
  if !x.tally.unbacked || x.bankEntries.any fun e => wKind e.2 = 1 && wEngine e.2 = 0 && (x.physical (wCore e.2)).isNone then x else
  let y : Half := { x with tally := { x.tally with unbacked := false, noStandby := false, degradeAt := none }, clk := { x.clk with phase := 3 } }
  (y.setFld F.TLY_CTL_degraded 0).setFld F.TLY_MODE_VT_vt v

/-- The validated bank from `v` on (R223). -/
def Half.toPending (x : Half) (v : Nat) : Half :=
  let y := (x.swapBank v).setFld F.WIN_CTL_pending 0
  ({ y with win := { y.win with pendVt := none } } : Half).leaveUnbacked v

/-- BANK_ACTIVATION_VT (R223, R286, R288, R290): the pending bank, or the standby bank of a half that degrades, becomes active at its VT. -/
def execBankActivationVt (e : Ev) (s0 : State) : Host.Outcome State Fault Refusal :=
  let s := tick e s0
  let h := e.half
  let x := s.half h
  -- the old bank's instances have ended by then: those whose condition is unmet end unmet (R224)
  let s2 := (x.win.inst.filter fun i => i.2.open_).foldl (fun t i => t.endUnmet h i.1) s
  if !x.clk.computeUp then .next s else
  match x.tally.degradeAt, x.win.pendVt with
  | some v, _ =>
    if x.vt.toNat < v then .next s
    else
      -- the standby bank; the task state starts afresh, this half speaks for every task
      .next (s2.upd h fun x => x.toStandby v)
  | none, some v =>
    if x.vt.toNat < v then .next s
    else
      let t := (s2.upd h fun x => x.toPending v).saveConf h true
      .next (if x.degraded && !(t.half h).degraded then (t.serr h).perrClear else t)
  | none, none => .next s

/-- The window sequencer stopped: every task of its bank is OFF. -/
def Half.stopWindows (x : Half) : Half :=
  let y := (bankTasks x.bankEntries).foldl (fun y t => y.setFld F.TLY_TASK_STATE_state 0 t) x
  { y with win := { y.win with disableAt := none, running := false } }

/-- MAJOR_FRAME_END_DISABLE (R255): the sequencer stops at the end of the frame; instances that run go on. -/
def execMajorFrameEndDisable (e : Ev) (s0 : State) : Host.Outcome State Fault Refusal :=
  let s := tick e s0
  let h := e.half
  let x := s.half h
  match x.win.disableAt with
  | none => .next s
  | some v =>
    if x.vt.toNat < v then .next s else
    let s1 := (x.win.inst.filter fun i => i.2.open_).foldl (fun t i => t.endUnmet h i.1) s
    .next ((s1.upd h Half.stopWindows).saveConf h false)

/-- WINDOW_ENABLE_FRAME_START (R255): the active bank starts at the first frame start at or after the VT named. -/
def execWindowEnableFrameStart (e : Ev) (s0 : State) : Host.Outcome State Fault Refusal :=
  let s := tick e s0
  let h := e.half
  let x := s.half h
  match x.win.enableAt with
  | none => .next s
  | some v =>
    let f := x.nextFrame v
    if x.vt.toNat < f || !x.clk.computeUp || x.win.disableAt.isSome then .next s
    else .next (s.upd h fun x =>
      ({ x with win := { x.win with enableAt := none, running := true } } : Half).activateTasks f)

end Sys2Proof.Machine
end

