-- ==== Sys2Proof/Machine/Sieve.lean ====
section
/-! DEFINITION. The Sieve (R172-R188): the checks of a descriptor, decoding, score order, suppression, the output buffer, and the commands of a run. -/
namespace Sys2Proof.Machine

/-! ## Sizes and checks (R174, R184) -/

def esize (fmt : Nat) : Nat := fmtBits fmt / 8
/-- Regression elements of a candidate (R175). -/
def svB (d : Nat) : Nat := if svMode d = 3 then 7 else 4
def svAuxBytes (d : Nat) : Nat := if svMode d = 3 then 32 * svCand d else if svMode d = 2 then 8 * svLevels d else 16 * svCand d
def svScoreBytes (d : Nat) : Nat := svCand d * svClass d * esize (svScoreFmt d)
def svBoxBytes (d : Nat) : Nat := svCand d * svB d * esize (svBoxFmt d)
def svOutBytes (d : Nat) : Nat := 64 + 48 * svMaxOut d

def clog2 (n : Nat) : Nat := if 2 ^ Nat.log2 n = n then Nat.log2 n else Nat.log2 n + 1

/-- The bound time of a command in CORE cycles (R184), one cycle a nanosecond. -/
def svBound (d : Nat) : Nat :=
  let bytes := svScoreBytes d + svBoxBytes d + svAuxBytes d
  let scan := Nat.max (Nat.max (ceilDiv bytes 64) (ceilDiv (svCand d) 16)) (ceilDiv (svCand d * svClass d) 64)
  let sort := ceilDiv (svPreK d) 16 * clog2 (Nat.max (svPreK d) 2)
  let pairs := if svSuppress d = 0 then 0 else Nat.min (svMaxOut d) (svPreK d) * svPreK d
  let iou := ceilDiv pairs (if svMode d = 3 then 16 else 64)
  200 + scan + sort + iou + ceilDiv (svOutBytes d) 64

def f32 (w : Nat) : Num := decodeFloat 0 w

/-- The level table: count, width and stride exponent of each level (R177). -/
def State.svLevelTable (s : State) (d : Nat) : List (Nat × Nat × Nat) :=
  (List.range (svLevels d)).map fun k =>
    let e := s.rdN (svAuxAddr d + 8 * k) 8
    (bits e 0 32, bits e 32 16, bits e 48 8)

def overlap (a n b m : Nat) : Bool := decide (0 < n) && decide (0 < m) && decide (a < b + m) && decide (b < a + n)

/-- The ranges that a command reads, each an address and a length. -/
def svInputs (d : Nat) : List (Nat × Nat) :=
  [(svScoreAddr d, svScoreBytes d), (svBoxAddr d, svBoxBytes d), (svAuxAddr d, svAuxBytes d)]

/-- The checks of R174 in their order, and the read of the level table before the checks that use it (R527). A fence on a peer's word is refused with the formats
(R237). Of the model's choice are: an out_addr that is not 64-byte aligned fails step 1, the limit of n_levels holds in every mode, and a level of grid width 0
fails step 4 (log entry 165). -/
def State.svCheck (s : State) (h v d : Nat) : Option Status × Bool :=
  let okF (w : Nat) := (f32 w).finite
  let non0 (w : Nat) := !(f32 w).isZero
  let vars := [svVar d 0, svVar d 1, svVar d 2, svVar d 3]
  let one := decide (svScoreFmt d ≤ 5) && decide (svBoxFmt d ≤ 5) && (Num.zero.le (f32 (svIouThr d))) && ((f32 (svIouThr d)).le .one) &&
    (svSuppress d ≠ 3 || Num.zero.lt (f32 (svSigma d))) &&
    [svScoreThr d, svSoftMin d, svLogClamp d, svScoreScale d, svBoxScale d, svScaleX d, svScaleY d].all okF && vars.all okF &&
    vars.all non0 && non0 (svScaleX d) && non0 (svScaleY d) && decide (svCand d ≤ 65536) && decide (svClass d ≤ 256) &&
    decide (svPreK d ≤ 8192) && decide (svMaxOut d ≤ 2048) && decide (svLevels d ≤ 8) && decide (svOutAddr d % 64 = 0) &&
    (svFenced d = 0 || decide (bits (svFenceAddr d) 47 1 = 0))
  if !one then (some .badArg, false)
  else if ((svOutAddr d, svOutBytes d) :: svInputs d).any (fun r => !s.inWindows v r.1 r.2 || !s.reaches r.1 r.2) then (some .outOfRange, false)
  else if svCand d = 0 || svClass d = 0 || svPreK d = 0 || svMaxOut d = 0 || (svMode d = 2 && svLevels d = 0) then (some .empty, false)
  else if (svInputs d).any fun r => overlap (svOutAddr d) (svOutBytes d) r.1 r.2 then (some .badArg, false)
  else if svMode d = 2 then
    match s.access h (svAuxAddr d) (svAuxBytes d) (some v) with
    | .ok =>
      let l := s.svLevelTable d
      if l.foldl (fun n e => n + e.1) 0 ≠ svCand d || l.any fun e => decide (e.2.1 = 0) || decide (e.1 % e.2.1 ≠ 0)
      then (some .badArg, false) else (none, false)
    | st => (some st, true)
  else (none, false)

/-! ## Decoding (R175-R178) -/

/-- An entry: candidate, class, current score, score at preselection, geometry. -/
structure SEnt where
  cand : Nat
  cls : Nat
  score : Num
  score0 : Num
  box : List Num
deriving DecidableEq, Repr

/-- One element of an input tensor as FP32 (R175). -/
def State.svElem (s : State) (addr fmt scale i : Nat) : Num :=
  let w := s.rdN (addr + i * esize fmt) (esize fmt)
  if fmt = 5 then toF32 (int8Val (sext8 w) (f32 scale)) else decodeFloat fmt w

/-- The point and stride of a candidate of mode 0x2 (R177): the first level that reaches it. -/
def svPoint (l : List (Nat × Nat × Nat)) (i : Nat) : Num × Num × Num :=
  match l with
  | [] => (.zero, .zero, .one)
  | (n, w, g) :: r =>
    if i < n then
      let st : Num := .fin false 1 (g : Int)
      let pt (k : Nat) := ((Num.fin false (2 * k + 1) (-1)).mul32 st)
      (pt (i % Nat.max w 1), pt (i / Nat.max w 1), st)
    else svPoint r (i - n)

/-- A decoded box before the output scale: its geometry, its width and height (and length), and the advanced counter (R176). A size delta is clamped after its
division by var, as it goes into exp (log entry 165). -/
def State.svDecode (s : State) (d i c : Nat) (t : List Num) : List Num × List Num × Nat :=
  let g (k : Nat) := t.getD k .zero
  let v (k : Nat) := f32 (svVar d k)
  let a (k : Nat) := f32 (s.rdN (svAuxAddr d + (if svMode d = 3 then 32 else 16) * i + 4 * k) 4)
  let half : Num := .fin false 1 (-1)
  let clampL (x : Num) := x.min32 (f32 (svLogClamp d))
  match svMode d with
  | 0 =>
    let cx := (a 0).add32 (((g 0).div32 (v 0)).mul32 (a 2))
    let cy := (a 1).add32 (((g 1).div32 (v 1)).mul32 (a 3))
    let ew := (clampL ((g 2).div32 (v 2))).exp32 c
    let eh := (clampL ((g 3).div32 (v 3))).exp32 ew.2
    let w := (a 2).mul32 ew.1
    let h := (a 3).mul32 eh.1
    let hw := w.mul32 half
    let hh := h.mul32 half
    ([cx.sub32 hw, cy.sub32 hh, cx.add32 hw, cy.add32 hh], [w, h], eh.2)
  | 1 =>
    let wa := (a 2).sub32 (a 0)
    let ha := (a 3).sub32 (a 1)
    let x1 := (a 0).add32 (((g 0).div32 (v 0)).mul32 wa)
    let y1 := (a 1).add32 (((g 1).div32 (v 1)).mul32 ha)
    let x2 := (a 2).add32 (((g 2).div32 (v 2)).mul32 wa)
    let y2 := (a 3).add32 (((g 3).div32 (v 3)).mul32 ha)
    ([x1, y1, x2, y2], [x2.sub32 x1, y2.sub32 y1], c)
  | 2 =>
    let p := svPoint (s.svLevelTable d) i
    let e (k : Nat) := ((g k).div32 (v k)).mul32 p.2.2
    let x1 := p.1.sub32 (e 0)
    let y1 := p.2.1.sub32 (e 1)
    let x2 := p.1.add32 (e 2)
    let y2 := p.2.1.add32 (e 3)
    ([x1, y1, x2, y2], [x2.sub32 x1, y2.sub32 y1], c)
  | _ =>
    let dd := (((a 3).mul32 (a 3)).add32 ((a 4).mul32 (a 4))).sqrt32
    let cx := (a 0).add32 (((g 0).div32 (v 0)).mul32 dd)
    let cy := (a 1).add32 (((g 1).div32 (v 0)).mul32 dd)
    let cz := (a 2).add32 (((g 2).div32 (v 1)).mul32 (a 5))
    let el := (clampL ((g 3).div32 (v 2))).exp32 c
    let ew := (clampL ((g 4).div32 (v 2))).exp32 el.2
    let eh := (clampL ((g 5).div32 (v 2))).exp32 ew.2
    let l := (a 3).mul32 el.1
    let w := (a 4).mul32 ew.1
    let h := (a 5).mul32 eh.1
    let th := (a 6).add32 ((g 6).div32 (v 3))
    -- a wrapped angle is rounded to FP32 from the exact one, and stays below pi, whose nearest FP32 value lies above it (log entry 10)
    let f := fixWrap th.fix
    let near := fracF32 (decide (f < 0)) ⟨f.natAbs, fixOne.toNat⟩
    let tw := if th.finite && (th.fix < -fixPi || fixPi ≤ th.fix) then
        (if near.fix < -fixPi || fixPi ≤ near.fix then (if f < 0 then (f32 0x40490FDA).negate else f32 0x40490FDA) else near) else th
    ([cx, cy, cz, l, w, h, tw], [l, w, h], eh.2)

/-- The output scale applied (R176). -/
def svScaled (d : Nat) (b : List Num) : List Num :=
  let g (k : Nat) := b.getD k .zero
  let sx := f32 (svScaleX d)
  let sy := f32 (svScaleY d)
  if svMode d = 3 then [(g 0).mul32 sx, (g 1).mul32 sy, g 2, (g 3).mul32 sx, (g 4).mul32 sx, g 5, g 6]
  else [(g 0).mul32 sx, (g 1).mul32 sy, (g 2).mul32 sx, (g 3).mul32 sy]

/-- Scores after score_fn, class by class; a sigmoid is known within R61's error only (log entry 6). -/
def svScores (fn : Nat) : List Num → Nat → List Num × Nat
  | [], c => ([], c)
  | x :: r, c =>
    let y := if fn = 1 then activate 0 4 x c else (x, c)
    let z := svScores fn r y.2
    (y.1 :: z.1, z.2)

/-- What one candidate gives: entries, invalid, degenerate, and the advanced counter (R178, R179). -/
def State.svCandidate (s : State) (d i c : Nat) : List SEnt × Nat × Nat × Nat :=
  let n := svClass d
  let sc := (List.range n).map fun k => s.svElem (svScoreAddr d) (svScoreFmt d) (svScoreScale d) (i * n + k)
  let t := (List.range (svB d)).map fun k => s.svElem (svBoxAddr d) (svBoxFmt d) (svBoxScale d) (i * svB d + k)
  if sc.any (· = .nan) || t.any (· = .nan) then ([], 1, 0, c) else
  let b := s.svDecode d i c t
  let box := svScaled d b.1
  if (b.1 ++ b.2.1 ++ box).any fun v => !v.finite then ([], 1, 0, b.2.2)
  else if b.2.1.any fun v => v.le .zero then ([], 0, 1, b.2.2)
  else
    let y := svScores (svScoreFn d) sc b.2.2
    let thr := f32 (svScoreThr d)
    let ent (k : Nat) : SEnt := { cand := i, cls := k, score := y.1.getD k .zero, score0 := y.1.getD k .zero, box := box }
    let all := (List.range n).map ent
    let best := all.foldl (fun (m : Option SEnt) e => match m with
      | none => some e
      | some b => if b.score.lt e.score then some e else some b) none
    let picked := if svSelect d = 1 then all else best.toList
    (picked.filter fun e => thr.le e.score, 0, 0, y.2)

/-- Entries in score order (R179). -/
def entBefore (a b : SEnt) : Bool :=
  if b.score.lt a.score then true else if a.score.lt b.score then false
  else if a.cand ≠ b.cand then decide (a.cand < b.cand) else decide (a.cls ≤ b.cls)

/-! ## Suppression (R181) -/

def interact (agn : Bool) (a b : SEnt) : Bool := agn || a.cls = b.cls

/-- Hard suppression: written entries, and those that remain once `n` are written. -/
def hardPass (d : Nat) : Nat → Nat → List SEnt → List SEnt × List SEnt
  | 0, _, l => ([], l)
  | _, 0, l => ([], l)
  | _, _, [] => ([], [])
  | f + 1, n + 1, e :: r =>
    let keep := r.filter fun x => !(interact (svAgnostic d = 1) e x && (f32 (svIouThr d)).lt (iou (svMode d = 3) e.box x.box))
    let z := hardPass d f n keep
    (e :: z.1, z.2)

/-- The entry first in score order, and the others. -/
def takeFirst (l : List SEnt) : Option (SEnt × List SEnt) :=
  match l with
  | [] => none
  | a :: r => let b := r.foldl (fun m e => if entBefore m e then m else e) a; some (b, l.erase b)

/-- The scores of the remaining entries after one is written; those that fall below soft_min are removed. -/
def softDecay (d : Nat) (e : SEnt) : List SEnt → Nat → List SEnt × Nat
  | [], c => ([], c)
  | x :: r, c =>
    let i := iou (svMode d = 3) e.box x.box
    let lin := svSuppress d = 2
    let hit := interact (svAgnostic d = 1) e x && (!lin || (f32 (svIouThr d)).lt i)
    let k := if lin then (Num.one.sub32 i, c)
      else if hit then ((i.mul32 i).negate.div32 (f32 (svSigma d))).exp32 c else (.one, c)
    let sc := x.score.mul32 k.1
    let z := softDecay d e r k.2
    if !hit then (x :: z.1, z.2)
    else if sc.lt (f32 (svSoftMin d)) then z
    else ({ x with score := sc } :: z.1, z.2)

def softPass (d : Nat) : Nat → Nat → List SEnt → Nat → List SEnt × List SEnt × Nat
  | 0, _, l, c => ([], l, c)
  | _, 0, l, c => ([], l, c)
  | f + 1, n + 1, l, c =>
    match takeFirst l with
    | none => ([], [], c)
    | some (e, r) =>
      let k := softDecay d e r c
      let z := softPass d f n k.1 k.2
      (e :: z.1, z.2.1, z.2.2)

/-! ## Output (R182) -/

/-- What a run finds. -/
structure SieveOut where
  written : List SEnt
  passed : Nat
  kept : Nat
  invalid : Nat
  degenerate : Nat
  truncated : Bool
  ctr : Nat

def State.svRun (s : State) (d : Nat) : SieveOut :=
  let cs := (List.range (svCand d)).foldl (fun (a : List SEnt × Nat × Nat × Nat) i =>
    let r := s.svCandidate d i a.2.2.2
    (r.1.reverse ++ a.1, a.2.1 + r.2.1, a.2.2.1 + r.2.2.1, r.2.2.2)) ([], 0, 0, s.freeCtr)
  let pre := (isort entBefore cs.1).take (svPreK d)
  let w : List SEnt × List SEnt × Nat :=
    match svSuppress d with
    | 0 => (pre.take (svMaxOut d), pre.drop (svMaxOut d), cs.2.2.2)
    | 1 => let z := hardPass d pre.length (svMaxOut d) pre; (z.1, z.2, cs.2.2.2)
    | _ => softPass d pre.length (svMaxOut d) pre cs.2.2.2
  { written := w.1, passed := cs.1.length, kept := pre.length, invalid := cs.2.1, degenerate := cs.2.2.1, truncated := w.2.1 ≠ [], ctr := w.2.2 }

/-- The 32 bits of an FP32 value. -/
def bitsF32 (v : Num) : Nat := (convFloat 0 false true v).w

/-- A 48-byte output record. -/
def SEnt.bytes (e : SEnt) : List Byte :=
  leBytes 4 e.cand ++ leBytes 2 e.cls ++ leBytes 2 0 ++ leBytes 4 (bitsF32 e.score) ++ leBytes 4 (bitsF32 e.score0) ++
  (List.range 7).flatMap (fun k => leBytes 4 (match e.box[k]? with | some v => bitsF32 v | none => 0)) ++ leBytes 4 0

/-- The 64-byte header. -/
def svHeader (d count passed kept invalid degenerate trunc vt : Nat) : List Byte :=
  leBytes 4 count ++ leBytes 4 passed ++ leBytes 4 kept ++ leBytes 4 invalid ++ leBytes 4 degenerate ++ leBytes 4 (trunc + 2 * svMode d) ++
  leBytes 8 vt ++ leBytes 32 0

/-- A header with every count 0; its vt_done, which no record gives a value, is free. -/
def State.svEmptyHeader (s : State) (h v d : Nat) : State :=
  let f := s.draw
  f.2.storeV h v (svOutAddr d) (svHeader d 0 0 0 0 0 0 (f.1 % 2 ^ 64))

/-! ## Runs -/

/-- The completion record of a Sieve command (R172). With a header of count 0 alone tiles_run is 0, and the detail of a TIMEOUT names no cause (log entry 165). -/
def svCpl (h d : Nat) (st : Status) (retried : Bool) (invalid wrote ns : Nat) : Cpl :=
  { tag := svTag d, status := st, final := true, retried := retried, detail := 0, sat := 0, inv := invalid, tiles := wrote, hazards := 0,
    ns := ns % 2 ^ 32, core := 128 * h }

/-- The Sieve is idle again, its registers say so (R188). -/
def Half.sieveIdle (x : Half) (ns : Nat) : Half :=
  let y : Half := { x with sieve := none }
  (((y.incw F.SIV_CMD_CNT_commands).setFld F.SIV_LAST_NS_engine_ns ns).setFld F.SIV_BUSY_busy 0).setFld F.SIV_BUSY_window 0

/-- A run that ends: completion, fence, and the Sieve takes its next command. -/
def State.endSieve (s : State) (h : Nat) (r : SieveRun) (st : Status) (invalid wrote : Nat) : State :=
  let ns := r.ranNs + (s.vtOf h - r.startVt)
  let c := svCpl h r.desc st r.retried invalid wrote ns
  let s1 := s.upd h fun x => x.sieveIdle ns
  match r.org with
  | .queue q => (((s1.finishQ q r.gen r.index (svEnd r.desc) c).noteReady q).noteIdle h r.ctx).settleMsgs h
  | .entry n => (s1.postE h n r.went r.index c).fence h (svEnd r.desc) r.vdi

/-- The records of a run that had been written when it was dropped stay; how many is a free value (R183, R185). -/
def State.dropSieve (s : State) (h : Nat) (r : SieveRun) : State :=
  let o := s.svRun r.desc
  let f := { s with freeCtr := o.ctr }.draw
  ((o.written.zip (List.range o.written.length)).take (f.1 % (o.written.length + 1))).foldl
    (fun t e => t.storeV h r.vdi (svOutAddr r.desc + 64 + 48 * e.2) e.1.bytes) f.2

/-- The Sieve instances of one major frame: start and end. -/
def Half.sieveWindows (x : Half) : List (Nat × Nat) :=
  let l : List (Nat × Nat) := match x.plans with | [] => [] | p :: _ => p.entries
  (l.filter fun e => wKind e.2 = 1 && wEngine e.2 = 1).flatMap fun e =>
    (List.range (wInstances e.2)).map fun k => (instStart 0 e.2 k, instStart 0 e.2 k + wDuration e.2 * 100)

/-- The largest gap between Sieve windows of a major frame; none without windows (R186). -/
def Half.sieveGap (x : Half) : Option Nat :=
  let l := isort (fun a b => a.1 ≤ b.1) x.sieveWindows
  match l with
  | [] => none
  | a :: _ => some ((l.zip (l.drop 1 ++ [(a.1 + x.frameNs, 0)])).foldl (fun g p => Nat.max g (p.2.1 - p.1.2)) 0)

/-- The start of the next window that names the Sieve, those of a scheduled enable and of a pending bank included. -/
def Half.nextSieve (x : Half) : Option Nat := x.nextStart (fun w => wKind w = 1 && wEngine w = 1) x.vt.toNat

/-- A command of the Sieve that completes without running, counted where the Sieve itself refuses it (R188; log entry 165). -/
def State.countSieve (s : State) (h : Nat) : State := s.upd h fun x => x.incw F.SIV_CMD_CNT_commands

/-- A checked command on the Sieve. -/
def State.takeSieve (s : State) (h : Nat) (w : Work) (index gen went d ctx vdi : Nat) : State :=
  s.upd h fun x =>
    let r : SieveRun := { org := w, index := index, gen := gen, went := went, desc := d, ctx := ctx, vdi := vdi, startVt := x.vt.toNat, assay := match w with | .entry n => (x.inst n).assayNow | .queue _ => false, ranNs := 0, retried := false }
    let y : Half := { x with sieve := some r }
    (y.setFld F.SIV_BUSY_busy 1).setFld F.SIV_BUSY_window (match w with | .entry _ => 1 | .queue _ => 0)

/-- SIEVE_COMMAND_START (R174, R186). -/
def execSieveCommandStart (e : Ev) (w : Work) (s0 : State) : Host.Outcome State Fault Refusal :=
  let s := tick e s0
  match w with
  | .entry n =>
    let h := e.half
    let x := s.half h
    let en := x.activeEntry n
    let i := x.inst n
    let met := match i.cond with | none => wCond en = 0 || i.assayNow | some c => c.met
    let ended := i.cond.isSome && decide (i.start - 1 + wDuration en * 100 ≤ x.vt.toNat)
    if !i.open_ || wEngine en = 0 || x.sieve.isSome || !x.clk.computeUp || !met || ended then .next s else
    let fetched := if x.disp.cached.contains (wCtx en) then Status.ok else s.ctxRead h (wCtx en)
    if fetched ≠ .ok then .next ((s.failRead h n fetched).countSieve h) else
    let v := cVdi (s.ctx (wCtx en)).raw
    let a := s.instCmd h n
    let d := s.rdN a 128
    match s.access h a 128 with
    | .ok =>
      let c := s.svCheck h v d
      match c.1 with
      | some st =>
        let s1 := if c.2 then (s.readErrs h (svAuxAddr d) (svAuxBytes d)).incident h 0x06 n st else s
        let s2 := if st = .empty then s1.svEmptyHeader h v d else s1
        .next ((s2.completeInst h n 1 st 0).countSieve h)
      | none =>
        .next (((s.cacheCtx h (wCtx en)).upd h fun x => (x.setInst n { i with count := i.count + 1, open_ := false, cond := none }).jitter (i.start - 1)).takeSieve h w
          i.count 0 en d (wCtx en) v)
    | st => .next ((s.failRead h n st).countSieve h)
  | .queue q =>
    let h := qHalf q
    let u := qIdx q
    let x := s.half h
    let k := x.queue u
    let c := qCtx k.record
    let idle := x.sieve.isNone && x.clk.computeUp && !(x.win.inst.any fun i => i.2.open_ && wEngine (x.activeEntry i.1) = 1)
    let posted := qEngine k.record = 1 && decide (x.fld F.WIN_DISP_STAT_paused 0 (u / 2048) = 0) && x.disp.cached.contains c && s.ready q
    match x.nextIndex u with
    | none => .next s
    | some (i, head) =>
      if !idle || !posted then .next s else
      let a := qRing k.record + i % qRingSize k.record * 128
      let d := s.rdN a 128
      let rst := s.access h a 128
      let refuse (st : Status) (known readFail : Bool) (t : State) : State := (t.refuseDispatch q i head (svEnd d) st known readFail).countSieve h
      if rst ≠ .ok then .next (refuse rst false true s)
      else if cWeight (s.ctx c).raw = 0 then .next (refuse .badArg true false s)
      else
        let ck := s.svCheck h (qVdi k.record) d
        match ck.1 with
        | some st => .next (refuse st true ck.2 (if st = .empty then s.svEmptyHeader h (qVdi k.record) d else if ck.2 then s.readErrs h (svAuxAddr d) (svAuxBytes d) else s))
        | none =>
          if (match x.sieveGap with | some g => decide (g < svBound d) | none => false) then .next (refuse .badArg true false s)
          else if (match x.nextSieve with | some t => decide (t < x.vt.toNat + svBound d) | none => false) then .next s
          else
            let s1 := (s.accountDispatch h q c).upd h fun x =>
              let y := if head then x.incw F.TEL_DB_HEAD_head u else x
              let f (k : Queue) : Queue :=
                { k with reserved := k.reserved + 1, flying := i :: k.flying, eligVt := none, cond := if head then none else k.cond }
              (y.updQueue u f).syncQueue u
            .next (s1.takeSieve h w i (x.qGen u) 0 d c (qVdi k.record))

/-- A detected error in what the Sieve reads (R183): the run is dropped and re-run once, then it ends with DATA_ERROR. The watchdog of R185 times each run by
itself, and engine_ns sums both (log entry 165). -/
def State.sieveError (s : State) (h : Nat) (r : SieveRun) : State :=
  let s0 := (svInputs r.desc).foldl (fun t i => t.readErrs h i.1 i.2) s
  let s1 := ((s0.dropSieve h r).upd h fun x => x.inc F.SIV_ERR_CNT_data_err).incident h 0x04 0 .dataError
  if r.retried then (s1.svEmptyHeader h r.vdi r.desc).endSieve h r .dataError 0 0
  else s1.upd h fun x => { x with sieve := some { r with retried := true, ranNs := r.ranNs + (x.vt.toNat - r.startVt), startVt := x.vt.toNat } }

/-- What a run read and wrote pays at the Sieve's port for the class of its context (R328, R330). -/
def State.paySieve (s : State) (h : Nat) (r : SieveRun) (records : Nat) : State :=
  let k := cMark (s.ctx r.ctx).raw
  ((svInputs r.desc).foldl (fun t i => t.pay h 128 k false i.1 i.2) s).pay h 128 k true (svOutAddr r.desc) (64 + 48 * records)

/-- SIEVE_COMMAND_END (R182): records, then header, then completion and fence. An input that at the end is answered neither OK nor with a data error does not end
the run: it goes on with the bytes that memory holds (log entry 165). -/
def execSieveCommandEnd (e : Ev) (s0 : State) : Host.Outcome State Fault Refusal :=
  let s := tick e s0
  let h := e.half
  match (s.half h).sieve with
  | none => .next s
  | some r =>
    if (svInputs r.desc).any fun i => s.access h i.1 i.2 (some r.vdi) = .dataError then .next (s.sieveError h r) else
    let o := s.svRun r.desc
    let a := svOutAddr r.desc
    let s1 := (o.written.zip (List.range o.written.length)).foldl (fun t w => t.storeV h r.vdi (a + 64 + 48 * w.2) w.1.bytes) { s with freeCtr := o.ctr }
    let f := s1.draw
    let vt := if o.written = [] then f.1 % 2 ^ 64 else s.vtOf h
    let s2 := f.2.storeV h r.vdi a (svHeader r.desc o.written.length o.passed o.kept o.invalid o.degenerate (if o.truncated then 1 else 0) vt)
    .next ((s2.paySieve h r o.written.length).endSieve h r (if r.retried then .retriedOk else .ok) o.invalid 1)

/-- SIEVE_DATA_ERROR (R183). -/
def execSieveDataError (e : Ev) (s0 : State) : Host.Outcome State Fault Refusal :=
  let s := tick e s0
  match (s.half e.half).sieve with
  | none => .next s
  | some r => .next (s.sieveError e.half r)

/-- SIEVE_WATCHDOG (R185): the run has exceeded its bound plus 10 µs. -/
def execSieveWatchdog (e : Ev) (s0 : State) : Host.Outcome State Fault Refusal :=
  let s := tick e s0
  let h := e.half
  match (s.half h).sieve with
  | none => .next s
  | some r =>
    if s.vtOf h - r.startVt ≤ svBound r.desc + 10000 then .next s else
    let s1 := ((s.dropSieve h r).upd h fun x => x.inc F.SIV_ERR_CNT_overrun).incident h 0x04 0 .timeout
    .next ((s1.svEmptyHeader h r.vdi r.desc).endSieve h r .timeout 0 0)

end Sys2Proof.Machine
end

