-- ==== Sys2Proof/Machine/Judge.lean ====
section
/-! DEFINITION. How the Tally judges (R264, R265, R275) and what a verdict record holds (R268). Differences, sums and comparisons are exact. -/
namespace Sys2Proof.Machine

/-! ## CRC-32 (IEEE 802.3) -/

def crcBits : Nat → Nat → Nat
  | 0, c => c
  | n + 1, c => crcBits n (if c % 2 = 1 then Nat.xor (c / 2) 0xEDB88320 else c / 2)

def crc32 (l : List Byte) : Nat :=
  Nat.xor (l.foldl (fun c b => crcBits 8 (Nat.xor c b.toNat)) 0xFFFFFFFF) 0xFFFFFFFF

/-! ## What a judgement finds -/

structure Judged where
  agree : Bool
  failIndex : Nat             -- 0xFFFF_FFFF when none failed
  failCount : Nat
  margin : Option Num
  truncated : Bool
deriving DecidableEq, Repr

def Judged.start : Judged := { agree := true, failIndex := 0xFFFFFFFF, failCount := 0, margin := none, truncated := false }

/-- One more item judged, in order. -/
def Judged.add (j : Judged) (i : Nat) (pass : Bool) (m : Option Num) : Judged :=
  { j with
    agree := j.agree && pass
    failIndex := if !pass && j.failCount = 0 then i else j.failIndex
    failCount := if pass then j.failCount else j.failCount + 1
    margin := match j.margin, m with
      | some a, some b => some (if b.lt a then b else a)
      | none, b => b
      | a, none => a }

/-! ## Element results (R264) -/

/-- A bound as an exact value; none: no bound known. -/
def ledNum (e : Nat) : Option Num := if e = 0 || e ≥ 0xFF then none else some (.fin false 1 ((e : Int) - 127))

/-- Value, exactly (R40), and ledger byte of logical element `i` of a channel's result held at two addresses. -/
def State.chElem (s : State) (rec c data led i : Nat) : Num × Nat :=
  let g := chGeo rec c
  let k := i % Nat.max (tkC rec) 1
  let x := i / Nat.max (tkC rec) 1 % Nat.max (tkW rec) 1
  let y := i / Nat.max (tkC rec * tkW rec) 1 % Nat.max (tkH rec) 1
  let b := i / Nat.max (tkC rec * tkW rec * tkH rec) 1
  let f := chFmt (chRec rec c)
  let n := fmtBits f / 8
  let w := s.rdN (data + g.elem b y x k * n) n
  let v := if f = 5 then int8Val (sext8 w) (decodeFloat 0 (chScale (chRec rec c))) else decodeFloat f w
  (v, s.rdN (led + g.blk b y x k) 1)

def tkElems (r : Nat) : Nat := tkN r * tkH r * tkW r * tkC r

/-- |a − b| exactly; none where either is not finite. -/
def absDiff (a b : Num) : Option Num := if a.finite && b.finite then some (match a.subX b with | .fin _ m e => .fin false m e | x => x) else none

/-- One element (R264): its tolerance, the two values and ledger bytes. -/
def judgeElem (tau : Num) (a b : Num × Nat) : Bool × Option Num :=
  if tau.lt .zero then (true, none) else
  match ledNum a.2, ledNum b.2, absDiff a.1 b.1 with
  | some la, some lb, some d =>
    let m := ((la.addX lb).addX tau).subX d
    (!m.lt .zero, some m)
  | _, _, _ => (false, none)

/-- The element pair of a round, each channel's result and ledger at the addresses given. -/
def State.judgeElems (s : State) (rec : Nat) (da la db lb : Nat) : Judged :=
  (List.range (tkElems rec)).foldl (fun j i =>
    let tau := decodeFloat 0 (s.rdN (tkTol rec + 4 * (i % Nat.max (tkC rec) 1)) 4)
    let r := judgeElem tau (s.chElem rec 0 da la i) (s.chElem rec 1 db lb i)
    j.add i r.1 r.2) Judged.start

/-! ## Box sets (R265) -/

/-- A box set read from a Sieve output buffer: mode, truncated bit, and its boxes in rank order. -/
structure BoxSet where
  mode : Nat
  truncated : Bool
  boxes : List SEnt
deriving DecidableEq, Repr

def State.readBoxes (s : State) (a max : Nat) : BoxSet :=
  let n := Nat.min (s.rdN a 4) max
  let fl := s.rdN (a + 0x14) 4
  let f (o : Nat) := decodeFloat 0 (s.rdN o 4)
  let l := (List.range n).map fun i =>
    let o := a + 64 + 48 * i
    ({ cand := i, cls := s.rdN (o + 4) 2, score := f (o + 8), score0 := f (o + 12), box := (List.range 7).map fun k => f (o + 16 + 4 * k) } : SEnt)
  { mode := bits fl 1 3, truncated := bits fl 0 1 = 1, boxes := l |> isort fun x y => if y.score.lt x.score then true else if x.score.lt y.score then false else decide (x.cand ≤ y.cand) }

/-- The best unmatched box of B for a box of A: the largest IoU of at least iou_match, ties to the lower rank. -/
def bestMatch (rec : Nat) (rot : Bool) (x : SEnt) (bs : List (SEnt × Nat)) : Option (SEnt × Nat) :=
  let c := (bs.filter fun y => tkAgnostic rec = 1 || y.1.cls = x.cls).map fun y => (y, iou rot x.box y.1.box)
  (c.foldl (fun (m : Option ((SEnt × Nat) × Num)) y => match m with
    | none => if (f32 (tkIouMatch rec)).le y.2 then some y else none
    | some b => if b.2.lt y.2 then some y else some b) none).map (·.1)

def within32 (a b : Num) (tol : Nat) : Bool := match absDiff a b with | some d => d.le (f32 tol) | none => false

/-- A matched pair agrees. -/
def pairAgrees (rec : Nat) (rot : Bool) (x y : SEnt) : Bool :=
  let g (e : SEnt) (k : Nat) := e.box.getD k .zero
  within32 x.score y.score (tkScoreTol rec) && (List.range (if rot then 6 else 4)).all (fun k => within32 (g x k) (g y k) (tkPosTol rec)) &&
    (!rot || ((g x 6).finite && (g y 6).finite && decide ((fixWrap ((g x 6).fix - (g y 6).fix)).natAbs ≤ ((f32 (tkAngleTol rec)).fix).toNat)))

/-- An unmatched box is excused (R265 step 4); `l` is its own set in rank order, `i` its rank. -/
def excused (rec : Nat) (rot : Bool) (l : List SEnt) (x : SEnt) (i : Nat) : Bool :=
  x.score.lt ((f32 (tkScoreThr rec)).addX (f32 (tkScoreTol rec))) ||
  (l.take i).any fun y => (tkAgnostic rec = 1 || y.cls = x.cls) && ((f32 (tkIouThr rec)).subX (f32 (tkIouMargin rec))).le (iou rot y.box x.box)

/-- The pairs of A's boxes, and B's boxes left unmatched. -/
def matchBoxes (rec : Nat) (rot : Bool) : List (SEnt × Nat) → List (SEnt × Nat) → List ((SEnt × Nat) × Option (SEnt × Nat)) × List (SEnt × Nat)
  | [], bs => ([], bs)
  | x :: r, bs =>
    let m := bestMatch rec rot x.1 bs
    let z := matchBoxes rec rot r (match m with | some y => bs.filter fun k => k.2 ≠ y.2 | none => bs)
    ((x, m) :: z.1, z.2)

/-- Two box sets judged. -/
def judgeBoxes (rec : Nat) (a b : BoxSet) : Judged :=
  if a.truncated || b.truncated || a.mode ≠ b.mode then { Judged.start with agree := false, truncated := a.truncated || b.truncated }
  else
    let rot := decide (a.mode = 3)
    let rank (l : List SEnt) := l.zip (List.range l.length)
    let m := matchBoxes rec rot (rank a.boxes) (rank b.boxes)
    let j1 := m.1.foldl (fun j p => match p.2 with
      | some y => j.add p.1.2 (pairAgrees rec rot p.1.1 y.1) none
      | none => j.add p.1.2 (excused rec rot a.boxes p.1.1 p.1.2) none) Judged.start
    m.2.foldl (fun j y => j.add (y.2 + 2 ^ 31) (excused rec rot b.boxes y.1 y.2) none) j1

/-! ## A round's pair, and an assay -/

/-- The pair in the staging slot at `a` judged (R264, R265). -/
def State.judgeSlot (s : State) (rec a : Nat) : Judged :=
  let oa := slotOff rec 0
  let ob := slotOff rec 1
  if tkKind rec = 1 then judgeBoxes rec (s.readBoxes (a + oa.1) (tkC rec)) (s.readBoxes (a + ob.1) (tkC rec))
  else s.judgeElems rec (a + oa.1) (a + oa.2) (a + ob.1) (a + ob.2)

/-- A channel's assay result at the addresses given against its expected result (R275). -/
def State.judgeAssay (s : State) (rec c data led : Nat) : Judged :=
  let k := chRec rec c
  if tkKind rec = 1 then judgeBoxes rec (s.readBoxes data (tkC rec)) (s.readBoxes (chExp k) (tkC rec))
  else (List.range (tkElems rec)).foldl (fun j i =>
    let y := s.chElem rec c data led i
    let e := s.chElem rec c data (chLexp k) i
    let ye := decodeFloat 0 (s.rdN (chExp k + 4 * i) 4)
    let slack : Num := match ye with | .fin _ m x => .fin false m (x - 23) | v => v
    let pass := match ledNum y.2, absDiff y.1 ye with
      | some l, some d => d.le (l.addX slack) && decide (y.2 ≤ e.2)
      | _, _ => false
    j.add i pass none) Judged.start

/-! ## The verdict record (R268) -/

/-- An exact value as FP32 rounded downward. -/
def downF32 (v : Num) : Nat :=
  match v with
  | .fin n m e =>
    let a := Frac.pow2 m e
    if m = 0 then 0
    else if !n && (maxFinite 0).lt a then maxBits 0 false
    else
      let r := roundFrac 24 (-149) true a
      let q := if n && (Frac.pow2 r.1 r.2).lt a then r.1 + 1 else r.1
      if n && (maxFinite 0).lt (Frac.pow2 q r.2) then infBits 0 true else encodeFloat 0 n q r.2
  | .inf n => infBits 0 n
  | .nan => canonNan 0

/-- What the final record of a round says besides its status. -/
structure VRec where
  round : Nat
  task : Nat
  writer : Nat
  status : Status
  flags : Nat                 -- byte 0x07
  vt : Nat
  failIndex : Nat
  failCount : Nat
  released : Nat
  crc : Nat
  margin : Nat

def VRec.bytes (v : VRec) : List Byte :=
  leBytes 4 v.round ++ leBytes 2 (v.task % 4096 + v.writer * 4096) ++ leBytes 1 v.status.code ++ leBytes 1 v.flags ++ leBytes 8 v.vt ++
  leBytes 4 v.failIndex ++ leBytes 4 v.failCount ++ leBytes 6 v.released ++ leBytes 2 0 ++ leBytes 4 v.crc ++ leBytes 4 0 ++ leBytes 4 v.margin ++
  leBytes 20 0

end Sys2Proof.Machine
end

