-- ==== Sys2Proof/Machine/Tally.lean ====
section
/-! DEFINITION. The two channels and the Tally (R256-R290): deliveries, verdicts and their exchange, escalation, assays, audits, handovers, and degraded
operation. -/
namespace Sys2Proof.Machine

/-! ## Reaching the other half -/

/-- The result channel to the other half's Tally works: the link is up or demoted, and its rim is up (R289, R360). -/
def State.tallyLink (s : State) (h : Nat) : Bool :=
  ((s.half h).linkUp || (s.half h).fld F.HTC_LINK_state = 3) && (s.half (peer h)).clk.rimUp

/-- A task changed in this half and, while the result channel works, in the other half: what both Gatehouses derive from the same verdicts. -/
def State.updTasks (s : State) (h t : Nat) (f : Task → Task) : State :=
  let s1 := s.upd h fun x => x.updTask t f
  if s.tallyLink h then s1.upd (peer h) fun x => x.updTask t f else s1

/-- The half that speaks for a task (R259, R286). -/
def State.speaker (s : State) (h t : Nat) : Nat :=
  if (s.half h).degraded then h else if (s.half (peer h)).degraded then peer h else tkSpeaker (s.taskRec h t)

/-! ## Deliveries (R262, R263) -/

/-- Rounds of a task that the major frames elapsed have begun, in the VT of half `h` (R258). -/
def State.roundNow (s : State) (h t : Nat) : Nat :=
  let x := s.half h
  match (delivering x.bankEntries t 0 0).orElse fun _ => delivering x.bankEntries t 1 0 with
  | some e => (x.frameStart x.vt.toNat - s.roundZero h t) / Nat.max x.frameNs 1 * wInstances e.2
  | none => 0

/-- The round nearest to `cur` whose low 32 bits are `r`. -/
def nearRound (cur r : Nat) : Nat := r + 2 ^ 32 * ((cur + 2 ^ 31 - r) / 2 ^ 32)

/-- The round that a command or a record names by its low 32 bits (R268). -/
def State.fullRound (s : State) (h t r : Nat) : Nat := nearRound (s.roundNow h t) r

/-- The round under which a RESERVE assay is kept, apart from the real rounds. -/
def assayKey (r : Nat) : Nat := 2 ^ 64 + r

/-- The number under which the halves exchange a verdict: a RESERVE assay round stands half the number range away from the real rounds (log entry 42). -/
def wireRound (k : Nat) : Nat := if 2 ^ 64 ≤ k then (k + 2 ^ 31) % 2 ^ 32 else k % 2 ^ 32

/-- The round that an exchanged number means. -/
def State.exchRound (s : State) (h t r : Nat) : Nat :=
  let cur := s.roundNow h t
  let f := nearRound cur r
  if tkRoundMode (s.taskRec h t) = 1 || (decide (f < cur + 2 ^ 30) && decide (cur ≤ f + 2 ^ 30)) then f
  else assayKey (nearRound cur ((r + 2 ^ 31) % 2 ^ 32))

/-- One channel's part of a staging slot, in half `g`, written through its port 140: a slot whose header names a round that is not judged, and a round already judged, drop it (R263, R266). -/
def State.stage (s : State) (h g t r c : Nat) (st : Status) (data led : List Byte) : State :=
  let x := s.half g
  let k := (x.task t).round r
  let a := s.slotAddr h g t r
  let rec0 := s.taskRec h t
  let old := s.rdN a 4
  let known := (if c = 0 then k.stA else k.stB).isSome
  let other := decide (old ≠ r % 2 ^ 32) && ((x.task t).rounds.any fun e => decide (e.1 % 2 ^ 32 = old) && !e.2.writtenR && (e.2.stA.isSome || e.2.stB.isSome))
  let mark (k : Round) : Round := if c = 0 then { k with stA := some st } else { k with stB := some st }
  let setSt (y : Half) : Half := y.updTask t fun q => q.setRound r (mark (q.round r))
  if known then s
  else if k.writtenR || other then s.upd g fun y => (if k.writtenR then setSt y else y).inc F.TLY_DISCARD_CNT_late
  else
    let s0 := ((s.pay g 140 0 true a 8).pay g 140 0 true (a + (slotOff rec0 c).1) data.length).pay g 140 0 true (a + (slotOff rec0 c).2) led.length
    let hd := if old = r % 2 ^ 32 && (k.stA.isSome || k.stB.isSome) then s0 else s0.store g a (leBytes 4 r ++ [0xFF, 0xFF])
    let s1 := hd.store g (a + 4 + c) [BitVec.ofNat 8 st.code]
    let o := slotOff rec0 c
    let s2 := if data = [] then s1 else (s1.store g (a + o.1) data).store g (a + o.2) led
    s2.upd g setSt

/-- A delivered result or a report of absence reaches both Tallies, with the kind 0x40 message across the Hatch (R262, R354). -/
def State.deliver (s : State) (h t r c : Nat) (st : Status) (data led : List Byte) : State :=
  let s1 := s.stage h h t r c st data led
  if s.tallyLink h then (s1.stage h (peer h) t r c st data led).hatchSend h 0x40 [t, r % 2 ^ 32, st.code] else s1

/-- Absences of a channel that bring its cores' audits forward (R273). -/
def Half.absence (x : Half) (t c : Nat) (st : Status) : Half :=
  if !(st = .timeout || st = .dataError || st = .late || st = .internal) then x else
  let k := x.task t
  let l := x.vt.toNat :: within x.vt.toNat 100000000 (kget (fun _ => []) k.absent c)
  let y := x.setTask t { k with absent := kput (fun _ => []) k.absent c l }
  if l.length < 3 then y else
  let ls := ((chEntries x.bankEntries t c 0).filter fun e => wEngine e.2 = 0).map fun e => wCore e.2
  ls.foldl (fun z l => match z.physical l with | some p => z.updCore p fun c => { c with auditAsap := true } | none => z) y

/-- CHANNEL_RESULT_DELIVERED (R262): the final completion of a delivering instance. -/
def execChannelResultDelivered (e : Ev) (n : Nat) (s0 : State) : Host.Outcome State Fault Refusal :=
  let s := tick e s0
  let h := e.half
  let x := s.half h
  let w := x.activeEntry n
  let i := x.inst n
  match i.last with
  | none => .next s
  | some (st, k) =>
    if !wDelivers w || x.trials then .next s else
    let done := s.upd h fun x => x.setInst n { x.inst n with last := none }
    match i.rounds.find? fun q => q.1 = k with
    | none => .next done
    | some (_, r) =>
      let t := wTask w
      let c := wChannel w
      let rec0 := s.taskRec h t
      let sz := chSizes rec0 c
      let good := st = .ok || st = .retriedOk
      let n := if tkKind rec0 = 1 then 64 + 48 * Nat.min (s.rdN (chResult (chRec rec0 c)) 4) (tkC rec0) else sz.1
      let rs := match s.access h (chResult (chRec rec0 c)) (if tkKind rec0 = 1 then 64 else n) with
        | .ok => s.access h (chResult (chRec rec0 c)) n
        | st => st
      let ls := if sz.2 = 0 then .ok else s.access h (chLedger (chRec rec0 c)) sz.2
      let fin := if !good then st else if rs ≠ .ok then rs else if ls ≠ .ok then ls else st
      let ok := fin = .ok || fin = .retriedOk
      let data := if ok then s.rdBytes (chResult (chRec rec0 c)) n else []
      let led := if ok then s.rdBytes (chLedger (chRec rec0 c)) sz.2 else []
      let seen := (done.readErrs h (chResult (chRec rec0 c)) n).readErrs h (chLedger (chRec rec0 c)) sz.2
      let s1 := (if good then seen else done).deliver h t r c fin data led
      .next (if ok then s1 else s1.upd h fun x => x.absence t c fin)

/-! ## Verdicts (R266-R268) -/

/-- Byte 0x07 of a verdict record. -/
def vFlags (assay degraded witnessed aFail bFail truncated locating : Bool) : Nat :=
  let b (p : Bool) (k : Nat) := if p then 2 ^ k else 0
  b assay 0 + b degraded 1 + b witnessed 2 + b aFail 3 + b bFail 4 + b truncated 5 + b locating 6

/-- The staging slot that a half's Tally reads: its own, or the other half's while its own Strongroom is down (R289). -/
def State.slotFor (s : State) (h t r : Nat) : Nat :=
  if (s.half h).clk.computeUp then s.slotAddr h h t r else s.slotAddr (peer h) (peer h) t r

/-- The released result bytes, as they were judged: the tensor, or the Sieve header and its count records (R262, R268). -/
def State.releasedBytes (s : State) (h t r rec0 : Nat) : List Byte :=
  let c := tkRelease rec0
  let a := s.slotFor h t r + (slotOff rec0 c).1
  s.rdBytes a (if tkKind rec0 = 1 then 64 + 48 * Nat.min (s.rdN a 4) (tkC rec0) else (chSizes rec0 c).1)

/-- A verdict record written into the rings named; a channel that failed a periodic assay releases nothing (R279). min_margin is free where no element was compared (R268 gives it for compared elements only). -/
def State.writeVerdict (s : State) (h t r : Nat) (st : Status) (witnessed : Bool) (rings : List Nat) : State :=
  let x := s.half h
  let k := x.task t
  let q := k.round r
  let rec0 := s.taskRec h t
  let v := q.own.getD { status := st, failIndex := 0xFFFFFFFF, failCount := 0 }
  let rel := st = .ok && !q.assay && decide (bits k.withheld (tkRelease rec0) 1 = 0)
  let crc := if rel then crc32 (s.releasedBytes h t r rec0) else 0
  let d := if q.margin = 0 then s.draw else (q.margin - 1, s)
  let b : VRec :=
    { round := r % 2 ^ 32, task := t, writer := h, status := st
      flags := vFlags q.assay x.degraded witnessed q.aFail q.bFail q.truncated (decide (x.taskState t ≠ 1))
      vt := x.vt.toNat, failIndex := v.failIndex, failCount := v.failCount
      released := if rel then chResult (chRec rec0 (tkRelease rec0)) else 0
      crc := crc, margin := d.1 % 2 ^ 32 }
  let s1 := rings.foldl (fun z g =>
    let a := tkRing rec0 g + r % 2 ^ tkRingLog rec0 * 64
    (z.pay (homeHalf a) 140 0 true a 64).store h a b.bytes) d.2
  if rings = [] then s1 else s1.upd h fun x => x.incw F.TLY_VERDICT_CNT_written

/-- A round's outcome counted in a half's Tally (R293). -/
def Half.countVerdict (x : Half) (st : Status) : Half :=
  match st with
  | .disagree => x.inc F.TLY_FAULT_CNT_disagree
  | .missing => x.inc F.TLY_FAULT_CNT_missing
  | .late => x.inc F.TLY_FAULT_CNT_late
  | .internal => x.inc F.TLY_FAULT_CNT_no_verdict
  | _ => x

/-! ## Escalation (R270, R271) -/

def Half.setTaskState (x : Half) (t v : Nat) : Half := x.setFld F.TLY_TASK_STATE_state v t

/-- Duty of a group's spare: 0 free, or 1 + the physical core it stands in for (R281). -/
def Half.stand (x0 : Half) (g v : Nat) : Half :=
  let x := match v, x0.groupSpare g with
    | 0, _ => x0
    | _, some q => x0.openCore q
    | _, none => x0
  ({ x with tally := { x.tally with standIn := kput (fun _ => 0) x.tally.standIn g v } } : Half).syncRecord

/-- A task back to NORMAL (R270). -/
def Half.taskNormal (x : Half) (t : Nat) : Half :=
  ((x.setTaskState t 1).setFld F.TLY_TASK_STATE_recent 0 t).updTask t fun k =>
    { k with normalVt := x.vt.toNat, disVts := [], search := [], stand := none, unlocated := [], held := none, withheld := 0 }

/-- The first round whose first stage starts at or after a VT in a channel (R271, R278). -/
def State.roundFrom (s : State) (h t c vt : Nat) : Option Nat :=
  let g := s.chanHalf h c
  let x := s.half g
  match chEntries x.bankEntries t c 0 with
  | [] => none
  | e :: _ => match x.nextInst e.2 vt with
    | none => none
    | some st => s.roundOfStage g e.1 e.2 st

/-- Both channels' assays asked for now: in ROUND mode both channels run the same round (R276, R278). -/
def State.askAssay (s : State) (h t : Nat) (chs : List Nat) : State :=
  let vt := s.vtOf h
  let r := match s.roundFrom h t 0 vt, s.roundFrom h t 1 vt with
    | some a, some b => some (Nat.max a b)
    | a, b => a.orElse fun _ => b
  let round := tkRoundMode (s.taskRec h t) = 1
  s.updTasks h t fun k => { k with
    assayDue := chs.foldl (fun m c => kput (fun _ => false) m c true) k.assayDue
    deferred := chs.foldl (fun m c => kput (fun _ => false) m c false) k.deferred
    assayRound := if round then k.assayRound.orElse fun _ => r else none }

/-- The logical cores of a channel in increasing index (R271). -/
def chCores (l : List (Nat × Nat)) (t c : Nat) : List Nat :=
  isort (fun a b => decide (a ≤ b)) (((chEntries l t c 0).filter fun e => wEngine e.2 = 0).map fun e => wCore e.2).eraseDups

/-- The restart that ends a search without a location: an H of the chosen half, or in degraded operation a package warm reset (R270, R271, R289). -/
def State.restartFor (s : State) (h t g : Nat) : State :=
  let s1 := (s.upd h fun x => x.setTaskState t 4)
  if (s.half h).degraded then ({ s1 with secondFault := true } : State).resetPackage 3 0x02 true
  else if g = h then s1.askRestart h 1 0x02 else s1

/-- LOCATING entered with the assay results of both channels (R271). -/
def State.enterLocating (s : State) (h t : Nat) (aF bF : Bool) : State :=
  let list (c : Nat) := (chCores (s.half (s.chanHalf h c)).bankEntries t c).map fun l => (c, l)
  let se := (if aF then list 0 else []) ++ (if bF then list 1 else [])
  let un := (if aF && list 0 = [] then [0] else []) ++ (if bF && list 1 = [] then [1] else [])
  let s1 := s.upd h fun x => (x.setTaskState t 3).updTask t fun k => { k with search := se, stand := none, unlocated := un, held := none }
  if se ≠ [] then s1
  else
    let sp := s.speaker h t
    let g := match un with
      | [c] => s.chanHalf h c
      | _ => sp
    s1.restartFor h t g

/-- The end of the search of one core: its assay passed or failed (R271). -/
def State.searchResult (s : State) (h t : Nat) (pass : Bool) : State :=
  let x := s.half h
  let k := x.task t
  match k.search with
  | [] => s
  | (c, _) :: rest =>
    let mine := decide (s.chanHalf h c = h)
    let left := if pass then rest.filter fun q => q.1 ≠ c else rest
    let s1 :=
      if !mine then s else
      match k.stand with
      | none => s
      | some p =>
        if pass then s.upd h fun x =>
          if x.locatedBefore p then (x.fillBuckets s.now).retireCore p 0 else x.updCore p fun c => { c with located := true, auditAsap := true }
        else s.upd h fun x => x.stand (p / 17) 0
    let un := if pass || left.any (fun q => q.1 = c) then k.unlocated else k.unlocated ++ [c]
    let s2 := s1.upd h fun x => x.updTask t fun k => { k with search := left, stand := none, unlocated := un }
    if left ≠ [] then s2
    else if un = [] then s2.upd h fun x => x.taskNormal t
    else
      let sp := s.speaker h t
      let hs := un.map (s.chanHalf h)
      s2.restartFor h t (if hs.contains sp then sp else hs.getD 0 sp)

/-- A core of the search is skipped: both Gatehouses go on to the next (R271, R285). -/
def State.searchSkip (s : State) (h t : Nat) : State :=
  let s1 := s.searchResult h t false
  if s.tallyLink h && !(s.half h).degraded && !(s.half (peer h)).degraded then s1.searchResult (peer h) t false else s1

/-- What the results of an assay round lead to (R270, R271, R279). While the Gatehouse controller resets, the change waits (R274). -/
def State.assayOutcome (s : State) (h t : Nat) (aF bF : Bool) : State :=
  let x := s.half h
  let st := x.taskState t
  let s1 := s.upd h fun x =>
    let own := ([0, 1].filter fun c => s.chanHalf h c = h && (tkRoundMode (s.taskRec h t) = 1 || kget (fun _ => false) (x.task t).assayDue c))
    let bad := own.filter fun c => if c = 0 then aF else bF
    let y := (x.incw F.TLY_ASSAY_STAT_run 0 0 own.length).inc F.TLY_ASSAY_STAT_failed 0 0 bad.length
    let z := (y.setFld F.TLY_TASK_STATE_a_fail (if aF then 1 else 0) t).setFld F.TLY_TASK_STATE_b_fail (if bF then 1 else 0) t
    z.updTask t fun k => { k with
      assayVt := ([0, 1].filter fun c => tkRoundMode (s.taskRec h t) = 1 || kget (fun _ => false) k.assayDue c).foldl
        (fun m c => kput (fun _ => 0) m c x.vt.toNat) k.assayVt, assayDue := [], deferred := [], assayRound := none
      withheld := if st = 1 then (if aF then 1 else 0) + (if bF then 2 else 0) else k.withheld }
  let s2 := if st = 1 && (aF || bF) then s1.incident h 0x08 t .disagree ((if aF then 1 else 0) + (if bF then 2 else 0)) else s1
  if x.tally.ghReset then s2.upd h fun x => x.updTask t fun k => { k with held := some (aF, bF) }
  else match st with
    | 1 => if aF || bF then s2.enterLocating h t aF bF else s2
    | 2 => s2.enterLocating h t aF bF
    | 3 => match (x.task t).search with
      | (c, _) :: _ => s2.searchResult h t (if c = 0 then !aF else !bF)
      | [] => s2
    | _ => s2

/-- A Tally judges its fixed self-test vectors (R273): a free value says whether it fails, which costs its half an M. -/
def State.selfTest (s : State) (g : Nat) : State :=
  if !(s.half g).clk.rimUp then s else
  let d := (s.upd g fun x => { x with tally := { x.tally with internalVts := [], selfTests := x.tally.selfTests + 1 } }).draw
  if d.1 % 2 = 1 then d.2.askRestart g 2 0x06 else d.2

/-- An INTERNAL verdict of half `h` (R273): over both halves a round counts once, and the third within 100 ms has both Tallies test themselves. -/
def State.countInternal (s : State) (h t r : Nat) : State :=
  let vt := s.vtOf h
  let recent (x : Half) : List (Nat × Nat × Nat) := x.tally.internalVts.filter fun e => vt ≤ e.1 + 100000000
  let own := (vt, t, r) :: recent (s.half h)
  let s1 := s.upd h fun x => { x with tally := { x.tally with internalVts := own } }
  let pair := ((own ++ recent (s.half (peer h))).map (·.2)).eraseDups
  if pair.length < 3 then s1 else (s1.selfTest 0).selfTest 1

/-- A round's final outcome in this half's Tally: counts, the DISAGREE and INTERNAL thresholds, assay results (R270, R273). A self-test's outcome is its own:
a free value decides it. -/
def State.settle (s : State) (h t r : Nat) (st : Status) : State :=
  let q := ((s.half h).task t).round r
  let s1 := s.upd h fun x => (x.countVerdict st).updTask t fun k => k.setRound r { k.round r with writtenR := true }
  if q.assay then
    if st = .internal then s1.upd h fun x => x.updTask t fun k => { k with assayRound := none, assayDue := [] }
    else s1.assayOutcome h t q.aFail q.bFail
  else match st with
    | .disagree =>
      if q.truncated || !q.counted || (s.half h).taskState t ≠ 1 then s1 else
      let vt := s.vtOf h
      let l := vt :: within vt 100000000 ((s.half h).task t).disVts
      let s2 := s1.upd h fun x => (x.updTask t fun k => { k with disVts := l }).setFld F.TLY_TASK_STATE_recent (Nat.min l.length 3) t
      if l.length < 3 then s2 else (s2.upd h fun x => x.setTaskState t 2).askAssay h t [0, 1]
    | .internal => s1.countInternal h t r
    | _ => s1

/-- A verdict that both Tallies have formed, or that this one gives alone, is written (R267, R286-R289). -/
def State.tryWrite (s : State) (h t r : Nat) : State :=
  let x := s.half h
  let q := (x.task t).round r
  match q.own with
  | none => s
  | some v =>
    if q.writtenR || x.tally.yielding then s
    else if x.tally.noStandby || (x.degraded && (!s.tallyLink h || (s.half (peer h)).degraded)) then (s.writeVerdict h t r v.status false [h]).settle h t r v.status
    else match q.other with
      | none => s
      | some o =>
        if o = v then
          (if s.speaker h t = h then s.writeVerdict h t r v.status true [0, 1] else s).settle h t r v.status
        else (s.writeVerdict h t r .internal false [h]).settle h t r .internal

/-- A Tally's own verdict on a round: sent to the other, and written once it may be (R267). -/
def State.formVerdict (s : State) (h t r : Nat) (v : Verdict) (j : Judged) (aF bF assay : Bool) : State :=
  let m := match j.margin with | some n => downF32 n + 1 | none => 0
  let s1 := s.upd h fun x =>
    let y := if j.truncated then x.inc F.TLY_DISCARD_CNT_truncated else x
    y.updTask t fun k => k.setRound r { k.round r with
      own := some v, ownVt := x.vt.toNat, margin := m, truncated := j.truncated, aFail := aF, bFail := bF, assay := assay }
  (s1.hatchSend h 0x41 [t, wireRound r, v.status.code, v.failIndex, v.failCount]).tryWrite h t r

/-- A Tally judges: it is enabled, its rim is up, its half does not yield, and the task is active or the round has begun (R255, R287, R293). -/
def Half.judges (x : Half) (t r : Nat) : Bool :=
  x.clk.rimUp && decide (x.fld F.TLY_CTL_enable = 1) && !x.tally.yielding && (decide (x.taskState t ≠ 0) || ((x.task t).round r).opened)

def absentSt : Option Status → Bool
  | some .ok => false
  | some .retriedOk => false
  | some _ => true
  | none => false

/-- The round runs the assay (R278). -/
def Task.isAssay (k : Task) (r : Nat) : Bool := k.assayRound = some r || (k.round r).assay

/-- A channel's part of a staging slot that reads with a data error (R118): the Tally takes the channel as absent (log entry 169). -/
def State.slotDamaged (s : State) (h t r c : Nat) : Bool :=
  let rec0 := s.taskRec h t
  let a := s.slotFor h t r
  let o := slotOff rec0 c
  let z := chSizes rec0 c
  decide (s.access h (a + o.1) z.1 = .dataError) || (decide (z.2 ≠ 0) && decide (s.access h (a + o.2) z.2 = .dataError))

/-- What the read of the delivered parts of a staging slot finds damaged is counted (R118, R138). -/
def State.slotErrs (s : State) (h t r c : Nat) : State :=
  let rec0 := s.taskRec h t
  let a := s.slotFor h t r
  let o := slotOff rec0 c
  let z := chSizes rec0 c
  (s.readErrs h (a + o.1) z.1).readErrs h (a + o.2) z.2

/-- The judgement of a round of which both channels are known. -/
def State.judgeRound (s0 : State) (h t r : Nat) : State :=
  let q := ((s0.half h).task t).round r
  let aM := absentSt q.stA || s0.slotDamaged h t r 0
  let bM := absentSt q.stB || s0.slotDamaged h t r 1
  let s := if absentSt q.stA || absentSt q.stB then s0 else (s0.slotErrs h t r 0).slotErrs h t r 1
  if aM || bM then s.formVerdict h t r { status := .missing, failIndex := 0xFFFFFFFF, failCount := 0 } Judged.start aM bM false
  else
    let j := s.judgeSlot (s.taskRec h t) (s.slotFor h t r)
    s.formVerdict h t r { status := if j.agree then .ok else .disagree, failIndex := j.failIndex, failCount := j.failCount } j false false false

/-- TALLY_JUDGEMENT (R264-R266): both results are known, or one channel is reported absent, which decides the outcome. -/
def execTallyJudgement (e : Ev) (task round : Nat) (s0 : State) : Host.Outcome State Fault Refusal :=
  let s := tick e s0
  let h := e.half
  let x := s.half h
  let k := x.task task
  let round := s.fullRound h task round
  let q := k.round round
  if !x.judges task round || q.own.isSome || q.writtenR || k.isAssay round ||
      !((q.stA.isSome && q.stB.isSome) || absentSt q.stA || absentSt q.stB) then .next s
  else .next (s.judgeRound h task round)

/-- ROUND_DUE_TIME (R266): a channel that has neither delivered nor been reported absent makes the round LATE, or MISSING while the other half is lost
without a standby (R288). -/
def execRoundDueTime (e : Ev) (task round : Nat) (s0 : State) : Host.Outcome State Fault Refusal :=
  let s := tick e s0
  let h := e.half
  let x := s.half h
  let k := x.task task
  let round := s.fullRound h task round
  let q := k.round round
  if !x.judges task round || q.own.isSome || q.writtenR || k.isAssay round || !s.isDue h task round then .next s
  else if q.stA.isSome && q.stB.isSome then .next (s.judgeRound h task round)
  else
    let aM := absentSt q.stA || (x.tally.noStandby && q.stA.isNone)
    let bM := absentSt q.stB || (x.tally.noStandby && q.stB.isNone)
    let st : Status := if aM || bM then .missing else .late
    .next (s.formVerdict h task round { status := st, failIndex := 0xFFFFFFFF, failCount := 0 } Judged.start aM bM false)

/-- The other Tally's verdict as it arrives (R267). -/
def State.verdictArrives (s : State) (h t n : Nat) (v : Verdict) : State :=
  if !(s.half h).clk.rimUp then s else
  let r := s.exchRound h t n
  (s.upd h fun x => (x.setFld F.TLY_CTL_witness 1).updTask t fun k => k.setRound r { k.round r with other := some v }).tryWrite h t r

/-- VERDICT_EXCHANGE (R267). -/
def execVerdictExchange (e : Ev) (task round : Nat) (v : Verdict) (s0 : State) : Host.Outcome State Fault Refusal :=
  .next ((tick e s0).verdictArrives e.half task round v)

/-- VERDICT_EXCHANGE_TIMEOUT (R267): 2 µs after its own verdict without the other's. -/
def execVerdictExchangeTimeout (e : Ev) (task round : Nat) (s0 : State) : Host.Outcome State Fault Refusal :=
  let s := tick e s0
  let h := e.half
  let x := s.half h
  let round := s.exchRound h task round
  let q := (x.task task).round round
  match q.own with
  | none => .next s
  | some v =>
    if q.writtenR || q.other.isSome || x.tally.yielding || x.vt.toNat < q.ownVt + 2000 then .next s
    else
      let s1 := s.upd h fun x => x.setFld F.TLY_CTL_witness 0
      if !s.tallyLink h then
        let s2 := s1.degrade h
        .next ((s2.writeVerdict h task round v.status false [h]).settle h task round v.status)
      else .next ((s1.writeVerdict h task round .internal false [h]).settle h task round .internal)

/-- LATE_RESULT_DISCARD (R266): a result or status of a round already judged is dropped and counted. -/
def execLateResultDiscard (e : Ev) (task round : Nat) (s0 : State) : Host.Outcome State Fault Refusal :=
  let s := tick e s0
  let h := e.half
  let round := s.fullRound h task round
  let q := ((s.half h).task task).round round
  if !q.writtenR || (q.stA.isSome && q.stB.isSome) then .next s
  else
    let q1 := if q.stA.isNone then { q with stA := some .late } else { q with stB := some .late }
    .next (s.upd h fun x => (x.updTask task fun k => k.setRound round q1).inc F.TLY_DISCARD_CNT_late)

/-! ## Assays (R275-R279) -/

/-- The assay interval of a task in ns; at most 10 ms in degraded operation (R276). -/
def State.assayNs (s : State) (h t : Nat) : Nat :=
  let n := tkAssayMs (s.taskRec h t) * 1000000
  if (s.half h).degraded then Nat.min n 10000000 else n

/-- The assay of step 3 of R290 that has ended without a pass is run again. -/
def State.retryTrial (s : State) (h t : Nat) : State :=
  let l := s.trialEntries h t
  let ended := (s.trialDone h t).length = l.length || l.any fun e => match ((s.half h).inst e.1).last with
    | some (st, _) => !(decide (st = .ok) || decide (st = .retriedOk))
    | none => false
  if ended then s.upd h fun x => l.foldl (fun x e => x.setInst e.1 { x.inst e.1 with start := 0, open_ := false, cond := none, last := none }) x else s

/-- ASSAY_DUE (R276, R290). -/
def execAssayDue (e : Ev) (task ch : Nat) (s0 : State) : Host.Outcome State Fault Refusal :=
  let s := tick e s0
  let h := e.half
  let x := s.half h
  let k := x.task task
  let st := x.taskState task
  let due := decide (kget (fun _ => 0) k.assayVt ch + s.assayNs h task ≤ x.vt.toNat) || decide (2 ≤ st)
  if x.trialOpen task && decide (ch = h) then .next (s.retryTrial h task) else
  if st = 0 || st = 4 || !due || kget (fun _ => false) k.assayDue ch || x.fld F.TLY_CTL_enable = 0 then .next s
  else .next (s.askAssay h task [ch])

/-- The last outcome of a RESERVE assay of a channel (R276): its status, if it has run. -/
def State.reserveStatus (s : State) (h t c : Nat) : Option Status :=
  let x := s.half (s.chanHalf h c)
  match delivering x.bankEntries t c 1 with
  | none => none
  | some e => ((x.inst e.1).last).map (·.1)

/-- The verdict on the assay of step 3 of R290: once every entry of the channel has run it, the channel's own half judges it, and a pass is reported. -/
def State.trialVerdict (s : State) (h t : Nat) : State :=
  let x := s.half h
  let rec0 := s.taskRec h t
  let l := s.trialEntries h t
  if !x.trialOpen t || (s.trialDone h t).length ≠ l.length || l = [] then s else
  let j := s.judgeAssay rec0 h (chResult (chRec rec0 h)) (chLedger (chRec rec0 h))
  let s1 := s.upd h fun x => x.incw F.TLY_ASSAY_STAT_run
  if j.agree then
    (s1.upd h fun x => { x with tally := { x.tally with passed := kput (fun _ => 0) x.tally.passed t (x.vt.toNat + 1) } }).hatchSend h 0x44 [3, 3]
  else s1.upd h fun x => x.inc F.TLY_ASSAY_STAT_failed

/-- ASSAY_VERDICT (R275, R276, R279, R290): both channels' assay results are judged as one assay round. An absent result is a failure. -/
def execAssayVerdict (e : Ev) (task round : Nat) (s0 : State) : Host.Outcome State Fault Refusal :=
  let s := tick e s0
  let h := e.half
  let x := s.half h
  let k := x.task task
  let rec0 := s.taskRec h task
  let round := s.fullRound h task round
  if x.trials then .next (s.trialVerdict h task)
  else if tkRoundMode rec0 = 1 then
    let q := k.round round
    let known := q.stA.isSome && q.stB.isSome
    if !x.judges task round || q.own.isSome || q.writtenR || !k.isAssay round || (!known && !s.isDue h task round) then .next s else
    let a := s.slotFor h task round
    let res (c : Nat) (st : Option Status) : Judged :=
      match st with
      | none => { Judged.start with agree := false }
      | some st => if absentSt (some st) then { Judged.start with agree := false } else
        let o := slotOff rec0 c
        s.judgeAssay rec0 c (a + o.1) (a + o.2)
    let ja := res 0 q.stA
    let jb := res 1 q.stB
    let v : Verdict := { status := if ja.agree && jb.agree then .ok else .disagree
                         failIndex := if ja.failCount ≠ 0 then ja.failIndex else jb.failIndex, failCount := ja.failCount + jb.failCount }
    .next (s.formVerdict h task round v { Judged.start with truncated := ja.truncated || jb.truncated } (!ja.agree) (!jb.agree) true)
  else
    let key := assayKey round
    let q := k.round key
    let due (c : Nat) := kget (fun _ => false) k.assayDue c
    let ready := [0, 1].all fun c => !due c || (s.reserveStatus h task c).isSome
    if !x.judges task key || q.own.isSome || q.writtenR || !(due 0 || due 1) || !ready then .next s else
    let res (c : Nat) : Judged :=
      if !due c then Judged.start else
      if absentSt (s.reserveStatus h task c) then { Judged.start with agree := false } else
      let cr := chRec rec0 c
      s.judgeAssay rec0 c (chResult cr) (chLedger cr)
    let ja := res 0
    let jb := res 1
    let v : Verdict := { status := if ja.agree && jb.agree then .ok else .disagree
                         failIndex := if ja.failCount ≠ 0 then ja.failIndex else jb.failIndex, failCount := ja.failCount + jb.failCount }
    .next (s.formVerdict h task key v { Judged.start with truncated := ja.truncated || jb.truncated } (!ja.agree) (!jb.agree) true)

/-! ## The search (R271) -/

/-- LOCATING_SEARCH_STEP (R271, R285): the next core of the search hands its duty to its group's spare at an instance boundary, and the
channel's assay follows. A spare that an audit holds is waited for. -/
def execLocatingSearchStep (e : Ev) (task : Nat) (s0 : State) : Host.Outcome State Fault Refusal :=
  let s := tick e s0
  let h := e.half
  let x := s.half h
  let k := x.task task
  if x.taskState task ≠ 3 || x.tally.ghReset || k.stand.isSome then .next s else
  match k.search with
  | [] => .next s
  | (c, l) :: _ =>
    if s.chanHalf h c ≠ h then .next s else
    match x.ownCore l, x.groupSpare (l / 16) with
    | some p, some q =>
      if (x.core q).auditing || (x.core p).auditing || x.spareAudits (l / 16) then .next s
      else if !x.spareFree (l / 16) then .next (s.searchSkip h task)
      else if !x.atBoundary l then .next s
      else .next ((s.upd h fun x => (x.stand (l / 16) (p + 1)).updTask task fun k => { k with stand := some p }).askAssay h task [c])
    | _, _ => .next (s.searchSkip h task)

/-! ## Audits and handovers (R280-R285) -/

/-- A core holds critical duty: its logical index is named by a COMMAND entry of the active bank (R281). -/
def Half.critical (x : Half) (p : Nat) : Bool :=
  match x.logical p with
  | none => false
  | some l => x.bankEntries.any fun e => wKind e.2 = 1 && wEngine e.2 = 0 && wCore e.2 = l

/-- The logical index whose instances a core holds or gave away to its group's spare. -/
def Half.indexOf (x : Half) (p : Nat) : Option Nat := if x.stoodIn p then some (x.coreEntry p).1 else x.logical p

/-- The next 400 µs of a core lie inside no instance on it of an entry that satisfies `q` (R282). -/
def Half.clearOf (x : Half) (p : Nat) (q : Nat → Bool) : Bool :=
  match x.indexOf p with
  | none => true
  | some l =>
    let holds (w : Nat) : Bool := q w && wHolds w l
    (x.liveEntries.all fun e => !holds e.2 || (x.nowInst e.2 x.vt.toNat).isNone) &&
      (match x.nextStart holds x.vt.toNat with | some st => decide (x.vt.toNat + 400000 ≤ st) | none => true)

/-- An entry's instances are on core `p` itself: after a handover the COMMAND instances belong to the spare (R282). -/
def Half.holdsOwn (x : Half) (p w : Nat) : Bool := decide (wKind w = 2) || (decide (wKind w = 1) && !x.stoodIn p)

def Half.auditNs (x : Half) : Nat := x.fld F.TLY_AUDIT_CFG_interval_s * 1000000000

/-- A core is under the search of some task (R285). -/
def Half.underSearch (x : Half) (p : Nat) : Bool :=
  x.tally.tasks.any fun t => t.2.stand = some p || t.2.search.any fun q => x.logical p = some q.2

/-- The next core in physical order (R280). -/
def Half.auditTurn (x : Half) : Option Nat :=
  minBy (fun p => (p + 136 - x.tally.auditNext) % 136) ((List.range 136).filter fun p => (x.coreEntry p).2 ≠ 3) |>.head?

/-- The core whose audit comes next: one that a search located, an overdue one, one brought forward in logical order, or the next in physical order (R271, R273,
R280, R283). -/
def Half.auditPick (x : Half) : Option Nat :=
  let ps := (List.range 136).filter fun p => (x.coreEntry p).2 ≠ 3
  (ps.find? fun p => (x.core p).located).orElse fun _ => (ps.find? fun p => (x.core p).overdue && !x.underSearch p).orElse fun _ =>
    match (ps.filter fun p => (x.core p).auditAsap && !x.underSearch p) with
    | a :: r => some (r.foldl (fun m p => if (x.coreEntry p).1 < (x.coreEntry m).1 then p else m) a)
    | [] => x.auditTurn

/-- Some core of the half is under audit: audits run one at a time (R280). -/
def Half.audits (x : Half) : Bool := x.cores.any fun c => c.2.auditing

/-- The core on which an audit is placed that has not started. -/
def Half.auditPlaced (x : Half) : Option Nat := (x.cores.find? fun c => c.2.auditDue).map (·.1)

/-- The core's duty goes to its group's spare before the audit (R281). -/
def Half.handsOver (x : Half) (p : Nat) : Bool := x.critical p && x.spareFree (p / 17) && decide ((x.coreEntry p).2 ≠ 1)

/-- A core may be audited: no search needs it and nothing resets it or runs on it (R280, R285). -/
def Half.auditable (x : Half) (p : Nat) : Bool := !x.underSearch p && !(x.core p).resetting && !(x.core p).switching && (x.core p).run.isNone

/-- An audit of a core may start now, in its unreserved time (R281, R282). -/
def Half.auditStarts (x : Half) (p : Nat) : Bool := x.auditable p && !x.handsOver p && x.clearOf p (x.holdsOwn p)

def Core.auditStart (c : Core) : Core := { c with auditing := true, auditDue := false }

/-- An audit without a placement is postponed (R282). -/
def Half.postpone (x : Half) (p : Nat) : Half := (x.updCore p fun c => { c with auditDue := false }).inc F.TLY_AUDIT_STAT_postponed

/-- AUDIT_DUE (R280-R282): the audit that is placed starts, or the next one is placed or postponed. A core that waits for its duty to pass, or for a tile to end,
has its audit placed; a core under search waits with its audit brought forward. -/
def execAuditDue (e : Ev) (s0 : State) : Host.Outcome State Fault Refusal :=
  let s := tick e s0
  let h := e.half
  let x := s.half h
  let due := decide (x.tally.auditVt + x.auditNs / 136 ≤ x.vt.toNat)
  if !x.clk.computeUp || x.fld F.TLY_AUDIT_CFG_enable = 0 || x.audits then .next s else
  match x.auditPlaced with
  | some p => .next (if x.auditStarts p then s.updCore h p Core.auditStart else if due then s.upd h fun x => x.postpone p else s)
  | none => match x.auditPick with
    | none => .next s
    | some p =>
      if !due && !(x.core p).located then .next s else
      let took := if !due then s else s.upd h fun x => { x with tally := { x.tally with
        auditVt := x.vt.toNat, auditNext := if x.auditTurn = some p then (p + 1) % 136 else x.tally.auditNext } }
      .next (if x.underSearch p then took.updCore h p fun c => { c with auditAsap := true }
        else if x.auditStarts p then took.updCore h p Core.auditStart
        else if !(x.core p).resetting && (x.handsOver p || x.clearOf p (x.holdsOwn p)) then took.updCore h p fun c => { c with auditDue := true }
        else took.upd h fun x => x.postpone p)

/-- A core after its audit: its memories are zero and its handle table is loaded afresh (R280). -/
def Core.audited (c : Core) (vt : Nat) : Core :=
  { c with auditing := false, auditDue := false, auditVt := vt, auditAsap := false, overdue := false, till := [], opsp := [], rowMark := [], rowWritten := [], rowBad := []
           handles := [], clusters := [], loadedCtx := none, lastVdi := none }

/-- A core that failed its audit retires at the next instance boundary: now, where none of its index's instances lasts (R284, R303). -/
def Half.retireSoon (x : Half) (p block : Nat) : Half :=
  let y := x.updCore p fun c => { c with located := false }
  if x.stoodIn p || x.atBoundary ((x.indexOf p).getD 0xFF) then y.retireCore p block else y.updCore p fun c => { c with retireDue := some block }

/-- AUDIT_DONE (R280, R284, R272). -/
def execAuditDone (e : Ev) (p : Nat) (fail : Bool) (block : Nat) (s0 : State) : Host.Outcome State Fault Refusal :=
  let s := tick e s0
  let h := e.half
  let x := s.half h
  let c := x.core p
  if !c.auditing || c.run.isSome then .next s else
  let s1 := s.upd h fun x => (x.updCore p fun c => c.audited x.vt.toNat).incw F.TLY_AUDIT_STAT_done
  if fail then
    -- a spare under audit cannot stand in; a core under search that it stood in for is skipped (R285)
    let hit := x.tally.tasks.filter fun t => match t.2.stand with
      | some q => decide (q / 17 = p / 17) && decide (x.groupSpare (p / 17) = some p)
      | none => false
    let s2 := (s1.upd h fun x => ((x.fillBuckets s.now).retireSoon p block).inc F.TLY_AUDIT_STAT_failed).incident h 0x08 p .internal block
    .next (hit.foldl (fun t k => t.searchSkip h k.1) s2)
  else if c.located then .next (s1.upd h fun x => (x.unconfirmed p).updCore p fun c => { c with located := false })
  else .next s1

/-- The SLOT instance that an audit takes (R283): of the partition of lowest criticality, and among equals the earliest; its entry and start. -/
def Half.auditSlot (x : Half) (p : Nat) : Option (Nat × Nat) :=
  match x.indexOf p with
  | none => none
  | some l =>
    let slots := x.liveEntries.filterMap fun e =>
      if wKind e.2 = 2 && wHolds e.2 l then
        match x.nowInst e.2 x.vt.toNat with
        | some i => some (e.2, i.1)
        | none => (x.nextInst e.2 x.vt.toNat).map fun v => (e.2, v)
      else none
    let crit (c : Nat × Nat) : Nat := x.partCrit (wPart c.1)
    slots.foldl (fun m c => match m with
      | some b => if crit c < crit b || (crit c = crit b && decide (c.2 < b.2)) then some c else m
      | none => some c) none

/-- The audit may take the slot that runs now: it is the one to take, and no other instance on the core starts within the 400 µs. -/
def Half.slotTaken (x : Half) (p : Nat) : Bool :=
  match x.auditSlot p with
  | none => false
  | some (w, st) => decide (st ≤ x.vt.toNat) && x.clearOf p fun v => x.holdsOwn p v && decide (v ≠ w)

/-- A core's tiles stop at their boundary with cause 0x1 for the audit placed on it (R247, R283). -/
def Core.yieldSlot (c : Core) : Core := { c with auditDue := true, preemptBy := c.preemptBy.orElse fun _ => c.run.map (·.ctx) }

/-- AUDIT_OVERDUE (R283): a core whose audit a postponement would make overdue. Its audit is placed in its unreserved time or, where that fails, in a SLOT
instance; never in a COMMAND instance. -/
def execAuditOverdue (e : Ev) (p : Nat) (s0 : State) : Host.Outcome State Fault Refusal :=
  let s := tick e s0
  let h := e.half
  let x := s.half h
  let c := x.core p
  let age := x.vt.toNat - c.auditVt
  if !x.clk.computeUp || x.fld F.TLY_AUDIT_CFG_enable = 0 || (x.coreEntry p).2 = 3 || c.auditing || age + x.auditNs / 136 ≤ x.auditNs then .next s
  else
    let s1 := if 2 * x.auditNs < age && !c.overdue then
        ((s.incident h 0x08 p .timeout).upd h fun x => x.inc F.TLY_AUDIT_STAT_overdue).updCore h p fun c => { c with overdue := true }
      else s
    .next (
      if x.audits || x.underSearch p || c.resetting || x.auditPlaced.any (fun q => decide (q ≠ p)) then s1
      else if x.auditStarts p then s1.updCore h p Core.auditStart
      else if x.handsOver p || x.clearOf p (x.holdsOwn p) then s1.updCore h p fun c => { c with auditDue := true }
      else if !x.slotTaken p then s1
      else if x.auditable p then s1.updCore h p Core.auditStart
      else s1.updCore h p Core.yieldSlot)

/-- DUTY_HANDOVER (R281, R303): at an instance boundary the duty passes to the group's free spare, and the audit starts where it finds its time; or the duty returns. -/
def execDutyHandover (e : Ev) (p : Nat) (s0 : State) : Host.Outcome State Fault Refusal :=
  let s := tick e s0
  let h := e.half
  let x := s.half h
  let g := p / 17
  if !x.atBoundary ((x.indexOf p).getD 0xFF) then .next s
  else match (x.core p).retireDue with
  | some block => .next (s.upd h fun x => ((x.fillBuckets s.now).updCore p fun c => { c with retireDue := none }).retireCore p block)
  | none =>
  if x.stoodIn p then
    if x.dutyReturns p then .next (s.upd h fun x => x.stand g 0) else .next s
  else if (x.core p).auditDue && x.handsOver p then
    let s1 := s.upd h fun x => x.stand g (p + 1)
    .next (if (s1.half h).auditStarts p then s1.updCore h p Core.auditStart else s1)
  else .next s

/-! ## Degraded operation (R286, R287) -/

/-- The half that yields on the VT alarm: the one whose servo has lost lock, half 1 when both or neither have (R287). -/
def Half.yieldsOnAlarm (x : Half) (h : Nat) : Bool :=
  let own := x.servoLost
  if own ≠ x.tally.peerServoLost then own else decide (h = 1)

/-- What was detected holds (R286). -/
def State.lost (s : State) (h : Nat) (cause : LossCause) : Bool :=
  let x := s.half h
  let o := s.half (peer h)
  match cause with
  | .goingDown => decide (o.clk.resetKind ≠ 0) || decide (o.clk.phase = 5) || decide (o.clk.phase = 0)
  | .linkLoss => decide (x.fld F.HTC_LINK_state ≠ 2) && decide (x.fld F.HTC_LINK_state ≠ 3)
  | .computeDown => !o.clk.computeUp
  | .vtAlarm => decide (x.fld F.HTC_VT_DIFF_alarm = 1)

/-- DEGRADED_ENTRY (R286, R288). -/
def execDegradedEntry (e : Ev) (cause : LossCause) (s0 : State) : Host.Outcome State Fault Refusal :=
  let s := tick e s0
  let h := e.half
  let x := s.half h
  if !s.lost h cause || !x.clk.ready || x.tally.yielding then .next s
  else match cause with
    | .vtAlarm => if x.yieldsOnAlarm h then .next (s.upd h fun x => { x with tally := { x.tally with yielding := true } }) else .next (s.degrade h)
    | .linkLoss => .next ((s.degrade h).upd h fun x => { x with tally := { x.tally with lossVt := x.tally.lossVt.orElse fun _ => some x.vt.toNat } })
    | _ => .next (s.degrade h)

/-- SERR_HB_CHECK (R287): 3 ms after the detection of a link loss, a line that still toggles makes half 1 yield. -/
def execSerrHbCheck (e : Ev) (toggling : Bool) (s0 : State) : Host.Outcome State Fault Refusal :=
  let s := tick e s0
  let h := e.half
  let x := s.half h
  match x.tally.lossVt with
  | none => .next s
  | some v =>
    if x.vt.toNat < v + 3000000 then .next s
    else .next (s.upd h fun x => { x with tally := { x.tally with lossVt := none, yielding := x.tally.yielding || (toggling && decide (h = 1)) } })

/-- The COMMAND instances of a half stopped: each completes with INTERNAL (R287). -/
def State.stopInstances (s : State) (h : Nat) : State :=
  let runs := (List.range 136).filterMap fun p => match ((s.half h).core p).run with
    | some r => (match r.org with | .entry _ => some (p, r) | .queue _ => none)
    | none => none
  let s1 := runs.foldl (fun t k => (t.zeroUndone h k.1 k.2).finishCore h k.1 k.2 .internal 0) s
  let s2 := match (s1.half h).sieve with
    | some r => (match r.org with | .entry _ => s1.endSieve h r .internal 0 0 | .queue _ => s1)
    | none => s1
  ((s2.half h).win.inst.filter fun i => i.2.open_).foldl (fun t i => t.completeInst h i.1 1 .internal 0) s2

/-- YIELD_HALF (R287): the half stops its instances, writes no further verdict, says GOING_DOWN with reason 0x11 and takes an M. -/
def execYieldHalf (e : Ev) (s0 : State) : Host.Outcome State Fault Refusal :=
  let s := tick e s0
  let h := e.half
  if !(s.half h).tally.yielding || (s.half h).clk.resetKind ≠ 0 then .next s
  else .next ((s.stopInstances h).resetHalf h 2 0x11 true)

end Sys2Proof.Machine
end

