-- ==== Sys2Proof/Machine/Firmware.lean ====
section
/-! DEFINITION. Firmware processors, boot, the service record's store, the soak and vehicle time (R253, R274, R298-R301, R319, R444, R453, R454, R482, R503):
the commands of that family that carry no mailbox message. -/
namespace Sys2Proof.Machine

/-! ## Restarts (R253, R274, R444) -/

/-- Times of the last second with a new one in front. -/
def lastSecond (now : Nat) (l : List Nat) : List Nat := now :: within now 1000000000 l

/-- A dispatch controller that stopped: counted, paused, its stop times kept. -/
def Half.pauseController (x : Half) (d : Nat) (times : List Nat) : Half :=
  let y := (x.inc F.WIN_DISP_STAT_restarts 0 d).setFld F.WIN_DISP_STAT_paused 1 0 d
  { y with disp := { y.disp with restarts := kput (fun _ => []) y.disp.restarts d times } }

/-- DISPATCH_WATCHDOG (R444, R253, R465): the controller restarts; three restarts within 1 s ask for an H. -/
def execDispatchWatchdog (e : Ev) (d : Nat) (s0 : State) : Host.Outcome State Fault Refusal :=
  let s := tick e s0
  let h := e.half
  let x := s.half h
  if !x.clk.computeUp || 4 ≤ d || x.fld F.WIN_DISP_STAT_paused 0 d = 1 then .next s else
  let l := lastSecond x.vt.toNat (kget (fun _ => []) x.disp.restarts d)
  let three := decide (3 ≤ l.length)
  let s1 := s.upd h fun x => x.pauseController d (if three then [] else l)
  if three then .next (s1.askRestart h 1 0x0C) else .next (s1.componentStop h 2)

/-- The row conditions of a controller's queues are evaluated again (R253). -/
def Half.condsAfresh (x : Half) (d : Nat) : Half :=
  { x with disp := { x.disp with queues := kmapV (fun _ => Queue.disabled) x.disp.queues fun u k =>
      if u / 2048 = d then { k with cond := k.cond.map CondRt.afresh } else k } }

/-- DISPATCH_RESTART_DONE (R253, R446): remote WAITs of the controller's queues are rewound; dispatch resumes from the hardware registers. -/
def execDispatchRestartDone (e : Ev) (d : Nat) (s0 : State) : Host.Outcome State Fault Refusal :=
  let s := tick e s0
  let h := e.half
  if (s.half h).fld F.WIN_DISP_STAT_paused 0 d = 0 then .next s
  else .next (((s.reloadCopy h 2).upd h fun x => (x.setFld F.WIN_DISP_STAT_paused 0 0 d).condsAfresh d).rewindAll h fun q => decide (qIdx q / 2048 = d))

/-- LOCKSTEP_MISMATCH (R274, R444, R465): the Gatehouse controller resets; three resets within 1 s are an M, by hardware. -/
def execLockstepMismatch (e : Ev) (s0 : State) : Host.Outcome State Fault Refusal :=
  let s := tick e s0
  let h := e.half
  let x := s.half h
  if !x.clk.rimUp || !x.clk.ready || x.tally.ghReset then .next s else
  let l := lastSecond x.vt.toNat x.tally.ghResets
  let three := decide (3 ≤ l.length)
  let s1 := s.upd h fun x =>
    ({ x with tally := { x.tally with ghReset := true, ghResets := if three then [] else l } } : Half).inc F.SVC_FW_CRASH_gatehouse
  if three then .next (s1.resetHalf h 2 0x0C false) else .next (s1.componentStop h 3)

/-- The search of a task starts again from its first step in the copy of half `h` (R274). -/
def State.restartSearch (s : State) (h t : Nat) : State :=
    let k := (s.half h).task t
    if (s.half h).taskState t ≠ 3 then s else
    let s1 := match k.stand with
      | some p => s.upd h fun x => x.stand (p / 17) 0
      | none => s
    let s2 := s1.upd h fun x => x.updTask t fun k => { k with stand := none, unlocated := [], held := none }
    let c (n : Nat) : Bool := k.unlocated.contains n || k.search.any fun q => q.1 = n
    s2.enterLocating h t (c 0) (c 1)

/-- A task after the reset of the Gatehouse controller: a held change proceeds, a LOCATING starts again from its first step, in the other Gatehouse's copy too
(R274). -/
def State.afterGhReset (s : State) (h t : Nat) : State :=
  let st := (s.half h).taskState t
  let both := s.tallyLink h && !(s.half h).degraded && !(s.half (peer h)).degraded
  match ((s.half h).task t).held with
  | some r =>
    let s1 := s.upd h fun x => x.updTask t fun k => { k with held := none }
    if st = 2 || (st = 1 && (r.1 || r.2)) then
      let s2 := s1.enterLocating h t r.1 r.2
      if both then s2.restartSearch (peer h) t else s2
    else if both then (s1.restartSearch h t).restartSearch (peer h) t else s1.restartSearch h t
  | none => if both then (s.restartSearch h t).restartSearch (peer h) t else s.restartSearch h t

/-- GATEHOUSE_RESET_DONE (R274, R489). -/
def execGatehouseResetDone (e : Ev) (s0 : State) : Host.Outcome State Fault Refusal :=
  let s := tick e s0
  let h := e.half
  let x := s.half h
  if !x.tally.ghReset then .next s else
  let s1 := s.upd h fun x => { x with tally := { x.tally with ghReset := false } }
  .next (((x.tally.tasks.map (·.1)).foldl (fun t k => t.afterGhReset h k) s1).runWaiting h)

/-! ## Boot (R300, R453, R454, R482) -/

/-- The half is held out of service (R300, R482): its rim runs, it takes no critical duty, its SERR_N is low. -/
def Half.hold (x : Half) : Half :=
  { x with clk := { x.clk with held := true, serrN := false }, ports := { x.ports with stage := 3 } }

/-- BOOT_SLOT_FAILURE (R453): the boot ROM finds the slot that it starts not valid after all; the other one is tried. -/
def execBootSlotFailure (e : Ev) (slot : Nat) (s0 : State) : Host.Outcome State Fault Refusal :=
  let s := tick e s0
  let h := e.half
  let x := s.half h
  if !x.clk.rimUp || x.ports.stage ≠ 1 || slot ≠ x.fld F.SVC_FW_STAT_active_slot then .next s else
  .next (s.tryOther h slot)

/-- The UDS reconstructed: the debug state its keys follow, the challenge, and an accepted lifecycle record in force (R482, R484). -/
def Half.pufDone (x : Half) (challenge : Nat) : Half :=
  let y : Half := { x with vaults := { x.vaults with
    pufOk := true, keyDebug := decide (x.fld F.SVC_LIFECYCLE_debug = 1), challenge := challenge
    lifecycle := if x.vaults.accepted = [] then x.vaults.lifecycle else x.vaults.accepted, accepted := [] } }
  (y.setFld F.SVC_LIFECYCLE_state (y.vaults.lifecycle.getD 4 0).toNat).setFld F.SVC_LIFECYCLE_counter y.vaults.rpmb

/-- PUF_RECONSTRUCTION (R482, R483, R485, R488): the device secret and the keys, an accepted lifecycle record takes force, and at a P the debug port shows a
new challenge; on failure the half is held. -/
def execPufReconstruction (e : Ev) (ok : Bool) (s0 : State) : Host.Outcome State Fault Refusal :=
  let s := tick e s0
  let h := e.half
  let x := s.half h
  if !x.clk.rimUp || x.vaults.pufOk || x.clk.resetKind < 2 then .next s
  else if ok then
    let d := s.draw
    if x.clk.resetKind = 4 then .next (d.2.upd h fun x => x.pufDone (d.1 % 2 ^ 256))
    else .next (s.upd h fun x => x.pufDone x.vaults.challenge)
  else .next ((s.upd h Half.hold).incident h 0x11 0 .authFail)

/-- TRIAL_BOOT_CONFIRM (R453). -/
def execTrialBootConfirm (e : Ev) (s0 : State) : Host.Outcome State Fault Refusal :=
  let s := tick e s0
  let h := e.half
  let x := s.half h
  if !x.clk.ready || x.fld F.SVC_FW_STAT_trial = 0 then .next s
  else .next (s.upd h fun x =>
    ({ x with fw := { x.fw with activeSlot := x.fw.trialSlot, attempts := 0 } } : Half).setFld F.SVC_FW_STAT_trial 0)

/-- CONFIG_STORE_APPLY (R454, R452, R503, R507): after an M, K or P every item whose CRC holds is applied, and the Mint's effective guarantees follow. Where the other half is not degraded, the half needs no
rejoin and runs its bank from the next frame start. -/
def execConfigStoreApply (e : Ev) (bad : List Nat) (s0 : State) : Host.Outcome State Fault Refusal :=
  let s := tick e s0
  let h := e.half
  let x := s.half h
  if !x.clk.ready || !x.fw.confDue || x.fw.stewardDown then .next s else
  let s1 := (((s.applyConf h bad).upd h fun x => ({ x with fw := { x.fw with confDue := false } } : Half).effective).reconcile h 0x05)
  if (s.half (peer h)).degraded || (s1.half h).clk.resetKind ≠ 0 then .next s1
  else .next ((s1.upd h fun x =>
    let y : Half := { x with clk := { x.clk with phase := 3 } }
    if x.fld F.WIN_CTL_enable = 1 then
      ({ y with win := { y.win with enableAt := some x.vt.toNat } } : Half).setFld F.CLK_VT_STAT_held 1
    else y).serr h |>.runRestart h |>.runRestart (peer h))

/-! ## The service record's store (R298-R301, R308) -/

/-- At a rim start pending pseudo-channel retirements take effect (R308). -/
def Half.applyPending (x : Half) : Half :=
  if x.svc.record.pcPending = 0 then x
  else (x.setRecord fun r => { r with pcRetired := r.pcRetired ||| r.pcPending, pcPending := 0 }).writeRecord

/-- The words that the remap tables show as lost (R307). -/
def Half.markLost (x : Half) : Half :=
  let keys := x.svc.record.remap.flatMap fun s => (s.2.filter fun e => e.1 < 2 ^ 40).flatMap fun e =>
    ((List.range 32).filter fun i => bits e.2 i 1 = 1).filterMap fun i => x.rowWord e.1 i
  { x with mint := { x.mint with dramBad := keys.foldl (fun m k => kput (fun _ => false) m k true) [] } }

/-- The valid record of a slot loaded and applied; a retirement that became pending before an M counts, written or not (R310); the boot goes on (R300, R452). -/
def Half.loadRecord (x : Half) (slot : Nat) : Half :=
  let y := ((x.setFld F.SVC_REC_STAT_generation x.svc.rpmbGen).setFld F.SVC_REC_STAT_slot slot).setRecord fun r => { x.svc.saved with pcPending := x.svc.saved.pcPending ||| r.pcPending }
  ({ y with ports := { y.ports with stage := 2 } } : Half).applyPending.syncRecord.markLost

/-- A record format that the running release reads: its own and the one before it (R316). -/
def Half.readsFormat (x : Half) (f : Nat) : Bool := decide (f ≤ x.fld F.SVC_FW_STAT_release) && decide (x.fld F.SVC_FW_STAT_release ≤ f + 1)

/-- Slot `i` holds the record in force and it is valid (R298, R300): `ok` says that the bytes read back bear magic, length, half, device id and both signatures. -/
def Half.recordOk (x : Half) (i : Nat) (ok : Bool) : Bool :=
  ok && decide (kget (fun _ => 0) x.svc.slotGen i = x.svc.rpmbGen) && x.readsFormat x.svc.savedFormat

/-- SERVICE_RECORD_LOAD (R300): the valid record in force is loaded and applied, or the compute domain is held. -/
def execServiceRecordLoad (e : Ev) (ok0 ok1 : Bool) (s0 : State) : Host.Outcome State Fault Refusal :=
  let s := tick e s0
  let h := e.half
  let x := s.half h
  if !x.clk.rimUp || x.ports.stage ≠ 1 then .next s else
  if x.recordOk 0 ok0 || x.recordOk 1 ok1 then
    .next (s.upd h fun y => y.loadRecord (if x.recordOk 0 ok0 then 0 else 1))
  else .next ((s.upd h fun x => (x.setRecord fun r => { SvcRecord.shipped with pcPending := r.pcPending }).hold.setFld F.SVC_REC_STAT_held 1).incident h 0x0E 0 .authFail)

/-- A rebuilt record in force ends the hold of R300; another cause of a hold keeps it (R287, R316, R482). -/
def Half.rebuilt (x : Half) : Half :=
  let y := x.setFld F.SVC_REC_STAT_held 0
  if !x.vaults.pufOk || x.fld F.HTC_LINK_state = 4 || (x.fld F.CLK_RESET_CAUSE_cause = 0x11 && x.fld F.HTC_LINK_state = 0) then y
  else { y with clk := { y.clk with held := false }, ports := { y.ports with stage := 2 } }

/-- The slot that does not hold the generation in force (R299); where both may hold it, the one that was not loaded. -/
def Half.freeSlot (x : Half) : Nat :=
  let holds (i : Nat) : Bool := decide (kget (fun _ => 0) x.svc.slotGen i = x.svc.rpmbGen)
  if holds 0 && holds 1 then 1 - x.fld F.SVC_REC_STAT_slot else if holds 0 then 1 else 0

/-- A verified record write: the other slot holds the next generation, the RPMB counter follows, a changed record starts its own write (R299). -/
def Half.recordDone (x : Half) (r : SvcRecord) : Half :=
  let g := (x.svc.rpmbGen + 1) % 2 ^ 32
  let slot := x.freeSlot
  let y : Half := { x with svc := { x.svc with
    savedVt := x.vt.toNat, savedHours := x.hours, savedRelease := x.fld F.SVC_FW_STAT_release, savedFormat := x.fw.rollback
    saved := r, rpmbGen := g, slotGen := kput (fun _ => 0) x.svc.slotGen slot g
    writing := if x.svc.waiting then some x.svc.record else none, waiting := false } }
  let z := ((y.setFld F.SVC_REC_STAT_generation g).setFld F.SVC_REC_STAT_slot slot).syncRecord
  if z.fld F.SVC_REC_STAT_held = 0 then z else z.rebuilt

/-- SERVICE_RECORD_WRITE_DONE (R299, R301): the written slot is read back; if it verifies, its generation is in force, else the write is counted as failed
and starts again. Repairs that waited make the next generation. -/
def execServiceRecordWriteDone (e : Ev) (ok : Bool) (s0 : State) : Host.Outcome State Fault Refusal :=
  let s := tick e s0
  let h := e.half
  let x := s.half h
  if !x.clk.rimUp || x.fw.stewardDown then .next s else
  match x.svc.writing with
  | none => .next s
  | some r =>
    if !ok then .next (s.upd h fun x => x.inc F.SVC_REC_STAT_write_fail)
    else .next (s.upd h fun x => x.recordDone r)

/-- SOAK_TIMER (R319): from 72 h on, each further 24 h writes an incident record with the soak hours. -/
def execSoakTimer (e : Ev) (s0 : State) : Host.Outcome State Fault Refusal :=
  let s := tick e s0
  let h := e.half
  let x := s.half h
  match x.svc.soakVt with
  | none => .next s
  | some v =>
    let hours := (x.vt.toNat - v) / 3600000000000
    if hours < 72 + 24 * (x.svc.soakMarks + 1) then .next s
    else .next ((s.upd h fun x => { x with svc := { x.svc with soakMarks := x.svc.soakMarks + 1 } }).incident h 0x0E 0 .ok hours)

/-! ## Vehicle time (R503) -/

/-- Bits of a signed 64-bit value. -/
def int64 (v : Int) : Nat := (v % 2 ^ 64).toNat

/-- A rate trim in ppb, within ±500 ppm. -/
def clampPpb (p : Int) : Int := if p < -500000 then -500000 else if 500000 < p then 500000 else p

def Half.setRate (x : Half) (p : Int) (locked : Nat) : Half :=
  let c := clampPpb p
  (x.setFld F.CLK_VT_STAT_rate_ppb ((c % 2 ^ 32).toNat)).setFld F.CLK_VT_STAT_servo (if c = 500000 || c = -500000 then 3 else locked)

/-- Whether the window sequencer of either half has been enabled, or VT stepped, since the last P or K. -/
def State.vtFixed (s : State) : Bool :=
  let f (x : Half) : Bool := decide (x.fld F.CLK_VT_STAT_held = 1) || decide (x.fld F.CLK_VT_STAT_stepped = 1)
  f s.h0 || f s.h1

/-- The servo locked to a grandmaster. -/
def Half.lockVt (y : Half) (gm : Nat) : Half := { y.setFld F.CLK_VT_STAT_servo 1 with clk := { y.clk with grandmaster := gm } }

/-- VT stepped to the grandmaster's time, once (R503). -/
def Half.stepVt (y : Half) (gm : Nat) : Half :=
  let z := (y.setFld F.CLK_VT_STAT_stepped 1).setFld F.CLK_VT_OFFSET_theta_ns 0
  { z with vt := BitVec.ofNat 64 gm, clk := { z.clk with theta := 0, frac := 0 } }

/-- VT_SERVO_STEP (R503, R287): lock to a grandmaster whose time now is `gm`, a rate trim, or the loss of the grandmaster. Half 0's first lock before the
sequencers are enabled steps its VT, and half 1 takes it over the Hatch. A retired port serves no servo (R309). -/
def execVtServoStep (e : Ev) (ev : ServoEv) (s0 : State) : Host.Outcome State Fault Refusal :=
  let s := tick e s0
  let h := e.half
  let x := s.half h
  if !x.clk.rimUp || x.svc.record.portRetired then .next s else
  match ev with
  | .lock gm =>
    let tell (t : State) : State := t.hatchSend h 0x44 [5, 0]
    if h = 0 && !s.vtFixed then
      let s1 := s.upd 0 fun y => (y.stepVt gm).lockVt gm
      .next (tell (if s.h0.linkUp && s.h1.clk.rimUp then s1.upd 1 fun y => y.stepVt gm else s1))
    else
      let th : Int := (gm : Int) - (x.vt.toNat : Int)
      .next (tell (s.upd h fun y =>
        let z : Half := { y with clk := { y.clk with theta := th } }
        (if y.fld F.CLK_VT_STAT_held = 1 then z else z.setFld F.CLK_VT_OFFSET_theta_ns (int64 th)).lockVt gm))
  | .rate ppb =>
    if x.fld F.CLK_VT_STAT_servo = 0 || x.fld F.CLK_VT_STAT_servo = 2 then .next s else .next (s.upd h fun y => y.setRate ppb 1)
  | .lost =>
    if x.fld F.CLK_VT_STAT_servo = 0 || x.fld F.CLK_VT_STAT_servo = 2 then .next s
    else .next ((s.upd h fun y => y.setFld F.CLK_VT_STAT_servo 2).hatchSend h 0x44 [5, 1])

/-- VT_DEVIATION_INCIDENT (R503): a deviation above 1 ms is slewed at the full rate and recorded once per 100 ms. -/
def execVtDeviationIncident (e : Ev) (devNs : Int) (s0 : State) : Host.Outcome State Fault Refusal :=
  let s := tick e s0
  let h := e.half
  let x := s.half h
  if !x.clk.rimUp || (-1000000 ≤ devNs && devNs ≤ 1000000) || (x.clk.devVt ≠ 0 && x.vt.toNat + 1 < x.clk.devVt + 100000000) then .next s else
  let s1 := s.upd h fun y =>
    ({ y with clk := { y.clk with devVt := y.vt.toNat + 1 } } : Half).setRate (if devNs < 0 then -500000 else 500000) 3
  .next (s1.incident h 0x12 0 .timeout ((devNs / 1000) % 2 ^ 32).toNat)

end Sys2Proof.Machine
end

