-- ==== Sys2Proof/Machine/PortOps.lean ====
section
/-! DEFINITION. Shared operations of the control ports and the Teller pages (R376-R386, R392-R402): what a frame meets on arrival, its sequence, the
Teller's registers by offset, and what the end of a Latch lease discards. -/
namespace Sys2Proof.Machine

/-! ## The end of a lease (R386) -/

/-- A half's configuration that was written and neither committed nor activated. -/
def Half.discard (x : Half) : Half :=
  let w := if !x.win.written then x.win
    else if x.fld F.WIN_CTL_active_bank = 0 then { x.win with bank1 := [], written := false } else { x.win with bank0 := [], written := false }
  let y : Half := { x with win := w, mint := { x.mint with shadow := [] } }
  if x.fw.wrote && decide (x.fld F.SVC_FW_ACT_deferred = 0) then
    let f : Firmware := if x.otherSlot = 0 then { x.fw with slot0 := [], wrote := false, shipped := x.fw.shipped.erase 0 } else { x.fw with slot1 := [], wrote := false, shipped := x.fw.shipped.erase 1 }
    ({ y with fw := f } : Half).unstage
  else y

/-- The Latch is free; what its holder left uncommitted is gone in both halves. -/
def State.freeLatch (s : State) : State :=
  { s with latch := { s.latch with holder := none }, h0 := s.h0.discard, h1 := s.h1.discard }

/-- An expired lease ends. -/
def State.endLease (s : State) : State := if s.latch.holder.isSome && !s.latchLive then s.freeLatch else s

/-- Whole ms that a lease still runs, rounded up. -/
def State.leaseMs (s : State) : Nat := if s.latchLive then (s.latch.expires - s.now + 999999) / 1000000 else 0

/-! ## What messages share -/

/-- State of a half in a heartbeat (R383): PARK shows both DOWN. -/
def State.beatState (s : State) (h : Nat) : Nat := if s.power = 2 || !(s.half h).clk.rimUp && (s.half h).clk.phase ≠ 5 then 0 else (s.half h).clk.phase

/-- A window transfer from a Teller's src that met a detected error is counted, and recorded with the VDI as unit (R138, R407). -/
def State.srcFail (s : State) (h : Nat) (m : Msg) (src n : Nat) (st : Status) : State :=
  match m.org, st with
  | .teller v, .dataError => (s.strErrs src n).incident h 0x0D v .dataError
  | _, _ => s

/-- The effect of a message on the bytes its src names, or the refusal. -/
def State.withSrc (s : State) (h : Nat) (m : Msg) (src n : Nat) (f : List Byte → State × Status × Nat) : State × Status × Nat :=
  match s.srcBytes h m src n with
  | (.ok, l) => f l
  | (st, _) => (s.srcFail h m src n st, st, 0)

/-- The bytes of a message's answer written to its dst, with the reply payload. -/
def State.withDst (s : State) (h : Nat) (m : Msg) (dst : Nat) (l : List Byte) (pay : Nat) : State × Status × Nat :=
  match s.dstBytes h m dst l with
  | (.ok, t) => (t, .ok, pay)
  | (st, t) => (t, st, 0)

/-- A context ID lies in the range and table of a VDI (R241, R408). -/
def Vdi.ownsCtx (x : Vdi) (c : Nat) : Bool :=
  decide (c < 2 ^ 20) && decide (bits c 19 1 = x.profile) && decide (vCFirst x.cfg ≤ bits c 0 19) && decide (bits c 0 19 < vCFirst x.cfg + vCCount x.cfg)

/-- A package queue ID lies in the range of a VDI (R404, R408). -/
def Vdi.ownsQueue (x : Vdi) (q : Nat) : Bool :=
  decide (q < 16384) && decide (q / 8192 = x.half) && decide (vQFirst x.cfg ≤ q % 8192) && decide (q % 8192 < vQFirst x.cfg + vQCount x.cfg)

/-! ## Sessions (R380, R381) -/

/-- TEL_PORT_STAT.sessions follows the open sessions. -/
def Half.syncSessions (x : Half) : Half := x.setFld F.TEL_PORT_STAT_sessions x.ports.sessions.length

/-- Messages under way of a session of port `g` that is reset or closed complete, and their replies go nowhere (R380): no partner has their origin. -/
def State.orphan (s : State) (g p : Nat) : State :=
  let away (o : Origin) : Origin := if o = .session p then .session (2 ^ 32 + p) else o
  let one (x : Half) : Half := { x with
    disp := { x.disp with leaving := x.disp.leaving.map fun l => { l with msg := { l.msg with org := away l.msg.org } } }
    str := { x.str with waits := x.str.waits.map fun a => { a with msg := { a.msg with org := away a.msg.org } } } }
  [0, 1].foldl (fun t h => if s.portOf h = g then t.upd h one else t) s

/-- A session closed: its waiting messages and stored answers go with it. -/
def Half.closeSession (x : Half) (p : Nat) : Half := (x.setSession p none).syncSessions

/-- A frame sent outside the sequence, with seq 0; NAKs are counted (R381, R401). -/
def State.sendOut (s : State) (g p type : Nat) (st : Status) : State :=
  let ack := match (s.half g).session p with | some k => (k.expect + 2 ^ 32 - 1) % 2 ^ 32 | none => 0
  let s1 := if type = 0x05 then s.upd g fun x => x.inc F.TEL_PORT_STAT_nak else s
  s1.emit (.frame g p 0 ack type st.code false [])

/-- E increased by one: the frame is processed (R381). -/
def State.taken (s : State) (g p : Nat) : State :=
  s.upd g fun x => match x.session p with
    | some k => x.setSession p (some { k with expect := (k.expect + 1) % 2 ^ 32 })
    | none => x

/-- A frame that is processed and answered at once. -/
def State.takeAnswer (s : State) (g : Nat) (hd : FrameHdr) (type : Nat) (st : Status) (data : List Nat) : State :=
  (s.taken g hd.partner).answer g hd.partner hd.seq type st (decide (hd.half ≠ g)) data

/-- A frame of a session arrived: the idle time starts anew and the answers it acknowledges are forgotten. -/
def State.touched (s : State) (g : Nat) (hd : FrameHdr) (k : Session) : State :=
  s.upd g fun x => x.setSession hd.partner (some { k with lastVt := s.now, answers := k.answers.filter fun a => seqLater (outSeq a.2) hd.ack })

/-- A frame for the other half has no way to it: the Hatch does not carry it, or that half's rim is down (R30, R376; log entry 182). -/
def State.relayCut (s : State) (g t : Nat) : Bool := decide (t ≠ g) && !((s.half g).linkUp && (s.half t).clk.rimUp)

/-- The sequence rule of a session frame (R376, R380, R381): `f` processes the frame that is expected next and names a half that this port serves. -/
def State.inSeq (s : State) (g : Nat) (hd : FrameHdr) (f : State → State) : State :=
  let p := hd.partner
  match (s.half g).session p with
  | none => s.sendOut g p 0x05 .badArg
  | some k =>
    let kept := k.answers.filter fun a => seqLater (outSeq a.2) hd.ack
    let s1 := s.touched g hd k
    let d := (k.expect + 2 ^ 32 - hd.seq % 2 ^ 32) % 2 ^ 32
    if d = 0 then
      (if s.portOf hd.half ≠ g then s1.takeAnswer g hd 0x05 .badArg []
      else if s.relayCut g hd.half then s1.takeAnswer g hd 0x05 .timeout [] else f s1)
    else if d ≤ 2 ^ 31 then
      (match kept.find? fun a => a.1 = hd.seq with
      | some a => s1.emit a.2
      | none => s1.sendOut g p 0x04 .ok)
    else s1.sendOut g p 0x05 .badArg

/-! ## Teller pages (R393-R395) -/

/-- The register, element and word at an offset of a Teller page. -/
def tellerReg (off : Nat) : Option (Reg × Nat × Nat) :=
  if off % 8 ≠ 0 then none
  else if off = 0x00 then some (.TEL_ID, 0, 0)
  else if off = 0x08 then some (.TEL_GEN, 0, 0)
  else if off = 0x10 then some (.TEL_STATE, 0, 0)
  else if off = 0x18 then some (.TEL_NOTICE, 0, 0)
  else if off = 0x20 then some (.TEL_NOTICE_EN, 0, 0)
  else if off = 0x28 then some (.TEL_NOTICE_DETAIL, 0, 0)
  else if 0x40 ≤ off && off < 0x80 then some (.TEL_MBX_REQ, 0, (off - 0x40) / 8)
  else if off = 0x80 then some (.TEL_MBX_GO, 0, 0)
  else if off = 0x88 then some (.TEL_MBX_STAT, 0, 0)
  else if 0xC0 ≤ off && off < 0x100 then some (.TEL_MBX_REPLY, 0, (off - 0xC0) / 8)
  else if 0x100 ≤ off && off < 0x180 then some (.TEL_DMA_WIN, (off - 0x100) / 16, off % 16 / 8)
  else none

/-- A page that no VDI owns, or an offset without a register, reads 0. -/
def State.tellerRead (s : State) (v off : Nat) : Nat :=
  if !(s.vdi v).exists_ then 0 else
  match tellerReg off with
  | some (r, i, w) => (s.half (s.hostOf v)).readWord r v i w
  | none => 0

/-- The request of a Teller sent: ignored and counted while one executes (R395). -/
def State.tellerGo (s : State) (v : Nat) : State :=
  if !(s.vdi v).exists_ then s else
  s.upd (s.hostOf v) fun x =>
    if x.fld F.TEL_MBX_STAT_busy v = 1 then x.inc F.TEL_PORT_STAT_teller_busy
    else
      let y : Half := { x with ports := { x.ports with tellerMsg := kput (fun _ => 0) x.ports.tellerMsg v (x.elem .TEL_MBX_REQ v + 1) } }
      y.setFld F.TEL_MBX_STAT_busy 1 v

/-- A write of a Teller register; a page that no VDI owns ignores it. -/
def State.tellerWrite (s : State) (v off val : Nat) : State :=
  if !(s.vdi v).exists_ then s else
  match tellerReg off with
  | some (.TEL_MBX_REQ, _, w) => s.upd (s.hostOf v) fun x => x.setWord .TEL_MBX_REQ v 0 w val
  | some (.TEL_MBX_GO, _, _) => if val % 2 = 1 then s.tellerGo v else s
  | some (r, i, w) => s.upd (s.hostOf v) fun x => x.writeWord r v i w val
  | none => s

/-! ## What each frame does when its turn comes (R379, R380, R389, R398, R399) -/

/-- HELLO with seq 0 opens or resets a session; with another seq it opens nothing. -/
def State.onHello (s : State) (g p seq pid : Nat) : State :=
  let x := s.half g
  if seq ≠ 0 then s.inSeq g { partner := p, seq := seq, ack := 0, half := g } fun t =>
    t.takeAnswer g { partner := p, seq := seq, ack := 0, half := g } 0x05 .badArg []
  else if (x.session p).isNone && 8 ≤ x.ports.sessions.length then s.sendOut g p 0x05 .noSpace
  else
    let k : Session := { pid := pid, expect := 1, devSeq := 0, answers := [], queued := [], replies := [], lastVt := s.now, staging := [] }
    ((s.orphan g p).upd g fun x => (x.setSession p (some k)).syncSessions).answer g p 0 0x04 .ok false []

/-- Messages that wait behind those of the session. -/
def Half.enqueue (x : Half) (p : Nat) (l : List Waiting) : Half := match x.session p with
  | some k => x.setSession p (some { k with queued := k.queued ++ l })
  | none => x

/-- MAILBOX: 1 to 16 messages, and at most 64 of a session without a reply. -/
def State.onMailbox (s : State) (g arrived : Nat) (hd : FrameHdr) (msgs : List MsgHead) : State :=
  s.inSeq g hd fun t =>
    if msgs = [] || 16 < msgs.length then t.takeAnswer g hd 0x05 .badArg []
    else match (t.half g).session hd.partner with
      | none => t
      | some k =>
        if 64 < k.queued.length + msgs.length then t.sendOut g hd.partner 0x05 .noSpace
        else
          let new := msgs.map fun q => ({ fs := hd.seq, since := arrived, half := hd.half, hd := q } : Waiting)
          (t.taken g hd.partner).upd g fun x => x.enqueue hd.partner new

/-- The refusal of an access from a control port to the Teller page of VDI `v`: ring mode, the Latch, the count, and a page of the other half that the frame's
half does not reach (R30, R393). -/
def State.regRefusal (s : State) (g : Nat) (hd : FrameHdr) (v n : Nat) : Option Status :=
  let m : Msg := { org := .session hd.partner, tag := 0, gen := 0, vdi := 0 }
  if (s.half hd.half).ports.stage ≠ 4 || (s.half g).ports.stage ≠ 4 then some .badArg
  else if !s.holds hd.half m then some .latchHeld
  else if n = 0 then some .empty
  else if 128 < n then some .badArg
  else if (s.vdi v).exists_ && s.relayCut hd.half (s.hostOf v) then some .timeout
  else none

def State.onRegRead (s : State) (g : Nat) (hd : FrameHdr) (v off n : Nat) : State :=
  s.inSeq g hd fun t => match t.regRefusal g hd v n with
    | some st => t.takeAnswer g hd 0x05 st []
    | none => t.takeAnswer g hd 0x0A .ok ((List.range n).map fun k => t.tellerRead v (off + 8 * k))

def State.onRegWrite (s : State) (g : Nat) (hd : FrameHdr) (v off : Nat) (vals : List Nat) : State :=
  s.inSeq g hd fun t => match t.regRefusal g hd v vals.length with
    | some st => t.takeAnswer g hd 0x05 st []
    | none => ((List.range vals.length).foldl (fun u k => u.tellerWrite v (off + 8 * k) (vals.getD k 0)) t).takeAnswer g hd 0x04 .ok []

/-- The refusal of an extent of the session's staging. -/
def stagingRefusal (off n : Nat) : Option Status :=
  if n = 0 then some .empty else if 1016 < n then some .badArg else if stagingSize < off + n then some .outOfRange else none

/-- Bytes written into a session's staging. -/
def Half.stageData (x : Half) (p off : Nat) (data : List Byte) : Half := match x.session p with
  | some k => x.setSession p (some { k with staging := cellsWrite k.staging off data })
  | none => x

def State.onDataWrite (s : State) (g : Nat) (hd : FrameHdr) (off : Nat) (data : List Byte) : State :=
  s.inSeq g hd fun t => match stagingRefusal off data.length with
    | some st => t.takeAnswer g hd 0x05 st []
    | none => (t.upd g fun x => x.stageData hd.partner off data).takeAnswer g hd 0x04 .ok []

/-- Bytes of a session's staging. -/
def Half.stagedData (x : Half) (p off n : Nat) : List Nat := match x.session p with
  | some k => (cellsRead k.staging off n).map (·.toNat)
  | none => []

def State.onDataRead (s : State) (g : Nat) (hd : FrameHdr) (off n : Nat) : State :=
  s.inSeq g hd fun t => match stagingRefusal off n with
    | some st => t.takeAnswer g hd 0x05 st []
    | none => t.takeAnswer g hd 0x0D .ok ((t.half g).stagedData hd.partner off n)

/-- Request slots written by index, those executed or executing left alone; req_tail advances (R399). -/
def Ring.request (r : Ring) (index : Nat) (slots : List Nat) : Ring :=
  let ahead (i : Nat) : Nat := (i + 2 ^ 32 - r.reqHead) % 2 ^ 32
  let r1 := (List.range slots.length).foldl (fun (r : Ring) k =>
    let a := ahead ((index + k) % 2 ^ 32)
    if 128 ≤ a || (a = 0 && r.reqHead ≠ r.reqTail) then r
    else { r with slots := kput (fun _ => 0) r.slots ((index + k) % 128) (slots.getD k 0 % 2 ^ 512) }) r
  let stop := (index + slots.length) % 2 ^ 32
  if ahead stop ≤ 128 && ahead r.reqTail < ahead stop then { r1 with reqTail := stop } else r1

/-- Reply slots that software has not taken: at most `n`, from rep_head. -/
def Ring.unread (r : Ring) (n : Nat) : List Nat :=
  (List.range (Nat.min n ((r.repTail + 2 ^ 32 - r.repHead) % 2 ^ 32))).map fun k => kget (fun _ => 0) r.replies ((r.repHead + k) % 128)

/-- rep_head moves on and waiting replies take the room (R397). -/
def Ring.setRepHead (r : Ring) (head : Nat) : Ring :=
  if (r.repTail + 2 ^ 32 - head % 2 ^ 32) % 2 ^ 32 ≤ (r.repTail + 2 ^ 32 - r.repHead) % 2 ^ 32 then
    r.waiting.foldl (fun q w => q.pushReply w) { r with repHead := head % 2 ^ 32, waiting := [] }
  else r

/-- RING: slots of pair 0 of the half named, answered with the replies that wait there. -/
def State.onRing (s : State) (g : Nat) (hd : FrameHdr) (index : Nat) (slots : List Nat) : State :=
  s.inSeq g hd fun t =>
    if slots = [] then t.takeAnswer g hd 0x05 .empty []
    else if 15 < slots.length then t.takeAnswer g hd 0x05 .badArg []
    else
      let r := ((t.half hd.half).ring 0).request index slots
      let l := r.unread 15
      (t.upd hd.half fun x => x.setRing 0 (r.setRepHead (r.repHead + l.length))).takeAnswer g hd 0x0E .ok (r.repHead :: l.length :: l)

/-! ## Arrival (R377, R382, R393, R444) -/

/-- A vehicle-bound part accepts only frames within a secure association (R377). -/
def State.insecure (s : State) (g p : Nat) : Bool :=
  decide ((s.half g).fld F.SVC_LIFECYCLE_state = 1) && !s.es && !kget (fun _ => false) (s.half g).ports.macsec p

/-- The port receives: its rim runs and it is not retired. -/
def Half.portUp (x : Half) : Bool := x.clk.rimUp && !x.svc.record.portRetired

/-- A frame is dropped on arrival: the port is down or its partner's drop period runs. -/
def State.deaf (s : State) (g p : Nat) : Bool :=
  !(s.half g).portUp || (match kget (fun _ => 0) (s.half g).ports.blocked p with | 0 => false | t + 1 => decide (s.now < t))

/-- A Teller access, which the fabric holds while the steward restarts (R393); all else in the receive queue is frames. -/
def isTeller : Instr → Bool
  | .telMbxGo _ _ => true
  | .registerWrite _ _ _ _ _ _ _ => true
  | _ => false

/-- What waits for the restarted steward runs as it arrived. -/
def State.onFrame (s : State) (g arrived : Nat) (i : Instr) : State :=
  match i with
  | .hello _ p seq pid => s.onHello g p seq pid
  | .mailbox _ hd msgs => s.onMailbox g arrived hd msgs
  | .regRead _ hd v off n => s.onRegRead g hd v off n
  | .regWrite _ hd v off vals => s.onRegWrite g hd v off vals
  | .dataWrite _ hd off data => s.onDataWrite g hd off data
  | .dataRead _ hd off n => s.onDataRead g hd off n
  | .ringFrame _ hd index slots => s.onRing g hd index slots
  | .telMbxGo _ v => s.tellerGo v
  | .registerWrite _ _ .TEL_MBX_REQ v _ w val => s.tellerWrite v (0x40 + 8 * w) val
  | .registerWrite _ _ r v i w val => s.upd (s.hostOf v) fun x => x.writeWord r v i w val
  | _ => s

/-- A frame on port `g`: dropped, counted as insecure, queued while the steward restarts, or handled. -/
def State.receive (s : State) (g p : Nat) (i : Instr) : State :=
  let x := s.half g
  if s.deaf g p then s
  else if s.insecure g p then s.upd g fun x => x.inc F.TEL_PORT_STAT_insecure
  else if x.fw.stewardDown then
    (if (x.ports.rxq.filter fun r => !isTeller r.2).length < 256 then
      s.upd g fun x => { x with ports := { x.ports with rxq := x.ports.rxq ++ [(s.now, i)] } }
    else s)
  else s.onFrame g s.now i

/-- A Teller access: held while the hosting half's steward restarts. -/
def State.tellerAccess (s : State) (v : Nat) (i : Instr) : State :=
  let h := s.hostOf v
  if !(s.vdi v).exists_ || !(s.half h).clk.rimUp then s
  else if (s.half h).fw.stewardDown then s.upd h fun x => { x with ports := { x.ports with rxq := x.ports.rxq ++ [(s.now, i)] } }
  else s.onFrame h s.now i

end Sys2Proof.Machine
end

