-- ==== Sys2Proof/Machine/Gateway.lean ====
section
/-! DEFINITION. The vehicle gateway (R362-R372): route placement and lookup, forwarding, streams, gateway queues, and its mailbox messages with those of the
ports and peers (R238, R376, R400, R402). -/
namespace Sys2Proof.Machine

/-! ## Route entries (R364) -/

def gSrc (e : Nat) := bits e 0 6
def gKind (e : Nat) := bits e 11 2
def gValid (e : Nat) := bits e 13 1
def gDst (e : Nat) := bits e 64 6
def gDstBus (e : Nat) := bits e 70 5
def gRewrite (e : Nat) := bits e 75 1
def gNewExt (e : Nat) := bits e 76 1
def gBrief (e : Nat) := bits e 77 1
def gDrop (e : Nat) := bits e 78 1
def gNewId (e : Nat) := bits e 80 29
def gNext (e : Nat) := bits e 112 13

/-- The lookup key of an entry: bits [44:0] with valid taken as 1. -/
def gKey (e : Nat) : Nat := setBits (bits e 0 45) 13 3 1

/-- The key of a frame at an endpoint. -/
def frameKey (src acf : Nat) (f : Frame) : Nat := src + acf % 32 * 2 ^ 6 + f.idKind % 4 * 2 ^ 11 + 2 ^ 13 + f.id % 2 ^ 29 * 2 ^ 16

/-! ## Placement (R366) -/

/-- The placement hash of a key. -/
def placeHash (seed key : Nat) : Nat := crc32c (seed * 0x10001) (leBytes 8 key)

/-- A table of buckets of 4 ways: the way that holds a key, or a free way. -/
def wayOf (t : List (Nat × Nat)) (bucket : Nat) (p : Nat → Bool) : Option Nat :=
  ((List.range 4).map (4 * bucket + ·)).find? fun i => p (kget (fun _ => 0) t i)

def hwBuckets (c : Nat) : Nat × Nat := (bits c 0 14, bits c 14 14)

/-- An entry put into a bucket, moving others between their two buckets where it is full; which entry moves is a free choice. -/
def pushRoute (seed : Nat) (t : List (Nat × Nat)) (b e ctr : Nat) : Nat → Option (List (Nat × Nat)) × Nat
  | 0 => (none, ctr)
  | k + 1 =>
    match wayOf t b fun x => x = 0 with
    | some i => (some (kput (fun _ => 0) t i e), ctr)
    | none =>
      let i := 4 * b + Config.free ctr % 4
      let out := kget (fun _ => 0) t i
      let p := hwBuckets (placeHash seed (gKey out))
      pushRoute seed (kput (fun _ => 0) t i e) (if p.1 = b then p.2 else p.1) out (ctr + 1) k

/-- The two tables after a route is placed; none: its overflow bucket is full, or there is no overflow table. -/
def placeRoute (seed buckets : Nat) (hw ovf : List (Nat × Nat)) (e ctr : Nat) : Option (List (Nat × Nat) × List (Nat × Nat)) × Nat :=
  let c := placeHash seed (gKey e)
  let p := hwBuckets c
  let same (x : Nat) : Bool := x ≠ 0 && gKey x = gKey e
  let o := if buckets = 0 then 0 else c % buckets
  match (wayOf hw p.1 same).orElse (fun _ => wayOf hw p.2 same), (if buckets = 0 then none else wayOf ovf o same) with
  | some i, _ => (some (kput (fun _ => 0) hw i e, ovf), ctr)
  | none, some i => (some (hw, kput (fun _ => 0) ovf i e), ctr)
  | none, none =>
    match wayOf hw p.1 (fun x => x = 0), wayOf hw p.2 (fun x => x = 0) with
    | some i, _ => (some (kput (fun _ => 0) hw i e, ovf), ctr)
    | none, some i => (some (kput (fun _ => 0) hw i e, ovf), ctr)
    | none, none =>
      let r := pushRoute seed hw p.1 e ctr 129
      match r.1 with
      | some t => (some (t, ovf), r.2)
      | none =>
        if buckets = 0 then (none, r.2)
        else match wayOf ovf o (fun x => x = 0) with
          | some i => (some (hw, kput (fun _ => 0) ovf i e), r.2)
          | none => (none, r.2)

/-- Buckets of the overflow table (R372): none with base 0 and k 0. -/
def ovfBuckets (base k : Nat) : Nat := if base = 0 && k = 0 then 0 else 2 ^ k

def Half.ovfCount (x : Half) : Nat := ovfBuckets (x.fld F.GTW_OVF_BASE_base) (x.fld F.GTW_OVF_BASE_k)

/-- GTW_STAT follows the tables. -/
def Half.syncRoutes (x : Half) : Half :=
  (x.setFld F.GTW_STAT_hw_routes x.gtw.hw.length).setFld F.GTW_STAT_ovf_routes x.gtw.ovf.length

/-- The entry that a key hits. -/
def Half.lookup (x : Half) (key : Nat) : Option Nat :=
  let c := placeHash (x.fld F.GTW_CTL_seed) key
  let p := hwBuckets c
  let hit (e : Nat) : Bool := e ≠ 0 && gKey e = key && gValid e = 1
  match (wayOf x.gtw.hw p.1 hit).orElse (fun _ => wayOf x.gtw.hw p.2 hit) with
  | some i => some (kget (fun _ => 0) x.gtw.hw i)
  | none =>
    if x.ovfCount = 0 then none
    else (wayOf x.gtw.ovf (c % x.ovfCount) hit).map fun i => kget (fun _ => 0) x.gtw.ovf i

/-- An entry and its fan-out chain, at most `n` more. -/
def Half.chain (x : Half) (e : Nat) : Nat → List Nat
  | 0 => [e]
  | n + 1 => if gNext e = 0x1FFF then [e] else e :: x.chain (kget (fun _ => 0) x.gtw.fanout (gNext e) * 2 ^ 64) n

/-- CAN XL controllers (R362). -/
def isXlBus (b : Nat) : Bool := decide (b < 16) && decide (6 ≤ b % 8)

/-- A next field that names no fan-out entry and does not end the chain. -/
def badNext (e : Nat) : Bool := decide (0x1000 ≤ gNext e) && decide (gNext e ≠ 0x1FFF)

/-- The refusals of a route (R364). -/
def Half.routeBad (x : Half) (e : Nat) : Bool :=
  let l := x.chain e 8
  badNext e || decide (gKind e = 3) || decide (8 < l.length) || (gKind e = 2 && l.any fun d => gRewrite d = 1) ||
    (gKind e = 2 && l.any fun d => gDrop d = 0 && ((decide (0x10 ≤ gDst d) && decide (gDst d < 0x30)) || (decide (gDst d < 16) && !isXlBus (gDst d))))

/-! ## Stream slots (R368): the layout of the 32 bytes is not in the manual (log entry 15) -/

def slPort (c : Nat) := bits c 0 8
def slEgress (c : Nat) := bits c 8 1
def slVlan (c : Nat) := bits c 16 16
def slPcp (c : Nat) := bits c 32 8
def slHold (c : Nat) := bits c 40 8
def slMac (c : Nat) := bits c 64 48
def slStream (c : Nat) := bits c 128 64

def Half.slot_ (x : Half) (n : Nat) : Nat := kget (fun _ => 0) x.gtw.slots n

/-! ## Forwarding (R365, R370, R371) -/

/-- The half of a CAN bus. -/
def busHalf (b : Nat) : Nat := b / 8

/-- The place of a frame in CAN arbitration: its 11 base bits, where a base or XL frame wins over an extended one, then the 18 bits that extend them (R371,
log entry 184). -/
def canRank (f : Frame) : Nat := if f.idKind = 1 then 2 * (f.id % 2 ^ 29) + 1 else 2 * (f.id % 2 ^ 11 * 2 ^ 18)

/-- Insertion by identifier priority: a lower identifier is sent first. -/
def byId (a b : Frame) : Bool := decide (canRank a ≤ canRank b)

/-- A frame in a CAN transmit queue of half `h`: how many queued frames the bus has taken meanwhile is arbitration, a free value. -/
def State.toBus (s : State) (h b : Nat) (f : Frame) : State :=
  let x := s.half h
  if kget (fun _ => false) x.gtw.busOff b then s.upd h fun x => x.inc F.GTW_DROP_tx_full
  else
    let q := kget (fun _ => []) x.gtw.tx b
    let d := s.draw
    let gone := d.1 % (q.length + 1)
    let s1 := (q.take gone).foldl (fun t g => t.emit (.canSend h b g)) d.2
    let left := q.drop gone
    if 64 ≤ left.length then s1.upd h fun x => ({ x with gtw := { x.gtw with tx := kput (fun _ => []) x.gtw.tx b left } } : Half).inc F.GTW_DROP_tx_full
    else s1.upd h fun x => { x with gtw := { x.gtw with tx := kput (fun _ => []) x.gtw.tx b (isort byId (left ++ [f])) } }

/-- Bytes of an ACF message: its header, then the data in whole quadlets. -/
def AcfOut.bytes (a : AcfOut) : Nat := (if a.brief then 8 else 16) + (a.frame.data.length + 3) / 4 * 4

/-- The longest time in ns for which a gate control list keeps a class open without a break, over the end of the cycle too; none: it never closes. The
list is the cycle, the base VT and the entries; the last one holds to the end of the cycle (log entry 15). -/
def longestOpen (l : List Nat) (cls : Nat) : Option Nat :=
  let es := l.drop 2
  let rest := l.getD 0 0 - es.foldl (fun n w => n + w / 256) 0
  let spans := (List.range es.length).map fun i =>
    let w := es.getD i 0
    (decide (bits w cls 1 = 1), w / 256 + if i + 1 = es.length then rest else 0)
  if spans.all (·.1) then none
  else some ((spans ++ spans).foldl (fun (a : Nat × Nat) p => if p.1 then (a.1 + p.2, Nat.max a.2 (a.1 + p.2)) else (0, a.2)) (0, 0)).2

/-- A data port of the half is on (R401). -/
def Half.portOn (x : Half) (p : Nat) : Bool := decide (x.fld F.TEL_DP_CTL_enable (p % 2) = 1)

/-- A frame of these bytes, of 64 at least and with 20 of preamble and gap, fits no open gate of its class on a 10 Gb/s port (R400, R401). -/
def Half.gateBars (x : Half) (p cls bytes : Nat) : Bool :=
  let l := kget (fun _ => []) x.ports.qbvOper p
  decide (x.fld F.TEL_DP_CTL_qbv_en (p % 2) = 1) && decide (l ≠ []) &&
    (longestOpen l cls).any fun ns => decide (10 * ns < 8 * (Nat.max bytes 64 + 20))

/-- The packed messages of a slot sent as one frame, whose headers and trailer take 34 bytes: nothing leaves a port that is off, and a frame too long for
its gate is dropped. -/
def State.flushSlot (s : State) (h n : Nat) : State :=
  let x := s.half h
  let c := x.slot_ n
  match kget (fun _ => []) x.gtw.packing n with
  | [] => s
  | l =>
    let s1 := s.upd h fun x => { x with gtw := { x.gtw with packing := kput (fun _ => []) x.gtw.packing n [] } }
    if !x.portOn (slPort c) then s1
    else if x.gateBars (slPort c) (slPcp c) (l.foldl (fun k b => k + b.bytes) 34) then s1.upd h fun x => x.inc F.TEL_DP_ERR_gate_drop (slPort c % 2)
    else (s1.countTx h (some (slPort c))).emit (.streamSend h n l)

/-- A message packed into a slot's frame; the hold time runs from the first one (R368). -/
def Gateway.pack (g : Gateway) (n vt : Nat) (a : AcfOut) : Gateway :=
  let l := kget (fun _ => []) g.packing n
  { g with packing := kput (fun _ => []) g.packing n (l ++ [a]), packVt := if l = [] then kput (fun _ => 0) g.packVt n vt else g.packVt }

/-- The hold time of a slot's packed messages, in µs, has run out (R368). -/
def Half.packDue (x : Half) (n : Nat) : Bool := decide (kget (fun _ => 0) x.gtw.packVt n + slHold (x.slot_ n) * 1000 ≤ x.vt.toNat)

/-- A frame toward an egress slot: packed until the hold time runs out, up to 1,500 bytes. -/
def State.toSlot (s : State) (h n : Nat) (a : AcfOut) : State :=
  let x := s.half h
  let c := x.slot_ n
  if c = 0 || slEgress c = 0 then s else
  let used := (kget (fun _ => []) x.gtw.packing n).foldl (fun k b => k + b.bytes) 12
  let s1 := if 1500 < used + a.bytes then s.flushSlot h n else s
  let s2 := s1.upd h fun x => { x with gtw := x.gtw.pack n x.vt.toNat a }
  if slHold c = 0 then s2.flushSlot h n else s2

/-- A frame toward a gateway queue: its ring's depth is the owner's, which the manual does not place; an unowned queue takes none (R413). -/
def State.toQueue (s : State) (h n : Nat) (w : GwSlot) : State :=
  let x := s.half h
  let l := kget (fun _ => []) x.gtw.queues n
  if kget (fun _ => 0) x.gtw.queueOwner n = 0 || Config.free (2 ^ 64 + 16 * h + n) < l.length then s.upd h fun x => x.inc F.GTW_DROP_queue_full
  else (s.upd h fun x => { x with gtw := { x.gtw with queues := kput (fun _ => []) x.gtw.queues n (l ++ [w]) } }).emit (.queueSend h n w)

/-- A frame at one destination endpoint of half `h`. -/
def State.toDest (s : State) (h src : Nat) (e : Nat) (f : Frame) : State :=
  let x := s.half h
  let d := gDst e
  let g : Frame := if gRewrite e = 1 then { f with id := gNewId e, idKind := gNewExt e } else f
  if d < 16 then
    (if busHalf d = h then s.toBus h d g
     else if !(s.half (peer h)).clk.rimUp || !x.linkUp then s.upd h fun x => x.inc F.GTW_DROP_remote_down
     else s.hatchSend h 0x05 (d :: g.idKind :: g.id :: g.flags :: g.data.map (·.toNat)))
  else if d < 0x30 then
    s.toSlot h (d - 0x10) { bus := gDstBus e, brief := decide (gBrief e = 1), stamp := (x.vt.toNat + x.fld F.CLK_VT_OFFSET_theta_ns) % 2 ^ 64, frame := g }
  else s.toQueue h (d - 0x30) { vt := x.vt.toNat, src := src, frame := g }

/-- A frame's lookup: where the hardware table misses and the overflow table is not empty, its 64-byte read is paid in the gateway's class at port 139. -/
def State.payLookup (s : State) (h key : Nat) : State :=
  let x := s.half h
  let c := placeHash (x.fld F.GTW_CTL_seed) key
  let p := hwBuckets c
  let hit (e : Nat) : Bool := e ≠ 0 && gKey e = key && gValid e = 1
  if x.gtw.ovf = [] || ((wayOf x.gtw.hw p.1 hit).orElse fun _ => wayOf x.gtw.hw p.2 hit).isSome then s
  else s.pay h 139 (x.fld F.GTW_CTL_mark) false (x.fld F.GTW_OVF_BASE_base + 64 * (c % Nat.max x.ovfCount 1)) 64

/-- A frame that has arrived at an endpoint of half `h` (R365, R366, R371). -/
def State.route (s0 : State) (h src acf : Nat) (f : Frame) : State :=
  let y := s0.half h
  if !y.clk.rimUp || y.fld F.GTW_CTL_enable = 0 then s0 else
  let s := s0.payLookup h (frameKey src acf f)
  let x := s.half h
  match x.lookup (frameKey src acf f) with
  | none => s.upd h fun x => x.inc F.GTW_DROP_miss
  | some e =>
    let s1 := s.upd h fun x => x.incw F.GTW_FWD_CNT_frames
    (x.chain e 7).foldl (fun t d => if gDrop d = 1 then t else t.toDest h src d f) s1

/-- CAN_FRAME_RECEIVE (R362, R363, R366). -/
def execCanFrameReceive (e : Ev) (bus : Nat) (f : Frame) (s0 : State) : Host.Outcome State Fault Refusal :=
  let s := tick e s0
  let h := e.half
  if busHalf bus ≠ h || kget (fun _ => false) (s.half h).gtw.busOff bus then .next s else .next (s.route h bus 0 f)

/-- The sequence number of a frame of a stream slot: a gap is counted, the number kept, the frame counted on its data port (R369). -/
def Half.streamSeq (x : Half) (slot seqNum : Nat) : Half :=
  let last := kget (fun _ => 0) x.gtw.slotSeq slot
  let gap := decide (last ≠ 0) && decide (seqNum % 256 ≠ last % 256)
  let y : Half := { x with gtw := { x.gtw with slotSeq := kput (fun _ => 0) x.gtw.slotSeq slot (seqNum % 256 + 1) } }
  let z := y.incw F.TEL_DP_CNT_rx_frames (slPort (x.slot_ slot) % 2)
  if gap then z.inc F.GTW_STREAM_ERR_seq_gap slot else z

/-- One ACF message of a stream frame: routed, or counted where it is malformed or of an unknown type. -/
def State.routeAcf (t : State) (h slot : Nat) (m : AcfMsg) : State :=
  if m.known && m.lenOk then t.route h (0x10 + slot) m.bus m.frame else t.upd h fun x => x.inc F.GTW_STREAM_ERR_malformed slot

/-- STREAM_INGRESS (R369): malformed and unknown messages are dropped and counted, a sequence gap only counted. -/
def execStreamIngress (e : Ev) (slot seqNum : Nat) (msgs : List AcfMsg) (s0 : State) : Host.Outcome State Fault Refusal :=
  let s := tick e s0
  let h := e.half
  let x := s.half h
  let c := x.slot_ slot
  if !x.clk.rimUp || x.fld F.GTW_CTL_enable = 0 || c = 0 || slEgress c = 1 || !x.portOn (slPort c) then .next s else
  .next (msgs.foldl (fun t m => t.routeAcf h slot m) (s.upd h fun x => x.streamSeq slot seqNum))

/-- STREAM_EGRESS_HOLD_EXPIRY (R368): the packed messages leave once their hold time has run out. -/
def execStreamEgressHoldExpiry (e : Ev) (slot : Nat) (s0 : State) : Host.Outcome State Fault Refusal :=
  let s := tick e s0
  if !(s.half e.half).clk.rimUp || !(s.half e.half).packDue slot then .next s else .next (s.flushSlot e.half slot)

/-- GATEWAY_QUEUE_DOORBELL (R370): a frame of a queue's ring toward the gateway. -/
def execGatewayQueueDoorbell (e : Ev) (gq : Nat) (f : Frame) (s0 : State) : Host.Outcome State Fault Refusal :=
  let s := tick e s0
  if 16 ≤ gq || kget (fun _ => 0) (s.half e.half).gtw.queueOwner gq = 0 then .next s else .next (s.route e.half (0x30 + gq) 0 f)

/-- A controller's bus-off state. -/
def State.setBusOff (s : State) (c : Nat) (off : Bool) : State :=
  if 16 ≤ c || !(s.half (busHalf c)).clk.rimUp then s
  else s.upd (busHalf c) fun x => { x with gtw := { x.gtw with busOff := kput (fun _ => false) x.gtw.busOff c off } }

/-- CAN_BUS_OFF (R362, R371). -/
def execCanBusOff (e : Ev) (ctrl : Nat) (s0 : State) : Host.Outcome State Fault Refusal := .next ((tick e s0).setBusOff ctrl true)

/-- BUS_OFF_RECOVERY (R362): 128 × 11 recessive bits. -/
def execBusOffRecovery (e : Ev) (ctrl : Nat) (s0 : State) : Host.Outcome State Fault Refusal := .next ((tick e s0).setBusOff ctrl false)

/-! ## Routes by mailbox (R364-R368, R372, R391) -/

/-- The 16-byte entries of a message. -/
def entries16 (l : List Byte) : List Nat := (List.range (l.length / 16)).map fun k => leNat ((l.drop (16 * k)).take 16)

/-- Routes placed one after another until one is refused: its index and status. -/
def State.putRoutes (s : State) (h : Nat) (l : List Nat) : State × Option (Nat × Status) :=
  let r := l.foldl (fun (a : State × Nat × Option (Nat × Status)) e =>
    match a.2.2 with
    | some _ => a
    | none =>
      let x := a.1.half h
      if x.routeBad e then (a.1, a.2.1, some (a.2.1, .badArg))
      else
        let p := placeRoute (x.fld F.GTW_CTL_seed) x.ovfCount x.gtw.hw x.gtw.ovf e a.1.freeCtr
        match p.1 with
        | none => ({ a.1 with freeCtr := p.2 }, a.2.1, some (a.2.1, .noSpace))
        | some t => (({ a.1 with freeCtr := p.2 } : State).upd h fun y => ({ y with gtw := { y.gtw with hw := t.1, ovf := t.2 } } : Half).syncRoutes, a.2.1 + 1, none))
    (s, 0, none)
  (r.1, r.2.2)

/-- ROUTE_WRITE (R364, R366): the entries before a refused one stay. -/
def execRouteWrite (e : Ev) (m : Msg) (count src : Nat) (s0 : State) : Host.Outcome State Fault Refusal :=
  let h := e.half
  .next ((tick e s0).mbox h m 0x60 .l false fun t =>
    if count = 0 then (t, .empty, 0) else if 4096 < count then (t, .badArg, 0) else
    t.withSrc h m src (16 * count) fun l =>
      let r := t.putRoutes h (entries16 l)
      let t1 := r.1.saveConf h false
      match r.2 with
      | some (i, st) => (t1, st, i)
      | none => (t1, .ok, 0))

/-- A table without the entry of a key. -/
def dropKey (t : List (Nat × Nat)) (k : Nat) : List (Nat × Nat) := t.filter fun e => gKey e.2 ≠ k

/-- One route goes; `n` counts those that were not there. -/
def State.dropRoute (t : State) (h n w : Nat) : State × Nat :=
  let k := gKey w
  let x := t.half h
  let found := (x.gtw.hw ++ x.gtw.ovf).any fun e => gKey e.2 = k
  (t.upd h fun y => ({ y with gtw := { y.gtw with hw := dropKey y.gtw.hw k, ovf := dropKey y.gtw.ovf k } } : Half).syncRoutes,
   if found then n else n + 1)

/-- ROUTE_DELETE (R391): the reply counts the keys not found. -/
def execRouteDelete (e : Ev) (m : Msg) (count src : Nat) (s0 : State) : Host.Outcome State Fault Refusal :=
  let h := e.half
  .next ((tick e s0).mboxL h m 0x61 fun t =>
    if count = 0 then (t, .empty, 0) else if 4096 < count then (t, .badArg, 0) else
    t.withSrc h m src (16 * count) fun l =>
      let r := (entries16 l).foldl (fun a w => a.1.dropRoute h a.2 w) (t, 0)
      (r.1, .ok, r.2))

/-- `count` entries of `n` bytes each. -/
def entriesOf (n count : Nat) (l : List Byte) : List Nat := (List.range count).map fun k => leNat ((l.drop (n * k)).take n)

/-- The entries put from index `first` on. -/
def putFrom (m : List (Nat × Nat)) (first : Nat) (es : List Nat) : List (Nat × Nat) :=
  (List.range es.length).foldl (fun m k => kput (fun _ => 0) m (first + k) (es.getD k 0)) m

def Half.putFanout (x : Half) (first : Nat) (es : List Nat) : Half := { x with gtw := { x.gtw with fanout := putFrom x.gtw.fanout first es } }

/-- FANOUT_WRITE (R364, R365): entries of 8 bytes, the bits [127:64] of the layout. -/
def execFanoutWrite (e : Ev) (m : Msg) (first count src : Nat) (s0 : State) : Host.Outcome State Fault Refusal :=
  let h := e.half
  .next ((tick e s0).mboxL h m 0x62 fun t =>
    if count = 0 then (t, .empty, 0) else if 4096 < first + count then (t, .badArg, 0) else
    t.withSrc h m src (8 * count) fun l =>
      let es := entriesOf 8 count l
      if es.any fun w => badNext (w * 2 ^ 64) then (t, .badArg, 0) else (t.upd h fun x => x.putFanout first es, .ok, 0))

/-- The control word and the overflow table's base of a gateway. -/
def Half.gtwControl (x : Half) (ctl ovf : Nat) : Half := (x.writeWord .GTW_CTL 0 0 0 (ctl % 2 ^ 32)).writeWord .GTW_OVF_BASE 0 0 0 ovf

/-- GTW_CFG (R366, R367, R372): a change of seed or table places every route anew, or changes nothing. -/
def execGtwCfg (e : Ev) (m : Msg) (ctl ovf : Nat) (s0 : State) : Host.Outcome State Fault Refusal :=
  let h := e.half
  .next ((tick e s0).mboxL h m 0x63 fun t =>
    let x := t.half h
    let base := bits ovf 0 48
    let k := bits ovf 48 5
    if base % 64 ≠ 0 || 20 < k then (t, .badArg, 0)
    else
      let y := x.gtwControl ctl ovf
      let all := (x.gtw.hw ++ x.gtw.ovf).map (·.2)
      if y.fld F.GTW_CTL_seed = x.fld F.GTW_CTL_seed && y.ovfCount = x.ovfCount then (t.setHalf h y, .ok, 0)
      else
        let r := (t.setHalf h { y with gtw := { y.gtw with hw := [], ovf := [] } }).putRoutes h all
        match r.2 with
        | some _ => (t, .noSpace, 0)
        | none => (r.1.upd h Half.syncRoutes, .ok, 0))

/-- A stream slot takes its configuration and waits for its first sequence number. -/
def Half.putSlot (x : Half) (slot c : Nat) : Half :=
  { x with gtw := { x.gtw with slots := kput (fun _ => 0) x.gtw.slots slot c, slotSeq := kput (fun _ => 0) x.gtw.slotSeq slot 0 } }

/-- SLOT_CFG (R368). -/
def execSlotCfg (e : Ev) (m : Msg) (slot src : Nat) (s0 : State) : Host.Outcome State Fault Refusal :=
  let h := e.half
  .next ((tick e s0).mboxL h m 0x64 fun t =>
    if 32 ≤ slot then (t, .badArg, 0) else
    t.withSrc h m src 32 fun l =>
      let c := leNat l
      if 100 < slHold c || 3 < slPort c || slPort c / 2 ≠ h || 4095 < slVlan c || 7 < slPcp c then (t, .badArg, 0)
      else ((t.flushSlot h slot).upd h fun x => x.putSlot slot c, .ok, 0))

/-! ## Ports and peers (R238, R376, R400, R402) -/

/-- PORT_CFG (R376): UDP port, IPv4 address and prefix, IPv6 prefix and address. -/
def execPortCfg (e : Ev) (m : Msg) (udp ip4 pfx4 pfx6 ip6 : Nat) (s0 : State) : Host.Outcome State Fault Refusal :=
  let h := e.half
  .next ((tick e s0).mboxL h m 0x70 fun t =>
    if 32 < pfx4 || 128 < pfx6 then (t, .badArg, 0)
    else (t.upd h fun x => { x with ports := { x.ports with udp := [udp % 2 ^ 16, ip4 % 2 ^ 32, pfx4, pfx6, ip6 % 2 ^ 128] } }, .ok, 0))

/-- The admin schedule of a data port: cycle, base time, entries. -/
def Half.putQbv (x : Half) (port : Nat) (l : List Nat) : Half :=
  { x with ports := { x.ports with qbvAdmin := kput (fun _ => []) x.ports.qbvAdmin port l } }

/-- QBV_WRITE (R400): the administrative list of a data port of the half; its element 0 is the cycle, element 1 the base VT. -/
def execQbvWrite (e : Ev) (m : Msg) (port count cycle base src : Nat) (s0 : State) : Host.Outcome State Fault Refusal :=
  let h := e.half
  .next ((tick e s0).mboxL h m 0x71 fun t =>
    if count = 0 then (t, .empty, 0)
    else if 256 < count || 3 < port || port / 2 ≠ h || cycle < 1000 || 1000000000 < cycle then (t, .badArg, 0) else
    t.withSrc h m src (8 * count) fun l =>
      let es := (entriesOf 8 count l).map fun w => w % 2 ^ 32
      if es.any (fun w => w / 256 = 0) || cycle < es.foldl (fun n w => n + w / 256) 0 then (t, .badArg, 0)
      else (t.upd h fun x => x.putQbv port (cycle :: base % 2 ^ 64 :: es), .ok, 0))

def Half.putPeerFences (x : Half) (first : Nat) (es : List Nat) : Half := { x with disp := { x.disp with peerFence := putFrom x.disp.peerFence first es } }

/-- PEER_FENCE_WRITE (R238). -/
def execPeerFenceWrite (e : Ev) (m : Msg) (first count src : Nat) (s0 : State) : Host.Outcome State Fault Refusal :=
  let h := e.half
  .next ((tick e s0).mboxL h m 0x72 fun t =>
    if count = 0 then (t, .empty, 0) else if 1024 < first + count then (t, .badArg, 0) else
    t.withSrc h m src (16 * count) fun l =>
      (t.upd h fun x => x.putPeerFences first (entriesOf 16 count l), .ok, 0))

def Half.putPeers (x : Half) (first : Nat) (es : List Nat) : Half := { x with ports := { x.ports with peers := putFrom x.ports.peers first es } }

/-- PEER_LIST_WRITE (R402). -/
def execPeerListWrite (e : Ev) (m : Msg) (first count src : Nat) (s0 : State) : Host.Outcome State Fault Refusal :=
  let h := e.half
  .next ((tick e s0).mboxL h m 0x73 fun t =>
    if count = 0 then (t, .empty, 0) else if 256 < first + count then (t, .badArg, 0) else
    t.withSrc h m src (32 * count) fun l =>
      (t.upd h fun x => x.putPeers first (entriesOf 32 count l), .ok, 0))

end Sys2Proof.Machine
end

