-- ==== Sys2Proof/Machine/Intake.lean ====
section
/-! DEFINITION. The camera intake (R189-R216): packets, conversion and publication, frames, the stale checks, and the stream configuration. -/
namespace Sys2Proof.Machine

/-! ## Streams of a receiver -/

def Half.streamOn (x : Half) (k : Nat) : Bool := x.fld F.INT_STREAM_CFG_enable k = 1

/-- The enabled slots of a receiver on a virtual channel. -/
def Half.slotsOf (x : Half) (rx vc : Nat) : List Nat :=
  ((List.range 4).map (4 * rx + ·)).filter fun k => x.streamOn k && decide (x.fld F.INT_STREAM_CFG_vc k = vc)

/-- The receiver runs. -/
def Half.rxOn (x : Half) (rx : Nat) : Bool := x.clk.rimUp && decide (rx < 8) && decide (x.fld F.INT_RX_CFG_enable rx = 1)

def Half.updStream (x : Half) (k : Nat) (f : Stream → Stream) : Half := x.setStream k (f (x.stream k))

/-- The stream is STALE: its marks carry stale = 1 (R209, R213). -/
def Half.isStale (x : Half) (k : Nat) : Bool := x.fld F.INT_STREAM_STAT_state k = 2

/-! ## Conversion and publication (R193, R195, R198) -/

/-- A signed byte field as an exponent. -/
def sexp (v : Nat) : Int := sext8 v

/-- The exact value of a raw component (R193). -/
def Half.component (x : Half) (k raw : Nat) (chroma : Bool) : Num :=
  let b := if chroma then x.fld F.INT_STREAM_CONV_black_uv k else x.fld F.INT_STREAM_CONV_black k
  let d : Int := (raw : Int) - (b : Int)
  .fin (decide (d < 0)) d.natAbs (sexp (x.fld F.INT_STREAM_CONV_gain_exp k))

/-- Component `c` of pixel `px` of a raw line; a YUV line holds U, Y, V, Y for two pixels. -/
def rawAt (yuv : Bool) (l : List Nat) (px c : Nat) : Nat :=
  if !yuv then l.getD px 0
  else match c with
    | 0 => l.getD (2 * px + 1) 0
    | 1 => l.getD (px / 2 * 4) 0
    | _ => l.getD (px / 2 * 4 + 2) 0

/-- One output pixel: the bytes of its channels, its ledger bytes and its saturation events. -/
def Half.pixel (x : Half) (k : Nat) (lines : List (List Nat)) (px : Nat) (ctr : Nat) : List Byte × List Byte × Nat × Nat :=
  let g := x.geom k
  let rtz := x.fld F.INT_STREAM_CFG_round_mode k = 1
  let special := x.fld F.INT_STREAM_CFG_sat_mode k = 1
  let scale : Num := .fin false 1 (sexp (x.fld F.INT_STREAM_CONV_int8_exp k))
  let vals := (List.range g.chans).map fun ch =>
    let site := ch / g.c0
    let c := ch % g.c0
    x.component k (rawAt (g.c0 = 3) (lines.getD (site / g.r) []) (g.r * px + site % g.r) c) (c ≠ 0)
  let cv := vals.map fun v => if g.fmt = 5 then convInt8 rtz scale v else convFloat g.fmt rtz special v
  let led := (List.range g.blocks).foldl (fun (a : List Byte × Nat) b =>
    let vs := (vals.drop (32 * b)).take 32
    let cs := (cv.drop (32 * b)).take 32
    if cs.any (fun c => c.sat || c.inv) then (a.1 ++ [0], a.2) else
    let m := vs.foldl (fun m v => m.max v.mag) Frac.zero
    let e := ledEncodeFree (decide (g.fmt ≠ 5) || decide (m.n = 0)) (((uOut g.fmt rtz).mul m).add (etaOut g.fmt rtz scale.mag)) a.2
    (a.1 ++ [BitVec.ofNat 8 e.1], e.2)) ([], ctr)
  (cv.flatMap fun c => leBytes (fmtBits g.fmt / 8) c.w, led.1, (cv.filter (·.sat)).length, led.2)

/-- The 16 bytes of an intake mark (R198). -/
def markBytes (seq : Nat) (absent stale : Bool) (vt : Nat) : List Byte :=
  leBytes 4 seq ++ leBytes 1 0 ++ leBytes 1 ((if absent then 1 else 0) + (if stale then 2 else 0)) ++ leBytes 2 0 ++ leBytes 8 vt

def Half.seq (x : Half) (k : Nat) : Nat := x.fld F.INT_STREAM_STAT_seq k

/-- A write of the intake is accepted by its memory (R199). -/
def State.takesWrite (s : State) (h a n : Nat) : Bool :=
  match s.access h a n with
  | .ok => true
  | .dataError => true
  | _ => false

/-- A write of the intake where its memory accepts it, which pays for class 15 at port 130 (R196, R199), and whether it does. -/
def State.intakeWrite (s : State) (h a : Nat) (l : List Byte) : State × Bool :=
  if s.takesWrite h a l.length then ((s.store h a l).pay h 130 15 true a l.length, true) else (s.late a (s.access h a l.length), false)

/-- A complete output row: data, then ledger bytes, then its mark, each once the write before it has been accepted (R199). -/
def State.publish (s : State) (h k row : Nat) (lines : List (List Nat)) : State :=
  let x := s.half h
  let g := x.geom k
  let i := x.seq k % g.nbuf
  let a := (List.range g.w).foldl (fun (a : List Byte × List Byte × Nat × Nat) px =>
    let p := x.pixel k lines px a.2.2.2
    (a.1 ++ p.1, a.2.1 ++ p.2.1, a.2.2.1 + p.2.2.1, p.2.2.2)) ([], [], 0, s.freeCtr)
  let s0 := ({ s with freeCtr := a.2.2.2 } : State).upd h fun y => y.inc F.INT_STREAM_CNT_sat_count k 0 a.2.2.1
  let d := s0.intakeWrite h (g.dataRow i row) a.1
  let l := if d.2 then d.1.intakeWrite h (g.ledRow i row) a.2.1 else d
  let m := if l.2 then l.1.intakeWrite h (g.mark i row) (markBytes (x.seq k) false (x.isStale k) (kget (fun _ => 0) (x.stream k).firstVt row)) else l
  if m.2 then m.1.upd h fun y => (y.setFld F.INT_LINE_POS_row row k).updStream k fun t => { t with rowsOk := row :: t.rowsOk } else m.1

/-! ## Stale checks (R209-R213) -/

/-- Failed checks, by their bits of the record's flag byte (R200): the stream becomes STALE, with one count per frame and one incident per transition. -/
def State.failCheck (s : State) (h k mask : Nat) (detail : Option Nat) : State :=
  let x := s.half h
  if mask = 0 || x.fld F.INT_STREAM_CFG_stale_en k = 0 then s else
  let t := x.stream k
  let flags := t.flags ||| mask
  let first := decide (t.flags % 8 = 0)
  let s1 := s.upd h fun y =>
    let z := (y.updStream k fun t => { t with flags := flags }).setFld F.INT_STREAM_STAT_good_run 0 k
    if first then z.inc F.INT_STREAM_CNT_stale_count k else z
  if x.isStale k then s1
  else
    let s2 := (s1.upd h fun y => y.setFld F.INT_STREAM_STAT_state 2 k).incident h 0x05 k .staleStream (detail.getD flags)
    (s2.hosted h).foldl (fun t v => if bits (vStreams (t.vdi v).cfg) k 1 = 1 then t.notice v 4 k .staleStream else t) s2

/-- The 1,024 sample positions of the signature (R212). -/
def lfsr (n z : Nat) : List Nat :=
  match n with
  | 0 => []
  | n + 1 => let y := if z % 2 = 1 then Nat.xor (z / 2) 0x80200003 else z / 2; y :: lfsr n y

/-- Samples that a line adds: position -> raw value + 1, where it is not excluded. -/
def Half.sampleLine (x : Half) (k line : Nat) (px : List Nat) (l : List (Nat × Nat)) : List (Nat × Nat) :=
  let w := x.fld F.INT_STREAM_GEOM_width k
  let hgt := x.fld F.INT_STREAM_GEOM_height k
  let yuv := isYuv (x.fld F.INT_STREAM_CFG_data_type k)
  let pos := lfsr 1024 (x.fld F.INT_STALE_CFG_seed k)
  (List.range 1024).foldl (fun m i =>
    let z := pos.getD i 0
    if z / 65536 % Nat.max hgt 1 ≠ line then m else
    let v := rawAt yuv px (z % 65536 % Nat.max w 1) 0
    if v = 0 || x.fld F.INT_STREAM_CONV_clip k ≤ v then m else kput (fun _ => 0) m i (v + 1)) l

def crc64Bits (n c : Nat) : Nat :=
  match n with
  | 0 => c
  | n + 1 => crc64Bits n (if 2 ^ 63 ≤ c then Nat.xor (c * 2 % 2 ^ 64) 0x42F0E1EBA9EA3693 else c * 2)

/-- CRC-64 of R212. -/
def crc64 (l : List Byte) : Nat := l.foldl (fun c b => crc64Bits 8 (Nat.xor c (b.toNat * 2 ^ 56))) 0

/-- The signature of the included samples (R212). -/
def signature (l : List (Nat × Nat)) : Nat := crc64 ((l.flatMap fun e => leBytes 2 (e.2 - 1)) ++ leBytes 2 l.length)

/-- The checks that fail as a frame closes, by their flag bits: no embedded line (R211), a repeated signature (R212). -/
def Half.closeFails (x : Half) (k : Nat) : Nat :=
  let t := x.stream k
  (if x.fld F.INT_STREAM_CFG_counter_src k = 1 && !t.embedded && !t.noCounter then 2 else 0) +
    (if decide (64 ≤ t.samples.length) && decide (t.prevSig = some (signature t.samples)) then 4 else 0)

/-! ## Frames (R197, R199, R200) -/

/-- The frame of a slot closes (R199, R210-R213): the checks of the close, absent marks, the frame record, the interrupt. -/
def State.closeFrame (s : State) (h k : Nat) (timeout : Bool) : State :=
  let x := s.half h
  let t := x.stream k
  if !t.frameOpen then s else
  let sig := signature t.samples
  let few := decide (t.samples.length < 64)
  let s2 := s.upd h fun y => y.updStream k fun t =>
    { t with flags := setBits (setBits t.flags 3 1 (if few then 1 else 0)) 4 1 (if timeout then 1 else 0), prevSig := if few then none else some sig }
  let s3 := s2.failCheck h k (x.closeFails k) none
  let y := s3.half h
  let g := y.geom k
  let i := y.seq k % g.nbuf
  let gone := (List.range g.hgt).filter fun n => !t.rowsOk.contains n
  let s4 := gone.foldl (fun u n =>
    let d := u.draw
    let vt := match t.firstVt.find? fun e => e.1 = n with | some e => e.2 | none => d.1
    let u1 := if (t.firstVt.any fun e => e.1 = n) then u else d.2
    ((u1.intakeWrite h (g.mark i n) (markBytes (y.seq k) true (y.isStale k) (vt % 2 ^ 64))).1.intakeWrite h (g.ledRow i n)
      (List.replicate (g.w * g.blocks) 0)).1) s3
  let st : Status := if y.isStale k then .staleStream else if gone ≠ [] then .dataError else .ok
  let fl := (y.stream k).flags
  let rec_ := leBytes 4 (y.seq k) ++ leBytes 4 t.counter ++ leBytes 8 t.fsVt ++ leBytes 8 sig ++ leBytes 2 t.rowsOk.length ++ leBytes 1 st.code ++
    leBytes 1 fl ++ leBytes 4 y.vt.toNat
  let s5 := (s4.intakeWrite h (g.record i) rec_).1.upd h fun z =>
    let n := z.fld F.INT_STREAM_GEOM_height k - t.intact
    let run := if fl % 8 = 0 then Nat.min (z.fld F.INT_STREAM_STAT_good_run k + 1) 3 else 0
    let w := (z.inc F.INT_STREAM_CNT_lines_dropped k 0 n).setFld F.INT_STREAM_STAT_good_run (if z.isStale k then run else 0) k
    w.updStream k fun t => { t with frameOpen := false, prevCounter := if x.fld F.INT_STREAM_CFG_counter_src k = 1 && (!t.embedded || t.noCounter) then none else some t.counter }
  if x.fld F.INT_STREAM_CFG_irq_en k = 1 then s5.emit (.streamIrq h k) else s5

/-- The 7 registers that configure a stream (R391). -/
def streamRegs : List Reg := [.INT_STREAM_CFG, .INT_STREAM_GEOM, .INT_STREAM_CONV, .INT_STREAM_BASE, .INT_STALE_CFG, .INT_STRIPE_CFG, .INT_MARK_BASE]

/-- The registers of a stream configuration, from its 7 words (R391, R216). -/
def Half.writeStream (x : Half) (k : Nat) (l : List Nat) : Half :=
  (streamRegs.zip l).foldl (fun y e => y.writeWord e.1 k 0 0 e.2) x

/-- The band times of the frame that ends: engine time of each band's commands (R208). -/
def Half.bandTimes (x : Half) (h k bands : Nat) : List Nat :=
  let l := (x.disp.ran.filter fun r => decide ((x.stream k).fsVt ≤ r.vt)).map fun r => (Config.bandOf h k r.ctx r.tag, r.ns)
  (List.range bands).map fun b => l.foldl (fun a e => if e.1 = some b then a + e.2 else a) 0

/-- The cost of a plan: the largest band time at its heights, by the rate per row under the plan in force. -/
def planCost (t cur new : List Nat) : Frac :=
  (List.range t.length).foldl (fun m b => m.max ⟨t.getD b 0 * new.getD b 0, Nat.max (cur.getD b 0) 1⟩) Frac.zero

/-- The plan that R208 chooses: the least cost, the plan in force where none is less, and the lower of equals. -/
def bestPlan (t : List Nat) (plans : List (List Nat)) (cur : Nat) : Nat :=
  let c := plans.getD cur []
  ((List.range plans.length).foldl (fun (a : Nat × Frac) p =>
    let k := planCost t c (plans.getD p [])
    if k.lt a.2 then (p, k) else a) (cur, t.foldl (fun m v => m.max ⟨v, 1⟩) Frac.zero)).1

/-- The choice of a stripe plan at the FS after a frame with a recompute; a change is recorded (R208). -/
def State.rebalance (s : State) (h k : Nat) : State :=
  let x := s.half h
  if !(x.stream k).recomputed || x.fld F.INT_STRIPE_CFG_rebalance_en k = 0 || !x.clk.computeUp then s else
  let plans := (Config.stripePlans h k).take 8
  let cur := x.fld F.INT_STREAM_STAT_plan k
  let p := bestPlan (x.bandTimes h k (plans.getD cur []).length) plans cur
  if p = cur then s
  else (s.upd h fun y => y.setFld F.INT_STREAM_STAT_plan p k).incident h 0x05 k .ok p

/-- Completions before the frames under way are no longer needed. -/
def Half.dropRan (x : Half) : Half :=
  { x with disp := { x.disp with ran := x.disp.ran.filter fun r => (List.range 32).any fun k => x.streamOn k && decide ((x.stream k).fsVt ≤ r.vt) } }

/-- An FS of one slot (R197, R210, R211, R216). -/
def State.openFrame (s : State) (h k frameNo : Nat) : State :=
  let s1 := s.closeFrame h k false
  let s2 := match ((s1.half h).stream k).pending with
    | some l => s1.upd h fun x => (x.writeStream k l).updStream k fun t => { t with pending := none }
    | none => s1
  let s3 := s2.rebalance h k
  let x := s3.half h
  if !x.streamOn k then s3 else
  let vt := x.vt.toNat
  let t := x.stream k
  let src1 := x.fld F.INT_STREAM_CFG_counter_src k = 1
  let s4 := s3.upd h fun x =>
    let back := x.isStale k && decide (x.fld F.INT_STREAM_STAT_good_run k = 3)
    let y := if back then (x.setFld F.INT_STREAM_STAT_state 1 k).setFld F.INT_STREAM_STAT_good_run 0 k else x
    let z := y.setFld F.INT_STREAM_STAT_seq (nextSeq (x.seq k)) k
    z.updStream k fun t => { t with
      frameOpen := true, blocked := false, fsVt := vt, lines := 0, rowData := [], intact := 0, rowsOk := [], firstVt := [], samples := [], flags := 0
      counter := if src1 then 0 else frameNo, prevFs := some vt, embedded := false, noCounter := false, recomputed := false, timedOut := false }
  let nom := x.fld F.INT_STREAM_GEOM_nominal_ns k
  let interval : Nat := match t.prevFs with
    | some p => if 2 * (vt - p) < nom || 3 * nom < 2 * (vt - p) then 1 else 0
    | none => 0
  s4.failCheck h k (interval + if !src1 && t.prevCounter = some frameNo then 2 else 0) none

/-- A packet whose header was corrected is counted, and used (R191). -/
def Half.header (x : Half) (hd : RxHdr) : Half := if hd.corrected then x.inc F.INT_RX_ERR_CNT_ecc_corr hd.rx else x

/-- FRAME_START (R197, R199, R209-R211). -/
def execFrameStart (e : Ev) (hd : RxHdr) (vc frameNo : Nat) (s0 : State) : Host.Outcome State Fault Refusal :=
  let s := tick e s0
  let h := e.half
  let x := s.half h
  if !x.rxOn hd.rx then .next s
  else .next (((x.slotsOf hd.rx vc).foldl (fun t k => t.openFrame h k frameNo) (s.upd h fun y => y.header hd)).upd h Half.dropRan)

/-- FRAME_END (R199). -/
def execFrameEnd (e : Ev) (hd : RxHdr) (vc : Nat) (s0 : State) : Host.Outcome State Fault Refusal :=
  let s := tick e s0
  let h := e.half
  let x := s.half h
  if !x.rxOn hd.rx then .next s
  else .next ((x.slotsOf hd.rx vc).foldl (fun t k => t.closeFrame h k false) (s.upd h fun y => y.header hd))

/-- No FS came within 1.5 nominal intervals (R210): an open frame closes by timeout, then the stream enters STALE with no failing frame of its own. -/
def State.noFrame (s : State) (h slot : Nat) : State :=
  let s1 := (s.closeFrame h slot true).upd h fun x => x.updStream slot fun t => { t with flags := 0, timedOut := true }
  if (s1.half h).isStale slot then s1.upd h fun x => x.setFld F.INT_STREAM_STAT_good_run 0 slot
  else s1.failCheck h slot 1 (some 1)

/-- FRAME_CLOSE_TIMEOUT (R199, R210): at 1.5 nominal intervals after the FS an open frame closes, and then the stream enters STALE. -/
def execFrameCloseTimeout (e : Ev) (slot : Nat) (s0 : State) : Host.Outcome State Fault Refusal :=
  let s := tick e s0
  let h := e.half
  let x := s.half h
  let t := x.stream slot
  if !x.clk.rimUp || !x.streamOn slot || t.timedOut then .next s else
  match t.prevFs with
  | none => .next s
  | some p =>
    if 2 * (x.vt.toNat - p) < 3 * x.fld F.INT_STREAM_GEOM_nominal_ns slot then .next s else
    .next (s.noFrame h slot)

/-- The first embedded line of an open frame of a stream (R211). -/
def State.embeddedLine (u : State) (h k : Nat) (data : List Byte) : State :=
  let y := u.half h
  let t := y.stream k
  if y.fld F.INT_STREAM_CFG_counter_src k = 0 || t.embedded then u else
  let off := y.fld F.INT_STALE_CFG_counter_offset k
  let n := if y.fld F.INT_STALE_CFG_counter_32 k = 1 then 4 else 2
  let long := decide (off + n ≤ data.length)
  let c := if long && !t.noCounter then leNat ((data.drop off).take n) else 0
  let u1 := u.upd h fun y => y.updStream k fun t => { t with embedded := true, counter := c }
  if t.noCounter then u1
  else if !long then (u1.upd h fun y => y.updStream k fun t => { t with noCounter := true }).failCheck h k 2 none
  else if t.prevCounter = some c then u1.failCheck h k 2 none else u1

/-- EMBEDDED_DATA_LINE (R189, R191, R211): the first intact one of a frame carries the counter; one whose payload fails its CRC is dropped. -/
def execEmbeddedDataLine (e : Ev) (hd : RxHdr) (vc : Nat) (line : EmbLine) (s0 : State) : Host.Outcome State Fault Refusal :=
  let s := tick e s0
  let h := e.half
  let x := s.half h
  if !x.rxOn hd.rx then .next s else
  let s1 := s.upd h fun y => y.header hd
  let open_ := (x.slotsOf hd.rx vc).filter fun k => (x.stream k).frameOpen
  if open_ = [] then .next (s1.upd h fun x => x.inc F.INT_RX_ERR_CNT_other_drop hd.rx)
  else if !line.crcOk then .next (s1.upd h fun x => x.inc F.INT_RX_ERR_CNT_crc_drop hd.rx)
  else .next (open_.foldl (fun u k => u.embeddedLine h k line.data) s1)

/-- A header that cannot be corrected: counted, and the open frames of the receiver take no more rows (R191). -/
def Half.headerLost (x : Half) (rx : Nat) : Half :=
  ((List.range 4).map (4 * rx + ·)).foldl (fun z k =>
    if z.streamOn k && (z.stream k).frameOpen then z.updStream k fun t => { t with blocked := true } else z) (x.inc F.INT_RX_ERR_CNT_hdr_drop rx)

/-- UNCORRECTABLE_HEADER (R191). -/
def execUncorrectableHeader (e : Ev) (rx : Nat) (s0 : State) : Host.Outcome State Fault Refusal :=
  let s := tick e s0
  let h := e.half
  if !(s.half h).rxOn rx then .next s
  else .next (s.upd h fun x => x.headerLost rx)

/-- An image line that comes before any embedded line of its frame: no counter can be used, and the check is taken at that line (R211). -/
def State.imageFirst (s : State) (h k : Nat) : State :=
  let x := s.half h
  let t := x.stream k
  if x.fld F.INT_STREAM_CFG_counter_src k = 1 && !t.embedded && !t.noCounter then
    (s.upd h fun x => x.updStream k fun t => { t with noCounter := true }).failCheck h k 2 none
  else s

/-- A long packet placed as the next sensor line of its stream (R191); its stamp is held whether or not it is kept (R190). -/
def State.placeLine (s0 : State) (h rx k : Nat) (px : List Nat) (crcOk : Bool) : State :=
  let s := s0.upd h fun x => x.setFld F.INT_LINE_VT_vt x.vt.toNat k
  let x := s.half h
  let t := x.stream k
  let drop (u : State) : State := u.upd h fun x => x.inc F.INT_RX_ERR_CNT_other_drop rx
  let yuv := isYuv (x.fld F.INT_STREAM_CFG_data_type k)
  let wrong := decide (px.length ≠ (if yuv then 2 else 1) * x.fld F.INT_STREAM_GEOM_width k)
  if !t.frameOpen || x.fld F.INT_STREAM_GEOM_height k ≤ t.lines then drop s
  else if t.blocked then
    let s1 := s.imageFirst h k
    if !crcOk then s1.upd h fun x => x.inc F.INT_RX_ERR_CNT_crc_drop rx else if wrong then drop s1 else s1
  else
    let line := t.lines
    let r := (x.geom k).r
    let s1 := s.upd h fun x => (x.updStream k fun t => { t with
      lines := line + 1
      firstVt := if line % r = 0 then (line / r, x.vt.toNat) :: t.firstVt else t.firstVt }).setFld F.INT_LINE_POS_line line k
    let s2 := s1.imageFirst h k
    if !crcOk then s2.upd h fun x => x.inc F.INT_RX_ERR_CNT_crc_drop rx
    else if wrong then drop s2
    else if !x.clk.computeUp then s2
    else
      let s3 := s2.upd h fun x => x.updStream k fun t => { t with
        intact := t.intact + 1, samples := x.sampleLine k line px t.samples
        rowData := (t.rowData.filter fun e => e.1 / r = line / r) ++ [(line, px)] }
      let rows := ((s3.half h).stream k).rowData
      if rows.length = r then s3.publish h k (line / r) (rows.map (·.2)) else s3

/-- LONG_PACKET (R191). -/
def execLongPacket (e : Ev) (rx vc dt : Nat) (px : List Nat) (crcOk corrected : Bool) (s0 : State) : Host.Outcome State Fault Refusal :=
  let s := tick e s0
  let h := e.half
  let x := s.half h
  if !x.rxOn rx then .next s else
  let s1 := s.upd h fun x => x.header { rx := rx, corrected := corrected }
  match (x.slotsOf rx vc).find? fun k => imageType dt && decide (x.fld F.INT_STREAM_CFG_data_type k = dt) with
  | none => .next (s1.upd h fun x => x.inc F.INT_RX_ERR_CNT_other_drop rx)
  | some k => .next (s1.placeLine h rx k px crcOk)

/-! ## Configuration (R192-R196, R212, R216-R218) -/

/-- RX_CFG (R481, R217). -/
def execRxCfg (e : Ev) (m : Msg) (rx cfg : Nat) (s0 : State) : Host.Outcome State Fault Refusal :=
  .next ((tick e s0).mboxL e.half m 0x50 fun t =>
    let rate := bits cfg 4 13
    if 8 ≤ rx || bits cfg 2 2 = 3 || (bits cfg 0 1 = 1 && (rate < 80 || (if bits cfg 1 1 = 0 then 4500 else 6000) < rate)) then (t, .badArg, 0)
    else if bits cfg 0 1 = 0 && (t.half e.half).secureOwned (0x100 + rx) then (t.gateRefuse e.half (0x100 + rx), .notOwner, 0)
    else (t.upd e.half fun x => x.writeWord .INT_RX_CFG rx 0 0 cfg, .ok, 0))

/-- The fields that a stream configuration may have, whether it enables its slot or not (R170, R193, R194, R212, R218; log entry 70). -/
def streamFieldsOk (l : List Nat) : Bool :=
  let cfg := l.getD 0 0
  let geo := l.getD 1 0
  let conv := l.getD 2 0
  let g := geomOf cfg geo (l.getD 3 0) (l.getD 6 0)
  let gain := sexp (bits conv 16 8)
  let lag := bits (l.getD 5 0) 0 14
  decide (bits cfg 11 2 ≠ 3) && !(isYuv (bits cfg 5 6) && bits cfg 11 2 = 1) && [1, 2, 3, 4, 5].contains g.fmt &&
    decide (bits geo 0 16 % g.r = 0) && decide (bits geo 16 16 % g.r = 0) && decide (-24 ≤ gain) && decide (gain ≤ 8) && decide (g.base % 128 = 0) &&
    decide (g.mbase % 128 = 0) && decide (bits (l.getD 4 0) 0 32 ≠ 0) && decide (100 ≤ lag) && decide (lag ≤ 10000)

/-- Another slot selects a virtual channel and data type, now or from its next FS on (R192, R216). -/
def Half.selects (x : Half) (k vc dt : Nat) : Bool :=
  x.streamOn k && ((x.fld F.INT_STREAM_CFG_vc k = vc && x.fld F.INT_STREAM_CFG_data_type k = dt) ||
    (match (x.stream k).pending with
    | some l => decide (bits (l.getD 0 0) 1 4 = vc) && decide (bits (l.getD 0 0) 5 6 = dt)
    | none => false))

/-- A stream configuration that enables its slot is accepted (R189, R192, R196, R218). -/
def State.streamOk (s : State) (h slot : Nat) (l : List Nat) : Bool :=
  let x := s.half h
  let cfg := l.getD 0 0
  let geo := l.getD 1 0
  let g := geomOf cfg geo (l.getD 3 0) (l.getD 6 0)
  let dt := bits cfg 5 6
  let w := bits geo 0 16
  let hg := bits geo 16 16
  let others := ((List.range 4).map (4 * (slot / 4) + ·)).filter fun k => k ≠ slot
  let data := s.inDevice g.base g.dataBytes && inStr h g.base g.dataBytes ||
    (inDram h g.base g.dataBytes && decide (dramBase h + reserveSize ≤ g.base) && decide (g.base + g.dataBytes ≤ dramBase h + x.backed))
  imageType dt && decide (16 ≤ w) && decide (w ≤ 8192) && decide (16 ≤ hg) && decide (hg ≤ 8192) && decide (bits geo 32 32 ≠ 0) &&
    !(others.any fun k => x.selects k (bits cfg 1 4) dt) && data && s.inDevice g.mbase g.markBytes && inStr h g.mbase g.markBytes

/-- A stream slot closed with its new configuration. -/
def Half.streamClosed (x : Half) (slot : Nat) (l : List Nat) : Half :=
  (((x.writeStream slot l).setStream slot Stream.off).setFld F.INT_STREAM_STAT_state 0 slot).setFld F.INT_STREAM_STAT_good_run 0 slot

/-- A stream slot opened with its configuration: LIVE. -/
def Half.streamOpened (x : Half) (slot : Nat) (l : List Nat) : Half :=
  let y := (x.writeStream slot l).setStream slot Stream.off
  (((y.setFld F.INT_STREAM_STAT_state 1 slot).setFld F.INT_STREAM_STAT_good_run 0 slot).setFld F.INT_STREAM_STAT_seq 0 slot).setFld
    F.INT_STREAM_STAT_plan 0 slot

/-- The steward's write of one of the registers that configure a stream (R216): as STREAM_CFG has it. -/
def State.streamWord (s : State) (h : Nat) (reg : Reg) (k val : Nat) : State :=
  let x := s.half h
  let now := (x.stream k).pending.getD (streamRegs.map fun r => x.readWord r k 0 0)
  let l := now.set (streamRegs.idxOf reg) val
  if bits (l.getD 0 0) 0 1 = 0 then
    (if x.streamOn k then (s.closeFrame h k false).upd h fun x => x.streamClosed k l else s.upd h fun x => x.writeWord reg k 0 0 val)
  else if x.streamOn k then s.upd h fun x => x.updStream k fun q => { q with pending := some l }
  else s.upd h fun x => x.streamOpened k l

/-- STREAM_CFG (R216): a new stream is enabled at once, a change to an enabled one waits for its next FS, clearing enable closes the frame. -/
def execStreamCfg (e : Ev) (m : Msg) (slot src : Nat) (s0 : State) : Host.Outcome State Fault Refusal :=
  let h := e.half
  .next ((tick e s0).mboxL h m 0x51 fun t =>
    let r := t.srcBytes h m src 56
    if 32 ≤ slot then (t, .badArg, 0)
    else if r.1 ≠ .ok then (t, r.1, 0)
    else
      let w := leNat r.2
      let l := (List.range 7).map fun i => bits w (64 * i) 64
      let last := [0, 1, 2, 3].all fun k => !(t.half h).streamOn (slot / 4 * 4 + k) || decide (slot / 4 * 4 + k = slot)
      if bits (l.getD 0 0) 0 1 = 0 && last && (t.half h).streamOn slot && (t.half h).secureOwned (0x100 + slot / 4) then
        (t.gateRefuse h (0x100 + slot / 4), .notOwner, 0)
      else if !streamFieldsOk l then (t, .badArg, 0)
      else if bits (l.getD 0 0) 0 1 = 0 then
        ((t.closeFrame h slot false).upd h fun x => x.streamClosed slot l, .ok, 0)
      else if !t.streamOk h slot l then (t, .badArg, 0)
      else if (t.half h).streamOn slot then (t.upd h fun x => x.updStream slot fun q => { q with pending := some l }, .ok, 0)
      else (t.upd h fun x => x.streamOpened slot l, .ok, 0))

end Sys2Proof.Machine
end

