-- ==== Sys2Proof/Machine/Power.lean ====
section
/-! DEFINITION. Clocks, temperatures, power states and resets (R286, R290, R311-R314, R327, R466, R491-R518): the commands of that family. -/
namespace Sys2Proof.Machine

/-! ## Power-good and the reset ball (R513-R517) -/

/-- A P of the package, from whatever was in progress (R504, R513). -/
def State.powerReset (s : State) : State :=
  let clear (t : State) (h : Nat) : State := t.upd h fun x => { x with clk := { x.clk with resetKind := 0, trips := [], tripSrc := [], tripHold := false, latched := false } }
  (clear (clear s 0) 1).resetPackage 4 0x0F false

def State.setGood (s : State) (v : Bool) : State :=
  (s.upd 0 fun x => { x with clk := { x.clk with pwrgood := v } }).upd 1 fun x => { x with clk := { x.clk with pwrgood := v } }

/-- Exit from SLEEP once the rails are good again: a P in which the always-on block keeps its contents (R507, R515). -/
def State.sleepExit (s : State) : State :=
  let one (t : State) (h : Nat) : State := t.upd h fun x =>
    ({ x with clk := { x.clk with resetKind := 5, phase := 0, slpN := true } } : Half).setFld F.CLK_RESET_CAUSE_kind 5 |>.setFld F.CLK_RESET_CAUSE_cause 0x0F
  { one (one s 0) 1 with power := 0, perrN := false }

/-- POWER_GOOD_RISE (R513, R514, R515): the rising edge starts a P, or ends a SLEEP whose wake has come. -/
def execPowerGoodRise (e : Ev) (s0 : State) : Host.Outcome State Fault Refusal :=
  let s := tick e s0
  if s.h0.clk.pwrgood && s.h1.clk.pwrgood then .next s else
  let s1 := { s.setGood true with mismatchVt := none }
  if s.power = 3 then .next (if s.h0.clk.slpN then s1.sleepExit else s1)
  else .next { s1.powerReset with power := 0 }

/-- POWER_GOOD_FALL (R514, R515): both halves reset at once; in SLEEP the rails may go. -/
def execPowerGoodFall (e : Ev) (s0 : State) : Host.Outcome State Fault Refusal :=
  let s := tick e s0
  let s1 := { s.setGood false with mismatchVt := none }
  if s.power = 3 then .next s1 else .next { s1.powerReset with power := 1 }

/-- PWRGOOD_MISMATCH_TIMEOUT (R514): one ball is low; the package is held in reset until they agree. -/
def execPwrgoodMismatchTimeout (e : Ev) (s0 : State) : Host.Outcome State Fault Refusal :=
  let s := tick e s0
  if s.power = 1 || s.power = 3 then .next s else
  let s1 := s.upd e.half fun x => { x with clk := { x.clk with pwrgood := false } }
  .next { s1.powerReset with mismatchVt := some s.now }

/-- Supplies are present and the halves are not asleep: a reset ball or a reset request means something. -/
def State.powered (s : State) : Bool := decide (s.power ≠ 1) && decide (s.power ≠ 3)

/-- RESET_N_LOW (R517): at least 1 µs requests a K; below 100 ns is ignored; between, the manual leaves it open (log entry 1). -/
def execResetNLow (e : Ev) (ns : Nat) (s0 : State) : Host.Outcome State Fault Refusal :=
  let s := tick e s0
  if !s.powered || ns < 100 then .next s else
  let d := s.draw
  let s1 := if ns < 1000 then d.2 else s
  if ns < 1000 && d.1 % 2 = 0 then .next s1 else
  let s2 := s1.resetPackage 3 0x0B true
  .next { s2.upd e.half (fun x => { x with clk := { x.clk with resetN := false } }) with resetPending := true }

/-- RESET_N_RELEASE (R517): the ball goes high; with both high the held K proceeds. -/
def execResetNRelease (e : Ev) (s0 : State) : Host.Outcome State Fault Refusal :=
  let s := tick e s0
  let s1 := s.upd e.half fun x => { x with clk := { x.clk with resetN := true } }
  .next { s1 with resetPending := !(s1.h0.clk.resetN && s1.h1.clk.resetN) }

/-! ## Rim start (R492, R452, R313) -/

/-- A half that is in M, K or P reset and whose start is not held from outside. -/
def State.starting (s : State) (h : Nat) : Bool :=
  decide ((s.half h).clk.resetKind ≥ 2) && s.powered && s.h0.clk.pwrgood && s.h1.clk.pwrgood && !s.resetPending

/-- CRYSTAL_JUDGED_STABLE (R492, R503): at P and K half 0's VT starts at 0. -/
def execCrystalJudgedStable (e : Ev) (s0 : State) : Host.Outcome State Fault Refusal :=
  let s := tick e s0
  let h := e.half
  let x := s.half h
  if !s.starting h || x.fld F.CLK_STAT_xtal_ok = 1 then .next s
  else .next (s.upd h fun x =>
    let y := x.setFld F.CLK_STAT_xtal_ok 1
    if x.clk.resetKind ≥ 3 && h = 0 then { y with vt := 0 } else y)

/-- A rim start that failed on its crystal: counted with cause 0x10, SERR_N asserted (R492). -/
def Half.startFailed (x : Half) : Half :=
  let y := (x.setFld F.CLK_RESET_CAUSE_cause 0x10).incw F.CLK_RESET_CAUSE_resets
  { y with clk := { y.clk with serrN := false } }

/-- CRYSTAL_START_TIMEOUT (R492): the half stays in reset, the failure is counted with cause 0x10, SERR_N is asserted. -/
def execCrystalStartTimeout (e : Ev) (s0 : State) : Host.Outcome State Fault Refusal :=
  let s := tick e s0
  let h := e.half
  if !s.starting h || (s.half h).fld F.CLK_STAT_xtal_ok = 1 then .next s
  else .next (s.upd h Half.startFailed)

/-- A rim that starts: every tree on the PLL, the UFS link up at its gear, the boot stage of R452. -/
def Half.rimStart (x : Half) : Half :=
  let y := (((((x.setFld F.CLK_STAT_pll_locked 1).setFld F.CLK_STAT_on_pll 0xFF).setFld F.SVC_UFS_STAT_gear 5).setFld F.SVC_UFS_STAT_lanes 2).setFld
    F.SVC_UFS_STAT_link_up 1)
  { y with clk := { y.clk with rimUp := true, phase := if x.clk.resetKind ≥ 4 then 2 else 5 }, ports := { y.ports with stage := 1 } }

/-- PLL_JUDGED_LOCKED (R492, R452, R453): every tree moves to the PLL, and the boot ROM starts the steward from the slot that the selector names. -/
def execPllJudgedLocked (e : Ev) (s0 : State) : Host.Outcome State Fault Refusal :=
  let s := tick e s0
  let h := e.half
  let x := s.half h
  if !s.starting h || x.fld F.CLK_STAT_xtal_ok = 0 || x.clk.rimUp then .next s else
  .next (((s.upd h Half.rimStart).upd h fun x => x.flushLate h).bootFirmware h)

/-! ## Clock failures (R494-R497) -/

/-- Reset kind of a clock (R491): 0 stands for a core reset. -/
def clkKind : Clk → Nat
  | .tree t => if t < 3 then 1 else 2
  | .core _ => 0
  | .crystal => 2
  | .pll => 2

/-- A clock lies in a scope that is already in reset (R505). -/
def Half.inReset (x : Half) (c : Clk) : Bool :=
  match c with
  | .core p => decide (x.clk.resetKind ≠ 0) || (x.core p).resetting
  | c => decide (clkKind c ≤ x.clk.resetKind)

/-- The stop of a clock stops the half's firmware, which then sends nothing (R384). -/
def stopsFirmware : Clk → Bool
  | .tree t => decide (t = 5)
  | .core _ => false
  | _ => true

/-- One failed clock counted in CLK_MON (R494). -/
def Half.countClk (x : Half) (f : ClkFail) : Half :=
  let y := if f.count = 0 then x.inc F.CLK_MON_stops else x.inc F.CLK_MON_range
  match f.clk with
  | .tree t => y.setFld F.CLK_MON_last_tree t
  | .core p => (y.setFld F.CLK_MON_last_tree 0xE).setFld F.CLK_MON_last_core p
  | _ => y.setFld F.CLK_MON_last_tree 0xF

/-- Unit of a clock's incident: the tree or the physical core; the crystal and the PLL stand under the code of CLK_MON.last_tree. -/
def clkUnit : Clk → Nat
  | .tree t => t
  | .core p => p
  | _ => 0xF

/-- The critical duty of a core passes to its group's free spare before its reset (R99). -/
def State.spareFirst (s : State) (h p : Nat) : State :=
  let x := s.half h
  if x.critical p && x.spareFree (p / 17) && (x.coreEntry p).2 ≠ 1 then s.upd h fun x => x.stand (p / 17) (p + 1) else s

/-- A core reset with the duty handed over first (R99). -/
def State.resetCore (s : State) (h p cause : Nat) : State := (s.spareFirst h p).coreReset h p cause (((s.half h).logical p).getD 0xFF)

/-- The core reset of a failed core clock. -/
def State.resetClk (s : State) (h : Nat) (f : ClkFail) : State :=
  match f.clk with
  | .core p => s.resetCore h p 1
  | _ => s

/-- CLOCK_MONITOR_FAILURE (R494, R505): the widest reset of the clocks that failed; each is counted and recorded. -/
def execClockMonitorFailure (e : Ev) (fails : List ClkFail) (s0 : State) : Host.Outcome State Fault Refusal :=
  let s := tick e s0
  let h := e.half
  let x := s.half h
  let l := fails.filter fun f => !x.inReset f.clk
  if l = [] || !s.powered then .next s else
  let widest := l.foldl (fun m f => Nat.max m (clkKind f.clk)) 0
  let told := !(l.any fun f => stopsFirmware f.clk)
  let s1 := s.upd h fun x => l.foldl Half.countClk x
  let s2 := if widest = 0 then l.foldl (fun t f => t.resetClk h f) s1
    else s1.resetHalf h widest 0x0A told
  .next (l.foldl (fun t f => t.incident h 0x12 (clkUnit f.clk) .internal f.count) s2)

/-- RC_OSCILLATOR_CHECK (R495): a ratio outside 0.85–1.15 asks for an M. -/
def execRcOscillatorCheck (e : Ev) (ppm : Nat) (s0 : State) : Host.Outcome State Fault Refusal :=
  let s := tick e s0
  let h := e.half
  let x := s.half h
  if !x.clk.rimUp || x.fw.stewardDown || (850000 ≤ ppm && ppm ≤ 1150000) then .next s
  else
    let s1 := (s.upd h fun x => x.inc F.CLK_MON_rc_fail).incident h 0x12 0xFF .internal
    .next (s1.askRestart h 2 0x0E)

/-- CLK_TRIM.trimmed from the cores' dividers (R508). -/
def Half.syncTrimmed (x : Half) : Half := x.setFld F.CLK_TRIM_trimmed (x.cores.filter fun c => c.2.div ≠ 6).length

/-- The divider of the cores without critical duty (R501, R508). -/
def Half.trimDiv (x : Half) : Nat := match x.fld F.CLK_TRIM_div with | 0 => 6 | 1 => 8 | 2 => 12 | _ => 24

/-- CORE_DIVIDER_CHANGE (R496, R497, R501): ÷6 or the divider of the half's TRIM, at a tile boundary; a core with critical duty runs at ÷6 (log entry 181). -/
def execCoreDividerChange (e : Ev) (p div : Nat) (s0 : State) : Host.Outcome State Fault Refusal :=
  let s := tick e s0
  let h := e.half
  let x := s.half h
  if !x.clk.computeUp || x.fw.stewardDown || 136 ≤ p || (div ≠ 6 && div ≠ x.trimDiv) then .next s
  else
    let d := if x.critical p then 6 else div
    .next ((s.setDiv h p d).upd h Half.syncTrimmed)

/-! ## Temperatures (R501, R502, R327) -/

/-- Since when a stage's sensors are all 3 °C below its threshold, kept under a key. -/
def Half.noteBelow (x : Half) (key : Nat) (below : Bool) : Half :=
  let l := x.clk.belowVt
  let n := if !below then kput (fun _ => 0) l key 0 else if kget (fun _ => 0) l key = 0 then kput (fun _ => 0) l key (1 + x.vt.toNat) else l
  { x with clk := { x.clk with belowVt := n } }

/-- A stage has been left: 100 ms below. -/
def Half.stageLeft (x : Half) (key : Nat) : Bool :=
  match kget (fun _ => 0) x.clk.belowVt key with
  | 0 => false
  | n + 1 => decide (n + 100000000 ≤ x.vt.toNat)

/-- The stage after a poll: the highest stage reached, or the highest of those in force not yet left. `th` gives a stage's threshold, none where the
stage is unused; TRIP is entered by its comparator only. -/
def Half.stageNow (x : Half) (base : Nat) (th : Nat → Option Int) (cur : Nat) (m : Int) : Nat :=
  [1, 2, 3, 4].foldl (fun a k => match th k with
    | none => a
    | some t => if (k < 4 && decide (t ≤ m)) || (k ≤ cur && !x.stageLeft (base + k)) then k else a) 0

/-- The half enters TRIM (R498, R501); in PARK the power state shown stays PARK. -/
def Half.enterTrim (x : Half) : Half :=
  if x.fld F.CLK_TRIM_div ≠ 0 then x else
  let y := (x.setFld F.CLK_TRIM_div 1).setFld F.CLK_STAT_power_state (if x.fld F.CLK_STAT_power_state = 0 then 1 else x.fld F.CLK_STAT_power_state)
  { y with clk := { y.clk with trimVt := x.vt.toNat } }

/-- TRIM follows its causes: the junction at TRIM or above, or a supply alert (R498). -/
def Half.syncTrim (x : Half) : Half :=
  if x.fld F.CLK_STAT_stage_logic ≥ 2 || x.fw.supplyFault then x.enterTrim
  else if x.fld F.CLK_TRIM_div = 0 then x
  else (x.setFld F.CLK_TRIM_div 0).setFld F.CLK_STAT_power_state (if x.clk.rimUp && x.fld F.CLK_STAT_power_state = 1 then 0 else x.fld F.CLK_STAT_power_state)

/-- The actions of stages entered: WARN writes an incident, SHED is counted (R501, R508). -/
def State.stageActions (s : State) (h cur now unit : Nat) (m : Int) : State :=
  let warn := cur < 1 && 1 ≤ now
  let shed := cur < 3 && 3 ≤ now
  let s1 := if warn then (s.upd h fun x => x.inc F.CLK_THERM_warn).incident h 0x12 unit .ok (m % 2 ^ 32).toNat else s
  let s2 := if shed then s1.upd h fun x => x.inc F.CLK_THERM_shed else s1
  (s2.upd h Half.syncTrim).syncEmergency

/-- Thresholds of the logic junction (R501). -/
def logicTh : Nat → Option Int
  | 1 => some 100
  | 2 => some 105
  | 3 => some 110
  | 4 => some 115
  | _ => none

/-- Thresholds of a stack (R327). -/
def dramTh : Nat → Option Int
  | 1 => some 95
  | 3 => some 100
  | 4 => some 105
  | _ => none

/-- The hysteresis of every stage noted for a largest reading. -/
def Half.noteStages (x : Half) (base : Nat) (th : Nat → Option Int) (m : Int) : Half :=
  [1, 2, 3, 4].foldl (fun y k => match th k with
    | none => y
    | some t => y.noteBelow (base + k) (decide (m + 3 ≤ t))) x

/-- The largest reading and the first sensor that gives it. -/
def hottest (l : List Int) : Int × Nat :=
  ((List.range l.length).foldl (fun a i => if a.2 = l.length || a.1 < l.getD i 0 then (l.getD i 0, i) else a) (0, l.length))

/-- THERMAL_SENSOR_POLL (R501): the stages of the logic junction act on the largest of the readings. -/
def execThermalSensorPoll (e : Ev) (temps : List Int) (s0 : State) : Host.Outcome State Fault Refusal :=
  let s := tick e s0
  let h := e.half
  let x := s.half h
  if !x.clk.rimUp || x.fw.stewardDown || temps = [] then .next s else
  let m := hottest temps
  let cur := x.fld F.CLK_STAT_stage_logic
  let y := x.noteStages 0 logicTh m.1
  let now := y.stageNow 0 logicTh cur m.1
  let z := ((y.setFld F.CLK_THERM_tj_max (m.1 % 256).toNat).setFld F.CLK_THERM_sensor m.2).setFld F.CLK_STAT_stage_logic now
  let w : Half := if m.1 < 105 then { z with clk := { z.clk with trimVt := x.vt.toNat } } else z
  .next ((s.setHalf h w).stageActions h cur now m.2 m.1)

/-- TRIM_STEP_TIMER (R501): after each further 1 s at or above 105 °C, the next slower divider. -/
def execTrimStepTimer (e : Ev) (s0 : State) : Host.Outcome State Fault Refusal :=
  let s := tick e s0
  let h := e.half
  let x := s.half h
  let d := x.fld F.CLK_TRIM_div
  if !x.clk.rimUp || x.fw.stewardDown || d = 0 || d = 3 || sext8 (x.fld F.CLK_THERM_tj_max) < 105 || x.vt.toNat < x.clk.trimVt + 1000000000 then .next s
  else .next (s.upd h fun x => ({ x with clk := { x.clk with trimVt := x.vt.toNat } } : Half).setFld F.CLK_TRIM_div (d + 1))

/-- A TRIP noted: its stage, its count, its time among those of the last powered hour, its source; the third latches (R502). -/
def Half.tripped (x : Half) (src : TripSrc) : Half :=
  let trips := x.svc.onNs :: within x.svc.onNs 3600000000000 x.clk.trips
  let y := (match src with
    | .junction _ => x.setFld F.CLK_STAT_stage_logic 4
    | .stack _ => x.setFld F.CLK_STAT_stage_dram 4).inc F.CLK_THERM_trip
  { y with clk := { y.clk with trips := trips, latched := x.clk.latched || decide (3 ≤ trips.length), tripHold := true
                               tripSrc := if x.clk.tripSrc.contains src then x.clk.tripSrc else src :: x.clk.tripSrc } }

/-- THERMAL_TRIP (R502): an H, with the compute domain held off until the cause has cooled; after three within a powered hour, until HALF_RESTART. A
PARK request in progress then fails its checks, since a half restarts (R499, R505, log entry 60). -/
def execThermalTrip (e : Ev) (src : TripSrc) (s0 : State) : Host.Outcome State Fault Refusal :=
  let s := tick e s0
  let h := e.half
  let x := s.half h
  if !x.clk.rimUp then .next s else
  let s1 := s.upd h fun x => x.tripped src
  let s2 := s1.resetHalf h 1 0x03 true
  let s3 := s2.incident h 0x12 (match src with | .junction n => n | .stack n => n) .internal
  let s4 := if (s.half (peer h)).normal then s3 else { s3 with perrN := false }
  let s5 : State := if s.power = 4 then { s4 with power := 0, wakeLatched := none } else s4
  .next s5.syncEmergency

/-- A TRIP's source reads 10 °C below its threshold (R502). -/
def cooled (temps stackTemps : List Int) (src : TripSrc) : Bool :=
  match src with
  | .junction n => match temps[n]? with | some t => decide (t ≤ 105) | none => false
  | .stack n => match stackTemps[n]? with | some t => decide (t ≤ 95) | none => false

/-- TRIP_COOLDOWN_RELEASE (R502): every sensor that caused the TRIP has cooled; the compute domain restarts under R311. -/
def execTripCooldownRelease (e : Ev) (temps stackTemps : List Int) (s0 : State) : Host.Outcome State Fault Refusal :=
  let s := tick e s0
  let h := e.half
  let x := s.half h
  if !x.clk.tripHold || !(x.clk.tripSrc.all (cooled temps stackTemps)) then .next s
  else .next (s.upd h fun x => { x with clk := { x.clk with tripHold := false, tripSrc := [] } })

/-- DRAM_TEMPERATURE_POLL (R327): the stages of the stackTemps, with the actions of the logic junction's stages. -/
def execDramTemperaturePoll (e : Ev) (t0 t1 : Int) (s0 : State) : Host.Outcome State Fault Refusal :=
  let s := tick e s0
  let h := e.half
  let x := s.half h
  if !x.clk.rimUp || x.fw.stewardDown then .next s else
  let m := hottest [t0, t1]
  let cur := x.fld F.CLK_STAT_stage_dram
  let y := x.noteStages 16 dramTh m.1
  let now := y.stageNow 16 dramTh cur m.1
  let z := ((y.setFld F.MNT_ECC_temp_c (t0 % 256).toNat 0).setFld F.MNT_ECC_temp_c (t1 % 256).toNat 1).setFld F.CLK_STAT_stage_dram now
  .next ((s.setHalf h z).stageActions h cur now m.2 m.1)

/-! ## Supplies and emergencies (R516, R466) -/

/-- The supply alert raised: the half enters TRIM and an emergency begins (R498, R466). -/
def State.raiseSupply (s : State) (h : Nat) : State :=
  (s.upd h fun x => ({ x with fw := { x.fw with supplyFault := true } } : Half).enterTrim).syncEmergency

/-- PMBUS_POLL (R516): a fault, a regulator without an answer for 10 ms, or a low VR_ALERT_N raises the alert; it clears with no fault after 1 s of a high
VR_ALERT_N. -/
def execPmbusPoll (e : Ev) (fault alertHigh : Bool) (s0 : State) : Host.Outcome State Fault Refusal :=
  let s := tick e s0
  let h := e.half
  let x := s.half h
  if !x.clk.rimUp || x.fw.stewardDown then .next s else
  let s1 := s.upd h fun x => { x with clk := { x.clk with
    vrAlertN := alertHigh, supplyVt := if alertHigh then some (x.clk.supplyVt.getD x.vt.toNat) else none } }
  if fault || !alertHigh then .next (s1.raiseSupply h)
  else
    let y := s1.half h
    match y.clk.supplyVt with
    | some v => if y.fw.supplyFault && decide (v + 1000000000 ≤ y.vt.toNat)
        then .next (s1.upd h fun x => ({ x with fw := { x.fw with supplyFault := false } } : Half).syncTrim).syncEmergency
        else .next s1
    | none => .next s1

/-- VR_ALERT_N_LOW (R516). -/
def execVrAlertNLow (e : Ev) (s0 : State) : Host.Outcome State Fault Refusal :=
  let s := tick e s0
  let h := e.half
  if !(s.half h).clk.rimUp then .next s
  else .next ((s.upd h fun x => { x with clk := { x.clk with vrAlertN := false, supplyVt := none } }).raiseSupply h)

/-- EMERGENCY_CLEAR (R466, R467): after 1 s without a cause the emergency clears, and a deferred activation runs. -/
def execEmergencyClear (e : Ev) (s0 : State) : Host.Outcome State Fault Refusal :=
  let s := tick e s0
  let h := e.half
  let x := s.half h
  match x.fw.emgClearVt with
  | none => .next s
  | some v =>
    if x.vt.toNat < v + 1000000000 || x.fw.stewardDown then .next s
    else .next ((s.upd h fun x => { x with fw := { x.fw with emgClearVt := none } }).runDeferred h)

/-! ## PARK, SLEEP and wakes (R499, R500, R515) -/

/-- The last wake shown in both halves (R500, R508). -/
def State.noteWake (s : State) (src unit : Nat) : State :=
  let one (t : State) (h : Nat) : State := t.upd h fun x =>
    ((x.setFld F.CLK_WAKE_STAT_source src).setFld F.CLK_WAKE_STAT_unit unit).incw F.CLK_WAKE_STAT_wakes
  one (one s 0) 1

/-- The compute domains come up as after an H (R500). -/
def State.parkExit (s : State) : State :=
  let one (t : State) (h : Nat) : State := t.upd h fun x =>
    ({ x with clk := { x.clk with resetKind := 1, phase := 5, reqVt := x.vt.toNat, serrN := false } } : Half).setFld F.CLK_STAT_power_state (if x.fld F.CLK_TRIM_div = 0 then 0 else 1)
  { one (one s 0) 1 with power := 0 }

/-- The exit of the power state in force after its wake. From SLEEP, SLP_N goes high and the boot starts with power-good. -/
def State.leave (s : State) : State :=
  if s.power = 2 then s.parkExit
  else if s.power = 3 then
    let s1 := (s.upd 0 fun x => { x with clk := { x.clk with slpN := true } }).upd 1 fun x => { x with clk := { x.clk with slpN := true } }
    if s.h0.clk.pwrgood && s.h1.clk.pwrgood then s1.sleepExit else s1
  else s

/-- A wake source (R500): it ends PARK, and SLEEP where it may; during entry it is latched. -/
def State.wakeUp (s : State) (src unit : Nat) (fromSleep : Bool) : State :=
  if s.power = 2 || (s.power = 3 && fromSleep && !s.h0.clk.slpN) then
    ((s.noteWake src unit).leave).emit (.wake src unit)
  else if s.power = 4 || (s.power = 5 && fromSleep) then { s with wakeLatched := some (src, unit) }
  else s

/-- CAN_ROUTE_WAKE (R500). -/
def execCanRouteWake (e : Ev) (ctrl : Nat) (s0 : State) : Host.Outcome State Fault Refusal := .next ((tick e s0).wakeUp 1 ctrl false)

/-- TC10_WAKE (R500): the port is that of the half. -/
def execTc10Wake (e : Ev) (s0 : State) : Host.Outcome State Fault Refusal := .next ((tick e s0).wakeUp 2 e.half true)

/-- WAKE_INPUT_BALL (R500). -/
def execWakeInputBall (e : Ev) (ball : Nat) (s0 : State) : Host.Outcome State Fault Refusal := .next ((tick e s0).wakeUp 4 ball true)

/-- A wake that was latched during the entry begins the exit (R500). -/
def State.latchedWake (s : State) : State :=
  match s.wakeLatched with
  | none => s
  | some w => (({ s with wakeLatched := none } : State).noteWake w.1 w.2).leave.emit (.wake w.1 w.2)

/-- One half in PARK: its compute domain is down as at an H, its display links are off (R498, R499). -/
def State.parkHalf (s : State) (h : Nat) : State :=
  let s1 := if (s.half h).clk.computeUp then s.downCompute h else s
  s1.upd h fun x =>
    let y := ((x.restore fun f => f.restored 1).setFld F.CLK_STAT_power_state 2)
    let z := [0, 1].foldl (fun y p => y.setPipe p { y.pipe p with linkUp := false }) y
    { z with clk := { z.clk with phase := 0 } }

/-- PARK_ENTRY_COMPLETE (R499, R467): PARK is reached; a pending activation is lost; a latched wake begins the exit. -/
def execParkEntryComplete (e : Ev) (s0 : State) : Host.Outcome State Fault Refusal :=
  let s := tick e s0
  if s.power ≠ 4 then .next s else
  let s1 := (((s.loseDeferred 0).loseDeferred 1).parkHalf 0).parkHalf 1
  .next ({ s1 with power := 2 } : State).latchedWake

/-- A half in SLEEP: SLP_N low, SERR_N asserted (R515). -/
def Half.asleep (x : Half) : Half :=
  ({ x with clk := { x.clk with resetKind := 5, phase := 0, slpN := false, serrN := false } } : Half).setFld F.CLK_STAT_power_state 3

/-- One half entering SLEEP: its domains go down. -/
def State.sleepHalf (s : State) (h : Nat) : State :=
  ((if (s.half h).clk.computeUp then s.downCompute h else s).downRim h 5 false).upd h Half.asleep

/-- SLEEP_ENTRY_COMPLETE (R499, R515): everything but the always-on blocks has stopped; SLP_N goes low. -/
def execSleepEntryComplete (e : Ev) (s0 : State) : Host.Outcome State Fault Refusal :=
  let s := tick e s0
  if s.power ≠ 5 then .next s else
  let s1 := (s.sleepHalf 0).sleepHalf 1
  .next ({ s1 with power := 3, perrN := false } : State).latchedWake

/-! ## Core and half resets (R99, R311, R313, R504) -/

/-- CORE_RESET (R99). -/
def execCoreReset (e : Ev) (p cause : Nat) (s0 : State) : Host.Outcome State Fault Refusal :=
  let s := tick e s0
  let h := e.half
  if !(s.half h).clk.computeUp || 136 ≤ p || ((s.half h).core p).resetting then .next s else .next (s.resetCore h p cause)

/-- CORE_RESET_DONE (R99): the core returns to service; one that was asked to turn to graphics meanwhile turns (R251). -/
def execCoreResetDone (e : Ev) (p : Nat) (s0 : State) : Host.Outcome State Fault Refusal :=
  let s := tick e s0
  .next (s.updCore e.half p fun c =>
    if c.resetting then { c with resetting := false, switching := c.gfxReq && !c.graphics, gfxReq := false } else c)

/-- HALF_COMPUTE_RESTART (R311, R312, R504). -/
def execHalfComputeRestart (e : Ev) (reason : Nat) (fwStopped : Bool) (s0 : State) : Host.Outcome State Fault Refusal :=
  let s := tick e s0
  if !s.powered then .next s else .next (s.resetHalf e.half 1 reason (!fwStopped))

/-- HALF_RIM_RESTART (R313, R504). -/
def execHalfRimRestart (e : Ev) (reason : Nat) (fwStopped : Bool) (s0 : State) : Host.Outcome State Fault Refusal :=
  let s := tick e s0
  if !s.powered then .next s else .next (s.resetHalf e.half 2 reason (!fwStopped))

/-- PACKAGE_WARM_RESET (R504): a K of both halves. -/
def execPackageWarmReset (e : Ev) (reason : Nat) (fwStopped : Bool) (s0 : State) : Host.Outcome State Fault Refusal :=
  let s := tick e s0
  if !s.powered then .next s else .next (s.resetPackage 3 reason (!fwStopped))

/-! ## Ready and rejoin (R290, R518) -/

/-- The VTs of two running halves agree within 1 µs (R290, R355). -/
def State.vtAgrees (s : State) (h : Nat) : Bool :=
  let o := s.half (peer h)
  !o.clk.ready || (decide (s.vtOf h ≤ s.vtOf (peer h) + 1000) && decide (s.vtOf (peer h) ≤ s.vtOf h + 1000))

/-- The restart may end with the Gatehouse's report: the rim runs with its record loaded, no TRIP and no hold keeps the compute domain off (R300, R482, R502). -/
def Half.mayReady (x : Half) : Bool :=
  x.clk.rimUp && decide (x.clk.resetKind ≠ 0) && !x.clk.held && !x.clk.tripHold && !x.clk.latched &&
    (decide (x.clk.resetKind = 1) || (x.vaults.pufOk && decide (2 ≤ x.ports.stage) && decide (x.fld F.SVC_REC_STAT_held = 0)))

/-- GATEHOUSE_READY (R290, R311, R313, R439, R452, R518): the compute domain is up with its windows, partitions, pinned models and device regions
reloaded; its trees run from the PLL again (log entry 157). -/
def execGatehouseReady (e : Ev) (s0 : State) : Host.Outcome State Fault Refusal :=
  let s := tick e s0
  let h := e.half
  let x := s.half h
  if !x.mayReady || !s.vtAgrees h then .next s else
  let s1 := s.upd h fun x0 => let x := (x0.fillBuckets s.now).setFld F.CLK_STAT_on_pll 0xFF; { x with clk := { x.clk with computeUp := true, ready := true, phase := 1, resetKind := 0 }, ports := { x.ports with stage := 4 } }
  let s2 := if x.clk.resetKind = 1 then (s1.upd h fun x => (x.reloadWindows []).syncRecord).reloadRegions h [] else s1.loadAtlas h
  let s3 := (s2.hosted h).foldl (fun t v =>
    (t.noticeBare v 3).upd h fun x => if x.fld F.TEL_STATE_state v = 4 then x.setFld F.TEL_STATE_state (if (t.vdi v).migStep ≠ 0 then 2 else 0) v else x) s2
  let s4 := (s3.upd h fun x => { x with tally := { x.tally with rejoining := (s.half (peer h)).degraded, passed := [] } }).hatchSend h 0x44 [2]
  .next (((s4.serr h).perrClear).syncEmergency.settleMsgs h)

/-- A half back on its normal bank from a major-frame start (R290, step 4 and 5). -/
def Half.rejoin (x0 : Half) (vt : Nat) : Half :=
  let x := x0.pastRuns
  let deg := x.degraded
  let y := (x.setFld F.TLY_CTL_degraded 0).setFld F.TLY_CTL_witness 0
  let z := if deg then ((y.setFld F.TLY_MODE_VT_vt vt).setFld F.WIN_CTL_active_bank x.tally.normalBank).setFld F.TLY_CTL_standby (if x.tally.noStandby then 0 else 1) else y
  let on := z.fld F.WIN_CTL_enable = 1
  let w : Half := { z with
    win := { z.win with inst := [], running := on, disableAt := none }
    tally := { z.tally with noStandby := false, unbacked := false, degradeAt := none, rejoining := false, rejoinStep := 0, passed := [], lossVt := none }
    clk := { z.clk with phase := 3 } }
  let v := w.setFld F.WIN_ACT_VT_vt vt
  if on then v.activateTasks vt else v

/-- A half that may activate its normal bank at `vt`: ready, not held, its link up, its channels' assays passed, and `vt` a frame start where its windows run. -/
def Half.mayRejoin (x : Half) (vt : Nat) : Bool :=
  x.clk.ready && decide (x.clk.resetKind = 0) && !x.clk.held && x.linkUp && decide (vt ≤ x.vt.toNat) && x.trialsPassed vt &&
    (x.fld F.WIN_CTL_enable = 0 || x.isFrameStart vt)

/-- REJOIN_ACTIVATION (R290, R305): both halves activate their normal banks at the same major-frame start, unless withdrawals left too little room for them. -/
def execRejoinActivation (e : Ev) (vt : Nat) (s0 : State) : Host.Outcome State Fault Refusal :=
  let s := tick e s0
  if !s.h0.mayRejoin vt || !s.h1.mayRejoin vt || (s.h0.normal && s.h1.normal) then .next s
  else if !s.confFits 0 || !s.confFits 1 then .next (s.incident (if s.confFits 0 then 1 else 0) 0x03 0 .noSpace)
  else
    let ends (s : State) (h : Nat) : State := ((s.half h).win.inst.filter fun i => i.2.open_).foldl (fun t i => t.endUnmet h i.1) s
    let s := ends (ends s 0) 1
    .next (((({ s with h0 := s.h0.rejoin vt, h1 := s.h1.rejoin vt, secondFault := false } : State).serr 0).serr 1).perrClear.runRestart 0 |>.runRestart 1)

end Sys2Proof.Machine
end

