-- ==== Sys2Proof/Machine/WindowCfg.lean ====
section
/-! DEFINITION. The mailbox messages that configure windows, partitions, tasks and the Tally (R219-R223, R254-R261, R293), with the checks of a bank. -/
namespace Sys2Proof.Machine

/-! ## The checks of a window bank (R223) -/

/-- The inactive bank's number and entries. -/
def Half.idleBank (x : Half) : Nat := 1 - x.fld F.WIN_CTL_active_bank
def Half.idleEntries (x : Half) : List (Nat × Nat) := if x.idleBank = 0 then x.win.bank0 else x.win.bank1

/-- Fields of an entry in range, kind, partition and engine consistent (R221). -/
def wFieldsOk (x : Half) (w : Nat) : Bool :=
  match wKind w with
  | 0 => true
  | 1 => decide (wPart w = 0) && decide (wCount w = 1) && decide (wCmd w % 128 = 0) && decide (wCond w % 32 = 0) && decide (wRing w % 32 = 0) &&
      decide (4 ≤ wRingLog w) && decide (wRingLog w ≤ 12)
  | 2 => decide (1 ≤ wPart w) && decide (wEngine w = 0) && decide (1 ≤ wCount w) && decide (wCore w + wCount w ≤ 128) && decide (2 ≤ x.partKind (wPart w))
  | _ => false

/-- The last instance of an entry ends within the frame, and its instances do not overlap. -/
def wFits (len w : Nat) : Bool :=
  wKind w = 0 || wInstances w = 0 ||
    ((decide (wInstances w = 1) || decide (wDuration w ≤ wPeriod w)) && decide (wStart w + (wInstances w - 1) * wPeriod w + wDuration w ≤ len))

/-- Two entries hold a core in common, or both the Sieve. -/
def wShare (a b : Nat) : Bool :=
  let sieve (w : Nat) : Bool := wKind w = 1 && wEngine w = 1
  (sieve a && sieve b) || (List.range 128).any fun l => wHolds a l && wHolds b l

/-- Some instances of two entries overlap: each instance of `a` against the last of `b` that starts before its end. -/
def wOverlap (a b : Nat) : Bool :=
  (List.range (wInstances a)).any fun k =>
    let s := wStart a + k * wPeriod a
    let e := s + wDuration a
    decide (wInstances b ≠ 0) && decide (wStart b < e) && decide (0 < wDuration a) && decide (0 < wDuration b) &&
      (let j := Nat.min (wInstances b - 1) ((e - 1 - wStart b) / Nat.max (wPeriod b) 1)
       decide (s < wStart b + j * wPeriod b + wDuration b))

/-- A context whose record is valid (R242). -/
def State.ctxValid (s : State) (c : Nat) : Bool := decide (cWeight (s.ctx c).raw ≠ 0)

/-- The core of a COMMAND entry lies in a graphics partition's core set. -/
def Half.inGraphics (x : Half) (l : Nat) : Bool := (List.range 16).any fun q => decide (x.partKind q = 3) && x.inPart q l

/-- A range that a VDI's critical structures may lie in: its windows or device-owned granules, of DRAM or Strongroom. -/
def State.inAllowed (s : State) (v a n : Nat) : Bool := s.reaches a n && (s.inWindows v a n || s.inDevice a n)

/-- The condition that an entry names and the command of a Sieve entry can be read (R118; log entry 168). -/
def State.condReads (s : State) (h w : Nat) : Bool := wCond w = 0 || s.access h (wCond w) 32 = .ok
def State.cmdReads (s : State) (h w : Nat) : Bool := s.access h (wCmd w) 128 = .ok

/-- A condition on a frame record of stream `k` of the half. -/
def State.recordCond (s : State) (h w k : Nat) : Bool :=
  let c := s.entryCond w
  let g := (s.half h).geom k
  wCond w ≠ 0 && rKind c = 1 && rCount c ≠ 0 && (s.half h).fld F.INT_STREAM_CFG_enable k = 1 && (List.range g.nbuf).any fun i => decide (rAddr c = g.record i)

/-- The streams whose intake rows the entries of a channel of a task wait on: a camera task has some (R214; log entry 13). -/
def State.cameras (s : State) (h : Nat) (l : List (Nat × Nat)) (t c : Nat) : List Nat :=
  (List.range 32).filter fun k => l.any fun e => wKind e.2 = 1 && wTask e.2 = t && wChannel e.2 = c && s.intakeCond h e.2 k

/-- A delivering command of a camera task without a condition on the frame record of its camera; a command waits on one record only, so of several cameras one is
enough (R214; log entry 13). -/
def State.lacksRecord (s : State) (h : Nat) (l : List (Nat × Nat)) (w : Nat) : Bool :=
  let k := s.cameras h l (wTask w) (wChannel w)
  wDelivers w && k ≠ [] && !k.any fun i => s.recordCond h w i

/-- The bound of a Sieve entry's command in ns (R184). -/
def State.entryBound (s : State) (w : Nat) : Nat := svBound (s.rdN (wCmd w) 128)

/-- Another Sieve instance starts while one of `a`, run to its bound, still runs; the frame repeats. -/
def sieveClash (frameNs bound : Nat) (same : Bool) (a b : Nat) : Bool :=
  (List.range (wInstances a)).any fun k => (List.range (wInstances b)).any fun j =>
    let s := (wStart a + k * wPeriod a) * 100
    let t := (wStart b + j * wPeriod b) * 100
    if same && k = j then decide (frameNs < bound) else decide ((t + frameNs - s % frameNs) % frameNs < bound)

/-- The checks of R223 in their order: the status of the first that fails, with the entry's index. -/
def State.checkBank (s : State) (h vt : Nat) (standby : Bool) : Option (Status × Option Nat) :=
  let x := s.half h
  let l := x.idleEntries.filter fun e => wKind e.2 ≠ 0
  let run := l.filter fun e => wInstances e.2 ≠ 0
  let cmds := l.filter fun e => wKind e.2 = 1
  let len := x.fld F.WIN_FRAME_length
  let vdiOf (w : Nat) : Nat := cVdi (s.ctx (wCtx w)).raw
  let bad (p : Nat × Nat → Bool) (m : List (Nat × Nat)) : Option Nat := (m.find? p).map (·.1)
  let sieves := cmds.filter fun e => wEngine e.2 = 1 && decide (wInstances e.2 ≠ 0)
  if !standby && !(x.isFrameStart vt && decide (x.vt.toNat + 100000 ≤ vt)) then some (.badArg, none)
  else if len < 1000 || 10000000 < len then some (.badArg, none)
  else match bad (fun e => !wFieldsOk x e.2) l with
  | some n => some (.badArg, some n)
  | none => match bad (fun e => !wFits len e.2) l with
  | some n => some (.badArg, some n)
  | none => match bad (fun e => run.any fun f => decide (f.1 < e.1) && wShare e.2 f.2 && wOverlap e.2 f.2) run with
  | some n => some (.badArg, some n)
  | none => match bad (fun e => !s.ctxValid (wCtx e.2) || decide (bits (wCtx e.2) 19 1 ≠ (s.vdi (vdiOf e.2)).profile) || decide (cPart (s.ctx (wCtx e.2)).raw ≠ wPart e.2) ||
      (decide (wEngine e.2 = 0) && x.inGraphics (wCore e.2))) cmds with
  | some n => some (.badArg, some n)
  | none => match bad (fun e => !(s.inAllowed (vdiOf e.2) (wCmd e.2) 128 && (decide (wCond e.2 = 0) || s.inAllowed (vdiOf e.2) (wCond e.2) 32) &&
      s.inAllowed (vdiOf e.2) (wRing e.2) (32 * 2 ^ wRingLog e.2))) cmds with
  | some n => some (.outOfRange, some n)
  | none => match bad (fun e => (s.needs (wCtx e.2) (vdiOf e.2)).any fun m => decide (m.2.state ≠ 3)) cmds with
  | some n => some (.badArg, some n)
  | none => match bad (fun e => !s.cmdReads h e.2 || sieves.any fun f => sieveClash (Nat.max x.frameNs 1) (s.entryBound e.2) (decide (e.1 = f.1)) e.2 f.2) sieves with
  | some n => some (.badArg, some n)
  | none => match bad (fun e => let c := s.entryCond e.2
      !s.condReads h e.2 || (rHalo c && (decide (rFallback c = 0) || decide (31 < rStream c)))) cmds with
  | some n => some (.badArg, some n)
  | none => match bad (fun e => s.lacksRecord h l e.2) cmds with
  | some n => some (.badArg, some n)
  | none => none

/-! ## The checks of a bank's tasks (R261, R305, R485) -/

/-- The bank of a half as an activation compares it: the one written or pending, else the active one. -/
def Half.comingEntries (x : Half) : List (Nat × Nat) := if x.win.written || x.win.pendVt.isSome then x.idleEntries else x.bankEntries

/-- The bank in which a channel of the bank under check on half `h` runs. -/
def State.chanBank (s : State) (h : Nat) (standby : Bool) (c : Nat) : List (Nat × Nat) :=
  if standby || c = h then (s.half h).idleEntries else (s.half (peer h)).comingEntries

/-- The record is valid and its fields are in range. -/
def State.taskRange (s : State) (r : Nat) : Bool :=
  let ch (c : Nat) : Bool :=
    let k := chRec r c
    decide (chFmt k ≤ 5) && decide (chLayout k ≤ 2) && (decide (tkKind r = 1) || decide (chFmt k ≠ 5) || scaleOk (f32 (chScale k))) &&
      (decide (tkRoundMode r = 0) || (decide (1 ≤ chStages k) && decide (chStages k ≤ 8)))
  let tau := (List.range (tkC r)).map fun i => f32 (s.rdN (tkTol r + 4 * i) 4)
  decide (tkValid r = 1) && decide (1 ≤ tkAssayMs r) && decide (tkAssayMs r ≤ 1000) && decide (1 ≤ tkBudget r) && decide (tkBudget r ≤ 20) &&
    decide (tkRing r 0 % 64 = 0) && decide (tkRing r 1 % 64 = 0) && decide (4 ≤ tkRingLog r) && decide (tkRingLog r ≤ 12) && ch 0 && ch 1 &&
    (if tkKind r = 1 then decide (tkN r = 1) && decide (tkH r = 1) && decide (tkW r = 1) && decide (tkC r ≤ 2048)
     else decide (tkN r * tkH r * tkW r * tkC r ≤ 262144) && !tau.any (fun v => v = .nan) && tau.any fun v => !v.neg? || v.isZero)

/-- Each channel has one delivering entry, with equal instances; of a box task both on the Sieve. -/
def deliveringOk (r t : Nat) (a b : List (Nat × Nat)) : Bool :=
  match (chEntries a t 0 0).filter (fun e => wDeadline e.2 ≠ 0), (chEntries b t 1 0).filter (fun e => wDeadline e.2 ≠ 0) with
  | [p], [q] => decide (wInstances p.2 = wInstances q.2) && (decide (tkKind r = 0) || (decide (wEngine p.2 = 1) && decide (wEngine q.2 = 1)))
  | _, _ => false

/-- Instance time of entries on a core per major frame, in units of 100 ns. -/
def heldOn (l : List (Nat × Nat)) (c : Nat) : Nat := l.foldl (fun a e => if wEngine e.2 = 0 && wCore e.2 = c then a + wInstances e.2 * wDuration e.2 else a) 0

/-- RESERVE: an assay delivering entry for each channel, within the budget on each of their cores. -/
def reserveOk (r t : Nat) (l : List (Nat × Nat)) (c : Nat) : Bool :=
  let assay := chEntries l t c 1
  decide ((assay.filter fun e => wDeadline e.2 ≠ 0).length = 1) &&
    assay.all fun e => wEngine e.2 = 1 || decide (heldOn assay (wCore e.2) * 100 ≤ tkBudget r * heldOn (l.filter fun f => wKind f.2 = 1) (wCore e.2))

/-- ROUND: exactly `stages` entries, alike in period and instances, the delivering one last. -/
def roundOk (r t : Nat) (l : List (Nat × Nat)) (c : Nat) : Bool :=
  let es := chEntries l t c 0
  decide (es.length = chStages (chRec r c)) && (match es.getLast? with
    | some d => decide (wDeadline d.2 ≠ 0) && es.all fun e => decide (wPeriod e.2 = wPeriod d.2) && decide (wInstances e.2 = wInstances d.2)
    | none => false)

/-- Rings, tolerances, results and expected data lie where the task's VDI may have them. -/
def State.taskPlaces (s : State) (r : Nat) : Bool :=
  let v := tkVdi r
  let ok (a n : Nat) : Bool := n = 0 || s.inAllowed v a n
  let ch (c : Nat) : Bool :=
    let k := chRec r c
    let z := chSizes r c
    ok (chResult k) z.1 && ok (chLedger k) z.2 && ok (chExp k) (if tkKind r = 1 then z.1 else 4 * (tkN r * tkH r * tkW r * tkC r)) && ok (chLexp k) z.2 &&
      (decide (tkRoundMode r = 0) || ok (chAssayCmd k) (128 * chStages k))
  ok (tkRing r 0) (64 * 2 ^ tkRingLog r) && ok (tkRing r 1) (64 * 2 ^ tkRingLog r) && (decide (tkKind r = 1) || ok (tkTol r) (4 * tkC r)) && ch 0 && ch 1

/-- Slots of a task's staging ring under the banks of its channels (R263). -/
def slotsFor (frameNs t : Nat) (a b : List (Nat × Nat)) : Nat :=
  let e := [delivering a t 0 0, delivering b t 1 0].filterMap id
  let d := e.foldl (fun m w => Nat.max m (wDeadline w.2 * 100)) 0
  let p := match e with
    | w :: _ => if wInstances w.2 ≤ 1 then frameNs else wPeriod w.2 * 100
    | [] => frameNs
  (d + 3000) / Nat.max p 1 + 1

/-- The staging region of a half holds the slots, in granules that no withdrawal took. -/
def Half.stagingHolds (x : Half) (bytes : Nat) : Bool :=
  let base := x.fld F.TLY_STAGING_base
  let n := x.fld F.TLY_STAGING_granules
  decide (bytes ≤ n * 0x10000) && (bytes = 0 || (List.range n).all fun k => bits (x.fld F.STR_GROUP_STATE_withdrawn) ((base / 0x10000 + k) / 256) 1 = 0)

/-- The checks of R261 in their order over the tasks that the bank names: status and task. -/
def State.checkTasks (s : State) (h : Nat) (standby : Bool) : Option (Status × Option Nat) :=
  let x := s.half h
  let ts := bankTasks x.idleEntries
  let a := s.chanBank h standby 0
  let b := s.chanBank h standby 1
  let rec0 (t : Nat) : Nat := s.taskRec h t
  let bad (p : Nat → Bool) : Option Nat := ts.find? p
  if x.fld F.SVC_LIFECYCLE_state = 2 && ts ≠ [] then some (.badArg, ts.head?) else
  match bad fun t => !s.taskRange (rec0 t) with
  | some t => some (.badArg, some t)
  | none => match bad fun t => !deliveringOk (rec0 t) t a b with
  | some t => some (.badArg, some t)
  | none => match bad fun t => tkDiversity (rec0 t) = 0 with
  | some t => some (.badArg, some t)
  | none => match bad fun t => tkRoundMode (rec0 t) = 0 && !(reserveOk (rec0 t) t a 0 && reserveOk (rec0 t) t b 1) with
  | some t => some (.badArg, some t)
  | none => match bad fun t => tkRoundMode (rec0 t) = 1 && !(roundOk (rec0 t) t a 0 && roundOk (rec0 t) t b 1) with
  | some t => some (.badArg, some t)
  | none => match bad fun t => decide (s.taskRec 0 t ≠ s.taskRec 1 t) with
  | some t => some (.badArg, some t)
  | none => match bad fun t => !s.taskPlaces (rec0 t) with
  | some t => some (.outOfRange, some t)
  | none =>
    let need := ts.foldl (fun n t => n + slotsFor x.frameNs t a b * slotSize (rec0 t)) 0
    if s.h0.stagingHolds need && s.h1.stagingHolds need then none else some (.noSpace, none)

/-- The first entry of the bank whose command's image declares a minimum release above either half's (R316, R317). -/
def State.checkImages (s : State) (h : Nat) : Option Nat :=
  let low := Nat.min ((s.half h).fld F.SVC_FW_STAT_release) (s.peerRelease h)
  ((s.half h).idleEntries.find? fun e => wKind e.2 = 1 && (s.half h).str.models.any fun m =>
    m.usedBy (wCtx e.2) (cVdi (s.ctx (wCtx e.2)).raw) && decide (low < Config.minRelease m.key)).map (·.1)

/-! ## Window messages (R221-R223, R255) -/

/-- 64-byte entries written one after another. -/
def putEntries (bank : List (Nat × Nat)) (first : Nat) (l : List Byte) : List (Nat × Nat) :=
  (List.range (l.length / 64)).foldl (fun m k => kput (fun _ => 0) m (first + k) (leNat ((l.drop (64 * k)).take 64))) bank

/-- Entries written into the idle bank, whose validation lapses. -/
def Half.writeBank (x : Half) (first : Nat) (l : List Byte) : Half :=
  let w : Window := { x.win with written := true, pendVt := none }
  let w1 : Window := if x.idleBank = 0 then { w with bank0 := putEntries w.bank0 first l } else { w with bank1 := putEntries w.bank1 first l }
  (({ x with win := w1 } : Half).setFld F.WIN_CTL_pending 0).setFld F.TLY_CTL_standby 0

/-- WIN_WRITE (R221, R391): entries of the inactive bank; a validation of that bank is void. -/
def execWinWrite (e : Ev) (m : Msg) (first count src : Nat) (s0 : State) : Host.Outcome State Fault Refusal :=
  let h := e.half
  .next ((tick e s0).mbox h m 0x20 .l false fun t =>
    if count = 0 then (t, .empty, 0) else if 2048 < count || 4096 < first + count then (t, .badArg, 0) else
    t.withSrc h m src (64 * count) fun l =>
      (t.upd h fun x => x.writeBank first l, .ok, 0))

/-- The idle bank is the standby; a half that lost its partner without one degrades at the next frame start. -/
def Half.standbyBank (x : Half) (alone : Bool) : Half :=
  let y : Half := { x with win := { x.win with written := false }
                           tally := if alone then { x.tally with noStandby := false, degradeAt := some (x.nextFrame (x.vt.toNat + 20000)) } else x.tally }
  y.setFld F.TLY_CTL_standby 1

/-- The idle bank is validated and becomes active at `vt`. -/
def Half.pendBank (x : Half) (vt : Nat) : Half :=
  ({ x with win := { x.win with written := false, pendVt := some vt } } : Half).setFld F.WIN_CTL_pending 1

/-- WIN_ACTIVATE (R223, R261, R286, R288, R317): the inactive bank validated, and pending until its VT, or marked as the degraded standby; a half that lost the
other without a standby takes it up at once. -/
def execWinActivate (e : Ev) (m : Msg) (vt : Nat) (standby : Bool) (s0 : State) : Host.Outcome State Fault Refusal :=
  let h := e.half
  .next ((tick e s0).mbox h m 0x21 .l false fun t =>
    let fail (st : Status) (n : Option Nat) : State × Status × Nat := match n with
      | some i => (t, st, i)
      | none => let d := t.draw; (d.2, st, d.1 % 2 ^ 32)
    match t.checkBank h vt standby, t.checkTasks h standby, t.checkImages h with
    | some r, _, _ => fail r.1 r.2
    | none, some r, _ => fail r.1 r.2
    | none, none, some n => fail .versionMismatch (some n)
    | none, none, none =>
      if standby then
        let x := t.half h
        let alone := x.degraded && x.tally.noStandby
        let t1 := t.upd h fun x => x.standbyBank alone
        ((if alone then t1.perrClear else t1).saveConf h true, .ok, 0)
      else (t.upd h fun x => x.pendBank vt, .ok, 0))

/-- WIN_FRAME (R222). -/
def execWinFrame (e : Ev) (m : Msg) (length phase : Nat) (s0 : State) : Host.Outcome State Fault Refusal :=
  let h := e.half
  .next ((tick e s0).mboxL h m 0x22 fun t =>
    if length = 0 then (t, .empty, 0) else if length < 1000 || 10000000 < length then (t, .badArg, 0)
    else (t.upd h fun x => (x.setFld F.WIN_FRAME_length length).setElem .WIN_PHASE (phase % 2 ^ 64), .ok, 0))

/-- A command of a partition is in flight on the half. -/
def State.partBusy (s : State) (h q : Nat) : Bool :=
  let x := s.half h
  x.cores.any (fun c => match c.2.run with | some r => decide (r.part = q) | none => false) ||
    x.disp.queues.any (fun k => k.2.flying ≠ [] && decide (cPart (s.ctx (qCtx k.2.record)).raw = q)) ||
    (match x.sieve with | some r => decide (cPart (s.ctx r.ctx).raw = q) | none => false)

/-- A core of a graphics partition lies in another one or has a command entry of the active bank, of the one that awaits its activation, or of a validated
standby bank (R220, R286). -/
def Half.graphicsClash (x : Half) (part cores : Nat) : Bool := (List.range 128).any fun l => bits cores l 1 = 1 &&
  (((List.range 16).any fun q => decide (q ≠ part) && decide (x.partKind q = 3) && x.inPart q l) ||
    (x.bankEntries ++ (if x.win.pendVt.isSome || x.fld F.TLY_CTL_standby = 1 then x.idleEntries else [])).any fun w => wKind w.2 = 1 && wEngine w.2 = 0 && wCore w.2 = l)

/-- A partition record that may not be written: its kind, its tile limit, its render budget, its core set, or a command in flight (R93, R219, R220, R254). -/
def State.partBad (s : State) (h part cfg cores : Nat) : Bool :=
  let kind := if part = 0 then 1 else bits cfg 0 2
  let lim := bits cfg 2 8
  16 ≤ part || (part ≠ 0 && kind = 1) || lim < 5 || 200 < lim || (kind = 3 && bits cfg 16 16 = 0) ||
    (kind = 3 && (s.half h).graphicsClash part cores) || s.partBusy h part

/-- The steward's write of a word of a partition's registers: the same checks; a record that fails them keeps its value (R219, R254). -/
def State.partWord (s : State) (h : Nat) (reg : Reg) (part word val : Nat) : State :=
  let y := (s.half h).writeWord reg 0 part word val
  let kind := if part = 0 then 1 else y.fld F.WIN_PART_CFG_kind 0 part
  let z := y.setFld F.WIN_PART_CFG_kind kind 0 part
  if s.partBad h part (z.elem .WIN_PART_CFG 0 part) (z.elem .WIN_PART_CORES 0 part) then s else s.upd h fun _ => z

/-- PART_WRITE (R219, R220, R254): the kind of partition 0 is fixed. -/
def execPartWrite (e : Ev) (m : Msg) (part cfg cores : Nat) (s0 : State) : Host.Outcome State Fault Refusal :=
  let h := e.half
  .next ((tick e s0).mboxL h m 0x23 fun t =>
    let kind := if part = 0 then 1 else bits cfg 0 2
    if t.partBad h part cfg cores then (t, .badArg, 0)
    else (t.upd h fun x => (x.setWord .WIN_PART_CFG 0 part 0 (setBits (cfg % 2 ^ 32) 0 2 kind)).setElem .WIN_PART_CORES (cores % 2 ^ 128) 0 part, .ok, 0))

/-- The sequencer is enabled from `vt` on; one that runs and is not about to stop runs on. -/
def Half.enableWindows (x : Half) (vt : Nat) : Half :=
  ({ x with win := { x.win with enableAt := if x.win.running && x.win.disableAt.isNone then none else some vt } } : Half).setFld F.WIN_CTL_enable 1

/-- The sequencer stops at the frame's end. -/
def Half.disableWindows (x : Half) : Half :=
  ({ x with win := { x.win with enableAt := none, disableAt := if x.win.running then x.win.disableAt.orElse fun _ => some (x.frameStart x.vt.toNat + x.frameNs) else none } } : Half).setFld F.WIN_CTL_enable 0

/-- WIN_ENABLE, set (R255, R503): the active bank starts at the first frame start at or after the VT; the offset of VT is held from then on. -/
def execWinEnableSet (e : Ev) (m : Msg) (vt : Nat) (s0 : State) : Host.Outcome State Fault Refusal :=
  let h := e.half
  .next ((tick e s0).mboxL h m 0x26 fun t =>
    if vt < (t.half h).vt.toNat + 100000 then (t, .badArg, 0)
    else
      let t1 := t.upd h fun x => x.enableWindows vt
      ((t1.upd 0 fun x => x.setFld F.CLK_VT_STAT_held 1).upd 1 fun x => x.setFld F.CLK_VT_STAT_held 1, .ok, 0))

/-- WIN_ENABLE, clear (R255): in effect at the end of the current major frame. -/
def execWinEnableClear (e : Ev) (m : Msg) (s0 : State) : Host.Outcome State Fault Refusal :=
  let h := e.half
  .next ((tick e s0).mboxL h m 0x26 fun t =>
    (t.upd h Half.disableWindows, .ok, 0))

/-! ## Tasks and the Tally (R259, R293) -/

/-- A task record kept for the configuration store. -/
def Half.keepTask (x : Half) (task rec0 : Nat) : Half :=
  { x with fw := { x.fw with conf := { x.fw.conf with tasks := kput (fun _ => 0) x.fw.conf.tasks task rec0 } } }

/-- TASK_WRITE (R259): the record, and its copy in the configuration store. -/
def execTaskWrite (e : Ev) (m : Msg) (task src : Nat) (s0 : State) : Host.Outcome State Fault Refusal :=
  let h := e.half
  .next ((tick e s0).mboxL h m 0x24 fun t =>
    if 4096 ≤ task then (t, .badArg, 0) else
    t.withSrc h m src 256 fun l =>
      ((t.store h (t.taskAddr h task) l).upd h fun x => x.keepTask task (leNat l), .ok, 0))

/-- The Tally's registers as a configuration gives them. -/
def Half.tallyConfig (x : Half) (base staging audit : Nat) (enable : Bool) : Half :=
  (((x.writeWord .TLY_TASK_BASE 0 0 0 base).writeWord .TLY_STAGING 0 0 0 staging).writeWord .TLY_AUDIT_CFG 0 0 0 audit).setFld
    F.TLY_CTL_enable (if enable then 1 else 0)

/-- TLY_CFG (R293): a base or region out of alignment or an audit interval out of range is refused. -/
def execTlyCfg (e : Ev) (m : Msg) (base staging audit : Nat) (enable : Bool) (s0 : State) : Host.Outcome State Fault Refusal :=
  let h := e.half
  .next ((tick e s0).mboxL h m 0x25 fun t =>
    let iv := bits audit 0 6
    if bits base 0 48 % 256 ≠ 0 || bits staging 0 27 % 0x10000 ≠ 0 || 2048 < bits staging 0 27 / 0x10000 + bits staging 32 12 || iv = 0 || 60 < iv then
      (t, .badArg, 0)
    else (t.upd h fun x => x.tallyConfig base staging audit enable, .ok, 0))

end Sys2Proof.Machine
end

