-- ==== Sys2Proof/Machine/RegOps.lean ====
section
/-! DEFINITION. Registers by address and by name: the peripheral windows of R27, the doorbells of R230, and writes to a register (R12). -/
namespace Sys2Proof.Machine

/-- The register of a doorbell that a 4-byte access reaches (R230). -/
def doorbellReg (off : Nat) : Option Reg :=
  if off = 0x00 then some .TEL_DB_TAIL else if off = 0x04 then some .TEL_DB_HEAD else if off = 0x08 then some .TEL_DB_CQ_TAIL
  else if off = 0x0C then some .TEL_DB_CQ_HEAD else if off = 0x10 then some .TEL_DB_STATE else if off = 0x14 then some .TEL_DB_INFLIGHT
  else none

/-- The block whose window holds a peripheral offset, as the source code of an incident; the CAN window's registers are not the manual's (R27). -/
def periphSource (off : Nat) : Option Nat :=
  match off / 0x1000000 with
  | 1 => some 0x0E
  | 2 => some 0x0F
  | 3 => some 0x05
  | 4 => some 0x0B
  | 5 => some 0x0C
  | _ => none

/-- The offset in a half's peripheral range, whose base is a multiple of its size. -/
def periphOff (a : Nat) : Nat := a % 0x10000000

/-- The 64-bit register at an offset of a peripheral range, where its chapter states one: camera intake (R216-R218) and data-port MACs (R400, R401). -/
def periphReg (off : Nat) : Option (Reg × Nat) :=
  let o := off % 0x1000000
  if off % 8 ≠ 0 then none
  else if off / 0x1000000 = 3 then
    if o < 0x800 then
      (match o % 0x100 with
      | 0x00 => some (.INT_RX_CFG, o / 0x100)
      | 0x08 => some (.INT_RX_ERR_CNT, o / 0x100)
      | _ => none)
    else if 0x1000 ≤ o && o < 0x3000 then
      let u := (o - 0x1000) / 0x100
      (match o % 0x100 with
      | 0x00 => some (.INT_STREAM_CFG, u)
      | 0x08 => some (.INT_STREAM_GEOM, u)
      | 0x10 => some (.INT_STREAM_CONV, u)
      | 0x18 => some (.INT_STREAM_BASE, u)
      | 0x20 => some (.INT_STALE_CFG, u)
      | 0x28 => some (.INT_STRIPE_CFG, u)
      | 0x30 => some (.INT_STREAM_STAT, u)
      | 0x38 => some (.INT_LINE_POS, u)
      | 0x40 => some (.INT_LINE_VT, u)
      | 0x48 => some (.INT_STREAM_CNT, u)
      | 0x50 => some (.INT_MARK_BASE, u)
      | _ => none)
    else none
  else if off / 0x1000000 = 5 then
    if o < 0x2000 then
      (match o % 0x1000 with
      | 0x00 => some (.TEL_DP_CTL, o / 0x1000)
      | 0x08 => some (.TEL_DP_CNT, o / 0x1000)
      | 0x10 => some (.TEL_DP_ERR, o / 0x1000)
      | _ => none)
    else none
  else none

/-- An application core's write to a peripheral window: ignored and recorded with NOT_OWNER (R216, R372, R400, R443, R468). -/
def State.periphWrite (s : State) (h a : Nat) : State :=
  match periphSource (periphOff a) with
  | some src => s.incident h src 0 .notOwner
  | none => s

/-- A read of a peripheral window: the register where its offset is stated, with the rc fields that it returned cleared (R12), else bytes that the manual does not state. -/
def State.periphRead (s : State) (h a n : Nat) : Status × List Byte × State :=
  match periphReg (periphOff a) with
  | some (r, u) =>
    if n = 8 || n = 4 then (.ok, leBytes n ((s.half h).readWord r u 0 0), s.upd h fun x => x.clearRcLow r u 0 0 (8 * n))
    else let d := s.draw; (.ok, leBytes n d.1, d.2)
  | none => let d := s.draw; (.ok, leBytes n d.1, d.2)

/-- The registers of a Teller page (R394). -/
def isTellerReg : Reg → Bool
  | .TEL_ID | .TEL_GEN | .TEL_STATE | .TEL_NOTICE | .TEL_NOTICE_EN | .TEL_NOTICE_DETAIL | .TEL_MBX_REQ | .TEL_MBX_GO | .TEL_MBX_STAT
  | .TEL_MBX_REPLY | .TEL_DMA_WIN => true
  | _ => false

/-- The block of a register in a peripheral window, as an incident's source. -/
def windowSource : Reg → Option Nat
  | .INT_RX_CFG | .INT_RX_ERR_CNT | .INT_STREAM_CFG | .INT_STREAM_GEOM | .INT_STREAM_CONV | .INT_STREAM_BASE | .INT_STALE_CFG | .INT_STRIPE_CFG
  | .INT_STREAM_STAT | .INT_LINE_POS | .INT_LINE_VT | .INT_STREAM_CNT | .INT_MARK_BASE => some 0x05
  | .GTW_CTL | .GTW_OVF_BASE | .GTW_STAT | .GTW_DROP | .GTW_STREAM_ERR | .GTW_FWD_CNT => some 0x0B
  | .TEL_DP_CTL | .TEL_DP_CNT | .TEL_DP_ERR => some 0x0C
  | .DSP_PIPE_CTL | .DSP_PIPE_TIMING0 | .DSP_PIPE_TIMING1 | .DSP_PIPE_LINK | .DSP_PIPE_VT | .DSP_PIPE_STAT | .DSP_PLANE_POS | .DSP_PLANE_FMT
  | .DSP_PLANE_RING | .DSP_FLIP_STAT | .DSP_TT_STATE | .DSP_TT_ERR | .DSP_RAS_STAT => some 0x0F
  | .SVC_UFS_STAT => some 0x0E
  | _ => none

/-- REGISTER_WRITE (R12, R216, R230, R372, R393, R400, R443, R468): a Teller page and a doorbell take any writer; an application core's write to a peripheral
window is ignored and recorded; every other register is written by the steward alone. -/
def execRegisterWrite (e : Ev) (who : Master) (reg : Reg) (unit index word val : Nat) (s0 : State) : Host.Outcome State Fault Refusal :=
  let s := tick e s0
  let h := e.half
  let x := s.half h
  if !x.clk.rimUp then .next s
  else if isTellerReg reg then
    (match reg with
    | .TEL_MBX_GO => .next (if val % 2 = 1 then s.tellerAccess unit (.telMbxGo e unit) else s)
    | _ => .next (s.tellerAccess unit (.registerWrite e who reg unit index word val)))
  else
    match reg with
    | .TEL_DB_TAIL => .next (s.dbTail (h * 8192 + unit) (val % 2 ^ 32))
    | .TEL_DB_CQ_HEAD => .next (s.dbCqHead (h * 8192 + unit) (val % 2 ^ 32))
    | .TEL_DB_STATE => .next (if s.queueUp (h * 8192 + unit) && x.qState unit ≠ 0 then s.upd h fun y => y.writeWord reg unit 0 0 val else s)
    | .TEL_DB_HEAD | .TEL_DB_CQ_TAIL | .TEL_DB_INFLIGHT => .next s
    | _ =>
      match who with
      | .steward => (match reg with
        | .WIN_PART_CFG | .WIN_PART_CORES => .next (s.partWord h reg index word val)
        | _ => if streamRegs.contains reg then .next (s.streamWord h reg unit val) else .next (s.upd h fun y => y.writeWord reg unit index word val))
      | .app _ => (match windowSource reg with
        | some src => .next (s.incident h src unit .notOwner)
        | none => .next s)
      | _ => .next s

end Sys2Proof.Machine
end

