-- ==== Sys2Proof/Machine/Hatch.lean ====
section
/-! DEFINITION. The Hatch between the halves (R303, R306, R346-R360): flits and repair, link training, violations, request packets, the semaphore bank, and
the messages of R354. A packet command names the half that receives it. -/
namespace Sys2Proof.Machine

/-! ## The link (R346-R348, R358) -/

/-- The bridge of half `h` receives packets: its rim runs and the link is up, or demoted for the result class (R360). -/
def State.takes (s : State) (h : Nat) (result : Bool) : Bool :=
  let x := s.half h
  x.clk.rimUp && (x.linkUp || (result && decide (x.fld F.HTC_LINK_state = 3)))

/-- Modules that carry traffic while the link is on: the active ones of the record. -/
def Half.modulesUp (x : Half) : Nat :=
  (List.range 3).foldl (fun a k => if bits x.svc.record.modules (2 * k) 2 = 0 then a + 2 ^ k else a) 0

/-- The link of a half out of service in a state of R361. -/
def Half.linkDown (x : Half) (st : Nat) : Half := (x.setFld F.HTC_LINK_state st).setFld F.HTC_LINK_modules_up 0

/-- A replay asked for on a module, attributed to a lane (R347). -/
def State.askReplay (s : State) (h module lane seq : Nat) : State :=
  let f (x : Half) : Half :=
    let now := x.vt.toNat
    let l := kupd (fun _ => []) x.hatch.laneReplays (module * 64 + lane) fun l => now :: within now 1000000000 l
    let y : Half := { x with hatch := { x.hatch with replaying := kput (fun _ => false) x.hatch.replaying module true, laneReplays := l } }
    y.inc F.HTC_ERR_CNT_replays
  (s.upd h f).emit (.hatchReplay h module seq)

/-- A module's flit `n` arrived in order: the next one is expected and no replay is open. -/
def Half.nextFlit (x : Half) (module n : Nat) : Half :=
  { x with hatch := { x.hatch with
      rxSeq := kput (fun _ => 0) x.hatch.rxSeq module ((n + 1) % 4096 + 1), replaying := kput (fun _ => false) x.hatch.replaying module false } }

/-- A change of the Hatch section in both halves' records while their rims run (R306), with an event in the half that found it. -/
def State.hatchRecord (s : State) (h : Nat) (f : SvcRecord → SvcRecord) (kind unit : Nat) (spare : Option Nat) : State :=
  let one (x : Half) : Half :=
    let y := (x.setRecord f).event kind unit 1 0
    ((match spare with | some k => y.event kind k 2 unit | none => y).writeRecord)
  let s1 := s.upd h one
  if (s.half (peer h)).clk.rimUp then s1.upd (peer h) one else s1

/-- MNT_BUDGET and HTC_LINK after a change of the modules: guarantees are cut to what one module carries, and none left is loss of the link (R306, R336). -/
def State.modulesChanged (s : State) (h : Nat) : State :=
  let x := s.half h
  if !x.clk.rimUp then s else
  let s1 := s.upd h fun x => if !x.linkOn then x else if x.modulesUp = 0 then x.linkDown 0 else x.setFld F.HTC_LINK_modules_up x.modulesUp
  if x.svc.record.activeModules = 0 then s1 else s1.reconcile h 0x05

/-- A module out of service: the spare takes its place (R303, R306). -/
def State.failModule (s : State) (h module : Nat) : State :=
  let m := (s.half h).svc.record.modules
  if bits m (2 * module) 2 ≠ 0 then s else
  let spare := (List.range 3).find? fun k => bits m (2 * k) 2 = 1
  let m1 := setBits m (2 * module) 2 2
  let m2 := match spare with | some k => setBits m1 (2 * k) 2 0 | none => m1
  ((s.hatchRecord h (fun r => { r with modules := m2 }) 4 module spare).modulesChanged h).modulesChanged (peer h)

/-- The replays attributed to a lane are forgotten. -/
def Half.clearReplays (x : Half) (key : Nat) : Half := { x with hatch := { x.hatch with laneReplays := kput (fun _ => []) x.hatch.laneReplays key [] } }

/-- HATCH_LANE_REPAIR (R303, R306): 16 replays of one lane within 1 s, or a lane that failed the training of the link; a fifth failed lane of a module fails the module. -/
def execHatchLaneRepair (e : Ev) (module lane : Nat) (s0 : State) : Host.Outcome State Fault Refusal :=
  let s := tick e s0
  let h := e.half
  let x := s.half h
  let key := module * 64 + lane
  let l := within x.vt.toNat 1000000000 (kget (fun _ => []) x.hatch.laneReplays key)
  let fixed := kget (fun _ => []) x.svc.record.laneFix module
  if !x.clk.rimUp || (l.length < 16 && !x.hatch.trainFailed) || bits x.svc.record.modules (2 * module) 2 = 2 then .next s else
  let s1 := s.upd h fun x => x.clearReplays key
  if fixed.contains lane then .next s1
  else if 4 ≤ fixed.length then .next (s1.failModule h module)
  else .next (s1.hatchRecord h (fun r => { r with laneFix := kput (fun _ => []) r.laneFix module (fixed ++ [lane]) }) 3 key none)

/-- HATCH_MODULE_FAILOVER (R303, R306): a clock, valid or track lane of an active module fails. -/
def execHatchModuleFailover (e : Ev) (module : Nat) (s0 : State) : Host.Outcome State Fault Refusal :=
  let s := tick e s0
  if !(s.half e.half).clk.rimUp then .next s else .next (s.failModule e.half module)

/-- HATCH_LINK_LOSS (R348): the half declares the link lost; the degraded entry it leads to is R286's. -/
def execHatchLinkLoss (e : Ev) (s0 : State) : Host.Outcome State Fault Refusal :=
  let s := tick e s0
  if !(s.half e.half).clk.rimUp || !(s.half e.half).linkOn then .next s else .next ((s.answerOut e.half).upd e.half fun x => x.linkDown 0)

/-- The link comes up with a protocol version; its sequences start anew (R354, R358). -/
def Half.linkStarts (x : Half) (version : Nat) : Half :=
  let y := (((x.setFld F.HTC_LINK_state 2).setFld F.SVC_HATCH_protocol version).setFld F.HTC_LINK_modules_up x.modulesUp).setFld F.HTC_LINK_protocol version
  { y with hatch := { y.hatch with rxSeq := [], replaying := [], trainFailed := false, kindSeq := [], txSeq := [], outstanding := [], askers := [], inbox := [], outbox := [], txUsed := [], txWait := [], violVts := [], demotedViol := [] } }

/-- The half that takes the other's VT when the link trains (R503): half 1 where it is in a rim start, or missed the step of half 0's VT; half 0 where it
alone is in one (log entry 60). -/
def State.vtTaker (s : State) : Option Nat :=
  let stepped (x : Half) : Bool := x.fld F.CLK_VT_STAT_stepped = 1
  if s.h1.clk.resetKind ≥ 2 || (stepped s.h0 && !stepped s.h1 && s.h1.fld F.CLK_VT_STAT_held = 0) then some 1
  else if s.h0.clk.resetKind ≥ 2 then some 0
  else none

/-- VT and its offset taken from the other half, with what is known of their step and hold (R313, R503). -/
def Half.takeVt (x o : Half) : Half :=
  let y := ((x.setFld F.CLK_VT_OFFSET_theta_ns (o.fld F.CLK_VT_OFFSET_theta_ns)).setFld F.CLK_VT_STAT_stepped (o.fld F.CLK_VT_STAT_stepped)).setFld
    F.CLK_VT_STAT_held (o.fld F.CLK_VT_STAT_held)
  { y with vt := o.vt, clk := { y.clk with theta := o.clk.theta, frac := o.clk.frac } }

/-- The VT exchange at the training of the link. -/
def State.takeVt (s : State) : State :=
  match s.vtTaker with
  | some h => s.upd h fun x => x.takeVt (s.half (peer h))
  | none => s

/-- The Hatch section of a record with the failures that the other half's record knows: retired modules, repaired lanes, at most four in a module; a spare takes the
place of a missing active module (R306). -/
def SvcRecord.unite (a b : SvcRecord) : SvcRecord :=
  let lanes (k : Nat) : List Nat := (kget (fun _ => []) a.laneFix k ++ kget (fun _ => []) b.laneFix k).eraseDups
  let st (r : SvcRecord) (k : Nat) : Nat := bits r.modules (2 * k) 2
  let one (k : Nat) : Nat := if st a k = 2 || st b k = 2 || decide (4 < (lanes k).length) then 2 else if st a k = 0 || st b k = 0 then 0 else 1
  let m := [0, 1, 2].foldl (fun m k => setBits m (2 * k) 2 (one k)) a.modules
  let act := ((List.range 3).filter fun k => one k = 0).length
  let spare := (List.range 3).find? fun k => one k = 1
  { a with
    modules := if 2 ≤ act then m else match spare with | some k => setBits m (2 * k) 2 0 | none => m
    laneFix := [0, 1, 2].foldl (fun l k => kput (fun _ => []) l k ((lanes k).take 4)) a.laneFix }

/-- A half's record brought to the union; a change is written. -/
def Half.uniteHatch (x : Half) (o : SvcRecord) : Half :=
  if x.svc.record.unite o = x.svc.record then x else (x.setRecord fun r => r.unite o).writeRecord

/-- Both halves apply the union of their failed lanes and modules before the link trains (R306). -/
def State.uniteHatch (s : State) : State :=
  if s.h0.clk.rimUp && s.h1.clk.rimUp then { s with h0 := s.h0.uniteHatch s.h1.svc.record, h1 := s.h1.uniteHatch s.h0.svc.record } else s

/-- HATCH_LINK_TRAINING (R287, R306, R313, R316, R358, R503): at a link that is down, both rims running. A yielding half whose Hatch does not train holds its compute domain;
of two releases too far apart the half that was not in service does. -/
def execHatchLinkTraining (e : Ev) (peerRelease : Nat) (ok : Bool) (s0 : State) : Host.Outcome State Fault Refusal :=
  let t := tick e s0
  let h := e.half
  if !(t.half h).clk.rimUp || (t.half h).linkOn then .next t else
  let s := t.uniteHatch
  let x := s.half h
  let own := x.fld F.SVC_FW_STAT_release
  let hold (t : State) : State := (t.upd h fun x => { x with clk := { x.clk with held := true } }).serr h
  if !ok || !(s.half (peer h)).clk.rimUp || x.modulesUp = 0 then
    let s1 := s.upd h fun x => ({ x with hatch := { x.hatch with trainFailed := !ok } } : Half).linkDown 0
    .next (if x.fld F.CLK_RESET_CAUSE_cause = 0x11 && !x.clk.ready then hold s1 else s1)
  else
    let s1 := s.upd h fun x => x.setFld F.HTC_LINK_peer_release peerRelease
    if !oneApart own peerRelease then
      let s2 := (s1.upd h fun x => x.linkDown 4).incident h 0x0A 0 .versionMismatch
      .next (if x.clk.ready then s2 else hold s2)
    else .next (State.syncSoak (s1.takeVt.upd h fun x => x.linkStarts (Nat.min own peerRelease)))

/-! ## Violations (R359, R360) -/

/-- The types that are answered (R350). -/
def nonPosted (type : Nat) : Bool := decide (0x02 ≤ type) && decide (type ≤ 0x05)

/-- A packet dropped as a violation: counted, held, recorded; 16 within 1 s demote the link, 16 more drop it. -/
def State.violation (s : State) (h code type tag : Nat) : State :=
  let x := s.half h
  let now := x.vt.toNat
  let s1 := if nonPosted type then s.emit (.hatchCpl h tag .badArg []) else s
  let s2 := s1.upd h fun x => (((x.inc F.HTC_ERR_CNT_violations).setFld F.HTC_VIOL_LAST_code code).setFld F.HTC_VIOL_LAST_type type).setFld
    F.HTC_VIOL_LAST_vt now
  let s3 := s2.incident h 0x0A 0 .badArg code
  if x.fld F.HTC_LINK_state = 3 then
    let l := now :: within now 1000000000 x.hatch.demotedViol
    let s4 := s3.upd h fun x => { x with hatch := { x.hatch with demotedViol := l } }
    if l.length < 16 then s4 else (s4.answerOut h).upd h fun x => x.linkDown 0
  else
    let l := now :: within now 1000000000 x.hatch.violVts
    let s4 := s3.upd h fun x => { x with hatch := { x.hatch with violVts := l } }
    if l.length < 16 then s4 else ((s4.answerOut h).upd h fun x => (x.setFld F.HTC_LINK_state 3).inc F.HTC_ERR_CNT_demotions).hatchSend h 0x44 [4]

/-- HATCH_VIOLATION (R359, R360). -/
def execHatchViolation (e : Ev) (code type tag : Nat) (s0 : State) : Host.Outcome State Fault Refusal :=
  let s := tick e s0
  let x := s.half e.half
  if !x.clk.rimUp || !x.linkOn || code = 0 || 6 < code then .next s else .next (s.violation e.half code type tag)

/-- A length that its type does not allow, or a request across a 256-byte boundary (code 0x02). -/
def badSpan (a n : Nat) : Bool := decide (n = 0) || decide (256 < a % 256 + n)

/-! ## Request packets (R350) -/

/-- A request that waits for its completion at the other half's bridge. -/
def State.issued (s : State) (h : Nat) (k : Pkt) (n : Nat) : State :=
  s.upd (peer h) fun x => { x with hatch := { x.hatch with
    outstanding := kput (fun _ => 0) x.hatch.outstanding k.tag (n + 1), askers := kput (fun _ => 0) x.hatch.askers k.tag (k.src + 1) } }

/-- A completion sent: data, or a status alone. -/
def State.complete_ (s : State) (h tag : Nat) (st : Status) (data : List Byte) : State := s.emit (.hatchCpl h tag st (if st = .ok then data else []))

/-- An address outside the tables of R25 and R27, recorded in the issuing half (R28); the unit is the issuing port. -/
def State.unmapped (s : State) (h src : Nat) : State := s.incident (peer h) 0x10 src .outOfRange

/-- A byte of a service-ring pair written by software (R396). -/
def Ring.poke (r : Ring) (off : Nat) (b : Byte) : Ring :=
  if 0x1000 ≤ off && off < 0x3000 then
    let i := (off - 0x1000) / 64
    { r with slots := kput (fun _ => 0) r.slots i (setBits (kget (fun _ => 0) r.slots i) (8 * (off % 64)) 8 b.toNat) }
  else if 0x5000 ≤ off then { r with area := kput memD r.area off b }
  else r

/-- Bytes written into a pair: the two indices by whole words, slots and free area byte by byte. -/
def Ring.write (r : Ring) (off : Nat) (l : List Byte) : Ring :=
  let r1 := (List.range l.length).foldl (fun a i => a.poke (off + i) (l.getD i 0)) r
  let tail := leNat (l.take 4)
  if off = 0 && 4 ≤ l.length && (tail + 2 ^ 32 - r.reqHead) % 2 ^ 32 ≤ 128 then { r1 with reqTail := tail }
  else if off = 0xC && 4 ≤ l.length then r1.setRepHead tail
  else r1

/-- A byte of a pair as software reads it. -/
def Half.ringByte (x : Half) (p off : Nat) : Byte :=
  let r := x.ring p
  let w : Nat := r.reqTail + r.reqHead * 2 ^ 32 + r.repTail * 2 ^ 64 + r.repHead * 2 ^ 96 + x.ports.stage * 2 ^ 128 +
    x.fld F.SVC_FW_STAT_release * 2 ^ 144 + x.vt.toNat * 2 ^ 192
  if off < 64 then BitVec.ofNat 8 (w >>> (8 * off))
  else if 0x1000 ≤ off && off < 0x3000 then BitVec.ofNat 8 (kget (fun _ => 0) r.slots ((off - 0x1000) / 64) >>> (8 * (off % 64)))
  else if 0x3000 ≤ off && off < 0x5000 then BitVec.ofNat 8 (kget (fun _ => 0) r.replies ((off - 0x3000) / 64) >>> (8 * (off % 64)))
  else if 0x5000 ≤ off then kget memD r.area off
  else 0

/-- A write at its target port: memory, a Teller page, a doorbell, the service-ring window; an application core's write to a
peripheral window is ignored and recorded. -/
def State.portWrite (s : State) (h src a : Nat) (l : List Byte) : State :=
  let n := l.length
  let v := leNat l
  if dmaReach a n then (if s.reaches a n then s.store h a l else s.unmapped h src)
  else if 0x3000000000 ≤ a && a + n ≤ 0x3000100000 then
    let vdi := winOff a / 0x1000
    if n ≠ 8 || s.hostOf vdi ≠ h then s else
    (match tellerReg (winOff a % 0x1000) with
    | none => s
    | some (.TEL_MBX_GO, _, _) => if v % 2 = 1 then s.tellerAccess vdi (.telMbxGo ⟨h, 0⟩ vdi) else s
    | some (r, i, w) => s.tellerAccess vdi (.registerWrite ⟨h, 0⟩ .other r vdi i w v))
  else if 0x3001000000 ≤ a && a + n ≤ 0x3001100000 then
    let q := winOff a / 0x40
    if n ≠ 4 || qHalf q ≠ h then s else
    (match doorbellReg (winOff a % 0x40) with
    | some .TEL_DB_TAIL => s.dbTail q v
    | some .TEL_DB_CQ_HEAD => s.dbCqHead q v
    | some .TEL_DB_STATE => if s.queueUp q && (s.half h).qState (qIdx q) ≠ 0 then s.upd h fun x => x.writeWord .TEL_DB_STATE (qIdx q) 0 0 v else s
    | _ => s)
  else if 0x3010000000 ≤ a && a + n ≤ 0x3010100000 then
    let off := winOff a
    if off / 0x80000 ≠ h then s else s.upd h fun x => x.setRing (off / 0x10000 % 8) ((x.ring (off / 0x10000 % 8)).write (off % 0x10000) l)
  else if inPeriph a then s.periphWrite h a
  else s.unmapped h src

/-- What a read returns at its target port. -/
def State.portRead (s : State) (h src a n : Nat) : Status × List Byte × State :=
  if dmaReach a n then (s.access h a n, s.rdBytes a n, if s.reaches a n then s.readErrs h a n else s.unmapped h src)
  else if 0x3000000000 ≤ a && a + n ≤ 0x3000100000 then
    (.ok, leBytes n (if n = 8 && s.hostOf (winOff a / 0x1000) = h then s.tellerRead (winOff a / 0x1000) (winOff a % 0x1000) else 0), s)
  else if 0x3001000000 ≤ a && a + n ≤ 0x3001100000 then
    let q := winOff a / 0x40
    (.ok, leBytes n (match doorbellReg (winOff a % 0x40) with
      | some r => if n = 4 && qHalf q = h && s.queueUp q then (s.half h).readWord r (qIdx q) 0 0 else 0
      | none => 0), s)
  else if 0x3010000000 ≤ a && a + n ≤ 0x3010100000 then
    let off := winOff a
    (.ok, if off / 0x80000 = h then (List.range n).map fun i => (s.half h).ringByte ((off + i) / 0x10000 % 8) ((off + i) % 0x10000) else leBytes n 0, s)
  else if inPeriph a then s.periphRead h a n
  else (.outOfRange, [], s.unmapped h src)

/-- The signed value of a word of `w` bytes. -/
def signedOf (w v : Nat) : Int := if v % 2 ^ (8 * w) < 2 ^ (8 * w - 1) then (v % 2 ^ (8 * w) : Nat) else ((v % 2 ^ (8 * w) : Nat) : Int) - 2 ^ (8 * w)

/-- The result of an atomic of the RISC-V A extension on a word of `w` bytes (R356). -/
def amoResult (op : AmoOp) (w old val : Nat) : Nat :=
  match op with
  | .swap => val % 2 ^ (8 * w)
  | .add => (old + val) % 2 ^ (8 * w)
  | .xor => old ^^^ (val % 2 ^ (8 * w))
  | .and => old &&& val
  | .or => old ||| (val % 2 ^ (8 * w))
  | .min => if signedOf w old ≤ signedOf w val then old else val % 2 ^ (8 * w)
  | .max => if signedOf w val ≤ signedOf w old then old else val % 2 ^ (8 * w)
  | .minu => Nat.min old (val % 2 ^ (8 * w))
  | .maxu => Nat.max old (val % 2 ^ (8 * w))

/-- An atomic, load-reserved or store-conditional of 4 or 8 bytes; the aligned word is reached. -/
def wordAt (a w : Nat) : Nat := a / w * w

/-- The run of the three on the aligned word, which its memory may refuse. -/
def State.wordRun (s : State) (h : Nat) (k : Pkt) (addr width : Nat) (f : State → Nat → State) : State :=
  let a := wordAt addr width
  match s.access h a width with
  | .ok => f s a
  | .outOfRange => ((if s.present a then s else s.unmapped h k.src)).complete_ h k.tag .outOfRange []
  | st => (s.readErrs h a width).complete_ h k.tag st []

/-! ## The semaphore bank (R357) -/

def semIdx (a : Nat) : Nat := bits a 6 8

def Half.sem (x : Half) (i : Nat) : Option Sem := kget (fun _ => none) x.hatch.sems i

def Half.setSem (x : Half) (i : Nat) (k : Option Sem) : Half :=
  ({ x with hatch := { x.hatch with sems := kput (fun _ => none) x.hatch.sems i k } } : Half).syncSems

/-- An entry that has been held for 10 µs expires, counted. -/
def Half.expireSem (x : Half) (i : Nat) : Half :=
  match x.sem i with
  | none => x
  | some k => if x.vt.toNat < k.takenVt + 10000 then x else (x.setSem i none).inc F.HTC_SEM_STAT_expiries

/-- A load-reserved takes its entry and returns the value. -/
def State.takeSem (s : State) (h : Nat) (k : Pkt) (hart a width : Nat) : State :=
  (s.upd h fun x => x.setSem (semIdx a) (some { hart := hart, granule := a / 64, takenVt := x.vt.toNat })).complete_ h k.tag .ok (leBytes width (s.rdN a width))

/-- The entry of a word is held for another hart or granule. -/
def Half.semBusy (x : Half) (hart a : Nat) : Option Sem :=
  match x.sem (semIdx a) with
  | some k => if k.hart = hart && k.granule = a / 64 then none else some k
  | none => none

/-- LR (R357): an entry held for another hart or granule is taken once it has been held for 1 µs; until then the load waits. -/
def State.lrRun (t : State) (h : Nat) (k : Pkt) (hart a width : Nat) : State :=
  let t1 := t.upd h fun x => x.expireSem (semIdx a)
  match (t1.half h).semBusy hart a with
  | none => t1.takeSem h k hart a width
  | some b => if b.takenVt + 1000 ≤ t1.vtOf h then (t1.upd h fun x => x.inc F.HTC_SEM_STAT_steals).takeSem h k hart a width
    else t1.upd h fun x => { x with hatch := { x.hatch with lrWait := x.hatch.lrWait ++ [{ pkt := k, hart := hart, addr := a, width := width }] } }

/-- SC (R357): it writes and returns 0 while its entry is held, else returns 1. -/
def State.scRun (t : State) (h : Nat) (k : Pkt) (hart a width val : Nat) : State :=
  let t1 := t.upd h fun x => x.expireSem (semIdx a)
  match (t1.half h).sem (semIdx a) with
  | some b => if b.hart = hart && b.granule = a / 64
      then ((t1.upd h fun x => x.setSem (semIdx a) none).store h a (leBytes width val)).complete_ h k.tag .ok (leBytes width 0)
      else t1.complete_ h k.tag .ok (leBytes width 1)
  | none => t1.complete_ h k.tag .ok (leBytes width 1)

/-- AMO (R356): one read-modify-write at the home bridge; it counts as a write of the granule. -/
def State.amoRun (t : State) (h : Nat) (k : Pkt) (op : AmoOp) (a width val : Nat) : State :=
  let old := t.rdN a width
  (t.store h a (leBytes width (amoResult op width old val))).complete_ h k.tag .ok (leBytes width old)

/-! ## Requests from the other half at port 136 (R331, R336, R350, R352) -/

/-- A request at its target: a write, a read answered with CPL or, where the target refuses, CPL_ST, or a word request. -/
def State.serveIn (s : State) (h : Nat) (r : HatchIn) : State :=
  match r.type with
  | 1 => s.portWrite h r.pkt.src r.addr r.data
  | 2 => let d := s.portRead h r.pkt.src r.addr r.len
         d.2.2.complete_ h r.pkt.tag d.1 d.2.1
  | 3 => s.wordRun h r.pkt r.addr r.len fun t a => t.amoRun h r.pkt r.op a r.len r.val
  | 4 => s.wordRun h r.pkt r.addr r.len fun t a => t.lrRun h r.pkt r.hart a r.len
  | _ => s.wordRun h r.pkt r.addr r.len fun t a => t.scRun h r.pkt r.hart a r.len r.val

/-- The pool of a request (R352): posted 0-15 and non-posted 32-47 by class, and what it takes of it: bytes, or one slot. -/
def HatchIn.pool (r : HatchIn) : Nat := if r.type = 1 then r.pkt.mark else 32 + r.pkt.mark

def HatchIn.units (r : HatchIn) : Nat := if r.type = 1 then r.len else 1

/-- The request has the credit of its pool: what is held at port 136 has not returned its own. -/
def Half.creditOk (x : Half) (r : HatchIn) : Bool :=
  let used := (x.hatch.inbox.filter fun q => q.pool = r.pool).foldl (fun n q => n + q.units) 0
  decide (used + r.units ≤ if r.type = 1 then 4096 else 16)

/-- A request waits behind one held at port 136: behind a write of its own source (R351), and behind one of its kind and class (R331); a write never waits
on a read (R353). -/
def HatchIn.behind (r q : HatchIn) : Bool :=
  (decide (q.type = 1) && decide (q.pkt.src = r.pkt.src)) || (decide (q.pkt.mark = r.pkt.mark) && decide ((q.type = 1) = (r.type = 1)))

/-- A request leaves port 136: none that it waits behind is held there, and for DRAM the bucket pays or the class may borrow (R331). -/
def State.admits (s : State) (h : Nat) (r : HatchIn) : Bool :=
  let x := (s.half h).fillBuckets s.now
  let b := x.stackBytes (r.addr - dramBase h) r.len
  !((s.half h).hatch.inbox.any fun q => r.behind q) &&
    (!inDram h r.addr r.len || x.pays 136 r.pkt.mark (coinCost r.len) || x.borrows r.pkt.mark (if b.1 = 0 then 1 else 0))

/-- A request at port 136: it pays and is served, or it is held. -/
def State.atPort (s : State) (h : Nat) (r : HatchIn) : State :=
  if s.admits h r then (s.pay h 136 r.pkt.mark (decide (r.type = 1) || decide (3 ≤ r.type)) r.addr r.len).serveIn h r
  else s.upd h fun x => { x with hatch := { x.hatch with inbox := x.hatch.inbox ++ [r] } }

/-- The requests held at port 136 tried again, oldest first. -/
def State.drain (s : State) (h : Nat) : State :=
  match (s.half h).hatch.inbox with
  | [] => s
  | l => l.foldl (fun t r => t.atPort h r) (s.upd h fun x => { x with hatch := { x.hatch with inbox := [] } })

/-- A request leaves the sender's bridge: its bucket there pays, or the class borrows (R336). -/
def State.crosses (s : State) (h : Nat) (r : HatchIn) : State :=
  (s.upd (peer h) fun x => x.payBridge r.pkt.mark r.len).atPort h r

/-- A request to half `h` held at the bridge of the half that sends it. -/
def State.holdOut (s : State) (h : Nat) (r : HatchIn) : State :=
  s.upd (peer h) fun x => { x with hatch := { x.hatch with outbox := x.hatch.outbox ++ [r] } }

/-- A request waits at the bridge: behind what it waits behind there, or for coins (R331, R336). -/
def State.bridgeHolds (s : State) (h : Nat) (r : HatchIn) : Bool :=
  let y := s.half (peer h)
  (y.hatch.outbox.any fun q => r.behind q) || !y.bridgeOk r.pkt.mark r.len

/-- The requests held at the sender's bridge tried again, oldest first; a sender keeps what it has no credit for (R352). -/
def State.drainOut (s : State) (h : Nat) : State :=
  let g := peer h
  (s.half g).hatch.outbox.foldl (fun t r => if t.bridgeHolds h r || !(t.half h).creditOk r then t.holdOut h r else t.crosses h r)
    (s.upd g fun x => { x with hatch := { x.hatch with outbox := [] } })

/-- A request packet of the other half: it crosses that half's bridge or is held there; received, it is a violation beyond its credit (R359), and else it
goes to port 136 behind what is held there. -/
def State.arrive (s : State) (h : Nat) (r : HatchIn) : State :=
  let t := ((s.drain h).upd (peer h) fun x => x.fillBuckets s.now).drainOut h
  if t.bridgeHolds h r then t.holdOut h r
  else if !(t.half h).creditOk r then t.violation h 0x06 r.type r.pkt.tag
  else t.crosses h r

/-- MWR (R350). -/
def execMWrite (e : Ev) (k : Pkt) (addr : Nat) (data : List Byte) (s0 : State) : Host.Outcome State Fault Refusal :=
  let s := tick e s0
  let h := e.half
  if !s.takes h false then .next s
  else if badSpan addr data.length then .next (s.violation h 0x02 0x01 k.tag)
  else .next (s.arrive h { type := 1, pkt := k, hart := 0, addr := addr, len := data.length, op := .swap, data := data, val := 0 })

/-- MRD (R350): answered with CPL, or with CPL_ST where the target refuses. -/
def execMRead (e : Ev) (k : Pkt) (addr len : Nat) (s0 : State) : Host.Outcome State Fault Refusal :=
  let s := tick e s0
  let h := e.half
  if !s.takes h false then .next s
  else if badSpan addr len then .next ((s.issued h k len).violation h 0x02 0x02 k.tag)
  else .next ((s.issued h k len).arrive h { type := 2, pkt := k, hart := 0, addr := addr, len := len, op := .swap, data := [], val := 0 })

/-- A word request: of 4 or 8 bytes, else a violation. -/
def State.wordRequest (s : State) (h : Nat) (r : HatchIn) : State :=
  if !s.takes h false then s else
  let s1 := s.issued h r.pkt r.len
  if r.len ≠ 4 && r.len ≠ 8 then s1.violation h 0x02 r.type r.pkt.tag else s1.arrive h r

/-- AMO (R356). -/
def execAmo (e : Ev) (k : Pkt) (op : AmoOp) (addr width val : Nat) (s0 : State) : Host.Outcome State Fault Refusal :=
  .next ((tick e s0).wordRequest e.half { type := 3, pkt := k, hart := 0, addr := addr, len := width, op := op, data := [], val := val })

/-- LR (R357). -/
def execLoadReserved (e : Ev) (k : Pkt) (hart addr width : Nat) (s0 : State) : Host.Outcome State Fault Refusal :=
  .next ((tick e s0).wordRequest e.half { type := 4, pkt := k, hart := hart, addr := addr, len := width, op := .swap, data := [], val := 0 })

/-- SC (R357). -/
def execStoreConditional (e : Ev) (k : Pkt) (hart addr width val : Nat) (s0 : State) : Host.Outcome State Fault Refusal :=
  .next ((tick e s0).wordRequest e.half { type := 5, pkt := k, hart := hart, addr := addr, len := width, op := .swap, data := [], val := val })

/-- FLIT_RECEIVE (R347): the first valid flit after training sets a module's sequence; a failure or a gap stops the module until its replay. What a flit
in order returns of credit lets waiting messages leave, and requests held at port 136 are tried again (R331, R352). -/
def execFlitReceive (e : Ev) (module : Nat) (ok corrected : Bool) (seq : Nat) (tail : FlitEnd) (s0 : State) : Host.Outcome State Fault Refusal :=
  let s := tick e s0
  let h := e.half
  let x := s.half h
  if !x.clk.rimUp || !x.linkOn || bits (x.fld F.HTC_LINK_modules_up) module 1 = 0 then .next s else
  let q := kget (fun _ => 0) x.hatch.rxSeq module
  let want := if q = 0 then seq % 4096 else q - 1
  let held := kget (fun _ => false) x.hatch.replaying module
  let s1 := if ok && corrected then s.upd h fun x => x.inc F.HTC_ERR_CNT_fec_corr else s
  if ok && seq % 4096 = want then
    .next (((s1.upd h fun x => x.nextFlit module want).creditBack h tail.pool tail.units).drain h)
  else if held && seq % 4096 ≠ want then .next s1
  else .next (s1.askReplay h module tail.lane want)

/-- SEMAPHORE_ENTRY_STEAL (R357): a waiting load-reserved takes its entry, held for 1 µs by another or free by now. -/
def execSemaphoreEntrySteal (e : Ev) (k : Pkt) (hart addr width : Nat) (s0 : State) : Host.Outcome State Fault Refusal :=
  let s := tick e s0
  let h := e.half
  let x := s.half h
  let w : LrWait := { pkt := k, hart := hart, addr := wordAt addr width, width := width }
  if !s.takes h false || !x.hatch.lrWait.contains w then .next s else
  let s1 := s.upd h fun x => ({ x with hatch := { x.hatch with lrWait := x.hatch.lrWait.erase w } } : Half).expireSem (semIdx w.addr)
  match (s1.half h).semBusy hart w.addr with
  | none => .next (s1.takeSem h k hart w.addr width)
  | some b => if b.takenVt + 1000 ≤ s1.vtOf h then .next ((s1.upd h fun x => x.inc F.HTC_SEM_STAT_steals).takeSem h k hart w.addr width) else .next s

/-- SEMAPHORE_ENTRY_EXPIRY (R357). -/
def execSemaphoreEntryExpiry (e : Ev) (idx : Nat) (s0 : State) : Host.Outcome State Fault Refusal :=
  let s := tick e s0
  if !(s.half e.half).clk.rimUp then .next s else .next (s.upd e.half fun x => x.expireSem idx)

/-! ## Completions (R350, R359) -/

/-- A completion at the requester's bridge: of an outstanding tag with the length asked for, else a violation. -/
def State.completed (s : State) (h type tag : Nat) (n : Option Nat) : State :=
  if !s.takes h false then s else
  match kget (fun _ => 0) (s.half h).hatch.outstanding tag with
  | 0 => s.violation h 0x04 type tag
  | m + 1 =>
    if n.any (· ≠ m) then s.violation h 0x04 type tag
    else s.upd h fun x => { x with hatch := { x.hatch with
      outstanding := kput (fun _ => 0) x.hatch.outstanding tag 0, askers := kput (fun _ => 0) x.hatch.askers tag 0 } }

/-- CPL (R350). -/
def execCpl (e : Ev) (tag : Nat) (data : List Byte) (s0 : State) : Host.Outcome State Fault Refusal :=
  .next ((tick e s0).completed e.half 0x08 tag (some data.length))

/-- A status other than OK answers the request of an application-core cluster: the hart that asked, one of the four, takes an access fault (R28, R30). -/
def State.cplFault (s : State) (h tag : Nat) (st : Status) : State :=
  let x := s.half h
  let port := kget (fun _ => 0) x.hatch.askers tag - 1
  if st = .ok || !s.takes h false || kget (fun _ => 0) x.hatch.outstanding tag = 0 || port < 133 || 135 < port then s
  else let d := s.draw; d.2.accessFault h ((port - 133) * 4 + d.1 % 4)

/-- CPL_ST (R350). -/
def execCplSt (e : Ev) (tag : Nat) (st : Status) (s0 : State) : Host.Outcome State Fault Refusal :=
  .next (((tick e s0).cplFault e.half tag st).completed e.half 0x09 tag none)

/-- RES_WR (R350, R354): result data into the staging region; it travels in the result class. -/
def execResWr (e : Ev) (addr : Nat) (data : List Byte) (s0 : State) : Host.Outcome State Fault Refusal :=
  let s := tick e s0
  let h := e.half
  if !s.takes h true then .next s
  else if badSpan addr data.length then .next (s.violation h 0x02 0x20 0)
  else if !s.present addr then .next (s.unmapped h 140)
  else .next (s.store h addr data)

/-! ## Messages (R354) -/

/-- A message counted in its kind's sequence. -/
def State.counted (s : State) (h kind : Nat) (x : MsgH) : State :=
  s.upd h fun y => { y with hatch := { y.hatch with kindSeq := kput (fun _ => 0) y.hatch.kindSeq kind ((x.seq + 1) % 2 ^ 16) } }

/-- A message of a kind received: its sequence and protocol checked, then its effect. -/
def State.message (s : State) (h kind : Nat) (x : MsgH) (f : State → State) : State :=
  let type := if 0x40 ≤ kind then 0x21 else 0x10
  if !s.takes h (decide (0x40 ≤ kind)) then s
  else if x.seq ≠ kget (fun _ => 0) (s.half h).hatch.kindSeq kind then s.violation h 0x03 type 0
  else if x.ver ≠ (s.half h).fld F.HTC_LINK_protocol then s.violation h 0x05 type 0
  else f (s.counted h kind x)

/-- MSG_INTERRUPT (R354, R479). -/
def execMsgInterrupt (e : Ev) (x : MsgH) (hart ident : Nat) (s0 : State) : Host.Outcome State Fault Refusal :=
  .next ((tick e s0).message e.half 0x01 x fun t => let d := t.draw; d.2.interrupt e.half (hart % 12) ident (freeSave d.1))

/-- MSG_QUEUE_COMPLETION_IRQ (R354). -/
def execMsgQueueCompletionIrq (e : Ev) (x : MsgH) (q : Nat) (s0 : State) : Host.Outcome State Fault Refusal :=
  .next ((tick e s0).message e.half 0x02 x fun t => t.emit (.queueIrq e.half q))

/-- MSG_REMOTE_WATCH_REQUEST (R239, R354): taken by the dispatch firmware while the compute domain runs. -/
def execMsgRemoteWatchRequest (e : Ev) (x : MsgH) (q gen idx addr val : Nat) (s0 : State) : Host.Outcome State Fault Refusal :=
  .next ((tick e s0).message e.half 0x03 x fun t =>
    if (t.half e.half).clk.computeUp then t.addWatch e.half { peer := none, q := q, gen := gen, idx := idx, addr := addr, value := val } else t)

/-- MSG_REMOTE_WATCH_REPLY (R239, R354). -/
def execMsgRemoteWatchReply (e : Ev) (x : MsgH) (q gen idx : Nat) (s0 : State) : Host.Outcome State Fault Refusal :=
  .next ((tick e s0).message e.half 0x04 x fun t => if qHalf q = e.half then t.watchReply q gen idx else t)

/-- MSG_GATEWAY_FRAME (R354, R365): toward a CAN endpoint of this half. -/
def execMsgGatewayFrame (e : Ev) (x : MsgH) (f : Frame) (dst : Nat) (s0 : State) : Host.Outcome State Fault Refusal :=
  .next ((tick e s0).message e.half 0x05 x fun t => if dst < 16 && busHalf dst = e.half then t.toBus e.half dst f else t)

/-- MSG_CONTROL_RELAY (R309, R354): the fragment is passed on; the frame it belongs to acts by its own command. -/
def execMsgControlRelay (e : Ev) (x : MsgH) (_frag : List Byte) (s0 : State) : Host.Outcome State Fault Refusal :=
  .next ((tick e s0).message e.half 0x06 x fun t => t)

/-- RES_MSG_RESULT (R262, R354): a delivered result, or an absent channel, of the other half. -/
def execResMsgResult (e : Ev) (x : MsgH) (task ch round : Nat) (st : Status) (s0 : State) : Host.Outcome State Fault Refusal :=
  .next ((tick e s0).message e.half 0x40 x fun t => t.stage (peer e.half) e.half task (t.fullRound e.half task round) ch st [] [])

/-- RES_MSG_VERDICT (R267, R354). -/
def execResMsgVerdict (e : Ev) (x : MsgH) (task round : Nat) (v : Verdict) (s0 : State) : Host.Outcome State Fault Refusal :=
  .next ((tick e s0).message e.half 0x41 x fun t => t.verdictArrives e.half task round v)

/-- The difference from the other half's VT, within the free error of the crossing, shown with its alarm (R355). At the alarm the half sends the state of
its servo (R287). -/
def State.compareVt (t : State) (h peerVt : Nat) : State :=
  let d := t.draw
  let diff : Int := (t.vtOf h : Int) - peerVt + 45 - ((d.1 % 136 : Nat) : Int)
  let shown := if -(2 ^ 31 : Int) ≤ diff && diff < 2 ^ 31 then (diff % 2 ^ 32).toNat else d.1
  let s1 := d.2.upd h fun y => (y.setFld F.HTC_VT_DIFF_diff_ns shown).setFld F.HTC_VT_DIFF_alarm (if 1000 < diff.natAbs then 1 else 0)
  if diff.natAbs ≤ 1000 then s1 else s1.hatchSend h 0x44 [5, if (t.half h).servoLost then 1 else 0]

/-- The half of a retired control port disciplines its VT from the other half: it takes that half's offset, and its rate is what its servo makes of the comparison, a
free value within ±500 ppm (R309, R503). -/
def State.followVt (t : State) (h : Nat) : State :=
  if !(t.half h).svc.record.portRetired then t else
  let d := t.draw
  let o := t.half (peer h)
  d.2.upd h fun y => (({ y with clk := { y.clk with theta := o.clk.theta } } : Half).setRate ((d.1 % 1000001 : Nat) - 500000) 1)

/-- VT_COMPARE (R309, R355): the difference is estimated within 45 ns, so what the flight adds is a free value; above 1 µs the alarm is set. -/
def execVtCompare (e : Ev) (x : MsgH) (peerVt : Nat) (s0 : State) : Host.Outcome State Fault Refusal :=
  .next ((tick e s0).message e.half 0x42 x fun t => (t.compareVt e.half peerVt).followVt e.half)

/-- RES_MSG_GOING_DOWN (R354, R384): this half's port says it too. -/
def execResMsgGoingDown (e : Ev) (x : MsgH) (kind reason vt : Nat) (s0 : State) : Host.Outcome State Fault Refusal :=
  .next ((tick e s0).message e.half 0x43 x fun t => t.emit (.goingDown e.half (peer e.half) kind reason vt))

/-- What a half learns from the other Gatehouse's state. -/
def Half.peerSays (y : Half) (st : GhState) : Half := match st with
  | .degraded => y.setFld F.TLY_CTL_witness 0
  | .standby => y
  | .ready => y
  | .rejoin k => { y with tally := { y.tally with rejoining := true, rejoinStep := k } }
  | .demoted => y.setFld F.HTC_LINK_state 3
  | .servo lost => { y with tally := { y.tally with peerServoLost := lost } }

/-- RES_MSG_GATEHOUSE_STATE (R287, R354, R360). -/
def execResMsgGatehouseState (e : Ev) (x : MsgH) (st : GhState) (s0 : State) : Host.Outcome State Fault Refusal :=
  .next ((tick e s0).message e.half 0x44 x fun t =>
    (if st = .demoted then t.answerOut e.half else t).upd e.half fun y => y.peerSays st)

/-- RES_MSG_REPAIR_NOTICE (R315, R354): the partner's release. -/
def execResMsgRepairNotice (e : Ev) (x : MsgH) (release : Nat) (s0 : State) : Host.Outcome State Fault Refusal :=
  .next ((tick e s0).message e.half 0x45 x fun t => t.upd e.half fun y => y.setFld F.HTC_LINK_peer_release release)

end Sys2Proof.Machine
end

