-- ==== Sys2Proof/Machine/Messages.lean ====
section
/-! DEFINITION. The mailbox messages of the Latch, of the device and of its records (R385, R386, R391, R392, R525). -/
namespace Sys2Proof.Machine

/-! ## The Latch (R385, R386) -/

/-- The partner number under which a message's path takes the Latch. -/
def takerPartner : Origin → Nat
  | .session p => p
  | .ring k => ringPartner k
  | .teller _ => 0

/-- The Latch goes to the sender with generation `g`, for 100 ms. -/
def State.takeLatch (t : State) (h : Nat) (m : Msg) (pid g : Nat) : State :=
  let port := match m.org with | .session _ => t.portOf h | _ => h
  { t with latch := { holder := some (pid % 2 ^ 64), half := port, partner := takerPartner m.org, gen := g, expires := t.now + 100000000 } }

/-- LATCH_TAKE (R386). -/
def execLatchTake (e : Ev) (m : Msg) (pid : Nat) (s0 : State) : Host.Outcome State Fault Refusal :=
  let s := tick e s0
  let h := e.half
  .next (s.mbox h m 0x01 .any false fun t0 =>
    let t := t0.endLease
    if t.latch.holder.isSome then (t, .latchHeld, t.latch.gen + t.leaseMs * 2 ^ 32)
    else
      let g := (t.latch.gen + 1) % 2 ^ 16
      (t.takeLatch h m pid g, .ok, g + 100 * 2 ^ 32))

/-- When a message arrived: with its frame where it waited in a session, else now. -/
def State.arrival (s : State) (h : Nat) (m : Msg) : Nat :=
  match m.org with
  | .session p => (match (s.half (s.portOf h)).session p with
    | some k => (match k.queued with | q :: _ => q.since | [] => s.now)
    | none => s.now)
  | _ => s.now

/-- LATCH_RENEW (R386, R445): it counts at its arrival; in the ms tick of the expiry it is late, and the Latch is free. -/
def execLatchRenew (e : Ev) (m : Msg) (s0 : State) : Host.Outcome State Fault Refusal :=
  let s := tick e s0
  let h := e.half
  .next (s.mbox h m 0x02 .l false fun t =>
    let a := t.arrival h m
    if t.latch.expires / 1000000 ≤ a / 1000000 then (t.freeLatch, .latchHeld, 0)
    else ({ t with latch := { t.latch with expires := a + 100000000 } }, .ok, 100 * 2 ^ 32))

/-- LATCH_RELEASE (R386). -/
def execLatchRelease (e : Ev) (m : Msg) (s0 : State) : Host.Outcome State Fault Refusal :=
  .next ((tick e s0).mbox e.half m 0x03 .l false fun t => (t.freeLatch, .ok, 0))

/-- LATCH_QUERY (R391): port and partner of a free Latch are not stated (log entry 1). -/
def execLatchQuery (e : Ev) (m : Msg) (s0 : State) : Host.Outcome State Fault Refusal :=
  .next ((tick e s0).mbox e.half m 0x04 .a false fun t =>
    match t.latchLive, t.latch.holder with
    | true, some pid => (t, .ok, 1 + t.latch.half * 2 ^ 8 + t.latch.gen * 2 ^ 16 + t.leaseMs * 2 ^ 32 + pid * 2 ^ 64)
    | _, _ =>
      let d := t.draw
      let f := d.2.draw
      (f.2, .ok, d.1 % 2 ^ 8 * 2 ^ 8 + t.latch.gen * 2 ^ 16 + f.1 % 2 ^ 64 * 2 ^ 64))

/-! ## The device (R391, R392) -/

/-- The reply payload of DEV_INFO: both releases, ES, lifecycle, both states, rollback counter, VT. -/
def State.devInfo (t : State) (h : Nat) : Nat :=
  let x := t.half h
  let rel (g : Nat) : Nat := if g = h then x.fld F.SVC_FW_STAT_release else t.peerRelease h
  rel 0 + rel 1 * 2 ^ 16 + (if t.es then 1 else 0) * 2 ^ 32 + x.fld F.SVC_LIFECYCLE_state * 2 ^ 40 + t.beatState 0 * 2 ^ 48 +
    t.beatState 1 * 2 ^ 56 + x.fw.rollback % 2 ^ 16 * 2 ^ 64 + x.vt.toNat * 2 ^ 128

/-- DEV_INFO (R391). -/
def execDevInfo (e : Ev) (m : Msg) (s0 : State) : Host.Outcome State Fault Refusal :=
  let h := e.half
  .next ((tick e s0).mbox h m 0x10 .a false fun t =>
    (t, .ok, t.devInfo h))

/-- Register words of a STATS_READ: (register, unit, element, word) of each, or the refusal (R392). -/
def statsWords (block unit reg index count : Nat) : Option (List (Reg × Nat × Nat × Nat)) :=
  match (blockRegs block)[reg]? with
  | none => none
  | some r =>
    let u := if r = .DSP_RAS_STAT then 0 else unit
    let i := if r = .TEL_VDI_STAT then 0 else index
    let w := regWords r
    if regUnits r ≤ u || regElems r ≤ i || regElems r * w < i * w + count then none
    else some ((List.range count).map fun k => (r, u, i + k / w, k % w))

/-- Register words side by side, the first lowest. -/
def Half.words (x : Half) (l : List (Reg × Nat × Nat × Nat)) : Nat :=
  (List.range l.length).foldl (fun a k => match l[k]? with
    | some (r, u, i, w) => a + x.readWord r u i w * 2 ^ (64 * k)
    | none => a) 0

/-- The rc fields of register words cleared. -/
def Half.clearWords (x : Half) (l : List (Reg × Nat × Nat × Nat)) : Half := l.foldl (fun y q => y.clearRc q.1 q.2.1 q.2.2.1 q.2.2.2) x

/-- STATS_READ (R391, R392): clearing is for the Latch holder. A bank move has gone on when its block is read (R129, R138). -/
def execStatsRead (e : Ev) (m : Msg) (block : Nat) (clear : Bool) (unit reg index count : Nat) (s0 : State) : Host.Outcome State Fault Refusal :=
  let h := e.half
  .next ((tick e s0).mbox h m 0x11 (if clear then .l else .a) false fun t =>
    if count = 0 then (t, .empty, 0) else if 6 < count then (t, .badArg, 0) else
    match statsWords block unit reg index count with
    | none => (t, .badArg, 0)
    | some l =>
      let u := if block = 3 then t.moveOn h else t
      (if clear then u.upd h fun x => x.clearWords l else u, .ok, (u.half h).words l))

/-! ## Records (R374, R391, R525) -/

/-- The 32 bytes of an incident record (R374). -/
def Incident.bytes (r : Incident) : List Byte :=
  leBytes 8 r.vt ++ leBytes 1 r.source ++ leBytes 1 r.half ++ leBytes 2 r.unit ++ leBytes 1 r.status.code ++ leBytes 3 0 ++ leBytes 4 r.detail ++
  leBytes 4 r.count ++ leBytes 4 r.seq ++ leBytes 4 0

/-- Steps from one sequence number to a later one, 0 skipped; none where it is earlier (R374, R525). -/
def seqSteps (a b : Nat) : Option Nat :=
  let d := (b + 2 ^ 32 - a % 2 ^ 32) % 2 ^ 32
  if d < 2 ^ 31 then some (if b < a then d - 1 else d) else none

/-- The records of `count` sequence numbers from `first` on. -/
def incidentsFrom (first count : Nat) (l : List Incident) : List Incident :=
  l.filter fun r => match seqSteps first r.seq with | some d => decide (d < count) | none => false

/-- INCIDENT_READ (R525). -/
def execIncidentRead (e : Ev) (m : Msg) (first count dst : Nat) (s0 : State) : Host.Outcome State Fault Refusal :=
  let h := e.half
  .next ((tick e s0).mbox h m 0x12 .a false fun t =>
    if count = 0 then (t, .empty, 0) else if 4096 < count then (t, .badArg, 0) else
    let room := t.dstBytes h m dst (leBytes (32 * count) 0)
    if room.1 = .outOfRange || room.1 = .badArg then (t, room.1, 0) else
    let held := (t.half h).incidents.reverse
    let l := incidentsFrom first count held
    t.withDst h m dst (l.flatMap Incident.bytes) ((held.head?.map (·.seq)).getD 0 + l.length * 2 ^ 32))

/-- ACCOUNT_READ (R244, R391). -/
def execAccountRead (e : Ev) (m : Msg) (ctx dst : Nat) (s0 : State) : Host.Outcome State Fault Refusal :=
  let h := e.half
  .next ((tick e s0).mbox h m 0x13 .v false fun t =>
    if !(t.vdi m.vdi).ownsCtx ctx then (t, .notOwner, 0) else
    let n := if isL ctx then 128 else 32
    t.withDst h m dst (leBytes n (t.ctx ctx).raw) n)

end Sys2Proof.Machine
end

