-- ==== Sys2Proof/Machine/MintCmds.lean ====
section
/-! DEFINITION. Stacked DRAM and the Mint (R307, R308, R321-R340): errors and repairs of the stacks, class sets, throttles and held requests. -/
namespace Sys2Proof.Machine

/-! ## Reads and repairs of the stacks (R303, R307, R308, R325, R326) -/

/-- A place that the interleave uses, while its half runs. -/
def Half.dramPlace (x : Half) (pc bank row : Nat) : Bool := x.clk.rimUp && x.dramUsed pc bank row

/-- A corrected error of a row counted and listed; the second within 24 powered hours makes its remap due (R326). -/
def Half.corrected (x : Half) (pc bank row : Nat) : Half :=
  let y := x.inc F.MNT_ECC_corrected 0 (pc / 32)
  let key := rowKey pc bank row
  let l := kget (fun _ => []) y.mint.ecc (pc / 32)
  let again := l.any fun e => decide (e.1 = key) && decide (y.hours ≤ e.2 + 24)
  let rest := l.filter fun e => e.1 ≠ key
  let new := if again then rest else ((key, y.hours) :: rest).take 256
  { y with mint := { y.mint with ecc := kput (fun _ => []) y.mint.ecc (pc / 32) new, due := if again then key :: y.mint.due.erase key else y.mint.due } }

/-- An uncorrected read: counted, its row due for a remap (R307, R325). -/
def Half.uncorrected (x : Half) (pc key : Nat) : Half :=
  let y := (x.inc F.MNT_ECC_uncorrected 0 (pc / 32)).setFld F.MNT_INT_uncorrected 1
  { y with mint := { y.mint with due := key :: y.mint.due.erase key } }

/-- A word of a row that a read found uncorrectable is lost: reads that touch it are answered with DATA_ERROR (R307, R325). -/
def Half.loseWord (x : Half) (key i : Nat) : Half :=
  match x.rowWord key i with
  | some w => { x with mint := { x.mint with dramBad := kput (fun _ => false) x.mint.dramBad w true } }
  | none => x

/-- DRAM_READ_ECC (R325): counted; an uncorrectable read is recorded, and its row's remap is due. Which of the row's words it was is a free value, and the read of
that word by its requester is answered with DATA_ERROR. -/
def execDramReadEcc (e : Ev) (pc bank row : Nat) (unc : Bool) (s0 : State) : Host.Outcome State Fault Refusal :=
  let s := tick e s0
  let h := e.half
  if !(s.half h).dramPlace pc bank row then .next s
  else if !unc then .next (s.upd h fun x => x.corrected pc bank row)
  else
    let key := rowKey pc bank row
    let d := s.draw
    .next ((d.2.upd h fun x => (x.uncorrected pc key).loseWord key (d.1 % 32)).incident h 0x09 pc .dataError row)

/-- ECS_SCRUB (R326): a completed pass; the row with the most errors counts as one corrected read. -/
def execEcsScrub (e : Ev) (pc bank row : Nat) (s0 : State) : Host.Outcome State Fault Refusal :=
  let s := tick e s0
  let h := e.half
  if !(s.half h).dramPlace pc bank row then .next s
  else .next (s.upd h fun x => (x.corrected pc bank row).incw F.MNT_ECC_scrub_passes 0 (pc / 32))

/-- Rows of a pseudo-channel that the record has remapped: its valid entries. -/
def Half.remapped (x : Half) (pc : Nat) : Nat :=
  ((kget (fun _ => []) x.svc.record.remap (pc / 32)).filter fun e => decide (e.1 < 2 ^ 40) && decide (e.1 / 2 ^ 23 = pc)).length

/-- Used entries of a stack's remap table. -/
def Half.tableUsed (x : Half) (stack : Nat) : Nat := (kget (fun _ => []) x.svc.record.remap stack).length

/-- A row moved to a spare row: the table's entry, with the words that are lost now and those that were lost and have not been rewritten (R307). -/
def Half.remapRow (x : Half) (pc key lost : Nat) : Half :=
  let held := (kget (fun _ => []) x.svc.record.remap (pc / 32)).foldl (fun m e => if e.1 = key then m ||| e.2 else m) 0
  let bad := (List.range 32).foldl (fun m i => match x.rowWord key i with
    | some w => if kget (fun _ => false) x.mint.dramBad w then m ||| 2 ^ i else m
    | none => m) 0
  let mask := (lost ||| held ||| bad) % 2 ^ 32
  let words := ((List.range 32).filter fun i => bits mask i 1 = 1).filterMap fun i => x.rowWord key i
  let y : Half := { x with mint := { x.mint with
    due := x.mint.due.erase key
    dramBad := words.foldl (fun m w => kput (fun _ => false) m w true) x.mint.dramBad } }
  ((y.setRecord fun r =>
    let old := (kget (fun _ => []) r.remap (pc / 32)).map fun e => if e.1 = key then (e.1 + 2 ^ 40, 0) else e
    { r with remap := kput (fun _ => []) r.remap (pc / 32) (old ++ [(key, mask)]) }).event 5 pc 1 key).writeRecord

/-- ROW_REMAP (R307): a row whose remap is due goes to the stack's next spare row; bit i of `lost` is set for each lost 32-byte word. -/
def execRowRemap (e : Ev) (pc bank row lost : Nat) (s0 : State) : Host.Outcome State Fault Refusal :=
  let s := tick e s0
  let h := e.half
  let x := s.half h
  let key := rowKey pc bank row
  if !x.dramPlace pc bank row || x.fw.stewardDown || !x.mint.due.contains key || 4096 ≤ x.tableUsed (pc / 32) then .next s
  else .next (s.upd h fun x => x.remapRow pc key lost)

/-- PSEUDO_CHANNEL_RETIRE (R303, R308): the retirement is pending and the budget is cut at once; after a training failure the half takes an M. -/
def execPseudoChannelRetire (e : Ev) (idx : Nat) (training : Bool) (s0 : State) : Host.Outcome State Fault Refusal :=
  let s := tick e s0
  let h := e.half
  let x := s.half h
  let r := x.svc.record
  let trigger := training || decide (4096 ≤ x.tableUsed (idx / 32)) || decide (512 ≤ x.remapped idx)
  if !x.clk.rimUp || x.fw.stewardDown || 64 ≤ idx || bits (r.pcRetired ||| r.pcPending) idx 1 = 1 || !trigger then .next s
  else
    let s1 := s.upd h fun x => ((x.setRecord fun r => { r with pcPending := r.pcPending ||| 2 ^ idx }).event 6 idx 1 0).writeRecord
    let s2 := s1.reconcile h 0x05
    .next (if training then (s2.upd h fun x => { x with mint := { x.mint with pcFailed := x.mint.pcFailed ||| 2 ^ idx } }).askRestart h 2 0x05 else s2)

/-! ## Class sets (R338) -/

/-- A class that a context of the critical partition uses keeps criticality 15 (R329). -/
def State.critUses (s : State) (k : Nat) : Bool := s.ctxs.any fun c => decide (cPart c.2.raw = 0) && decide (cMark c.2.raw = k) && decide (cWeight c.2.raw ≠ 0)

/-- The first check of R338 on one class. -/
def State.classRange (s : State) (k : Nat) (c : ClassSet) : Bool :=
  decide (1 ≤ mcWindow c.cfg) && decide (8 ≤ mcDepth c.cfg) && decide (c.ports < 2 ^ 142) && (decide (mcDram c.cfg ≠ 0) || decide (mcBorrow c.cfg = 1)) &&
  (k = 15 || decide (mcCrit c.cfg = 15) || !s.critUses k)

/-- The second check of R338 on one class. -/
def Half.classPorts (x : Half) (c : ClassSet) : Bool :=
  (decide (mcDram c.cfg = 0) || decide (0 < x.backedPorts c.ports)) && (decide (mcHatch c.cfg = 0) || decide (bits c.ports 130 3 = 0))

/-- The setting a class takes in the shadow set; class 15 is fixed in part (R329, R338). -/
def shadowSet (cls cfg ports : Nat) : ClassSet :=
  if cls = 15 then { cfg := setBits (cfg % 2 ^ 56) 20 4 15, ports := 7 * 2 ^ 130 } else { cfg := cfg % 2 ^ 56, ports := ports % 2 ^ 256 }

/-- MNT_SHADOW (R338): criticality and port set of class 15 are fixed. -/
def execMntShadow (e : Ev) (m : Msg) (cls cfg ports : Nat) (s0 : State) : Host.Outcome State Fault Refusal :=
  let h := e.half
  .next ((tick e s0).mbox h m 0x30 .l false fun t =>
    if 16 ≤ cls then (t, .badArg, 0)
    else (t.upd h fun x =>
      { x with mint := { x.mint with shadow := kput (fun _ => { cfg := 2 ^ 64, ports := 0 }) x.mint.shadow cls (shadowSet cls cfg ports) } }, .ok, 0))

/-- A class of a committed set in force: its age where a guarantee changed, its buckets kept and clipped to the new depth. -/
def Half.commitClass (x : Half) (k : Nat) (c : ClassSet) : Half :=
  let old := x.classSet k
  let same := decide (mcDram old.cfg = mcDram c.cfg) && decide (mcHatch old.cfg = mcHatch c.cfg)
  let y := ((x.setWord .MNT_CLASS_CFG 0 k 0 c.cfg).setElem .MNT_CLASS_PORTS c.ports 0 k)
  let z := if same then y else y.setElem .MNT_CLASS_AGE x.vt.toNat 0 k
  let d0 := mcDepth old.cfg * 65536
  let d1 := mcDepth c.cfg * 65536
  let clip (m : Nat) : Nat := d1 - Nat.min (d0 - m) d1
  if d0 = d1 then z else
  let w := (List.range 142).foldl (fun y p => y.setMissing p k (clip (x.missing p k))) z
  { w with mint := { w.mint with hatchCoins := kput (fun _ => 0) w.mint.hatchCoins k (clip (kget (fun _ => 0) x.mint.hatchCoins k)) } }

/-- A class's setting of the shadow set, or the one in force where it was not written. -/
def Half.newClass (x : Half) (k : Nat) : ClassSet := (x.mint.shadow.find? fun c => c.1 = k).elim (x.classSet k) (·.2)

def Half.newSum (x : Half) (f : Nat → Nat) : Nat := (List.range 16).foldl (fun a k => a + f (x.newClass k).cfg) 0

/-- The class set committed to all ports (R338). -/
def Half.commitShadow (x : Half) (new : Nat → ClassSet) (now : Nat) : Half :=
  let y := (List.range 16).foldl (fun y k => y.commitClass k (new k)) (x.fillBuckets now)
  ({ y with mint := { y.mint with shadow := [] } } : Half).effective

/-- MNT_COMMIT (R338): the shadow set over the settings in force, checked and committed as a whole. -/
def execMntCommit (e : Ev) (m : Msg) (s0 : State) : Host.Outcome State Fault Refusal :=
  let h := e.half
  .next ((tick e s0).mboxL h m 0x31 fun t =>
    let x := t.half h
    match (List.range 16).find? (fun k => !t.classRange k (x.newClass k)), (List.range 16).find? (fun k => !x.classPorts (x.newClass k)) with
    | some k, _ => (t, .badArg, k)
    | none, some k => (t, .badArg, k)
    | none, none =>
      if x.fld F.MNT_BUDGET_dram < x.newSum mcDram || x.fld F.MNT_BUDGET_hatch < x.newSum mcHatch then
        (let d := t.draw                                      -- no single class fails a sum
         (d.2, .noSpace, d.1 % 256))
      else (t.upd h fun y => y.commitShadow x.newClass t.now, .ok, 0))

/-- MNT_FB (R334, R345). -/
def execMntFb (e : Ev) (m : Msg) (cfg : Nat) (s0 : State) : Host.Outcome State Fault Refusal :=
  let h := e.half
  .next ((tick e s0).mboxL h m 0x32 fun t =>
    let th := bits cfg 0 6
    let hy := bits cfg 6 6
    if th < 8 || hy = 0 || th ≤ hy then (t, .badArg, 0) else (t.upd h fun x => x.writeWord .MNT_FB_CFG 0 0 0 cfg, .ok, 0))

/-! ## Traffic (R331, R334, R337) -/

/-- The longest queue reported for a stack. -/
def Half.setLevel (x : Half) (stack n : Nat) : Half := { x with mint := { x.mint with levels := kput (fun _ => 0) x.mint.levels stack n } }

/-- STACK_THROTTLE (R334): the longest queue that a stack's other traffic has made, beside the queues in `Mint.ctl`. -/
def execStackThrottle (e : Ev) (stack level : Nat) (s0 : State) : Host.Outcome State Fault Refusal :=
  let s := tick e s0
  let h := e.half
  if !(s.half h).clk.rimUp || 2 ≤ stack then .next s
  else .next (s.upd h fun _ => ((s.half h).setLevel stack level).feedback stack)

/-- A request of a port and class has been held at the port for the class's window since it first held the coins for its cost (R337). -/
def Half.overdue (x : Half) (port cls now : Nat) (q : Held) : Bool :=
  decide (q.port = port) && decide (q.cls = cls) && decide (q.coinsAt ≠ 0) && !q.missed &&
    decide (q.coinsAt - 1 + 1000 * x.fld F.MNT_CLASS_CFG_window_us 0 cls ≤ now)

/-- The held request of a port and class that misses its guarantee, noted as missed. -/
def Half.noteMiss (x : Half) (port cls now : Nat) : Half :=
  let older := x.mint.held.takeWhile fun q => !x.overdue port cls now q
  { x with mint := { x.mint with held := older ++ match x.mint.held.drop older.length with
    | q :: l => { q with missed := true } :: l
    | [] => [] } }

/-- A guarantee missed: counted with its port; `first`: it is the first within 100 ms (R337). -/
def Half.missed (x : Half) (port cls : Nat) (first : Bool) : Half :=
  let y := ((x.inc F.MNT_MISS_count 0 cls).setFld F.MNT_MISS_last_port port 0 cls).setFld F.MNT_INT_miss 1
  if first then { y with mint := { y.mint with missVt := kput (fun _ => 0) y.mint.missVt cls (x.vt.toNat + 1) } } else y

/-- GUARANTEE_MISS (R337): nothing is dropped; the request goes when its controller accepts it. -/
def execGuaranteeMiss (e : Ev) (port cls : Nat) (s0 : State) : Host.Outcome State Fault Refusal :=
  let s := tick e s0
  let h := e.half
  let x := (s.half h).fillBuckets s.now
  if !(s.half h).clk.rimUp || 16 ≤ cls || !(x.mint.held.any (x.overdue port cls s.now)) then .next s else
  let last := kget (fun _ => 0) x.mint.missVt cls
  let first := decide (last = 0) || decide (last - 1 + 100000000 ≤ x.vt.toNat)
  let s1 := s.upd h fun _ => (x.noteMiss port cls s.now).missed port cls first
  .next (if first then s1.incident h 0x09 port .timeout cls else s1)

/-- A request leaves its port where its controller has room: paid, or as surplus (R331, R332). -/
def Half.send (x : Half) (r : Held) : Option Half :=
  let cost := coinCost r.bytes
  if !x.ctlRoom r.pc then none
  else if x.pays r.port r.cls cost then some ((x.setMissing r.port r.cls (x.missing r.port r.cls + cost)).leaves r true)
  else if x.borrows r.cls r.stack then some (x.leaves r false)
  else none

/-- A request held at its port, at the end of the others; `first`: none of its port and class is held before it, so that it holds its coins as soon as the
bucket does. -/
def Half.keepReq (x : Half) (r : Held) (now : Nat) (first : Bool) : Half :=
  let q := if first && r.coinsAt = 0 && x.pays r.port r.cls (coinCost r.bytes) then { r with coinsAt := now + 1 } else r
  { x with mint := { x.mint with held := x.mint.held ++ [q] } }

/-- A request at its port: behind those of its port and class that are held it is held too, else it leaves if it can (R331). -/
def Half.atMint (x : Half) (now : Nat) (r : Held) : Half :=
  let mates := x.mint.held.any fun q => decide (q.port = r.port) && decide (q.cls = r.cls)
  if mates then x.keepReq r now false else (x.send r).getD (x.keepReq r now true)

/-- The held requests of every port, tried again in their order (R331). -/
def Half.sendHeld (x : Half) (now : Nat) : Half :=
  x.mint.held.foldl (fun y q => y.atMint now q) { x with mint := { x.mint with held := [] } }

/-- The mint mark that a port's requests carry comes from their source: the context of the command that the core, the Sieve or the raster front end runs, a
VDI for the application cores, 15 for the intake and the display pipes, GTW_CTL.mark for the gateway, class 0 or the mark of a model load for the
device engines; no other source has class 15 (R328, R330; log entry 82). -/
def State.markFits (s : State) (h port cls : Nat) : Bool :=
  let x := s.half h
  let ofCtx (c : Nat) : Bool := decide (cMark (s.ctx c).raw = cls)
  let held := x.mint.held.any fun q => decide (q.port = port) && decide (q.cls = cls)
  if 130 ≤ port && port ≤ 132 then decide (cls = 15)
  else if port = 136 then decide (cls < 16)
  else if 15 ≤ cls then false
  else if port < 128 then ((x.physical port).bind fun p => (x.core p).run).elim held fun r => ofCtx r.ctx
  else if port = 128 then x.sieve.elim held fun r => ofCtx r.ctx
  else if port = 129 then s.ctxs.any fun c => ofCtx c.1
  else if port ≤ 135 then s.vdis.any fun v => decide (v.2.mark = cls)
  else if port = 139 then decide (x.fld F.GTW_CTL_mark = cls)
  else if port = 140 then decide (cls = 0)
  else if port = 141 then decide (cls = 0) || s.ctxs.any fun c => ofCtx c.1
  else true

/-- PORT_REQUEST_HELD_RELEASE (R331, R332): the controller that the request goes to has served requests of its queue, and the held requests of every port are
tried again; then the request leaves its port paid, leaves as surplus, or is held there behind the requests of its port and class. With no bytes
there is no new request. -/
def execPortRequestHeldRelease (e : Ev) (port cls : Nat) (to_ : DramReq) (bytes : Nat) (write : Bool) (s0 : State) :
    Host.Outcome State Fault Refusal :=
  let s := tick e s0
  let h := e.half
  let x := s.half h
  if !x.clk.rimUp || !x.portBacked port || !s.markFits h port cls || !x.dramUsed to_.pc to_.bank to_.row then .next s else
  let y := ((x.fillBuckets s.now).ctlServe to_.pc to_.turns).sendHeld s.now
  .next (s.upd h fun _ => if bytes = 0 then y else y.atMint s.now
    { port := port, cls := cls, pc := to_.pc, bank := to_.bank, row := to_.row, bytes := bytes, write := write, since := s.now, coinsAt := 0, missed := false })

end Sys2Proof.Machine
end

