-- ==== Sys2Proof/Machine/Ports.lean ====
section
/-! DEFINITION. The control ports, the service rings, the Teller and the steward that serves them (R376-R402, R444, R445): the commands of that family
that are no mailbox message. -/
namespace Sys2Proof.Machine

/-! ## The steward (R444-R446) -/

/-- The steward stops, its restarts within the second kept. -/
def Half.stewardStops (x : Half) (l : List Nat) : Half :=
  ({ x with fw := { x.fw with stewardDown := true, stewardVts := l } } : Half).inc F.SVC_FW_CRASH_steward

/-- STEWARD_WATCHDOG (R444, R465): the steward restarts; three restarts within 1 s are an M, by hardware. -/
def execStewardWatchdog (e : Ev) (s0 : State) : Host.Outcome State Fault Refusal :=
  let s := tick e s0
  let h := e.half
  let x := s.half h
  if !x.clk.rimUp || x.fw.stewardDown then .next s else
  let l := x.vt.toNat :: within x.vt.toNat 1000000000 x.fw.stewardVts
  let three := decide (3 ≤ l.length)
  let s1 := s.upd h fun x => x.stewardStops (if three then [] else l)
  if three then .next (s1.resetHalf h 2 0x0C false) else .next (s1.componentStop h 1)

/-- A waiting message may have been executing at the stop; then it is answered INTERNAL, and what it waits for is forgotten (R445). -/
def State.stopped (s : State) (h : Nat) (m : Msg) (op : Nat) : State :=
  let d := s.draw
  if d.1 % 2 = 0 || (s.half h).disp.leaving.any (fun l => l.msg.org = m.org) then d.2
  else
    let s1 := d.2.upd h fun x => { x with str := { x.str with waits := x.str.waits.filter fun a => decide (a.msg.org ≠ m.org) } }
    s1.reply h m op .internal 0

/-- A message that waits for running commands was executing: it is answered INTERNAL, and its effect, begun, is carried through. -/
def State.stopLeaving (s : State) (h : Nat) : State :=
  (s.half h).disp.leaving.foldl (fun t l => ((t.rest h l).1).reply h l.msg l.op .internal 0) (s.upd h fun x => { x with disp := { x.disp with leaving := [] } })

/-- Every message that its path would execute next, met by the stop. -/
def State.stopMessages (s : State) (h : Nat) : State :=
  let g := s.portOf h
  let s1 := (s.half g).ports.sessions.foldl (fun t e => match e.2 with
    | some k => (match k.queued with
      | q :: _ => if q.half = h then
          (let a := t.draw
           let b := a.2.draw
           b.2.stopped h { org := .session e.1, tag := q.hd.tag, gen := a.1, vdi := b.1 } q.hd.opcode) else t
      | [] => t)
    | none => t) s
  let fields (org : Origin) (w : Nat) : Msg := { org := org, tag := bits w 32 32, gen := bits w 64 16, vdi := bits w 80 8 }
  let s2 := (s.half h).ports.tellerMsg.foldl (fun t e =>
    if e.2 = 0 || kget (fun _ => 0) (t.half h).ports.tellerReply e.1 ≠ 0 then t else t.stopped h (fields (.teller e.1) (e.2 - 1)) (bits (e.2 - 1) 0 16)) s1
  (List.range 8).foldl (fun t k =>
    let r := (t.half h).ring k
    let w := kget (fun _ => 0) r.slots (r.reqHead % 128)
    if r.reqHead = r.reqTail then t else t.stopped h (fields (.ring k) w) (bits w 0 16)) s2

/-- The steward runs again and takes what was received. -/
def Half.stewardRuns (x : Half) : Half := { x with fw := { x.fw with stewardDown := false }, ports := { x.ports with rxq := [] } }

/-- STEWARD_RESTART_DONE (R444, R445, R446): the message that was executing is answered INTERNAL, and what was received meanwhile is served in order. -/
def execStewardRestartDone (e : Ev) (s0 : State) : Host.Outcome State Fault Refusal :=
  let s := tick e s0
  let h := e.half
  let x := s.half h
  if !x.clk.rimUp || !x.fw.stewardDown then .next s else
  let s1 := (s.reloadCopy h 1).upd h Half.stewardRuns
  .next (x.ports.rxq.foldl (fun t r => t.onFrame h r.1 r.2) ((s1.stopMessages h).stopLeaving h))

/-! ## Frames of a control port (R376-R382, R389, R399) -/

/-- HELLO (R380). -/
def execHello (e : Ev) (partner seq pid : Nat) (s0 : State) : Host.Outcome State Fault Refusal :=
  .next ((tick e s0).receive e.half partner (.hello e partner seq pid))

/-- MAILBOX (R389). -/
def execMailbox (e : Ev) (hd : FrameHdr) (msgs : List MsgHead) (s0 : State) : Host.Outcome State Fault Refusal :=
  .next ((tick e s0).receive e.half hd.partner (.mailbox e hd msgs))

/-- REG_READ (R379). -/
def execRegRead (e : Ev) (hd : FrameHdr) (vdi off count : Nat) (s0 : State) : Host.Outcome State Fault Refusal :=
  .next ((tick e s0).receive e.half hd.partner (.regRead e hd vdi off count))

/-- REG_WRITE (R379). -/
def execRegWrite (e : Ev) (hd : FrameHdr) (vdi off : Nat) (vals : List Nat) (s0 : State) : Host.Outcome State Fault Refusal :=
  .next ((tick e s0).receive e.half hd.partner (.regWrite e hd vdi off vals))

/-- DATA_WRITE (R379). -/
def execDataWrite (e : Ev) (hd : FrameHdr) (off : Nat) (data : List Byte) (s0 : State) : Host.Outcome State Fault Refusal :=
  .next ((tick e s0).receive e.half hd.partner (.dataWrite e hd off data))

/-- DATA_READ (R379). -/
def execDataRead (e : Ev) (hd : FrameHdr) (off len : Nat) (s0 : State) : Host.Outcome State Fault Refusal :=
  .next ((tick e s0).receive e.half hd.partner (.dataRead e hd off len))

/-- RING (R399). -/
def execRingFrame (e : Ev) (hd : FrameHdr) (index : Nat) (slots : List Nat) (s0 : State) : Host.Outcome State Fault Refusal :=
  .next ((tick e s0).receive e.half hd.partner (.ringFrame e hd index slots))

/-- What a malformed frame gets: nothing but the count, or a NAK. -/
def State.badFrame (s : State) (g p : Nat) (kind : BadFrame) : State := match kind with
  | .crc | .magic => s.upd g fun x => x.inc F.TEL_PORT_STAT_crc_drop
  | .version => s.sendOut g p 0x05 .versionMismatch
  | .length | .type => s.sendOut g p 0x05 .badArg

/-- A partner's session closes and its frames are dropped until a time. -/
def Half.blockPartner (x : Half) (p until_ : Nat) : Half :=
  let y := x.closeSession p
  { y with ports := { y.ports with badVts := kput (fun _ => []) y.ports.badVts p [], blocked := kput (fun _ => 0) y.ports.blocked p (until_ + 1) } }

/-- MALFORMED_FRAME (R382): dropped silently or refused, counted; the 64th within 1 s closes the session and starts the drop period. -/
def execMalformedFrame (e : Ev) (partner : Nat) (kind : BadFrame) (s0 : State) : Host.Outcome State Fault Refusal :=
  let s := tick e s0
  let g := e.half
  if s.deaf g partner then .next s
  else if s.insecure g partner then .next (s.upd g fun x => x.inc F.TEL_PORT_STAT_insecure)
  else
    let s1 := s.badFrame g partner kind
    let l := s.now :: within s.now 1000000000 (kget (fun _ => []) (s.half g).ports.badVts partner)
    if l.length < 64 then
      .next (s1.upd g fun x => { x with ports := { x.ports with badVts := kput (fun _ => []) x.ports.badVts partner l } })
    else
      .next (((s1.orphan g partner).upd g fun x => x.blockPartner partner (s.now + 1000000000)).incident g 0x0C 0 .badArg)

/-- MALFORMED_BLOCK_EXPIRY (R382). -/
def execMalformedBlockExpiry (e : Ev) (partner : Nat) (s0 : State) : Host.Outcome State Fault Refusal :=
  let s := tick e s0
  match kget (fun _ => 0) (s.half e.half).ports.blocked partner with
  | 0 => .next s
  | t + 1 => if s.now < t then .next s
    else .next (s.upd e.half fun x => { x with ports := { x.ports with blocked := kput (fun _ => 0) x.ports.blocked partner 0 } })

/-- SESSION_IDLE_TIMEOUT (R380): 1 s without a frame closes the session. -/
def execSessionIdleTimeout (e : Ev) (partner : Nat) (s0 : State) : Host.Outcome State Fault Refusal :=
  let s := tick e s0
  match (s.half e.half).session partner with
  | none => .next s
  | some k => if s.now < k.lastVt + 1000000000 then .next s else .next ((s.orphan e.half partner).upd e.half fun x => x.closeSession partner)

/-- A rim restart of the half is pending: a pseudo-channel waits for one, or one waits for the other half's rejoin (R308, R314, R383). -/
def Half.rimDue (x : Half) : Bool := decide (x.svc.record.pcPending ≠ 0) || x.svc.restart.any fun r => decide (r.1 = 2)

/-- The fields of a heartbeat: count, half, both states, flags, VT, the Latch's generation and port, both newest incidents, the release. -/
def State.beatFields (s : State) (g n : Nat) (live : Bool) (port : Nat) : List Nat :=
  [n, g, s.beatState 0, s.beatState 1, (if live then 1 else 0) + (if (s.half (peer g)).rimDue then 2 else 0), (s.half g).vt.toNat, s.latch.gen,
   port, s.h0.newest, s.h1.newest, (s.half g).fld F.SVC_FW_STAT_release]

/-- HEARTBEAT (R383): to every open session of the port, also while the steward restarts (R444). -/
def execHeartbeat (e : Ev) (s0 : State) : Host.Outcome State Fault Refusal :=
  let s := tick e s0
  let g := e.half
  let x := s.half g
  if !x.portUp then .next s else
  let n := (x.ports.hbCount + 1) % 2 ^ 32
  let live := s.latchLive
  let d := s.draw
  let port := if live then s.latch.half else d.1 % 256
  let s1 := if live then s else d.2
  let s2 := s1.upd g fun x => { x with ports := { x.ports with hbCount := n } }
  .next (if x.ports.sessions = [] then s2 else s2.emit (.heartbeat g (s.beatFields g n live port)))

/-- LATCH_LEASE_EXPIRY (R386). -/
def execLatchLeaseExpiry (e : Ev) (s0 : State) : Host.Outcome State Fault Refusal := .next (tick e s0).endLease

/-! ## The port's own repair, link and security (R303, R309, R377) -/

/-- CONTROL_PORT_LINK_LOSS (R303): a loss of over 1 s counts. -/
def execControlPortLinkLoss (e : Ev) (ms : Nat) (s0 : State) : Host.Outcome State Fault Refusal :=
  let s := tick e s0
  if !(s.half e.half).portUp || ms ≤ 1000 then .next s
  else .next (s.upd e.half fun x => { x with ports := { x.ports with linkLoss := s.now :: within s.now 600000000000 x.ports.linkLoss } })

/-- A port retired: its sessions close and the service record holds it. -/
def Half.retirePort (x : Half) : Half :=
  let y := x.ports.sessions.foldl (fun y p => y.closeSession p.1) x
  let z : Half := { y with ports := { y.ports with linkLoss := [], blocked := [], badVts := [] } }
  ((z.setRecord fun r => { r with portRetired := true }).event 7 0 1 0).writeRecord

/-- CONTROL_PORT_RETIRE (R303, R309): after three losses within 10 min or a failed self-test the PHY is off and the other port serves both halves. -/
def execControlPortRetire (e : Ev) (selfTestFail : Bool) (s0 : State) : Host.Outcome State Fault Refusal :=
  let s := tick e s0
  let h := e.half
  let x := s.half h
  if !x.portUp || !(selfTestFail || decide (3 ≤ (within s.now 600000000000 x.ports.linkLoss).length)) then .next s
  else .next ((x.ports.sessions.foldl (fun t p => t.orphan h p.1) s).upd h Half.retirePort)

/-- MKA_FRAME (R377): key agreement under the CAK of a vehicle-bound part establishes or renews the partner's association. -/
def execMkaFrame (e : Ev) (partner : Nat) (ok : Bool) (s0 : State) : Host.Outcome State Fault Refusal :=
  let s := tick e s0
  if !(s.half e.half).portUp || (s.half e.half).fld F.SVC_LIFECYCLE_state ≠ 1 || !ok then .next s
  else .next (s.upd e.half fun x => { x with ports := { x.ports with macsec := kput (fun _ => false) x.ports.macsec partner true } })

/-! ## Peers on the data ports (R237-R239, R402) -/

/-- A peer's index in the list of a half: its entry is not empty. -/
def Half.peerListed (x : Half) (i : Nat) : Bool := decide (kget (fun _ => 0) x.ports.peers i ≠ 0)

/-- A fence word that a peer may watch: inside device-owned granules or a DMA window of some VDI. -/
def State.watchable (s : State) (a : Nat) : Bool := s.inDevice a 8 || s.vdis.any fun v => v.2.exists_ && s.inWindows v.1 a 8

/-- PEER_WATCH (R402): `src` is the index of the sender in the half's peer list. -/
def execPeerWatch (e : Ev) (src q gen idx addr val rpeer : Nat) (s0 : State) : Host.Outcome State Fault Refusal :=
  let h := e.half
  let s := tick e s0
  let x := s.half h
  if !x.clk.rimUp then .next s
  else if !x.peerListed src then .next (s.countRx h)
  else if !s.watchable addr then .next ((s.countRx h).incident h 0x0C 0 .outOfRange)
  else .next ((s.countRx h).addWatch h { peer := some rpeer, q := q, gen := gen, idx := idx, addr := addr, value := val })

/-- PEER_REPLY (R402, R239): completes the WAIT it answers; a stale one is discarded and counted. -/
def execPeerReply (e : Ev) (src q gen idx : Nat) (s0 : State) : Host.Outcome State Fault Refusal :=
  let s := tick e s0
  let x := s.half e.half
  if !x.clk.rimUp then .next s
  else if !x.peerListed src then .next (s.countRx e.half)
  else .next ((s.countRx e.half).watchReply (e.half * 8192 + q % 8192) gen idx)

/-! ## Data ports (R400) -/

/-- QBV_LIST_SWAP (R400): the administrative list of a data port becomes the operative one at its base VT. Element 0 is the cycle, element 1 the base VT. -/
def execQbvListSwap (e : Ev) (port : Nat) (s0 : State) : Host.Outcome State Fault Refusal :=
  let s := tick e s0
  let x := s.half e.half
  let l := kget (fun _ => []) x.ports.qbvAdmin port
  if !x.clk.rimUp || l = [] || x.vt.toNat < l.getD 1 0 then .next s
  else .next (s.upd e.half fun x => { x with ports := { x.ports with qbvOper := kput (fun _ => []) x.ports.qbvOper port l } })

/-! ## Teller and rings (R394-R397) -/

/-- TEL_MBX_GO (R395). -/
def execTelMbxGo (e : Ev) (vdi : Nat) (s0 : State) : Host.Outcome State Fault Refusal := .next ((tick e s0).tellerAccess vdi (.telMbxGo e vdi))

/-- The reply of a Teller's request is there. -/
def Half.tellerDone (x : Half) (v w : Nat) : Half :=
  let y := ((x.setElem .TEL_MBX_REPLY w v).setFld F.TEL_MBX_STAT_busy 0 v).setFld F.TEL_MBX_STAT_done 1 v
  { y with ports := { y.ports with tellerMsg := kput (fun _ => 0) y.ports.tellerMsg v 0, tellerReply := kput (fun _ => 0) y.ports.tellerReply v 0 } }

/-- TELLER_MAILBOX_REPLY (R394): the reply is placed, busy clears, done is set and raises the interrupt where enabled. -/
def execTellerMailboxReply (e : Ev) (vdi : Nat) (s0 : State) : Host.Outcome State Fault Refusal :=
  let s := tick e s0
  let h := e.half
  let x := s.half h
  match kget (fun _ => 0) x.ports.tellerReply vdi with
  | 0 => .next s
  | w + 1 =>
    if !x.serves then .next s else
    let s1 := s.upd h fun x => x.tellerDone vdi w
    .next (if x.fld F.TEL_MBX_STAT_irq_en vdi = 1 then s1.emit (.tellerIrq h vdi) else s1)

/-- REQ_TAIL_WRITE (R397): a tail more than 128 ahead of req_head is ignored. -/
def execReqTailWrite (e : Ev) (pair tail : Nat) (s0 : State) : Host.Outcome State Fault Refusal :=
  let s := tick e s0
  let r := (s.half e.half).ring pair
  if !(s.half e.half).clk.rimUp || 8 ≤ pair || 128 < (tail + 2 ^ 32 - r.reqHead) % 2 ^ 32 then .next s
  else .next (s.upd e.half fun x => x.setRing pair { r with reqTail := tail % 2 ^ 32 })

/-- REP_HEAD_WRITE (R397). -/
def execRepHeadWrite (e : Ev) (pair head : Nat) (s0 : State) : Host.Outcome State Fault Refusal :=
  let s := tick e s0
  if !(s.half e.half).clk.rimUp || 8 ≤ pair then .next s
  else .next (s.upd e.half fun x => x.setRing pair ((x.ring pair).setRepHead head))

end Sys2Proof.Machine
end

