-- ==== Sys2Proof/Machine/Service.lean ====
section
/-! DEFINITION. The mailbox messages of service, firmware, attestation and power (R302, R314, R315, R317, R450, R456, R467, R486, R499), and an opcode that is not
listed (R390). -/
namespace Sys2Proof.Machine

/-! ## The service record's bytes (R295-R297) -/

/-- A core_map entry of the record in force (R296). -/
def SvcRecord.coreEntryRaw (r : SvcRecord) (p : Nat) : Nat :=
  let e := kget (fun p => if p % 17 = 16 then (0xFF, 1) else (p / 17 * 16 + p % 17, 0)) r.coreMap p
  let hours := match kget (fun _ => 0) r.located p with | 0 => 0xFFFFFFFF | n + 1 => n
  e.1 + e.2 * 2 ^ 8 + hours * 2 ^ 32

/-- A remap entry (R297) from the row key and poison mask that the record keeps; one marked not valid has bit 63 clear. -/
def remapRaw (e : Nat × Nat) : Nat :=
  let k := e.1 % 2 ^ 40
  k / 2 ^ 23 % 32 + k / 2 ^ 17 % 64 * 2 ^ 5 + k % 2 ^ 17 * 2 ^ 11 + (if e.2 = 0 then 0 else 2 ^ 28) + e.2 % 2 ^ 32 * 2 ^ 29 +
    (if e.1 < 2 ^ 40 then 2 ^ 63 else 0)

/-- Bytes 0x0000-0x109FF of the record in force. -/
def Half.recordBody (x : Half) (h : Nat) : List Byte :=
  let r := x.svc.saved
  let lanes (k : Nat) : List Nat := (kget (fun _ => []) r.laneFix k ++ [0xFF, 0xFF, 0xFF, 0xFF]).take 4
  leBytes 4 0x53564352 ++ leBytes 2 x.svc.savedFormat ++ leBytes 2 h ++ leBytes 4 x.svc.rpmbGen ++ leBytes 4 71472 ++ leBytes 8 x.svc.savedVt ++
    leBytes 4 x.svc.savedHours ++ leBytes 4 x.svc.savedRelease ++ leBytes 32 (Config.deviceId h) ++
    (List.range 136).flatMap (fun p => leBytes 8 (r.coreEntryRaw p)) ++
    (List.range 64).map (fun b => BitVec.ofNat 8 (kget (fun l => l) r.bankMap b)) ++
    (List.range 68).map (fun b => BitVec.ofNat 8 (r.bank b)) ++ leBytes 4 r.withdrawn ++
    (List.range 3).map (fun k => BitVec.ofNat 8 (bits r.modules (2 * k) 2)) ++ leBytes 1 0 ++
    (List.range 3).flatMap (fun k => (lanes k).map (BitVec.ofNat 8 ·)) ++ leBytes 8 (if r.portRetired then 1 else 0) ++
    leBytes 8 r.pcRetired ++ leBytes 8 r.pcPending ++ leBytes 208 0 ++
    (List.range 64).flatMap (fun i => leBytes 16 (kget (fun _ => 0) r.events i)) ++
    [0, 1].flatMap fun s =>
      let l := (kget (fun _ => []) r.remap s).map remapRaw
      (l.take 4096).flatMap (leBytes 8 ·) ++ leBytes (8 * (4096 - l.length)) 0

/-- The whole record: 3,373 bytes of signatures, the Gatehouse's own (log entry 2), and three bytes of padding that are 0 (R295). -/
def Half.recordBytes (x : Half) (h : Nat) : List Byte :=
  let b := x.recordBody h
  b ++ (Config.attest h 0 b ++ leBytes sigBytes 0).take sigBytes ++ leBytes 3 0

/-- SVC_READ (R302, R391). While no valid record is in force the bytes are whatever a slot holds: free. -/
def execSvcRead (e : Ev) (m : Msg) (off bytes dst : Nat) (s0 : State) : Host.Outcome State Fault Refusal :=
  let h := e.half
  .next ((tick e s0).mbox h m 0x90 .a false fun t =>
    if bytes = 0 then (t, .empty, 0)
    else if 71472 < off + bytes then (t, .outOfRange, 0)
    else
      let pay := (t.half h).svc.rpmbGen + bytes * 2 ^ 32
      if (t.half h).fld F.SVC_REC_STAT_held = 1 then
        let d := t.draw
        d.2.withDst h m dst (leBytes bytes d.1) pay
      else t.withDst h m dst ((((t.half h).recordBytes h).drop off).take bytes) pay)

/-- A Strongroom bank that failed the rebuild's test: a spare serves in its place, or its group is withdrawn (R129, R300, R305). -/
def SvcRecord.dropBank (r : SvcRecord) (b : Nat) (bad : List Nat) : SvcRecord :=
  let st (b : Nat) : Nat := if 64 ≤ b then 1 else 0
  let r1 : SvcRecord := { r with bankState := kput st r.bankState b 2 }
  if 64 ≤ b then r1 else
  match [64, 65, 66, 67].find? fun k => decide (r1.bank k = 1) && !bad.contains k with
  | some k => { r1 with bankMap := kput (fun l => l) r1.bankMap b k, bankState := kput st r1.bankState k 0 }
  | none => { r1 with withdrawn := setBits r1.withdrawn (b / 8) 1 1 }

/-- The record that a rebuild makes: as shipped, without the cores that failed their audit and the banks that failed their test; the
pseudo-channels of the running rim stay as they are (R300, R323). -/
def Half.rebuild (x : Half) (badCores badBanks : List Nat) : Half :=
  let r0 := badBanks.foldl (fun r b => if b < 68 then r.dropBank b badBanks else r) ({ SvcRecord.shipped with pcRetired := x.svc.record.pcRetired, pcPending := x.svc.record.pcPending } : SvcRecord)
  let y := ({ x with svc := { x.svc with record := r0, writing := none, waiting := false } } : Half).event 8 0 5 0
  let z := badCores.foldl (fun y p => if p < 136 then y.retireCore p 0 else y) y
  ({ z with svc := { z.svc with writing := none, waiting := false } } : Half).writeRecord

/-- SVC_REBUILD (R300, R302): only while no valid record is in force. -/
def execSvcRebuild (e : Ev) (m : Msg) (badCores badBanks : List Nat) (s0 : State) : Host.Outcome State Fault Refusal :=
  let h := e.half
  .next ((tick e s0).mbox h m 0x91 .l false fun t =>
    if (t.half h).fld F.SVC_REC_STAT_held = 0 then (t, .badArg, 0)
    else (t.upd h fun x => (x.fillBuckets t.now).rebuild badCores badBanks, .ok, ((t.half h).svc.rpmbGen + 1) % 2 ^ 32))

/-- A retired port in service again, as the record says. -/
def Half.restorePort (x : Half) : Half := ((x.setRecord fun r => { r with portRetired := false }).event 7 0 5 0).writeRecord

/-- PORT_RESTORE (R302, R309): the reply travels by the path that the request came. -/
def execPortRestore (e : Ev) (m : Msg) (passes : Bool) (s0 : State) : Host.Outcome State Fault Refusal :=
  let h := e.half
  .next ((tick e s0).mboxW h m 0x92 .l false fun t =>
    if !passes then (t, some (.badArg, 0))
    else
      let t1 := t.reply h m 0x92 .ok 0
      (if !(t.half h).svc.record.portRetired then t1 else t1.upd h Half.restorePort, none))

/-- A restart that the Latch holder asks for: refused unless the other half is NORMAL; the reply is sent before it (R314, R502). -/
def State.restartHalf (s : State) (h : Nat) (m : Msg) (half kind : Nat) : State × Option (Status × Nat) :=
  if 2 ≤ half || !(s.half (peer half)).normal then (s, some (.badArg, 0))
  else
    let s1 := (s.reply h m 0x93 .ok 0).upd half fun x => { x with clk := { x.clk with latched := false } }
    (s1.resetHalf half kind 0x01 true, none)

/-- HALF_RESTART with kind 0 (R314). -/
def execHalfRestartH (e : Ev) (m : Msg) (half : Nat) (s0 : State) : Host.Outcome State Fault Refusal :=
  .next ((tick e s0).mboxW e.half m 0x93 .l false fun t => t.restartHalf e.half m half 1)

/-- HALF_RESTART with kind 1 (R314). -/
def execHalfRestartM (e : Ev) (m : Msg) (half : Nat) (s0 : State) : Host.Outcome State Fault Refusal :=
  .next ((tick e s0).mboxW e.half m 0x93 .l false fun t => t.restartHalf e.half m half 2)

/-! ## Firmware (R315, R450, R456, R467) -/

/-- Bytes of a firmware slot (R447). -/
def slotSize_ : Nat := 0x4000000

def Half.setSlot (x : Half) (n : Nat) (c : List Host.Cell) : Half :=
  let f : Firmware := { x.fw with shipped := x.fw.shipped.erase n }
  { x with fw := if n = 0 then { f with slot0 := c } else { f with slot1 := c } }

/-- The other slot holds these bytes, written and not verified. -/
def Half.writePkg (x : Half) (c : List Host.Cell) : Half :=
  let y := (x.setSlot x.otherSlot c).unstage
  { y with fw := { y.fw with wrote := true } }

/-- FW_WRITE (R315, R449, R450): the slot that is not in force takes the bytes; a write that reaches the package's end has it verified and staged. -/
def execFwWrite (e : Ev) (m : Msg) (off bytes src : Nat) (s0 : State) : Host.Outcome State Fault Refusal :=
  let h := e.half
  .next ((tick e s0).mbox h m 0x94 .l false fun t =>
    if bytes = 0 then (t, .empty, 0)
    else if 131072 < bytes then (t, .badArg, 0)
    else if slotSize_ < off + bytes then (t, .outOfRange, 0)
    else t.withSrc h m src bytes fun l =>
      let x := t.half h
      let c := cellsWrite (x.slot x.otherSlot) off l
      let t1 := t.upd h fun x => x.writePkg c
      let n := pkgLength c
      if n ≤ off || off + bytes < n then (t1, .ok, 0)
      else if pkgValid t.es x.fw.rollback c then (t1.stagePkg h, .ok, 0)
      else (t1.incident h 0x0E 0 .authFail, .ok, 0))

/-- An activation deferred with its mask. -/
def Half.deferFw (x : Half) (mask : Nat) : Half :=
  let y := (x.setFld F.SVC_FW_ACT_pending mask).setFld F.SVC_FW_ACT_deferred 1
  { y with fw := { y.fw with wrote := false } }

/-- FW_ACTIVATE (R456, R457, R467): the PHY's M follows the reply. -/
def execFwActivate (e : Ev) (m : Msg) (mask : Nat) (s0 : State) : Host.Outcome State Fault Refusal :=
  let h := e.half
  .next ((tick e s0).mboxW h m 0x95 .l false fun t =>
    match t.fwCheck h mask false with
    | .ok =>
      let r := t.activate h mask
      ((r.1.reply h m 0x95 r.2 0).phyRestart h mask r.2, none)
    | .busyEmergency =>
      let t1 := t.upd h fun x => x.deferFw mask
      (t1.incident h 0x0E 0 .busyEmergency mask, some (.busyEmergency, mask))
    | st => (t, some (st, 0)))

/-- A running half commits release `n`: its counter follows, its record is written in that format (R315), and a deferred package of another release is lost. -/
def State.commitHalf (t : State) (g n : Nat) : State :=
  if !(t.half g).clk.rimUp then t else
  let t1 := if (t.half g).fld F.SVC_FW_STAT_staged = n then t else t.loseDeferred g
  t1.upd g fun x => ({ x with fw := { x.fw with rollback := Nat.max n x.fw.rollback, fresh := [] } } : Half).setFld F.SVC_SOAK_committed (Nat.max n x.fw.rollback) |>.writeRecord

/-- FW_COMMIT (R315, R317, R465, R467): both halves' anti-rollback counters rise to the release that both run. -/
def execFwCommit (e : Ev) (m : Msg) (s0 : State) : Host.Outcome State Fault Refusal :=
  let h := e.half
  .next ((tick e s0).mbox h m 0x96 .l false fun t =>
    let n := (t.half h).fld F.SVC_FW_STAT_release
    if n ≠ t.peerRelease h then (t, .versionMismatch, 0)
    else
      ((t.commitHalf h n).commitHalf (peer h) n, .ok, n))

/-- FW_WITHDRAW (R467). -/
def execFwWithdraw (e : Ev) (m : Msg) (s0 : State) : Host.Outcome State Fault Refusal :=
  let h := e.half
  .next ((tick e s0).mbox h m 0x97 .l false fun t =>
    if (t.half h).fld F.SVC_FW_ACT_deferred = 0 then (t, .badArg, 0) else (t.upd h Half.undefer, .ok, 0))

/-! ## Attestation (R486) -/

/-- The report up to its certificates: the manual's fields, with the length of the whole. -/
def State.reportBody (s : State) (h nonce len : Nat) : List Byte :=
  let x := s.half h
  let images := x.str.models.filter fun k => k.state = 3
  let image (k : ModelEntry) : List Byte :=
    leBytes 64 (Config.sha512 (s.rdBytes (strBase h + k.gran * 0x10000) k.size)) ++ leBytes 1 k.vdi ++ leBytes 1 k.state ++ leBytes 6 0
  let sealed_ := x.vaults.table.filter fun v => vtState v.2.raw = 2
  let vault (v : Nat × Vault) : List Byte :=
    leBytes 1 v.1 ++ leBytes 1 (if vtBound v.2.raw = 1 then vtVdi v.2.raw else 0xFF) ++ leBytes 6 0 ++ leBytes 64 (vtMeasure v.2.raw)
  leBytes 4 0x54574154 ++ leBytes 2 1 ++ leBytes 1 h ++ leBytes 1 (if s.es then 1 else 0) ++ leBytes 1 (x.fld F.SVC_LIFECYCLE_state) ++
    leBytes 1 (x.fld F.SVC_LIFECYCLE_debug) ++ leBytes 2 (x.fld F.SVC_FW_STAT_release) ++ leBytes 4 len ++ leBytes 8 x.vt.toNat ++
    leBytes 8 x.fw.rollback ++ leBytes 32 nonce ++ [1, 2, 3, 4].flatMap (fun id => leBytes 64 (kget (fun _ => 0) x.fw.running id)) ++
    leBytes 8 x.svc.rpmbGen ++ leBytes 64 (Config.sha512 (x.recordBody h)) ++ leBytes 2 images.length ++ leBytes 1 sealed_.length ++ leBytes 5 0 ++
    images.flatMap image ++ sealed_.flatMap vault

/-- The whole report, at most 64 KiB; certificates and signatures are the Gatehouse's own (log entry 2). -/
def State.report (s : State) (h nonce : Nat) : List Byte :=
  let b := s.reportBody h nonce 0
  let tail := (Config.attest h nonce b).take (0x10000 - b.length)
  s.reportBody h nonce (b.length + tail.length) ++ tail

/-- ATTEST (R486). -/
def execAttest (e : Ev) (m : Msg) (nonce dst : Nat) (s0 : State) : Host.Outcome State Fault Refusal :=
  let h := e.half
  .next ((tick e s0).mbox h m 0xA0 .a false fun t =>
    let far : Bool := match m.org with
      | .teller v => !t.inWindows v dst 0x10000
      | _ => false
    if far then (t, .outOfRange, 0)
    else
      let l := t.report h nonce
      t.withDst h m dst l l.length)

/-! ## Power requests (R481, R498-R500) -/

/-- PARK or SLEEP may be entered: every task of both halves is INACTIVE, and no half restarts, is degraded or rejoins (R499). -/
def State.mayStop (s : State) : Bool :=
  let one (x : Half) : Bool := decide (x.clk.resetKind = 0) && !x.degraded && decide (x.clk.phase ≠ 1) && decide (x.clk.phase ≠ 5) &&
    (List.range 4096).all fun t => decide (x.fld F.TLY_TASK_STATE_state t = 0)
  one s.h0 && one s.h1

/-- The first block with a secure owner in classes 0x01 to 0x04, with its half. -/
def State.ownedBlock (s : State) : Option (Nat × Nat) :=
  let one (h : Nat) : Option (Nat × Nat) := ((s.half h).vaults.claims.find? fun c => decide (0x100 ≤ c.1) && decide (c.1 < 0x500)).map fun c => (h, c.1)
  (one 0).orElse fun _ => one 1

/-- A request for PARK (2) or SLEEP (3): the checks of R499, then GOING_DOWN and the entry. -/
def State.stopRequest (s : State) (kind : Nat) : State × Status × Nat :=
  if s.power = kind || s.power = kind + 2 then (s, .ok, 0)
  else if !s.mayStop then (s, .badArg, 0)
  else match s.ownedBlock with
    | some b => (s.gateRefuse b.1 b.2, .notOwner, 0)
    | none => ({ (s.goingDown 0 (kind + 3) 0x09 0).goingDown 1 (kind + 3) 0x09 0 with power := kind + 2 }, .ok, 0)

/-- POWER_REQ RUN (R499, R500): a wake from PARK, latched while the package enters it. -/
def execPowerReqRun (e : Ev) (m : Msg) (s0 : State) : Host.Outcome State Fault Refusal :=
  .next ((tick e s0).mbox e.half m 0xC0 .l false fun t => (t.wakeUp 3 e.half false, .ok, 0))

/-- POWER_REQ PARK (R499). -/
def execPowerReqPark (e : Ev) (m : Msg) (s0 : State) : Host.Outcome State Fault Refusal :=
  .next ((tick e s0).mbox e.half m 0xC0 .l false fun t => t.stopRequest 2)

/-- POWER_REQ SLEEP (R499). -/
def execPowerReqSleep (e : Ev) (m : Msg) (s0 : State) : Host.Outcome State Fault Refusal :=
  .next ((tick e s0).mbox e.half m 0xC0 .l false fun t => t.stopRequest 3)

/-! ## Opcodes that are not listed (R390) -/

/-- The opcodes of R391. -/
def listedOps : List Nat :=
  [0x01, 0x02, 0x03, 0x04, 0x10, 0x11, 0x12, 0x13, 0x20, 0x21, 0x22, 0x23, 0x24, 0x25, 0x26, 0x30, 0x31, 0x32, 0x40, 0x41, 0x42, 0x43, 0x44, 0x45, 0x50,
   0x51, 0x60, 0x61, 0x62, 0x63, 0x64, 0x70, 0x71, 0x72, 0x73, 0x80, 0x81, 0x82, 0x83, 0x84, 0x85, 0x86, 0x90, 0x91, 0x92, 0x93, 0x94, 0x95, 0x96, 0x97,
   0xA0, 0xB0, 0xC0]

/-- UNKNOWN_OPCODE (R390). -/
def execUnknownOpcode (e : Ev) (m : Msg) (opcode : Nat) (s0 : State) : Host.Outcome State Fault Refusal :=
  let s := tick e s0
  if listedOps.contains opcode then .next s else .next (s.mbox e.half m opcode .a false fun t => (t, .badArg, 0))

end Sys2Proof.Machine
end

