-- ==== Sys2Proof/Machine/StrOps.lean ====
section
/-! DEFINITION. Strongroom allocation as shared operations (R127, R128, R528): runs of granules, waiting requests. -/
namespace Sys2Proof.Machine

/-! ## Runs of granules (R528) -/

/-- Owner codes of a granule: VDI v is 2 + v, the device 258. -/
def ownerDevice : Nat := 258

inductive AllocRes where
  | grant (first : Nat)
  | open_ (first : Nat) (groups : List Nat)
  | wait (first : Nat)
  | refuse (st : Status)
deriving DecidableEq, Repr

/-- A group is shut or closing: a request for its granules reopens it first (R128, R344). -/
def Half.isShut (x : Half) (g : Nat) : Bool := decide (bits (x.fld F.STR_GROUP_STATE_shut) g 1 = 1) || (x.closingAt (shutKey (.group g))).isSome
def Half.isWithdrawn (x : Half) (g : Nat) : Bool := bits (x.fld F.STR_GROUP_STATE_withdrawn) g 1 = 1

/-- Granules that an owner holds in both halves. -/
def State.heldBy (s : State) (o : Nat) : Nat :=
  (s.h0.str.gran.filter fun e => e.2 = o).length + (s.h1.str.gran.filter fun e => e.2 = o).length

/-- A granule of a run that an earlier request waits for: that request is granted it (R528). -/
def Half.awaited (x : Half) (g : Nat) : Bool := x.str.waits.any fun a => match a.run with
  | some i => decide (i ≤ g) && decide (g < i + a.count)
  | none => false

/-- A granule that an allocation may take: free (`zeroing` = 0), or free once it is zeroed (`zeroing` = 1). -/
def State.granFree (s : State) (h g zeroing : Nat) : Bool :=
  let x := s.half h
  decide (x.gran g ≤ zeroing) && !x.awaited g && !x.isWithdrawn (g / 256) && !s.inVault (strBase h + g * 0x10000) 0x10000

/-- The shuttered groups of a run. -/
def Half.shutGroups (x : Half) (i n : Nat) : List Nat := (List.range 8).filter fun g => decide (i / 256 ≤ g) && decide (g ≤ (i + n - 1) / 256) && x.isShut g

/-- A grant of `n` granules would exceed the limit of their owner (R404, R528). -/
def State.overLimit (s : State) (owner n : Nat) : Bool :=
  owner ≠ ownerDevice && decide (vStrLimit (s.vdi (owner - 2)).cfg < s.heldBy owner + n)

/-- What a request for `n` granules finds (R528). -/
def State.tryAlloc (s : State) (h owner n group : Nat) : AllocRes :=
  let x := s.half h
  if s.overLimit owner n then .refuse .noSpace else
  let lo := if group = 0xFF then 0 else 256 * group
  let hi := if group = 0xFF then 2048 else 256 * group + 256
  match findRun lo hi n (fun g => s.granFree h g 0 && !x.isShut (g / 256)) with
  | some i => .grant i
  | none => match findRun lo hi n (s.granFree h · 0) with
    | some i => .open_ i (x.shutGroups i n)
    | none => match findRun lo hi n (s.granFree h · 1) with
      | some i => .wait i
      | none => .refuse .noSpace

/-- What a growth of the cache region by `n` granules in place finds (R128, R130, R528). -/
def State.growCache (s : State) (h n : Nat) : AllocRes :=
  let x := s.half h
  let i := x.str.cacheFirst + x.str.cacheLen
  let all (k : Nat) : Bool := decide (i + n ≤ 2048) && (List.range n).all fun g => s.granFree h (i + g) k
  if !all 1 then .refuse .noSpace
  else if !all 0 then .wait i
  else if x.shutGroups i n = [] then .grant i else .open_ i (x.shutGroups i n)

/-- The cache region after a CACHE_SIZE that was granted a run: `len` granules, from where it was or from the run on; 0 for a request that is no CACHE_SIZE. -/
def Half.sizeCache (x : Half) (first len : Nat) : Half :=
  if len = 0 then x else { x with str := { x.str with cacheFirst := if x.str.cacheLen = 0 then first else x.str.cacheFirst, cacheLen := len } }

/-- A run given to an owner. -/
def Half.giveRun (x : Half) (owner first n : Nat) : Half :=
  ({ x with str := { x.str with gran := (List.range n).foldl (fun m k => kput (fun _ => 0) m (first + k) owner) x.str.gran } } : Half).syncFree

/-- The run that a request waited for has become free. -/
def State.runFree (s : State) (h : Nat) (a : AllocWait) : Option Nat :=
  let x := s.half h
  match a.run with
  | some i => if (List.range a.count).all fun k => decide (x.gran (i + k) = 0) && !x.isShut ((i + k) / 256) && !x.isWithdrawn ((i + k) / 256) &&
      !s.inVault (strBase h + (i + k) * 0x10000) 0x10000 then some i else none
  | none => none

/-- A request that is granted, refused, or waits for zeroing or for a group to reopen; the reply payload of a STR_ALLOC is the run's offset. -/
def State.alloc (s : State) (h : Nat) (a : AllocWait) : State × Option (Status × Nat) :=
  match (match s.runFree h a with
    | some i => if s.overLimit a.owner a.count then .refuse .noSpace else .grant i
    | none => if a.cache ≠ 0 && (s.half h).str.cacheLen ≠ 0 then s.growCache h a.count else s.tryAlloc h a.owner a.count a.group : AllocRes) with
  | .grant i =>
    let t := s.upd h fun x => (x.giveRun a.owner i a.count).sizeCache i a.cache
    if a.cache = 0 then (t, some (.ok, i * 0x10000)) else (t.saveConf h false, some (.ok, 0))
  | .refuse st => (s, some (st, 0))
  | .wait i => (s.upd h fun x => { x with str := { x.str with waits := x.str.waits ++ [{ a with run := some i }] } }, none)
  | .open_ i gs => (s.upd h fun x => { x with str := { x.str with
      waits := x.str.waits ++ [{ a with run := some i }], opening := x.str.opening ++ gs.filter fun g => !x.str.opening.contains g } }, none)

/-- The requests that wait, tried again in their order. -/
def State.retryAllocs (s : State) (h : Nat) : State :=
  (s.half h).str.waits.foldl (fun t a =>
    let r := (t.upd h fun x => { x with str := { x.str with waits := x.str.waits.erase a } }).alloc h a
    match r.2 with
    | some st => r.1.reply h a.msg (if a.cache = 0 then 0x40 else 0x42) st.1 st.2
    | none => r.1) s

end Sys2Proof.Machine
end

