-- ==== Sys2Proof/Machine/Strongroom.lean ====
section
/-! DEFINITION. The Strongroom (R105, R121, R122, R127-R133, R305, R341-R343, R528): patrol, bank moves, withdrawal, shutters, granules, model cache. -/
namespace Sys2Proof.Machine

/-! ## Patrol and banks (R121, R122, R129, R305) -/

/-- Rows that the patrol reads in one pass: those of groups in service. -/
def Half.patrolRows (x : Half) : Nat := 131072 * ((List.range 8).filter fun g => !x.groupShut g).length

/-- One more row read by the patrol; a full pass is counted (R121). -/
def Half.patrolled (x : Half) : Half :=
  let read := x.str.patrolRow + 1
  let full := decide (x.patrolRows ≤ read)
  let y : Half := { x with str := { x.str with patrolRow := if full then 0 else read } }
  if full then y.inc F.STR_PATROL_passes else y

/-- PATROL_ROW_READ (R121): an error in a row that no allocation covers is counted and the row rewritten as zero; in an allocated row it is counted and
recorded, and the row stays. -/
def execPatrolRowRead (e : Ev) (row : Nat) (err : Bool) (s0 : State) : Host.Outcome State Fault Refusal :=
  let s := tick e s0
  let h := e.half
  let x := s.half h
  if !x.clk.computeUp || x.fld F.STR_PATROL_enable = 0 || 1048576 ≤ row || x.groupShut (row / 131072) then .next s else
  let off := row * 128
  let bad := err || kget (fun _ => false) x.str.badRow row
  let s1 := s.upd h Half.patrolled
  if !bad then .next s1
  else if x.gran (row / 512) ≤ 1 then
    .next ((s1.strErr h off).clearRows h off 128)
  else .next (s1.countMemErr h 0 1 off)

/-- A physical bank has counted 8 detected errors within 1 h (R122). -/
def Half.bankFailed (x : Half) (b : Nat) : Bool :=
  decide (8 ≤ (within x.svc.onNs 3600000000000 (kget (fun _ => []) x.str.bankErr b)).length) && decide (x.svc.record.bank b = 0)

/-- The logical bank that a physical bank serves. -/
def Half.bankOf (x : Half) (b : Nat) : Option Nat := (List.range 64).find? fun l => kget (fun l => l) x.svc.record.bankMap l = b

/-- The lowest free spare bank. -/
def Half.freeBank (x : Half) : Option Nat := (List.range 68).find? fun b => x.svc.record.bank b = 1

/-- A move of a bank to the free spare begins (R129). -/
def Half.startMove (x : Half) (b : Nat) : Half :=
  match x.bankOf b, x.freeBank with
  | some l, some t =>
    let y : Half := { x with str := { x.str with move := some { logical := l, target := t } } }
    ((y.setFld F.STR_MOVE_CTL_target t).setFld F.STR_MOVE_CTL_active 1).setFld F.STR_MOVE_CTL_pointer 0
  | _, _ => x

/-- STRONGROOM_BANK_RETIRE (R122, R129, R310): a move to a spare begins, or waits for the one under way. -/
def execStrongroomBankRetire (e : Ev) (bank : Nat) (s0 : State) : Host.Outcome State Fault Refusal :=
  let s := tick e s0
  let h := e.half
  let x := s.half h
  if !x.clk.computeUp || !x.bankFailed bank then .next s
  else match x.str.move with
    | some m =>
      if x.bankOf bank = some m.logical || x.str.moveWait.contains bank then .next s
      else .next (s.upd h fun x => { x with str := { x.str with moveWait := x.str.moveWait ++ [bank] } })
    | none => .next (s.upd h fun x => x.startMove bank)

/-- A bank move finished: the map, the record and the register follow, rows whose old copy fails its check are counted and stay bad, a waiting retirement starts (R129, R310). -/
def Half.moveDone (x0 : Half) (m : Move) (badRows : List Nat) : Half :=
  let old := kget (fun l => l) x0.svc.record.bankMap m.logical
  let held := (x0.str.badRow.filter fun b => b.2 && b.1 / 131072 * 8 + b.1 % 8 = m.logical).map fun b => b.1 / 8 % 16384
  let failing := ((badRows.filter fun r => r < 16384) ++ held).eraseDups
  let x : Half := { x0.inc F.STR_BANK_ERR_err 0 old failing.length with str := { x0.str with
    bankErr := kupd (fun _ => []) x0.str.bankErr old fun l => List.replicate failing.length x0.svc.onNs ++ within x0.svc.onNs 3600000000000 l } }
  let state (b : Nat) : Nat := if 64 ≤ b then 1 else 0
  let y := ((x.setRecord fun r => { r with
    bankMap := kput (fun l => l) r.bankMap m.logical m.target
    bankState := kput state (kput state r.bankState old 2) m.target 0 }).event 2 old 1 m.logical).event 2 m.target 2 m.logical
  let rows := failing.map fun r => m.logical / 8 * 131072 + r * 8 + m.logical % 8
  let z : Half := { y with str := { y.str with
    move := none, badRow := rows.foldl (fun l r => kput (fun _ => false) l r true) y.str.badRow } }
  let w := ((z.setFld F.STR_MOVE_CTL_active 0).setFld F.STR_MOVE_CTL_target 0).setFld F.STR_MOVE_CTL_pointer 0
  let v := w.writeRecord
  match v.str.moveWait with
  | [] => v
  | b :: r => ({ v with str := { v.str with moveWait := r } } : Half).startMove b

/-- BANK_MOVE_DONE (R129, R297): the map names the spare, the old bank is shut; rows whose old copy failed still fail at the spare. -/
def execBankMoveDone (e : Ev) (badRows : List Nat) (s0 : State) : Host.Outcome State Fault Refusal :=
  let s := tick e s0
  let h := e.half
  match (s.half h).str.move with
  | none => .next s
  | some m =>
    .next (s.upd h fun x => x.moveDone m badRows)

/-- Device-owned regions moved within the Strongroom of half `h`, with the bytes and the damage that `from_` holds (R305). -/
def State.moveRegions (s from_ : State) (h : Nat) (rel : List (Nat × Nat × Nat)) : State :=
  let moved (g : Nat) : Bool := rel.any fun r => decide (r.1 ≤ g) && decide (g < r.1 + r.2.1)
  let s1 := s.upd h fun x => rel.foldl (fun y r => y.giveRun ownerDevice r.2.2 r.2.1) x
  let s2 := (from_.mem.filter fun e => inStr h e.1 1 && moved ((e.1 - strBase h) / 0x10000)).foldl (fun t e => t.wr (relAddr rel h e.1) e.2) s1
  let bad := (from_.half h).str.badRow.filter fun r => r.2 && moved (r.1 / 512)
  s2.upd h fun x => ({ x with str := { x.str with
    badRow := bad.foldl (fun m r => kput (fun _ => false) m (relGran rel (r.1 / 512) * 512 + r.1 % 512) true) x.str.badRow } } : Half).rebase h rel

/-- A group withdrawn: its failed banks are retired, its granules and models are gone, its VDIs are told, and its device-owned regions move to free granules; where
one of the critical partition lay in it, the half takes an H, and they move as it reloads (R305). -/
def State.withdraw (s : State) (h g : Nat) : State :=
  let x := s.half h
  let mine (k : Nat) : Bool := k / 256 = g
  let held := x.str.gran.filter fun k => mine k.1
  let vdis := ((held.filter fun k => decide (2 ≤ k.2) && decide (k.2 < 258)).map fun k => k.2 - 2).eraseDups
  let dev := (held.filter fun k => k.2 = ownerDevice).map (·.1)
  let failed := ((List.range 8).map fun i => kget (fun l => l) x.svc.record.bankMap (8 * g + i)).filter x.bankFailed
  let s1 := (s.upd h fun x =>
    let y : Half := { x with str := { x.str with
      gran := x.str.gran.filter fun k => !mine k.1
      zeroQ := x.str.zeroQ.filter fun k => !mine k
      models := evict (fun m => (List.range m.len).any fun i => mine (m.gran + i)) x.str.models } }
    let w := failed.foldl (fun w b => (w.setRecord fun r => { r with bankState := kput (fun b => if 64 ≤ b then 1 else 0) r.bankState b 2 }).event 2 b 1 0) y
    let z := (w.setRecord fun r => { r with withdrawn := r.withdrawn ||| 2 ^ g }).event 2 g 4 0
    (z.setFld F.STR_GROUP_STATE_shut (setBits (z.fld F.STR_GROUP_STATE_shut) g 1 1)).writeRecord.syncFree).clearRows h (g * 0x1000000) 0x1000000
  let s2 := vdis.foldl (fun t v => t.notice v 0 g .bankShut) (s1.incident h 0x03 g .bankShut)
  if s.criticalIn h g then s2.askRestart h 1 0x08
  else
    let rel := placeRuns (fun k => s2.granFree h k 0 && !(s2.half h).isShut (k / 256)) (granRuns dev)
    if rel = [] then s2 else (s2.moveRegions s h rel).saveConf h false

/-- GROUP_WITHDRAWAL (R305): the group of a failed bank is shut for good when no spare is free; its VDIs are told; device regions are re-placed, or the half
takes an H where the critical partition is concerned. -/
def execGroupWithdrawal (e : Ev) (g : Nat) (s0 : State) : Host.Outcome State Fault Refusal :=
  let s := tick e s0
  let h := e.half
  let x := s.half h
  let failing := (List.range 8).any fun i => x.bankFailed (kget (fun l => l) x.svc.record.bankMap (8 * g + i))
  if !x.clk.computeUp || 8 ≤ g || x.isWithdrawn g || !failing || x.freeBank.isSome then .next s else
  .next (s.withdraw h g)

/-! ## Zero engine and groups (R127, R128, R528) -/

/-- GRANULE_ZEROED (R127, R528): the oldest freed granule reads zero and is free again; waiting requests are tried. -/
def execGranuleZeroed (e : Ev) (s0 : State) : Host.Outcome State Fault Refusal :=
  let s := tick e s0
  let h := e.half
  match (s.half h).str.zeroQ with
  | [] => .next s
  | g :: r =>
    let s1 := (s.clearRows h (g * 0x10000) 0x10000).upd h fun x =>
      ({ x with str := { x.str with zeroQ := r, gran := kput (fun _ => 0) x.str.gran g 0 } } : Half).syncFree
    .next (s1.retryAllocs h)

/-- GROUP_REOPEN_DONE (R128): the group is open and reads zero. -/
def execGroupReopenDone (e : Ev) (g : Nat) (s0 : State) : Host.Outcome State Fault Refusal :=
  let s := tick e s0
  let h := e.half
  let x := s.half h
  if !x.str.opening.contains g || bits (x.fld F.STR_GROUP_STATE_shut) g 1 = 0 || x.isWithdrawn g then .next s
  else .next (((s.upd h fun x =>
    ({ x with str := { x.str with opening := x.str.opening.erase g } } : Half).setFld F.STR_GROUP_STATE_shut
      (setBits (x.fld F.STR_GROUP_STATE_shut) g 1 0)).clearRows h (g * 0x1000000) 0x1000000).retryAllocs h)

/-! ## Shutters (R341-R343) -/

/-- The unit is shut. -/
def Half.unitShut (x : Half) (u : ShutUnit) : Bool :=
  match u with
  | .group g => x.groupShut g
  | .core p => (x.core p).shut
  | .chan c => if c < 16 then bits (x.fld F.MNT_CHAN_SHUT_stack0) c 1 = 1 else bits (x.fld F.MNT_CHAN_SHUT_stack1) (c - 16) 1 = 1

/-- The domain of the unit is up: the DRAM controllers are of the rim, the Strongroom and the cores of the compute domain (R15). -/
def Half.unitUp (x : Half) (u : ShutUnit) : Bool :=
  match u with
  | .chan _ => x.clk.rimUp
  | _ => x.clk.computeUp

/-- The unit may be shut (R341, R344). -/
def Half.mayShut (x : Half) (u : ShutUnit) : Bool :=
  match u with
  | .group g => decide (g < 8) && bits (x.fld F.STR_GROUP_STATE_shut ||| x.fld F.STR_GROUP_STATE_withdrawn) g 1 = 0 && ((List.range 256).all fun k => decide (x.gran (256 * g + k) = 0)) &&
      (match x.str.move with | some m => decide (m.logical / 8 ≠ g) | none => true)
  | .core p => decide (p < 136) && !(x.core p).shut && (x.core p).run.isNone && !(x.core p).auditing && !(x.core p).auditDue &&
      ((x.coreEntry p).2 = 3 || ((x.coreEntry p).2 = 1 && kget (fun _ => 0) x.tally.standIn (p / 17) = 0 &&
        !((List.range 17).any fun k => x.critical (p / 17 * 17 + k))))
  | .chan c => decide (c < 32) && !x.unitShut u && bits x.svc.record.pcRetired (2 * c) 2 = 3

def shutUnit : ShutUnit → Nat
  | .group g => g
  | .core p => p
  | .chan c => c

/-- A core behind a closed shutter: its memories are lost (R342). -/
def Core.shutDown (c : Core) : Core :=
  { c with shut := true, till := [], opsp := [], rowMark := [], rowWritten := [], rowBad := [], handles := [], clusters := [], loadedCtx := none }

/-- A channel's shutter bit set. -/
def Half.shutChan (x : Half) (c : Nat) : Half :=
  if c < 16 then x.setFld F.MNT_CHAN_SHUT_stack0 (setBits (x.fld F.MNT_CHAN_SHUT_stack0) c 1 1)
  else x.setFld F.MNT_CHAN_SHUT_stack1 (setBits (x.fld F.MNT_CHAN_SHUT_stack1) (c - 16) 1 1)

/-- The unit powered off: what is behind its door is lost. -/
def State.powerOff (s : State) (h : Nat) (unit : ShutUnit) : State :=
  let s1 := s.upd h fun x => x.openDoor (shutKey unit)
  match unit with
  | .group g => (s1.upd h fun x => x.setFld F.STR_GROUP_STATE_shut (setBits (x.fld F.STR_GROUP_STATE_shut) g 1 1)).clearRows h (g * 0x1000000) 0x1000000
  | .core p => s1.upd h fun x => (x.updCore p Core.shutDown).inc F.MNT_SHUT_cores_shut
  | .chan c => s1.upd h fun x => x.shutChan c

/-- An abort of a unit's shutter: its door is open again, and after three within 1 s the unit is left open. -/
def Half.abortShut (x : Half) (key : Nat) (three : Bool) (l : List Nat) : Half :=
  let y := (x.openDoor key).inc F.MNT_SHUT_aborted
  { y with mint := { y.mint with aborts := kput (fun _ => []) y.mint.aborts key l, leftOpen := if three then key :: y.mint.leftOpen else y.mint.leftOpen } }

/-- The shutter aborts: it is counted, three within 1 s are recorded, and requests that waited for the unit's granules are tried again (R342, R344). -/
def State.shutAborts (s : State) (h : Nat) (unit : ShutUnit) : State :=
  let x := s.half h
  let key := shutKey unit
  let l := x.vt.toNat :: within x.vt.toNat 1000000000 (kget (fun _ => []) x.mint.aborts key)
  let three := decide (3 ≤ l.length)
  let s1 := s.upd h fun x => x.abortShut key three l
  let s2 := if three then s1.incident h 0x09 (shutUnit unit) .internal else s1
  match unit with
  | .group g => (s2.upd h fun x => { x with str := { x.str with opening := x.str.opening.erase g } }).retryAllocs h
  | _ => s2

/-- The steward may begin to shut a unit: it has not been left open after three aborts, and the last abort is 1 ms ago (R342). -/
def Half.shutAgain (x : Half) (key : Nat) : Bool :=
  !x.mint.leftOpen.contains key && (kget (fun _ => []) x.mint.aborts key).all fun t => decide (t + 1000000 ≤ x.vt.toNat)

/-- SHUTTER_CLOSE (R342): the unit's door closes; at the next one the writes have drained and the unit is powered off, if that is within 2 µs, and else the
shutter aborts (log entry 62). -/
def execShutterClose (e : Ev) (unit : ShutUnit) (s0 : State) : Host.Outcome State Fault Refusal :=
  let s := tick e s0
  let h := e.half
  let x := s.half h
  if !x.unitUp unit || x.fw.stewardDown || !x.mayShut unit then .next s else
  match x.closingAt (shutKey unit) with
  | some t => .next (if s.now ≤ t + 2000 then s.powerOff h unit else s.shutAborts h unit)
  | none => if x.shutAgain (shutKey unit) then .next (s.upd h fun x => x.closeDoor (shutKey unit) s.now) else .next s

/-- SHUTTER_DRAIN_TIMEOUT (R342): the writes accepted before the door closed have not drained within 2 µs: the shutter aborts. -/
def execShutterDrainTimeout (e : Ev) (unit : ShutUnit) (s0 : State) : Host.Outcome State Fault Refusal :=
  let s := tick e s0
  let h := e.half
  match (s.half h).closingAt (shutKey unit) with
  | some t => .next (if t + 2000 ≤ s.now then s.shutAborts h unit else s)
  | none => .next s

/-- SHUT_DOOR_REFUSAL (R343): from the cycle in which the door closes, the request is dropped, counted, and its requester gets BANK_SHUT. -/
def execShutDoorRefusal (e : Ev) (unit : ShutUnit) (who : Master) (s0 : State) : Host.Outcome State Fault Refusal :=
  let s := tick e s0
  let h := e.half
  if !((s.half h).unitShut unit || ((s.half h).closingAt (shutKey unit)).isSome) then .next s else
  let s1 := s.upd h fun x => x.inc F.MNT_SHUT_late
  match who with
  | .app n => .next (s1.accessFault h n)
  | .dma p i => .next (s1.failDma h p i .bankShut)
  | .steward => .next s1
  | .other => .next s1

/-! ## Mailbox opcodes (R391, R528, R130-R133) -/

/-- The granule owner that a message names: its VDI, or the device. -/
def granOwner (m : Msg) : Nat :=
  match m.org with
  | .teller v => 2 + v
  | _ => if m.vdi = 0xFF then ownerDevice else 2 + m.vdi

/-- STR_ALLOC (R528): the requester is the message's VDI, or the device for a control port's vdi 0xFF. -/
def execStrAlloc (e : Ev) (m : Msg) (count group : Nat) (s0 : State) : Host.Outcome State Fault Refusal :=
  let s := tick e s0
  let h := e.half
  .next (s.mboxW h m 0x40 .vl true fun t =>
    if count = 0 then (t, some (.empty, 0))
    else if 2048 < count || (7 < group && group ≠ 0xFF) then (t, some (.badArg, 0))
    else t.alloc h { msg := m, owner := granOwner m, count := count, group := group, run := none, cache := 0 })

/-- STR_FREE (R528). -/
def execStrFree (e : Ev) (m : Msg) (off count : Nat) (s0 : State) : Host.Outcome State Fault Refusal :=
  let s := tick e s0
  let h := e.half
  .next (s.mbox h m 0x41 .vl true fun t =>
    let x := t.half h
    let l := (List.range count).map (off / 0x10000 + ·)
    if count = 0 then (t, .empty, 0)
    else if off % 0x10000 ≠ 0 then (t, .badArg, 0)
    else if 0x8000000 < off + count * 0x10000 then (t, .outOfRange, 0)
    else if t.inVault (strBase h + off) (count * 0x10000) || l.any (fun g => x.gran g ≠ (granOwner m)) then (t, .notOwner, 0)
    else (t.upd h fun x => ({ x with str := { x.str with
      models := evict (fun k => (List.range k.len).any fun i => l.contains (k.gran + i)) x.str.models } } : Half).freeRun l, .ok, 0))

def Half.setCache (y : Half) (first len : Nat) : Half := { y with str := { y.str with cacheFirst := first, cacheLen := len } }

/-- CACHE_SIZE (R128, R130): the cache region grows or shrinks in place; entries past its new end are evicted where they may be. A growth waits for granules that are
being zeroed and for groups that reopen first. -/
def execCacheSize (e : Ev) (m : Msg) (count : Nat) (s0 : State) : Host.Outcome State Fault Refusal :=
  let s := tick e s0
  let h := e.half
  .next (s.mboxW h m 0x42 .l false fun t =>
    let x := t.half h
    let first := x.str.cacheFirst
    let len := x.str.cacheLen
    if count = 0 then (t, some (.empty, 0))
    else if 2048 < count then (t, some (.badArg, 0))
    else if !x.clk.computeUp then (t, some (.timeout, 0))
    else if len < count then t.alloc h { msg := m, owner := ownerDevice, count := count - len, group := 0xFF, run := none, cache := count }
    else
      let out := x.str.models.filter fun k => decide (k.state ≠ 0) && decide (first + count < k.gran + k.len)
      if out.any (fun k => k.state ≠ 2 || k.inUse ≠ 0) then (t, some (.noSpace, 0))
      else ((t.upd h fun y =>
        let z : Half := { y with str := { y.str with models := evict out.contains y.str.models } }
        (z.freeRun ((List.range (len - count)).map (first + count + ·))).setCache first count).saveConf h false, some (.ok, 0)))

/-- MODEL_LOAD (R130-R132): an entry already held answers its state; else space is made and the image is copied in. -/
def execModelLoad (e : Ev) (m : Msg) (key src size : Nat) (s0 : State) : Host.Outcome State Fault Refusal :=
  let s := tick e s0
  let h := e.half
  .next (s.mbox h m 0x43 .v true fun t =>
    let x := t.half h
    if size = 0 then (t, .empty, 0) else
    match x.model key m.vdi with
    | some k => (t, .ok, k.state)
    | none =>
      let r := t.srcBytes h m src size
      if r.1 ≠ .ok then (t.srcFail h m src size r.1, r.1, 0) else
      match x.modelPlace (granBytes size) x.str.models.length x.str.models with
      | none => (t, .noSpace, 0)
      | some (i, l) =>
        (t.putModel h key m.vdi (t.vdi m.vdi).mark src size i r.2 l, .ok, 1))

/-- MODEL_LOAD_DONE (R132): the entry is RESIDENT, and the commands that waited for it may run. -/
def execModelLoadDone (e : Ev) (key vdi : Nat) (s0 : State) : Host.Outcome State Fault Refusal :=
  let s := tick e s0
  let s1 := s.upd e.half fun x => { x with str := { x.str with models := x.str.models.map fun m =>
    if m.key = key && m.vdi = vdi && m.state = 1 then { m with state := 2 } else m } }
  .next ((s1.queuesOf 0 ++ s1.queuesOf 1).foldl State.noteReady s1)

/-- A pin or unpin of a usable entry; an entry that is absent or still loading cannot be pinned. -/
def State.pinModel (s : State) (h : Nat) (m : Msg) (key : Nat) (pin : Bool) : State × Status × Nat :=
  match (s.half h).model key m.vdi with
  | none => (s, .badArg, 0)
  | some k =>
    if k.state = 1 then (s, .badArg, 1) else
    let st := if pin then 3 else 2
    let s1 := s.upd h fun x => { x with str := { x.str with models := x.str.models.map fun q => if q = k then { q with state := st } else q } }
    let used := ((s1.half h).str.models.filter fun q => q.state = 3).foldl (fun n q => n + q.len) 0
    if (s.half h).str.cacheLen < used then (s, .noSpace, k.state) else (s1.saveConf h false, .ok, st)

/-- MODEL_PIN (R133). -/
def execModelPin (e : Ev) (m : Msg) (key : Nat) (s0 : State) : Host.Outcome State Fault Refusal :=
  .next ((tick e s0).mbox e.half m 0x44 .v true fun t => t.pinModel e.half m key true)

/-- MODEL_UNPIN (R133). -/
def execModelUnpin (e : Ev) (m : Msg) (key : Nat) (s0 : State) : Host.Outcome State Fault Refusal :=
  .next ((tick e s0).mbox e.half m 0x44 .v true fun t => t.pinModel e.half m key false)

/-- STR_PATROL (R138, R255). -/
def execStrPatrol (e : Ev) (m : Msg) (enable : Bool) (s0 : State) : Host.Outcome State Fault Refusal :=
  .next ((tick e s0).mboxL e.half m 0x45 fun t =>
    (t.upd e.half fun x => x.setFld F.STR_PATROL_enable (if enable then 1 else 0), .ok, 0))

end Sys2Proof.Machine
end

