-- ==== Sys2Proof/Machine/Vaults.lean ====
section
/-! DEFINITION. Vaults, doors and the secure world (R469-R490): the DOOR functions of harts, what ends a stay, and the filters' refusals. A hart is named
by its number in its half, 0-11; the application cores run while the rim does. -/
namespace Sys2Proof.Machine

/-- A hart that exists and runs. -/
def State.runsHart (s : State) (h hart : Nat) : Bool := (s.half h).clk.rimUp && decide (hart < 12)

/-- A hart in the normal world. -/
def Half.normalWorld (x : Half) (hart : Nat) : Bool := (x.hart hart).vault.isNone

/-- DOOR.CREATE and DOOR.DESTROY need M or HS mode (R474). -/
def Priv.mayBuild : Priv → Bool
  | .m | .hs => true
  | .u | .s => false

/-- DOOR_CALL (R475): an illegal instruction in the secure world; otherwise refused at once, or entered with a0-a7 unchanged. -/
def execDoorCall (e : Ev) (hart vault entry : Nat) (save : HartSave) (s0 : State) : Host.Outcome State Fault Refusal :=
  let s := tick e s0
  let h := e.half
  let x := s.half h
  let raw := (x.vault vault).raw
  if !s.runsHart h hart then .next s
  else if !x.normalWorld hart then .next (s.illegalAt h hart)
  else if 64 ≤ vault || vtState raw ≠ 2 then .next (s.emit (.doorStatus h hart .badArg))
  else match s.door raw entry with
    | none => .next (s.emit (.doorStatus h hart .badArg))
    | some pc =>
      if bits (vtHarts raw) hart 1 = 1 || vtHarts raw = 0xFFF then .next (s.emit (.doorStatus h hart .late))
      else .next (s.enterVault h hart vault pc none save false)

/-- DOOR_RET (R476). -/
def execDoorRet (e : Ev) (hart a0 a1 : Nat) (s0 : State) : Host.Outcome State Fault Refusal :=
  let s := tick e s0
  let h := e.half
  if !s.runsHart h hart then .next s
  else if (s.half h).normalWorld hart then .next (s.illegalAt h hart)
  else .next (s.exitVault h hart .ok (a0 % 2 ^ 64) (a1 % 2 ^ 64))

/-- DOOR_CREATE (R477): from the normal world in M or HS mode. -/
def execDoorCreate (e : Ev) (hart : Nat) (mode : Priv) (addr : Nat) (s0 : State) : Host.Outcome State Fault Refusal :=
  let s := tick e s0
  let h := e.half
  if !s.runsHart h hart then .next s
  else if !(s.half h).normalWorld hart || !Priv.mayBuild mode then .next (s.illegalAt h hart)
  else .next (s.viaController h (.create hart addr))

/-- VAULT_SEAL_DONE (R477). -/
def execVaultSealDone (e : Ev) (vault : Nat) (s0 : State) : Host.Outcome State Fault Refusal :=
  let s := tick e s0
  let x := s.half e.half
  if vtState (x.vault vault).raw ≠ 1 || x.tally.ghReset then .next s else .next (s.sealVault e.half vault)

/-- DOOR_DESTROY (R478): from the normal world in M or HS mode, or by the vault itself. -/
def execDoorDestroy (e : Ev) (hart : Nat) (mode : Priv) (vault : Nat) (s0 : State) : Host.Outcome State Fault Refusal :=
  let s := tick e s0
  let h := e.half
  let v := ((s.half h).hart hart).vault
  if !s.runsHart h hart then .next s
  else if (v.isSome && v ≠ some vault) || (v.isNone && !Priv.mayBuild mode) then .next (s.illegalAt h hart)
  else .next (s.viaController h (.destroy hart vault))

/-- VAULT_DESTROY_DONE (R478). -/
def execVaultDestroyDone (e : Ev) (vault : Nat) (s0 : State) : Host.Outcome State Fault Refusal :=
  let s := tick e s0
  if vtState ((s.half e.half).vault vault).raw ≠ 3 then .next s else .next (s.endVault e.half vault)

/-- DOOR_SUBMIT (R485): from a vault with priv_submit, or from the normal world in the manufacturing state. -/
def execDoorSubmit (e : Ev) (hart addr : Nat) (s0 : State) : Host.Outcome State Fault Refusal :=
  let s := tick e s0
  let h := e.half
  let x := s.half h
  let may := match (x.hart hart).vault with
    | none => decide (x.lifecycle = 0)
    | some n => vtPriv (x.vault n).raw 3
  if !s.runsHart h hart then .next s
  else if !may then .next (s.illegalAt h hart)
  else .next (s.viaController h (.submit hart addr))

/-- A hart may use DOOR.CLAIM: it runs a vault with priv_gate or priv_irq (R474). -/
def Half.mayClaim (x : Half) (hart : Nat) : Bool :=
  match (x.hart hart).vault with
  | none => false
  | some n => vtPriv (x.vault n).raw 4 || vtPriv (x.vault n).raw 5

/-- DOOR_CLAIM (R479, R480). -/
def execDoorClaim (e : Ev) (hart code : Nat) (s0 : State) : Host.Outcome State Fault Refusal :=
  let s := tick e s0
  let h := e.half
  if !s.runsHart h hart then .next s
  else if !(s.half h).mayClaim hart then .next (s.illegalAt h hart)
  else .next (s.viaController h (.claim hart code))

/-- DOOR_RELEASE (R479, R480). -/
def execDoorRelease (e : Ev) (hart code : Nat) (s0 : State) : Host.Outcome State Fault Refusal :=
  let s := tick e s0
  let h := e.half
  if !s.runsHart h hart then .next s
  else if !(s.half h).mayClaim hart then .next (s.illegalAt h hart)
  else .next (s.viaController h (.release hart code))

/-- DOOR_KEY (R483). -/
def execDoorKey (e : Ev) (hart addr label : Nat) (s0 : State) : Host.Outcome State Fault Refusal :=
  let s := tick e s0
  let h := e.half
  if !s.runsHart h hart then .next s
  else if (s.half h).normalWorld hart then .next (s.illegalAt h hart)
  else .next (s.viaController h (.key hart addr label))

/-- VAULT_QUANTUM_EXPIRY (R476). -/
def execVaultQuantumExpiry (e : Ev) (hart : Nat) (s0 : State) : Host.Outcome State Fault Refusal :=
  let s := tick e s0
  let x := s.half e.half
  let k := x.hart hart
  match k.vault with
  | none => .next s
  | some n => if x.vt.toNat < k.sinceVt + vtQuantum (x.vault n).raw * 1000 then .next s else .next (s.exitVault e.half hart .timeout 0 0)

/-- VAULT_EXCEPTION (R476). -/
def execVaultException (e : Ev) (hart cause : Nat) (s0 : State) : Host.Outcome State Fault Refusal :=
  .next ((tick e s0).vaultFault e.half hart cause)

/-- SECURE_INTERRUPT (R479): a vault's identity pre-empts the normal world, or stays pending in the secure world; a normal identity is taken in the normal
world. -/
def execSecureInterrupt (e : Ev) (hart ident : Nat) (save : HartSave) (s0 : State) : Host.Outcome State Fault Refusal :=
  let s := tick e s0
  let h := e.half
  if !s.runsHart h hart then .next s else .next (s.interrupt h hart ident save)

/-- VAULT_FILTER_REFUSAL (R473): the request is dropped and counted; the master takes a fault, or a failed descriptor, and carries on. -/
def execVaultFilterRefusal (e : Ev) (vault : Nat) (who : Master) (s0 : State) : Host.Outcome State Fault Refusal :=
  let s := tick e s0
  let h := e.half
  if vtState ((s.half h).vault vault).raw = 0 then .next s else
  let s1 := (s.upd h fun x => x.inc F.SVC_VAULT_CNT_refused).incident h 0x11 vault .notOwner
  match who with
  | .app hart => .next (s1.accessFault h hart)
  | .dma p i => .next (s1.failDma h p i .notOwner)
  | .steward => .next s1
  | .other => .next s1

/-- DEBUG_UNLOCK (R488): the MG9240-ES alone has the port (R3). -/
def execDebugUnlock (e : Ev) (record : Nat) (s0 : State) : Host.Outcome State Fault Refusal :=
  let s := tick e s0
  if !s.es || !(s.half e.half).clk.rimUp then .next s else .next (s.viaController e.half (.unlock record))

/-- An address of a half whose block does not answer an application core now: memory that is down (R17), or anything of the other half behind a link or a rim that
is down (R30). -/
def State.appRefused (s : State) (h a : Nat) : Bool :=
  let far (g : Nat) : Bool := decide (g ≠ h) && !((s.half h).linkUp && (s.half g).clk.rimUp)
  if dmaReach a 1 then !s.served h a 1
  else if inPeriph a then far (a / 0x10000000 % 2)
  else if 0x3000000000 ≤ a && a < 0x3000100000 then far (s.hostOf (winOff a / 0x1000))
  else if 0x3001000000 ≤ a && a < 0x3001100000 then far (qHalf (winOff a / 0x40))
  else far (winOff a / 0x80000)

/-- FABRIC_OUT_OF_RANGE (R17, R28-R30, R324): an access outside the address map or above the backed DRAM, or of device DMA outside DRAM and Strongroom, is refused and recorded once: a
descriptor's record is that of its failure (log entry 154). An application core's access to mapped memory that is down faults without a record. -/
def execFabricOutOfRange (e : Ev) (who : Master) (addr : Nat) (s0 : State) : Host.Outcome State Fault Refusal :=
  let s := tick e s0
  let h := e.half
  match who with
  | .app hart => if s.present addr then .next (if s.appRefused h addr then s.accessFault h hart else s)
    else .next ((s.incident h 0x10 hart .outOfRange).dataFault h hart)
  | .dma p i => if s.reaches addr 1 then .next s else .next (s.failDma h p i .outOfRange)
  | .steward => if s.present addr then .next s else .next (s.incident h 0x10 0 .outOfRange)
  | .other => if s.present addr then .next s else .next (s.incident h 0x10 0 .outOfRange)

/-- SERR_HB_TOGGLE (R518): the ball toggles, and the other half's Gatehouse hears it, while the Tally is enabled and the half carries critical duty. -/
def execSerrHbToggle (e : Ev) (s0 : State) : Host.Outcome State Fault Refusal :=
  let s := tick e s0
  let x := s.half e.half
  if x.fld F.TLY_CTL_enable = 1 && x.carries then
    .next ((s.upd e.half fun x => { x with clk := { x.clk with serrHb := !x.clk.serrHb } }).emit (.serrHb e.half)) else .next s

end Sys2Proof.Machine
end

