-- ==== Sys2Proof/Machine/Vdis.lean ====
section
/-! DEFINITION. Virtual device instances, contexts and queue records (R229, R235, R403-R422). -/
namespace Sys2Proof.Machine

/-! ## Creation (R404, R405) -/

/-- Two ranges of indices overlap; an empty one overlaps none. -/
def ranges (a n b k : Nat) : Bool := decide (0 < n) && decide (0 < k) && decide (a < b + k) && decide (b < a + n)

/-- Every field of a VDI configuration is within its range and alignment. -/
def vdiFieldsOk (cfg : Nat) : Bool :=
  decide (vQFirst cfg % 64 = 0) && decide (vQCount cfg % 64 = 0) && decide (vQFirst cfg + vQCount cfg ≤ 8192) &&
    decide (vCFirst cfg + vCCount cfg ≤ 524288) && decide (vStrLimit cfg ≤ 2048) &&
    (List.range 8).all fun n => decide (vWinBase cfg n % 0x10000 = 0) && decide (vWinSize cfg n % 0x10000 = 0)

/-- A window lies within one DRAM range, its backed part, outside the firmware reserve. -/
def State.windowOk (s : State) (b n : Nat) : Bool :=
  n = 0 || [0, 1].any fun g => decide (dramBase g + reserveSize ≤ b) && decide (b + n ≤ dramBase g + (s.half g).backed)

/-- The checks of VDI_CREATE in their order; the last one of R405 (the rim is up) holds wherever a message is served. -/
def State.createCheck (s : State) (h v profile mark cfg : Nat) : Option Status :=
  if 255 < v || (s.vdi v).exists_ then some .badArg
  else if 1 < profile || 14 < mark || vHalf cfg ≠ h || !vdiFieldsOk cfg then some .badArg
  else if !(List.range 8).all (fun n => s.windowOk (vWinBase cfg n) (vWinSize cfg n)) then some .outOfRange
  else if s.vdis.any (fun e => e.2.exists_ &&
      ((e.2.half = h && (ranges (vQFirst cfg) (vQCount cfg) (vQFirst e.2.cfg) (vQCount e.2.cfg) || decide (vGwQueues cfg &&& vGwQueues e.2.cfg ≠ 0))) ||
        (e.2.profile = profile && ranges (vCFirst cfg) (vCCount cfg) (vCFirst e.2.cfg) (vCCount e.2.cfg)))) then some .badArg
  else none

/-- A VDI installed on a half: its record, its page, its gateway queues. -/
def State.installVdi (s : State) (h v profile mark cfg gen : Nat) : State :=
  let d : Vdi := { Vdi.absent with exists_ := true, half := h, cfg := cfg, profile := profile, mark := mark, gen := gen }
  (s.setVdi v d).upd h fun x =>
    let own := (List.range 16).foldl (fun m i => if bits (vGwQueues cfg) i 1 = 1 then kput (fun _ => 0) m i (v + 1) else m) x.gtw.queueOwner
    ({ x with gtw := { x.gtw with queueOwner := own } } : Half).showVdi v d

/-- VDI_CREATE (R405). -/
def execVdiCreate (e : Ev) (m : Msg) (vdi profile mark src : Nat) (s0 : State) : Host.Outcome State Fault Refusal :=
  let h := e.half
  .next ((tick e s0).mboxL h m 0x80 fun t => t.withSrc h m src 160 fun l =>
    let cfg := leNat l
    match t.createCheck h vdi profile mark cfg with
    | some st => (t, st, 0)
    | none => (t.installVdi h vdi profile mark cfg 0, .ok, 0))

/-! ## Reset and removal (R412-R415) -/

/-- R414: a context of the VDI is named by a window entry of an active or pending bank, or the VDI by a valid task record. -/
def State.vdiNamed (s : State) (v : Nat) : Bool :=
  [0, 1].any fun g =>
    let x := s.half g
    let base := x.fld F.TLY_TASK_BASE_base
    let names (l : List (Nat × Nat)) : Bool := l.any fun e => wKind e.2 = 1 && (s.vdi v).ownsCtx (wCtx e.2)
    names x.bankEntries || (x.win.pendVt.isSome && names (if x.fld F.WIN_CTL_active_bank = 0 then x.win.bank1 else x.win.bank0)) ||
      s.mem.any fun c => decide (base ≤ c.1) && decide (c.1 < base + 4096 * 256) && decide ((c.1 - base) % 256 = 0) &&
        (let r := s.rdN c.1 8; decide (tkValid r = 1) && decide (tkVdi r = v))

/-- A vault of the half is bound to the VDI (R489). -/
def Half.boundVault (x : Half) (v : Nat) : Bool := x.vaults.table.any fun t => vtState t.2.raw ≠ 0 && vtBound t.2.raw = 1 && vtVdi t.2.raw = v

/-- A message under way for a VDI, or the refusal. -/
def State.leaveVdi (s : State) (h : Nat) (m : Msg) (op : Nat) (kind : LeaveKind) (v : Nat) : State × Option (Status × Nat) :=
  ((s.resetVdi v).underWay h { msg := m, op := op, kind := kind, id := v }, none)

/-- VDI_RESET (R412, R414, R415). -/
def execVdiReset (e : Ev) (m : Msg) (s0 : State) : Host.Outcome State Fault Refusal :=
  let h := e.half
  .next ((tick e s0).mboxW h m 0x81 .v false fun t =>
    let st := (t.half (t.hostOf m.vdi)).fld F.TEL_STATE_state m.vdi
    if t.hostOf m.vdi ≠ h || st = 2 || st = 3 || t.vdiNamed m.vdi then (t, some (.badArg, (t.vdi m.vdi).gen)) else t.leaveVdi h m 0x81 .reset m.vdi)

/-- VDI_REMOVE (R413-R415, R489). -/
def execVdiRemove (e : Ev) (m : Msg) (vdi : Nat) (s0 : State) : Host.Outcome State Fault Refusal :=
  let h := e.half
  .next ((tick e s0).mboxW h m 0x82 .l false fun t =>
    let st := (t.half (t.hostOf vdi)).fld F.TEL_STATE_state vdi
    if !(t.vdi vdi).exists_ || t.hostOf vdi ≠ h || st = 2 || st = 3 || t.vdiNamed vdi || (t.half h).boundVault vdi then (t, some (.badArg, 0))
    else t.leaveVdi h m 0x82 .remove vdi)

/-! ## Contexts (R108, R242, R408) -/

/-- A valid entry of a handle set lies in memory that the VDI may use: its own entry, and every granule of a Strongroom range its own, or of a model-cache entry of
its own (R130, R408; log entry 9). -/
def State.handleMine (s : State) (h v x : Nat) : Bool :=
  hValid x = 0 || (decide (hVdi x = v) &&
    (hMem x = 0 || hMem x = 3 || hSize x = 0 ||
      (let g := if hMem x = 1 then h else peer h
       (List.range ((hBase x + hSize x + 0xFFFF) / 0x10000 - hBase x / 0x10000)).all fun k =>
         (s.half g).gran (hBase x / 0x10000 + k) = 2 + v || (s.half g).modelGran v (hBase x / 0x10000 + k))))

/-- The entries of a handle set of 1 KiB. -/
def handleSet (l : List Byte) : List (Nat × Nat) :=
  (List.range 64).filterMap fun k => let x := leNat ((l.drop (16 * k)).take 16); if x = 0 then none else some (k, x)

/-- Two Till ranges of a handle set overlap that belong to different VDIs: both would be mapped on one core (R108). -/
def tillClash (set : List (Nat × Nat)) : Bool :=
  set.any fun a => set.any fun b => hValid a.2 = 1 && hValid b.2 = 1 && hMem a.2 = 0 && hMem b.2 = 0 && hVdi a.2 ≠ hVdi b.2 &&
    ranges (hBase a.2) (hSize a.2) (hBase b.2) (hSize b.2)

/-- The checks of a context record, its handle set included; the record's own partition-0 class check is R329. -/
def State.ctxCheck (s : State) (h v raw : Nat) (set : List (Nat × Nat)) : Option Status :=
  if cWeight raw = 0 || cMark raw = 15 || (cPart raw = 0 && (s.half h).classCrit (cMark raw) ≠ 15) then some .badArg
  else if set.any (fun x => !handleOk x.1 x.2) || tillClash set then some .badArg
  else if set.any (fun x => !s.handleMine h v x.2) then some .notOwner
  else none

/-- A context record stored with its handle set, whose copy it points to: the device-held fields of a valid record are kept, else start at 0 (R408). A context that
is suspended so goes idle (R246). -/
def State.putCtx (s : State) (h c raw : Nat) (set : List (Nat × Nat)) : State :=
  let old := s.ctx c
  let kept := if cWeight old.raw = 0 then 0 else old.raw
  let new := setBits (raw % 2 ^ 128) 64 48 (ctxAt h c) + (kept / 2 ^ 128) * 2 ^ 128
  let s1 := ((s.setCtx c { raw := new, handles := set }).bindModels h c set).touchCtx h c
  let s2 := s1.upd h fun x => { x with cores := kmapV (fun _ => Core.idle) x.cores fun _ k => if k.loadedCtx = some c then { k with loadedCtx := none } else k }
  (((s2.half h).disp.queues.filter fun k => qCtx k.2.record = c).foldl (fun t k => t.noteReady (h * 8192 + k.1)) s2).noteIdle h c

/-- CTX_WRITE (R241, R242, R328, R329, R408). -/
def execCtxWrite (e : Ev) (m : Msg) (ctx src : Nat) (s0 : State) : Host.Outcome State Fault Refusal :=
  let h := e.half
  .next ((tick e s0).mbox h m 0x84 .v false fun t =>
    let v := m.vdi
    if !(t.vdi v).ownsCtx ctx then (t, .notOwner, 0) else
    t.withSrc h m src 32 fun l =>
      let raw := leNat l
      if cVdi raw ≠ v then (t, .notOwner, 0)
      else if cWeight raw = 0 || cMark raw = 15 then (t, .badArg, 0)
      else if !t.inWindows v (cHandleSet raw) 1024 then (t, .outOfRange, 0)
      else match t.access h (cHandleSet raw) 1024 with
        | .ok =>
          let set := handleSet (t.rdBytes (cHandleSet raw) 1024)
          (match t.ctxCheck h v raw set with
          | some st => (t, st, 0)
          | none => (t.putCtx h ctx raw set, .ok, 0))
        | .dataError => ((t.strErrs (cHandleSet raw) 1024).incident h 0x0D v .dataError, .dataError, 0)
        | st => (t, st, 0))

/-! ## Queue records and states (R229, R235) -/

/-- The checks of a queue record after the first. -/
def State.queueCheck (s : State) (v r : Nat) : Option Status :=
  let c := (s.ctx (qCtx r)).raw
  let log (lo : Nat) := bits r lo 4
  if cWeight c = 0 || cPart c = 0 || qVdi r ≠ cVdi c || qVdi r ≠ v || bits (qCtx r) 19 1 ≠ (s.vdi v).profile || qWaitMs r = 0 || 12 < log 48 || 12 < log 112 ||
      (qEngine r = 1 && qInflight r ≠ 1) || qRing r % 128 ≠ 0 || qCq r % 32 ≠ 0 || qCond r % 32 ≠ 0 then some .badArg
  else if !s.inWindows v (qRing r) (128 * qRingSize r) || !s.inWindows v (qCq r) (32 * qCqSize r) ||
      (qCond r ≠ 0 && !s.inWindows v (qCond r) (32 * qRingSize r)) then some .outOfRange
  else none

/-- QUEUE_WRITE (R229): the generation field is ignored; a message acts on the queues of its own half alone (R391). -/
def execQueueWrite (e : Ev) (m : Msg) (q src : Nat) (s0 : State) : Host.Outcome State Fault Refusal :=
  let h := e.half
  .next ((tick e s0).mbox h m 0x85 .v true fun t =>
    if !(t.vdi m.vdi).ownsQueue q then (t, .notOwner, 0)
    else if qHalf q ≠ h || (t.half h).qState (qIdx q) ≠ 0 then (t, .badArg, 0)
    else t.withSrc h m src 32 fun l =>
      let r := setBits (leNat l) 240 16 0
      match t.queueCheck m.vdi r with
      | some st => (t, st, 0)
      | none => (t.upd h fun x => x.setQueue (qIdx q) { Queue.disabled with record := r }, .ok, 0))

/-- QUEUE_STATE: the queue is of the VDI and of the half that the message acts on (R391), and allows the operation; only a disable while the VDI is RESETTING or MIGRATING. -/
def State.queueState (s : State) (h : Nat) (m : Msg) (q : Nat) (disable : Bool) (ok : Nat → Bool) (f : State → State) : State × Option (Status × Nat) :=
  let u := qIdx q
  let st := (s.half h).fld F.TEL_STATE_state m.vdi
  if !(s.vdi m.vdi).ownsQueue q then (s, some (.notOwner, 0))
  else if qHalf q ≠ h then (s, some (.badArg, (s.half (qHalf q)).qGen u))
  else if (!disable && (st = 2 || st = 3)) || !ok ((s.half h).qState u) then (s, some (.badArg, (s.half h).qGen u))
  else ((f s).underWay h { msg := m, op := 0x86, kind := .queue, id := q }, none)

/-- QUEUE_STATE, enable (R235): answered once done. -/
def execQueueEnable (e : Ev) (m : Msg) (q : Nat) (s0 : State) : Host.Outcome State Fault Refusal :=
  let h := e.half
  .next ((tick e s0).mboxW h m 0x86 .v true fun t =>
    t.queueState h m q false (fun st => st = 0 && ((t.half h).queue (qIdx q)).record ≠ 0) fun t => t.upd h fun x => x.enableQueue (qIdx q))

/-- QUEUE_STATE, suspend (R235). -/
def execQueueSuspend (e : Ev) (m : Msg) (q : Nat) (s0 : State) : Host.Outcome State Fault Refusal :=
  let h := e.half
  .next ((tick e s0).mboxW h m 0x86 .v true fun t =>
    t.queueState h m q false (fun st => st = 1 || st = 2 || st = 3) fun t => t.suspendQueue q true)

/-- QUEUE_STATE, resume (R235). -/
def execQueueResume (e : Ev) (m : Msg) (q : Nat) (s0 : State) : Host.Outcome State Fault Refusal :=
  let h := e.half
  .next ((tick e s0).mboxW h m 0x86 .v true fun t =>
    t.queueState h m q false (fun st => st = 4) fun t => t.resumeQueue q)

/-- QUEUE_STATE, disable (R235). -/
def execQueueDisable (e : Ev) (m : Msg) (q : Nat) (s0 : State) : Host.Outcome State Fault Refusal :=
  let h := e.half
  .next ((tick e s0).mboxW h m 0x86 .v true fun t =>
    t.queueState h m q true (fun st => st ≠ 0) fun t => t.disableQueue q)

/-! ## Migration (R416-R422) -/

/-- A step on the source: the VDI is of this half, and neither R414 nor a bound vault refuses it (R414, R416, R489). -/
def State.stepOk (s : State) (h v : Nat) (phases : List Nat) : Bool :=
  let x := s.vdi v
  x.exists_ && decide (x.half = h) && phases.contains x.migStep && !s.vdiNamed v && !(s.half h).boundVault v

/-- The bytes of a dirty bitmap. -/
def Vdi.bitmapSize (x : Vdi) : Nat := Nat.max ((pagesBefore x.cfg 8 + 511) / 512 * 64) 1

/-- `n` bytes at `p` lie in no DMA window of the VDI. -/
def Vdi.outOfWindows (x : Vdi) (p n : Nat) : Bool := (List.range 8).all fun k => !ranges p n (vWinBase x.cfg k) (vWinSize x.cfg k)

/-- Logging into two cleared bitmaps, the first of them current. -/
def State.startLog (t : State) (h vdi a b : Nat) : State :=
  let t1 := t.setVdi vdi { t.vdi vdi with logOn := true, logBuf := 0, bitmaps := [a, b], qStates := [] }
  ((t1.zeroBitmap vdi 0).zeroBitmap vdi 1).upd h fun y =>
    (((y.setFld F.TEL_VDI_STAT_log_on 1 vdi).setFld F.TEL_VDI_STAT_log_buf 0 vdi).setFld F.TEL_VDI_STAT_log_pages 0 vdi).setFld F.TEL_STATE_state 2 vdi

/-- LOG_START (R416): two bitmap addresses that the device can reach, outside every window of the VDI. -/
def execLogStart (e : Ev) (m : Msg) (vdi src : Nat) (s0 : State) : Host.Outcome State Fault Refusal :=
  let h := e.half
  .next ((tick e s0).mbox h m 0x83 .l false fun t =>
    let x := t.vdi vdi
    if !t.stepOk h vdi [0] || (t.half h).fld F.TEL_STATE_state vdi ≠ 0 then (t, .badArg, x.gen) else
    t.withSrc h m src 16 fun l =>
      let a := leNat l % 2 ^ 64
      let b := leNat l / 2 ^ 64
      let n := x.bitmapSize
      if !t.reaches a n || !t.reaches b n then (t, .outOfRange, x.gen)
      else if !x.outOfWindows a n || !x.outOfWindows b n then (t, .badArg, x.gen)
      else
        ((t.startLog h vdi a b).migrated vdi 0 false, .ok, x.gen))

/-- LOG_SWAP (R418). -/
def execLogSwap (e : Ev) (m : Msg) (vdi : Nat) (s0 : State) : Host.Outcome State Fault Refusal :=
  let h := e.half
  .next ((tick e s0).mbox h m 0x83 .l false fun t =>
    let x := t.vdi vdi
    if !t.stepOk h vdi [1, 2] then (t, .badArg, x.gen) else ((t.swapLog vdi).migrated vdi 1 false, .ok, x.gen))

/-- The enabled queues of a VDI suspended, their states kept. -/
def State.suspendVdi (t : State) (h vdi : Nat) : State :=
  let x := t.vdi vdi
  let l := (x.queueIds.map qIdx).filterMap fun u => let st := (t.half h).qState u; if st = 0 then none else some (u, st)
  (l.filter fun q => q.2 ≠ 4).foldl (fun z q => z.suspendQueue (h * 8192 + q.1) false) (t.setVdi vdi { x with qStates := l })

/-- QUIESCE (R419): every queue is suspended; when the running commands have left, the generations rise, remote WAITs are rewound and the log swaps. -/
def execQuiesce (e : Ev) (m : Msg) (vdi : Nat) (s0 : State) : Host.Outcome State Fault Refusal :=
  let h := e.half
  .next ((tick e s0).mboxW h m 0x83 .l true fun t =>
    let x := t.vdi vdi
    if !t.stepOk h vdi [1, 2] then (t, some (.badArg, x.gen)) else
    ((t.suspendVdi h vdi).underWay h { msg := m, op := 0x83, kind := .quiesce, id := vdi }, none))

/-- A queue in the migration image: its record with the generation, its indices and its state (R420). -/
def State.queueImage (s : State) (v u : Nat) : List Byte :=
  let x := s.half (s.hostOf v)
  let st := ((s.vdi v).qStates.find? fun q => q.1 = u).map (·.2) |>.getD 0
  leBytes 32 (setBits (x.queue u).record 240 16 (x.qGen u)) ++ leBytes 4 (x.fld F.TEL_DB_HEAD_head u) ++ leBytes 4 (x.fld F.TEL_DB_TAIL_tail u) ++
    leBytes 4 (x.fld F.TEL_DB_CQ_TAIL_cq_tail u) ++ leBytes 4 (x.fld F.TEL_DB_CQ_HEAD_cq_head u) ++ leBytes 4 st

/-- Bytes of a context record by profile (R241). -/
def recBytes (profile : Nat) : Nat := if profile = 1 then 128 else 32

def setImage (l : List (Nat × Nat)) : List Byte := (List.range 64).flatMap fun k => leBytes 16 (kget (fun _ => 0) l k)

/-- The migration image (R420); the granules are those of the hosting half, and a model key is its 8 bytes with one byte of pin state. -/
def State.image (s : State) (v : Nat) : List Byte :=
  let x := s.vdi v
  let y := s.half x.half
  let ctxs := s.ctxs.filter fun c => x.ownsCtx c.1 && decide (cWeight c.2.raw ≠ 0)
  let grans := (y.str.gran.filter fun g => g.2 = 2 + v).map (·.1)
  let body := leBytes 160 x.cfg ++ (x.queueIds.flatMap fun q => s.queueImage v (qIdx q)) ++
    (ctxs.flatMap fun c => leBytes 4 (bits c.1 0 19) ++ leBytes (recBytes x.profile) c.2.raw ++ setImage c.2.handles) ++
    (grans.flatMap fun g => leBytes 4 (g * 0x10000) ++ s.rdBytes (strBase x.half + g * 0x10000) 0x10000) ++
    ((y.str.models.filter fun k => k.vdi = v && k.state ≠ 0).flatMap fun k => leBytes 8 k.key ++ leBytes 1 (if k.state = 3 then 1 else 0))
  leBytes 4 0x56444D49 ++ leBytes 2 1 ++ leBytes 1 v ++ leBytes 1 x.profile ++ leBytes 2 x.mark ++ leBytes 2 x.gen ++ leBytes 4 (64 + body.length) ++
    leBytes 4 (vQCount x.cfg) ++ leBytes 4 ctxs.length ++ leBytes 4 grans.length ++ leBytes 4 0 ++ leBytes 32 (Config.sha512 body) ++ body

/-- The first granule of an image that cannot be read, and why (R118, R407). -/
def State.imageReads (s : State) (h v : Nat) : Option (Nat × Status) :=
  let x := s.vdi v
  (((s.half x.half).str.gran.filter fun g => g.2 = 2 + v).map fun g => strBase x.half + g.1 * 0x10000).findSome? fun a =>
    match s.access h a 0x10000 (some v) with
    | .ok => none
    | st => some (a, st)

/-- EXPORT (R420): src gives the image's address and the extent there, u64 each. -/
def execExportImage (e : Ev) (m : Msg) (vdi src : Nat) (s0 : State) : Host.Outcome State Fault Refusal :=
  let h := e.half
  .next ((tick e s0).mbox h m 0x83 .l true fun t =>
    let x := t.vdi vdi
    if !t.stepOk h vdi [3] then (t, .badArg, x.gen) else
    t.withSrc h m src 16 fun l =>
      let a := leNat l % 2 ^ 64
      let img := t.image vdi
      if leNat l / 2 ^ 64 < img.length then (t, .noSpace, x.gen)
      else match t.imageReads h vdi with
      | some (g, st) => (if st = .dataError then (t.strErrs g 0x10000).incident h 0x0D vdi .dataError else t, st, x.gen)
      | none => match t.access h a img.length with
        | .ok => ((t.store h a img).migrated vdi 3 false, .ok, x.gen)
        | st => (t, st, x.gen))

/-- A piece of an image. -/
def piece (l : List Byte) (off n : Nat) : Nat := leNat ((l.drop off).take n)

/-- A record of VDI `v` given to VDI `w`. -/
def reown (v w x : Nat) : Nat := if hVdi x = v then setBits x 8 8 w else x

/-- The queues of an image installed SUSPENDED, each checked as QUEUE_WRITE checks it; a record of zeros was never written. -/
def State.importQueues (s : State) (h w first : Nat) (l : List Byte) : Option Status × State :=
  (List.range (l.length / 52)).foldl (fun a k =>
    let r0 := piece l (52 * k) 32
    let r := setBits (setBits r0 240 16 0) 212 8 w
    let u := first + k
    match a.1 with
    | some _ => a
    | none =>
      if r0 % 2 ^ 240 = 0 then a else
      match a.2.queueCheck w r with
      | some st => (some st, a.2)
      | none =>
        let t := a.2.upd h fun x =>
          let y := x.setQueue u { Queue.disabled with record := r }
          let z := (((y.setFld F.TEL_DB_HEAD_head (piece l (52 * k + 32) 4) u).setFld F.TEL_DB_TAIL_tail (piece l (52 * k + 36) 4) u).setFld
            F.TEL_DB_CQ_TAIL_cq_tail (piece l (52 * k + 40) 4) u).setFld F.TEL_DB_CQ_HEAD_cq_head (piece l (52 * k + 44) 4) u
          (z.setFld F.TEL_DB_STATE_generation ((bits r0 240 16 + 2 ^ 16 - z.disp.genBase % 2 ^ 16) % 2 ^ 16) u).setFld F.TEL_DB_STATE_state 4 u
        let d := t.vdi w
        (none, t.setVdi w { d with qStates := d.qStates ++ [(u, piece l (52 * k + 48) 4)] })) (none, s)

/-- The contexts of an image, each checked as CTX_WRITE checks it. -/
def State.importCtxs (s : State) (h v w profile : Nat) (l : List Byte) : Option Status × State :=
  let n := 4 + recBytes profile + 1024
  (List.range (l.length / n)).foldl (fun a k =>
    let c := piece l (n * k) 4 + profile * 2 ^ 19
    let raw0 := piece l (n * k + 4) (recBytes profile)
    let set0 := handleSet ((l.drop (n * k + 4 + recBytes profile)).take 1024)
    match a.1 with
    | some _ => a
    | none =>
      if !(a.2.vdi w).ownsCtx c || cVdi raw0 ≠ v || set0.any (fun x => hValid x.2 = 1 && hVdi x.2 ≠ v) then (some .notOwner, a.2) else
      let set := set0.map fun x => (x.1, reown v w x.2)
      match a.2.ctxCheck h w raw0 set with
      | some st => (some st, a.2)
      | none => (none, (a.2.setCtx c { raw := setBits (setBits raw0 0 8 w) 64 48 (ctxAt h c), handles := set }).touchCtx h c)) (none, s)

/-- The granules of an image, each at the offset that it names. -/
def State.importGranules (s : State) (h w : Nat) (l : List Byte) : Option Status × State :=
  (List.range (l.length / 0x10004)).foldl (fun a k =>
    let off := piece l (0x10004 * k) 4
    match a.1 with
    | some _ => a
    | none =>
      let x := a.2.half h
      if off % 0x10000 ≠ 0 || strSize ≤ off then (some .badArg, a.2)
      else if x.gran (off / 0x10000) ≠ 0 || x.groupShut (off / 0x1000000) || vStrLimit (a.2.vdi w).cfg ≤ a.2.heldBy (2 + w) then (some .noSpace, a.2)
      else (none, (a.2.upd h fun x => x.giveRun (2 + w) (off / 0x10000) 1).wrBytes (strBase h + off) ((l.drop (0x10004 * k + 4)).take 0x10000))) (none, s)

/-- The model keys of an image, each loaded from a copy in the target half's DRAM. -/
def State.importModels (s : State) (h w : Nat) (l : List Byte) : Option Status × State :=
  (List.range (l.length / 9)).foldl (fun a k =>
    let key := piece l (9 * k) 8
    match a.1 with
    | some _ => a
    | none =>
      let x := a.2.half h
      match (a.2.h0.str.models ++ a.2.h1.str.models).find? fun m => m.key = key && inDram h m.src m.size with
      | none => (some .noSpace, a.2)
      | some c => match x.modelPlace (granBytes c.size) x.str.models.length x.str.models with
        | none => (some .noSpace, a.2)
        | some (i, rest) =>
          let t := a.2.putModel h key w (a.2.vdi w).mark c.src c.size i (a.2.rdBytes c.src c.size) rest
          let st := if piece l (9 * k + 8) 1 = 1 then 3 else 2
          (none, t.upd h fun y => { y with str := { y.str with models := y.str.models.map fun m =>
            if m.key = key && m.vdi = w then { m with state := st } else m } })) (none, s)

/-- An image installed for VDI `w` on half `h` (R421): the first failure removes everything. -/
def State.importVdi (s : State) (h w : Nat) (img : List Byte) : State × Status :=
  let total := piece img 12 4
  let v := piece img 6 1
  let profile := piece img 7 1
  let body := (img.drop 64).take (total - 64)
  let nq := piece img 16 4
  let nc := piece img 20 4
  let ng := piece img 24 4
  let cfg := setBits (leNat (body.take 160)) 0 1 h
  let b1 := 160 + 52 * nq
  let b2 := b1 + nc * (4 + recBytes profile + 1024)
  let b3 := b2 + ng * 0x10004
  if piece img 0 4 ≠ 0x56444D49 || piece img 4 2 ≠ 1 || total < 224 || img.length < total || piece img 32 32 ≠ Config.sha512 body % 2 ^ 256 ||
      nq ≠ vQCount cfg || body.length < b3 then (s, .badArg)
  else match s.createCheck h w profile (piece img 8 1) cfg with
    | some st => (s, st)
    | none =>
      let s1 := s.installVdi h w profile (piece img 8 1) cfg (piece img 10 2)
      let r1 := s1.importGranules h w ((body.drop b2).take (ng * 0x10004))
      let r2 := if r1.1.isSome then r1 else r1.2.importCtxs h v w profile ((body.drop b1).take (b2 - b1))
      let r3 := if r2.1.isSome then r2 else r2.2.importQueues h w (vQFirst cfg) ((body.drop 160).take (52 * nq))
      let r4 := if r3.1.isSome then r3 else r3.2.importModels h w (body.drop b3)
      match r4.1 with
      | some st => (s, st)
      | none => ((r4.2.upd h fun x => x.setFld F.TEL_STATE_state 2 w).migrated w 4 false, .ok)

/-- IMPORT (R421): src gives the image's address and the extent there, u64 each. -/
def execImportImage (e : Ev) (m : Msg) (vdi src : Nat) (s0 : State) : Host.Outcome State Fault Refusal :=
  let h := e.half
  .next ((tick e s0).mboxL h m 0x83 fun t =>
    if 255 < vdi || (t.vdi vdi).exists_ then (t, .badArg, 0)
    else if !(t.half h).clk.computeUp then (t, .timeout, 0)
    else t.withSrc h m src 16 fun l =>
      let a := leNat l % 2 ^ 64
      let n := Nat.min (leNat l / 2 ^ 64) (2 ^ 32)
      match t.access h a 64 with
      | .ok =>
        let len := Nat.min n (Nat.max 64 (t.rdN (a + 12) 4))
        (match t.access h a len with
        | .ok => let r := t.importVdi h vdi (t.rdBytes a len); (r.1, r.2, (r.1.vdi vdi).gen)
        | st => (t, st, 0))
      | st => (t, st, 0))

/-- An imported VDI runs: each queue has the state that its image holds. -/
def State.resumeVdi (t : State) (h vdi : Nat) : State :=
  let x := t.vdi vdi
  (x.qStates.foldl (fun z q =>
    if q.2 = 4 then z else if q.2 = 0 then z.upd h fun y => y.setFld F.TEL_DB_STATE_state 0 q.1 else z.resumeQueue (h * 8192 + q.1))
    (t.upd h fun y => y.setFld F.TEL_STATE_state 0 vdi)).setVdi vdi { x with qStates := [] }

/-- RESUME (R416): the queues take their exported states. -/
def execResumeVdi (e : Ev) (m : Msg) (vdi : Nat) (s0 : State) : Host.Outcome State Fault Refusal :=
  let h := e.half
  .next ((tick e s0).mbox h m 0x83 .l true fun t =>
    let x := t.vdi vdi
    if !t.stepOk h vdi [5] then (t, .badArg, x.gen) else
    ((t.resumeVdi h vdi).migrated vdi 5 true, .ok, x.gen))

/-- A VDI stays where it is: its log ends and the queues that were suspended for the migration go on. -/
def State.stayVdi (t : State) (h vdi : Nat) : State :=
  let x := t.vdi vdi
  (x.qStates.filter fun q => q.2 ≠ 4 && (t.half h).qState q.1 = 4).foldl (fun z q => z.resumeQueue (h * 8192 + q.1))
    ((t.setVdi vdi { x with logOn := false, qStates := [] }).upd h fun y => (y.setFld F.TEL_VDI_STAT_log_on 0 vdi).setFld F.TEL_STATE_state
      (if y.clk.computeUp then 0 else 4) vdi)

/-- ABORT (R416): on the source logging stops and the queues that the quiesce suspended resume; on the target an imported VDI goes. -/
def execAbortMigration (e : Ev) (m : Msg) (vdi : Nat) (s0 : State) : Host.Outcome State Fault Refusal :=
  let h := e.half
  .next ((tick e s0).mboxW h m 0x83 .l false fun t =>
    let x := t.vdi vdi
    if !x.exists_ || x.half ≠ h || x.migStep = 0 then (t, some (.badArg, x.gen))
    else if x.migStep = 5 then t.leaveVdi h m 0x83 .release vdi
    else
      ((t.stayVdi h vdi).migrated vdi 6 true, some (.ok, x.gen)))

/-- RELEASE (R413, R416). -/
def execReleaseVdi (e : Ev) (m : Msg) (vdi : Nat) (s0 : State) : Host.Outcome State Fault Refusal :=
  let h := e.half
  .next ((tick e s0).mboxW h m 0x83 .l false fun t =>
    if !t.stepOk h vdi [4] then (t, some (.badArg, (t.vdi vdi).gen)) else t.leaveVdi h m 0x83 .release vdi)

end Sys2Proof.Machine
end

