-- ==== Sys2Proof/Machine/Dispatch.lean ====
section
/-! DEFINITION. One arm per command: a direct call of its meaning. -/
namespace Sys2Proof.Machine

/-- The effect of a command on everything but the queue. -/
def exec (i : Instr) (s : State) : Host.Outcome State Fault Refusal :=
  match i with
  | .powerGoodRise e => Sys2Proof.Machine.execPowerGoodRise e s
  | .powerGoodFall e => Sys2Proof.Machine.execPowerGoodFall e s
  | .pwrgoodMismatchTimeout e => Sys2Proof.Machine.execPwrgoodMismatchTimeout e s
  | .resetNLow e ns => Sys2Proof.Machine.execResetNLow e ns s
  | .resetNRelease e => Sys2Proof.Machine.execResetNRelease e s
  | .crystalJudgedStable e => Sys2Proof.Machine.execCrystalJudgedStable e s
  | .crystalStartTimeout e => Sys2Proof.Machine.execCrystalStartTimeout e s
  | .pllJudgedLocked e => Sys2Proof.Machine.execPllJudgedLocked e s
  | .clockMonitorFailure e fails => Sys2Proof.Machine.execClockMonitorFailure e fails s
  | .rcOscillatorCheck e ppm => Sys2Proof.Machine.execRcOscillatorCheck e ppm s
  | .coreDividerChange e p div => Sys2Proof.Machine.execCoreDividerChange e p div s
  | .thermalSensorPoll e temps => Sys2Proof.Machine.execThermalSensorPoll e temps s
  | .trimStepTimer e => Sys2Proof.Machine.execTrimStepTimer e s
  | .thermalTrip e src => Sys2Proof.Machine.execThermalTrip e src s
  | .tripCooldownRelease e temps stackTemps => Sys2Proof.Machine.execTripCooldownRelease e temps stackTemps s
  | .dramTemperaturePoll e t0 t1 => Sys2Proof.Machine.execDramTemperaturePoll e t0 t1 s
  | .pmbusPoll e fault alertHigh => Sys2Proof.Machine.execPmbusPoll e fault alertHigh s
  | .vrAlertNLow e => Sys2Proof.Machine.execVrAlertNLow e s
  | .emergencyClear e => Sys2Proof.Machine.execEmergencyClear e s
  | .canRouteWake e ctrl => Sys2Proof.Machine.execCanRouteWake e ctrl s
  | .tc10Wake e => Sys2Proof.Machine.execTc10Wake e s
  | .wakeInputBall e ball => Sys2Proof.Machine.execWakeInputBall e ball s
  | .parkEntryComplete e => Sys2Proof.Machine.execParkEntryComplete e s
  | .sleepEntryComplete e => Sys2Proof.Machine.execSleepEntryComplete e s
  | .coreReset e p cause => Sys2Proof.Machine.execCoreReset e p cause s
  | .coreResetDone e p => Sys2Proof.Machine.execCoreResetDone e p s
  | .halfComputeRestart e reason fwStopped => Sys2Proof.Machine.execHalfComputeRestart e reason fwStopped s
  | .halfRimRestart e reason fwStopped => Sys2Proof.Machine.execHalfRimRestart e reason fwStopped s
  | .packageWarmReset e reason fwStopped => Sys2Proof.Machine.execPackageWarmReset e reason fwStopped s
  | .gatehouseReady e => Sys2Proof.Machine.execGatehouseReady e s
  | .rejoinActivation e vt => Sys2Proof.Machine.execRejoinActivation e vt s
  | .telDbTailWrite e q v => Sys2Proof.Machine.execTelDbTailWrite e q v s
  | .telDbCqHeadWrite e q v => Sys2Proof.Machine.execTelDbCqHeadWrite e q v s
  | .coreFreeDispatch e p => Sys2Proof.Machine.execCoreFreeDispatch e p s
  | .contextFetchDone e ctx => Sys2Proof.Machine.execContextFetchDone e ctx s
  | .contextWriteBack e ctx => Sys2Proof.Machine.execContextWriteBack e ctx s
  | .tileEnd e p sched => Sys2Proof.Machine.execTileEnd e p sched s
  | .tileWatchdogFire e p => Sys2Proof.Machine.execTileWatchdogFire e p s
  | .dmaDescriptorEnd e p desc => Sys2Proof.Machine.execDmaDescriptorEnd e p desc s
  | .dmaDescriptorFailure e p desc st => Sys2Proof.Machine.execDmaDescriptorFailure e p desc st s
  | .detectedMemoryError e p mem off => Sys2Proof.Machine.execDetectedMemoryError e p mem off s
  | .nonTileReadError e who addr => Sys2Proof.Machine.execNonTileReadError e who addr s
  | .rowWriteLands e p row => Sys2Proof.Machine.execRowWriteLands e p row s
  | .tokenBarrierPass e p desc => Sys2Proof.Machine.execTokenBarrierPass e p desc s
  | .preemptionRequest e ctx => Sys2Proof.Machine.execPreemptionRequest e ctx s
  | .graphicsSwitchRequest e part => Sys2Proof.Machine.execGraphicsSwitchRequest e part s
  | .modeSwitchDone e p => Sys2Proof.Machine.execModeSwitchDone e p s
  | .waitLocalEvaluation e q => Sys2Proof.Machine.execWaitLocalEvaluation e q s
  | .waitLimitExpiry e q => Sys2Proof.Machine.execWaitLimitExpiry e q s
  | .remoteWatchRepeat e q => Sys2Proof.Machine.execRemoteWatchRepeat e q s
  | .remoteWatchReply e q gen idx => Sys2Proof.Machine.execRemoteWatchReply e q gen idx s
  | .rowConditionEvaluation e w => Sys2Proof.Machine.execRowConditionEvaluation e w s
  | .lagLimitExpiry e w => Sys2Proof.Machine.execLagLimitExpiry e w s
  | .windowPreArm e n => Sys2Proof.Machine.execWindowPreArm e n s
  | .windowInstanceStart e n => Sys2Proof.Machine.execWindowInstanceStart e n s
  | .windowInstanceEndUnmet e n => Sys2Proof.Machine.execWindowInstanceEndUnmet e n s
  | .bankActivationVt e => Sys2Proof.Machine.execBankActivationVt e s
  | .majorFrameEndDisable e => Sys2Proof.Machine.execMajorFrameEndDisable e s
  | .dispatchWatchdog e d => Sys2Proof.Machine.execDispatchWatchdog e d s
  | .dispatchRestartDone e d => Sys2Proof.Machine.execDispatchRestartDone e d s
  | .stewardWatchdog e => Sys2Proof.Machine.execStewardWatchdog e s
  | .stewardRestartDone e => Sys2Proof.Machine.execStewardRestartDone e s
  | .lockstepMismatch e => Sys2Proof.Machine.execLockstepMismatch e s
  | .sieveCommandStart e w => Sys2Proof.Machine.execSieveCommandStart e w s
  | .sieveCommandEnd e => Sys2Proof.Machine.execSieveCommandEnd e s
  | .sieveDataError e => Sys2Proof.Machine.execSieveDataError e s
  | .sieveWatchdog e => Sys2Proof.Machine.execSieveWatchdog e s
  | .patrolRowRead e row err => Sys2Proof.Machine.execPatrolRowRead e row err s
  | .strongroomBankRetire e bank => Sys2Proof.Machine.execStrongroomBankRetire e bank s
  | .bankMoveDone e badRows => Sys2Proof.Machine.execBankMoveDone e badRows s
  | .groupWithdrawal e g => Sys2Proof.Machine.execGroupWithdrawal e g s
  | .granuleZeroed e => Sys2Proof.Machine.execGranuleZeroed e s
  | .shutterClose e unit => Sys2Proof.Machine.execShutterClose e unit s
  | .shutterDrainTimeout e unit => Sys2Proof.Machine.execShutterDrainTimeout e unit s
  | .shutDoorRefusal e unit who => Sys2Proof.Machine.execShutDoorRefusal e unit who s
  | .groupReopenDone e g => Sys2Proof.Machine.execGroupReopenDone e g s
  | .modelLoadDone e key vdi => Sys2Proof.Machine.execModelLoadDone e key vdi s
  | .longPacket e rx vc dt px crcOk corrected => Sys2Proof.Machine.execLongPacket e rx vc dt px crcOk corrected s
  | .frameStart e rx vc frameNo => Sys2Proof.Machine.execFrameStart e rx vc frameNo s
  | .frameEnd e rx vc => Sys2Proof.Machine.execFrameEnd e rx vc s
  | .frameCloseTimeout e slot => Sys2Proof.Machine.execFrameCloseTimeout e slot s
  | .embeddedDataLine e rx vc data => Sys2Proof.Machine.execEmbeddedDataLine e rx vc data s
  | .channelResultDelivered e n => Sys2Proof.Machine.execChannelResultDelivered e n s
  | .roundDueTime e task round => Sys2Proof.Machine.execRoundDueTime e task round s
  | .tallyJudgement e task round => Sys2Proof.Machine.execTallyJudgement e task round s
  | .verdictExchange e task round v => Sys2Proof.Machine.execVerdictExchange e task round v s
  | .verdictExchangeTimeout e task round => Sys2Proof.Machine.execVerdictExchangeTimeout e task round s
  | .lateResultDiscard e task round => Sys2Proof.Machine.execLateResultDiscard e task round s
  | .locatingSearchStep e task => Sys2Proof.Machine.execLocatingSearchStep e task s
  | .assayDue e task ch => Sys2Proof.Machine.execAssayDue e task ch s
  | .assayVerdict e task round => Sys2Proof.Machine.execAssayVerdict e task round s
  | .auditDue e => Sys2Proof.Machine.execAuditDue e s
  | .auditDone e p fail block => Sys2Proof.Machine.execAuditDone e p fail block s
  | .auditOverdue e p => Sys2Proof.Machine.execAuditOverdue e p s
  | .dutyHandover e p => Sys2Proof.Machine.execDutyHandover e p s
  | .degradedEntry e cause => Sys2Proof.Machine.execDegradedEntry e cause s
  | .serrHbCheck e toggling => Sys2Proof.Machine.execSerrHbCheck e toggling s
  | .yieldHalf e => Sys2Proof.Machine.execYieldHalf e s
  | .flitReceive e module ok corrected seq lane => Sys2Proof.Machine.execFlitReceive e module ok corrected seq lane s
  | .hatchLaneRepair e module lane => Sys2Proof.Machine.execHatchLaneRepair e module lane s
  | .hatchModuleFailover e module => Sys2Proof.Machine.execHatchModuleFailover e module s
  | .hatchLinkLoss e => Sys2Proof.Machine.execHatchLinkLoss e s
  | .hatchLinkTraining e peerRelease ok => Sys2Proof.Machine.execHatchLinkTraining e peerRelease ok s
  | .hatchViolation e code type tag => Sys2Proof.Machine.execHatchViolation e code type tag s
  | .mWrite e k addr data => Sys2Proof.Machine.execMWrite e k addr data s
  | .mRead e k addr len => Sys2Proof.Machine.execMRead e k addr len s
  | .amo e k op addr width val => Sys2Proof.Machine.execAmo e k op addr width val s
  | .loadReserved e k hart addr width => Sys2Proof.Machine.execLoadReserved e k hart addr width s
  | .storeConditional e k hart addr width val => Sys2Proof.Machine.execStoreConditional e k hart addr width val s
  | .semaphoreEntryExpiry e idx => Sys2Proof.Machine.execSemaphoreEntryExpiry e idx s
  | .cpl e tag data => Sys2Proof.Machine.execCpl e tag data s
  | .cplSt e tag st => Sys2Proof.Machine.execCplSt e tag st s
  | .resWr e addr data => Sys2Proof.Machine.execResWr e addr data s
  | .msgInterrupt e x hart ident => Sys2Proof.Machine.execMsgInterrupt e x hart ident s
  | .msgQueueCompletionIrq e x q => Sys2Proof.Machine.execMsgQueueCompletionIrq e x q s
  | .msgRemoteWatchRequest e x q gen idx addr val => Sys2Proof.Machine.execMsgRemoteWatchRequest e x q gen idx addr val s
  | .msgRemoteWatchReply e x q gen idx => Sys2Proof.Machine.execMsgRemoteWatchReply e x q gen idx s
  | .msgGatewayFrame e x f dst => Sys2Proof.Machine.execMsgGatewayFrame e x f dst s
  | .msgControlRelay e x frag => Sys2Proof.Machine.execMsgControlRelay e x frag s
  | .resMsgResult e x task ch round st => Sys2Proof.Machine.execResMsgResult e x task ch round st s
  | .resMsgVerdict e x task round v => Sys2Proof.Machine.execResMsgVerdict e x task round v s
  | .vtCompare e x peerVt => Sys2Proof.Machine.execVtCompare e x peerVt s
  | .resMsgGoingDown e x kind reason vt => Sys2Proof.Machine.execResMsgGoingDown e x kind reason vt s
  | .resMsgGatehouseState e x st => Sys2Proof.Machine.execResMsgGatehouseState e x st s
  | .resMsgRepairNotice e x release => Sys2Proof.Machine.execResMsgRepairNotice e x release s
  | .canFrameReceive e bus f => Sys2Proof.Machine.execCanFrameReceive e bus f s
  | .streamIngress e slot seqNum msgs => Sys2Proof.Machine.execStreamIngress e slot seqNum msgs s
  | .streamEgressHoldExpiry e slot => Sys2Proof.Machine.execStreamEgressHoldExpiry e slot s
  | .gatewayQueueDoorbell e gq f => Sys2Proof.Machine.execGatewayQueueDoorbell e gq f s
  | .busOffRecovery e ctrl => Sys2Proof.Machine.execBusOffRecovery e ctrl s
  | .hello e partner seq pid => Sys2Proof.Machine.execHello e partner seq pid s
  | .mailbox e hd msgs => Sys2Proof.Machine.execMailbox e hd msgs s
  | .regRead e hd vdi off count => Sys2Proof.Machine.execRegRead e hd vdi off count s
  | .regWrite e hd vdi off vals => Sys2Proof.Machine.execRegWrite e hd vdi off vals s
  | .dataWrite e hd off data => Sys2Proof.Machine.execDataWrite e hd off data s
  | .dataRead e hd off len => Sys2Proof.Machine.execDataRead e hd off len s
  | .ringFrame e hd index slots => Sys2Proof.Machine.execRingFrame e hd index slots s
  | .peerWatch e src q gen idx addr val rpeer => Sys2Proof.Machine.execPeerWatch e src q gen idx addr val rpeer s
  | .peerReply e src q gen idx => Sys2Proof.Machine.execPeerReply e src q gen idx s
  | .malformedFrame e partner kind => Sys2Proof.Machine.execMalformedFrame e partner kind s
  | .malformedBlockExpiry e partner => Sys2Proof.Machine.execMalformedBlockExpiry e partner s
  | .sessionIdleTimeout e partner => Sys2Proof.Machine.execSessionIdleTimeout e partner s
  | .heartbeat e => Sys2Proof.Machine.execHeartbeat e s
  | .latchLeaseExpiry e => Sys2Proof.Machine.execLatchLeaseExpiry e s
  | .controlPortRetire e selfTestFail => Sys2Proof.Machine.execControlPortRetire e selfTestFail s
  | .latchTake e m pid => Sys2Proof.Machine.execLatchTake e m pid s
  | .latchRenew e m => Sys2Proof.Machine.execLatchRenew e m s
  | .latchRelease e m => Sys2Proof.Machine.execLatchRelease e m s
  | .latchQuery e m => Sys2Proof.Machine.execLatchQuery e m s
  | .devInfo e m => Sys2Proof.Machine.execDevInfo e m s
  | .statsRead e m block clear unit reg index count => Sys2Proof.Machine.execStatsRead e m block clear unit reg index count s
  | .incidentRead e m first count dst => Sys2Proof.Machine.execIncidentRead e m first count dst s
  | .accountRead e m ctx dst => Sys2Proof.Machine.execAccountRead e m ctx dst s
  | .winWrite e m first count src => Sys2Proof.Machine.execWinWrite e m first count src s
  | .winActivate e m vt standby => Sys2Proof.Machine.execWinActivate e m vt standby s
  | .winFrame e m length phase => Sys2Proof.Machine.execWinFrame e m length phase s
  | .partWrite e m part cfg cores => Sys2Proof.Machine.execPartWrite e m part cfg cores s
  | .taskWrite e m task src => Sys2Proof.Machine.execTaskWrite e m task src s
  | .tlyCfg e m base staging audit enable => Sys2Proof.Machine.execTlyCfg e m base staging audit enable s
  | .winEnableSet e m vt => Sys2Proof.Machine.execWinEnableSet e m vt s
  | .winEnableClear e m => Sys2Proof.Machine.execWinEnableClear e m s
  | .mntShadow e m cls cfg ports => Sys2Proof.Machine.execMntShadow e m cls cfg ports s
  | .mntCommit e m => Sys2Proof.Machine.execMntCommit e m s
  | .mntFb e m cfg => Sys2Proof.Machine.execMntFb e m cfg s
  | .strAlloc e m count group => Sys2Proof.Machine.execStrAlloc e m count group s
  | .strFree e m off count => Sys2Proof.Machine.execStrFree e m off count s
  | .cacheSize e m count => Sys2Proof.Machine.execCacheSize e m count s
  | .modelLoad e m key src size => Sys2Proof.Machine.execModelLoad e m key src size s
  | .modelPin e m key => Sys2Proof.Machine.execModelPin e m key s
  | .modelUnpin e m key => Sys2Proof.Machine.execModelUnpin e m key s
  | .strPatrol e m enable => Sys2Proof.Machine.execStrPatrol e m enable s
  | .rxCfg e m rx cfg => Sys2Proof.Machine.execRxCfg e m rx cfg s
  | .streamCfg e m slot src => Sys2Proof.Machine.execStreamCfg e m slot src s
  | .routeWrite e m count src => Sys2Proof.Machine.execRouteWrite e m count src s
  | .routeDelete e m count src => Sys2Proof.Machine.execRouteDelete e m count src s
  | .fanoutWrite e m first count src => Sys2Proof.Machine.execFanoutWrite e m first count src s
  | .gtwCfg e m ctl ovf => Sys2Proof.Machine.execGtwCfg e m ctl ovf s
  | .slotCfg e m slot src => Sys2Proof.Machine.execSlotCfg e m slot src s
  | .portCfg e m udp ip4 pfx4 pfx6 ip6 => Sys2Proof.Machine.execPortCfg e m udp ip4 pfx4 pfx6 ip6 s
  | .qbvWrite e m port count cycle base src => Sys2Proof.Machine.execQbvWrite e m port count cycle base src s
  | .peerFenceWrite e m first count src => Sys2Proof.Machine.execPeerFenceWrite e m first count src s
  | .peerListWrite e m first count src => Sys2Proof.Machine.execPeerListWrite e m first count src s
  | .vdiCreate e m vdi profile mark src => Sys2Proof.Machine.execVdiCreate e m vdi profile mark src s
  | .vdiReset e m => Sys2Proof.Machine.execVdiReset e m s
  | .vdiRemove e m vdi => Sys2Proof.Machine.execVdiRemove e m vdi s
  | .logStart e m vdi src => Sys2Proof.Machine.execLogStart e m vdi src s
  | .logSwap e m vdi => Sys2Proof.Machine.execLogSwap e m vdi s
  | .quiesce e m vdi => Sys2Proof.Machine.execQuiesce e m vdi s
  | .exportImage e m vdi src => Sys2Proof.Machine.execExportImage e m vdi src s
  | .importImage e m vdi src => Sys2Proof.Machine.execImportImage e m vdi src s
  | .resumeVdi e m vdi => Sys2Proof.Machine.execResumeVdi e m vdi s
  | .abortMigration e m vdi => Sys2Proof.Machine.execAbortMigration e m vdi s
  | .releaseVdi e m vdi => Sys2Proof.Machine.execReleaseVdi e m vdi s
  | .ctxWrite e m ctx src => Sys2Proof.Machine.execCtxWrite e m ctx src s
  | .queueWrite e m q src => Sys2Proof.Machine.execQueueWrite e m q src s
  | .queueEnable e m q => Sys2Proof.Machine.execQueueEnable e m q s
  | .queueSuspend e m q => Sys2Proof.Machine.execQueueSuspend e m q s
  | .queueResume e m q => Sys2Proof.Machine.execQueueResume e m q s
  | .queueDisable e m q => Sys2Proof.Machine.execQueueDisable e m q s
  | .lateArrivalDiscard e q gen => Sys2Proof.Machine.execLateArrivalDiscard e q gen s
  | .svcRead e m off bytes dst => Sys2Proof.Machine.execSvcRead e m off bytes dst s
  | .svcRebuild e m badCores badBanks => Sys2Proof.Machine.execSvcRebuild e m badCores badBanks s
  | .portRestore e m passes => Sys2Proof.Machine.execPortRestore e m passes s
  | .halfRestartH e m half => Sys2Proof.Machine.execHalfRestartH e m half s
  | .halfRestartM e m half => Sys2Proof.Machine.execHalfRestartM e m half s
  | .fwWrite e m off bytes src => Sys2Proof.Machine.execFwWrite e m off bytes src s
  | .fwActivate e m mask => Sys2Proof.Machine.execFwActivate e m mask s
  | .fwCommit e m => Sys2Proof.Machine.execFwCommit e m s
  | .fwWithdraw e m => Sys2Proof.Machine.execFwWithdraw e m s
  | .attest e m nonce dst => Sys2Proof.Machine.execAttest e m nonce dst s
  | .dspCfgPipe e m pipe src => Sys2Proof.Machine.execDspCfgPipe e m pipe src s
  | .dspCfgTelltale e m pipe src => Sys2Proof.Machine.execDspCfgTelltale e m pipe src s
  | .powerReqRun e m => Sys2Proof.Machine.execPowerReqRun e m s
  | .powerReqPark e m => Sys2Proof.Machine.execPowerReqPark e m s
  | .powerReqSleep e m => Sys2Proof.Machine.execPowerReqSleep e m s
  | .unknownOpcode e m opcode => Sys2Proof.Machine.execUnknownOpcode e m opcode s
  | .telMbxGo e vdi => Sys2Proof.Machine.execTelMbxGo e vdi s
  | .tellerMailboxReply e vdi => Sys2Proof.Machine.execTellerMailboxReply e vdi s
  | .reqTailWrite e pair tail => Sys2Proof.Machine.execReqTailWrite e pair tail s
  | .registerWrite e who reg unit index word val => Sys2Proof.Machine.execRegisterWrite e who reg unit index word val s
  | .render e q run => Sys2Proof.Machine.execRender e q run s
  | .verticalBlank e pipe nextS => Sys2Proof.Machine.execVerticalBlank e pipe nextS s
  | .telltaleCrcCompare e pipe crcs => Sys2Proof.Machine.execTelltaleCrcCompare e pipe crcs s
  | .dramReadEcc e pc bank row unc => Sys2Proof.Machine.execDramReadEcc e pc bank row unc s
  | .rowRemap e pc bank row lost => Sys2Proof.Machine.execRowRemap e pc bank row lost s
  | .ecsScrub e pc bank row => Sys2Proof.Machine.execEcsScrub e pc bank row s
  | .pseudoChannelRetire e idx training => Sys2Proof.Machine.execPseudoChannelRetire e idx training s
  | .stackThrottle e stack level => Sys2Proof.Machine.execStackThrottle e stack level s
  | .guaranteeMiss e port cls => Sys2Proof.Machine.execGuaranteeMiss e port cls s
  | .portRequestHeldRelease e port cls stack bytes write => Sys2Proof.Machine.execPortRequestHeldRelease e port cls stack bytes write s
  | .serviceRecordWriteDone e ok => Sys2Proof.Machine.execServiceRecordWriteDone e ok s
  | .serviceRecordLoad e ok0 ok1 => Sys2Proof.Machine.execServiceRecordLoad e ok0 ok1 s
  | .bootSlotFailure e slot => Sys2Proof.Machine.execBootSlotFailure e slot s
  | .trialBootConfirm e => Sys2Proof.Machine.execTrialBootConfirm e s
  | .configStoreApply e bad => Sys2Proof.Machine.execConfigStoreApply e bad s
  | .soakTimer e => Sys2Proof.Machine.execSoakTimer e s
  | .vtServoStep e ev => Sys2Proof.Machine.execVtServoStep e ev s
  | .vtDeviationIncident e devNs => Sys2Proof.Machine.execVtDeviationIncident e devNs s
  | .doorCall e hart vault entry save => Sys2Proof.Machine.execDoorCall e hart vault entry save s
  | .doorRet e hart a0 a1 => Sys2Proof.Machine.execDoorRet e hart a0 a1 s
  | .doorCreate e hart mode addr => Sys2Proof.Machine.execDoorCreate e hart mode addr s
  | .vaultSealDone e vault => Sys2Proof.Machine.execVaultSealDone e vault s
  | .doorDestroy e hart mode vault => Sys2Proof.Machine.execDoorDestroy e hart mode vault s
  | .vaultDestroyDone e vault => Sys2Proof.Machine.execVaultDestroyDone e vault s
  | .doorSubmit e hart addr => Sys2Proof.Machine.execDoorSubmit e hart addr s
  | .doorClaim e hart code => Sys2Proof.Machine.execDoorClaim e hart code s
  | .doorRelease e hart code => Sys2Proof.Machine.execDoorRelease e hart code s
  | .doorKey e hart addr label => Sys2Proof.Machine.execDoorKey e hart addr label s
  | .vaultQuantumExpiry e hart => Sys2Proof.Machine.execVaultQuantumExpiry e hart s
  | .vaultException e hart cause => Sys2Proof.Machine.execVaultException e hart cause s
  | .secureInterrupt e hart ident save => Sys2Proof.Machine.execSecureInterrupt e hart ident save s
  | .vaultFilterRefusal e vault who => Sys2Proof.Machine.execVaultFilterRefusal e vault who s
  | .pufReconstruction e ok => Sys2Proof.Machine.execPufReconstruction e ok s
  | .debugUnlock e record => Sys2Proof.Machine.execDebugUnlock e record s
  | .fabricOutOfRange e who addr => Sys2Proof.Machine.execFabricOutOfRange e who addr s
  | .windowEnableFrameStart e => Sys2Proof.Machine.execWindowEnableFrameStart e s
  | .gatehouseResetDone e => Sys2Proof.Machine.execGatehouseResetDone e s
  | .semaphoreEntrySteal e k hart addr width => Sys2Proof.Machine.execSemaphoreEntrySteal e k hart addr width s
  | .uncorrectableHeader e rx => Sys2Proof.Machine.execUncorrectableHeader e rx s
  | .canBusOff e ctrl => Sys2Proof.Machine.execCanBusOff e ctrl s
  | .qbvListSwap e port => Sys2Proof.Machine.execQbvListSwap e port s
  | .repHeadWrite e pair head => Sys2Proof.Machine.execRepHeadWrite e pair head s
  | .mkaFrame e partner ok => Sys2Proof.Machine.execMkaFrame e partner ok s
  | .controlPortLinkLoss e ms => Sys2Proof.Machine.execControlPortLinkLoss e ms s
  | .displayLinkChange e pipe up => Sys2Proof.Machine.execDisplayLinkChange e pipe up s
  | .serrHbToggle e => Sys2Proof.Machine.execSerrHbToggle e s

end Sys2Proof.Machine
end

