-- ==== Sys2Proof/WellFormed.lean ====
section
/-! DEFINITION. Well-formed commands: every index lies within what the manual gives the unit, every field within its width. -/
namespace Sys2Proof

/-- Two halves (R15). -/
def Ev.wf (e : Ev) : Bool := decide (e.half < 2)

/-- Control sessions, 256 Teller pages (R26), 8 ring pairs (R396). -/
def Origin.wf : Origin → Bool
  | .session p => decide (p < 2 ^ 32)
  | .teller v => decide (v < 256)
  | .ring p => decide (p < 8)

/-- The fields of the message header (R387). -/
def Msg.wf (m : Msg) : Bool := m.org.wf && decide (m.tag < 2 ^ 32) && decide (m.gen < 2 ^ 16) && decide (m.vdi < 2 ^ 8)

/-- A frame header (R378). -/
def FrameHdr.wf (f : FrameHdr) : Bool := decide (f.partner < 2 ^ 32) && decide (f.seq < 2 ^ 32) && decide (f.ack < 2 ^ 32) && decide (f.half < 256)

/-- Queues 0-16,383 (R26), entries 0-4,095 (R221). -/
def Work.wf : Work → Bool
  | .queue q => decide (q < 16384)
  | .entry n => decide (n < 4096)

/-- 12 application cores and 136 physical cores of 8 DMA channels a half (R15, R19, R89). -/
def Master.wf : Master → Bool
  | .app h => decide (h < 12)
  | .dma p _ => decide (p < 136)
  | .steward => true
  | .other => true

/-- Groups (R19), cores, and channels of a shuttered unit (R341). -/
def ShutUnit.wf : ShutUnit → Bool
  | .group g => decide (g < 8)
  | .core p => decide (p < 136)
  | .chan c => decide (c < 64)

/-- 24 junction sensors and 2 stacks (R501, R327). -/
def TripSrc.wf : TripSrc → Bool
  | .junction k => decide (k < 24)
  | .stack k => decide (k < 2)

/-- The sender of a read outside a tile (R120). -/
def ReadKind.wf : ReadKind → Bool
  | .appLoad h => decide (h < 12)
  | .window v => decide (v < 256)
  | .rmw v => decide (v < 256)
  | .hatch t => decide (t < 4096)

/-- The two counts of a verdict (R268). -/
def Verdict.wf (v : Verdict) : Bool := decide (v.failIndex < 2 ^ 32) && decide (v.failCount < 2 ^ 32)

/-- Mark, port and tag of a Hatch packet (R349). -/
def Pkt.wf (k : Pkt) : Bool := decide (k.mark < 16) && decide (k.src < 256) && decide (k.tag < 4096)

/-- 64 lanes of a module, and the 5-bit pool and 11-bit units of a credit return (R346). -/
def FlitEnd.wf (t : FlitEnd) : Bool := decide (t.lane < 64) && decide (t.pool < 32) && decide (t.units < 2048)

/-- Sequence and release of a Hatch message (R349). -/
def MsgH.wf (x : MsgH) : Bool := decide (x.seq < 2 ^ 16) && decide (x.ver < 2 ^ 16)

/-- Pseudo-channels, banks and rows (R323), and at most 64 requests served of a queue (R322). -/
def DramReq.wf (d : DramReq) : Bool := decide (d.pc < 64) && decide (d.bank < 48) && decide (d.row < 16384) && decide (d.turns.length ≤ 64)

/-- A CAN frame carries at most 2,048 bytes (CAN XL). -/
def Frame.wf (f : Frame) : Bool := decide (f.idKind < 4) && decide (f.id < 2 ^ 32) && decide (f.data.length ≤ 2048)

/-- The 16 saved integer registers of R475 in 64 bits. -/
def HartSave.wf (x : HartSave) : Bool := decide (x.pc < 2 ^ 64) && decide (x.regs.length ≤ 16) && x.regs.all fun r => decide (r < 2 ^ 64)

/-- One, two or four samples and up to four colour attachments; primitives of up to three vertices (R427). -/
def RenderRun.wf (r : RenderRun) : Bool :=
  decide (r.samples = 1 ∨ r.samples = 2 ∨ r.samples = 4) && decide (r.colours.length ≤ 4) && r.draws.all fun d => decide (1 ≤ d.verts) && decide (d.verts ≤ 3)

/-- A command that the environment can send. -/
def Instr.wf : Instr → Bool
  | .powerGoodRise e => e.wf
  | .powerGoodFall e => e.wf
  | .pwrgoodMismatchTimeout e => e.wf
  | .resetNLow e ns => e.wf && decide (ns < 2 ^ 64)
  | .resetNRelease e => e.wf
  | .crystalJudgedStable e => e.wf
  | .crystalStartTimeout e => e.wf
  | .pllJudgedLocked e => e.wf
  | .clockMonitorFailure e _ => e.wf
  | .rcOscillatorCheck e ppm => e.wf && decide (ppm < 2 ^ 64)
  | .coreDividerChange e p div => e.wf && decide (p < 136) && decide (div < 2 ^ 64)
  | .thermalSensorPoll e _ => e.wf
  | .trimStepTimer e => e.wf
  | .thermalTrip e src => e.wf && src.wf
  | .tripCooldownRelease e _ _ => e.wf
  | .dramTemperaturePoll e _ _ => e.wf
  | .pmbusPoll e _ _ => e.wf
  | .vrAlertNLow e => e.wf
  | .emergencyClear e => e.wf
  | .canRouteWake e ctrl => e.wf && decide (ctrl < 8)
  | .tc10Wake e => e.wf
  | .wakeInputBall e ball => e.wf && decide (ball < 16)
  | .parkEntryComplete e => e.wf
  | .sleepEntryComplete e => e.wf
  | .coreReset e p cause => e.wf && decide (p < 136) && decide (cause < 256)
  | .coreResetDone e p => e.wf && decide (p < 136)
  | .halfComputeRestart e reason _ => e.wf && decide (reason < 2 ^ 64)
  | .halfRimRestart e reason _ => e.wf && decide (reason < 2 ^ 64)
  | .packageWarmReset e reason _ => e.wf && decide (reason < 2 ^ 64)
  | .gatehouseReady e => e.wf
  | .rejoinActivation e vt => e.wf && decide (vt < 2 ^ 64)
  | .telDbTailWrite e q v => e.wf && decide (q < 16384) && decide (v < 2 ^ 64)
  | .telDbCqHeadWrite e q v => e.wf && decide (q < 16384) && decide (v < 2 ^ 64)
  | .coreFreeDispatch e p => e.wf && decide (p < 136)
  | .contextFetchDone e ctx => e.wf && decide (ctx < 2 ^ 20)
  | .contextWriteBack e ctx => e.wf && decide (ctx < 2 ^ 20)
  | .tileEnd e p _ => e.wf && decide (p < 136)
  | .tileWatchdogFire e p => e.wf && decide (p < 136)
  | .dmaDescriptorEnd e p desc => e.wf && decide (p < 136) && decide (desc < 2 ^ 64)
  | .dmaDescriptorFailure e p desc _ => e.wf && decide (p < 136) && decide (desc < 2 ^ 64)
  | .detectedMemoryError e p mem off => e.wf && decide (p < 136) && decide (mem < 8) && decide (off < 2 ^ 64)
  | .nonTileReadError e who addr => e.wf && who.wf && decide (addr < 2 ^ 64)
  | .rowWriteLands e p row => e.wf && decide (p < 136) && decide (row < 12288)
  | .tokenBarrierPass e p desc => e.wf && decide (p < 136) && decide (desc < 2 ^ 64)
  | .preemptionRequest e ctx => e.wf && decide (ctx < 2 ^ 20)
  | .graphicsSwitchRequest e part => e.wf && decide (part < 16)
  | .modeSwitchDone e p => e.wf && decide (p < 136)
  | .waitLocalEvaluation e q => e.wf && decide (q < 16384)
  | .waitLimitExpiry e q => e.wf && decide (q < 16384)
  | .remoteWatchRepeat e q => e.wf && decide (q < 16384)
  | .remoteWatchReply e q gen idx => e.wf && decide (q < 16384) && decide (gen < 65536) && decide (idx < 2 ^ 32)
  | .rowConditionEvaluation e w => e.wf && w.wf
  | .lagLimitExpiry e w => e.wf && w.wf
  | .windowPreArm e n => e.wf && decide (n < 4096)
  | .windowInstanceStart e n => e.wf && decide (n < 4096)
  | .windowInstanceEndUnmet e n => e.wf && decide (n < 4096)
  | .bankActivationVt e => e.wf
  | .majorFrameEndDisable e => e.wf
  | .dispatchWatchdog e d => e.wf && decide (d < 4)
  | .dispatchRestartDone e d => e.wf && decide (d < 4)
  | .stewardWatchdog e => e.wf
  | .stewardRestartDone e => e.wf
  | .lockstepMismatch e => e.wf
  | .sieveCommandStart e w => e.wf && w.wf
  | .sieveCommandEnd e => e.wf
  | .sieveDataError e => e.wf
  | .sieveWatchdog e => e.wf
  | .patrolRowRead e row _ => e.wf && decide (row < 2 ^ 20)
  | .strongroomBankRetire e bank => e.wf && decide (bank < 68)
  | .bankMoveDone e _ => e.wf
  | .groupWithdrawal e g => e.wf && decide (g < 8)
  | .granuleZeroed e => e.wf
  | .shutterClose e unit => e.wf && unit.wf
  | .shutterDrainTimeout e unit => e.wf && unit.wf
  | .shutDoorRefusal e unit who => e.wf && unit.wf && who.wf
  | .groupReopenDone e g => e.wf && decide (g < 8)
  | .modelLoadDone e key vdi => e.wf && decide (key < 2 ^ 64) && decide (vdi < 256)
  | .longPacket e rx vc dt _ _ _ => e.wf && decide (rx < 8) && decide (vc < 16) && decide (dt < 64)
  | .frameStart e hd vc frameNo => e.wf && decide (hd.rx < 8) && decide (vc < 16) && decide (frameNo < 65536)
  | .frameEnd e hd vc => e.wf && decide (hd.rx < 8) && decide (vc < 16)
  | .frameCloseTimeout e slot => e.wf && decide (slot < 32)
  | .embeddedDataLine e hd vc _ => e.wf && decide (hd.rx < 8) && decide (vc < 16)
  | .channelResultDelivered e n => e.wf && decide (n < 4096)
  | .roundDueTime e task round => e.wf && decide (task < 4096) && decide (round < 2 ^ 32)
  | .tallyJudgement e task round => e.wf && decide (task < 4096) && decide (round < 2 ^ 32)
  | .verdictExchange e task round v => e.wf && decide (task < 4096) && decide (round < 2 ^ 32) && v.wf
  | .verdictExchangeTimeout e task round => e.wf && decide (task < 4096) && decide (round < 2 ^ 32)
  | .lateResultDiscard e task round => e.wf && decide (task < 4096) && decide (round < 2 ^ 32)
  | .locatingSearchStep e task => e.wf && decide (task < 4096)
  | .assayDue e task ch => e.wf && decide (task < 4096) && decide (ch < 2)
  | .assayVerdict e task round => e.wf && decide (task < 4096) && decide (round < 2 ^ 32)
  | .auditDue e => e.wf
  | .auditDone e p _ block => e.wf && decide (p < 136) && decide (block < 256)
  | .auditOverdue e p => e.wf && decide (p < 136)
  | .dutyHandover e p => e.wf && decide (p < 136)
  | .degradedEntry e _ => e.wf
  | .serrHbCheck e _ => e.wf
  | .yieldHalf e => e.wf
  | .flitReceive e module _ _ seq tail => e.wf && decide (module < 3) && decide (seq < 2 ^ 32) && tail.wf
  | .hatchLaneRepair e module lane => e.wf && decide (module < 3) && decide (lane < 64)
  | .hatchModuleFailover e module => e.wf && decide (module < 3)
  | .hatchLinkLoss e => e.wf
  | .hatchLinkTraining e peerRelease _ => e.wf && decide (peerRelease < 65536)
  | .hatchViolation e code type tag => e.wf && decide (code < 2 ^ 64) && decide (type < 2 ^ 64) && decide (tag < 4096)
  | .mWrite e k addr _ => e.wf && k.wf && decide (addr < 2 ^ 64)
  | .mRead e k addr len => e.wf && k.wf && decide (addr < 2 ^ 64) && decide (len < 2 ^ 64)
  | .amo e k _ addr width val => e.wf && k.wf && decide (addr < 2 ^ 64) && decide (width < 2 ^ 64) && decide (val < 2 ^ 64)
  | .loadReserved e k hart addr width => e.wf && k.wf && decide (hart < 12) && decide (addr < 2 ^ 64) && decide (width < 2 ^ 64)
  | .storeConditional e k hart addr width val => e.wf && k.wf && decide (hart < 12) && decide (addr < 2 ^ 64) && decide (width < 2 ^ 64) && decide (val < 2 ^ 64)
  | .semaphoreEntryExpiry e idx => e.wf && decide (idx < 256)
  | .cpl e tag _ => e.wf && decide (tag < 4096)
  | .cplSt e tag _ => e.wf && decide (tag < 4096)
  | .resWr e addr _ => e.wf && decide (addr < 2 ^ 64)
  | .msgInterrupt e x hart ident => e.wf && x.wf && decide (hart < 12) && decide (ident < 65536)
  | .msgQueueCompletionIrq e x q => e.wf && x.wf && decide (q < 16384)
  | .msgRemoteWatchRequest e x q gen idx addr val => e.wf && x.wf && decide (q < 16384) && decide (gen < 65536) && decide (idx < 2 ^ 32) && decide (addr < 2 ^ 64) && decide (val < 2 ^ 64)
  | .msgRemoteWatchReply e x q gen idx => e.wf && x.wf && decide (q < 16384) && decide (gen < 65536) && decide (idx < 2 ^ 32)
  | .msgGatewayFrame e x f dst => e.wf && x.wf && f.wf && decide (dst < 2 ^ 64)
  | .msgControlRelay e x _ => e.wf && x.wf
  | .resMsgResult e x task ch round _ => e.wf && x.wf && decide (task < 4096) && decide (ch < 2) && decide (round < 2 ^ 32)
  | .resMsgVerdict e x task round v => e.wf && x.wf && decide (task < 4096) && decide (round < 2 ^ 32) && v.wf
  | .vtCompare e x peerVt => e.wf && x.wf && decide (peerVt < 2 ^ 64)
  | .resMsgGoingDown e x kind reason vt => e.wf && x.wf && decide (kind < 2 ^ 64) && decide (reason < 2 ^ 64) && decide (vt < 2 ^ 64)
  | .resMsgGatehouseState e x _ => e.wf && x.wf
  | .resMsgRepairNotice e x release => e.wf && x.wf && decide (release < 65536)
  | .canFrameReceive e bus f => e.wf && decide (bus < 16) && f.wf
  | .streamIngress e slot seqNum _ => e.wf && decide (slot < 32) && decide (seqNum < 2 ^ 64)
  | .streamEgressHoldExpiry e slot => e.wf && decide (slot < 32)
  | .gatewayQueueDoorbell e gq f => e.wf && decide (gq < 16) && f.wf
  | .busOffRecovery e ctrl => e.wf && decide (ctrl < 8)
  | .hello e partner seq pid => e.wf && decide (partner < 2 ^ 32) && decide (seq < 2 ^ 32) && decide (pid < 2 ^ 64)
  | .mailbox e hd _ => e.wf && hd.wf
  | .regRead e hd vdi off count => e.wf && hd.wf && decide (vdi < 256) && decide (off < 2 ^ 64) && decide (count < 2 ^ 64)
  | .regWrite e hd vdi off _ => e.wf && hd.wf && decide (vdi < 256) && decide (off < 2 ^ 64)
  | .dataWrite e hd off _ => e.wf && hd.wf && decide (off < 2 ^ 64)
  | .dataRead e hd off len => e.wf && hd.wf && decide (off < 2 ^ 64) && decide (len < 2 ^ 64)
  | .ringFrame e hd index _ => e.wf && hd.wf && decide (index < 2 ^ 64)
  | .peerWatch e src q gen idx addr val rpeer => e.wf && decide (src < 2 ^ 64) && decide (q < 16384) && decide (gen < 65536) && decide (idx < 2 ^ 32) && decide (addr < 2 ^ 64) && decide (val < 2 ^ 64) && decide (rpeer < 2 ^ 64)
  | .peerReply e src q gen idx => e.wf && decide (src < 2 ^ 64) && decide (q < 16384) && decide (gen < 65536) && decide (idx < 2 ^ 32)
  | .malformedFrame e partner _ => e.wf && decide (partner < 2 ^ 32)
  | .malformedBlockExpiry e partner => e.wf && decide (partner < 2 ^ 32)
  | .sessionIdleTimeout e partner => e.wf && decide (partner < 2 ^ 32)
  | .heartbeat e => e.wf
  | .latchLeaseExpiry e => e.wf
  | .controlPortRetire e _ => e.wf
  | .latchTake e m pid => e.wf && m.wf && decide (pid < 2 ^ 384)
  | .latchRenew e m => e.wf && m.wf
  | .latchRelease e m => e.wf && m.wf
  | .latchQuery e m => e.wf && m.wf
  | .devInfo e m => e.wf && m.wf
  | .statsRead e m block _ unit reg index count => e.wf && m.wf && decide (block < 2 ^ 384) && decide (unit < 2 ^ 384) && decide (reg < 2 ^ 384) && decide (index < 2 ^ 384) && decide (count < 2 ^ 384)
  | .incidentRead e m first count dst => e.wf && m.wf && decide (first < 2 ^ 384) && decide (count < 2 ^ 384) && decide (dst < 2 ^ 384)
  | .accountRead e m ctx dst => e.wf && m.wf && decide (ctx < 2 ^ 384) && decide (dst < 2 ^ 384)
  | .winWrite e m first count src => e.wf && m.wf && decide (first < 2 ^ 384) && decide (count < 2 ^ 384) && decide (src < 2 ^ 384)
  | .winActivate e m vt _ => e.wf && m.wf && decide (vt < 2 ^ 384)
  | .winFrame e m length phase => e.wf && m.wf && decide (length < 2 ^ 384) && decide (phase < 2 ^ 384)
  | .partWrite e m part cfg cores => e.wf && m.wf && decide (part < 2 ^ 384) && decide (cfg < 2 ^ 384) && decide (cores < 2 ^ 384)
  | .taskWrite e m task src => e.wf && m.wf && decide (task < 2 ^ 384) && decide (src < 2 ^ 384)
  | .tlyCfg e m base staging audit _ => e.wf && m.wf && decide (base < 2 ^ 384) && decide (staging < 2 ^ 384) && decide (audit < 2 ^ 384)
  | .winEnableSet e m vt => e.wf && m.wf && decide (vt < 2 ^ 384)
  | .winEnableClear e m => e.wf && m.wf
  | .mntShadow e m cls cfg ports => e.wf && m.wf && decide (cls < 2 ^ 384) && decide (cfg < 2 ^ 384) && decide (ports < 2 ^ 384)
  | .mntCommit e m => e.wf && m.wf
  | .mntFb e m cfg => e.wf && m.wf && decide (cfg < 2 ^ 384)
  | .strAlloc e m count group => e.wf && m.wf && decide (count < 2 ^ 384) && decide (group < 2 ^ 384)
  | .strFree e m off count => e.wf && m.wf && decide (off < 2 ^ 384) && decide (count < 2 ^ 384)
  | .cacheSize e m count => e.wf && m.wf && decide (count < 2 ^ 384)
  | .modelLoad e m key src size => e.wf && m.wf && decide (key < 2 ^ 384) && decide (src < 2 ^ 384) && decide (size < 2 ^ 384)
  | .modelPin e m key => e.wf && m.wf && decide (key < 2 ^ 384)
  | .modelUnpin e m key => e.wf && m.wf && decide (key < 2 ^ 384)
  | .strPatrol e m _ => e.wf && m.wf
  | .rxCfg e m rx cfg => e.wf && m.wf && decide (rx < 2 ^ 384) && decide (cfg < 2 ^ 384)
  | .streamCfg e m slot src => e.wf && m.wf && decide (slot < 2 ^ 384) && decide (src < 2 ^ 384)
  | .routeWrite e m count src => e.wf && m.wf && decide (count < 2 ^ 384) && decide (src < 2 ^ 384)
  | .routeDelete e m count src => e.wf && m.wf && decide (count < 2 ^ 384) && decide (src < 2 ^ 384)
  | .fanoutWrite e m first count src => e.wf && m.wf && decide (first < 2 ^ 384) && decide (count < 2 ^ 384) && decide (src < 2 ^ 384)
  | .gtwCfg e m ctl ovf => e.wf && m.wf && decide (ctl < 2 ^ 384) && decide (ovf < 2 ^ 384)
  | .slotCfg e m slot src => e.wf && m.wf && decide (slot < 2 ^ 384) && decide (src < 2 ^ 384)
  | .portCfg e m udp ip4 pfx4 pfx6 ip6 => e.wf && m.wf && decide (udp < 2 ^ 384) && decide (ip4 < 2 ^ 384) && decide (pfx4 < 2 ^ 384) && decide (pfx6 < 2 ^ 384) && decide (ip6 < 2 ^ 384)
  | .qbvWrite e m port count cycle base src => e.wf && m.wf && decide (port < 2 ^ 384) && decide (count < 2 ^ 384) && decide (cycle < 2 ^ 384) && decide (base < 2 ^ 384) && decide (src < 2 ^ 384)
  | .peerFenceWrite e m first count src => e.wf && m.wf && decide (first < 2 ^ 384) && decide (count < 2 ^ 384) && decide (src < 2 ^ 384)
  | .peerListWrite e m first count src => e.wf && m.wf && decide (first < 2 ^ 384) && decide (count < 2 ^ 384) && decide (src < 2 ^ 384)
  | .vdiCreate e m vdi profile mark src => e.wf && m.wf && decide (vdi < 2 ^ 384) && decide (profile < 2 ^ 384) && decide (mark < 2 ^ 384) && decide (src < 2 ^ 384)
  | .vdiReset e m => e.wf && m.wf
  | .vdiRemove e m vdi => e.wf && m.wf && decide (vdi < 2 ^ 384)
  | .logStart e m vdi src => e.wf && m.wf && decide (vdi < 2 ^ 384) && decide (src < 2 ^ 384)
  | .logSwap e m vdi => e.wf && m.wf && decide (vdi < 2 ^ 384)
  | .quiesce e m vdi => e.wf && m.wf && decide (vdi < 2 ^ 384)
  | .exportImage e m vdi src => e.wf && m.wf && decide (vdi < 2 ^ 384) && decide (src < 2 ^ 384)
  | .importImage e m vdi src => e.wf && m.wf && decide (vdi < 2 ^ 384) && decide (src < 2 ^ 384)
  | .resumeVdi e m vdi => e.wf && m.wf && decide (vdi < 2 ^ 384)
  | .abortMigration e m vdi => e.wf && m.wf && decide (vdi < 2 ^ 384)
  | .releaseVdi e m vdi => e.wf && m.wf && decide (vdi < 2 ^ 384)
  | .ctxWrite e m ctx src => e.wf && m.wf && decide (ctx < 2 ^ 384) && decide (src < 2 ^ 384)
  | .queueWrite e m q src => e.wf && m.wf && decide (q < 2 ^ 384) && decide (src < 2 ^ 384)
  | .queueEnable e m q => e.wf && m.wf && decide (q < 2 ^ 384)
  | .queueSuspend e m q => e.wf && m.wf && decide (q < 2 ^ 384)
  | .queueResume e m q => e.wf && m.wf && decide (q < 2 ^ 384)
  | .queueDisable e m q => e.wf && m.wf && decide (q < 2 ^ 384)
  | .lateArrivalDiscard e q gen => e.wf && decide (q < 16384) && decide (gen < 65536)
  | .svcRead e m off bytes dst => e.wf && m.wf && decide (off < 2 ^ 384) && decide (bytes < 2 ^ 384) && decide (dst < 2 ^ 384)
  | .svcRebuild e m _ _ => e.wf && m.wf
  | .portRestore e m _ => e.wf && m.wf
  | .halfRestartH e m half => e.wf && m.wf && decide (half < 2 ^ 384)
  | .halfRestartM e m half => e.wf && m.wf && decide (half < 2 ^ 384)
  | .fwWrite e m off bytes src => e.wf && m.wf && decide (off < 2 ^ 384) && decide (bytes < 2 ^ 384) && decide (src < 2 ^ 384)
  | .fwActivate e m mask => e.wf && m.wf && decide (mask < 2 ^ 384)
  | .fwCommit e m => e.wf && m.wf
  | .fwWithdraw e m => e.wf && m.wf
  | .attest e m nonce dst => e.wf && m.wf && decide (nonce < 2 ^ 384) && decide (dst < 2 ^ 384)
  | .dspCfgPipe e m pipe src => e.wf && m.wf && decide (pipe < 2 ^ 384) && decide (src < 2 ^ 384)
  | .dspCfgTelltale e m pipe src => e.wf && m.wf && decide (pipe < 2 ^ 384) && decide (src < 2 ^ 384)
  | .powerReqRun e m => e.wf && m.wf
  | .powerReqPark e m => e.wf && m.wf
  | .powerReqSleep e m => e.wf && m.wf
  | .unknownOpcode e m opcode => e.wf && m.wf && decide (opcode < 2 ^ 384)
  | .telMbxGo e vdi => e.wf && decide (vdi < 256)
  | .tellerMailboxReply e vdi => e.wf && decide (vdi < 256)
  | .reqTailWrite e pair tail => e.wf && decide (pair < 8) && decide (tail < 2 ^ 64)
  | .registerWrite e who _ unit index word val => e.wf && who.wf && decide (unit < 65536) && decide (index < 4096) && decide (word < 16) && decide (val < 2 ^ 64)
  | .render e q run => e.wf && decide (q < 16384) && run.wf
  | .verticalBlank e pipe nextS => e.wf && decide (pipe < 2) && decide (nextS < 2 ^ 64)
  | .telltaleCrcCompare e pipe _ => e.wf && decide (pipe < 2)
  | .dramReadEcc e pc bank row _ => e.wf && decide (pc < 64) && decide (bank < 64) && decide (row < 2 ^ 17)
  | .rowRemap e pc bank row lost => e.wf && decide (pc < 64) && decide (bank < 64) && decide (row < 2 ^ 17) && decide (lost < 2 ^ 64)
  | .ecsScrub e pc bank row => e.wf && decide (pc < 64) && decide (bank < 64) && decide (row < 2 ^ 17)
  | .pseudoChannelRetire e idx _ => e.wf && decide (idx < 64)
  | .stackThrottle e stack level => e.wf && decide (stack < 2) && decide (level < 65536)
  | .guaranteeMiss e port cls => e.wf && decide (port < 142) && decide (cls < 16)
  | .portRequestHeldRelease e port cls to_ bytes _ => e.wf && decide (port < 142) && decide (cls < 16) && to_.wf && decide (bytes < 2 ^ 64)
  | .serviceRecordWriteDone e _ => e.wf
  | .serviceRecordLoad e _ _ => e.wf
  | .bootSlotFailure e slot => e.wf && decide (slot < 2)
  | .trialBootConfirm e => e.wf
  | .configStoreApply e _ => e.wf
  | .soakTimer e => e.wf
  | .vtServoStep e _ => e.wf
  | .vtDeviationIncident e _ => e.wf
  | .doorCall e hart vault entry save => e.wf && decide (hart < 12) && decide (vault < 64) && decide (entry < 2 ^ 64) && save.wf
  | .doorRet e hart a0 a1 => e.wf && decide (hart < 12) && decide (a0 < 2 ^ 64) && decide (a1 < 2 ^ 64)
  | .doorCreate e hart _ addr => e.wf && decide (hart < 12) && decide (addr < 2 ^ 64)
  | .vaultSealDone e vault => e.wf && decide (vault < 64)
  | .doorDestroy e hart _ vault => e.wf && decide (hart < 12) && decide (vault < 64)
  | .vaultDestroyDone e vault => e.wf && decide (vault < 64)
  | .doorSubmit e hart addr => e.wf && decide (hart < 12) && decide (addr < 2 ^ 64)
  | .doorClaim e hart code => e.wf && decide (hart < 12) && decide (code < 2 ^ 64)
  | .doorRelease e hart code => e.wf && decide (hart < 12) && decide (code < 2 ^ 64)
  | .doorKey e hart addr label => e.wf && decide (hart < 12) && decide (addr < 2 ^ 64) && decide (label < 2 ^ 64)
  | .vaultQuantumExpiry e hart => e.wf && decide (hart < 12)
  | .vaultException e hart cause => e.wf && decide (hart < 12) && decide (cause < 2 ^ 64)
  | .secureInterrupt e hart ident save => e.wf && decide (hart < 12) && decide (ident < 65536) && save.wf
  | .vaultFilterRefusal e vault who => e.wf && decide (vault < 64) && who.wf
  | .pufReconstruction e _ => e.wf
  | .debugUnlock e record => e.wf && decide (record < 2 ^ 64)
  | .fabricOutOfRange e who addr => e.wf && who.wf && decide (addr < 2 ^ 64)
  | .windowEnableFrameStart e => e.wf
  | .gatehouseResetDone e => e.wf
  | .semaphoreEntrySteal e k hart addr width => e.wf && k.wf && decide (hart < 12) && decide (addr < 2 ^ 64) && decide (width < 2 ^ 64)
  | .uncorrectableHeader e rx => e.wf && decide (rx < 8)
  | .canBusOff e ctrl => e.wf && decide (ctrl < 8)
  | .qbvListSwap e port => e.wf && decide (port < 4)
  | .repHeadWrite e pair head => e.wf && decide (pair < 8) && decide (head < 2 ^ 64)
  | .mkaFrame e partner _ => e.wf && decide (partner < 2 ^ 32)
  | .controlPortLinkLoss e ms => e.wf && decide (ms < 2 ^ 64)
  | .displayLinkChange e pipe _ => e.wf && decide (pipe < 2)
  | .serrHbToggle e => e.wf

end Sys2Proof
end

