-- ==== Sys2Proof/Safety.lean ====
section
/-! DEFINITION. What claims are stated in: the invariant of every step, runs, mailbox requests, and the commands that act within one half. -/
namespace Sys2Proof.Machine

/-- The invariant that every step keeps: the memory is in its canonical form. -/
def State.inv (s : State) : Prop := Memory.wf s.mem = true

/-- `n` steps that each answer a next state. -/
def runs : Nat → State → Option State
  | 0, s => some s
  | n + 1, s => match step s with
    | .next t => runs n t
    | _ => none

/-- The mailbox message that a command is: the message, its opcode and scope (R391), and whether it needs the compute domain. -/
def request : Instr → Option (Msg × Nat × Scope × Bool)
  | .latchTake _ m _ => some (m, 0x01, .any, false)
  | .latchRenew _ m => some (m, 0x02, .l, false)
  | .latchRelease _ m => some (m, 0x03, .l, false)
  | .latchQuery _ m => some (m, 0x04, .a, false)
  | .devInfo _ m => some (m, 0x10, .a, false)
  | .statsRead _ m _ clear _ _ _ _ => some (m, 0x11, if clear then .l else .a, false)
  | .incidentRead _ m _ _ _ => some (m, 0x12, .a, false)
  | .accountRead _ m _ _ => some (m, 0x13, .v, false)
  | .winWrite _ m _ _ _ => some (m, 0x20, .l, false)
  | .winActivate _ m _ _ => some (m, 0x21, .l, false)
  | .winFrame _ m _ _ => some (m, 0x22, .l, false)
  | .partWrite _ m _ _ _ => some (m, 0x23, .l, false)
  | .taskWrite _ m _ _ => some (m, 0x24, .l, false)
  | .tlyCfg _ m _ _ _ _ => some (m, 0x25, .l, false)
  | .winEnableSet _ m _ => some (m, 0x26, .l, false)
  | .winEnableClear _ m => some (m, 0x26, .l, false)
  | .mntShadow _ m _ _ _ => some (m, 0x30, .l, false)
  | .mntCommit _ m => some (m, 0x31, .l, false)
  | .mntFb _ m _ => some (m, 0x32, .l, false)
  | .strAlloc _ m _ _ => some (m, 0x40, .vl, true)
  | .strFree _ m _ _ => some (m, 0x41, .vl, true)
  | .cacheSize _ m _ => some (m, 0x42, .l, false)
  | .modelLoad _ m _ _ _ => some (m, 0x43, .v, true)
  | .modelPin _ m _ => some (m, 0x44, .v, true)
  | .modelUnpin _ m _ => some (m, 0x44, .v, true)
  | .strPatrol _ m _ => some (m, 0x45, .l, false)
  | .rxCfg _ m _ _ => some (m, 0x50, .l, false)
  | .streamCfg _ m _ _ => some (m, 0x51, .l, false)
  | .routeWrite _ m _ _ => some (m, 0x60, .l, false)
  | .routeDelete _ m _ _ => some (m, 0x61, .l, false)
  | .fanoutWrite _ m _ _ _ => some (m, 0x62, .l, false)
  | .gtwCfg _ m _ _ => some (m, 0x63, .l, false)
  | .slotCfg _ m _ _ => some (m, 0x64, .l, false)
  | .portCfg _ m _ _ _ _ _ => some (m, 0x70, .l, false)
  | .qbvWrite _ m _ _ _ _ _ => some (m, 0x71, .l, false)
  | .peerFenceWrite _ m _ _ _ => some (m, 0x72, .l, false)
  | .peerListWrite _ m _ _ _ => some (m, 0x73, .l, false)
  | .vdiCreate _ m _ _ _ _ => some (m, 0x80, .l, false)
  | .vdiReset _ m => some (m, 0x81, .v, false)
  | .vdiRemove _ m _ => some (m, 0x82, .l, false)
  | .logStart _ m _ _ => some (m, 0x83, .l, false)
  | .logSwap _ m _ => some (m, 0x83, .l, false)
  | .quiesce _ m _ => some (m, 0x83, .l, true)
  | .exportImage _ m _ _ => some (m, 0x83, .l, true)
  | .importImage _ m _ _ => some (m, 0x83, .l, false)
  | .resumeVdi _ m _ => some (m, 0x83, .l, true)
  | .abortMigration _ m _ => some (m, 0x83, .l, false)
  | .releaseVdi _ m _ => some (m, 0x83, .l, false)
  | .ctxWrite _ m _ _ => some (m, 0x84, .v, false)
  | .queueWrite _ m _ _ => some (m, 0x85, .v, true)
  | .queueEnable _ m _ => some (m, 0x86, .v, true)
  | .queueSuspend _ m _ => some (m, 0x86, .v, true)
  | .queueResume _ m _ => some (m, 0x86, .v, true)
  | .queueDisable _ m _ => some (m, 0x86, .v, true)
  | .svcRead _ m _ _ _ => some (m, 0x90, .a, false)
  | .svcRebuild _ m _ _ => some (m, 0x91, .l, false)
  | .portRestore _ m _ => some (m, 0x92, .l, false)
  | .halfRestartH _ m _ => some (m, 0x93, .l, false)
  | .halfRestartM _ m _ => some (m, 0x93, .l, false)
  | .fwWrite _ m _ _ _ => some (m, 0x94, .l, false)
  | .fwActivate _ m _ => some (m, 0x95, .l, false)
  | .fwCommit _ m => some (m, 0x96, .l, false)
  | .fwWithdraw _ m => some (m, 0x97, .l, false)
  | .attest _ m _ _ => some (m, 0xA0, .a, false)
  | .dspCfgPipe _ m _ _ => some (m, 0xB0, .l, false)
  | .dspCfgTelltale _ m _ _ => some (m, 0xB0, .l, false)
  | .powerReqRun _ m => some (m, 0xC0, .l, false)
  | .powerReqPark _ m => some (m, 0xC0, .l, false)
  | .powerReqSleep _ m => some (m, 0xC0, .l, false)
  | .unknownOpcode _ m opcode => if listedOps.contains opcode then none else some (m, opcode, .a, false)
  | _ => none

/-- Commands whose whole effect lies in the registers and tables of the half that they name. -/
def onOneHalf : Instr → Bool
  | .crystalJudgedStable _ => true
  | .crystalStartTimeout _ => true
  | .coreDividerChange _ _ _ => true
  | .trimStepTimer _ => true
  | .tripCooldownRelease _ _ _ => true
  | .contextFetchDone _ _ => true
  | .contextWriteBack _ _ => true
  | .strongroomBankRetire _ _ => true
  | .bankMoveDone _ _ => true
  | .shutterDrainTimeout _ _ => true
  | .modelLoadDone _ _ _ => true
  | .lateResultDiscard _ _ _ => true
  | .dutyHandover _ _ => true
  | .serrHbCheck _ _ => true
  | .hatchLinkLoss _ => true
  | .semaphoreEntryExpiry _ _ => true
  | .malformedBlockExpiry _ _ => true
  | .sessionIdleTimeout _ _ => true
  | .heartbeat _ => true
  | .controlPortRetire _ _ => true
  | .tellerMailboxReply _ _ => true
  | .reqTailWrite _ _ _ => true
  | .dramReadEcc _ _ _ _ _ => true
  | .rowRemap _ _ _ _ _ => true
  | .ecsScrub _ _ _ _ => true
  | .stackThrottle _ _ _ => true
  | .guaranteeMiss _ _ _ => true
  | .portRequestHeldRelease _ _ _ _ _ _ => true
  | .serviceRecordWriteDone _ _ => true
  | .serviceRecordLoad _ _ _ => true
  | .trialBootConfirm _ => true
  | .soakTimer _ => true
  | .vtDeviationIncident _ _ => true
  | .pufReconstruction _ _ => true
  | .windowEnableFrameStart _ => true
  | .uncorrectableHeader _ _ => true
  | .qbvListSwap _ _ => true
  | .repHeadWrite _ _ _ => true
  | .mkaFrame _ _ _ => true
  | .controlPortLinkLoss _ _ => true
  | .displayLinkChange _ _ _ => true
  | .serrHbToggle _ => true
  | _ => false

end Sys2Proof.Machine
end

