-- ==== Sys2Proof/Certificates/Slice0/Obligations.lean ====
section
/-! DEFINITION. The statements for the provers. The first are about every command, the invariant of a step, the memory and three rules of the manual; the
others go family by family and say of every command where it completes and with which next state: all that the next state does not name is as before. -/
open Sys2Proof Sys2Proof.Machine

/-- A step of a state whose queue has a command in front is that command on the state with the queue's rest. With an empty queue the step changes nothing,
which is the model's choice of log entry 5. (spec/opcode_table.json) -/
def Obligations.StepRunsTheFront : Prop :=
  (∀ (c : Instr) (r : List Instr) (s : State), s.pending = c :: r → step s = exec c { s with pending := r }) ∧
  (∀ s : State, s.pending = [] → step s = .next s)

/-- Every command in every state answers a next state. The queue of commands and the ordering code are as before, and the elapsed time has grown by the
time that the command carries (log entry 4, DESIGN CHOICE). (spec/00_scope.md) -/
def Obligations.EveryCommandAnswers : Prop :=
  ∀ (i : Instr) (s : State), ∃ t : State, exec i s = .next t ∧ t.pending = s.pending ∧ t.es = s.es ∧ t.now = s.now + i.ev.dt

/-- From every state whose memory is in its canonical form (addresses strictly rising, no byte equal to what an unlisted address reads as), a step that
answers a next state answers one whose memory is in that form. (spec/01_two_halves.md) -/
def Obligations.StepKeepsInvariant : Prop :=
  ∀ s t : State, s.inv → step s = .next t → t.inv

/-- From every state whose memory is in its canonical form, n steps all answer next states. The last one has the memory in canonical form, the same
ordering code, and the queue without its first n commands. (spec/00_scope.md) -/
def Obligations.RunsNeverStop : Prop :=
  ∀ (n : Nat) (s : State), s.inv → ∃ t : State, runs n s = some t ∧ t.inv ∧ t.es = s.es ∧ t.pending = s.pending.drop n

/-- After reset the memory is in its canonical form with nothing listed, the queue is empty, the Latch is free, no VDI exists and both rims are stopped.
In both halves the Hatch link is DOWN, the gateway is off with placement seed 1, the window sequencer and the Tally are disabled and no partition but
the critical one is of a kind. That reset is taken at the start of a P with the balls at their levels of log entry 16 and that unwritten memory reads
zero (log entry 3) are the model's choices. (spec/08_windows_queues_and_shares.md, spec/09_two_channels_and_the_tally.md,
spec/12_hatch_and_gateway.md, spec/18_clocks_power_and_resets.md) -/
def Obligations.ResetState : Prop :=
  State.reset.inv ∧ State.reset.mem = [] ∧ State.reset.pending = [] ∧ State.reset.latch.holder = none ∧ State.reset.vdis = [] ∧
  ∀ h : Nat, (State.reset.half h).clk.rimUp = false ∧ (State.reset.half h).fld F.HTC_LINK_state = 0 ∧ (State.reset.half h).fld F.GTW_CTL_enable = 0 ∧
    (State.reset.half h).fld F.GTW_CTL_seed = 1 ∧ (State.reset.half h).fld F.WIN_CTL_enable = 0 ∧ (State.reset.half h).fld F.TLY_CTL_enable = 0 ∧
    ∀ p : Nat, p < 16 → (State.reset.half h).fld F.WIN_PART_CFG_kind 0 p = if p = 0 then 1 else 0

/-- A store to accessible memory puts each byte at its address, and every other address reads as before. A result write across the Hatch to such memory
does the same and leaves the Latch, the VDIs and the contexts as they were. (spec/01_two_halves.md, spec/12_hatch_and_gateway.md) -/
def Obligations.StoresWriteTheirBytesAlone : Prop :=
  (∀ (s : State) (h a j : Nat) (l : List Byte) (v : Option Nat), s.access h a l.length v = .ok →
    (s.store h a l v).rdBytes j 1 = if a ≤ j ∧ j < a + l.length then [l.getD (j - a) 0] else s.rdBytes j 1) ∧
  (∀ (e : Ev) (a j : Nat) (l : List Byte) (s t : State), t = tick e s → t.takes e.half true = true → badSpan a l.length = false → t.present a = true →
    t.access e.half a l.length = .ok →
    ∃ u : State, exec (.resWr e a l) s = .next u ∧ u.latch = s.latch ∧ u.vdis = s.vdis ∧ u.ctxs = s.ctxs ∧
      u.rdBytes j 1 = if a ≤ j ∧ j < a + l.length then [l.getD (j - a) 0] else s.rdBytes j 1)

/-- For every mailbox message: after what its half had under way, a message that is refused has its reply with the refusal's status as its only effect,
and a message out of its turn or at a half whose steward does not serve has none. (spec/13_ports_teller_and_mailboxes.md, spec/16_rillis_firmware.md) -/
def Obligations.MessagesTurnedAway : Prop :=
  (∀ (i : Instr) (m : Msg) (op : Nat) (sc : Scope) (k : Bool) (st : Status) (s u : State), request i = some (m, op, sc, k) →
    u = (tick i.ev s).settleMsgs i.ev.half → (u.half i.ev.half).serves = true → u.turn i.ev.half m op = true →
    u.refusal i.ev.half m op sc k = some st → exec i s = .next (u.reply i.ev.half m op st 0)) ∧
  (∀ (i : Instr) (m : Msg) (op : Nat) (sc : Scope) (k : Bool) (s u : State), request i = some (m, op, sc, k) →
    u = (tick i.ev s).settleMsgs i.ev.half → ((u.half i.ev.half).serves && u.turn i.ev.half m op) = false → exec i s = .next u)

/-- A command whose effect lies within one half leaves the memory, the Latch, the VDIs, the contexts, the power state and the other half as they were, but
for the time that has passed there. (spec/01_two_halves.md) -/
def Obligations.OneHalfCommands : Prop :=
  ∀ (i : Instr) (s t : State), onOneHalf i = true → exec i s = .next t →
    t.mem = s.mem ∧ t.latch = s.latch ∧ t.vdis = s.vdis ∧ t.ctxs = s.ctxs ∧ t.power = s.power ∧
      t.half (peer i.ev.half) = (s.half (peer i.ev.half)).tick i.ev.dt

/-- In each half after reset with its record as shipped: group g (0-7) holds physical cores 17g to 17g + 16, its core 17g + 16 is the spare and serves no
logical index, and core 17g + k carries logical index 16g + k. (R19) -/
def Obligations.CoresAtShipment : Prop :=
  ∀ h g : Nat, g < 8 → (State.reset.half h).groupSpare g = some (17 * g + 16) ∧ (State.reset.half h).logical (17 * g + 16) = none ∧
    ∀ k : Nat, k < 16 → (17 * g + k) / 17 = g ∧ (17 * g + 16) / 17 = g ∧ (State.reset.half h).logical (17 * g + k) = some (16 * g + k) ∧
      (State.reset.half h).physical (16 * g + k) = some (17 * g + k)

/-- After reset each partition record has a tile limit of 50 µs. A PART_WRITE that is accepted, with a tile limit outside 5 to 200, is answered BAD_ARG
and changes nothing else; one for an idle unused or shared-compute partition with a limit within 5 to 200 is stored with that limit and answered OK.
(R93) -/
def Obligations.TileLimit : Prop :=
  (∀ h p : Nat, p < 16 → (State.reset.half h).fld F.WIN_PART_CFG_tile_limit_us 0 p = 50) ∧
  (∀ (e : Ev) (m : Msg) (part cfg cores : Nat) (s u : State), u = (tick e s).settleMsgs e.half → u.accepts e.half m 0x23 .l false = true →
    bits cfg 2 8 < 5 ∨ 200 < bits cfg 2 8 → exec (.partWrite e m part cfg cores) s = .next (u.reply e.half m 0x23 .badArg 0)) ∧
  (∀ (e : Ev) (m : Msg) (part cfg cores : Nat) (s u : State), u = (tick e s).settleMsgs e.half → u.accepts e.half m 0x23 .l false = true →
    1 ≤ part → part < 16 → bits cfg 0 2 = 0 ∨ bits cfg 0 2 = 2 → u.partBusy e.half part = false → 5 ≤ bits cfg 2 8 → bits cfg 2 8 ≤ 200 →
    ∃ v : State, exec (.partWrite e m part cfg cores) s = .next ((v.saveConf e.half false).reply e.half m 0x23 .ok 0) ∧
      (v.half e.half).fld F.WIN_PART_CFG_tile_limit_us 0 part = bits cfg 2 8)

/-- Where the half has booted and its steward executes the message: a message of scope V from an allowed sender for an existing VDI whose generation
differs from the VDI's receives STALE_GEN, on a Teller as well; an unlisted opcode receives BAD_ARG; on a Teller a message of scope L receives
NOT_OWNER, as does one of scope V whose vdi names another VDI. (R388, R390) -/
def Obligations.GenerationsAndPaths : Prop :=
  (∀ (i : Instr) (m : Msg) (op : Nat) (k : Bool) (s u : State), request i = some (m, op, .v, k) → u = (tick i.ev s).settleMsgs i.ev.half →
    (u.half i.ev.half).serves = true → u.turn i.ev.half m op = true → (u.half i.ev.half).ports.stage ≠ 0 → u.viaRing i.ev.half m = false →
    u.holds i.ev.half m = true ∨ m.org = .teller m.vdi → (u.vdi m.vdi).exists_ = true → m.gen ≠ (u.vdi m.vdi).gen →
    exec i s = .next (u.reply i.ev.half m op .staleGen 0)) ∧
  (∀ (e : Ev) (m : Msg) (op : Nat) (s u : State), u = (tick e s).settleMsgs e.half → (u.half e.half).serves = true → u.turn e.half m op = true →
    listedOps.contains op = false → exec (.unknownOpcode e m op) s = .next (u.reply e.half m op .badArg 0)) ∧
  (∀ (i : Instr) (m : Msg) (op v : Nat) (k : Bool) (s u : State), request i = some (m, op, .l, k) → u = (tick i.ev s).settleMsgs i.ev.half →
    (u.half i.ev.half).serves = true → u.turn i.ev.half m op = true → (u.half i.ev.half).ports.stage ≠ 0 → m.org = .teller v →
    exec i s = .next (u.reply i.ev.half m op .notOwner 0)) ∧
  (∀ (i : Instr) (m : Msg) (op v : Nat) (k : Bool) (s u : State), request i = some (m, op, .v, k) → u = (tick i.ev s).settleMsgs i.ev.half →
    (u.half i.ev.half).serves = true → u.turn i.ev.half m op = true → (u.half i.ev.half).ports.stage ≠ 0 → m.org = .teller v → m.vdi ≠ v →
    exec i s = .next (u.reply i.ev.half m op .notOwner 0))

/-- The rising edge of PWRGOOD outside SLEEP starts a P of the package, and in SLEEP, with SLP_N high, it ends the SLEEP; a falling edge outside SLEEP
resets both halves and leaves the package without power, and in SLEEP it is only noted; a mismatch judged after 100 µs resets the package with the
mismatch noted; a RESET_N pulse of at least 1 µs starts a K that a held ball keeps pending until both balls are high, and one below 100 ns is ignored.
Here t is the state once the command's own time has passed, and a row acts only where its condition holds: the model's choices of log entries 4 and
18. It rests on the model's readings of log entry 56 as well. Rules followed: R513, R514, R515, R517. -/
def Obligations.PowerAndResetBalls : Prop :=
  (∀ (e : Ev) (s t : State), t = tick e s → (t.h0.clk.pwrgood && t.h1.clk.pwrgood) = false → t.power ≠ 3 → exec (.powerGoodRise e) s = .next ({ ({ t.setGood true with mismatchVt := none } : State).powerReset with power := 0 })) ∧
  (∀ (e : Ev) (s t : State), t = tick e s → (t.h0.clk.pwrgood && t.h1.clk.pwrgood) = false → t.power = 3 → t.h0.clk.slpN = true → exec
    (.powerGoodRise e) s = .next (({ t.setGood true with mismatchVt := none } : State).sleepExit)) ∧
  (∀ (e : Ev) (s t : State), t = tick e s → t.power ≠ 3 → exec (.powerGoodFall e) s = .next ({ ({ t.setGood false with mismatchVt := none } : State).powerReset with power := 1 })) ∧
  (∀ (e : Ev) (s t : State), t = tick e s → t.power = 3 → exec (.powerGoodFall e) s = .next ({ t.setGood false with mismatchVt := none })) ∧
  (∀ (e : Ev) (s t : State), t = tick e s → t.power ≠ 1 → t.power ≠ 3 → exec (.pwrgoodMismatchTimeout e) s = .next ({ (t.upd e.half fun x => { x with clk := { x.clk with pwrgood := false } }).powerReset with mismatchVt := some t.now })) ∧
  (∀ (e : Ev) (ns : Nat) (s t : State), t = tick e s → t.powered = true → 1000 ≤ ns → exec (.resetNLow e ns) s = .next ({ (t.resetPackage 3 0x0B true).upd e.half (fun x => { x with clk := { x.clk with resetN := false } }) with resetPending := true })) ∧
  (∀ (e : Ev) (ns : Nat) (s t : State), t = tick e s → ns < 100 → exec (.resetNLow e ns) s = .next (t)) ∧
  (∀ (e : Ev) (s t : State), t = tick e s → exec (.resetNRelease e) s = .next (
      let u := t.upd e.half fun x => { x with clk := { x.clk with resetN := true } }
      { u with resetPending := !(u.h0.clk.resetN && u.h1.clk.resetN) }))

/-- A crystal judged stable sets xtal_ok, and at P and K half 0's VT starts at 0; a start timeout counts a reset with cause 0x10 and asserts SERR_N; a
locked PLL brings the rim up and boots the firmware. Here t is the state once the command's own time has passed, and a row acts only where its
condition holds: the model's choices of log entries 4 and 18. It rests on the model's readings of log entry 60 as well. Rules followed: R492, R503,
R452. -/
def Obligations.RimStart : Prop :=
  (∀ (e : Ev) (s t : State), t = tick e s → t.starting e.half = true → (t.half e.half).fld F.CLK_STAT_xtal_ok ≠ 1 → exec (.crystalJudgedStable e) s =
    .next (t.upd e.half fun x => if x.clk.resetKind ≥ 3 && e.half = 0 then { x.setFld F.CLK_STAT_xtal_ok 1 with vt := 0 } else x.setFld
    F.CLK_STAT_xtal_ok 1)) ∧
  (∀ (e : Ev) (s t : State), t = tick e s → t.starting e.half = true → (t.half e.half).fld F.CLK_STAT_xtal_ok ≠ 1 → exec (.crystalStartTimeout e) s =
    .next (t.upd e.half fun x => x.startFailed)) ∧
  (∀ (e : Ev) (s t : State), t = tick e s → t.starting e.half = true → (t.half e.half).fld F.CLK_STAT_xtal_ok ≠ 0 → (t.half e.half).clk.rimUp = false
    → exec (.pllJudgedLocked e) s = .next (((t.upd e.half fun x => x.rimStart).upd e.half fun x => x.flushLate e.half).bootFirmware e.half))

/-- Clocks that fail outside a scope in reset are counted, each is recorded, and the widest reset that they name is requested, which is that of each core
where only core clocks fail; an RC ratio outside 0.85 to 1.15 is counted, recorded and asks for an M (State.askRestart), which waits while the other
half restarts; a divider change takes the divider asked for, or 6 for a core with critical duty, with the core's tile times kept in 1 GHz equivalents.
Here t is the state once the command's own time has passed, and a row acts only where its condition holds: the model's choices of log entries 4 and
18. It rests on the model's readings of log entry 176 as well. Rules followed: R494, R495, R496, R497. -/
def Obligations.ClockFailures : Prop :=
  (∀ (e : Ev) (fails : List ClkFail) (s t : State), t = tick e s → fails.filter (fun f => !(t.half e.half).inReset f.clk) = fails → fails ≠ [] →
    t.powered = true → fails.foldl (fun m f => Nat.max m (clkKind f.clk)) 0 ≠ 0 → exec (.clockMonitorFailure e fails) s = .next (fails.foldl (fun t f
    => t.incident e.half 0x12 (clkUnit f.clk) .internal f.count) ((t.upd e.half fun x => fails.foldl Half.countClk x).resetHalf e.half (fails.foldl
    (fun m f => Nat.max m (clkKind f.clk)) 0) 0x0A (!(fails.any fun f => stopsFirmware f.clk))))) ∧
  (∀ (e : Ev) (fails : List ClkFail) (s t : State), t = tick e s → fails.filter (fun f => !(t.half e.half).inReset f.clk) = fails → fails ≠ [] →
    t.powered = true → fails.foldl (fun m f => Nat.max m (clkKind f.clk)) 0 = 0 → exec (.clockMonitorFailure e fails) s = .next (fails.foldl (fun t f
    => t.incident e.half 0x12 (clkUnit f.clk) .internal f.count) (fails.foldl (fun t f => t.resetClk e.half f) (t.upd e.half fun x => fails.foldl
    Half.countClk x)))) ∧
  (∀ (e : Ev) (ppm : Nat) (s t : State), t = tick e s → (t.half e.half).clk.rimUp = true → (t.half e.half).fw.stewardDown = false → ppm < 850000 ∨
    1150000 < ppm → exec (.rcOscillatorCheck e ppm) s = .next (((t.upd e.half fun x => x.inc F.CLK_MON_rc_fail).incident e.half 0x12 0xFF
    .internal).askRestart e.half 2 0x0E)) ∧
  (∀ (e : Ev) (p : Nat) (div : Nat) (s t : State), t = tick e s → (t.half e.half).clk.computeUp = true → (t.half e.half).fw.stewardDown = false → p <
    136 → div = 6 ∨ div = (t.half e.half).trimDiv → exec (.coreDividerChange e p div) s = .next ((t.setDiv e.half p (if (t.half e.half).critical p
    then 6 else div)).upd e.half Half.syncTrimmed))

/-- A poll of the junction sensors or of the stacks notes the hysteresis, writes the readings and the stage they give, and acts on the stages entered;
after a further second at or above 105 °C TRIM steps to the next slower divider; a TRIP counts itself, holds the compute domain, requests an H, is
recorded and ends a PARK request in progress, with PERR_N low where the other half is not NORMAL; the hold ends when every source has cooled. Here t
is the state once the command's own time has passed, and a row acts only where its condition holds: the model's choices of log entries 4 and 18. It
rests on the model's readings of log entries 57, 60 as well. Rules followed: R501, R502, R327. -/
def Obligations.Temperatures : Prop :=
  (∀ (e : Ev) (temps : List Int) (s t : State), t = tick e s → (t.half e.half).clk.rimUp = true → (t.half e.half).fw.stewardDown = false → temps ≠ []
    → exec (.thermalSensorPoll e temps) s = .next (
      let x := t.half e.half
      let m := hottest temps
      let y := x.noteStages 0 logicTh m.1
      let now := y.stageNow 0 logicTh (x.fld F.CLK_STAT_stage_logic) m.1
      let z := ((y.setFld F.CLK_THERM_tj_max (m.1 % 256).toNat).setFld F.CLK_THERM_sensor m.2).setFld F.CLK_STAT_stage_logic now
      (t.setHalf e.half (if m.1 < 105 then { z with clk := { z.clk with trimVt := x.vt.toNat } } else z)).stageActions e.half (x.fld
        F.CLK_STAT_stage_logic) now m.2 m.1)) ∧
  (∀ (e : Ev) (s t : State), t = tick e s → (t.half e.half).clk.rimUp = true → (t.half e.half).fw.stewardDown = false → (t.half e.half).fld
    F.CLK_TRIM_div = 1 ∨ (t.half e.half).fld F.CLK_TRIM_div = 2 → 105 ≤ sext8 ((t.half e.half).fld F.CLK_THERM_tj_max) → (t.half e.half).clk.trimVt +
    1000000000 ≤ (t.half e.half).vt.toNat → exec (.trimStepTimer e) s = .next (t.upd e.half fun x => ({ x with clk := { x.clk with trimVt := x.vt.toNat } }
    : Half).setFld F.CLK_TRIM_div ((t.half e.half).fld F.CLK_TRIM_div + 1))) ∧
  (∀ (e : Ev) (src : TripSrc) (n : Nat) (s t : State), t = tick e s → (t.half e.half).clk.rimUp = true → src = .junction n → exec (.thermalTrip e
    src) s = .next (
      let u := ((t.upd e.half fun x => x.tripped src).resetHalf e.half 1 0x03 true).incident e.half 0x12 n .internal
      let w : State := if (t.half (peer e.half)).normal then u else { u with perrN := false }
      (if t.power = 4 then { w with power := 0, wakeLatched := none } else w).syncEmergency)) ∧
  (∀ (e : Ev) (src : TripSrc) (n : Nat) (s t : State), t = tick e s → (t.half e.half).clk.rimUp = true → src = .stack n → exec (.thermalTrip e src) s
    = .next (
      let u := ((t.upd e.half fun x => x.tripped src).resetHalf e.half 1 0x03 true).incident e.half 0x12 n .internal
      let w : State := if (t.half (peer e.half)).normal then u else { u with perrN := false }
      (if t.power = 4 then { w with power := 0, wakeLatched := none } else w).syncEmergency)) ∧
  (∀ (e : Ev) (temps : List Int) (stackTemps : List Int) (s t : State), t = tick e s → (t.half e.half).clk.tripHold = true → (t.half
    e.half).clk.tripSrc.all (cooled temps stackTemps) = true → exec (.tripCooldownRelease e temps stackTemps) s = .next (t.upd e.half fun x => { x with clk := { x.clk with tripHold := false, tripSrc := [] } })) ∧
  (∀ (e : Ev) (t0 : Int) (t1 : Int) (s t : State), t = tick e s → (t.half e.half).clk.rimUp = true → (t.half e.half).fw.stewardDown = false → exec
    (.dramTemperaturePoll e t0 t1) s = .next (
      let x := t.half e.half
      let m := hottest [t0, t1]
      let y := x.noteStages 16 dramTh m.1
      let now := y.stageNow 16 dramTh (x.fld F.CLK_STAT_stage_dram) m.1
      (t.setHalf e.half (((y.setFld F.MNT_ECC_temp_c (t0 % 256).toNat 0).setFld F.MNT_ECC_temp_c (t1 % 256).toNat 1).setFld F.CLK_STAT_stage_dram
        now)).stageActions e.half (x.fld F.CLK_STAT_stage_dram) now m.2 m.1))

/-- A PMBus fault and a low VR_ALERT_N raise the supply alert; a poll without a fault clears it once VR_ALERT_N has been high for 1 s; after 1 s without a
cause an emergency clears and a deferred activation runs. Here t is the state once the command's own time has passed, and a row acts only where its
condition holds: the model's choices of log entries 4 and 18. Rules followed: R516, R466, R498. -/
def Obligations.SupplyAndEmergency : Prop :=
  (∀ (e : Ev) (fault : Bool) (alertHigh : Bool) (s t : State), t = tick e s → (t.half e.half).clk.rimUp = true → (t.half e.half).fw.stewardDown =
    false → fault = true → alertHigh = true → exec (.pmbusPoll e fault alertHigh) s = .next ((t.upd e.half fun x => { x with clk := { x.clk with vrAlertN := true, supplyVt := some (x.clk.supplyVt.getD x.vt.toNat) } }).raiseSupply
    e.half)) ∧
  (∀ (e : Ev) (fault : Bool) (alertHigh : Bool) (v : Nat) (s t : State), t = tick e s → (t.half e.half).clk.rimUp = true → (t.half
    e.half).fw.stewardDown = false → fault = false → alertHigh = true → (t.half e.half).clk.supplyVt = some v → (t.half e.half).fw.supplyFault = true
    → v + 1000000000 ≤ (t.half e.half).vt.toNat → exec (.pmbusPoll e fault alertHigh) s = .next (((t.upd e.half fun x => { x with clk := { x.clk with vrAlertN := true, supplyVt := some (x.clk.supplyVt.getD x.vt.toNat) } }).upd
    e.half fun x => ({ x with fw := { x.fw with supplyFault := false } } : Half).syncTrim).syncEmergency)) ∧
  (∀ (e : Ev) (s t : State), t = tick e s → (t.half e.half).clk.rimUp = true → exec (.vrAlertNLow e) s = .next ((t.upd e.half fun x => { x with clk := { x.clk with vrAlertN := false, supplyVt := none } }).raiseSupply
    e.half)) ∧
  (∀ (e : Ev) (v : Nat) (s t : State), t = tick e s → (t.half e.half).fw.emgClearVt = some v → v + 1000000000 ≤ (t.half e.half).vt.toNat → (t.half
    e.half).fw.stewardDown = false → exec (.emergencyClear e) s = .next ((t.upd e.half fun x => { x with fw := { x.fw with emgClearVt := none } }).runDeferred
    e.half))

/-- In PARK each wake source is noted with its unit in both halves, the exit of the power state begins, and the wake is signalled; a TC10 wake and a wake
ball end SLEEP too; a wake during an entry is latched; an entry under way completes, and a wake latched meanwhile begins the exit. Here t is the state
once the command's own time has passed, and a row acts only where its condition holds: the model's choices of log entries 4 and 18. It rests on the
model's readings of log entries 57, 58 as well. Rules followed: R499, R500, R515. -/
def Obligations.WakesAndSleep : Prop :=
  (∀ (e : Ev) (ctrl : Nat) (s t : State), t = tick e s → t.power = 2 → exec (.canRouteWake e ctrl) s = .next (((t.noteWake 1 ctrl).leave).emit (.wake
    1 ctrl))) ∧
  (∀ (e : Ev) (s t : State), t = tick e s → t.power = 2 → exec (.tc10Wake e) s = .next (((t.noteWake 2 e.half).leave).emit (.wake 2 e.half))) ∧
  (∀ (e : Ev) (s t : State), t = tick e s → t.power = 3 → t.h0.clk.slpN = false → exec (.tc10Wake e) s = .next (((t.noteWake 2 e.half).leave).emit
    (.wake 2 e.half))) ∧
  (∀ (e : Ev) (ctrl : Nat) (s t : State), t = tick e s → t.power = 4 → exec (.canRouteWake e ctrl) s = .next ({ t with wakeLatched := some (1, ctrl) })) ∧
  (∀ (e : Ev) (s t : State), t = tick e s → t.power = 5 → exec (.tc10Wake e) s = .next ({ t with wakeLatched := some (2, e.half) })) ∧
  (∀ (e : Ev) (ball : Nat) (s t : State), t = tick e s → t.power = 2 → exec (.wakeInputBall e ball) s = .next (((t.noteWake 4 ball).leave).emit
    (.wake 4 ball))) ∧
  (∀ (e : Ev) (ball : Nat) (s t : State), t = tick e s → t.power = 3 → t.h0.clk.slpN = false → exec (.wakeInputBall e ball) s = .next (((t.noteWake 4
    ball).leave).emit (.wake 4 ball))) ∧
  (∀ (e : Ev) (s t : State), t = tick e s → t.power = 4 → exec (.parkEntryComplete e) s = .next (({ (((t.loseDeferred 0).loseDeferred 1).parkHalf 0).parkHalf 1 with power := 2 }
    : State).latchedWake)) ∧
  (∀ (e : Ev) (s t : State), t = tick e s → t.power = 5 → exec (.sleepEntryComplete e) s = .next (({ (t.sleepHalf 0).sleepHalf 1 with power := 3, perrN := false }
    : State).latchedWake))

/-- A core reset of a core in service resets it after its duty is handed over (State.resetCore); when it is done the core returns to service, and one
asked to turn to graphics meanwhile begins to turn; with the package powered, H, M and K are requested for their scope with the row's reason, and
announced unless a fault stopped the firmware. Here t is the state once the command's own time has passed, and a row acts only where its condition
holds: the model's choices of log entries 4 and 18. It rests on the model's readings of log entries 12, 124, 157 as well. Rules followed: R99, R311,
R313, R504. -/
def Obligations.HalfAndPackageResets : Prop :=
  (∀ (e : Ev) (p : Nat) (cause : Nat) (s t : State), t = tick e s → (t.half e.half).clk.computeUp = true → p < 136 → ((t.half e.half).core
    p).resetting = false → exec (.coreReset e p cause) s = .next (t.resetCore e.half p cause)) ∧
  (∀ (e : Ev) (p : Nat) (s t : State), t = tick e s → exec (.coreResetDone e p) s = .next (t.updCore e.half p fun c => if c.resetting then { c with resetting := false, switching := c.gfxReq && !c.graphics, gfxReq := false }
    else c)) ∧
  (∀ (e : Ev) (reason : Nat) (fwStopped : Bool) (s t : State), t = tick e s → t.powered = true → exec (.halfComputeRestart e reason fwStopped) s =
    .next (t.resetHalf e.half 1 reason (!fwStopped))) ∧
  (∀ (e : Ev) (reason : Nat) (fwStopped : Bool) (s t : State), t = tick e s → t.powered = true → exec (.halfRimRestart e reason fwStopped) s = .next
    (t.resetHalf e.half 2 reason (!fwStopped))) ∧
  (∀ (e : Ev) (reason : Nat) (fwStopped : Bool) (s t : State), t = tick e s → t.powered = true → exec (.packageWarmReset e reason fwStopped) s =
    .next (t.resetPackage 3 reason (!fwStopped)))

/-- A restarted half whose rim runs with nothing holding it, and whose VT agrees, comes back: its buckets filled, its trees on the PLL, compute up, ready,
no reset under way, its windows and regions (or its tell-tale image) reloaded, the VDIs that it hosts told, its assays begun where the other half is
degraded, SERR_N and PERR_N judged anew; both halves ready for the stated frame start rejoin together, a restart that waited for this runs, their open
instances of the banks left behind ended as not met; a half whose critical regions no longer fit in its Strongroom records it and both stay. Here t is
the state once the command's own time has passed, and a row acts only where its condition holds: the model's choices of log entries 4 and 18. It rests
on the model's readings of log entries 59, 157, 170, 173, 176 as well. Rules followed: R290, R518. -/
def Obligations.ReadyAndRejoin : Prop :=
  (∀ (e : Ev) (s t : State), t = tick e s → (t.half e.half).mayReady = true → t.vtAgrees e.half = true → exec (.gatehouseReady e) s = .next (
      let x := t.half e.half
      let s1 := t.upd e.half fun x0 => let x := (x0.fillBuckets t.now).setFld F.CLK_STAT_on_pll 0xFF
      { x with clk := { x.clk with computeUp := true, ready := true, phase := 1, resetKind := 0 }, ports := { x.ports with stage := 4 } }
      let s2 := if x.clk.resetKind = 1 then (s1.upd e.half fun x => (x.reloadWindows []).syncRecord).reloadRegions e.half [] else s1.loadAtlas e.half
      let s3 := (s2.hosted e.half).foldl (fun u v => (u.noticeBare v 3).upd e.half fun x => if x.fld F.TEL_STATE_state v = 4 then x.setFld
        F.TEL_STATE_state (if (u.vdi v).migStep ≠ 0 then 2 else 0) v else x) s2
      let s4 := (s3.upd e.half fun x => { x with tally := { x.tally with rejoining := (t.half (peer e.half)).degraded, passed := [] } }).hatchSend
        e.half 0x44 [2]
      (((s4.serr e.half).perrClear).syncEmergency.settleMsgs e.half))) ∧
  (∀ (e : Ev) (vt : Nat) (s t : State), t = tick e s → t.h0.mayRejoin vt = true → t.h1.mayRejoin vt = true → (t.h0.normal && t.h1.normal) = false →
    (t.confFits 0 && t.confFits 1) = false → exec (.rejoinActivation e vt) s = .next (t.incident (if t.confFits 0 then 1 else 0) 0x03 0 .noSpace)) ∧
  (∀ (e : Ev) (vt : Nat) (s t : State), t = tick e s → t.h0.mayRejoin vt = true → t.h1.mayRejoin vt = true → (t.h0.normal && t.h1.normal) = false →
    (t.confFits 0 && t.confFits 1) = true → exec (.rejoinActivation e vt) s = .next (
      let ends (s : State) (h : Nat) : State := ((s.half h).win.inst.filter fun i => i.2.open_).foldl (fun t i => t.endUnmet h i.1) s
      let u := ends (ends t 0) 1
      (((((({ u with h0 := u.h0.rejoin vt, h1 := u.h1.rejoin vt, secondFault := false } : State).serr 0).serr 1).perrClear).runRestart 0).runRestart
        1)))

/-- At the end of a tile whose stores have ended the tile is kept, and the next tile, the epilogue, what waits at the boundary or the command's end
follows, the engines having done first what they had left; a core without a command turns to the mode it was asked for. A tile past its limit whose
last store has not ended is overrun: a queue command is requeued and counted, and ends with TIMEOUT at its third; a window command ends with TIMEOUT,
the ledger bytes of its undone outputs zeroed. A marked row takes the bytes of the load that marked it and loses its mark, and a mark of no load under
way goes. A token barrier passes once no row bears its token. Here t is the state once the command's own time has passed, and a row acts only where
its condition holds: the model's choices of log entries 4 and 18. It rests on the model's readings of log entries 24, 28, 31, 146, 147, 148, 149, 162
as well. Rules followed: R91, R94, R95, R96, R98, R112, R114. -/
def Obligations.Tiles : Prop :=
  (∀ (e : Ev) (p : Nat) (sched : List Nat) (r : Run) (s t : State), t = tick e s → ((t.half e.half).core p).run = some r → r.computed = true → r.tile
    < r.tiles → r.fail = none → r.endedAll r.stores = true → exec (.tileEnd e p sched) s = .next ((t.updCore e.half p fun c => { c with run := some r }).endTile
    e.half p r)) ∧
  (∀ (e : Ev) (p : Nat) (sched : List Nat) (r : Run) (a : State × Run × EngRes) (s t : State), t = tick e s → ((t.half e.half).core p).run = some r →
    a = t.compute e.half p r sched → a.2.2 = .ok → r.tile < r.tiles → a.2.1.computed = true → a.2.1.fail = none → a.2.1.endedAll a.2.1.stores = true
    → exec (.tileEnd e p sched) s = .next ((a.1.updCore e.half p fun c => { c with run := some a.2.1 }).endTile e.half p a.2.1)) ∧
  (∀ (e : Ev) (p : Nat) (sched : List Nat) (s t : State), t = tick e s → ((t.half e.half).core p).run = none → exec (.tileEnd e p sched) s = .next
    (t.idleBoundary e.half p)) ∧
  (∀ (e : Ev) (p : Nat) (r : Run) (q : Nat) (s t : State), t = tick e s → ((t.half e.half).core p).run = some r → r.org = .queue q → r.fallback =
    false → (t.half e.half).timeUp p r = true → r.tileEnded = false → (((t.half e.half).queue (qIdx q)).counts r.index).overruns < 2 → exec
    (.tileWatchdogFire e p) s = .next (
      let n := (((t.half e.half).queue (qIdx q)).counts r.index).overruns + 1
      ((t.incident e.half 0x01 p .preempted (causeDetail 2 n)).requeueCore e.half p r 2 1 0).afterRun e.half r)) ∧
  (∀ (e : Ev) (p : Nat) (r : Run) (q : Nat) (s t : State), t = tick e s → ((t.half e.half).core p).run = some r → r.org = .queue q → r.fallback =
    false → (t.half e.half).timeUp p r = true → r.tileEnded = false → 2 ≤ (((t.half e.half).queue (qIdx q)).counts r.index).overruns → exec
    (.tileWatchdogFire e p) s = .next (
      let n := (((t.half e.half).queue (qIdx q)).counts r.index).overruns + 1
      ((t.incident e.half 0x01 p .preempted (causeDetail 2 n)).finishCore e.half p r .timeout (causeDetail 2 n)).afterRun e.half r)) ∧
  (∀ (e : Ev) (p : Nat) (r : Run) (n : Nat) (s t : State), t = tick e s → ((t.half e.half).core p).run = some r → r.org = .entry n → (t.half
    e.half).timeUp p r = true → r.tileEnded = false → exec (.tileWatchdogFire e p) s = .next (((t.zeroUndone e.half p r.dropTile).finishCore e.half p
    r .timeout (causeDetail 2 1)).afterRun e.half r)) ∧
  (∀ (e : Ev) (p : Nat) (row : Nat) (s t : State), t = tick e s → ((t.half e.half).core p).mark row ≠ 0 → ((t.half e.half).core p).run = none → exec
    (.rowWriteLands e p row) s = .next (t.updCore e.half p fun c => c.dropMarks (c.mark row) [row])) ∧
  (∀ (e : Ev) (p : Nat) (row : Nat) (r : Run) (tag : Nat) (s t : State), t = tick e s → ((t.half e.half).core p).mark row ≠ 0 → ((t.half e.half).core
    p).run = some r → (r.accepted.find? fun g => !r.isOver g && mToken (r.dma.getD (g % nextTag) 0) = ((t.half e.half).core p).mark row && (((t.half
    e.half).core p).dmaRows (r.dma.getD (g % nextTag) 0) (r.dmaTile g) true).contains row) = some tag → exec (.rowWriteLands e p row) s = .next
    ((t.landRow e.half p tag row).acceptDma e.half p)) ∧
  (∀ (e : Ev) (p : Nat) (desc : Nat) (r : Run) (tag : Nat) (s t : State), t = tick e s → ((t.half e.half).core p).run = some r → r.headTag desc =
    some tag → mToken (r.dma.getD desc 0) ≠ 0 → ((t.half e.half).core p).dmaRows (r.dma.getD desc 0) (r.dmaTile tag) false ≠ [] → (((t.half
    e.half).core p).rowMark.any fun m => m.2 = mToken (r.dma.getD desc 0)) = false → exec (.tokenBarrierPass e p desc) s = .next ((t.updCore e.half p
    fun c => { c with run := some { r with passed := tag :: r.passed } }).acceptDma e.half p))

/-- A descriptor that its channel has accepted and that waits on nothing ends with all that it moves, once the engines have done what it needs: nothing
more where the tile has computed. A descriptor that fails with a status of R92, once the engines have done what it needs, moves the rows before the
failed one, which a free value names, its bytes are counted and its command fails. A detected memory error is counted, and on a core that runs a
command the tile is re-run or the command ends. An error of a read outside a tile faults the application core that reads, fails the window transfer or
the read-modify-write with its model loads, or answers the Hatch request; the damaged row of a Strongroom is counted, and all but the Hatch request
are recorded. Here t is the state once the command's own time has passed, and a row acts only where its condition holds: the model's choices of log
entries 4 and 18. It rests on the model's readings of log entries 8, 27, 29, 145, 148, 149 as well. Rules followed: R91, R92, R119, R120. -/
def Obligations.CoreDma : Prop :=
  (∀ (e : Ev) (p : Nat) (desc : Nat) (u : State) (w : State) (r : Run) (k : Run) (tag : Nat) (s t : State), t = tick e s → u = t.acceptDma e.half p →
    ((u.half e.half).core p).run = some r → r.computed = true → w = (u.updCore e.half p (fun c => { c with run := some r })).acceptDma e.half p →
    ((w.half e.half).core p).run = some k → k.headTag desc = some tag → ((w.half e.half).core p).dmaGoes k tag = true → exec (.dmaDescriptorEnd e p
    desc) s = .next (w.endDma e.half p tag k)) ∧
  (∀ (e : Ev) (p : Nat) (desc : Nat) (u : State) (w : State) (r : Run) (k : Run) (tag : Nat) (a : State × Run × EngRes) (s t : State), t = tick e s →
    u = t.acceptDma e.half p → ((u.half e.half).core p).run = some r → a = u.computeFirst e.half p r desc → a.2.2 = .ok → w = (a.1.updCore e.half p
    (fun c => { c with run := some a.2.1 })).acceptDma e.half p → ((w.half e.half).core p).run = some k → k.headTag desc = some tag → ((w.half
    e.half).core p).dmaGoes k tag = true → exec (.dmaDescriptorEnd e p desc) s = .next (w.endDma e.half p tag k)) ∧
  (∀ (e : Ev) (p : Nat) (desc : Nat) (st : Status) (r : Run) (q : Run) (tag : Nat) (k : Run) (u : State) (w : State) (a : State × Run × EngRes) (s t
    : State), t = tick e s → ((t.half e.half).core p).run = some r → dmaFailStatus st = true → r.heads.contains desc = true ∨ r.heads.contains (desc
    + nextTag) = true ∨ r.stores.contains desc = true → a = t.computeFirst e.half p r desc → a.2.2 = .ok → w = (a.1.updCore e.half p (fun c => { c with run := some a.2.1 })).acceptDma
    e.half p → ((w.half e.half).core p).run = some q → q.headTag desc = some tag → u = w.settleOrder e.half p tag q → ((u.half e.half).core p).run =
    some k → exec (.dmaDescriptorFailure e p desc st) s = .next (
      let m := u.draw.2.moveOf e.half p k tag (u.draw.1 % Nat.max (mRows (k.dma.getD desc 0)) 1)
      ((({ m.s with freeCtr := m.ctr } : State).countMove e.half p ((m.s.half e.half).coreUnit p) (k.dma.getD desc 0) m.moved).dmaFailed e.half p k
        tag st).settleFail e.half p)) ∧
  (∀ (e : Ev) (p : Nat) (mem : Nat) (off : Nat) (r : Run) (s t : State), t = tick e s → ((t.half e.half).core p).run = some r → exec
    (.detectedMemoryError e p mem off) s = .next (((t.countMemErr e.half p mem off).tileError e.half p r).afterRun e.half r)) ∧
  (∀ (e : Ev) (p : Nat) (mem : Nat) (off : Nat) (s t : State), t = tick e s → ((t.half e.half).core p).run = none → exec (.detectedMemoryError e p
    mem off) s = .next (t.countMemErr e.half p mem off)) ∧
  (∀ (e : Ev) (who : ReadKind) (addr : Nat) (hart : Nat) (s t : State), t = tick e s → who = .appLoad hart → inStr (homeHalf addr) addr 1 = false →
    exec (.nonTileReadError e who addr) s = .next ((t.hartFault e.half hart 5).incident e.half 0x09 hart .dataError (addr % 2 ^ 32))) ∧
  (∀ (e : Ev) (who : ReadKind) (addr : Nat) (hart : Nat) (s t : State), t = tick e s → who = .appLoad hart → inStr (homeHalf addr) addr 1 = true →
    exec (.nonTileReadError e who addr) s = .next (((t.strErr (homeHalf addr) (addr - strBase (homeHalf addr))).hartFault e.half hart 5).incident
    e.half 0x03 hart .dataError (addr % 2 ^ 32))) ∧
  (∀ (e : Ev) (who : ReadKind) (addr : Nat) (vdi : Nat) (s t : State), t = tick e s → who = .window vdi ∨ who = .rmw vdi → inStr (homeHalf addr) addr
    1 = false → exec (.nonTileReadError e who addr) s = .next ((t.upd e.half fun x => x.failLoads vdi).incident e.half 0x0E vdi .dataError (addr % 2
    ^ 32))) ∧
  (∀ (e : Ev) (who : ReadKind) (addr : Nat) (vdi : Nat) (s t : State), t = tick e s → who = .window vdi ∨ who = .rmw vdi → inStr (homeHalf addr) addr
    1 = true → exec (.nonTileReadError e who addr) s = .next (((t.strErr (homeHalf addr) (addr - strBase (homeHalf addr))).upd e.half fun x =>
    x.failLoads vdi).incident e.half 0x0E vdi .dataError (addr % 2 ^ 32))) ∧
  (∀ (e : Ev) (who : ReadKind) (addr : Nat) (tag : Nat) (s t : State), t = tick e s → who = .hatch tag → inStr (homeHalf addr) addr 1 = true → exec
    (.nonTileReadError e who addr) s = .next ((t.strErr (homeHalf addr) (addr - strBase (homeHalf addr))).emit (.hatchCpl e.half tag .dataError []))) ∧
  (∀ (e : Ev) (who : ReadKind) (addr : Nat) (tag : Nat) (s t : State), t = tick e s → who = .hatch tag → inStr (homeHalf addr) addr 1 = false → exec
    (.nonTileReadError e who addr) s = .next (t.emit (.hatchCpl e.half tag .dataError [])))

/-- A missed kick pauses and counts a running dispatch controller, with an H asked for at the third within a second (it waits while the other half
restarts); at the end of its restart its copy is checked, dispatch resumes with its queues' conditions evaluated anew, and their remote WAITs are
rewound; a lockstep mismatch counts and resets the Gatehouse controller, with an M at the third within a second; at the end of that reset every task
that it held goes on, and then what waited for it. Here t is the state once the command's own time has passed, and a row acts only where its condition
holds: the model's choices of log entries 4 and 18. It rests on the model's readings of log entries 53, 55, 120 as well. Rules followed: R444, R253,
R274. -/
def Obligations.Controllers : Prop :=
  (∀ (e : Ev) (d : Nat) (s t : State), t = tick e s → (t.half e.half).clk.computeUp = true → d < 4 → (t.half e.half).fld F.WIN_DISP_STAT_paused 0 d ≠
    1 → exec (.dispatchWatchdog e d) s = .next (
      let l := lastSecond (t.half e.half).vt.toNat (kget (fun _ => []) (t.half e.half).disp.restarts d)
      let u := t.upd e.half fun x => x.pauseController d (if 3 ≤ l.length then [] else l)
      if 3 ≤ l.length then u.askRestart e.half 1 0x0C else u.componentStop e.half 2)) ∧
  (∀ (e : Ev) (d : Nat) (s t : State), t = tick e s → (t.half e.half).fld F.WIN_DISP_STAT_paused 0 d ≠ 0 → exec (.dispatchRestartDone e d) s = .next
    (((t.reloadCopy e.half 2).upd e.half fun x => (x.setFld F.WIN_DISP_STAT_paused 0 0 d).condsAfresh d).rewindAll e.half fun q => decide (qIdx q /
    2048 = d))) ∧
  (∀ (e : Ev) (s t : State), t = tick e s → (t.half e.half).clk.rimUp = true → (t.half e.half).clk.ready = true → (t.half e.half).tally.ghReset =
    false → exec (.lockstepMismatch e) s = .next (
      let l := lastSecond (t.half e.half).vt.toNat (t.half e.half).tally.ghResets
      let u := t.upd e.half fun x => ({ x with tally := { x.tally with ghReset := true, ghResets := if 3 ≤ l.length then [] else l } } : Half).inc
        F.SVC_FW_CRASH_gatehouse
      if 3 ≤ l.length then u.resetHalf e.half 2 0x0C false else u.componentStop e.half 3)) ∧
  (∀ (e : Ev) (s t : State), t = tick e s → (t.half e.half).tally.ghReset = true → exec (.gatehouseResetDone e) s = .next ((((t.half
    e.half).tally.tasks.map (·.1)).foldl (fun u k => u.afterGhReset e.half k) (t.upd e.half fun x => { x with tally := { x.tally with ghReset := false } })).runWaiting
    e.half))

/-- A slot that fails at boot is recorded, and the other slot starts where it has not failed and its package is valid, and is recorded as failed where its
package is not; the PUF gives its keys, with a new challenge at a P, or the half is held and the failure recorded; a ready half confirms its trial
slot; the store is applied with the items whose CRC holds, the effective guarantees follow, its class set is reconciled, and where the other half is
not degraded and no reset began the half's bank runs from the next frame start and restarts that waited are asked for again. Here t is the state once
the command's own time has passed, and a row acts only where its condition holds: the model's choices of log entries 4 and 18. It rests on the model's
readings of log entries 54, 123 as well. Rules followed: R453, R482, R454. -/
def Obligations.BootRows : Prop :=
  (∀ (e : Ev) (slot : Nat) (u : State) (s t : State), t = tick e s → (t.half e.half).clk.rimUp = true → (t.half e.half).ports.stage = 1 → slot =
    (t.half e.half).fld F.SVC_FW_STAT_active_slot → u = t.slotFails e.half slot → (u.half e.half).fw.failedSlots.contains (1 - slot) = false →
    u.slotOk e.half (1 - slot) = true → exec (.bootSlotFailure e slot) s = .next (u.startSlot e.half (1 - slot) (decide (1 - slot ≠ (u.half
    e.half).fw.activeSlot)))) ∧
  (∀ (e : Ev) (slot : Nat) (u : State) (s t : State), t = tick e s → (t.half e.half).clk.rimUp = true → (t.half e.half).ports.stage = 1 → slot =
    (t.half e.half).fld F.SVC_FW_STAT_active_slot → u = t.slotFails e.half slot → (u.half e.half).fw.failedSlots.contains (1 - slot) = false →
    u.slotOk e.half (1 - slot) = false → exec (.bootSlotFailure e slot) s = .next (u.slotFails e.half (1 - slot))) ∧
  (∀ (e : Ev) (ok : Bool) (s t : State), t = tick e s → (t.half e.half).clk.rimUp = true → (t.half e.half).vaults.pufOk = false → 2 ≤ (t.half
    e.half).clk.resetKind → ok = true → (t.half e.half).clk.resetKind ≠ 4 → exec (.pufReconstruction e ok) s = .next (t.upd e.half fun x => x.pufDone
    x.vaults.challenge)) ∧
  (∀ (e : Ev) (ok : Bool) (s t : State), t = tick e s → (t.half e.half).clk.rimUp = true → (t.half e.half).vaults.pufOk = false → ok = true → (t.half
    e.half).clk.resetKind = 4 → exec (.pufReconstruction e ok) s = .next (t.draw.2.upd e.half fun x => x.pufDone (t.draw.1 % 2 ^ 256))) ∧
  (∀ (e : Ev) (ok : Bool) (s t : State), t = tick e s → (t.half e.half).clk.rimUp = true → (t.half e.half).vaults.pufOk = false → 2 ≤ (t.half
    e.half).clk.resetKind → ok = false → exec (.pufReconstruction e ok) s = .next ((t.upd e.half Half.hold).incident e.half 0x11 0 .authFail)) ∧
  (∀ (e : Ev) (s t : State), t = tick e s → (t.half e.half).clk.ready = true → (t.half e.half).fld F.SVC_FW_STAT_trial ≠ 0 → exec (.trialBootConfirm
    e) s = .next (t.upd e.half fun x => ({ x with fw := { x.fw with activeSlot := x.fw.trialSlot, attempts := 0 } } : Half).setFld
    F.SVC_FW_STAT_trial 0)) ∧
  (∀ (e : Ev) (bad : List Nat) (s t : State), t = tick e s → (t.half e.half).clk.ready = true → (t.half e.half).fw.confDue = true → (t.half
    e.half).fw.stewardDown = false → (t.half (peer e.half)).degraded = true → exec (.configStoreApply e bad) s = .next (((t.applyConf e.half bad).upd
    e.half fun x => ({ x with fw := { x.fw with confDue := false } } : Half).effective).reconcile e.half 0x05)) ∧
  (∀ (e : Ev) (bad : List Nat) (u : State) (s t : State), t = tick e s → (t.half e.half).clk.ready = true → (t.half e.half).fw.confDue = true →
    (t.half e.half).fw.stewardDown = false → (t.half (peer e.half)).degraded = false → u = ((t.applyConf e.half bad).upd e.half fun x => ({ x with fw := { x.fw with confDue := false } }
    : Half).effective).reconcile e.half 0x05 → (u.half e.half).clk.resetKind = 0 → exec (.configStoreApply e bad) s = .next ((u.upd e.half fun x =>
    let y : Half := { x with clk := { x.clk with phase := 3 } }; if x.fld F.WIN_CTL_enable = 1 then ({ y with win := { y.win with enableAt := some x.vt.toNat } }
    : Half).setFld F.CLK_VT_STAT_held 1 else y).serr e.half |>.runRestart e.half |>.runRestart (peer e.half)))

/-- A record slot that verifies, holds the RPMB generation and has a format that the release reads is loaded and applied at the boot stage, slot 0 first;
with none the half runs on the shipped record, held, and the failure is recorded; a verified write becomes the record of the next generation, and a
failed one is counted; each 24 h of soak beyond 72 h is recorded with its hours. Here t is the state once the command's own time has passed, and a row
acts only where its condition holds: the model's choices of log entries 4 and 18. It rests on the model's readings of log entry 105 as well. Rules
followed: R299, R300, R319. -/
def Obligations.ServiceRecordRows : Prop :=
  (∀ (e : Ev) (ok0 : Bool) (ok1 : Bool) (s t : State), t = tick e s → (t.half e.half).clk.rimUp = true → (t.half e.half).ports.stage = 1 → (t.half
    e.half).recordOk 0 ok0 = true → exec (.serviceRecordLoad e ok0 ok1) s = .next (t.upd e.half fun x => x.loadRecord 0)) ∧
  (∀ (e : Ev) (ok0 : Bool) (ok1 : Bool) (s t : State), t = tick e s → (t.half e.half).clk.rimUp = true → (t.half e.half).ports.stage = 1 → (t.half
    e.half).recordOk 0 ok0 = false → (t.half e.half).recordOk 1 ok1 = true → exec (.serviceRecordLoad e ok0 ok1) s = .next (t.upd e.half fun x =>
    x.loadRecord 1)) ∧
  (∀ (e : Ev) (ok0 : Bool) (ok1 : Bool) (s t : State), t = tick e s → (t.half e.half).clk.rimUp = true → (t.half e.half).ports.stage = 1 → (t.half
    e.half).recordOk 0 ok0 = false → (t.half e.half).recordOk 1 ok1 = false → exec (.serviceRecordLoad e ok0 ok1) s = .next ((t.upd e.half fun x =>
    (x.setRecord fun r => { SvcRecord.shipped with pcPending := r.pcPending }).hold.setFld F.SVC_REC_STAT_held 1).incident e.half 0x0E 0 .authFail)) ∧
  (∀ (e : Ev) (ok : Bool) (r : SvcRecord) (s t : State), t = tick e s → (t.half e.half).clk.rimUp = true → (t.half e.half).fw.stewardDown = false →
    (t.half e.half).svc.writing = some r → ok = true → exec (.serviceRecordWriteDone e ok) s = .next (t.upd e.half fun x => x.recordDone r)) ∧
  (∀ (e : Ev) (ok : Bool) (r : SvcRecord) (s t : State), t = tick e s → (t.half e.half).clk.rimUp = true → (t.half e.half).fw.stewardDown = false →
    (t.half e.half).svc.writing = some r → ok = false → exec (.serviceRecordWriteDone e ok) s = .next (t.upd e.half fun x => x.inc
    F.SVC_REC_STAT_write_fail)) ∧
  (∀ (e : Ev) (v : Nat) (s t : State), t = tick e s → (t.half e.half).svc.soakVt = some v → 72 + 24 * ((t.half e.half).svc.soakMarks + 1) ≤ ((t.half
    e.half).vt.toNat - v) / 3600000000000 → exec (.soakTimer e) s = .next ((t.upd e.half fun x => { x with svc := { x.svc with soakMarks := x.svc.soakMarks + 1 } }).incident
    e.half 0x0E 0 .ok (((t.half e.half).vt.toNat - v) / 3600000000000)))

/-- The first lock of half 0, before a sequencer was enabled, steps VT to the grandmaster's time in both linked halves; another lock moves no VT and takes
the offset θ, which the register shows unless it is held; a rate is taken while locked; a lost grandmaster leaves holdover; a retired port serves no
servo; the other half is told of a lock and of a loss; a deviation above 1 ms either way is recorded, at most once per 100 ms, and slewed at 500 ppm.
Here t is the state once the command's own time has passed, and a row acts only where its condition holds: the model's choices of log entries 4 and
18. It rests on the model's readings of log entry 60 as well. Rules followed: R503. -/
def Obligations.VtServo : Prop :=
  (∀ (e : Ev) (ev : ServoEv) (gm : Nat) (s t : State), t = tick e s → (t.half e.half).clk.rimUp = true → (t.half e.half).svc.record.portRetired =
    false → ev = .lock gm → e.half = 0 → t.vtFixed = false → exec (.vtServoStep e ev) s = .next ((let u := t.upd 0 fun y => (y.stepVt gm).lockVt gm;
    (if t.h0.linkUp && t.h1.clk.rimUp then u.upd 1 fun y => y.stepVt gm else u).hatchSend 0 0x44 [5, 0]))) ∧
  (∀ (e : Ev) (ev : ServoEv) (gm : Nat) (s t : State), t = tick e s → (t.half e.half).clk.rimUp = true → (t.half e.half).svc.record.portRetired =
    false → ev = .lock gm → e.half ≠ 0 ∨ t.vtFixed = true → exec (.vtServoStep e ev) s = .next ((t.upd e.half fun y => let z : Half := { y with clk := { y.clk with theta := (gm : Int) - ((t.half e.half).vt.toNat : Int) } };
    (if y.fld F.CLK_VT_STAT_held = 1 then z else z.setFld F.CLK_VT_OFFSET_theta_ns (int64 ((gm : Int) - ((t.half e.half).vt.toNat : Int)))).lockVt
    gm).hatchSend e.half 0x44 [5, 0])) ∧
  (∀ (e : Ev) (ev : ServoEv) (ppb : Int) (s t : State), t = tick e s → (t.half e.half).clk.rimUp = true → (t.half e.half).svc.record.portRetired =
    false → ev = .rate ppb → (t.half e.half).fld F.CLK_VT_STAT_servo = 1 → exec (.vtServoStep e ev) s = .next (t.upd e.half fun y => y.setRate ppb
    1)) ∧
  (∀ (e : Ev) (ev : ServoEv) (s t : State), t = tick e s → (t.half e.half).clk.rimUp = true → (t.half e.half).svc.record.portRetired = false → ev =
    .lost → (t.half e.half).fld F.CLK_VT_STAT_servo = 1 → exec (.vtServoStep e ev) s = .next ((t.upd e.half fun y => y.setFld F.CLK_VT_STAT_servo
    2).hatchSend e.half 0x44 [5, 1])) ∧
  (∀ (e : Ev) (ev : ServoEv) (s t : State), t = tick e s → (t.half e.half).svc.record.portRetired = true → exec (.vtServoStep e ev) s = .next (t)) ∧
  (∀ (e : Ev) (devNs : Int) (s t : State), t = tick e s → (t.half e.half).clk.rimUp = true → 1000000 < devNs → (t.half e.half).clk.devVt = 0 → exec
    (.vtDeviationIncident e devNs) s = .next ((t.upd e.half fun y => ({ y with clk := { y.clk with devVt := y.vt.toNat + 1 } } : Half).setRate 500000
    3).incident e.half 0x12 0 .timeout ((devNs / 1000) % 2 ^ 32).toNat)) ∧
  (∀ (e : Ev) (devNs : Int) (s t : State), t = tick e s → (t.half e.half).clk.rimUp = true → devNs < -1000000 → (t.half e.half).clk.devVt ≠ 0 →
    (t.half e.half).clk.devVt + 100000000 ≤ (t.half e.half).vt.toNat + 1 → exec (.vtDeviationIncident e devNs) s = .next ((t.upd e.half fun y => ({ y with clk := { y.clk with devVt := y.vt.toNat + 1 } }
    : Half).setRate (-500000) 3).incident e.half 0x12 0 .timeout ((devNs / 1000) % 2 ^ 32).toNat))

/-- A tail write within the ring sets the producer index, and the queue is looked at; one behind the last index or beyond the ring changes nothing but is
recorded. A completion head within what was written hands the records back; one beyond it changes nothing but is recorded. Here t is the state once
the command's own time has passed, and a row acts only where its condition holds: the model's choices of log entries 4 and 18. It rests on the model's
readings of log entry 48 as well. Rules followed: R231, R232. -/
def Obligations.Doorbells : Prop :=
  (∀ (e : Ev) (q : Nat) (v : Nat) (s t : State), t = tick e s → t.queueUp q = true → (t.half (qHalf q)).qState (qIdx q) ≠ 0 → dist32 v ((t.half
    (qHalf q)).fld F.TEL_DB_HEAD_head (qIdx q)) ≤ qRingSize ((t.half (qHalf q)).queue (qIdx q)).record → dist32 ((t.half (qHalf q)).fld
    F.TEL_DB_TAIL_tail (qIdx q)) ((t.half (qHalf q)).fld F.TEL_DB_HEAD_head (qIdx q)) ≤ dist32 v ((t.half (qHalf q)).fld F.TEL_DB_HEAD_head (qIdx q))
    → exec (.telDbTailWrite e q v) s = .next ((t.upd (qHalf q) fun x => x.setFld F.TEL_DB_TAIL_tail v (qIdx q)).noteReady q)) ∧
  (∀ (e : Ev) (q : Nat) (v : Nat) (s t : State), t = tick e s → t.queueUp q = true → (t.half (qHalf q)).qState (qIdx q) ≠ 0 → qRingSize ((t.half
    (qHalf q)).queue (qIdx q)).record < dist32 v ((t.half (qHalf q)).fld F.TEL_DB_HEAD_head (qIdx q)) → exec (.telDbTailWrite e q v) s = .next
    (doorbellIncident t q)) ∧
  (∀ (e : Ev) (q : Nat) (v : Nat) (s t : State), t = tick e s → t.queueUp q = true → (t.half (qHalf q)).qState (qIdx q) ≠ 0 → dist32 v ((t.half
    (qHalf q)).fld F.TEL_DB_HEAD_head (qIdx q)) < dist32 ((t.half (qHalf q)).fld F.TEL_DB_TAIL_tail (qIdx q)) ((t.half (qHalf q)).fld
    F.TEL_DB_HEAD_head (qIdx q)) → exec (.telDbTailWrite e q v) s = .next (doorbellIncident t q)) ∧
  (∀ (e : Ev) (q : Nat) (v : Nat) (s t : State), t = tick e s → t.queueUp q = true → (t.half (qHalf q)).qState (qIdx q) ≠ 0 → dist32 v ((t.half
    (qHalf q)).fld F.TEL_DB_CQ_HEAD_cq_head (qIdx q)) ≤ dist32 ((t.half (qHalf q)).fld F.TEL_DB_CQ_TAIL_cq_tail (qIdx q)) ((t.half (qHalf q)).fld
    F.TEL_DB_CQ_HEAD_cq_head (qIdx q)) → exec (.telDbCqHeadWrite e q v) s = .next ((t.upd (qHalf q) fun x => x.setFld F.TEL_DB_CQ_HEAD_cq_head v
    (qIdx q)).noteReady q)) ∧
  (∀ (e : Ev) (q : Nat) (v : Nat) (s t : State), t = tick e s → t.queueUp q = true → (t.half (qHalf q)).qState (qIdx q) ≠ 0 → dist32 ((t.half (qHalf
    q)).fld F.TEL_DB_CQ_TAIL_cq_tail (qIdx q)) ((t.half (qHalf q)).fld F.TEL_DB_CQ_HEAD_cq_head (qIdx q)) < dist32 v ((t.half (qHalf q)).fld
    F.TEL_DB_CQ_HEAD_cq_head (qIdx q)) → exec (.telDbCqHeadWrite e q v) s = .next (doorbellIncident t q))

/-- A WAIT that comes to the head of its queue starts: it is refused at once, or held as the queue's barrier and, for a word elsewhere, its watch sent. A
local WAIT whose fence word is reached completes OK, and one whose word is not goes on waiting; one past its limit, of a queue that is neither
suspended nor paused, completes with TIMEOUT. A remote WAIT whose controller is not paused asks again, or for the first time after a rewind. A current
reply completes it, a stale one is counted. Here t is the state once the command's own time has passed, and a row acts only where its condition holds:
the model's choices of log entries 4 and 18. Rules followed: R236, R237, R239. -/
def Obligations.Waits : Prop :=
  (∀ (e : Ev) (q : Nat) (w : WaitRt) (s t : State), t = tick e s → t.waitAtHead q = none → ((t.half (qHalf q)).queue (qIdx q)).wait = some w →
    w.remote = false → (t.half (qHalf q)).qState (qIdx q) ≠ 4 → t.ctlPaused q = false → t.vdiRuns (qVdi ((t.half (qHalf q)).queue (qIdx q)).record) =
    true → t.waitMet w = true → exec (.waitLocalEvaluation e q) s = .next (t.endWait q w .ok 0)) ∧
  (∀ (e : Ev) (q : Nat) (w : WaitRt) (s t : State), t = tick e s → t.waitAtHead q = none → ((t.half (qHalf q)).queue (qIdx q)).wait = some w →
    t.waitMet w = false → exec (.waitLocalEvaluation e q) s = .next (t)) ∧
  (∀ (e : Ev) (q : Nat) (a : Nat × Nat) (u : State) (s t : State), t = tick e s → t.waitAtHead q = some a → u = t.startWait q a.1 a.2 → ((u.half
    (qHalf q)).queue (qIdx q)).wait = none → exec (.waitLocalEvaluation e q) s = .next (u)) ∧
  (∀ (e : Ev) (q : Nat) (a : Nat × Nat) (w : WaitRt) (u : State) (s t : State), t = tick e s → t.waitAtHead q = some a → u = t.startWait q a.1 a.2 →
    ((u.half (qHalf q)).queue (qIdx q)).wait = some w → w.remote = true ∨ u.waitMet w = false → exec (.waitLocalEvaluation e q) s = .next (u)) ∧
  (∀ (e : Ev) (q : Nat) (a : Nat × Nat) (w : WaitRt) (u : State) (s t : State), t = tick e s → t.waitAtHead q = some a → u = t.startWait q a.1 a.2 →
    ((u.half (qHalf q)).queue (qIdx q)).wait = some w → w.remote = false → (u.half (qHalf q)).qState (qIdx q) ≠ 4 → t.ctlPaused q = false → u.vdiRuns
    (qVdi ((u.half (qHalf q)).queue (qIdx q)).record) = true → u.waitMet w = true → exec (.waitLocalEvaluation e q) s = .next (u.endWait q w .ok 0)) ∧
  (∀ (e : Ev) (q : Nat) (w : WaitRt) (s t : State), t = tick e s → ((t.half (qHalf q)).queue (qIdx q)).wait = some w → w.since + qWaitMs ((t.half
    (qHalf q)).queue (qIdx q)).record * 1000000 ≤ (t.half (qHalf q)).vt.toNat → t.ctlPaused q = false → (t.half (qHalf q)).qState (qIdx q) ≠ 4 → exec
    (.waitLimitExpiry e q) s = .next (t.endWait q w .timeout (causeDetail 7 0))) ∧
  (∀ (e : Ev) (q : Nat) (w : WaitRt) (s t : State), t = tick e s → ((t.half (qHalf q)).queue (qIdx q)).wait = some w → w.remote = true → t.ctlPaused
    q = false → exec (.remoteWatchRepeat e q) s = .next (t.sendWatch q w)) ∧
  (∀ (e : Ev) (q : Nat) (a : Nat × Nat) (s t : State), t = tick e s → ((t.half (qHalf q)).queue (qIdx q)).wait = none → t.waitAtHead q = some a →
    exec (.remoteWatchRepeat e q) s = .next (t.startWait q a.1 a.2)) ∧
  (∀ (e : Ev) (q : Nat) (gen : Nat) (idx : Nat) (w : WaitRt) (s t : State), t = tick e s → t.ctlPaused q = false → ((t.half (qHalf q)).queue (qIdx
    q)).wait = some w → w.remote = true → gen = (t.half (qHalf q)).qGen (qIdx q) → idx = w.index → exec (.remoteWatchReply e q gen idx) s = .next
    (t.endWait q w .ok 0)) ∧
  (∀ (e : Ev) (q : Nat) (gen : Nat) (idx : Nat) (w : WaitRt) (s t : State), t = tick e s → t.ctlPaused q = false → ((t.half (qHalf q)).queue (qIdx
    q)).wait = some w → gen ≠ (t.half (qHalf q)).qGen (qIdx q) ∨ idx ≠ w.index ∨ w.remote = false → exec (.remoteWatchReply e q gen idx) s = .next
    (t.upd (qHalf q) fun x => x.inc F.WIN_STALE_GEN_stale_gen)) ∧
  (∀ (e : Ev) (q : Nat) (gen : Nat) (idx : Nat) (s t : State), t = tick e s → t.ctlPaused q = false → ((t.half (qHalf q)).queue (qIdx q)).wait = none
    → exec (.remoteWatchReply e q gen idx) s = .next (t.upd (qHalf q) fun x => x.inc F.WIN_STALE_GEN_stale_gen))

/-- A free core of a half in service takes the command that the arbiter chooses once the commands whose context is not valid are refused and the models
that waiting commands need are asked for; where none is chosen the core stays free. A fetched context goes into the cache; where its read fails the
commands that wait for it complete with that status; a changed one is written back. A victim core is asked to give way. When the switch of a graphics
partition is due, every core of it switches or is asked to; a switch ends with the core in the other mode, its handles unloaded and its clusters
empty, and one asked to turn to graphics meanwhile turns again. A late arrival of an old generation is counted. Here t is the state once the command's
own time has passed, and a row acts only where its condition holds: the model's choices of log entries 4 and 18. It rests on the model's readings of
log entries 33, 116, 151, 152, 153, 167 as well. Rules followed: R98, R244, R245, R247, R251, R411, R527. -/
def Obligations.Arbiter : Prop :=
  (∀ (e : Ev) (p : Nat) (l : Nat) (q : Nat) (w : State) (s t : State), t = tick e s → (t.half e.half).logical p = some l → (t.half
    e.half).clk.computeUp = true → ((t.half e.half).core p).free = true → w = (t.queuesOf e.half).foldl (fun u k => (u.refuseInvalid p k).wantModels
    k) t → w.draw.2.choose e.half l w.draw.1 = some q → exec (.coreFreeDispatch e p) s = .next (w.draw.2.dispatch e.half p q)) ∧
  (∀ (e : Ev) (p : Nat) (l : Nat) (w : State) (s t : State), t = tick e s → (t.half e.half).logical p = some l → (t.half e.half).clk.computeUp = true
    → ((t.half e.half).core p).free = true → w = (t.queuesOf e.half).foldl (fun u k => (u.refuseInvalid p k).wantModels k) t → w.draw.2.choose e.half
    l w.draw.1 = none → exec (.coreFreeDispatch e p) s = .next (w.draw.2)) ∧
  (∀ (e : Ev) (ctx : Nat) (s t : State), t = tick e s → (t.half e.half).clk.computeUp = true → t.ctxRead e.half ctx = .ok → exec (.contextFetchDone e
    ctx) s = .next (t.cacheCtx e.half ctx)) ∧
  (∀ (e : Ev) (ctx : Nat) (st : Status) (s t : State), t = tick e s → (t.half e.half).clk.computeUp = true → t.ctxRead e.half ctx = st → st ≠ .ok →
    exec (.contextFetchDone e ctx) s = .next (t.fetchFailed e.half ctx st)) ∧
  (∀ (e : Ev) (ctx : Nat) (s t : State), t = tick e s → exec (.contextWriteBack e ctx) s = .next (t.writeBack e.half ctx)) ∧
  (∀ (e : Ev) (ctx : Nat) (p : Nat) (s t : State), t = tick e s → t.victim e.half ctx = some p → exec (.preemptionRequest e ctx) s = .next (t.updCore
    e.half p fun c => { c with preemptBy := c.preemptBy.orElse fun _ => some ctx })) ∧
  (∀ (e : Ev) (part : Nat) (s t : State), t = tick e s → (t.half e.half).partKind part = 3 → (t.half e.half).clk.computeUp = true → (t.half
    e.half).ownerPaused e.half part = false → (t.half e.half).switchDue part = true → exec (.graphicsSwitchRequest e part) s = .next (((t.half
    e.half).partCores part).foldl (fun u p => u.updCore e.half p Core.toGraphics) t)) ∧
  (∀ (e : Ev) (p : Nat) (s t : State), t = tick e s → ((t.half e.half).core p).switching = true → exec (.modeSwitchDone e p) s = .next (t.updCore
    e.half p fun c => { c with switching := c.graphics && c.gfxReq, gfxReq := c.gfxReq && !c.graphics, graphics := !c.graphics, loadedCtx := none, clusters := [] })) ∧
  (∀ (e : Ev) (q : Nat) (gen : Nat) (s t : State), t = tick e s → gen ≠ (t.half (qHalf q)).qGen (qIdx q) → exec (.lateArrivalDiscard e q gen) s =
    .next (t.upd (qHalf q) fun x => x.inc F.TEL_VDI_STAT_stale_gen (qVdi (x.queue (qIdx q)).record)))

/-- An open window entry's condition is evaluated. A queue head's condition is judged and the watch kept, and the head made ready when it is met; one that
fails completes its command with that status, the ledger bytes of its outputs zeroed, where the completion ring has room. At the lag limit a match
counts as met; without one a halo condition with a fallback goes on through it, and one without completes with TIMEOUT, for a queue head and for a
window entry alike. Here t is the state once the command's own time has passed, and a row acts only where its condition holds: the model's choices of
log entries 4 and 18. It rests on the model's readings of log entries 30, 159 as well. Rules followed: R203, R204, R206. -/
def Obligations.Conditions : Prop :=
  (∀ (e : Ev) (w : Work) (n : Nat) (s t : State), t = tick e s → w = .entry n → exec (.rowConditionEvaluation e w) s = .next (t.evalEntry e.half n)) ∧
  (∀ (e : Ev) (w : Work) (q : Nat) (i : Nat) (c : CondRt) (s t : State), t = tick e s → w = .queue q → t.queueUp q = true → t.ctlPaused q = false →
    (t.half (qHalf q)).qState (qIdx q) ≠ 0 → (t.half (qHalf q)).qState (qIdx q) ≠ 4 → ((t.half (qHalf q)).queue (qIdx q)).wait = none → t.vdiRuns
    (qVdi ((t.half (qHalf q)).queue (qIdx q)).record) = true → (t.half (qHalf q)).nextIndex (qIdx q) = some (i, true) → qCond ((t.half (qHalf
    q)).queue (qIdx q)).record ≠ 0 → ((t.half (qHalf q)).queue (qIdx q)).cond = some c → c.met = false → c.viaFallback = false → (t.judgeCond (qHalf
    q) 0 false (t.half (qHalf q)).vt.toNat (some c)).2 = .met ∨ (t.judgeCond (qHalf q) 0 false (t.half (qHalf q)).vt.toNat (some c)).2 = .unmet →
    exec (.rowConditionEvaluation e w) s = .next (((t.upd (qHalf q) fun x => x.updQueue (qIdx q) fun k => { k with cond := (t.judgeCond (qHalf q) 0 false (t.half (qHalf q)).vt.toNat (some c)).1 }).upd
    (qHalf q) fun x => x.syncQueue (qIdx q)).noteReady q)) ∧
  (∀ (e : Ev) (w : Work) (q : Nat) (i : Nat) (c : CondRt) (st : Status) (s t : State), t = tick e s → w = .queue q → t.queueUp q = true → t.ctlPaused
    q = false → (t.half (qHalf q)).qState (qIdx q) ≠ 0 → (t.half (qHalf q)).qState (qIdx q) ≠ 4 → ((t.half (qHalf q)).queue (qIdx q)).wait = none →
    t.vdiRuns (qVdi ((t.half (qHalf q)).queue (qIdx q)).record) = true → (t.half (qHalf q)).nextIndex (qIdx q) = some (i, true) → qCond ((t.half
    (qHalf q)).queue (qIdx q)).record ≠ 0 → ((t.half (qHalf q)).queue (qIdx q)).cond = some c → c.met = false → c.viaFallback = false → (t.judgeCond
    (qHalf q) 0 false (t.half (qHalf q)).vt.toNat (some c)).2 = .failed st → (t.half (qHalf q)).cqRoom (qIdx q) = true → exec
    (.rowConditionEvaluation e w) s = .next (((((t.queueCondErrs q i).failQueue q i).completeHead q (t.queueDesc q i) st 0 true).noteReady
    q).noteIdle (qHalf q) (qCtx ((t.half (qHalf q)).queue (qIdx q)).record))) ∧
  (∀ (e : Ev) (w : Work) (q : Nat) (i : Nat) (s t : State), t = tick e s → w = .queue q → t.queueUp q = true → t.ctlPaused q = false → (t.half (qHalf
    q)).qState (qIdx q) ≠ 0 → (t.half (qHalf q)).qState (qIdx q) ≠ 4 → ((t.half (qHalf q)).queue (qIdx q)).wait = none → t.vdiRuns (qVdi ((t.half
    (qHalf q)).queue (qIdx q)).record) = true → (t.half (qHalf q)).nextIndex (qIdx q) = some (i, true) → qCond ((t.half (qHalf q)).queue (qIdx
    q)).record ≠ 0 → ((t.half (qHalf q)).queue (qIdx q)).cond = none → (t.judgeCond (qHalf q) (qCond ((t.half (qHalf q)).queue (qIdx q)).record + i %
    qRingSize ((t.half (qHalf q)).queue (qIdx q)).record * 32) false (t.half (qHalf q)).vt.toNat none).2 = .met ∨ (t.judgeCond (qHalf q) (qCond
    ((t.half (qHalf q)).queue (qIdx q)).record + i % qRingSize ((t.half (qHalf q)).queue (qIdx q)).record * 32) false (t.half (qHalf q)).vt.toNat
    none).2 = .unmet → exec (.rowConditionEvaluation e w) s = .next (((t.upd (qHalf q) fun x => x.updQueue (qIdx q) fun k => { k with cond := (t.judgeCond (qHalf q) (qCond ((t.half (qHalf q)).queue (qIdx q)).record + i % qRingSize ((t.half (qHalf q)).queue (qIdx q)).record * 32) false (t.half (qHalf q)).vt.toNat none).1 }).upd
    (qHalf q) fun x => x.syncQueue (qIdx q)).noteReady q)) ∧
  (∀ (e : Ev) (w : Work) (q : Nat) (i : Nat) (st : Status) (s t : State), t = tick e s → w = .queue q → t.queueUp q = true → t.ctlPaused q = false →
    (t.half (qHalf q)).qState (qIdx q) ≠ 0 → (t.half (qHalf q)).qState (qIdx q) ≠ 4 → ((t.half (qHalf q)).queue (qIdx q)).wait = none → t.vdiRuns
    (qVdi ((t.half (qHalf q)).queue (qIdx q)).record) = true → (t.half (qHalf q)).nextIndex (qIdx q) = some (i, true) → qCond ((t.half (qHalf
    q)).queue (qIdx q)).record ≠ 0 → ((t.half (qHalf q)).queue (qIdx q)).cond = none → (t.judgeCond (qHalf q) (qCond ((t.half (qHalf q)).queue (qIdx
    q)).record + i % qRingSize ((t.half (qHalf q)).queue (qIdx q)).record * 32) false (t.half (qHalf q)).vt.toNat none).2 = .failed st → (t.half
    (qHalf q)).cqRoom (qIdx q) = true → exec (.rowConditionEvaluation e w) s = .next (((((t.queueCondErrs q i).failQueue q i).completeHead q
    (t.queueDesc q i) st 0 true).noteReady q).noteIdle (qHalf q) (qCtx ((t.half (qHalf q)).queue (qIdx q)).record))) ∧
  (∀ (e : Ev) (w : Work) (q : Nat) (i : Nat) (c : CondRt) (s t : State), t = tick e s → w = .queue q → ((t.half (qHalf q)).queue (qIdx q)).cond =
    some c → (t.half (qHalf q)).nextIndex (qIdx q) = some (i, true) → (t.half (qHalf q)).lagOver c = true → t.ctlPaused q = false → (t.half (qHalf
    q)).qState (qIdx q) ≠ 4 → t.evalCond (qHalf q) c.cond false = .met → exec (.lagLimitExpiry e w) s = .next ((t.upd (qHalf q) fun x => x.updQueue
    (qIdx q) fun k => { k with cond := some { c with met := true } }).noteReady q)) ∧
  (∀ (e : Ev) (w : Work) (q : Nat) (i : Nat) (c : CondRt) (s t : State), t = tick e s → w = .queue q → ((t.half (qHalf q)).queue (qIdx q)).cond =
    some c → (t.half (qHalf q)).nextIndex (qIdx q) = some (i, true) → (t.half (qHalf q)).lagOver c = true → t.ctlPaused q = false → (t.half (qHalf
    q)).qState (qIdx q) ≠ 4 → t.evalCond (qHalf q) c.cond false ≠ .met → rFallback c.cond = 1 → exec (.lagLimitExpiry e w) s = .next
    (((t.countRecompute (qHalf q) c.cond).upd (qHalf q) fun x => x.updQueue (qIdx q) fun k => { k with cond := some { c with viaFallback := true } }).noteReady
    q)) ∧
  (∀ (e : Ev) (w : Work) (q : Nat) (i : Nat) (c : CondRt) (s t : State), t = tick e s → w = .queue q → ((t.half (qHalf q)).queue (qIdx q)).cond =
    some c → (t.half (qHalf q)).nextIndex (qIdx q) = some (i, true) → (t.half (qHalf q)).lagOver c = true → t.ctlPaused q = false → (t.half (qHalf
    q)).qState (qIdx q) ≠ 4 → t.evalCond (qHalf q) c.cond false ≠ .met → rFallback c.cond ≠ 1 → (t.half (qHalf q)).cqRoom (qIdx q) = true → exec
    (.lagLimitExpiry e w) s = .next (((t.completeHead q (t.queueDesc q i) .timeout (causeDetail 6 0) true).noteReady q).noteIdle (qHalf q) (qCtx
    ((t.half (qHalf q)).queue (qIdx q)).record))) ∧
  (∀ (e : Ev) (w : Work) (n : Nat) (c : CondRt) (s t : State), t = tick e s → w = .entry n → ((t.half e.half).inst n).cond = some c → ((t.half
    e.half).inst n).open_ = true → (t.half e.half).lagOver c = true → t.evalCond e.half c.cond true = .met → exec (.lagLimitExpiry e w) s = .next
    ((t.upd e.half fun x => x.setInst n { (t.half e.half).inst n with cond := some { c with met := true } }).startOpen e.half n)) ∧
  (∀ (e : Ev) (w : Work) (n : Nat) (c : CondRt) (s t : State), t = tick e s → w = .entry n → ((t.half e.half).inst n).cond = some c → ((t.half
    e.half).inst n).open_ = true → (t.half e.half).lagOver c = true → t.evalCond e.half c.cond true ≠ .met → rFallback c.cond = 0 → exec
    (.lagLimitExpiry e w) s = .next (t.completeInst e.half n 1 .timeout (causeDetail 6 0))) ∧
  (∀ (e : Ev) (w : Work) (n : Nat) (c : CondRt) (s t : State), t = tick e s → w = .entry n → ((t.half e.half).inst n).cond = some c → ((t.half
    e.half).inst n).open_ = true → (t.half e.half).lagOver c = true → t.evalCond e.half c.cond true ≠ .met → rFallback c.cond ≠ 0 → exec
    (.lagLimitExpiry e w) s = .next (((t.countRecompute e.half c.cond).upd e.half fun x => x.setInst n { (t.half e.half).inst n with cond := some { c with viaFallback := true } }).startFallback
    e.half n))

/-- The core that will serve an entry whose next instance starts within 1 µs, in the bank that will then be in force, is cleared and has its handles
loaded for the entry's context where that can be read and another is loaded. At its start an instance ends an unmet one before it, opens its round and
runs the entry's command; none starts from a bank on its way out; a half that rejoins runs its channels' assays instead. An unmet instance past its
end completes with TIMEOUT, its outputs' ledger bytes zeroed, and is counted. Here t is the state once the command's own time has passed, and a row
acts only where its condition holds: the model's choices of log entries 4 and 18. Rules followed: R224, R225. -/
def Obligations.WindowInstances : Prop :=
  (∀ (e : Ev) (n : Nat) (w : Nat) (p : Nat) (s t : State), t = tick e s → (t.half e.half).armEntry n (t.half e.half).vt.toNat = some w → (t.half
    e.half).clk.computeUp = true → wKind w = 1 → wEngine w ≠ 1 → (t.half e.half).servesNext (wCore w) = some p → ((t.half e.half).core p).takes =
    true → ((t.half e.half).core p).loadedCtx ≠ some (wCtx w) → t.loadStatus e.half p (wCtx w) = .ok → exec (.windowPreArm e n) s = .next
    ((t.cacheCtx e.half (wCtx w)).preArm e.half p (wCtx w))) ∧
  (∀ (e : Ev) (n : Nat) (a : Nat) (b : Nat) (s t : State), t = tick e s → (t.half e.half).win.running = true → (t.half e.half).clk.computeUp = true →
    wKind ((t.half e.half).activeEntry n) = 1 → (t.half e.half).nowInst ((t.half e.half).activeEntry n) (t.half e.half).vt.toNat = some (a, b) →
    ((t.half e.half).inst n).start ≠ a + 1 → (t.half e.half).startsAt a = true → exec (.windowInstanceStart e n) s = .next (((t.endUnmet e.half
    n).openInst e.half n ((t.half e.half).activeEntry n) a).runInst e.half n ((t.half e.half).activeEntry n))) ∧
  (∀ (e : Ev) (n : Nat) (a : Nat) (b : Nat) (s t : State), t = tick e s → (t.half e.half).win.running = true → (t.half e.half).clk.computeUp = true →
    wKind ((t.half e.half).activeEntry n) = 1 → (t.half e.half).nowInst ((t.half e.half).activeEntry n) (t.half e.half).vt.toNat = some (a, b) →
    (t.half e.half).startsAt a = false → exec (.windowInstanceStart e n) s = .next (t)) ∧
  (∀ (e : Ev) (n : Nat) (a : Nat) (b : Nat) (s t : State), t = tick e s → (t.half e.half).trials = true → (t.half e.half).clk.computeUp = true →
    wKind ((t.half e.half).activeEntry n) = 1 → (t.half e.half).nowInst ((t.half e.half).activeEntry n) (t.half e.half).vt.toNat = some (a, b) → exec
    (.windowInstanceStart e n) s = .next (t.startTrial e.half n ((t.half e.half).activeEntry n) a)) ∧
  (∀ (e : Ev) (n : Nat) (c : CondRt) (s t : State), t = tick e s → ((t.half e.half).inst n).start - 1 + wDuration ((t.half e.half).activeEntry n) *
    100 ≤ (t.half e.half).vt.toNat → ((t.half e.half).inst n).open_ = true → ((t.half e.half).inst n).cond = some c → exec (.windowInstanceEndUnmet e
    n) s = .next (((t.failOutputs e.half n).completeInst e.half n 1 .timeout (causeDetail 5 0)).upd e.half fun x => x.inc F.WIN_STAT_unmet))

/-- At its VT the standby bank, or else the validated pending bank, becomes active, the old bank's open instances ending unmet; the pending one is stored,
and where with it the half leaves its degraded operation its error pin is driven again. A cleared enable stops the sequencer at the frame's end, open
instances ending unmet, and is stored; a set one starts the active bank at the first frame start at or after its VT. Here t is the state once the
command's own time has passed, and a row acts only where its condition holds: the model's choices of log entries 4 and 18. It rests on the model's
readings of log entry 75 as well. Rules followed: R223, R255. -/
def Obligations.BanksAndEnable : Prop :=
  (∀ (e : Ev) (v : Nat) (u : State) (w : State) (s t : State), t = tick e s → (t.half e.half).clk.computeUp = true → (t.half e.half).tally.degradeAt
    = none → (t.half e.half).win.pendVt = some v → v ≤ (t.half e.half).vt.toNat → u = ((t.half e.half).win.inst.filter fun i => i.2.open_).foldl (fun
    u i => u.endUnmet e.half i.1) t → w = (u.upd e.half fun x => x.toPending v).saveConf e.half true → ((t.half e.half).degraded && !(w.half
    e.half).degraded) = false → exec (.bankActivationVt e) s = .next (w)) ∧
  (∀ (e : Ev) (v : Nat) (u : State) (w : State) (s t : State), t = tick e s → (t.half e.half).clk.computeUp = true → (t.half e.half).tally.degradeAt
    = none → (t.half e.half).win.pendVt = some v → v ≤ (t.half e.half).vt.toNat → u = ((t.half e.half).win.inst.filter fun i => i.2.open_).foldl (fun
    u i => u.endUnmet e.half i.1) t → w = (u.upd e.half fun x => x.toPending v).saveConf e.half true → (t.half e.half).degraded = true → (w.half
    e.half).degraded = false → exec (.bankActivationVt e) s = .next ((w.serr e.half).perrClear)) ∧
  (∀ (e : Ev) (v : Nat) (s t : State), t = tick e s → (t.half e.half).clk.computeUp = true → (t.half e.half).tally.degradeAt = some v → v ≤ (t.half
    e.half).vt.toNat → exec (.bankActivationVt e) s = .next ((((t.half e.half).win.inst.filter fun i => i.2.open_).foldl (fun u i => u.endUnmet
    e.half i.1) t).upd e.half fun x => x.toStandby v)) ∧
  (∀ (e : Ev) (v : Nat) (s t : State), t = tick e s → (t.half e.half).win.disableAt = some v → v ≤ (t.half e.half).vt.toNat → exec
    (.majorFrameEndDisable e) s = .next (((((t.half e.half).win.inst.filter fun i => i.2.open_).foldl (fun u i => u.endUnmet e.half i.1) t).upd
    e.half Half.stopWindows).saveConf e.half false)) ∧
  (∀ (e : Ev) (v : Nat) (s t : State), t = tick e s → (t.half e.half).win.enableAt = some v → (t.half e.half).nextFrame v ≤ (t.half e.half).vt.toNat
    → (t.half e.half).clk.computeUp = true → (t.half e.half).win.disableAt = none → exec (.windowEnableFrameStart e) s = .next (t.upd e.half fun x =>
    ({ x with win := { x.win with enableAt := none, running := true } } : Half).activateTasks ((t.half e.half).nextFrame v)))

/-- An open window entry whose condition is met, or else a queue's command with no Sieve window before its bound, occupies the Sieve where its descriptor
passes its checks; one that fails them completes with the status at once and is counted. At the end the kept entries and then the header are written,
what was read and written is paid, and the run ends OK, or RETRIED_OK where it had been re-run. An error is counted at the damaged rows and drops the
run: the first time it runs again, the second it ends with DATA_ERROR and an empty header. A run past its bound and 10 µs is dropped and ends with
TIMEOUT, an empty header and an incident. Here t is the state once the command's own time has passed, and a row acts only where its condition holds:
the model's choices of log entries 4 and 18. It rests on the model's readings of log entries 35, 36, 37, 82, 165 as well. Rules followed: R174, R182,
R183, R185, R186, R188. -/
def Obligations.SieveRuns : Prop :=
  (∀ (e : Ev) (w : Work) (n : Nat) (s t : State), t = tick e s → w = .entry n → ((t.half e.half).inst n).open_ = true → wEngine ((t.half
    e.half).activeEntry n) ≠ 0 → (t.half e.half).sieve = none → (t.half e.half).clk.computeUp = true → ((t.half e.half).inst n).cond = none → wCond
    ((t.half e.half).activeEntry n) = 0 → (t.half e.half).disp.cached.contains (wCtx ((t.half e.half).activeEntry n)) = true ∨ t.ctxRead e.half (wCtx
    ((t.half e.half).activeEntry n)) = .ok → t.access e.half (t.instCmd e.half n) 128 = .ok → (t.svCheck e.half (cVdi (t.ctx (wCtx ((t.half
    e.half).activeEntry n))).raw) (t.rdN (t.instCmd e.half n) 128)).1 = none → exec (.sieveCommandStart e w) s = .next (
      let en := (t.half e.half).activeEntry n
      let i := (t.half e.half).inst n
      ((t.cacheCtx e.half (wCtx en)).upd e.half fun x => (x.setInst n { i with count := i.count + 1, open_ := false, cond := none }).jitter (i.start
        - 1)).takeSieve e.half w i.count 0 en (t.rdN (t.instCmd e.half n) 128) (wCtx en) (cVdi (t.ctx (wCtx en)).raw))) ∧
  (∀ (e : Ev) (w : Work) (n : Nat) (st : Status) (s t : State), t = tick e s → w = .entry n → ((t.half e.half).inst n).open_ = true → wEngine
    ((t.half e.half).activeEntry n) ≠ 0 → (t.half e.half).sieve = none → (t.half e.half).clk.computeUp = true → ((t.half e.half).inst n).cond = none
    → wCond ((t.half e.half).activeEntry n) = 0 → (t.half e.half).disp.cached.contains (wCtx ((t.half e.half).activeEntry n)) = true ∨ t.ctxRead
    e.half (wCtx ((t.half e.half).activeEntry n)) = .ok → t.access e.half (t.instCmd e.half n) 128 = .ok → t.svCheck e.half (cVdi (t.ctx (wCtx
    ((t.half e.half).activeEntry n))).raw) (t.rdN (t.instCmd e.half n) 128) = (some st, false) → st ≠ .empty → exec (.sieveCommandStart e w) s =
    .next ((t.completeInst e.half n 1 st 0).countSieve e.half)) ∧
  (∀ (e : Ev) (w : Work) (q : Nat) (i : Nat) (s t : State), t = tick e s → w = .queue q → (t.half (qHalf q)).sieve = none → (t.half (qHalf
    q)).clk.computeUp = true → ((t.half (qHalf q)).win.inst.any fun i => i.2.open_ && wEngine ((t.half (qHalf q)).activeEntry i.1) = 1) = false →
    qEngine ((t.half (qHalf q)).queue (qIdx q)).record = 1 → (t.half (qHalf q)).fld F.WIN_DISP_STAT_paused 0 (qIdx q / 2048) = 0 → (t.half (qHalf
    q)).disp.cached.contains (qCtx ((t.half (qHalf q)).queue (qIdx q)).record) = true → t.ready q = true → (t.half (qHalf q)).nextIndex (qIdx q) =
    some (i, true) → t.access (qHalf q) (qRing ((t.half (qHalf q)).queue (qIdx q)).record + i % qRingSize ((t.half (qHalf q)).queue (qIdx q)).record
    * 128) 128 = .ok → cWeight (t.ctx (qCtx ((t.half (qHalf q)).queue (qIdx q)).record)).raw ≠ 0 → (t.svCheck (qHalf q) (qVdi ((t.half (qHalf
    q)).queue (qIdx q)).record) (t.rdN (qRing ((t.half (qHalf q)).queue (qIdx q)).record + i % qRingSize ((t.half (qHalf q)).queue (qIdx q)).record *
    128) 128)).1 = none → (t.half (qHalf q)).sieveGap = none → (t.half (qHalf q)).nextSieve = none → exec (.sieveCommandStart e w) s = .next
    (((t.accountDispatch (qHalf q) q (qCtx ((t.half (qHalf q)).queue (qIdx q)).record)).upd (qHalf q) fun x => ((x.incw F.TEL_DB_HEAD_head (qIdx
    q)).updQueue (qIdx q) fun k => { k with reserved := k.reserved + 1, flying := i :: k.flying, eligVt := none, cond := none }).syncQueue (qIdx
    q)).takeSieve (qHalf q) w i ((t.half (qHalf q)).qGen (qIdx q)) 0 (t.rdN (qRing ((t.half (qHalf q)).queue (qIdx q)).record + i % qRingSize
    ((t.half (qHalf q)).queue (qIdx q)).record * 128) 128) (qCtx ((t.half (qHalf q)).queue (qIdx q)).record) (qVdi ((t.half (qHalf q)).queue (qIdx
    q)).record))) ∧
  (∀ (e : Ev) (r : SieveRun) (s t : State), t = tick e s → (t.half e.half).sieve = some r → ((svInputs r.desc).any fun i => t.access e.half i.1 i.2
    (some r.vdi) = .dataError) = false → exec (.sieveCommandEnd e) s = .next (
      let o := t.svRun r.desc
      let a := svOutAddr r.desc
      let u := (o.written.zip (List.range o.written.length)).foldl (fun u w => u.storeV e.half r.vdi (a + 64 + 48 * w.2) w.1.bytes) { t with freeCtr := o.ctr }
      let f := u.draw
      let vt := if o.written = [] then f.1 % 2 ^ 64 else t.vtOf e.half
      ((f.2.storeV e.half r.vdi a (svHeader r.desc o.written.length o.passed o.kept o.invalid o.degenerate (if o.truncated then 1 else 0)
        vt)).paySieve e.half r o.written.length).endSieve e.half r (if r.retried then .retriedOk else .ok) o.invalid 1)) ∧
  (∀ (e : Ev) (r : SieveRun) (s t : State), t = tick e s → (t.half e.half).sieve = some r → r.retried = false → exec (.sieveDataError e) s = .next
    ((((((svInputs r.desc).foldl (fun u i => u.readErrs e.half i.1 i.2) t).dropSieve e.half r).upd e.half fun x => x.inc
    F.SIV_ERR_CNT_data_err).incident e.half 0x04 0 .dataError).upd e.half fun x => { x with sieve := some { r with retried := true, ranNs := r.ranNs + (x.vt.toNat - r.startVt), startVt := x.vt.toNat } })) ∧
  (∀ (e : Ev) (r : SieveRun) (s t : State), t = tick e s → (t.half e.half).sieve = some r → r.retried = true → exec (.sieveDataError e) s = .next
    (((((((svInputs r.desc).foldl (fun u i => u.readErrs e.half i.1 i.2) t).dropSieve e.half r).upd e.half fun x => x.inc
    F.SIV_ERR_CNT_data_err).incident e.half 0x04 0 .dataError).svEmptyHeader e.half r.vdi r.desc).endSieve e.half r .dataError 0 0)) ∧
  (∀ (e : Ev) (r : SieveRun) (s t : State), t = tick e s → (t.half e.half).sieve = some r → ((svInputs r.desc).any fun i => t.access e.half i.1 i.2
    (some r.vdi) = .dataError) = true → r.retried = false → exec (.sieveCommandEnd e) s = .next ((((((svInputs r.desc).foldl (fun u i => u.readErrs
    e.half i.1 i.2) t).dropSieve e.half r).upd e.half fun x => x.inc F.SIV_ERR_CNT_data_err).incident e.half 0x04 0 .dataError).upd e.half fun x => { x with sieve := some { r with retried := true, ranNs := r.ranNs + (x.vt.toNat - r.startVt), startVt := x.vt.toNat } })) ∧
  (∀ (e : Ev) (r : SieveRun) (s t : State), t = tick e s → (t.half e.half).sieve = some r → ((svInputs r.desc).any fun i => t.access e.half i.1 i.2
    (some r.vdi) = .dataError) = true → r.retried = true → exec (.sieveCommandEnd e) s = .next (((((((svInputs r.desc).foldl (fun u i => u.readErrs
    e.half i.1 i.2) t).dropSieve e.half r).upd e.half fun x => x.inc F.SIV_ERR_CNT_data_err).incident e.half 0x04 0 .dataError).svEmptyHeader e.half
    r.vdi r.desc).endSieve e.half r .dataError 0 0)) ∧
  (∀ (e : Ev) (r : SieveRun) (s t : State), t = tick e s → (t.half e.half).sieve = some r → svBound r.desc + 10000 < t.vtOf e.half - r.startVt → exec
    (.sieveWatchdog e) s = .next (((((t.dropSieve e.half r).upd e.half fun x => x.inc F.SIV_ERR_CNT_overrun).incident e.half 0x04 0
    .timeout).svEmptyHeader e.half r.vdi r.desc).endSieve e.half r .timeout 0 0))

/-- A patrolled row counts toward the pass; an error in a row that no allocation covers is counted and the row rewritten as zero, one in an allocated row
is counted and recorded. A failed bank starts its move to a spare, or waits for the one under way. A finished move switches the map, the rows that
failed still failing at the spare, and starts the next. A group that fails with no spare left is withdrawn. Here t is the state once the command's own
time has passed, and a row acts only where its condition holds: the model's choices of log entries 4 and 18. It rests on the model's readings of log
entries 61, 66, 161, 173, 176 as well. Rules followed: R121, R122, R129, R305, R310. -/
def Obligations.StrongroomRepairs : Prop :=
  (∀ (e : Ev) (row : Nat) (err : Bool) (s t : State), t = tick e s → (t.half e.half).clk.computeUp = true → (t.half e.half).fld F.STR_PATROL_enable ≠
    0 → row < 1048576 → (t.half e.half).groupShut (row / 131072) = false → err = false → kget (fun _ => false) (t.half e.half).str.badRow row = false
    → exec (.patrolRowRead e row err) s = .next (t.upd e.half Half.patrolled)) ∧
  (∀ (e : Ev) (row : Nat) (err : Bool) (s t : State), t = tick e s → (t.half e.half).clk.computeUp = true → (t.half e.half).fld F.STR_PATROL_enable ≠
    0 → row < 1048576 → (t.half e.half).groupShut (row / 131072) = false → err = true ∨ kget (fun _ => false) (t.half e.half).str.badRow row = true →
    (t.half e.half).gran (row / 512) ≤ 1 → exec (.patrolRowRead e row err) s = .next (((t.upd e.half Half.patrolled).strErr e.half (row *
    128)).clearRows e.half (row * 128) 128)) ∧
  (∀ (e : Ev) (row : Nat) (err : Bool) (s t : State), t = tick e s → (t.half e.half).clk.computeUp = true → (t.half e.half).fld F.STR_PATROL_enable ≠
    0 → row < 1048576 → (t.half e.half).groupShut (row / 131072) = false → err = true ∨ kget (fun _ => false) (t.half e.half).str.badRow row = true →
    1 < (t.half e.half).gran (row / 512) → exec (.patrolRowRead e row err) s = .next ((t.upd e.half Half.patrolled).countMemErr e.half 0 1 (row *
    128))) ∧
  (∀ (e : Ev) (bank : Nat) (s t : State), t = tick e s → (t.half e.half).clk.computeUp = true → (t.half e.half).bankFailed bank = true → (t.half
    e.half).str.move = none → exec (.strongroomBankRetire e bank) s = .next (t.upd e.half fun x => x.startMove bank)) ∧
  (∀ (e : Ev) (bank : Nat) (mv : Move) (s t : State), t = tick e s → (t.half e.half).clk.computeUp = true → (t.half e.half).bankFailed bank = true →
    (t.half e.half).str.move = some mv → (t.half e.half).bankOf bank ≠ some mv.logical → (t.half e.half).str.moveWait.contains bank = false → exec
    (.strongroomBankRetire e bank) s = .next (t.upd e.half fun x => { x with str := { x.str with moveWait := x.str.moveWait ++ [bank] } })) ∧
  (∀ (e : Ev) (badRows : List Nat) (mv : Move) (s t : State), t = tick e s → (t.half e.half).str.move = some mv → exec (.bankMoveDone e badRows) s =
    .next (t.upd e.half fun x => x.moveDone mv badRows)) ∧
  (∀ (e : Ev) (g : Nat) (s t : State), t = tick e s → (t.half e.half).clk.computeUp = true → g < 8 → (t.half e.half).isWithdrawn g = false →
    ((List.range 8).any fun i => (t.half e.half).bankFailed (kget (fun l => l) (t.half e.half).svc.record.bankMap (8 * g + i))) = true → (t.half
    e.half).freeBank = none → exec (.groupWithdrawal e g) s = .next (t.withdraw e.half g))

/-- The granule freed first reads zero, is free and may grant a waiting request; a reopened group reads zero, is open and may grant one. The door of a
unit that may be shut closes; closed for at most 2 µs it is powered off: a group reads zero, a core loses its memories and is counted, a channel's bit
is set. One that has not drained within 2 µs opens again and is counted, at the third abort within 1 s it is left open and recorded, and requests that
wait for a group's granules are tried. A request at a closed door is counted and refused: an application core faults, a descriptor fails with
BANK_SHUT. Here t is the state once the command's own time has passed, and a row acts only where its condition holds: the model's choices of log
entries 4 and 18. It rests on the model's readings of log entry 62 as well. Rules followed: R127, R128, R342, R343, R528. -/
def Obligations.StrongroomGranules : Prop :=
  (∀ (e : Ev) (g : Nat) (r : List Nat) (s t : State), t = tick e s → (t.half e.half).str.zeroQ = g :: r → exec (.granuleZeroed e) s = .next
    (((t.clearRows e.half (g * 0x10000) 0x10000).upd e.half fun x => ({ x with str := { x.str with zeroQ := r, gran := kput (fun _ => 0) x.str.gran g 0 } }
    : Half).syncFree).retryAllocs e.half)) ∧
  (∀ (e : Ev) (g : Nat) (s t : State), t = tick e s → (t.half e.half).str.opening.contains g = true → bits ((t.half e.half).fld
    F.STR_GROUP_STATE_shut) g 1 ≠ 0 → (t.half e.half).isWithdrawn g = false → exec (.groupReopenDone e g) s = .next (((t.upd e.half fun x => ({ x with str := { x.str with opening := x.str.opening.erase g } }
    : Half).setFld F.STR_GROUP_STATE_shut (setBits (x.fld F.STR_GROUP_STATE_shut) g 1 0)).clearRows e.half (g * 0x1000000) 0x1000000).retryAllocs
    e.half)) ∧
  (∀ (e : Ev) (unit : ShutUnit) (s t : State), t = tick e s → (t.half e.half).unitUp unit = true → (t.half e.half).fw.stewardDown = false → (t.half
    e.half).mayShut unit = true → (t.half e.half).closingAt (shutKey unit) = none → (t.half e.half).shutAgain (shutKey unit) = true → exec
    (.shutterClose e unit) s = .next (t.upd e.half fun x => x.closeDoor (shutKey unit) t.now)) ∧
  (∀ (e : Ev) (unit : ShutUnit) (at0 : Nat) (s t : State), t = tick e s → (t.half e.half).unitUp unit = true → (t.half e.half).fw.stewardDown = false
    → (t.half e.half).mayShut unit = true → (t.half e.half).closingAt (shutKey unit) = some at0 → at0 + 2000 < t.now → exec (.shutterClose e unit) s
    = .next (t.shutAborts e.half unit)) ∧
  (∀ (e : Ev) (unit : ShutUnit) (g : Nat) (at0 : Nat) (s t : State), t = tick e s → (t.half e.half).unitUp unit = true → (t.half
    e.half).fw.stewardDown = false → (t.half e.half).mayShut unit = true → unit = .group g → (t.half e.half).closingAt (shutKey unit) = some at0 →
    t.now ≤ at0 + 2000 → exec (.shutterClose e unit) s = .next (((t.upd e.half fun x => x.openDoor (shutKey unit)).upd e.half fun x => x.setFld
    F.STR_GROUP_STATE_shut (setBits (x.fld F.STR_GROUP_STATE_shut) g 1 1)).clearRows e.half (g * 0x1000000) 0x1000000)) ∧
  (∀ (e : Ev) (unit : ShutUnit) (p : Nat) (at0 : Nat) (s t : State), t = tick e s → (t.half e.half).unitUp unit = true → (t.half
    e.half).fw.stewardDown = false → (t.half e.half).mayShut unit = true → unit = .core p → (t.half e.half).closingAt (shutKey unit) = some at0 →
    t.now ≤ at0 + 2000 → exec (.shutterClose e unit) s = .next ((t.upd e.half fun x => x.openDoor (shutKey unit)).upd e.half fun x => (x.updCore p
    Core.shutDown).inc F.MNT_SHUT_cores_shut)) ∧
  (∀ (e : Ev) (unit : ShutUnit) (n : Nat) (at0 : Nat) (s t : State), t = tick e s → (t.half e.half).unitUp unit = true → (t.half
    e.half).fw.stewardDown = false → (t.half e.half).mayShut unit = true → unit = .chan n → (t.half e.half).closingAt (shutKey unit) = some at0 →
    t.now ≤ at0 + 2000 → exec (.shutterClose e unit) s = .next ((t.upd e.half fun x => x.openDoor (shutKey unit)).upd e.half fun x => x.shutChan n)) ∧
  (∀ (e : Ev) (unit : ShutUnit) (at0 : Nat) (g : Nat) (s t : State), t = tick e s → (t.half e.half).closingAt (shutKey unit) = some at0 → at0 + 2000
    ≤ t.now → (within (t.half e.half).vt.toNat 1000000000 (kget (fun _ => []) (t.half e.half).mint.aborts (shutKey unit))).length < 2 → unit = .group
    g → exec (.shutterDrainTimeout e unit) s = .next ((((t.upd e.half fun x => x.abortShut (shutKey unit) false ((t.half e.half).vt.toNat :: within
    (t.half e.half).vt.toNat 1000000000 (kget (fun _ => []) (t.half e.half).mint.aborts (shutKey unit))))).upd e.half fun x => { x with str := { x.str with opening := x.str.opening.erase g } }).retryAllocs
    e.half)) ∧
  (∀ (e : Ev) (unit : ShutUnit) (at0 : Nat) (p : Nat) (s t : State), t = tick e s → (t.half e.half).closingAt (shutKey unit) = some at0 → at0 + 2000
    ≤ t.now → (within (t.half e.half).vt.toNat 1000000000 (kget (fun _ => []) (t.half e.half).mint.aborts (shutKey unit))).length < 2 → unit = .core
    p ∨ unit = .chan p → exec (.shutterDrainTimeout e unit) s = .next ((t.upd e.half fun x => x.abortShut (shutKey unit) false ((t.half
    e.half).vt.toNat :: within (t.half e.half).vt.toNat 1000000000 (kget (fun _ => []) (t.half e.half).mint.aborts (shutKey unit)))))) ∧
  (∀ (e : Ev) (unit : ShutUnit) (at0 : Nat) (g : Nat) (s t : State), t = tick e s → (t.half e.half).closingAt (shutKey unit) = some at0 → at0 + 2000
    ≤ t.now → 2 ≤ (within (t.half e.half).vt.toNat 1000000000 (kget (fun _ => []) (t.half e.half).mint.aborts (shutKey unit))).length → unit = .group
    g → exec (.shutterDrainTimeout e unit) s = .next ((((t.upd e.half fun x => x.abortShut (shutKey unit) true ((t.half e.half).vt.toNat :: within
    (t.half e.half).vt.toNat 1000000000 (kget (fun _ => []) (t.half e.half).mint.aborts (shutKey unit)))).incident e.half 0x09 (shutUnit unit)
    .internal).upd e.half fun x => { x with str := { x.str with opening := x.str.opening.erase g } }).retryAllocs e.half)) ∧
  (∀ (e : Ev) (unit : ShutUnit) (at0 : Nat) (p : Nat) (s t : State), t = tick e s → (t.half e.half).closingAt (shutKey unit) = some at0 → at0 + 2000
    ≤ t.now → 2 ≤ (within (t.half e.half).vt.toNat 1000000000 (kget (fun _ => []) (t.half e.half).mint.aborts (shutKey unit))).length → unit = .core
    p ∨ unit = .chan p → exec (.shutterDrainTimeout e unit) s = .next ((t.upd e.half fun x => x.abortShut (shutKey unit) true ((t.half
    e.half).vt.toNat :: within (t.half e.half).vt.toNat 1000000000 (kget (fun _ => []) (t.half e.half).mint.aborts (shutKey unit)))).incident e.half
    0x09 (shutUnit unit) .internal)) ∧
  (∀ (e : Ev) (unit : ShutUnit) (who : Master) (n : Nat) (s t : State), t = tick e s → ((t.half e.half).unitShut unit || ((t.half e.half).closingAt
    (shutKey unit)).isSome) = true → who = .app n → exec (.shutDoorRefusal e unit who) s = .next ((t.upd e.half fun x => x.inc
    F.MNT_SHUT_late).accessFault e.half n)) ∧
  (∀ (e : Ev) (unit : ShutUnit) (who : Master) (p : Nat) (i : Nat) (s t : State), t = tick e s → ((t.half e.half).unitShut unit || ((t.half
    e.half).closingAt (shutKey unit)).isSome) = true → who = .dma p i → exec (.shutDoorRefusal e unit who) s = .next ((t.upd e.half fun x => x.inc
    F.MNT_SHUT_late).failDma e.half p i .bankShut)) ∧
  (∀ (e : Ev) (unit : ShutUnit) (who : Master) (s t : State), t = tick e s → ((t.half e.half).unitShut unit || ((t.half e.half).closingAt (shutKey
    unit)).isSome) = true → who = .steward ∨ who = .other → exec (.shutDoorRefusal e unit who) s = .next ((t.upd e.half fun x => x.inc
    F.MNT_SHUT_late)))

/-- STR_ALLOC of a count that fits allocates for its owner and answers, or waits for granules that are about to be free and answers later; STR_FREE of the
sender's own granules frees them and evicts the models in them; CACHE_SIZE gives a first model cache, and one that fits grows in place, where
shuttered groups of its place reopen first; MODEL_LOAD of a model that is held answers its state, and of another places the image LOADING; a finished
load makes it RESIDENT and the waiting commands are looked at; MODEL_PIN of a usable entry that fits and MODEL_UNPIN of a usable one change its state
and answer it; STR_PATROL sets the enable and stores it. Here t is the state once the command's own time has passed, and a row acts only where its
condition holds: the model's choices of log entries 4 and 18. u is that state after what its half had under way, in which the message is accepted. It
rests on the model's readings of log entries 9, 63, 64 as well. Rules followed: R127, R130, R132, R133, R255, R528. -/
def Obligations.StrongroomMessages : Prop :=
  (∀ (e : Ev) (m : Msg) (count : Nat) (group : Nat) (a : Status × Nat) (s t u : State), t = tick e s → u = t.settleMsgs e.half → u.accepts e.half m
    0x40 .vl true = true → count ≠ 0 → count ≤ 2048 → group ≤ 7 ∨ group = 0xFF → (u.alloc e.half { msg := m, owner := granOwner m, count := count, group := group, run := none, cache := 0 }).2
    = some a → exec (.strAlloc e m count group) s = .next ((u.alloc e.half { msg := m, owner := granOwner m, count := count, group := group, run := none, cache := 0 }).1.reply
    e.half m 0x40 a.1 a.2)) ∧
  (∀ (e : Ev) (m : Msg) (count : Nat) (group : Nat) (s t u : State), t = tick e s → u = t.settleMsgs e.half → u.accepts e.half m 0x40 .vl true = true
    → count ≠ 0 → count ≤ 2048 → group ≤ 7 ∨ group = 0xFF → (u.alloc e.half { msg := m, owner := granOwner m, count := count, group := group, run := none, cache := 0 }).2
    = none → exec (.strAlloc e m count group) s = .next ((u.alloc e.half { msg := m, owner := granOwner m, count := count, group := group, run := none, cache := 0 }).1)) ∧
  (∀ (e : Ev) (m : Msg) (off : Nat) (count : Nat) (s t u : State), t = tick e s → u = t.settleMsgs e.half → u.accepts e.half m 0x41 .vl true = true →
    count ≠ 0 → off % 0x10000 = 0 → off + count * 0x10000 ≤ 0x8000000 → u.inVault (strBase e.half + off) (count * 0x10000) = false → (((List.range
    count).map (off / 0x10000 + ·)).all fun g => (u.half e.half).gran g = granOwner m) = true → exec (.strFree e m off count) s = .next (
      let l := (List.range count).map (off / 0x10000 + ·)
      (u.upd e.half fun x => ({ x with str := { x.str with models := evict (fun k => (List.range k.len).any fun i => l.contains (k.gran + i)) x.str.models } }
        : Half).freeRun l).reply e.half m 0x41 .ok 0)) ∧
  (∀ (e : Ev) (m : Msg) (count : Nat) (i : Nat) (s t u : State), t = tick e s → u = t.settleMsgs e.half → u.accepts e.half m 0x42 .l false = true →
    count ≠ 0 → count ≤ 2048 → (u.half e.half).clk.computeUp = true → (u.half e.half).str.cacheLen = 0 → u.tryAlloc e.half ownerDevice count 0xFF =
    .grant i → exec (.cacheSize e m count) s = .next (((u.upd e.half fun y => (y.giveRun ownerDevice i count).sizeCache i count).saveConf e.half
    false).reply e.half m 0x42 .ok 0)) ∧
  (∀ (e : Ev) (m : Msg) (count : Nat) (i : Nat) (gs : List Nat) (s t u : State), t = tick e s → u = t.settleMsgs e.half → u.accepts e.half m 0x42 .l
    false = true → count ≠ 0 → count ≤ 2048 → (u.half e.half).clk.computeUp = true → (u.half e.half).str.cacheLen = 0 → u.tryAlloc e.half ownerDevice
    count 0xFF = .open_ i gs → exec (.cacheSize e m count) s = .next (u.upd e.half fun x => { x with str := { x.str with waits := x.str.waits ++ [{ msg := m, owner := ownerDevice, count := count, group := 0xFF, run := some i, cache := count }], opening := x.str.opening ++ gs.filter fun g => !x.str.opening.contains g } })) ∧
  (∀ (e : Ev) (m : Msg) (count : Nat) (i : Nat) (s t u : State), t = tick e s → u = t.settleMsgs e.half → u.accepts e.half m 0x42 .l false = true →
    count ≤ 2048 → (u.half e.half).clk.computeUp = true → (u.half e.half).str.cacheLen ≠ 0 → (u.half e.half).str.cacheLen < count → u.growCache
    e.half (count - (u.half e.half).str.cacheLen) = .grant i → exec (.cacheSize e m count) s = .next (((u.upd e.half fun y => (y.giveRun ownerDevice
    i (count - (u.half e.half).str.cacheLen)).sizeCache i count).saveConf e.half false).reply e.half m 0x42 .ok 0)) ∧
  (∀ (e : Ev) (m : Msg) (key : Nat) (src : Nat) (size : Nat) (k : ModelEntry) (s t u : State), t = tick e s → u = t.settleMsgs e.half → u.accepts
    e.half m 0x43 .v true = true → size ≠ 0 → (u.half e.half).model key m.vdi = some k → exec (.modelLoad e m key src size) s = .next (u.reply e.half
    m 0x43 .ok k.state)) ∧
  (∀ (e : Ev) (m : Msg) (key : Nat) (src : Nat) (size : Nat) (i : Nat) (l : List ModelEntry) (s t u : State), t = tick e s → u = t.settleMsgs e.half
    → u.accepts e.half m 0x43 .v true = true → size ≠ 0 → (u.half e.half).model key m.vdi = none → (u.srcBytes e.half m src size).1 = .ok → (u.half
    e.half).modelPlace (granBytes size) (u.half e.half).str.models.length (u.half e.half).str.models = some (i, l) → exec (.modelLoad e m key src
    size) s = .next ((u.putModel e.half key m.vdi (u.vdi m.vdi).mark src size i (u.srcBytes e.half m src size).2 l).reply e.half m 0x43 .ok 1)) ∧
  (∀ (e : Ev) (key : Nat) (vdi : Nat) (u : State) (s t : State), t = tick e s → u = (t.upd e.half fun x => { x with str := { x.str with models := x.str.models.map fun m => if m.key = key && m.vdi = vdi && m.state = 1 then { m with state := 2 } else m } })
    → exec (.modelLoadDone e key vdi) s = .next ((u.queuesOf 0 ++ u.queuesOf 1).foldl State.noteReady u)) ∧
  (∀ (e : Ev) (m : Msg) (key : Nat) (k : ModelEntry) (s t u : State), t = tick e s → u = t.settleMsgs e.half → u.accepts e.half m 0x44 .v true = true
    → (u.half e.half).model key m.vdi = some k → k.state ≠ 1 → (((u.upd e.half fun x => { x with str := { x.str with models := x.str.models.map fun q => if q = k then { q with state := 3 } else q } }).half
    e.half).str.models.filter fun q => q.state = 3).foldl (fun n q => n + q.len) 0 ≤ (u.half e.half).str.cacheLen → exec (.modelPin e m key) s =
    .next (((u.upd e.half fun x => { x with str := { x.str with models := x.str.models.map fun q => if q = k then { q with state := 3 } else q } }).saveConf
    e.half false).reply e.half m 0x44 .ok 3)) ∧
  (∀ (e : Ev) (m : Msg) (key : Nat) (k : ModelEntry) (s t u : State), t = tick e s → u = t.settleMsgs e.half → u.accepts e.half m 0x44 .v true = true
    → (u.half e.half).model key m.vdi = some k → k.state ≠ 1 → (((u.upd e.half fun x => { x with str := { x.str with models := x.str.models.map fun q => if q = k then { q with state := 2 } else q } }).half
    e.half).str.models.filter fun q => q.state = 3).foldl (fun n q => n + q.len) 0 ≤ (u.half e.half).str.cacheLen → exec (.modelUnpin e m key) s =
    .next (((u.upd e.half fun x => { x with str := { x.str with models := x.str.models.map fun q => if q = k then { q with state := 2 } else q } }).saveConf
    e.half false).reply e.half m 0x44 .ok 2)) ∧
  (∀ (e : Ev) (m : Msg) (key : Nat) (s t u : State), t = tick e s → u = t.settleMsgs e.half → u.accepts e.half m 0x44 .v true = true → (u.half
    e.half).model key m.vdi = none → exec (.modelPin e m key) s = .next (u.reply e.half m 0x44 .badArg 0)) ∧
  (∀ (e : Ev) (m : Msg) (enable : Bool) (s t u : State), t = tick e s → u = t.settleMsgs e.half → u.accepts e.half m 0x45 .l false = true → exec
    (.strPatrol e m enable) s = .next (((u.upd e.half fun x => x.setFld F.STR_PATROL_enable (if enable then 1 else 0)).saveConf e.half false).reply
    e.half m 0x45 .ok 0))

/-- On an enabled receiver a corrected header is counted and its packet used. A long packet of a stream's data type is placed in its slot, and one of no
slot is counted. A frame start opens and a frame end closes the frames of the channel's slots. A frame that is overdue closes by timeout with the
interval failure. An intact embedded line is read by the channel's open frames; one that fails its CRC, or that finds no open frame, is counted. A
lost header blocks the receiver's open frames. Here t is the state once the command's own time has passed, and a row acts only where its condition
holds: the model's choices of log entries 4 and 18. It rests on the model's readings of log entries 67, 68, 69, 72 as well. Rules followed: R190,
R191, R197, R199, R210, R211. -/
def Obligations.IntakePackets : Prop :=
  (∀ (e : Ev) (rx : Nat) (vc : Nat) (dt : Nat) (px : List Nat) (crcOk : Bool) (corrected : Bool) (k : Nat) (s t : State), t = tick e s → (t.half
    e.half).rxOn rx = true → (((t.half e.half).slotsOf rx vc).find? fun k => imageType dt && decide ((t.half e.half).fld F.INT_STREAM_CFG_data_type k
    = dt)) = some k → exec (.longPacket e rx vc dt px crcOk corrected) s = .next ((t.upd e.half fun x => x.header { rx := rx, corrected := corrected }).placeLine
    e.half rx k px crcOk)) ∧
  (∀ (e : Ev) (rx : Nat) (vc : Nat) (dt : Nat) (px : List Nat) (crcOk : Bool) (corrected : Bool) (s t : State), t = tick e s → (t.half e.half).rxOn
    rx = true → (((t.half e.half).slotsOf rx vc).find? fun k => imageType dt && decide ((t.half e.half).fld F.INT_STREAM_CFG_data_type k = dt)) =
    none → exec (.longPacket e rx vc dt px crcOk corrected) s = .next ((t.upd e.half fun x => x.header { rx := rx, corrected := corrected }).upd
    e.half fun x => x.inc F.INT_RX_ERR_CNT_other_drop rx)) ∧
  (∀ (e : Ev) (hd : RxHdr) (vc : Nat) (frameNo : Nat) (s t : State), t = tick e s → (t.half e.half).rxOn hd.rx = true → exec (.frameStart e hd vc
    frameNo) s = .next ((((t.half e.half).slotsOf hd.rx vc).foldl (fun u k => u.openFrame e.half k frameNo) (t.upd e.half fun y => y.header hd)).upd
    e.half Half.dropRan)) ∧
  (∀ (e : Ev) (hd : RxHdr) (vc : Nat) (frameNo : Nat) (k : Nat) (s t : State), t = tick e s → (t.half e.half).rxOn hd.rx = true → (t.half
    e.half).slotsOf hd.rx vc = [k] → exec (.frameStart e hd vc frameNo) s = .next (((t.upd e.half fun y => y.header hd).openFrame e.half k
    frameNo).upd e.half Half.dropRan)) ∧
  (∀ (e : Ev) (hd : RxHdr) (vc : Nat) (s t : State), t = tick e s → (t.half e.half).rxOn hd.rx = true → exec (.frameEnd e hd vc) s = .next (((t.half
    e.half).slotsOf hd.rx vc).foldl (fun u k => u.closeFrame e.half k false) (t.upd e.half fun y => y.header hd))) ∧
  (∀ (e : Ev) (hd : RxHdr) (vc : Nat) (k : Nat) (s t : State), t = tick e s → (t.half e.half).rxOn hd.rx = true → (t.half e.half).slotsOf hd.rx vc =
    [k] → exec (.frameEnd e hd vc) s = .next ((t.upd e.half fun y => y.header hd).closeFrame e.half k false)) ∧
  (∀ (e : Ev) (slot : Nat) (p : Nat) (s t : State), t = tick e s → (t.half e.half).clk.rimUp = true → (t.half e.half).streamOn slot = true → ((t.half
    e.half).stream slot).timedOut = false → ((t.half e.half).stream slot).prevFs = some p → 3 * (t.half e.half).fld F.INT_STREAM_GEOM_nominal_ns slot
    ≤ 2 * ((t.half e.half).vt.toNat - p) → exec (.frameCloseTimeout e slot) s = .next (t.noFrame e.half slot)) ∧
  (∀ (e : Ev) (hd : RxHdr) (vc : Nat) (line : EmbLine) (s t : State), t = tick e s → (t.half e.half).rxOn hd.rx = true → ((t.half e.half).slotsOf
    hd.rx vc).filter (fun k => ((t.half e.half).stream k).frameOpen) ≠ [] → line.crcOk = true → exec (.embeddedDataLine e hd vc line) s = .next
    ((((t.half e.half).slotsOf hd.rx vc).filter (fun k => ((t.half e.half).stream k).frameOpen)).foldl (fun u k => u.embeddedLine e.half k line.data)
    (t.upd e.half fun y => y.header hd))) ∧
  (∀ (e : Ev) (hd : RxHdr) (vc : Nat) (line : EmbLine) (s t : State), t = tick e s → (t.half e.half).rxOn hd.rx = true → ((t.half e.half).slotsOf
    hd.rx vc).filter (fun k => ((t.half e.half).stream k).frameOpen) ≠ [] → line.crcOk = false → exec (.embeddedDataLine e hd vc line) s = .next
    ((t.upd e.half fun y => y.header hd).upd e.half fun x => x.inc F.INT_RX_ERR_CNT_crc_drop hd.rx)) ∧
  (∀ (e : Ev) (hd : RxHdr) (vc : Nat) (line : EmbLine) (s t : State), t = tick e s → (t.half e.half).rxOn hd.rx = true → ((t.half e.half).slotsOf
    hd.rx vc).filter (fun k => ((t.half e.half).stream k).frameOpen) = [] → exec (.embeddedDataLine e hd vc line) s = .next ((t.upd e.half fun y =>
    y.header hd).upd e.half fun x => x.inc F.INT_RX_ERR_CNT_other_drop hd.rx)) ∧
  (∀ (e : Ev) (rx : Nat) (s t : State), t = tick e s → (t.half e.half).rxOn rx = true → exec (.uncorrectableHeader e rx) s = .next (t.upd e.half fun
    x => x.headerLost rx))

/-- RX_CFG that enables a receiver with a legal rate, or disables one that no vault owns, writes its register. STREAM_CFG of legal fields without the
enable bit closes the slot at once; an acceptable one opens an idle slot, and waits for the next frame start on a running one. Here t is the state
once the command's own time has passed, and a row acts only where its condition holds: the model's choices of log entries 4 and 18. u is that state
after what its half had under way, in which the message is accepted. It rests on the model's readings of log entries 64, 70, 107 as well. Rules
followed: R216, R217. -/
def Obligations.IntakeMessages : Prop :=
  (∀ (e : Ev) (m : Msg) (rx : Nat) (cfg : Nat) (s t u : State), t = tick e s → u = t.settleMsgs e.half → u.accepts e.half m 0x50 .l false = true → rx
    < 8 → bits cfg 2 2 ≠ 3 → bits cfg 0 1 = 1 → 80 ≤ bits cfg 4 13 → bits cfg 4 13 ≤ (if bits cfg 1 1 = 0 then 4500 else 6000) → exec (.rxCfg e m rx
    cfg) s = .next (((u.upd e.half fun x => x.writeWord .INT_RX_CFG rx 0 0 cfg).saveConf e.half false).reply e.half m 0x50 .ok 0)) ∧
  (∀ (e : Ev) (m : Msg) (rx : Nat) (cfg : Nat) (s t u : State), t = tick e s → u = t.settleMsgs e.half → u.accepts e.half m 0x50 .l false = true → rx
    < 8 → bits cfg 2 2 ≠ 3 → bits cfg 0 1 = 0 → (u.half e.half).secureOwned (0x100 + rx) = false → exec (.rxCfg e m rx cfg) s = .next (((u.upd e.half
    fun x => x.writeWord .INT_RX_CFG rx 0 0 cfg).saveConf e.half false).reply e.half m 0x50 .ok 0)) ∧
  (∀ (e : Ev) (m : Msg) (slot : Nat) (src : Nat) (l : List Nat) (s t u : State), t = tick e s → u = t.settleMsgs e.half → u.accepts e.half m 0x51 .l
    false = true → slot < 32 → l = ((List.range 7).map fun i => bits (leNat (u.srcBytes e.half m src 56).2) (64 * i) 64) → (u.srcBytes e.half m src
    56).1 = .ok → bits (l.getD 0 0) 0 1 = 0 → streamFieldsOk l = true → (u.half e.half).streamOn slot = false ∨ (u.half e.half).secureOwned (0x100 +
    slot / 4) = false → exec (.streamCfg e m slot src) s = .next ((((u.closeFrame e.half slot false).upd e.half fun x => x.streamClosed slot
    l).saveConf e.half false).reply e.half m 0x51 .ok 0)) ∧
  (∀ (e : Ev) (m : Msg) (slot : Nat) (src : Nat) (l : List Nat) (s t u : State), t = tick e s → u = t.settleMsgs e.half → u.accepts e.half m 0x51 .l
    false = true → slot < 32 → l = ((List.range 7).map fun i => bits (leNat (u.srcBytes e.half m src 56).2) (64 * i) 64) → (u.srcBytes e.half m src
    56).1 = .ok → bits (l.getD 0 0) 0 1 ≠ 0 → streamFieldsOk l = true → u.streamOk e.half slot l = true → (u.half e.half).streamOn slot = true → exec
    (.streamCfg e m slot src) s = .next (((u.upd e.half fun x => x.updStream slot fun q => { q with pending := some l }).saveConf e.half false).reply
    e.half m 0x51 .ok 0)) ∧
  (∀ (e : Ev) (m : Msg) (slot : Nat) (src : Nat) (l : List Nat) (s t u : State), t = tick e s → u = t.settleMsgs e.half → u.accepts e.half m 0x51 .l
    false = true → slot < 32 → l = ((List.range 7).map fun i => bits (leNat (u.srcBytes e.half m src 56).2) (64 * i) 64) → (u.srcBytes e.half m src
    56).1 = .ok → bits (l.getD 0 0) 0 1 ≠ 0 → streamFieldsOk l = true → u.streamOk e.half slot l = true → (u.half e.half).streamOn slot = false →
    exec (.streamCfg e m slot src) s = .next (((u.upd e.half fun x => x.streamOpened slot l).saveConf e.half false).reply e.half m 0x51 .ok 0))

/-- A corrected read is counted and its row noted; an uncorrected one is counted, its row due for a remap, the word that it lost (which of the row's it
is, is open) is lost, and it is recorded. A scrub pass is counted with its worst row. A due row is remapped while the stack has spare rows. A failing
pseudo-channel is pending and the budget reconciled at once; after a training failure its reads fail and the half asks for an M, which waits while the
other half restarts. Here t is the state once the command's own time has passed, and a row acts only where its condition holds: the model's choices of
log entries 4 and 18. It rests on the model's readings of log entries 84, 176, 178 as well. Rules followed: R303, R307, R308, R325, R326. -/
def Obligations.DramRows : Prop :=
  (∀ (e : Ev) (pc : Nat) (bank : Nat) (row : Nat) (unc : Bool) (s t : State), t = tick e s → (t.half e.half).dramPlace pc bank row = true → unc =
    false → exec (.dramReadEcc e pc bank row unc) s = .next (t.upd e.half fun x => x.corrected pc bank row)) ∧
  (∀ (e : Ev) (pc : Nat) (bank : Nat) (row : Nat) (unc : Bool) (s t : State), t = tick e s → (t.half e.half).dramPlace pc bank row = true → unc =
    true → exec (.dramReadEcc e pc bank row unc) s = .next (((t.draw.2.upd e.half fun x => (x.uncorrected pc (rowKey pc bank row)).loseWord (rowKey
    pc bank row) (t.draw.1 % 32)).incident e.half 0x09 pc .dataError row))) ∧
  (∀ (e : Ev) (pc : Nat) (bank : Nat) (row : Nat) (s t : State), t = tick e s → (t.half e.half).dramPlace pc bank row = true → exec (.ecsScrub e pc
    bank row) s = .next (t.upd e.half fun x => (x.corrected pc bank row).incw F.MNT_ECC_scrub_passes 0 (pc / 32))) ∧
  (∀ (e : Ev) (pc : Nat) (bank : Nat) (row : Nat) (lost : Nat) (s t : State), t = tick e s → (t.half e.half).dramPlace pc bank row = true → (t.half
    e.half).fw.stewardDown = false → (t.half e.half).mint.due.contains (rowKey pc bank row) = true → (t.half e.half).tableUsed (pc / 32) < 4096 →
    exec (.rowRemap e pc bank row lost) s = .next (t.upd e.half fun x => x.remapRow pc (rowKey pc bank row) lost)) ∧
  (∀ (e : Ev) (idx : Nat) (training : Bool) (s t : State), t = tick e s → (t.half e.half).clk.rimUp = true → (t.half e.half).fw.stewardDown = false →
    idx < 64 → bits ((t.half e.half).svc.record.pcRetired ||| (t.half e.half).svc.record.pcPending) idx 1 ≠ 1 → training = true → exec
    (.pseudoChannelRetire e idx training) s = .next ((((t.upd e.half fun x => ((x.setRecord fun r => { r with pcPending := r.pcPending ||| 2 ^ idx }).event
    6 idx 1 0).writeRecord).reconcile e.half 0x05).upd e.half (fun x => { x with mint := { x.mint with pcFailed := x.mint.pcFailed ||| 2 ^ idx } })).askRestart
    e.half 2 0x05)) ∧
  (∀ (e : Ev) (idx : Nat) (training : Bool) (s t : State), t = tick e s → (t.half e.half).clk.rimUp = true → (t.half e.half).fw.stewardDown = false →
    idx < 64 → bits ((t.half e.half).svc.record.pcRetired ||| (t.half e.half).svc.record.pcPending) idx 1 ≠ 1 → training = false → 4096 ≤ (t.half
    e.half).tableUsed (idx / 32) ∨ 512 ≤ (t.half e.half).remapped idx → exec (.pseudoChannelRetire e idx training) s = .next ((t.upd e.half fun x =>
    ((x.setRecord fun r => { r with pcPending := r.pcPending ||| 2 ^ idx }).event 6 idx 1 0).writeRecord).reconcile e.half 0x05))

/-- MNT_SHADOW sets a class of the shadow set; MNT_COMMIT of a legal set within the budgets commits it; MNT_FB writes a legal threshold. STACK_THROTTLE
sets the reported level, and the stack's throttle follows the longest of it and the queues: at the threshold it is throttled, and once every queue has
fallen below the threshold by the hysteresis it is no longer. A request that is held though it has held its coins for its class's window is counted as
missed, and the first of a class within 100 ms is recorded. Once the request's controller has served its queue and the held requests have been tried
again, a request leaves paid where its bucket pays and the queue has room, leaves as surplus where its class may borrow, and is held otherwise or
where one of its port and class is held before it; with no bytes there is no new request. Here t is the state once the command's own time has passed,
and a row acts only where its condition holds: the model's choices of log entries 4 and 18. u is that state after what its half had under way, in
which the message is accepted. It rests on the model's readings of log entries 64, 79, 82, 127, 128, 180 as well. Rules followed: R331, R332, R334,
R337, R338. -/
def Obligations.MintClasses : Prop :=
  (∀ (e : Ev) (m : Msg) (cls : Nat) (cfg : Nat) (ports : Nat) (s t u : State), t = tick e s → u = t.settleMsgs e.half → u.accepts e.half m 0x30 .l
    false = true → cls < 16 → exec (.mntShadow e m cls cfg ports) s = .next ((u.upd e.half fun x => { x with mint := { x.mint with shadow := kput (fun _ => { cfg := 2 ^ 64, ports := 0 }) x.mint.shadow cls (shadowSet cls cfg ports) } }).reply
    e.half m 0x30 .ok 0)) ∧
  (∀ (e : Ev) (m : Msg) (s t u : State), t = tick e s → u = t.settleMsgs e.half → u.accepts e.half m 0x31 .l false = true → ((List.range 16).find?
    fun k => !u.classRange k ((u.half e.half).newClass k)) = none → ((List.range 16).find? fun k => !(u.half e.half).classPorts ((u.half
    e.half).newClass k)) = none → (u.half e.half).newSum mcDram ≤ (u.half e.half).fld F.MNT_BUDGET_dram → (u.half e.half).newSum mcHatch ≤ (u.half
    e.half).fld F.MNT_BUDGET_hatch → exec (.mntCommit e m) s = .next (((u.upd e.half fun y => y.commitShadow (u.half e.half).newClass u.now).saveConf
    e.half false).reply e.half m 0x31 .ok 0)) ∧
  (∀ (e : Ev) (m : Msg) (cfg : Nat) (s t u : State), t = tick e s → u = t.settleMsgs e.half → u.accepts e.half m 0x32 .l false = true → 8 ≤ bits cfg
    0 6 → bits cfg 6 6 ≠ 0 → bits cfg 6 6 < bits cfg 0 6 → exec (.mntFb e m cfg) s = .next (((u.upd e.half fun x => x.writeWord .MNT_FB_CFG 0 0 0
    cfg).saveConf e.half false).reply e.half m 0x32 .ok 0)) ∧
  (∀ (e : Ev) (stack : Nat) (level : Nat) (s t : State), t = tick e s → (t.half e.half).clk.rimUp = true → stack < 2 → exec (.stackThrottle e stack
    level) s = .next (t.upd e.half fun _ => ((t.half e.half).setLevel stack level).feedback stack)) ∧
  (∀ (e : Ev) (stack : Nat) (level : Nat) (s t : State), t = tick e s → (t.half e.half).clk.rimUp = true → stack = 0 → (t.half e.half).throttled 0 =
    false → (t.half e.half).fld F.MNT_FB_CFG_threshold ≤ ((t.half e.half).setLevel 0 level).queueLevel 0 → exec (.stackThrottle e stack level) s =
    .next (t.upd e.half fun _ => (((t.half e.half).setLevel 0 level).setFld F.MNT_FB_CFG_throttle0 1).setFld F.MNT_INT_throttle 1)) ∧
  (∀ (e : Ev) (stack : Nat) (level : Nat) (s t : State), t = tick e s → (t.half e.half).clk.rimUp = true → stack = 0 → (t.half e.half).throttled 0 =
    true → ((t.half e.half).setLevel 0 level).queueLevel 0 < (t.half e.half).fld F.MNT_FB_CFG_threshold → ((t.half e.half).setLevel 0
    level).queueLevel 0 ≤ (t.half e.half).fld F.MNT_FB_CFG_threshold - (t.half e.half).fld F.MNT_FB_CFG_hyst → exec (.stackThrottle e stack level) s
    = .next (t.upd e.half fun _ => ((t.half e.half).setLevel 0 level).setFld F.MNT_FB_CFG_throttle0 0)) ∧
  (∀ (e : Ev) (stack : Nat) (level : Nat) (s t : State), t = tick e s → (t.half e.half).clk.rimUp = true → stack = 1 → (t.half e.half).throttled 1 =
    false → (t.half e.half).fld F.MNT_FB_CFG_threshold ≤ ((t.half e.half).setLevel 1 level).queueLevel 1 → exec (.stackThrottle e stack level) s =
    .next (t.upd e.half fun _ => (((t.half e.half).setLevel 1 level).setFld F.MNT_FB_CFG_throttle1 1).setFld F.MNT_INT_throttle 1)) ∧
  (∀ (e : Ev) (stack : Nat) (level : Nat) (s t : State), t = tick e s → (t.half e.half).clk.rimUp = true → stack = 1 → (t.half e.half).throttled 1 =
    true → ((t.half e.half).setLevel 1 level).queueLevel 1 < (t.half e.half).fld F.MNT_FB_CFG_threshold → ((t.half e.half).setLevel 1
    level).queueLevel 1 ≤ (t.half e.half).fld F.MNT_FB_CFG_threshold - (t.half e.half).fld F.MNT_FB_CFG_hyst → exec (.stackThrottle e stack level) s
    = .next (t.upd e.half fun _ => ((t.half e.half).setLevel 1 level).setFld F.MNT_FB_CFG_throttle1 0)) ∧
  (∀ (e : Ev) (port : Nat) (cls : Nat) (y : Half) (s t : State), t = tick e s → (t.half e.half).clk.rimUp = true → cls < 16 → y = (t.half
    e.half).fillBuckets t.now → y.mint.held.any (y.overdue port cls t.now) = true → kget (fun _ => 0) y.mint.missVt cls = 0 ∨ kget (fun _ => 0)
    y.mint.missVt cls - 1 + 100000000 ≤ y.vt.toNat → exec (.guaranteeMiss e port cls) s = .next ((t.upd e.half fun _ => (y.noteMiss port cls
    t.now).missed port cls true).incident e.half 0x09 port .timeout cls)) ∧
  (∀ (e : Ev) (port : Nat) (cls : Nat) (y : Half) (s t : State), t = tick e s → (t.half e.half).clk.rimUp = true → cls < 16 → y = (t.half
    e.half).fillBuckets t.now → y.mint.held.any (y.overdue port cls t.now) = true → kget (fun _ => 0) y.mint.missVt cls ≠ 0 → y.vt.toNat < kget (fun
    _ => 0) y.mint.missVt cls - 1 + 100000000 → exec (.guaranteeMiss e port cls) s = .next (t.upd e.half fun _ => (y.noteMiss port cls t.now).missed
    port cls false)) ∧
  (∀ (e : Ev) (port : Nat) (cls : Nat) (to_ : DramReq) (bytes : Nat) (write : Bool) (s t : State), t = tick e s → (t.half e.half).clk.rimUp = true →
    (t.half e.half).portBacked port = true → t.markFits e.half port cls = true → (t.half e.half).dramUsed to_.pc to_.bank to_.row = true → bytes = 0
    → exec (.portRequestHeldRelease e port cls to_ bytes write) s = .next (t.upd e.half fun _ => (((t.half e.half).fillBuckets t.now).ctlServe to_.pc
    to_.turns).sendHeld t.now)) ∧
  (∀ (e : Ev) (port : Nat) (cls : Nat) (to_ : DramReq) (bytes : Nat) (write : Bool) (y : Half) (s t : State), t = tick e s → (t.half
    e.half).clk.rimUp = true → (t.half e.half).portBacked port = true → t.markFits e.half port cls = true → (t.half e.half).dramUsed to_.pc to_.bank
    to_.row = true → bytes ≠ 0 → y = (((t.half e.half).fillBuckets t.now).ctlServe to_.pc to_.turns).sendHeld t.now → exec (.portRequestHeldRelease e
    port cls to_ bytes write) s = .next (t.upd e.half fun _ => y.atMint t.now { port := port, cls := cls, pc := to_.pc, bank := to_.bank, row := to_.row, bytes := bytes, write := write, since := t.now, coinsAt := 0, missed := false })) ∧
  (∀ (e : Ev) (port : Nat) (cls : Nat) (to_ : DramReq) (bytes : Nat) (write : Bool) (y : Half) (s t : State), t = tick e s → (t.half
    e.half).clk.rimUp = true → (t.half e.half).portBacked port = true → t.markFits e.half port cls = true → (t.half e.half).dramUsed to_.pc to_.bank
    to_.row = true → bytes ≠ 0 → y = (((t.half e.half).fillBuckets t.now).ctlServe to_.pc to_.turns).sendHeld t.now → (y.mint.held.any fun q =>
    decide (q.port = port) && decide (q.cls = cls)) = false → y.ctlRoom to_.pc = true → y.pays port cls (coinCost bytes) = true → exec
    (.portRequestHeldRelease e port cls to_ bytes write) s = .next (t.upd e.half fun _ => (y.setMissing port cls (y.missing port cls + coinCost
    bytes)).leaves { port := port, cls := cls, pc := to_.pc, bank := to_.bank, row := to_.row, bytes := bytes, write := write, since := t.now, coinsAt := 0, missed := false }
    true)) ∧
  (∀ (e : Ev) (port : Nat) (cls : Nat) (to_ : DramReq) (bytes : Nat) (write : Bool) (y : Half) (s t : State), t = tick e s → (t.half
    e.half).clk.rimUp = true → (t.half e.half).portBacked port = true → t.markFits e.half port cls = true → (t.half e.half).dramUsed to_.pc to_.bank
    to_.row = true → bytes ≠ 0 → y = (((t.half e.half).fillBuckets t.now).ctlServe to_.pc to_.turns).sendHeld t.now → (y.mint.held.any fun q =>
    decide (q.port = port) && decide (q.cls = cls)) = false → y.ctlRoom to_.pc = true → y.pays port cls (coinCost bytes) = false → y.borrows cls
    (to_.pc / 32) = true → exec (.portRequestHeldRelease e port cls to_ bytes write) s = .next (t.upd e.half fun _ => y.leaves { port := port, cls := cls, pc := to_.pc, bank := to_.bank, row := to_.row, bytes := bytes, write := write, since := t.now, coinsAt := 0, missed := false }
    false)) ∧
  (∀ (e : Ev) (port : Nat) (cls : Nat) (to_ : DramReq) (bytes : Nat) (write : Bool) (y : Half) (s t : State), t = tick e s → (t.half
    e.half).clk.rimUp = true → (t.half e.half).portBacked port = true → t.markFits e.half port cls = true → (t.half e.half).dramUsed to_.pc to_.bank
    to_.row = true → bytes ≠ 0 → y = (((t.half e.half).fillBuckets t.now).ctlServe to_.pc to_.turns).sendHeld t.now → (y.mint.held.any fun q =>
    decide (q.port = port) && decide (q.cls = cls)) = false → y.ctlRoom to_.pc = true → y.pays port cls (coinCost bytes) = false → y.borrows cls
    (to_.pc / 32) = false → exec (.portRequestHeldRelease e port cls to_ bytes write) s = .next (t.upd e.half fun _ => { y with mint := { y.mint with held := y.mint.held ++ [{ port := port, cls := cls, pc := to_.pc, bank := to_.bank, row := to_.row, bytes := bytes, write := write, since := t.now, coinsAt := 0, missed := false }] } })) ∧
  (∀ (e : Ev) (port : Nat) (cls : Nat) (to_ : DramReq) (bytes : Nat) (write : Bool) (y : Half) (s t : State), t = tick e s → (t.half
    e.half).clk.rimUp = true → (t.half e.half).portBacked port = true → t.markFits e.half port cls = true → (t.half e.half).dramUsed to_.pc to_.bank
    to_.row = true → bytes ≠ 0 → y = (((t.half e.half).fillBuckets t.now).ctlServe to_.pc to_.turns).sendHeld t.now → (y.mint.held.any fun q =>
    decide (q.port = port) && decide (q.cls = cls)) = true → exec (.portRequestHeldRelease e port cls to_ bytes write) s = .next (t.upd e.half fun _
    => { y with mint := { y.mint with held := y.mint.held ++ [{ port := port, cls := cls, pc := to_.pc, bank := to_.bank, row := to_.row, bytes := bytes, write := write, since := t.now, coinsAt := 0, missed := false }] } }))

/-- A delivering instance's readable result is copied into the staging of its round, of a box set the header and its count of records; one that cannot be
read, or that ended otherwise, is reported absent. A round whose two results are present, or of which a channel is reported absent, is judged. One
past its due time is judged where both are there, and is otherwise LATE, or MISSING where a channel is reported absent or the other half is lost
without a standby. The other Tally's verdict arrives; with none after 2 µs a half that does not yield degrades and writes its own where the link is
down, and else the round is INTERNAL. A result after its round is dropped and counted. Here t is the state once the command's own time has passed, and
a row acts only where its condition holds: the model's choices of log entries 4 and 18. It rests on the model's readings of log entries 41, 42, 46,
160, 169, 172 as well. Rules followed: R262, R264, R266, R267. -/
def Obligations.ResultsAndVerdicts : Prop :=
  (∀ (e : Ev) (n : Nat) (st : Status) (k : Nat) (r : Nat) (rec0 : Nat) (a : Nat) (b : Nat) (sz : Nat × Nat) (len : Nat) (s t : State), t = tick e s →
    (t.half e.half).trials = false → ((t.half e.half).inst n).last = some (st, k) → wDelivers ((t.half e.half).activeEntry n) = true → (((t.half
    e.half).inst n).rounds.find? fun q => q.1 = k) = some (k, r) → st = .ok ∨ st = .retriedOk → rec0 = t.taskRec e.half (wTask ((t.half
    e.half).activeEntry n)) → a = chResult (chRec rec0 (wChannel ((t.half e.half).activeEntry n))) → b = chLedger (chRec rec0 (wChannel ((t.half
    e.half).activeEntry n))) → sz = chSizes rec0 (wChannel ((t.half e.half).activeEntry n)) → len = (if tkKind rec0 = 1 then 64 + 48 * Nat.min (t.rdN
    a 4) (tkC rec0) else sz.1) → t.access e.half a (if tkKind rec0 = 1 then 64 else len) = .ok → t.access e.half a len = .ok → (if sz.2 = 0 then .ok
    else t.access e.half b sz.2) = Status.ok → exec (.channelResultDelivered e n) s = .next ((((t.upd e.half fun x => x.setInst n { x.inst n with last := none }).readErrs
    e.half a len).readErrs e.half b sz.2).deliver e.half (wTask ((t.half e.half).activeEntry n)) r (wChannel ((t.half e.half).activeEntry n)) st
    (t.rdBytes a len) (t.rdBytes b sz.2))) ∧
  (∀ (e : Ev) (n : Nat) (st : Status) (k : Nat) (r : Nat) (rec0 : Nat) (a : Nat) (b : Nat) (sz : Nat × Nat) (len : Nat) (q : Status) (s t : State), t
    = tick e s → (t.half e.half).trials = false → ((t.half e.half).inst n).last = some (st, k) → wDelivers ((t.half e.half).activeEntry n) = true →
    (((t.half e.half).inst n).rounds.find? fun q => q.1 = k) = some (k, r) → st = .ok ∨ st = .retriedOk → rec0 = t.taskRec e.half (wTask ((t.half
    e.half).activeEntry n)) → a = chResult (chRec rec0 (wChannel ((t.half e.half).activeEntry n))) → b = chLedger (chRec rec0 (wChannel ((t.half
    e.half).activeEntry n))) → sz = chSizes rec0 (wChannel ((t.half e.half).activeEntry n)) → len = (if tkKind rec0 = 1 then 64 + 48 * Nat.min (t.rdN
    a 4) (tkC rec0) else sz.1) → t.access e.half a (if tkKind rec0 = 1 then 64 else len) = q → q ≠ .ok → q ≠ .retriedOk → exec
    (.channelResultDelivered e n) s = .next (((((t.upd e.half fun x => x.setInst n { x.inst n with last := none }).readErrs e.half a len).readErrs
    e.half b sz.2).deliver e.half (wTask ((t.half e.half).activeEntry n)) r (wChannel ((t.half e.half).activeEntry n)) q [] []).upd e.half fun x =>
    x.absence (wTask ((t.half e.half).activeEntry n)) (wChannel ((t.half e.half).activeEntry n)) q)) ∧
  (∀ (e : Ev) (n : Nat) (st : Status) (k : Nat) (r : Nat) (s t : State), t = tick e s → (t.half e.half).trials = false → ((t.half e.half).inst
    n).last = some (st, k) → wDelivers ((t.half e.half).activeEntry n) = true → (((t.half e.half).inst n).rounds.find? fun q => q.1 = k) = some (k,
    r) → st ≠ .ok → st ≠ .retriedOk → exec (.channelResultDelivered e n) s = .next (
      let w := (t.half e.half).activeEntry n
      ((t.upd e.half fun x => x.setInst n { x.inst n with last := none }).deliver e.half (wTask w) r (wChannel w) st [] []).upd e.half fun x =>
        x.absence (wTask w) (wChannel w) st)) ∧
  (∀ (e : Ev) (task : Nat) (round : Nat) (r : Nat) (s t : State), t = tick e s → r = t.fullRound e.half task round → (t.half e.half).judges task r =
    true → (((t.half e.half).task task).round r).own = none → (((t.half e.half).task task).round r).writtenR = false → ((t.half e.half).task
    task).isAssay r = false → (((((t.half e.half).task task).round r).stA.isSome && (((t.half e.half).task task).round r).stB.isSome) || absentSt
    (((t.half e.half).task task).round r).stA || absentSt (((t.half e.half).task task).round r).stB) = true → exec (.tallyJudgement e task round) s =
    .next (t.judgeRound e.half task r)) ∧
  (∀ (e : Ev) (task : Nat) (round : Nat) (r : Nat) (s t : State), t = tick e s → r = t.fullRound e.half task round → (t.half e.half).judges task r =
    true → (((t.half e.half).task task).round r).own = none → (((t.half e.half).task task).round r).writtenR = false → ((t.half e.half).task
    task).isAssay r = false → t.isDue e.half task r = true → ((((t.half e.half).task task).round r).stA.isSome && (((t.half e.half).task task).round
    r).stB.isSome) = true → exec (.roundDueTime e task round) s = .next (t.judgeRound e.half task r)) ∧
  (∀ (e : Ev) (task : Nat) (round : Nat) (r : Nat) (s t : State), t = tick e s → r = t.fullRound e.half task round → (t.half e.half).judges task r =
    true → (((t.half e.half).task task).round r).own = none → (((t.half e.half).task task).round r).writtenR = false → ((t.half e.half).task
    task).isAssay r = false → t.isDue e.half task r = true → ((((t.half e.half).task task).round r).stA.isSome && (((t.half e.half).task task).round
    r).stB.isSome) = false → exec (.roundDueTime e task round) s = .next (
      let aM := absentSt (((t.half e.half).task task).round r).stA || ((t.half e.half).tally.noStandby && (((t.half e.half).task task).round
        r).stA.isNone)
      let bM := absentSt (((t.half e.half).task task).round r).stB || ((t.half e.half).tally.noStandby && (((t.half e.half).task task).round
        r).stB.isNone)
      t.formVerdict e.half task r { status := if aM || bM then .missing else .late, failIndex := 0xFFFFFFFF, failCount := 0 } Judged.start aM bM
        false)) ∧
  (∀ (e : Ev) (task : Nat) (round : Nat) (v : Verdict) (r : Nat) (s t : State), t = tick e s → r = t.exchRound e.half task round → (t.half
    e.half).clk.rimUp = true → exec (.verdictExchange e task round v) s = .next ((t.upd e.half fun x => (x.setFld F.TLY_CTL_witness 1).updTask task
    fun k => k.setRound r { k.round r with other := some v }).tryWrite e.half task r)) ∧
  (∀ (e : Ev) (task : Nat) (round : Nat) (r : Nat) (v : Verdict) (s t : State), t = tick e s → r = t.exchRound e.half task round → (t.half
    e.half).tally.yielding = false → (((t.half e.half).task task).round r).own = some v → (((t.half e.half).task task).round r).writtenR = false →
    (((t.half e.half).task task).round r).other = none → (((t.half e.half).task task).round r).ownVt + 2000 ≤ (t.half e.half).vt.toNat → t.tallyLink
    e.half = true → exec (.verdictExchangeTimeout e task round) s = .next (((t.upd e.half fun x => x.setFld F.TLY_CTL_witness 0).writeVerdict e.half
    task r .internal false [e.half]).settle e.half task r .internal)) ∧
  (∀ (e : Ev) (task : Nat) (round : Nat) (r : Nat) (v : Verdict) (s t : State), t = tick e s → r = t.exchRound e.half task round → (t.half
    e.half).tally.yielding = false → (((t.half e.half).task task).round r).own = some v → (((t.half e.half).task task).round r).writtenR = false →
    (((t.half e.half).task task).round r).other = none → (((t.half e.half).task task).round r).ownVt + 2000 ≤ (t.half e.half).vt.toNat → t.tallyLink
    e.half = false → exec (.verdictExchangeTimeout e task round) s = .next ((((t.upd e.half fun x => x.setFld F.TLY_CTL_witness 0).degrade
    e.half).writeVerdict e.half task r v.status false [e.half]).settle e.half task r v.status)) ∧
  (∀ (e : Ev) (task : Nat) (round : Nat) (r : Nat) (s t : State), t = tick e s → r = t.fullRound e.half task round → (((t.half e.half).task
    task).round r).writtenR = true → (((t.half e.half).task task).round r).stA = none → exec (.lateResultDiscard e task round) s = .next (t.upd
    e.half fun x => (x.updTask task fun k => k.setRound r { (((t.half e.half).task task).round r) with stA := some .late }).inc
    F.TLY_DISCARD_CNT_late)) ∧
  (∀ (e : Ev) (task : Nat) (round : Nat) (r : Nat) (s t : State), t = tick e s → r = t.fullRound e.half task round → (((t.half e.half).task
    task).round r).writtenR = true → (((t.half e.half).task task).round r).stA.isSome = true → (((t.half e.half).task task).round r).stB = none →
    exec (.lateResultDiscard e task round) s = .next (t.upd e.half fun x => (x.updTask task fun k => k.setRound r { (((t.half e.half).task task).round r) with stB := some .late }).inc
    F.TLY_DISCARD_CNT_late))

/-- A due assay is asked for, and in a rejoining half the one that ended without a pass is run again. An assay round whose results are known is judged, in
ROUND mode from its staging slot and in RESERVE mode from the channels' own results, an absent result being a failure; in a rejoining half its own
channel alone is judged. A search with no free spare skips its core; with one it hands the duty over at an instance boundary and asks an assay; while
an audit holds the spare it waits. An audit that is due starts, is placed to wait for its handover or its tile, is left to the search, or is
postponed; only one runs. A finished audit gives its core back, its memories zero, or retires it and skips the search steps that it stood in for. A
core whose audit a postponement would make overdue is audited in its unreserved time or in the SLOT instance of least criticality, stopped with cause
0x1; past twice the interval that is recorded once. A core's duty passes to the free spare at an instance boundary, and returns once nothing keeps it.
Here t is the state once the command's own time has passed, and a row acts only where its condition holds: the model's choices of log entries 4 and
18. It rests on the model's readings of log entries 42, 44, 45, 61, 170, 171, 172 as well. Rules followed: R271, R276, R279, R280, R281, R282, R283,
R284. -/
def Obligations.AssaysAndAudits : Prop :=
  (∀ (e : Ev) (task : Nat) (ch : Nat) (s t : State), t = tick e s → (t.half e.half).trialOpen task = true → ch = e.half → exec (.assayDue e task ch)
    s = .next (t.retryTrial e.half task)) ∧
  (∀ (e : Ev) (task : Nat) (ch : Nat) (s t : State), t = tick e s → ((t.half e.half).trialOpen task && decide (ch = e.half)) = false → (t.half
    e.half).taskState task = 1 → kget (fun _ => 0) ((t.half e.half).task task).assayVt ch + t.assayNs e.half task ≤ (t.half e.half).vt.toNat → kget
    (fun _ => false) ((t.half e.half).task task).assayDue ch = false → (t.half e.half).fld F.TLY_CTL_enable ≠ 0 → exec (.assayDue e task ch) s =
    .next (t.askAssay e.half task [ch])) ∧
  (∀ (e : Ev) (task : Nat) (ch : Nat) (s t : State), t = tick e s → ((t.half e.half).trialOpen task && decide (ch = e.half)) = false → (t.half
    e.half).taskState task = 2 ∨ (t.half e.half).taskState task = 3 → kget (fun _ => false) ((t.half e.half).task task).assayDue ch = false → (t.half
    e.half).fld F.TLY_CTL_enable ≠ 0 → exec (.assayDue e task ch) s = .next (t.askAssay e.half task [ch])) ∧
  (∀ (e : Ev) (task : Nat) (round : Nat) (s t : State), t = tick e s → (t.half e.half).trials = true → exec (.assayVerdict e task round) s = .next
    (t.trialVerdict e.half task)) ∧
  (∀ (e : Ev) (task : Nat) (round : Nat) (r : Nat) (s t : State), t = tick e s → (t.half e.half).trials = false → r = t.fullRound e.half task round →
    tkRoundMode (t.taskRec e.half task) ≠ 1 → (t.half e.half).judges task (assayKey r) = true → (((t.half e.half).task task).round (assayKey r)).own
    = none → (((t.half e.half).task task).round (assayKey r)).writtenR = false → (kget (fun _ => false) ((t.half e.half).task task).assayDue 0 ||
    kget (fun _ => false) ((t.half e.half).task task).assayDue 1) = true → ([0, 1].all fun c => !(kget (fun _ => false) ((t.half e.half).task
    task).assayDue c) || (t.reserveStatus e.half task c).isSome) = true → exec (.assayVerdict e task round) s = .next (
      let res := fun c => if !(kget (fun _ => false) ((t.half e.half).task task).assayDue c) then Judged.start else if absentSt (t.reserveStatus
        e.half task c) then { Judged.start with agree := false } else t.judgeAssay (t.taskRec e.half task) c (chResult (chRec (t.taskRec e.half task)
        c)) (chLedger (chRec (t.taskRec e.half task) c))
      t.formVerdict e.half task (assayKey r) { status := if (res 0).agree && (res 1).agree then .ok else .disagree, failIndex := if (res 0).failCount ≠ 0 then (res 0).failIndex else (res 1).failIndex, failCount := (res 0).failCount + (res 1).failCount }
        { Judged.start with truncated := (res 0).truncated || (res 1).truncated } (!(res 0).agree) (!(res 1).agree) true)) ∧
  (∀ (e : Ev) (task : Nat) (round : Nat) (r : Nat) (s t : State), t = tick e s → (t.half e.half).trials = false → r = t.fullRound e.half task round →
    tkRoundMode (t.taskRec e.half task) = 1 → (t.half e.half).judges task r = true → (((t.half e.half).task task).round r).own = none → (((t.half
    e.half).task task).round r).writtenR = false → ((t.half e.half).task task).isAssay r = true → (((((t.half e.half).task task).round r).stA.isSome
    && (((t.half e.half).task task).round r).stB.isSome) || t.isDue e.half task r) = true → exec (.assayVerdict e task round) s = .next (
      let o := slotOff (t.taskRec e.half task)
      let a := t.slotFor e.half task r
      let res := fun c =>
        (match (if c = 0 then (((t.half e.half).task task).round r).stA else (((t.half e.half).task task).round r).stB) with | none => { Judged.start with agree := false } | some st => if absentSt (some st) then { Judged.start with agree := false } else t.judgeAssay (t.taskRec e.half task) c (a + (o c).1) (a + (o c).2))
      t.formVerdict e.half task r { status := if (res 0).agree && (res 1).agree then .ok else .disagree, failIndex := if (res 0).failCount ≠ 0 then (res 0).failIndex else (res 1).failIndex, failCount := (res 0).failCount + (res 1).failCount }
        { Judged.start with truncated := (res 0).truncated || (res 1).truncated } (!(res 0).agree) (!(res 1).agree) true)) ∧
  (∀ (e : Ev) (task : Nat) (c : Nat) (l : Nat) (rest : List (Nat × Nat)) (p : Nat) (q : Nat) (s t : State), t = tick e s → (t.half e.half).taskState
    task = 3 → (t.half e.half).tally.ghReset = false → ((t.half e.half).task task).stand = none → ((t.half e.half).task task).search = (c, l) :: rest
    → t.chanHalf e.half c = e.half → (t.half e.half).ownCore l = some p → (t.half e.half).groupSpare (l / 16) = some q → (((t.half e.half).core
    q).auditing || ((t.half e.half).core p).auditing || (t.half e.half).spareAudits (l / 16)) = false → (t.half e.half).spareFree (l / 16) = true →
    (t.half e.half).atBoundary l = true → exec (.locatingSearchStep e task) s = .next ((t.upd e.half fun x => (x.stand (l / 16) (p + 1)).updTask task
    fun k => { k with stand := some p }).askAssay e.half task [c])) ∧
  (∀ (e : Ev) (task : Nat) (c : Nat) (l : Nat) (rest : List (Nat × Nat)) (p : Nat) (q : Nat) (s t : State), t = tick e s → (t.half e.half).taskState
    task = 3 → (t.half e.half).tally.ghReset = false → ((t.half e.half).task task).stand = none → ((t.half e.half).task task).search = (c, l) :: rest
    → t.chanHalf e.half c = e.half → (t.half e.half).ownCore l = some p → (t.half e.half).groupSpare (l / 16) = some q → (((t.half e.half).core
    q).auditing || ((t.half e.half).core p).auditing || (t.half e.half).spareAudits (l / 16)) = false → (t.half e.half).spareFree (l / 16) = false →
    exec (.locatingSearchStep e task) s = .next (t.searchSkip e.half task)) ∧
  (∀ (e : Ev) (task : Nat) (c : Nat) (l : Nat) (rest : List (Nat × Nat)) (p : Nat) (q : Nat) (s t : State), t = tick e s → (t.half e.half).taskState
    task = 3 → (t.half e.half).tally.ghReset = false → ((t.half e.half).task task).stand = none → ((t.half e.half).task task).search = (c, l) :: rest
    → t.chanHalf e.half c = e.half → (t.half e.half).ownCore l = some p → (t.half e.half).groupSpare (l / 16) = some q → (((t.half e.half).core
    q).auditing || ((t.half e.half).core p).auditing || (t.half e.half).spareAudits (l / 16)) = true → exec (.locatingSearchStep e task) s = .next
    (t)) ∧
  (∀ (e : Ev) (p : Nat) (s t : State), t = tick e s → (t.half e.half).clk.computeUp = true → (t.half e.half).fld F.TLY_AUDIT_CFG_enable ≠ 0 → (t.half
    e.half).audits = false → (t.half e.half).auditPlaced = some p → (t.half e.half).auditStarts p = true → exec (.auditDue e) s = .next (t.updCore
    e.half p Core.auditStart)) ∧
  (∀ (e : Ev) (p : Nat) (s t : State), t = tick e s → (t.half e.half).clk.computeUp = true → (t.half e.half).fld F.TLY_AUDIT_CFG_enable ≠ 0 → (t.half
    e.half).audits = false → (t.half e.half).auditPlaced = some p → (t.half e.half).auditStarts p = false → (t.half e.half).tally.auditVt + (t.half
    e.half).auditNs / 136 ≤ (t.half e.half).vt.toNat → exec (.auditDue e) s = .next (t.upd e.half fun x => (x.updCore p fun c => { c with auditDue := false }).inc
    F.TLY_AUDIT_STAT_postponed)) ∧
  (∀ (e : Ev) (p : Nat) (s t : State), t = tick e s → (t.half e.half).clk.computeUp = true → (t.half e.half).fld F.TLY_AUDIT_CFG_enable ≠ 0 → (t.half
    e.half).audits = false → (t.half e.half).auditPlaced = none → (t.half e.half).auditPick = some p → (t.half e.half).tally.auditVt + (t.half
    e.half).auditNs / 136 ≤ (t.half e.half).vt.toNat → (t.half e.half).underSearch p = false → (t.half e.half).auditStarts p = true → exec (.auditDue
    e) s = .next ((t.upd e.half fun x => { x with tally := { x.tally with auditVt := x.vt.toNat, auditNext := if x.auditTurn = some p then (p + 1) % 136 else x.tally.auditNext } }).updCore
    e.half p Core.auditStart)) ∧
  (∀ (e : Ev) (p : Nat) (s t : State), t = tick e s → (t.half e.half).clk.computeUp = true → (t.half e.half).fld F.TLY_AUDIT_CFG_enable ≠ 0 → (t.half
    e.half).audits = false → (t.half e.half).auditPlaced = none → (t.half e.half).auditPick = some p → (t.half e.half).tally.auditVt + (t.half
    e.half).auditNs / 136 ≤ (t.half e.half).vt.toNat → (t.half e.half).underSearch p = false → (t.half e.half).auditStarts p = false → ((t.half
    e.half).core p).resetting = false → ((t.half e.half).handsOver p || (t.half e.half).clearOf p ((t.half e.half).holdsOwn p)) = true → exec
    (.auditDue e) s = .next ((t.upd e.half fun x => { x with tally := { x.tally with auditVt := x.vt.toNat, auditNext := if x.auditTurn = some p then (p + 1) % 136 else x.tally.auditNext } }).updCore
    e.half p fun c => { c with auditDue := true })) ∧
  (∀ (e : Ev) (p : Nat) (s t : State), t = tick e s → (t.half e.half).clk.computeUp = true → (t.half e.half).fld F.TLY_AUDIT_CFG_enable ≠ 0 → (t.half
    e.half).audits = false → (t.half e.half).auditPlaced = none → (t.half e.half).auditPick = some p → (t.half e.half).tally.auditVt + (t.half
    e.half).auditNs / 136 ≤ (t.half e.half).vt.toNat → (t.half e.half).underSearch p = false → (t.half e.half).auditStarts p = false → (!((t.half
    e.half).core p).resetting && ((t.half e.half).handsOver p || (t.half e.half).clearOf p ((t.half e.half).holdsOwn p))) = false → exec (.auditDue
    e) s = .next ((t.upd e.half fun x => { x with tally := { x.tally with auditVt := x.vt.toNat, auditNext := if x.auditTurn = some p then (p + 1) % 136 else x.tally.auditNext } }).upd
    e.half fun x => (x.updCore p fun c => { c with auditDue := false }).inc F.TLY_AUDIT_STAT_postponed)) ∧
  (∀ (e : Ev) (p : Nat) (s t : State), t = tick e s → (t.half e.half).clk.computeUp = true → (t.half e.half).fld F.TLY_AUDIT_CFG_enable ≠ 0 → (t.half
    e.half).audits = false → (t.half e.half).auditPlaced = none → (t.half e.half).auditPick = some p → (t.half e.half).tally.auditVt + (t.half
    e.half).auditNs / 136 ≤ (t.half e.half).vt.toNat → (t.half e.half).underSearch p = true → exec (.auditDue e) s = .next ((t.upd e.half fun x => { x with tally := { x.tally with auditVt := x.vt.toNat, auditNext := if x.auditTurn = some p then (p + 1) % 136 else x.tally.auditNext } }).updCore
    e.half p fun c => { c with auditAsap := true })) ∧
  (∀ (e : Ev) (p : Nat) (s t : State), t = tick e s → (t.half e.half).clk.computeUp = true → (t.half e.half).fld F.TLY_AUDIT_CFG_enable ≠ 0 → (t.half
    e.half).audits = false → (t.half e.half).auditPlaced = none → (t.half e.half).auditPick = some p → (t.half e.half).vt.toNat < (t.half
    e.half).tally.auditVt + (t.half e.half).auditNs / 136 → ((t.half e.half).core p).located = true → (t.half e.half).underSearch p = false → (t.half
    e.half).auditStarts p = true → exec (.auditDue e) s = .next (t.updCore e.half p Core.auditStart)) ∧
  (∀ (e : Ev) (p : Nat) (fail : Bool) (block : Nat) (s t : State), t = tick e s → ((t.half e.half).core p).auditing = true → ((t.half e.half).core
    p).run = none → fail = false → ((t.half e.half).core p).located = false → exec (.auditDone e p fail block) s = .next (t.upd e.half fun x =>
    (x.updCore p fun c => c.audited x.vt.toNat).incw F.TLY_AUDIT_STAT_done)) ∧
  (∀ (e : Ev) (p : Nat) (fail : Bool) (block : Nat) (s t : State), t = tick e s → ((t.half e.half).core p).auditing = true → ((t.half e.half).core
    p).run = none → fail = false → ((t.half e.half).core p).located = true → exec (.auditDone e p fail block) s = .next ((t.upd e.half fun x =>
    (x.updCore p fun c => c.audited x.vt.toNat).incw F.TLY_AUDIT_STAT_done).upd e.half fun x => (x.unconfirmed p).updCore p fun c => { c with located := false })) ∧
  (∀ (e : Ev) (p : Nat) (fail : Bool) (block : Nat) (s t : State), t = tick e s → ((t.half e.half).core p).auditing = true → ((t.half e.half).core
    p).run = none → fail = true → exec (.auditDone e p fail block) s = .next (((t.half e.half).tally.tasks.filter fun k =>
    (match k.2.stand with | some q => decide (q / 17 = p / 17) && decide ((t.half e.half).groupSpare (p / 17) = some p) | none => false)).foldl (fun
    u k => u.searchSkip e.half k.1) (((t.upd e.half fun x => (x.updCore p fun c => c.audited x.vt.toNat).incw F.TLY_AUDIT_STAT_done).upd e.half fun x
    => ((x.fillBuckets t.now).retireSoon p block).inc F.TLY_AUDIT_STAT_failed).incident e.half 0x08 p .internal block))) ∧
  (∀ (e : Ev) (p : Nat) (u : State) (s t : State), t = tick e s → (t.half e.half).clk.computeUp = true → (t.half e.half).fld F.TLY_AUDIT_CFG_enable ≠
    0 → ((t.half e.half).coreEntry p).2 ≠ 3 → ((t.half e.half).core p).auditing = false → (t.half e.half).auditNs < ((t.half e.half).vt.toNat -
    ((t.half e.half).core p).auditVt) + (t.half e.half).auditNs / 136 → u = (if 2 * (t.half e.half).auditNs < ((t.half e.half).vt.toNat - ((t.half
    e.half).core p).auditVt) && !((t.half e.half).core p).overdue then ((t.incident e.half 0x08 p .timeout).upd e.half fun x => x.inc
    F.TLY_AUDIT_STAT_overdue).updCore e.half p (fun c => { c with overdue := true }) else t) → ((t.half e.half).audits || (t.half e.half).underSearch
    p || ((t.half e.half).core p).resetting || (t.half e.half).auditPlaced.any (fun q => decide (q ≠ p))) = false → (t.half e.half).auditStarts p =
    true → exec (.auditOverdue e p) s = .next (u.updCore e.half p Core.auditStart)) ∧
  (∀ (e : Ev) (p : Nat) (u : State) (s t : State), t = tick e s → (t.half e.half).clk.computeUp = true → (t.half e.half).fld F.TLY_AUDIT_CFG_enable ≠
    0 → ((t.half e.half).coreEntry p).2 ≠ 3 → ((t.half e.half).core p).auditing = false → (t.half e.half).auditNs < ((t.half e.half).vt.toNat -
    ((t.half e.half).core p).auditVt) + (t.half e.half).auditNs / 136 → u = (if 2 * (t.half e.half).auditNs < ((t.half e.half).vt.toNat - ((t.half
    e.half).core p).auditVt) && !((t.half e.half).core p).overdue then ((t.incident e.half 0x08 p .timeout).upd e.half fun x => x.inc
    F.TLY_AUDIT_STAT_overdue).updCore e.half p (fun c => { c with overdue := true }) else t) → ((t.half e.half).audits || (t.half e.half).underSearch
    p || ((t.half e.half).core p).resetting || (t.half e.half).auditPlaced.any (fun q => decide (q ≠ p))) = false → (t.half e.half).auditStarts p =
    false → ((t.half e.half).handsOver p || (t.half e.half).clearOf p ((t.half e.half).holdsOwn p)) = true → exec (.auditOverdue e p) s = .next
    (u.updCore e.half p fun c => { c with auditDue := true })) ∧
  (∀ (e : Ev) (p : Nat) (u : State) (s t : State), t = tick e s → (t.half e.half).clk.computeUp = true → (t.half e.half).fld F.TLY_AUDIT_CFG_enable ≠
    0 → ((t.half e.half).coreEntry p).2 ≠ 3 → ((t.half e.half).core p).auditing = false → (t.half e.half).auditNs < ((t.half e.half).vt.toNat -
    ((t.half e.half).core p).auditVt) + (t.half e.half).auditNs / 136 → u = (if 2 * (t.half e.half).auditNs < ((t.half e.half).vt.toNat - ((t.half
    e.half).core p).auditVt) && !((t.half e.half).core p).overdue then ((t.incident e.half 0x08 p .timeout).upd e.half fun x => x.inc
    F.TLY_AUDIT_STAT_overdue).updCore e.half p (fun c => { c with overdue := true }) else t) → ((t.half e.half).audits || (t.half e.half).underSearch
    p || ((t.half e.half).core p).resetting || (t.half e.half).auditPlaced.any (fun q => decide (q ≠ p))) = false → (t.half e.half).auditStarts p =
    false → ((t.half e.half).handsOver p || (t.half e.half).clearOf p ((t.half e.half).holdsOwn p)) = false → (t.half e.half).slotTaken p = true →
    (t.half e.half).auditable p = true → exec (.auditOverdue e p) s = .next (u.updCore e.half p Core.auditStart)) ∧
  (∀ (e : Ev) (p : Nat) (u : State) (s t : State), t = tick e s → (t.half e.half).clk.computeUp = true → (t.half e.half).fld F.TLY_AUDIT_CFG_enable ≠
    0 → ((t.half e.half).coreEntry p).2 ≠ 3 → ((t.half e.half).core p).auditing = false → (t.half e.half).auditNs < ((t.half e.half).vt.toNat -
    ((t.half e.half).core p).auditVt) + (t.half e.half).auditNs / 136 → u = (if 2 * (t.half e.half).auditNs < ((t.half e.half).vt.toNat - ((t.half
    e.half).core p).auditVt) && !((t.half e.half).core p).overdue then ((t.incident e.half 0x08 p .timeout).upd e.half fun x => x.inc
    F.TLY_AUDIT_STAT_overdue).updCore e.half p (fun c => { c with overdue := true }) else t) → ((t.half e.half).audits || (t.half e.half).underSearch
    p || ((t.half e.half).core p).resetting || (t.half e.half).auditPlaced.any (fun q => decide (q ≠ p))) = false → (t.half e.half).auditStarts p =
    false → ((t.half e.half).handsOver p || (t.half e.half).clearOf p ((t.half e.half).holdsOwn p)) = false → (t.half e.half).slotTaken p = true →
    (t.half e.half).auditable p = false → exec (.auditOverdue e p) s = .next (u.updCore e.half p Core.yieldSlot)) ∧
  (∀ (e : Ev) (p : Nat) (u : State) (s t : State), t = tick e s → (t.half e.half).clk.computeUp = true → (t.half e.half).fld F.TLY_AUDIT_CFG_enable ≠
    0 → ((t.half e.half).coreEntry p).2 ≠ 3 → ((t.half e.half).core p).auditing = false → (t.half e.half).auditNs < ((t.half e.half).vt.toNat -
    ((t.half e.half).core p).auditVt) + (t.half e.half).auditNs / 136 → u = (if 2 * (t.half e.half).auditNs < ((t.half e.half).vt.toNat - ((t.half
    e.half).core p).auditVt) && !((t.half e.half).core p).overdue then ((t.incident e.half 0x08 p .timeout).upd e.half fun x => x.inc
    F.TLY_AUDIT_STAT_overdue).updCore e.half p (fun c => { c with overdue := true }) else t) → ((t.half e.half).audits || (t.half e.half).underSearch
    p || ((t.half e.half).core p).resetting || (t.half e.half).auditPlaced.any (fun q => decide (q ≠ p))) = false → (t.half e.half).auditStarts p =
    false → ((t.half e.half).handsOver p || (t.half e.half).clearOf p ((t.half e.half).holdsOwn p)) = false → (t.half e.half).slotTaken p = false →
    exec (.auditOverdue e p) s = .next (u)) ∧
  (∀ (e : Ev) (p : Nat) (u : State) (s t : State), t = tick e s → (t.half e.half).clk.computeUp = true → (t.half e.half).fld F.TLY_AUDIT_CFG_enable ≠
    0 → ((t.half e.half).coreEntry p).2 ≠ 3 → ((t.half e.half).core p).auditing = false → (t.half e.half).auditNs < ((t.half e.half).vt.toNat -
    ((t.half e.half).core p).auditVt) + (t.half e.half).auditNs / 136 → u = (if 2 * (t.half e.half).auditNs < ((t.half e.half).vt.toNat - ((t.half
    e.half).core p).auditVt) && !((t.half e.half).core p).overdue then ((t.incident e.half 0x08 p .timeout).upd e.half fun x => x.inc
    F.TLY_AUDIT_STAT_overdue).updCore e.half p (fun c => { c with overdue := true }) else t) → ((t.half e.half).audits || (t.half e.half).underSearch
    p || ((t.half e.half).core p).resetting || (t.half e.half).auditPlaced.any (fun q => decide (q ≠ p))) = true → exec (.auditOverdue e p) s = .next
    (u)) ∧
  (∀ (e : Ev) (p : Nat) (block : Nat) (s t : State), t = tick e s → (t.half e.half).atBoundary (((t.half e.half).indexOf p).getD 0xFF) = true →
    ((t.half e.half).core p).retireDue = some block → exec (.dutyHandover e p) s = .next (t.upd e.half fun x => ((x.fillBuckets t.now).updCore p fun
    c => { c with retireDue := none }).retireCore p block)) ∧
  (∀ (e : Ev) (p : Nat) (s t : State), t = tick e s → (t.half e.half).atBoundary (((t.half e.half).indexOf p).getD 0xFF) = true → ((t.half
    e.half).core p).retireDue = none → (t.half e.half).stoodIn p = true → (t.half e.half).dutyReturns p = true → exec (.dutyHandover e p) s = .next
    (t.upd e.half fun x => x.stand (p / 17) 0)) ∧
  (∀ (e : Ev) (p : Nat) (u : State) (s t : State), t = tick e s → (t.half e.half).atBoundary (((t.half e.half).indexOf p).getD 0xFF) = true →
    ((t.half e.half).core p).retireDue = none → (t.half e.half).stoodIn p = false → ((t.half e.half).core p).auditDue = true → (t.half
    e.half).handsOver p = true → u = (t.upd e.half fun x => x.stand (p / 17) (p + 1)) → (u.half e.half).auditStarts p = true → exec (.dutyHandover e
    p) s = .next (u.updCore e.half p Core.auditStart)) ∧
  (∀ (e : Ev) (p : Nat) (u : State) (s t : State), t = tick e s → (t.half e.half).atBoundary (((t.half e.half).indexOf p).getD 0xFF) = true →
    ((t.half e.half).core p).retireDue = none → (t.half e.half).stoodIn p = false → ((t.half e.half).core p).auditDue = true → (t.half
    e.half).handsOver p = true → u = (t.upd e.half fun x => x.stand (p / 17) (p + 1)) → (u.half e.half).auditStarts p = false → exec (.dutyHandover e
    p) s = .next (u))

/-- A detected loss degrades the half, and a link loss keeps its time; on the VT alarm the half that is to yield yields and the other degrades. Half 1
yields where SERR_HB still toggles 3 ms after a link loss. A yielding half stops its instances and requests an M with cause 0x11. Here t is the state
once the command's own time has passed, and a row acts only where its condition holds: the model's choices of log entries 4 and 18. Rules followed:
R286, R287. -/
def Obligations.LossOfTheOtherHalf : Prop :=
  (∀ (e : Ev) (cause : LossCause) (s t : State), t = tick e s → t.lost e.half cause = true → (t.half e.half).clk.ready = true → (t.half
    e.half).tally.yielding = false → cause = .linkLoss → exec (.degradedEntry e cause) s = .next ((t.degrade e.half).upd e.half fun x => { x with tally := { x.tally with lossVt := x.tally.lossVt.orElse fun _ => some x.vt.toNat } })) ∧
  (∀ (e : Ev) (cause : LossCause) (s t : State), t = tick e s → t.lost e.half cause = true → (t.half e.half).clk.ready = true → (t.half
    e.half).tally.yielding = false → cause = .goingDown ∨ cause = .computeDown → exec (.degradedEntry e cause) s = .next (t.degrade e.half)) ∧
  (∀ (e : Ev) (cause : LossCause) (s t : State), t = tick e s → t.lost e.half cause = true → (t.half e.half).clk.ready = true → (t.half
    e.half).tally.yielding = false → cause = .vtAlarm → (t.half e.half).yieldsOnAlarm e.half = false → exec (.degradedEntry e cause) s = .next
    (t.degrade e.half)) ∧
  (∀ (e : Ev) (cause : LossCause) (s t : State), t = tick e s → t.lost e.half cause = true → (t.half e.half).clk.ready = true → (t.half
    e.half).tally.yielding = false → cause = .vtAlarm → (t.half e.half).yieldsOnAlarm e.half = true → exec (.degradedEntry e cause) s = .next (t.upd
    e.half fun x => { x with tally := { x.tally with yielding := true } })) ∧
  (∀ (e : Ev) (toggling : Bool) (v : Nat) (s t : State), t = tick e s → (t.half e.half).tally.lossVt = some v → v + 3000000 ≤ (t.half
    e.half).vt.toNat → exec (.serrHbCheck e toggling) s = .next (t.upd e.half fun x => { x with tally := { x.tally with lossVt := none, yielding := x.tally.yielding || (toggling && decide (e.half = 1)) } })) ∧
  (∀ (e : Ev) (s t : State), t = tick e s → (t.half e.half).tally.yielding = true → (t.half e.half).clk.resetKind = 0 → exec (.yieldHalf e) s = .next
    ((t.stopInstances e.half).resetHalf e.half 2 0x11 true))

/-- A frame received on a bus whose controller is not bus-off, and a frame that an owned gateway queue sends, are looked up and routed: one with no route
is counted as a miss, one with a route is counted as forwarded and goes to every destination of its chain that does not drop it. A frame of an ingress
stream slot whose port is on has its sequence number checked and each of its messages routed or counted. At the end of its hold time, and not before,
an egress slot sends what it packed where its port is on and no gate bars it, and is left empty. A bus-off ends and begins with its events. Here t is
the state once the command's own time has passed, and a row acts only where its condition holds: the model's choices of log entries 4 and 18. It rests
on the model's readings of log entries 14, 82, 92, 93, 94 as well. Rules followed: R362, R363, R365, R366, R368, R369, R370, R371. -/
def Obligations.GatewayFrames : Prop :=
  (∀ (e : Ev) (bus : Nat) (f : Frame) (s t : State), t = tick e s → busHalf bus = e.half → kget (fun _ => false) (t.half e.half).gtw.busOff bus =
    false → exec (.canFrameReceive e bus f) s = .next (t.route e.half bus 0 f)) ∧
  (∀ (e : Ev) (bus : Nat) (f : Frame) (u : State) (s t : State), t = tick e s → busHalf bus = e.half → kget (fun _ => false) (t.half
    e.half).gtw.busOff bus = false → (t.half e.half).clk.rimUp = true → (t.half e.half).fld F.GTW_CTL_enable ≠ 0 → u = t.payLookup e.half (frameKey
    bus 0 f) → (u.half e.half).lookup (frameKey bus 0 f) = none → exec (.canFrameReceive e bus f) s = .next (u.upd e.half fun x => x.inc
    F.GTW_DROP_miss)) ∧
  (∀ (e : Ev) (bus : Nat) (f : Frame) (u : State) (r : Nat) (s t : State), t = tick e s → busHalf bus = e.half → kget (fun _ => false) (t.half
    e.half).gtw.busOff bus = false → (t.half e.half).clk.rimUp = true → (t.half e.half).fld F.GTW_CTL_enable ≠ 0 → u = t.payLookup e.half (frameKey
    bus 0 f) → (u.half e.half).lookup (frameKey bus 0 f) = some r → exec (.canFrameReceive e bus f) s = .next (((u.half e.half).chain r 7).foldl (fun
    w d => if gDrop d = 1 then w else w.toDest e.half bus d f) (u.upd e.half fun x => x.incw F.GTW_FWD_CNT_frames))) ∧
  (∀ (e : Ev) (slot : Nat) (seqNum : Nat) (msgs : List AcfMsg) (s t : State), t = tick e s → (t.half e.half).clk.rimUp = true → (t.half e.half).fld
    F.GTW_CTL_enable ≠ 0 → (t.half e.half).slot_ slot ≠ 0 → slEgress ((t.half e.half).slot_ slot) = 0 → (t.half e.half).portOn (slPort ((t.half
    e.half).slot_ slot)) = true → exec (.streamIngress e slot seqNum msgs) s = .next (msgs.foldl (fun v q => v.routeAcf e.half slot q) (t.upd e.half
    fun x => x.streamSeq slot seqNum))) ∧
  (∀ (e : Ev) (slot : Nat) (s t : State), t = tick e s → (t.half e.half).clk.rimUp = true → (t.half e.half).packDue slot = true → exec
    (.streamEgressHoldExpiry e slot) s = .next (t.flushSlot e.half slot)) ∧
  (∀ (e : Ev) (slot : Nat) (a : AcfOut) (l : List AcfOut) (s t : State), t = tick e s → (t.half e.half).clk.rimUp = true → (t.half e.half).packDue
    slot = true → kget (fun _ => []) (t.half e.half).gtw.packing slot = a :: l → (t.half e.half).portOn (slPort ((t.half e.half).slot_ slot)) = true
    → (t.half e.half).gateBars (slPort ((t.half e.half).slot_ slot)) (slPcp ((t.half e.half).slot_ slot)) ((a :: l).foldl (fun k b => k + b.bytes)
    34) = false → exec (.streamEgressHoldExpiry e slot) s = .next (((t.upd e.half fun x => { x with gtw := { x.gtw with packing := kput (fun _ => []) x.gtw.packing slot [] } }).countTx
    e.half (some (slPort ((t.half e.half).slot_ slot)))).emit (.streamSend e.half slot (a :: l)))) ∧
  (∀ (e : Ev) (slot : Nat) (a : AcfOut) (l : List AcfOut) (s t : State), t = tick e s → (t.half e.half).clk.rimUp = true → (t.half e.half).packDue
    slot = true → kget (fun _ => []) (t.half e.half).gtw.packing slot = a :: l → (t.half e.half).portOn (slPort ((t.half e.half).slot_ slot)) = false
    → exec (.streamEgressHoldExpiry e slot) s = .next (t.upd e.half fun x => { x with gtw := { x.gtw with packing := kput (fun _ => []) x.gtw.packing slot [] } })) ∧
  (∀ (e : Ev) (slot : Nat) (a : AcfOut) (l : List AcfOut) (s t : State), t = tick e s → (t.half e.half).clk.rimUp = true → (t.half e.half).packDue
    slot = true → kget (fun _ => []) (t.half e.half).gtw.packing slot = a :: l → (t.half e.half).portOn (slPort ((t.half e.half).slot_ slot)) = true
    → (t.half e.half).gateBars (slPort ((t.half e.half).slot_ slot)) (slPcp ((t.half e.half).slot_ slot)) ((a :: l).foldl (fun k b => k + b.bytes)
    34) = true → exec (.streamEgressHoldExpiry e slot) s = .next ((t.upd e.half fun x => { x with gtw := { x.gtw with packing := kput (fun _ => []) x.gtw.packing slot [] } }).upd
    e.half fun x => x.inc F.TEL_DP_ERR_gate_drop (slPort ((t.half e.half).slot_ slot) % 2))) ∧
  (∀ (e : Ev) (slot : Nat) (s t : State), t = tick e s → (t.half e.half).clk.rimUp = true → (t.half e.half).packDue slot = false → exec
    (.streamEgressHoldExpiry e slot) s = .next (t)) ∧
  (∀ (e : Ev) (gq : Nat) (f : Frame) (s t : State), t = tick e s → gq < 16 → kget (fun _ => 0) (t.half e.half).gtw.queueOwner gq ≠ 0 → exec
    (.gatewayQueueDoorbell e gq f) s = .next (t.route e.half (0x30 + gq) 0 f)) ∧
  (∀ (e : Ev) (ctrl : Nat) (s t : State), t = tick e s → ctrl < 16 → (t.half (busHalf ctrl)).clk.rimUp = true → exec (.canBusOff e ctrl) s = .next
    (t.upd (busHalf ctrl) fun x => { x with gtw := { x.gtw with busOff := kput (fun _ => false) x.gtw.busOff ctrl true } })) ∧
  (∀ (e : Ev) (ctrl : Nat) (s t : State), t = tick e s → ctrl < 16 → (t.half (busHalf ctrl)).clk.rimUp = true → exec (.busOffRecovery e ctrl) s =
    .next (t.upd (busHalf ctrl) fun x => { x with gtw := { x.gtw with busOff := kput (fun _ => false) x.gtw.busOff ctrl false } }))

/-- With entries within the ranges of their tables, routes are placed, those before a refused one staying, and removed, the keys not found counted; the
fan-out table, the peer fences and the peer list are written from their first index. A control word and an overflow table that keep the seed and the
size are written; with another seed or size every route is placed anew, and where one cannot be placed nothing changes and the answer is NO_SPACE. A
stream slot sends what it holds and takes its configuration. A port takes its addresses, and a data port its administrative schedule. Here t is the
state once the command's own time has passed, and a row acts only where its condition holds: the model's choices of log entries 4 and 18. u is that
state after what its half had under way, in which the message is accepted. It rests on the model's readings of log entries 15, 64, 92 as well. Rules
followed: R238, R364, R366, R368, R376, R391, R400, R402. -/
def Obligations.GatewayMessages : Prop :=
  (∀ (e : Ev) (m : Msg) (count : Nat) (src : Nat) (l : List Byte) (s t u : State), t = tick e s → u = t.settleMsgs e.half → u.accepts e.half m 0x60
    .l false = true → count ≠ 0 → count ≤ 4096 → u.srcBytes e.half m src (16 * count) = (.ok, l) → (u.putRoutes e.half (entries16 l)).2 = none → exec
    (.routeWrite e m count src) s = .next (((u.putRoutes e.half (entries16 l)).1.saveConf e.half false).reply e.half m 0x60 .ok 0)) ∧
  (∀ (e : Ev) (m : Msg) (count : Nat) (src : Nat) (l : List Byte) (r : Nat × Status) (s t u : State), t = tick e s → u = t.settleMsgs e.half →
    u.accepts e.half m 0x60 .l false = true → count ≠ 0 → count ≤ 4096 → u.srcBytes e.half m src (16 * count) = (.ok, l) → (u.putRoutes e.half
    (entries16 l)).2 = some r → exec (.routeWrite e m count src) s = .next (((u.putRoutes e.half (entries16 l)).1.saveConf e.half false).reply e.half
    m 0x60 r.2 r.1)) ∧
  (∀ (e : Ev) (m : Msg) (count : Nat) (src : Nat) (l : List Byte) (s t u : State), t = tick e s → u = t.settleMsgs e.half → u.accepts e.half m 0x61
    .l false = true → count ≠ 0 → count ≤ 4096 → u.srcBytes e.half m src (16 * count) = (.ok, l) → exec (.routeDelete e m count src) s = .next (
      let r := (entries16 l).foldl (fun a w => a.1.dropRoute e.half a.2 w) (u, 0)
      (r.1.saveConf e.half false).reply e.half m 0x61 .ok r.2)) ∧
  (∀ (e : Ev) (m : Msg) (first : Nat) (count : Nat) (src : Nat) (l : List Byte) (s t u : State), t = tick e s → u = t.settleMsgs e.half → u.accepts
    e.half m 0x62 .l false = true → count ≠ 0 → first + count ≤ 4096 → u.srcBytes e.half m src (8 * count) = (.ok, l) → ((entriesOf 8 count l).any
    fun w => badNext (w * 2 ^ 64)) = false → exec (.fanoutWrite e m first count src) s = .next (((u.upd e.half fun x => x.putFanout first (entriesOf
    8 count l)).saveConf e.half false).reply e.half m 0x62 .ok 0)) ∧
  (∀ (e : Ev) (m : Msg) (ctl : Nat) (ovf : Nat) (s t u : State), t = tick e s → u = t.settleMsgs e.half → u.accepts e.half m 0x63 .l false = true →
    bits ovf 0 48 % 64 = 0 → bits ovf 48 5 ≤ 20 → ((u.half e.half).gtwControl ctl ovf).fld F.GTW_CTL_seed = (u.half e.half).fld F.GTW_CTL_seed →
    ((u.half e.half).gtwControl ctl ovf).ovfCount = (u.half e.half).ovfCount → exec (.gtwCfg e m ctl ovf) s = .next (((u.setHalf e.half ((u.half
    e.half).gtwControl ctl ovf)).saveConf e.half false).reply e.half m 0x63 .ok 0)) ∧
  (∀ (e : Ev) (m : Msg) (ctl : Nat) (ovf : Nat) (w : State × Option (Nat × Status)) (s t u : State), t = tick e s → u = t.settleMsgs e.half →
    u.accepts e.half m 0x63 .l false = true → bits ovf 0 48 % 64 = 0 → bits ovf 48 5 ≤ 20 → ((u.half e.half).gtwControl ctl ovf).fld F.GTW_CTL_seed ≠
    (u.half e.half).fld F.GTW_CTL_seed ∨ ((u.half e.half).gtwControl ctl ovf).ovfCount ≠ (u.half e.half).ovfCount → w = (u.setHalf e.half { (u.half e.half).gtwControl ctl ovf with gtw := { ((u.half e.half).gtwControl ctl ovf).gtw with hw := [], ovf := [] } }).putRoutes
    e.half (((u.half e.half).gtw.hw ++ (u.half e.half).gtw.ovf).map (·.2)) → w.2 = none → exec (.gtwCfg e m ctl ovf) s = .next (((w.1.upd e.half
    Half.syncRoutes).saveConf e.half false).reply e.half m 0x63 .ok 0)) ∧
  (∀ (e : Ev) (m : Msg) (ctl : Nat) (ovf : Nat) (w : State × Option (Nat × Status)) (r : Nat × Status) (s t u : State), t = tick e s → u =
    t.settleMsgs e.half → u.accepts e.half m 0x63 .l false = true → bits ovf 0 48 % 64 = 0 → bits ovf 48 5 ≤ 20 → ((u.half e.half).gtwControl ctl
    ovf).fld F.GTW_CTL_seed ≠ (u.half e.half).fld F.GTW_CTL_seed ∨ ((u.half e.half).gtwControl ctl ovf).ovfCount ≠ (u.half e.half).ovfCount → w =
    (u.setHalf e.half { (u.half e.half).gtwControl ctl ovf with gtw := { ((u.half e.half).gtwControl ctl ovf).gtw with hw := [], ovf := [] } }).putRoutes
    e.half (((u.half e.half).gtw.hw ++ (u.half e.half).gtw.ovf).map (·.2)) → w.2 = some r → exec (.gtwCfg e m ctl ovf) s = .next (u.reply e.half m
    0x63 .noSpace 0)) ∧
  (∀ (e : Ev) (m : Msg) (slot : Nat) (src : Nat) (l : List Byte) (s t u : State), t = tick e s → u = t.settleMsgs e.half → u.accepts e.half m 0x64 .l
    false = true → slot < 32 → u.srcBytes e.half m src 32 = (.ok, l) → slHold (leNat l) ≤ 100 → slPort (leNat l) ≤ 3 → slPort (leNat l) / 2 = e.half
    → slVlan (leNat l) ≤ 4095 → slPcp (leNat l) ≤ 7 → exec (.slotCfg e m slot src) s = .next ((((u.flushSlot e.half slot).upd e.half fun x =>
    x.putSlot slot (leNat l)).saveConf e.half false).reply e.half m 0x64 .ok 0)) ∧
  (∀ (e : Ev) (m : Msg) (udp : Nat) (ip4 : Nat) (pfx4 : Nat) (pfx6 : Nat) (ip6 : Nat) (s t u : State), t = tick e s → u = t.settleMsgs e.half →
    u.accepts e.half m 0x70 .l false = true → pfx4 ≤ 32 → pfx6 ≤ 128 → exec (.portCfg e m udp ip4 pfx4 pfx6 ip6) s = .next (((u.upd e.half fun x => { x with ports := { x.ports with udp := [udp % 2 ^ 16, ip4 % 2 ^ 32, pfx4, pfx6, ip6 % 2 ^ 128] } }).saveConf
    e.half false).reply e.half m 0x70 .ok 0)) ∧
  (∀ (e : Ev) (m : Msg) (port : Nat) (count : Nat) (cycle : Nat) (base : Nat) (src : Nat) (l : List Byte) (es : List Nat) (s t u : State), t = tick e
    s → u = t.settleMsgs e.half → u.accepts e.half m 0x71 .l false = true → count ≠ 0 → count ≤ 256 → port ≤ 3 → port / 2 = e.half → 1000 ≤ cycle →
    cycle ≤ 1000000000 → u.srcBytes e.half m src (8 * count) = (.ok, l) → es = (entriesOf 8 count l).map (fun w => w % 2 ^ 32) → (es.any fun w => w /
    256 = 0) = false → es.foldl (fun n w => n + w / 256) 0 ≤ cycle → exec (.qbvWrite e m port count cycle base src) s = .next (((u.upd e.half fun x
    => x.putQbv port (cycle :: base % 2 ^ 64 :: es)).saveConf e.half false).reply e.half m 0x71 .ok 0)) ∧
  (∀ (e : Ev) (m : Msg) (first : Nat) (count : Nat) (src : Nat) (l : List Byte) (s t u : State), t = tick e s → u = t.settleMsgs e.half → u.accepts
    e.half m 0x72 .l false = true → count ≠ 0 → first + count ≤ 1024 → u.srcBytes e.half m src (16 * count) = (.ok, l) → exec (.peerFenceWrite e m
    first count src) s = .next (((u.upd e.half fun x => x.putPeerFences first (entriesOf 16 count l)).saveConf e.half false).reply e.half m 0x72 .ok
    0)) ∧
  (∀ (e : Ev) (m : Msg) (first : Nat) (count : Nat) (src : Nat) (l : List Byte) (s t u : State), t = tick e s → u = t.settleMsgs e.half → u.accepts
    e.half m 0x73 .l false = true → count ≠ 0 → first + count ≤ 256 → u.srcBytes e.half m src (32 * count) = (.ok, l) → exec (.peerListWrite e m
    first count src) s = .next (((u.upd e.half fun x => x.putPeers first (entriesOf 32 count l)).saveConf e.half false).reply e.half m 0x73 .ok 0))

/-- On an active module a flit in order is taken, the next one awaited and a replay ended, the credit it returns lets waiting messages leave and held
requests are tried again; a corrected one is counted and used. One out of order, or one that fails its check, asks for a replay. A lane with 16
replays in a second, or that failed the training, is repaired, and the fifth of a module fails the module; a module fails over. A lost link is down,
the harts that wait across it answered. At a training both records take the union of the failed lanes and modules; one that fails is noted. Trained by
releases at most one apart the link is up at the lower one, VT taken over by the half that has to; by others it is refused and recorded, and a half
that was not in service is held. A violation is recorded by its code. Here t is the state once the command's own time has passed, and a row acts only
where its condition holds: the model's choices of log entries 4 and 18. It rests on the model's readings of log entries 60, 96, 97, 98, 130, 174, 179
as well. Rules followed: R287, R303, R306, R346, R347, R348, R352, R358, R359, R360, R503. -/
def Obligations.HatchLink : Prop :=
  (∀ (e : Ev) (module : Nat) (ok : Bool) (corrected : Bool) (seq : Nat) (tail : FlitEnd) (s t : State), t = tick e s → (t.half e.half).clk.rimUp =
    true → (t.half e.half).linkOn = true → bits ((t.half e.half).fld F.HTC_LINK_modules_up) module 1 ≠ 0 → kget (fun _ => 0) (t.half
    e.half).hatch.rxSeq module = seq % 4096 + 1 ∨ kget (fun _ => 0) (t.half e.half).hatch.rxSeq module = 0 → ok = true → corrected = false → exec
    (.flitReceive e module ok corrected seq tail) s = .next (((t.upd e.half fun x => x.nextFlit module (seq % 4096)).creditBack e.half tail.pool
    tail.units).drain e.half)) ∧
  (∀ (e : Ev) (module : Nat) (ok : Bool) (corrected : Bool) (seq : Nat) (tail : FlitEnd) (s t : State), t = tick e s → (t.half e.half).clk.rimUp =
    true → (t.half e.half).linkOn = true → bits ((t.half e.half).fld F.HTC_LINK_modules_up) module 1 ≠ 0 → kget (fun _ => 0) (t.half
    e.half).hatch.rxSeq module = seq % 4096 + 1 ∨ kget (fun _ => 0) (t.half e.half).hatch.rxSeq module = 0 → ok = true → corrected = true → exec
    (.flitReceive e module ok corrected seq tail) s = .next ((((t.upd e.half fun x => x.inc F.HTC_ERR_CNT_fec_corr).upd e.half fun x => x.nextFlit
    module (seq % 4096)).creditBack e.half tail.pool tail.units).drain e.half)) ∧
  (∀ (e : Ev) (module : Nat) (ok : Bool) (corrected : Bool) (seq : Nat) (tail : FlitEnd) (n : Nat) (s t : State), t = tick e s → (t.half
    e.half).clk.rimUp = true → (t.half e.half).linkOn = true → bits ((t.half e.half).fld F.HTC_LINK_modules_up) module 1 ≠ 0 → kget (fun _ => 0)
    (t.half e.half).hatch.rxSeq module = n + 1 → n ≠ seq % 4096 → ok = true → corrected = false → kget (fun _ => false) (t.half
    e.half).hatch.replaying module = false → exec (.flitReceive e module ok corrected seq tail) s = .next (t.askReplay e.half module tail.lane n)) ∧
  (∀ (e : Ev) (module : Nat) (ok : Bool) (corrected : Bool) (seq : Nat) (tail : FlitEnd) (n : Nat) (s t : State), t = tick e s → (t.half
    e.half).clk.rimUp = true → (t.half e.half).linkOn = true → bits ((t.half e.half).fld F.HTC_LINK_modules_up) module 1 ≠ 0 → kget (fun _ => 0)
    (t.half e.half).hatch.rxSeq module = n + 1 → ok = false → kget (fun _ => false) (t.half e.half).hatch.replaying module = false → exec
    (.flitReceive e module ok corrected seq tail) s = .next (t.askReplay e.half module tail.lane n)) ∧
  (∀ (e : Ev) (module : Nat) (lane : Nat) (l : List Nat) (s t : State), t = tick e s → (t.half e.half).clk.rimUp = true → 16 ≤ (within (t.half
    e.half).vt.toNat 1000000000 (kget (fun _ => []) (t.half e.half).hatch.laneReplays (module * 64 + lane))).length ∨ (t.half
    e.half).hatch.trainFailed = true → bits (t.half e.half).svc.record.modules (2 * module) 2 ≠ 2 → l = kget (fun _ => []) (t.half
    e.half).svc.record.laneFix module → lane ∉ l → l.length < 4 → exec (.hatchLaneRepair e module lane) s = .next ((t.upd e.half fun x =>
    x.clearReplays (module * 64 + lane)).hatchRecord e.half (fun r => { r with laneFix := kput (fun _ => []) r.laneFix module (l ++ [lane]) }) 3
    (module * 64 + lane) none)) ∧
  (∀ (e : Ev) (module : Nat) (lane : Nat) (l : List Nat) (s t : State), t = tick e s → (t.half e.half).clk.rimUp = true → 16 ≤ (within (t.half
    e.half).vt.toNat 1000000000 (kget (fun _ => []) (t.half e.half).hatch.laneReplays (module * 64 + lane))).length ∨ (t.half
    e.half).hatch.trainFailed = true → bits (t.half e.half).svc.record.modules (2 * module) 2 ≠ 2 → l = kget (fun _ => []) (t.half
    e.half).svc.record.laneFix module → lane ∉ l → 4 ≤ l.length → exec (.hatchLaneRepair e module lane) s = .next ((t.upd e.half fun x =>
    x.clearReplays (module * 64 + lane)).failModule e.half module)) ∧
  (∀ (e : Ev) (module : Nat) (s t : State), t = tick e s → (t.half e.half).clk.rimUp = true → exec (.hatchModuleFailover e module) s = .next
    (t.failModule e.half module)) ∧
  (∀ (e : Ev) (s t : State), t = tick e s → (t.half e.half).clk.rimUp = true → (t.half e.half).linkOn = true → exec (.hatchLinkLoss e) s = .next
    ((t.answerOut e.half).upd e.half fun x => x.linkDown 0)) ∧
  (∀ (e : Ev) (peerRelease : Nat) (ok : Bool) (u : State) (s t : State), t = tick e s → (t.half e.half).clk.rimUp = true → (t.half e.half).linkOn =
    false → u = t.uniteHatch → ok = true → (u.half (peer e.half)).clk.rimUp = true → (u.half e.half).modulesUp ≠ 0 → oneApart ((u.half e.half).fld
    F.SVC_FW_STAT_release) peerRelease = true → exec (.hatchLinkTraining e peerRelease ok) s = .next (((u.upd e.half fun x => x.setFld
    F.HTC_LINK_peer_release peerRelease).takeVt.upd e.half fun x => x.linkStarts (Nat.min ((u.half e.half).fld F.SVC_FW_STAT_release)
    peerRelease)).syncSoak)) ∧
  (∀ (e : Ev) (peerRelease : Nat) (ok : Bool) (u : State) (s t : State), t = tick e s → (t.half e.half).clk.rimUp = true → (t.half e.half).linkOn =
    false → u = t.uniteHatch → ok = true → (u.half (peer e.half)).clk.rimUp = true → (u.half e.half).modulesUp ≠ 0 → oneApart ((u.half e.half).fld
    F.SVC_FW_STAT_release) peerRelease = false → (u.half e.half).clk.ready = true → exec (.hatchLinkTraining e peerRelease ok) s = .next (((u.upd
    e.half fun x => x.setFld F.HTC_LINK_peer_release peerRelease).upd e.half fun x => x.linkDown 4).incident e.half 0x0A 0 .versionMismatch)) ∧
  (∀ (e : Ev) (peerRelease : Nat) (ok : Bool) (u : State) (s t : State), t = tick e s → (t.half e.half).clk.rimUp = true → (t.half e.half).linkOn =
    false → u = t.uniteHatch → ok = true → (u.half (peer e.half)).clk.rimUp = true → (u.half e.half).modulesUp ≠ 0 → oneApart ((u.half e.half).fld
    F.SVC_FW_STAT_release) peerRelease = false → (u.half e.half).clk.ready = false → exec (.hatchLinkTraining e peerRelease ok) s = .next (((((u.upd
    e.half fun x => x.setFld F.HTC_LINK_peer_release peerRelease).upd e.half fun x => x.linkDown 4).incident e.half 0x0A 0 .versionMismatch).upd
    e.half fun x => { x with clk := { x.clk with held := true } }).serr e.half)) ∧
  (∀ (e : Ev) (peerRelease : Nat) (ok : Bool) (u : State) (s t : State), t = tick e s → (t.half e.half).clk.rimUp = true → (t.half e.half).linkOn =
    false → u = t.uniteHatch → ok = false ∨ (u.half (peer e.half)).clk.rimUp = false ∨ (u.half e.half).modulesUp = 0 → (u.half e.half).fld
    F.CLK_RESET_CAUSE_cause ≠ 0x11 ∨ (u.half e.half).clk.ready = true → exec (.hatchLinkTraining e peerRelease ok) s = .next (u.upd e.half fun x =>
    ({ x with hatch := { x.hatch with trainFailed := !ok } } : Half).linkDown 0)) ∧
  (∀ (e : Ev) (peerRelease : Nat) (ok : Bool) (u : State) (s t : State), t = tick e s → (t.half e.half).clk.rimUp = true → (t.half e.half).linkOn =
    false → u = t.uniteHatch → ok = false ∨ (u.half (peer e.half)).clk.rimUp = false ∨ (u.half e.half).modulesUp = 0 → (u.half e.half).fld
    F.CLK_RESET_CAUSE_cause = 0x11 → (u.half e.half).clk.ready = false → exec (.hatchLinkTraining e peerRelease ok) s = .next (((u.upd e.half fun x
    => ({ x with hatch := { x.hatch with trainFailed := !ok } } : Half).linkDown 0).upd e.half fun x => { x with clk := { x.clk with held := true } }).serr
    e.half)) ∧
  (∀ (e : Ev) (code : Nat) (type : Nat) (tag : Nat) (s t : State), t = tick e s → (t.half e.half).clk.rimUp = true → (t.half e.half).linkOn = true →
    1 ≤ code → code ≤ 6 → exec (.hatchViolation e code type tag) s = .next (t.violation e.half code type tag))

/-- On a link that takes requests, what is held at the two bridges is tried first. Then a request whose class has coins at the sender's bridge pays there,
and else waits there; within its credit, behind none and paying at port 136, it is served: a write within a 256-byte span is written at its target
port, a read answered with what its port reads; an atomic on an accessible aligned word stores its result and answers the old value. One that does not
leave port 136 is held there, one beyond its credit is a violation; so is a span or a width that is not allowed. A completion of the awaited length
clears its tag, and one of a tag not outstanding is a violation; a status other than OK faults a hart of the application-core cluster that asked,
where none is in a vault. A result write stores at its mapped address, and one beyond is recorded. Here t is the state once the command's own time has
passed, and a row acts only where its condition holds: the model's choices of log entries 4 and 18. It rests on the model's readings of log entries
82, 99, 101, 104, 130, 158 as well. Rules followed: R331, R350, R351, R352, R356, R359. -/
def Obligations.HatchRequests : Prop :=
  (∀ (e : Ev) (k : Pkt) (addr : Nat) (data : List Byte) (r : HatchIn) (w : State) (v : State) (s t : State), t = tick e s → t.takes e.half false =
    true → badSpan addr data.length = false → r = { type := 1, pkt := k, hart := 0, addr := addr, len := data.length, op := .swap, data := data, val := 0 }
    → w = ((t.drain e.half).upd (peer e.half) fun x => x.fillBuckets t.now).drainOut e.half → w.bridgeHolds e.half r = false → (w.half
    e.half).creditOk r = true → v = w.upd (peer e.half) (fun x => x.payBridge k.mark data.length) → v.admits e.half r = true → exec (.mWrite e k addr
    data) s = .next ((v.pay e.half 136 k.mark true addr data.length).portWrite e.half k.src addr data)) ∧
  (∀ (e : Ev) (k : Pkt) (addr : Nat) (data : List Byte) (r : HatchIn) (w : State) (v : State) (s t : State), t = tick e s → t.takes e.half false =
    true → badSpan addr data.length = false → r = { type := 1, pkt := k, hart := 0, addr := addr, len := data.length, op := .swap, data := data, val := 0 }
    → w = ((t.drain e.half).upd (peer e.half) fun x => x.fillBuckets t.now).drainOut e.half → w.bridgeHolds e.half r = false → (w.half
    e.half).creditOk r = true → v = w.upd (peer e.half) (fun x => x.payBridge k.mark data.length) → v.admits e.half r = false → exec (.mWrite e k
    addr data) s = .next (v.upd e.half fun x => { x with hatch := { x.hatch with inbox := x.hatch.inbox ++ [r] } })) ∧
  (∀ (e : Ev) (k : Pkt) (addr : Nat) (data : List Byte) (r : HatchIn) (w : State) (s t : State), t = tick e s → t.takes e.half false = true → badSpan
    addr data.length = false → r = { type := 1, pkt := k, hart := 0, addr := addr, len := data.length, op := .swap, data := data, val := 0 } → w =
    ((t.drain e.half).upd (peer e.half) fun x => x.fillBuckets t.now).drainOut e.half → w.bridgeHolds e.half r = true → exec (.mWrite e k addr data)
    s = .next (w.upd (peer e.half) fun x => { x with hatch := { x.hatch with outbox := x.hatch.outbox ++ [r] } })) ∧
  (∀ (e : Ev) (k : Pkt) (addr : Nat) (data : List Byte) (s t : State), t = tick e s → t.takes e.half false = true → badSpan addr data.length = true →
    exec (.mWrite e k addr data) s = .next (t.violation e.half 0x02 0x01 k.tag)) ∧
  (∀ (e : Ev) (k : Pkt) (addr : Nat) (len : Nat) (i : State) (r : HatchIn) (w : State) (v : State) (s t : State), t = tick e s → t.takes e.half false
    = true → badSpan addr len = false → i = t.issued e.half k len → r = { type := 2, pkt := k, hart := 0, addr := addr, len := len, op := .swap, data := [], val := 0 }
    → w = ((i.drain e.half).upd (peer e.half) fun x => x.fillBuckets i.now).drainOut e.half → w.bridgeHolds e.half r = false → (w.half
    e.half).creditOk r = true → v = w.upd (peer e.half) (fun x => x.payBridge k.mark len) → v.admits e.half r = true → exec (.mRead e k addr len) s =
    .next (
      let d := (v.pay e.half 136 k.mark false addr len).portRead e.half k.src addr len
      d.2.2.complete_ e.half k.tag d.1 d.2.1)) ∧
  (∀ (e : Ev) (k : Pkt) (addr : Nat) (len : Nat) (i : State) (r : HatchIn) (w : State) (v : State) (s t : State), t = tick e s → t.takes e.half false
    = true → badSpan addr len = false → i = t.issued e.half k len → r = { type := 2, pkt := k, hart := 0, addr := addr, len := len, op := .swap, data := [], val := 0 }
    → w = ((i.drain e.half).upd (peer e.half) fun x => x.fillBuckets i.now).drainOut e.half → w.bridgeHolds e.half r = false → (w.half
    e.half).creditOk r = true → v = w.upd (peer e.half) (fun x => x.payBridge k.mark len) → v.admits e.half r = false → exec (.mRead e k addr len) s
    = .next (v.upd e.half fun x => { x with hatch := { x.hatch with inbox := x.hatch.inbox ++ [r] } })) ∧
  (∀ (e : Ev) (k : Pkt) (addr : Nat) (len : Nat) (i : State) (r : HatchIn) (w : State) (s t : State), t = tick e s → t.takes e.half false = true →
    badSpan addr len = false → i = t.issued e.half k len → r = { type := 2, pkt := k, hart := 0, addr := addr, len := len, op := .swap, data := [], val := 0 }
    → w = ((i.drain e.half).upd (peer e.half) fun x => x.fillBuckets i.now).drainOut e.half → w.bridgeHolds e.half r = true → exec (.mRead e k addr
    len) s = .next (w.upd (peer e.half) fun x => { x with hatch := { x.hatch with outbox := x.hatch.outbox ++ [r] } })) ∧
  (∀ (e : Ev) (k : Pkt) (addr : Nat) (len : Nat) (i : State) (r : HatchIn) (w : State) (s t : State), t = tick e s → t.takes e.half false = true →
    badSpan addr len = false → i = t.issued e.half k len → r = { type := 2, pkt := k, hart := 0, addr := addr, len := len, op := .swap, data := [], val := 0 }
    → w = ((i.drain e.half).upd (peer e.half) fun x => x.fillBuckets i.now).drainOut e.half → w.bridgeHolds e.half r = false → (w.half
    e.half).creditOk r = false → exec (.mRead e k addr len) s = .next (w.violation e.half 0x06 r.type k.tag)) ∧
  (∀ (e : Ev) (k : Pkt) (addr : Nat) (len : Nat) (s t : State), t = tick e s → t.takes e.half false = true → badSpan addr len = true → exec (.mRead e
    k addr len) s = .next ((t.issued e.half k len).violation e.half 0x02 0x02 k.tag)) ∧
  (∀ (e : Ev) (k : Pkt) (op : AmoOp) (addr : Nat) (width : Nat) (val : Nat) (i : State) (r : HatchIn) (w : State) (v : State) (u : State) (s t :
    State), t = tick e s → t.takes e.half false = true → width = 4 ∨ width = 8 → i = t.issued e.half k width → r = { type := 3, pkt := k, hart := 0, addr := addr, len := width, op := op, data := [], val := val }
    → w = ((i.drain e.half).upd (peer e.half) fun x => x.fillBuckets i.now).drainOut e.half → w.bridgeHolds e.half r = false → (w.half
    e.half).creditOk r = true → v = w.upd (peer e.half) (fun x => x.payBridge k.mark width) → v.admits e.half r = true → u = v.pay e.half 136 k.mark
    true addr width → u.access e.half (wordAt addr width) width = .ok → exec (.amo e k op addr width val) s = .next (
      let old := u.rdN (wordAt addr width) width
      (u.store e.half (wordAt addr width) (leBytes width (amoResult op width old val))).complete_ e.half k.tag .ok (leBytes width old))) ∧
  (∀ (e : Ev) (k : Pkt) (op : AmoOp) (addr : Nat) (width : Nat) (val : Nat) (i : State) (r : HatchIn) (w : State) (v : State) (s t : State), t = tick
    e s → t.takes e.half false = true → width = 4 ∨ width = 8 → i = t.issued e.half k width → r = { type := 3, pkt := k, hart := 0, addr := addr, len := width, op := op, data := [], val := val }
    → w = ((i.drain e.half).upd (peer e.half) fun x => x.fillBuckets i.now).drainOut e.half → w.bridgeHolds e.half r = false → (w.half
    e.half).creditOk r = true → v = w.upd (peer e.half) (fun x => x.payBridge k.mark width) → v.admits e.half r = false → exec (.amo e k op addr
    width val) s = .next (v.upd e.half fun x => { x with hatch := { x.hatch with inbox := x.hatch.inbox ++ [r] } })) ∧
  (∀ (e : Ev) (k : Pkt) (op : AmoOp) (addr : Nat) (width : Nat) (val : Nat) (i : State) (r : HatchIn) (w : State) (s t : State), t = tick e s →
    t.takes e.half false = true → width = 4 ∨ width = 8 → i = t.issued e.half k width → r = { type := 3, pkt := k, hart := 0, addr := addr, len := width, op := op, data := [], val := val }
    → w = ((i.drain e.half).upd (peer e.half) fun x => x.fillBuckets i.now).drainOut e.half → w.bridgeHolds e.half r = true → exec (.amo e k op addr
    width val) s = .next (w.upd (peer e.half) fun x => { x with hatch := { x.hatch with outbox := x.hatch.outbox ++ [r] } })) ∧
  (∀ (e : Ev) (k : Pkt) (op : AmoOp) (addr : Nat) (width : Nat) (val : Nat) (i : State) (r : HatchIn) (w : State) (s t : State), t = tick e s →
    t.takes e.half false = true → width = 4 ∨ width = 8 → i = t.issued e.half k width → r = { type := 3, pkt := k, hart := 0, addr := addr, len := width, op := op, data := [], val := val }
    → w = ((i.drain e.half).upd (peer e.half) fun x => x.fillBuckets i.now).drainOut e.half → w.bridgeHolds e.half r = false → (w.half
    e.half).creditOk r = false → exec (.amo e k op addr width val) s = .next (w.violation e.half 0x06 r.type k.tag)) ∧
  (∀ (e : Ev) (k : Pkt) (op : AmoOp) (addr : Nat) (width : Nat) (val : Nat) (s t : State), t = tick e s → t.takes e.half false = true → width ≠ 4 →
    width ≠ 8 → exec (.amo e k op addr width val) s = .next ((t.issued e.half k width).violation e.half 0x02 0x03 k.tag)) ∧
  (∀ (e : Ev) (tag : Nat) (data : List Byte) (s t : State), t = tick e s → t.takes e.half false = true → kget (fun _ => 0) (t.half
    e.half).hatch.outstanding tag = data.length + 1 → exec (.cpl e tag data) s = .next (t.upd e.half fun x => { x with hatch := { x.hatch with outstanding := kput (fun _ => 0) x.hatch.outstanding tag 0, askers := kput (fun _ => 0) x.hatch.askers tag 0 } })) ∧
  (∀ (e : Ev) (tag : Nat) (data : List Byte) (s t : State), t = tick e s → t.takes e.half false = true → kget (fun _ => 0) (t.half
    e.half).hatch.outstanding tag = 0 → exec (.cpl e tag data) s = .next (t.violation e.half 0x04 0x08 tag)) ∧
  (∀ (e : Ev) (tag : Nat) (data : List Byte) (n : Nat) (s t : State), t = tick e s → t.takes e.half false = true → kget (fun _ => 0) (t.half
    e.half).hatch.outstanding tag = n + 1 → n ≠ data.length → exec (.cpl e tag data) s = .next (t.violation e.half 0x04 0x08 tag)) ∧
  (∀ (e : Ev) (tag : Nat) (st : Status) (n : Nat) (s t : State), t = tick e s → t.takes e.half false = true → kget (fun _ => 0) (t.half
    e.half).hatch.outstanding tag = n + 1 → st = .ok ∨ kget (fun _ => 0) (t.half e.half).hatch.askers tag - 1 < 133 ∨ 135 < kget (fun _ => 0) (t.half
    e.half).hatch.askers tag - 1 → exec (.cplSt e tag st) s = .next (t.upd e.half fun x => { x with hatch := { x.hatch with outstanding := kput (fun _ => 0) x.hatch.outstanding tag 0, askers := kput (fun _ => 0) x.hatch.askers tag 0 } })) ∧
  (∀ (e : Ev) (tag : Nat) (st : Status) (n : Nat) (s t : State), t = tick e s → t.takes e.half false = true → kget (fun _ => 0) (t.half
    e.half).hatch.outstanding tag = n + 1 → st ≠ .ok → 133 ≤ kget (fun _ => 0) (t.half e.half).hatch.askers tag - 1 → kget (fun _ => 0) (t.half
    e.half).hatch.askers tag - 1 ≤ 135 → (∀ i < 12, ((t.half e.half).hart i).vault = none) → exec (.cplSt e tag st) s = .next ((t.draw.2.draw.2.emit
    (.appFault e.half ((kget (fun _ => 0) (t.half e.half).hatch.askers tag - 1 - 133) * 4 + t.draw.1 % 4) ([1, 5, 7].getD (t.draw.2.draw.1 % 3)
    5))).upd e.half fun x => { x with hatch := { x.hatch with outstanding := kput (fun _ => 0) x.hatch.outstanding tag 0, askers := kput (fun _ => 0) x.hatch.askers tag 0 } })) ∧
  (∀ (e : Ev) (tag : Nat) (st : Status) (s t : State), t = tick e s → t.takes e.half false = true → kget (fun _ => 0) (t.half
    e.half).hatch.outstanding tag = 0 → exec (.cplSt e tag st) s = .next (t.violation e.half 0x04 0x09 tag)) ∧
  (∀ (e : Ev) (addr : Nat) (data : List Byte) (s t : State), t = tick e s → t.takes e.half true = true → badSpan addr data.length = false → t.present
    addr = true → exec (.resWr e addr data) s = .next (t.store e.half addr data)) ∧
  (∀ (e : Ev) (addr : Nat) (data : List Byte) (s t : State), t = tick e s → t.takes e.half true = true → badSpan addr data.length = false → t.present
    addr = false → exec (.resWr e addr data) s = .next (t.unmapped e.half 140))

/-- On a link that takes requests and for one that is served, a load-reserved of an accessible word takes a free entry, waits on one held for another hart
or granule under 1 µs and steals one held longer, as does a waiting one. A store-conditional stores and answers 0 only where its hart still holds the
granule's entry, and otherwise answers 1. An entry that has been held for 10 µs expires. Here t is the state once the command's own time has passed,
and a row acts only where its condition holds: the model's choices of log entries 4 and 18. It rests on the model's readings of log entries 99, 100 as
well. Rules followed: R350, R357. -/
def Obligations.Semaphores : Prop :=
  (∀ (e : Ev) (k : Pkt) (hart : Nat) (addr : Nat) (width : Nat) (i : State) (r : HatchIn) (w : State) (v : State) (u : State) (s t : State), t = tick
    e s → t.takes e.half false = true → width = 4 ∨ width = 8 → i = t.issued e.half k width → r = { type := 4, pkt := k, hart := hart, addr := addr, len := width, op := .swap, data := [], val := 0 }
    → w = ((i.drain e.half).upd (peer e.half) fun x => x.fillBuckets i.now).drainOut e.half → w.bridgeHolds e.half r = false → (w.half
    e.half).creditOk r = true → v = w.upd (peer e.half) (fun x => x.payBridge k.mark width) → v.admits e.half r = true → (v.pay e.half 136 k.mark
    true addr width).access e.half (wordAt addr width) width = .ok → u = (v.pay e.half 136 k.mark true addr width).upd e.half (fun x => x.expireSem
    (semIdx (wordAt addr width))) → (u.half e.half).semBusy hart (wordAt addr width) = none → exec (.loadReserved e k hart addr width) s = .next
    (u.takeSem e.half k hart (wordAt addr width) width)) ∧
  (∀ (e : Ev) (k : Pkt) (hart : Nat) (addr : Nat) (width : Nat) (i : State) (r : HatchIn) (w : State) (v : State) (u : State) (b : Sem) (s t :
    State), t = tick e s → t.takes e.half false = true → width = 4 ∨ width = 8 → i = t.issued e.half k width → r = { type := 4, pkt := k, hart := hart, addr := addr, len := width, op := .swap, data := [], val := 0 }
    → w = ((i.drain e.half).upd (peer e.half) fun x => x.fillBuckets i.now).drainOut e.half → w.bridgeHolds e.half r = false → (w.half
    e.half).creditOk r = true → v = w.upd (peer e.half) (fun x => x.payBridge k.mark width) → v.admits e.half r = true → (v.pay e.half 136 k.mark
    true addr width).access e.half (wordAt addr width) width = .ok → u = (v.pay e.half 136 k.mark true addr width).upd e.half (fun x => x.expireSem
    (semIdx (wordAt addr width))) → (u.half e.half).semBusy hart (wordAt addr width) = some b → u.vtOf e.half < b.takenVt + 1000 → exec
    (.loadReserved e k hart addr width) s = .next (u.upd e.half fun x => { x with hatch := { x.hatch with lrWait := x.hatch.lrWait ++ [{ pkt := k, hart := hart, addr := wordAt addr width, width := width }] } })) ∧
  (∀ (e : Ev) (k : Pkt) (hart : Nat) (addr : Nat) (width : Nat) (i : State) (r : HatchIn) (w : State) (v : State) (u : State) (b : Sem) (s t :
    State), t = tick e s → t.takes e.half false = true → width = 4 ∨ width = 8 → i = t.issued e.half k width → r = { type := 4, pkt := k, hart := hart, addr := addr, len := width, op := .swap, data := [], val := 0 }
    → w = ((i.drain e.half).upd (peer e.half) fun x => x.fillBuckets i.now).drainOut e.half → w.bridgeHolds e.half r = false → (w.half
    e.half).creditOk r = true → v = w.upd (peer e.half) (fun x => x.payBridge k.mark width) → v.admits e.half r = true → (v.pay e.half 136 k.mark
    true addr width).access e.half (wordAt addr width) width = .ok → u = (v.pay e.half 136 k.mark true addr width).upd e.half (fun x => x.expireSem
    (semIdx (wordAt addr width))) → (u.half e.half).semBusy hart (wordAt addr width) = some b → b.takenVt + 1000 ≤ u.vtOf e.half → exec
    (.loadReserved e k hart addr width) s = .next ((u.upd e.half fun x => x.inc F.HTC_SEM_STAT_steals).takeSem e.half k hart (wordAt addr width)
    width)) ∧
  (∀ (e : Ev) (k : Pkt) (hart : Nat) (addr : Nat) (width : Nat) (w : LrWait) (u : State) (b : Sem) (s t : State), t = tick e s → t.takes e.half false
    = true → w = ⟨k, hart, wordAt addr width, width⟩ → w ∈ (t.half e.half).hatch.lrWait → u = t.upd e.half (fun x => ({ x with hatch := { x.hatch with lrWait := x.hatch.lrWait.erase w } }
    : Half).expireSem (semIdx w.addr)) → (u.half e.half).semBusy hart w.addr = some b → b.takenVt + 1000 ≤ u.vtOf e.half → exec (.semaphoreEntrySteal
    e k hart addr width) s = .next ((u.upd e.half fun x => x.inc F.HTC_SEM_STAT_steals).takeSem e.half k hart w.addr width)) ∧
  (∀ (e : Ev) (k : Pkt) (hart : Nat) (addr : Nat) (width : Nat) (val : Nat) (i : State) (r : HatchIn) (w : State) (v : State) (u : State) (b : Sem)
    (s t : State), t = tick e s → t.takes e.half false = true → width = 4 ∨ width = 8 → i = t.issued e.half k width → r = { type := 5, pkt := k, hart := hart, addr := addr, len := width, op := .swap, data := [], val := val }
    → w = ((i.drain e.half).upd (peer e.half) fun x => x.fillBuckets i.now).drainOut e.half → w.bridgeHolds e.half r = false → (w.half
    e.half).creditOk r = true → v = w.upd (peer e.half) (fun x => x.payBridge k.mark width) → v.admits e.half r = true → (v.pay e.half 136 k.mark
    true addr width).access e.half (wordAt addr width) width = .ok → u = (v.pay e.half 136 k.mark true addr width).upd e.half (fun x => x.expireSem
    (semIdx (wordAt addr width))) → (u.half e.half).sem (semIdx (wordAt addr width)) = some b → b.hart = hart → b.granule = wordAt addr width / 64 →
    exec (.storeConditional e k hart addr width val) s = .next (((u.upd e.half fun x => x.setSem (semIdx (wordAt addr width)) none).store e.half
    (wordAt addr width) (leBytes width val)).complete_ e.half k.tag .ok (leBytes width 0))) ∧
  (∀ (e : Ev) (k : Pkt) (hart : Nat) (addr : Nat) (width : Nat) (val : Nat) (i : State) (r : HatchIn) (w : State) (v : State) (u : State) (s t :
    State), t = tick e s → t.takes e.half false = true → width = 4 ∨ width = 8 → i = t.issued e.half k width → r = { type := 5, pkt := k, hart := hart, addr := addr, len := width, op := .swap, data := [], val := val }
    → w = ((i.drain e.half).upd (peer e.half) fun x => x.fillBuckets i.now).drainOut e.half → w.bridgeHolds e.half r = false → (w.half
    e.half).creditOk r = true → v = w.upd (peer e.half) (fun x => x.payBridge k.mark width) → v.admits e.half r = true → (v.pay e.half 136 k.mark
    true addr width).access e.half (wordAt addr width) width = .ok → u = (v.pay e.half 136 k.mark true addr width).upd e.half (fun x => x.expireSem
    (semIdx (wordAt addr width))) → (u.half e.half).sem (semIdx (wordAt addr width)) = none → exec (.storeConditional e k hart addr width val) s =
    .next (u.complete_ e.half k.tag .ok (leBytes width 1))) ∧
  (∀ (e : Ev) (k : Pkt) (hart : Nat) (addr : Nat) (width : Nat) (val : Nat) (i : State) (r : HatchIn) (w : State) (v : State) (u : State) (b : Sem)
    (s t : State), t = tick e s → t.takes e.half false = true → width = 4 ∨ width = 8 → i = t.issued e.half k width → r = { type := 5, pkt := k, hart := hart, addr := addr, len := width, op := .swap, data := [], val := val }
    → w = ((i.drain e.half).upd (peer e.half) fun x => x.fillBuckets i.now).drainOut e.half → w.bridgeHolds e.half r = false → (w.half
    e.half).creditOk r = true → v = w.upd (peer e.half) (fun x => x.payBridge k.mark width) → v.admits e.half r = true → (v.pay e.half 136 k.mark
    true addr width).access e.half (wordAt addr width) width = .ok → u = (v.pay e.half 136 k.mark true addr width).upd e.half (fun x => x.expireSem
    (semIdx (wordAt addr width))) → (u.half e.half).sem (semIdx (wordAt addr width)) = some b → b.hart ≠ hart ∨ b.granule ≠ wordAt addr width / 64 →
    exec (.storeConditional e k hart addr width val) s = .next (u.complete_ e.half k.tag .ok (leBytes width 1))) ∧
  (∀ (e : Ev) (idx : Nat) (s t : State), t = tick e s → (t.half e.half).clk.rimUp = true → exec (.semaphoreEntryExpiry e idx) s = .next (t.upd e.half
    fun x => x.expireSem idx))

/-- On a link that takes its channel, a message with the next sequence number of its kind and the protocol in force is counted and has its effect: an
interrupt reaches its hart, or the vault that takes it; a completion interrupt is raised; a watch is added at a running half; its reply completes the
WAIT; a frame goes to its bus; a relay passes; a result is staged; a verdict arrives; the VTs are compared; going down is reported; the other
Gatehouse's state, and with a demotion the harts that wait are answered, and its release are taken over. A message out of sequence and one of another
protocol are violations. Here t is the state once the command's own time has passed, and a row acts only where its condition holds: the model's
choices of log entries 4 and 18. It rests on the model's readings of log entries 42, 98, 102, 103, 130, 158, 175 as well. Rules followed: R262, R267,
R286, R306, R311, R315, R354, R355, R359, R360. -/
def Obligations.HatchMessages : Prop :=
  (∀ (e : Ev) (x : MsgH) (hart : Nat) (ident : Nat) (s t : State), t = tick e s → t.takes e.half false = true → x.seq = kget (fun _ => 0) (t.half
    e.half).hatch.kindSeq 0x01 → x.ver = (t.half e.half).fld F.HTC_LINK_protocol → exec (.msgInterrupt e x hart ident) s = .next (
      let d := (t.counted e.half 0x01 x).draw
      d.2.interrupt e.half (hart % 12) ident (freeSave d.1))) ∧
  (∀ (e : Ev) (x : MsgH) (hart : Nat) (ident : Nat) (s t : State), t = tick e s → t.takes e.half false = true → x.seq ≠ kget (fun _ => 0) (t.half
    e.half).hatch.kindSeq 0x01 → exec (.msgInterrupt e x hart ident) s = .next (t.violation e.half 0x03 0x10 0)) ∧
  (∀ (e : Ev) (x : MsgH) (hart : Nat) (ident : Nat) (s t : State), t = tick e s → t.takes e.half false = true → x.seq = kget (fun _ => 0) (t.half
    e.half).hatch.kindSeq 0x01 → x.ver ≠ (t.half e.half).fld F.HTC_LINK_protocol → exec (.msgInterrupt e x hart ident) s = .next (t.violation e.half
    0x05 0x10 0)) ∧
  (∀ (e : Ev) (x : MsgH) (q : Nat) (s t : State), t = tick e s → t.takes e.half false = true → x.seq = kget (fun _ => 0) (t.half
    e.half).hatch.kindSeq 0x02 → x.ver = (t.half e.half).fld F.HTC_LINK_protocol → exec (.msgQueueCompletionIrq e x q) s = .next ((t.counted e.half
    0x02 x).emit (.queueIrq e.half q))) ∧
  (∀ (e : Ev) (x : MsgH) (q : Nat) (gen : Nat) (idx : Nat) (addr : Nat) (val : Nat) (s t : State), t = tick e s → t.takes e.half false = true → x.seq
    = kget (fun _ => 0) (t.half e.half).hatch.kindSeq 0x03 → x.ver = (t.half e.half).fld F.HTC_LINK_protocol → ((t.counted e.half 0x03 x).half
    e.half).clk.computeUp = true → exec (.msgRemoteWatchRequest e x q gen idx addr val) s = .next ((t.counted e.half 0x03 x).addWatch e.half { peer := none, q := q, gen := gen, idx := idx, addr := addr, value := val })) ∧
  (∀ (e : Ev) (x : MsgH) (q : Nat) (gen : Nat) (idx : Nat) (s t : State), t = tick e s → t.takes e.half false = true → x.seq = kget (fun _ => 0)
    (t.half e.half).hatch.kindSeq 0x04 → x.ver = (t.half e.half).fld F.HTC_LINK_protocol → qHalf q = e.half → exec (.msgRemoteWatchReply e x q gen
    idx) s = .next ((t.counted e.half 0x04 x).watchReply q gen idx)) ∧
  (∀ (e : Ev) (x : MsgH) (f : Frame) (dst : Nat) (s t : State), t = tick e s → t.takes e.half false = true → x.seq = kget (fun _ => 0) (t.half
    e.half).hatch.kindSeq 0x05 → x.ver = (t.half e.half).fld F.HTC_LINK_protocol → dst < 16 → busHalf dst = e.half → exec (.msgGatewayFrame e x f
    dst) s = .next ((t.counted e.half 0x05 x).toBus e.half dst f)) ∧
  (∀ (e : Ev) (x : MsgH) (frag : List Byte) (s t : State), t = tick e s → t.takes e.half false = true → x.seq = kget (fun _ => 0) (t.half
    e.half).hatch.kindSeq 0x06 → x.ver = (t.half e.half).fld F.HTC_LINK_protocol → exec (.msgControlRelay e x frag) s = .next (t.counted e.half 0x06
    x)) ∧
  (∀ (e : Ev) (x : MsgH) (task : Nat) (ch : Nat) (round : Nat) (st : Status) (s t : State), t = tick e s → t.takes e.half true = true → x.seq = kget
    (fun _ => 0) (t.half e.half).hatch.kindSeq 0x40 → x.ver = (t.half e.half).fld F.HTC_LINK_protocol → exec (.resMsgResult e x task ch round st) s =
    .next ((t.counted e.half 0x40 x).stage (peer e.half) e.half task ((t.counted e.half 0x40 x).fullRound e.half task round) ch st [] [])) ∧
  (∀ (e : Ev) (x : MsgH) (task : Nat) (round : Nat) (v : Verdict) (s t : State), t = tick e s → t.takes e.half true = true → x.seq = kget (fun _ =>
    0) (t.half e.half).hatch.kindSeq 0x41 → x.ver = (t.half e.half).fld F.HTC_LINK_protocol → exec (.resMsgVerdict e x task round v) s = .next
    ((t.counted e.half 0x41 x).verdictArrives e.half task round v)) ∧
  (∀ (e : Ev) (x : MsgH) (peerVt : Nat) (s t : State), t = tick e s → t.takes e.half true = true → x.seq = kget (fun _ => 0) (t.half
    e.half).hatch.kindSeq 0x42 → x.ver = (t.half e.half).fld F.HTC_LINK_protocol → exec (.vtCompare e x peerVt) s = .next (((t.counted e.half 0x42
    x).compareVt e.half peerVt).followVt e.half)) ∧
  (∀ (e : Ev) (x : MsgH) (kind : Nat) (reason : Nat) (vt : Nat) (s t : State), t = tick e s → t.takes e.half true = true → x.seq = kget (fun _ => 0)
    (t.half e.half).hatch.kindSeq 0x43 → x.ver = (t.half e.half).fld F.HTC_LINK_protocol → exec (.resMsgGoingDown e x kind reason vt) s = .next
    ((t.counted e.half 0x43 x).emit (.goingDown e.half (peer e.half) kind reason vt))) ∧
  (∀ (e : Ev) (x : MsgH) (st : GhState) (s t : State), t = tick e s → t.takes e.half true = true → x.seq = kget (fun _ => 0) (t.half
    e.half).hatch.kindSeq 0x44 → x.ver = (t.half e.half).fld F.HTC_LINK_protocol → exec (.resMsgGatehouseState e x st) s = .next ((if st = .demoted
    then (t.counted e.half 0x44 x).answerOut e.half else t.counted e.half 0x44 x).upd e.half fun y => y.peerSays st)) ∧
  (∀ (e : Ev) (x : MsgH) (release : Nat) (s t : State), t = tick e s → t.takes e.half true = true → x.seq = kget (fun _ => 0) (t.half
    e.half).hatch.kindSeq 0x45 → x.ver = (t.half e.half).fld F.HTC_LINK_protocol → exec (.resMsgRepairNotice e x release) s = .next ((t.counted
    e.half 0x45 x).upd e.half fun y => y.setFld F.HTC_LINK_peer_release release))

/-- On a port that hears its partner, with the steward running, HELLO with sequence 0 opens or resets the session, as long as eight are not open to
others; the frame that its session expects next and that names a half served there is processed: up to 16 messages are queued, up to 64 of the session
in all, a Teller register is read or written by the Latch holder, staged bytes are written or read, request slots are taken and waiting replies
answered. While the steward restarts a frame is kept, up to 256 of them, until it serves again. Here t is the state once the command's own time has
passed, and a row acts only where its condition holds: the model's choices of log entries 4 and 18. It rests on the model's readings of log entries
76, 160 as well. Rules followed: R377, R379, R380, R381, R389, R393, R398, R399, R444. -/
def Obligations.Frames : Prop :=
  (∀ (e : Ev) (partner : Nat) (seq : Nat) (pid : Nat) (s t : State), t = tick e s → t.deaf e.half partner = false → t.insecure e.half partner = false
    → (t.half e.half).fw.stewardDown = false → seq = 0 → (t.half e.half).session partner ≠ none ∨ (t.half e.half).ports.sessions.length < 8 → exec
    (.hello e partner seq pid) s = .next (((t.orphan e.half partner).upd e.half fun x => (x.setSession partner (some { pid := pid, expect := 1, devSeq := 0, answers := [], queued := [], replies := [], lastVt := t.now, staging := [] })).syncSessions).answer
    e.half partner 0 0x04 .ok false [])) ∧
  (∀ (e : Ev) (partner : Nat) (seq : Nat) (pid : Nat) (s t : State), t = tick e s → t.deaf e.half partner = false → t.insecure e.half partner = false
    → (t.half e.half).fw.stewardDown = true → ((t.half e.half).ports.rxq.filter fun r => !isTeller r.2).length < 256 → exec (.hello e partner seq
    pid) s = .next (t.upd e.half fun x => { x with ports := { x.ports with rxq := x.ports.rxq ++ [(t.now, .hello e partner seq pid)] } })) ∧
  (∀ (e : Ev) (hd : FrameHdr) (msgs : List MsgHead) (k : Session) (q : Session) (s t : State), t = tick e s → t.deaf e.half hd.partner = false →
    t.insecure e.half hd.partner = false → (t.half e.half).fw.stewardDown = false → (t.half e.half).session hd.partner = some k → k.expect = hd.seq %
    2 ^ 32 → t.portOf hd.half = e.half → t.relayCut e.half hd.half = false → msgs ≠ [] → msgs.length ≤ 16 → ((t.touched e.half hd k).half
    e.half).session hd.partner = some q → q.queued.length + msgs.length ≤ 64 → exec (.mailbox e hd msgs) s = .next (((t.touched e.half hd k).taken
    e.half hd.partner).upd e.half fun x => x.enqueue hd.partner (msgs.map fun a => ({ fs := hd.seq, since := t.now, half := hd.half, hd := a } :
    Waiting)))) ∧
  (∀ (e : Ev) (hd : FrameHdr) (msgs : List MsgHead) (s t : State), t = tick e s → t.deaf e.half hd.partner = false → t.insecure e.half hd.partner =
    false → (t.half e.half).fw.stewardDown = true → ((t.half e.half).ports.rxq.filter fun r => !isTeller r.2).length < 256 → exec (.mailbox e hd
    msgs) s = .next (t.upd e.half fun x => { x with ports := { x.ports with rxq := x.ports.rxq ++ [(t.now, .mailbox e hd msgs)] } })) ∧
  (∀ (e : Ev) (hd : FrameHdr) (vdi : Nat) (off : Nat) (count : Nat) (k : Session) (s t : State), t = tick e s → t.deaf e.half hd.partner = false →
    t.insecure e.half hd.partner = false → (t.half e.half).fw.stewardDown = false → (t.half e.half).session hd.partner = some k → k.expect = hd.seq %
    2 ^ 32 → t.portOf hd.half = e.half → t.relayCut e.half hd.half = false → (t.touched e.half hd k).regRefusal e.half hd vdi count = none → exec
    (.regRead e hd vdi off count) s = .next ((t.touched e.half hd k).takeAnswer e.half hd 0x0A .ok ((List.range count).map fun i => (t.touched e.half
    hd k).tellerRead vdi (off + 8 * i)))) ∧
  (∀ (e : Ev) (hd : FrameHdr) (vdi : Nat) (off : Nat) (count : Nat) (s t : State), t = tick e s → t.deaf e.half hd.partner = false → t.insecure
    e.half hd.partner = false → (t.half e.half).fw.stewardDown = true → ((t.half e.half).ports.rxq.filter fun r => !isTeller r.2).length < 256 → exec
    (.regRead e hd vdi off count) s = .next (t.upd e.half fun x => { x with ports := { x.ports with rxq := x.ports.rxq ++ [(t.now, .regRead e hd vdi off count)] } })) ∧
  (∀ (e : Ev) (hd : FrameHdr) (vdi : Nat) (off : Nat) (vals : List Nat) (k : Session) (s t : State), t = tick e s → t.deaf e.half hd.partner = false
    → t.insecure e.half hd.partner = false → (t.half e.half).fw.stewardDown = false → (t.half e.half).session hd.partner = some k → k.expect = hd.seq
    % 2 ^ 32 → t.portOf hd.half = e.half → t.relayCut e.half hd.half = false → (t.touched e.half hd k).regRefusal e.half hd vdi vals.length = none →
    exec (.regWrite e hd vdi off vals) s = .next (((List.range vals.length).foldl (fun u i => u.tellerWrite vdi (off + 8 * i) (vals.getD i 0))
    (t.touched e.half hd k)).takeAnswer e.half hd 0x04 .ok [])) ∧
  (∀ (e : Ev) (hd : FrameHdr) (vdi : Nat) (off : Nat) (vals : List Nat) (s t : State), t = tick e s → t.deaf e.half hd.partner = false → t.insecure
    e.half hd.partner = false → (t.half e.half).fw.stewardDown = true → ((t.half e.half).ports.rxq.filter fun r => !isTeller r.2).length < 256 → exec
    (.regWrite e hd vdi off vals) s = .next (t.upd e.half fun x => { x with ports := { x.ports with rxq := x.ports.rxq ++ [(t.now, .regWrite e hd vdi off vals)] } })) ∧
  (∀ (e : Ev) (hd : FrameHdr) (off : Nat) (data : List Byte) (k : Session) (s t : State), t = tick e s → t.deaf e.half hd.partner = false →
    t.insecure e.half hd.partner = false → (t.half e.half).fw.stewardDown = false → (t.half e.half).session hd.partner = some k → k.expect = hd.seq %
    2 ^ 32 → t.portOf hd.half = e.half → t.relayCut e.half hd.half = false → 1 ≤ data.length → data.length ≤ 1016 → off + data.length ≤ 0x20000 →
    exec (.dataWrite e hd off data) s = .next (((t.touched e.half hd k).upd e.half fun x => x.stageData hd.partner off data).takeAnswer e.half hd
    0x04 .ok [])) ∧
  (∀ (e : Ev) (hd : FrameHdr) (off : Nat) (data : List Byte) (s t : State), t = tick e s → t.deaf e.half hd.partner = false → t.insecure e.half
    hd.partner = false → (t.half e.half).fw.stewardDown = true → ((t.half e.half).ports.rxq.filter fun r => !isTeller r.2).length < 256 → exec
    (.dataWrite e hd off data) s = .next (t.upd e.half fun x => { x with ports := { x.ports with rxq := x.ports.rxq ++ [(t.now, .dataWrite e hd off data)] } })) ∧
  (∀ (e : Ev) (hd : FrameHdr) (off : Nat) (len : Nat) (k : Session) (s t : State), t = tick e s → t.deaf e.half hd.partner = false → t.insecure
    e.half hd.partner = false → (t.half e.half).fw.stewardDown = false → (t.half e.half).session hd.partner = some k → k.expect = hd.seq % 2 ^ 32 →
    t.portOf hd.half = e.half → t.relayCut e.half hd.half = false → 1 ≤ len → len ≤ 1016 → off + len ≤ 0x20000 → exec (.dataRead e hd off len) s =
    .next ((t.touched e.half hd k).takeAnswer e.half hd 0x0D .ok (((t.touched e.half hd k).half e.half).stagedData hd.partner off len))) ∧
  (∀ (e : Ev) (hd : FrameHdr) (off : Nat) (len : Nat) (s t : State), t = tick e s → t.deaf e.half hd.partner = false → t.insecure e.half hd.partner =
    false → (t.half e.half).fw.stewardDown = true → ((t.half e.half).ports.rxq.filter fun r => !isTeller r.2).length < 256 → exec (.dataRead e hd off
    len) s = .next (t.upd e.half fun x => { x with ports := { x.ports with rxq := x.ports.rxq ++ [(t.now, .dataRead e hd off len)] } })) ∧
  (∀ (e : Ev) (hd : FrameHdr) (index : Nat) (slots : List Nat) (k : Session) (u : State) (r : Ring) (s t : State), t = tick e s → t.deaf e.half
    hd.partner = false → t.insecure e.half hd.partner = false → (t.half e.half).fw.stewardDown = false → (t.half e.half).session hd.partner = some k
    → k.expect = hd.seq % 2 ^ 32 → t.portOf hd.half = e.half → t.relayCut e.half hd.half = false → slots ≠ [] → slots.length ≤ 15 → u = t.touched
    e.half hd k → r = ((u.half hd.half).ring 0).request index slots → exec (.ringFrame e hd index slots) s = .next ((u.upd hd.half fun x => x.setRing
    0 (r.setRepHead (r.repHead + (r.unread 15).length))).takeAnswer e.half hd 0x0E .ok (r.repHead :: (r.unread 15).length :: r.unread 15))) ∧
  (∀ (e : Ev) (hd : FrameHdr) (index : Nat) (slots : List Nat) (s t : State), t = tick e s → t.deaf e.half hd.partner = false → t.insecure e.half
    hd.partner = false → (t.half e.half).fw.stewardDown = true → ((t.half e.half).ports.rxq.filter fun r => !isTeller r.2).length < 256 → exec
    (.ringFrame e hd index slots) s = .next (t.upd e.half fun x => { x with ports := { x.ports with rxq := x.ports.rxq ++ [(t.now, .ringFrame e hd index slots)] } }))

/-- A malformed frame is dropped and counted or refused by its kind, and at the 64th within a second closes its session and blocks its partner; the block
and an idle session end after 1 s. A heartbeat carries its count and fields to open sessions, the Latch's port being left open where no lease runs. An
expired lease ends. A link loss over 1 s is kept, and the third within 10 min, or a failed self-test, closes the sessions and retires the port. A
secure association opens in a vehicle-bound part. Here t is the state once the command's own time has passed, and a row acts only where its condition
holds: the model's choices of log entries 4 and 18. It rests on the model's readings of log entries 125, 176 as well. Rules followed: R303, R309,
R376, R377, R378, R380, R382, R383, R386. -/
def Obligations.PortEvents : Prop :=
  (∀ (e : Ev) (partner : Nat) (kind : BadFrame) (l : List Nat) (s t : State), t = tick e s → t.deaf e.half partner = false → t.insecure e.half
    partner = false → l = t.now :: within t.now 1000000000 (kget (fun _ => []) (t.half e.half).ports.badVts partner) → l.length < 64 → exec
    (.malformedFrame e partner kind) s = .next ((t.badFrame e.half partner kind).upd e.half fun x => { x with ports := { x.ports with badVts := kput (fun _ => []) x.ports.badVts partner l } })) ∧
  (∀ (e : Ev) (partner : Nat) (kind : BadFrame) (s t : State), t = tick e s → t.deaf e.half partner = false → t.insecure e.half partner = false → 64
    ≤ (t.now :: within t.now 1000000000 (kget (fun _ => []) (t.half e.half).ports.badVts partner)).length → exec (.malformedFrame e partner kind) s =
    .next ((((t.badFrame e.half partner kind).orphan e.half partner).upd e.half fun x => x.blockPartner partner (t.now + 1000000000)).incident e.half
    0x0C 0 .badArg)) ∧
  (∀ (e : Ev) (partner : Nat) (kind : BadFrame) (s t : State), t = tick e s → t.deaf e.half partner = false → t.insecure e.half partner = true → exec
    (.malformedFrame e partner kind) s = .next (t.upd e.half fun x => x.inc F.TEL_PORT_STAT_insecure)) ∧
  (∀ (e : Ev) (partner : Nat) (n : Nat) (s t : State), t = tick e s → kget (fun _ => 0) (t.half e.half).ports.blocked partner = n + 1 → n ≤ t.now →
    exec (.malformedBlockExpiry e partner) s = .next (t.upd e.half fun x => { x with ports := { x.ports with blocked := kput (fun _ => 0) x.ports.blocked partner 0 } })) ∧
  (∀ (e : Ev) (partner : Nat) (k : Session) (s t : State), t = tick e s → (t.half e.half).session partner = some k → k.lastVt + 1000000000 ≤ t.now →
    exec (.sessionIdleTimeout e partner) s = .next ((t.orphan e.half partner).upd e.half fun x => x.closeSession partner)) ∧
  (∀ (e : Ev) (n : Nat) (s t : State), t = tick e s → (t.half e.half).portUp = true → t.latchLive = true → (t.half e.half).ports.sessions ≠ [] → n =
    ((t.half e.half).ports.hbCount + 1) % 2 ^ 32 → exec (.heartbeat e) s = .next ((t.upd e.half fun x => { x with ports := { x.ports with hbCount := n } }).emit
    (.heartbeat e.half (t.beatFields e.half n true t.latch.half)))) ∧
  (∀ (e : Ev) (n : Nat) (s t : State), t = tick e s → (t.half e.half).portUp = true → n = ((t.half e.half).ports.hbCount + 1) % 2 ^ 32 → t.latchLive
    = false → (t.half e.half).ports.sessions ≠ [] → exec (.heartbeat e) s = .next ((t.draw.2.upd e.half fun x => { x with ports := { x.ports with hbCount := n } }).emit
    (.heartbeat e.half (t.beatFields e.half n false (t.draw.1 % 256))))) ∧
  (∀ (e : Ev) (n : Nat) (s t : State), t = tick e s → (t.half e.half).portUp = true → n = ((t.half e.half).ports.hbCount + 1) % 2 ^ 32 → t.latchLive
    = true → (t.half e.half).ports.sessions = [] → exec (.heartbeat e) s = .next (t.upd e.half fun x => { x with ports := { x.ports with hbCount := n } })) ∧
  (∀ (e : Ev) (p : Nat) (s t : State), t = tick e s → t.latch.holder = some p → t.latchLive = false → exec (.latchLeaseExpiry e) s = .next
    (t.freeLatch)) ∧
  (∀ (e : Ev) (ms : Nat) (s t : State), t = tick e s → (t.half e.half).portUp = true → 1000 < ms → exec (.controlPortLinkLoss e ms) s = .next (t.upd
    e.half fun x => { x with ports := { x.ports with linkLoss := t.now :: within t.now 600000000000 x.ports.linkLoss } })) ∧
  (∀ (e : Ev) (selfTestFail : Bool) (s t : State), t = tick e s → (t.half e.half).portUp = true → selfTestFail = true ∨ 3 ≤ (within t.now
    600000000000 (t.half e.half).ports.linkLoss).length → exec (.controlPortRetire e selfTestFail) s = .next (((t.half e.half).ports.sessions.foldl
    (fun u p => u.orphan e.half p.1) t).upd e.half Half.retirePort)) ∧
  (∀ (e : Ev) (partner : Nat) (ok : Bool) (s t : State), t = tick e s → (t.half e.half).portUp = true → (t.half e.half).fld F.SVC_LIFECYCLE_state = 1
    → ok = true → exec (.mkaFrame e partner ok) s = .next (t.upd e.half fun x => { x with ports := { x.ports with macsec := kput (fun _ => false) x.ports.macsec partner true } }))

/-- A failed steward stops its component, its third failure within 1 s requests an M, and once reloaded it serves what it received. A Teller request
reaches its half; its reply shows on the page, with the interrupt where enabled. A ring's tail and head move within its slots. A listed peer's watch
and reply are taken, a watch outside what peers may watch is recorded, and frames of others only counted. A due gate list becomes the running one. The
steward writes a register, a partition's through its own checks and a stream's as its messages do; a doorbell write acts as the doorbell; an
application core's write of a window register is recorded as NOT_OWNER and changes nothing. Here t is the state once the command's own time has
passed, and a row acts only where its condition holds: the model's choices of log entries 4 and 18. It rests on the model's readings of log entries
53, 77, 104, 160 as well. Rules followed: R10, R219, R231, R393, R394, R395, R396, R397, R400, R402, R444, R445. -/
def Obligations.StewardTellerPeers : Prop :=
  (∀ (e : Ev) (l : List Nat) (s t : State), t = tick e s → (t.half e.half).clk.rimUp = true → (t.half e.half).fw.stewardDown = false → l = (t.half
    e.half).vt.toNat :: within (t.half e.half).vt.toNat 1000000000 (t.half e.half).fw.stewardVts → l.length < 3 → exec (.stewardWatchdog e) s = .next
    ((t.upd e.half fun x => x.stewardStops l).componentStop e.half 1)) ∧
  (∀ (e : Ev) (s t : State), t = tick e s → (t.half e.half).clk.rimUp = true → (t.half e.half).fw.stewardDown = false → 3 ≤ ((t.half e.half).vt.toNat
    :: within (t.half e.half).vt.toNat 1000000000 (t.half e.half).fw.stewardVts).length → exec (.stewardWatchdog e) s = .next ((t.upd e.half fun x =>
    x.stewardStops []).resetHalf e.half 2 0x0C false)) ∧
  (∀ (e : Ev) (s t : State), t = tick e s → (t.half e.half).clk.rimUp = true → (t.half e.half).fw.stewardDown = true → exec (.stewardRestartDone e) s
    = .next (
      let u := (t.reloadCopy e.half 1).upd e.half Half.stewardRuns
      (t.half e.half).ports.rxq.foldl (fun v r => v.onFrame e.half r.1 r.2) ((u.stopMessages e.half).stopLeaving e.half))) ∧
  (∀ (e : Ev) (vdi : Nat) (s t : State), t = tick e s → (t.vdi vdi).exists_ = true → (t.half (t.hostOf vdi)).clk.rimUp = true → (t.half (t.hostOf
    vdi)).fw.stewardDown = false → exec (.telMbxGo e vdi) s = .next (t.tellerGo vdi)) ∧
  (∀ (e : Ev) (vdi : Nat) (w : Nat) (s t : State), t = tick e s → kget (fun _ => 0) (t.half e.half).ports.tellerReply vdi = w + 1 → (t.half
    e.half).serves = true → (t.half e.half).fld F.TEL_MBX_STAT_irq_en vdi = 1 → exec (.tellerMailboxReply e vdi) s = .next ((t.upd e.half fun x =>
    x.tellerDone vdi w).emit (.tellerIrq e.half vdi))) ∧
  (∀ (e : Ev) (vdi : Nat) (w : Nat) (s t : State), t = tick e s → kget (fun _ => 0) (t.half e.half).ports.tellerReply vdi = w + 1 → (t.half
    e.half).serves = true → (t.half e.half).fld F.TEL_MBX_STAT_irq_en vdi ≠ 1 → exec (.tellerMailboxReply e vdi) s = .next (t.upd e.half fun x =>
    x.tellerDone vdi w)) ∧
  (∀ (e : Ev) (pair : Nat) (tail : Nat) (s t : State), t = tick e s → (t.half e.half).clk.rimUp = true → pair < 8 → (tail + 2 ^ 32 - ((t.half
    e.half).ring pair).reqHead) % 2 ^ 32 ≤ 128 → exec (.reqTailWrite e pair tail) s = .next (t.upd e.half fun x => x.setRing pair { (t.half e.half).ring pair with reqTail := tail % 2 ^ 32 })) ∧
  (∀ (e : Ev) (pair : Nat) (head : Nat) (s t : State), t = tick e s → (t.half e.half).clk.rimUp = true → pair < 8 → exec (.repHeadWrite e pair head)
    s = .next (t.upd e.half fun x => x.setRing pair ((x.ring pair).setRepHead head))) ∧
  (∀ (e : Ev) (src : Nat) (q : Nat) (gen : Nat) (idx : Nat) (addr : Nat) (val : Nat) (rpeer : Nat) (s t : State), t = tick e s → (t.half
    e.half).clk.rimUp = true → (t.half e.half).peerListed src = true → t.watchable addr = true → exec (.peerWatch e src q gen idx addr val rpeer) s =
    .next ((t.countRx e.half).addWatch e.half { peer := some rpeer, q := q, gen := gen, idx := idx, addr := addr, value := val })) ∧
  (∀ (e : Ev) (src : Nat) (q : Nat) (gen : Nat) (idx : Nat) (addr : Nat) (val : Nat) (rpeer : Nat) (s t : State), t = tick e s → (t.half
    e.half).clk.rimUp = true → (t.half e.half).peerListed src = true → t.watchable addr = false → exec (.peerWatch e src q gen idx addr val rpeer) s
    = .next ((t.countRx e.half).incident e.half 0x0C 0 .outOfRange)) ∧
  (∀ (e : Ev) (src : Nat) (q : Nat) (gen : Nat) (idx : Nat) (addr : Nat) (val : Nat) (rpeer : Nat) (s t : State), t = tick e s → (t.half
    e.half).clk.rimUp = true → (t.half e.half).peerListed src = false → exec (.peerWatch e src q gen idx addr val rpeer) s = .next (t.countRx
    e.half)) ∧
  (∀ (e : Ev) (src : Nat) (q : Nat) (gen : Nat) (idx : Nat) (s t : State), t = tick e s → (t.half e.half).clk.rimUp = true → (t.half
    e.half).peerListed src = true → exec (.peerReply e src q gen idx) s = .next ((t.countRx e.half).watchReply (e.half * 8192 + q % 8192) gen idx)) ∧
  (∀ (e : Ev) (src : Nat) (q : Nat) (gen : Nat) (idx : Nat) (s t : State), t = tick e s → (t.half e.half).clk.rimUp = true → (t.half
    e.half).peerListed src = false → exec (.peerReply e src q gen idx) s = .next (t.countRx e.half)) ∧
  (∀ (e : Ev) (port : Nat) (l : List Nat) (s t : State), t = tick e s → (t.half e.half).clk.rimUp = true → l = kget (fun _ => []) (t.half
    e.half).ports.qbvAdmin port → l ≠ [] → l.getD 1 0 ≤ (t.half e.half).vt.toNat → exec (.qbvListSwap e port) s = .next (t.upd e.half fun x => { x with ports := { x.ports with qbvOper := kput (fun _ => []) x.ports.qbvOper port l } })) ∧
  (∀ (e : Ev) (who : Master) (reg : Reg) (unit : Nat) (index : Nat) (word : Nat) (val : Nat) (s t : State), t = tick e s → (t.half e.half).clk.rimUp
    = true → reg = .WIN_CTL → who = .steward → exec (.registerWrite e who reg unit index word val) s = .next (t.upd e.half fun y => y.writeWord
    .WIN_CTL unit index word val)) ∧
  (∀ (e : Ev) (who : Master) (reg : Reg) (unit : Nat) (index : Nat) (word : Nat) (val : Nat) (s t : State), t = tick e s → (t.half e.half).clk.rimUp
    = true → reg = .INT_STREAM_CFG → who = .steward → exec (.registerWrite e who reg unit index word val) s = .next (t.streamWord e.half
    .INT_STREAM_CFG unit val)) ∧
  (∀ (e : Ev) (who : Master) (reg : Reg) (unit : Nat) (index : Nat) (word : Nat) (val : Nat) (n : Nat) (src : Nat) (s t : State), t = tick e s →
    (t.half e.half).clk.rimUp = true → reg = .GTW_CTL → who = .app n → windowSource .GTW_CTL = some src → exec (.registerWrite e who reg unit index
    word val) s = .next (t.incident e.half src unit .notOwner)) ∧
  (∀ (e : Ev) (who : Master) (reg : Reg) (unit : Nat) (index : Nat) (word : Nat) (val : Nat) (s t : State), t = tick e s → (t.half e.half).clk.rimUp
    = true → reg = .TEL_DB_TAIL → exec (.registerWrite e who reg unit index word val) s = .next (t.dbTail (e.half * 8192 + unit) (val % 2 ^ 32))) ∧
  (∀ (e : Ev) (who : Master) (reg : Reg) (unit : Nat) (index : Nat) (word : Nat) (val : Nat) (s t : State), t = tick e s → (t.half e.half).clk.rimUp
    = true → reg = .WIN_PART_CFG ∨ reg = .WIN_PART_CORES → who = .steward → exec (.registerWrite e who reg unit index word val) s = .next (t.partWord
    e.half reg index word val)) ∧
  (∀ (e : Ev) (who : Master) (reg : Reg) (unit : Nat) (index : Nat) (word : Nat) (val : Nat) (s t : State), t = tick e s → (t.half e.half).clk.rimUp
    = true → reg = .TEL_DB_CQ_HEAD → exec (.registerWrite e who reg unit index word val) s = .next (t.dbCqHead (e.half * 8192 + unit) (val % 2 ^
    32))) ∧
  (∀ (e : Ev) (who : Master) (reg : Reg) (unit : Nat) (index : Nat) (word : Nat) (val : Nat) (s t : State), t = tick e s → (t.half e.half).clk.rimUp
    = true → reg = .TEL_DB_STATE → t.queueUp (e.half * 8192 + unit) = true → (t.half e.half).qState unit ≠ 0 → exec (.registerWrite e who reg unit
    index word val) s = .next (t.upd e.half fun y => y.writeWord .TEL_DB_STATE unit 0 0 val)) ∧
  (∀ (e : Ev) (who : Master) (reg : Reg) (unit : Nat) (index : Nat) (word : Nat) (val : Nat) (s t : State), t = tick e s → (t.half e.half).clk.rimUp
    = true → reg = .TEL_MBX_GO → val % 2 = 1 → exec (.registerWrite e who reg unit index word val) s = .next (t.tellerAccess unit (.telMbxGo e
    unit)))

/-- A free Latch is taken with the next generation for 100 ms and a held one is not; a renewal in time extends the lease from its arrival and one in the
ms tick of the expiry frees the Latch; a release frees it; a query shows a live one, and of a free one the generation beside two free values; device
information and the words of a register are answered, the latter cleared only when asked; a read of no word is EMPTY and one of more than 6 or outside
the tables is BAD_ARG; the incident records of a range of sequence numbers and the record of an owned context are copied, and of another context
NOT_OWNER. Here t is the state once the command's own time has passed, and a row acts only where its condition holds: the model's choices of log
entries 4 and 18. u is that state after what its half had under way, in which the message is accepted. It rests on the model's readings of log entries
64, 73, 74, 161 as well. Rules followed: R385, R386, R390, R391, R392, R525, R244. -/
def Obligations.LatchAndReads : Prop :=
  (∀ (e : Ev) (m : Msg) (pid : Nat) (s t u : State), t = tick e s → u = t.settleMsgs e.half → u.accepts e.half m 0x01 .any false = true →
    u.endLease.latch.holder = none → exec (.latchTake e m pid) s = .next (
      let g := (u.endLease.latch.gen + 1) % 2 ^ 16
      (u.endLease.takeLatch e.half m pid g).reply e.half m 0x01 .ok (g + 100 * 2 ^ 32))) ∧
  (∀ (e : Ev) (m : Msg) (pid : Nat) (p : Nat) (s t u : State), t = tick e s → u = t.settleMsgs e.half → u.accepts e.half m 0x01 .any false = true →
    u.endLease.latch.holder = some p → exec (.latchTake e m pid) s = .next (u.endLease.reply e.half m 0x01 .latchHeld (u.endLease.latch.gen +
    u.endLease.leaseMs * 2 ^ 32))) ∧
  (∀ (e : Ev) (m : Msg) (s t u : State), t = tick e s → u = t.settleMsgs e.half → u.accepts e.half m 0x02 .l false = true → u.arrival e.half m /
    1000000 < u.latch.expires / 1000000 → exec (.latchRenew e m) s = .next (({ u with latch := { u.latch with expires := u.arrival e.half m + 100000000 } }
    : State).reply e.half m 0x02 .ok (100 * 2 ^ 32))) ∧
  (∀ (e : Ev) (m : Msg) (s t u : State), t = tick e s → u = t.settleMsgs e.half → u.accepts e.half m 0x02 .l false = true → u.latch.expires / 1000000
    ≤ u.arrival e.half m / 1000000 → exec (.latchRenew e m) s = .next (u.freeLatch.reply e.half m 0x02 .latchHeld 0)) ∧
  (∀ (e : Ev) (m : Msg) (s t u : State), t = tick e s → u = t.settleMsgs e.half → u.accepts e.half m 0x03 .l false = true → exec (.latchRelease e m)
    s = .next (u.freeLatch.reply e.half m 0x03 .ok 0)) ∧
  (∀ (e : Ev) (m : Msg) (p : Nat) (s t u : State), t = tick e s → u = t.settleMsgs e.half → u.accepts e.half m 0x04 .a false = true → u.latchLive =
    true → u.latch.holder = some p → exec (.latchQuery e m) s = .next (u.reply e.half m 0x04 .ok (1 + u.latch.half * 2 ^ 8 + u.latch.gen * 2 ^ 16 +
    u.leaseMs * 2 ^ 32 + p * 2 ^ 64))) ∧
  (∀ (e : Ev) (m : Msg) (s t u : State), t = tick e s → u = t.settleMsgs e.half → u.accepts e.half m 0x04 .a false = true → u.latchLive = false →
    exec (.latchQuery e m) s = .next (u.draw.2.draw.2.reply e.half m 0x04 .ok (u.draw.1 % 2 ^ 8 * 2 ^ 8 + u.latch.gen * 2 ^ 16 + u.draw.2.draw.1 % 2
    ^ 64 * 2 ^ 64))) ∧
  (∀ (e : Ev) (m : Msg) (s t u : State), t = tick e s → u = t.settleMsgs e.half → u.accepts e.half m 0x10 .a false = true → exec (.devInfo e m) s =
    .next (u.reply e.half m 0x10 .ok (u.devInfo e.half))) ∧
  (∀ (e : Ev) (m : Msg) (block : Nat) (clear : Bool) (unit : Nat) (reg : Nat) (index : Nat) (count : Nat) (w : State) (l : List (Reg × Nat × Nat ×
    Nat)) (s t u : State), t = tick e s → u = t.settleMsgs e.half → u.accepts e.half m 0x11 (if clear then .l else .a) false = true → count ≠ 0 →
    count ≤ 6 → statsWords block unit reg index count = some l → w = (if block = 3 then u.moveOn e.half else u) → exec (.statsRead e m block clear
    unit reg index count) s = .next ((if clear then w.upd e.half fun x => x.clearWords l else w).reply e.half m 0x11 .ok ((w.half e.half).words l))) ∧
  (∀ (e : Ev) (m : Msg) (block : Nat) (clear : Bool) (unit : Nat) (reg : Nat) (index : Nat) (count : Nat) (s t u : State), t = tick e s → u =
    t.settleMsgs e.half → u.accepts e.half m 0x11 (if clear then .l else .a) false = true → count = 0 → exec (.statsRead e m block clear unit reg
    index count) s = .next (u.reply e.half m 0x11 .empty 0)) ∧
  (∀ (e : Ev) (m : Msg) (block : Nat) (clear : Bool) (unit : Nat) (reg : Nat) (index : Nat) (count : Nat) (s t u : State), t = tick e s → u =
    t.settleMsgs e.half → u.accepts e.half m 0x11 (if clear then .l else .a) false = true → count ≠ 0 → 6 < count ∨ statsWords block unit reg index
    count = none → exec (.statsRead e m block clear unit reg index count) s = .next (u.reply e.half m 0x11 .badArg 0)) ∧
  (∀ (e : Ev) (m : Msg) (first : Nat) (count : Nat) (dst : Nat) (l : List Incident) (w : State) (s t u : State), t = tick e s → u = t.settleMsgs
    e.half → u.accepts e.half m 0x12 .a false = true → count ≠ 0 → count ≤ 4096 → l = incidentsFrom first count (u.half e.half).incidents.reverse →
    (u.dstBytes e.half m dst (leBytes (32 * count) 0)).1 = .ok → u.dstBytes e.half m dst (l.flatMap Incident.bytes) = (.ok, w) → exec (.incidentRead
    e m first count dst) s = .next (w.reply e.half m 0x12 .ok (((u.half e.half).incidents.reverse.head?.map (·.seq)).getD 0 + l.length * 2 ^ 32))) ∧
  (∀ (e : Ev) (m : Msg) (ctx : Nat) (dst : Nat) (n : Nat) (w : State) (s t u : State), t = tick e s → u = t.settleMsgs e.half → u.accepts e.half m
    0x13 .v false = true → (u.vdi m.vdi).ownsCtx ctx = true → n = (if isL ctx then 128 else 32) → u.dstBytes e.half m dst (leBytes n (u.ctx ctx).raw)
    = (.ok, w) → exec (.accountRead e m ctx dst) s = .next (w.reply e.half m 0x13 .ok n)) ∧
  (∀ (e : Ev) (m : Msg) (ctx : Nat) (dst : Nat) (s t u : State), t = tick e s → u = t.settleMsgs e.half → u.accepts e.half m 0x13 .v false = true →
    (u.vdi m.vdi).ownsCtx ctx = false → exec (.accountRead e m ctx dst) s = .next (u.reply e.half m 0x13 .notOwner 0))

/-- Entries within 4,096 are written into the idle bank, whose validation lapses, and others BAD_ARG; a bank that passes its checks, its images' minimum
releases among them, becomes pending or the standby, which a half without a partner takes up at once, and one that fails a check names the entry that
failed; a frame of 1,000 to 10,000,000 units, a legal change of an idle partition, a task record below 4,096 and an aligned Tally configuration are
written, and out of these ranges BAD_ARG; the sequencer's enable is set for a VT 100 µs ahead with the VT held in both halves, earlier ones are
BAD_ARG, or cleared. Here t is the state once the command's own time has passed, and a row acts only where its condition holds: the model's choices of
log entries 4 and 18. u is that state after what its half had under way, in which the message is accepted. It rests on the model's readings of log
entries 64, 75, 83, 160, 168, 173, 177 as well. Rules followed: R112, R219, R222, R223, R255, R391. -/
def Obligations.WindowMessages : Prop :=
  (∀ (e : Ev) (m : Msg) (first : Nat) (count : Nat) (src : Nat) (l : List Byte) (s t u : State), t = tick e s → u = t.settleMsgs e.half → u.accepts
    e.half m 0x20 .l false = true → count ≠ 0 → count ≤ 2048 → first + count ≤ 4096 → u.srcBytes e.half m src (64 * count) = (.ok, l) → exec
    (.winWrite e m first count src) s = .next ((u.upd e.half fun x => x.writeBank first l).reply e.half m 0x20 .ok 0)) ∧
  (∀ (e : Ev) (m : Msg) (first : Nat) (count : Nat) (src : Nat) (s t u : State), t = tick e s → u = t.settleMsgs e.half → u.accepts e.half m 0x20 .l
    false = true → count ≠ 0 → 2048 < count ∨ 4096 < first + count → exec (.winWrite e m first count src) s = .next (u.reply e.half m 0x20 .badArg
    0)) ∧
  (∀ (e : Ev) (m : Msg) (vt : Nat) (standby : Bool) (s t u : State), t = tick e s → u = t.settleMsgs e.half → u.accepts e.half m 0x21 .l false = true
    → u.checkBank e.half vt standby = none → u.checkTasks e.half standby = none → u.checkImages e.half = none → standby = false → exec (.winActivate
    e m vt standby) s = .next ((u.upd e.half fun x => x.pendBank vt).reply e.half m 0x21 .ok 0)) ∧
  (∀ (e : Ev) (m : Msg) (vt : Nat) (standby : Bool) (s t u : State), t = tick e s → u = t.settleMsgs e.half → u.accepts e.half m 0x21 .l false = true
    → u.checkBank e.half vt standby = none → u.checkTasks e.half standby = none → u.checkImages e.half = none → standby = true → (u.half
    e.half).degraded = false → exec (.winActivate e m vt standby) s = .next (((u.upd e.half fun x => x.standbyBank false).saveConf e.half true).reply
    e.half m 0x21 .ok 0)) ∧
  (∀ (e : Ev) (m : Msg) (vt : Nat) (standby : Bool) (s t u : State), t = tick e s → u = t.settleMsgs e.half → u.accepts e.half m 0x21 .l false = true
    → u.checkBank e.half vt standby = none → u.checkTasks e.half standby = none → u.checkImages e.half = none → standby = true → (u.half
    e.half).degraded = true → (u.half e.half).tally.noStandby = true → exec (.winActivate e m vt standby) s = .next (((u.upd e.half fun x =>
    x.standbyBank true).perrClear.saveConf e.half true).reply e.half m 0x21 .ok 0)) ∧
  (∀ (e : Ev) (m : Msg) (vt : Nat) (standby : Bool) (st : Status) (i : Nat) (s t u : State), t = tick e s → u = t.settleMsgs e.half → u.accepts
    e.half m 0x21 .l false = true → u.checkBank e.half vt standby = some (st, some i) → exec (.winActivate e m vt standby) s = .next (u.reply e.half
    m 0x21 st i)) ∧
  (∀ (e : Ev) (m : Msg) (vt : Nat) (standby : Bool) (st : Status) (s t u : State), t = tick e s → u = t.settleMsgs e.half → u.accepts e.half m 0x21
    .l false = true → u.checkBank e.half vt standby = some (st, none) → exec (.winActivate e m vt standby) s = .next (u.draw.2.reply e.half m 0x21 st
    (u.draw.1 % 2 ^ 32))) ∧
  (∀ (e : Ev) (m : Msg) (length : Nat) (phase : Nat) (s t u : State), t = tick e s → u = t.settleMsgs e.half → u.accepts e.half m 0x22 .l false =
    true → 1000 ≤ length → length ≤ 10000000 → exec (.winFrame e m length phase) s = .next (((u.upd e.half fun x => (x.setFld F.WIN_FRAME_length
    length).setElem .WIN_PHASE (phase % 2 ^ 64)).saveConf e.half false).reply e.half m 0x22 .ok 0)) ∧
  (∀ (e : Ev) (m : Msg) (length : Nat) (phase : Nat) (s t u : State), t = tick e s → u = t.settleMsgs e.half → u.accepts e.half m 0x22 .l false =
    true → length ≠ 0 → length < 1000 ∨ 10000000 < length → exec (.winFrame e m length phase) s = .next (u.reply e.half m 0x22 .badArg 0)) ∧
  (∀ (e : Ev) (m : Msg) (length : Nat) (phase : Nat) (s t u : State), t = tick e s → u = t.settleMsgs e.half → u.accepts e.half m 0x22 .l false =
    true → length = 0 → exec (.winFrame e m length phase) s = .next (u.reply e.half m 0x22 .empty 0)) ∧
  (∀ (e : Ev) (m : Msg) (part : Nat) (cfg : Nat) (cores : Nat) (s t u : State), t = tick e s → u = t.settleMsgs e.half → u.accepts e.half m 0x23 .l
    false = true → 1 ≤ part → part < 16 → bits cfg 0 2 = 0 ∨ bits cfg 0 2 = 2 ∨ (bits cfg 0 2 = 3 ∧ bits cfg 16 16 ≠ 0 ∧ (u.half
    e.half).graphicsClash part cores = false) → 5 ≤ bits cfg 2 8 → bits cfg 2 8 ≤ 200 → u.partBusy e.half part = false → exec (.partWrite e m part
    cfg cores) s = .next (((u.upd e.half fun x => (x.setWord .WIN_PART_CFG 0 part 0 (setBits (cfg % 2 ^ 32) 0 2 (bits cfg 0 2))).setElem
    .WIN_PART_CORES (cores % 2 ^ 128) 0 part).saveConf e.half false).reply e.half m 0x23 .ok 0)) ∧
  (∀ (e : Ev) (m : Msg) (part : Nat) (cfg : Nat) (cores : Nat) (s t u : State), t = tick e s → u = t.settleMsgs e.half → u.accepts e.half m 0x23 .l
    false = true → part = 0 → 5 ≤ bits cfg 2 8 → bits cfg 2 8 ≤ 200 → u.partBusy e.half part = false → exec (.partWrite e m part cfg cores) s = .next
    (((u.upd e.half fun x => (x.setWord .WIN_PART_CFG 0 part 0 (setBits (cfg % 2 ^ 32) 0 2 1)).setElem .WIN_PART_CORES (cores % 2 ^ 128) 0
    part).saveConf e.half false).reply e.half m 0x23 .ok 0)) ∧
  (∀ (e : Ev) (m : Msg) (part : Nat) (cfg : Nat) (cores : Nat) (s t u : State), t = tick e s → u = t.settleMsgs e.half → u.accepts e.half m 0x23 .l
    false = true → 16 ≤ part ∨ (part ≠ 0 ∧ bits cfg 0 2 = 1) ∨ bits cfg 2 8 < 5 ∨ 200 < bits cfg 2 8 ∨ u.partBusy e.half part = true → exec
    (.partWrite e m part cfg cores) s = .next (u.reply e.half m 0x23 .badArg 0)) ∧
  (∀ (e : Ev) (m : Msg) (task : Nat) (src : Nat) (l : List Byte) (s t u : State), t = tick e s → u = t.settleMsgs e.half → u.accepts e.half m 0x24 .l
    false = true → task < 4096 → u.srcBytes e.half m src 256 = (.ok, l) → exec (.taskWrite e m task src) s = .next ((((u.store e.half (u.taskAddr
    e.half task) l).upd e.half fun x => x.keepTask task (leNat l)).saveConf e.half false).reply e.half m 0x24 .ok 0)) ∧
  (∀ (e : Ev) (m : Msg) (task : Nat) (src : Nat) (s t u : State), t = tick e s → u = t.settleMsgs e.half → u.accepts e.half m 0x24 .l false = true →
    4096 ≤ task → exec (.taskWrite e m task src) s = .next (u.reply e.half m 0x24 .badArg 0)) ∧
  (∀ (e : Ev) (m : Msg) (base : Nat) (staging : Nat) (audit : Nat) (enable : Bool) (s t u : State), t = tick e s → u = t.settleMsgs e.half →
    u.accepts e.half m 0x25 .l false = true → bits base 0 48 % 256 = 0 → bits staging 0 27 % 0x10000 = 0 → bits staging 0 27 / 0x10000 + bits staging
    32 12 ≤ 2048 → 1 ≤ bits audit 0 6 → bits audit 0 6 ≤ 60 → exec (.tlyCfg e m base staging audit enable) s = .next (((u.upd e.half fun x =>
    x.tallyConfig base staging audit enable).saveConf e.half false).reply e.half m 0x25 .ok 0)) ∧
  (∀ (e : Ev) (m : Msg) (base : Nat) (staging : Nat) (audit : Nat) (enable : Bool) (s t u : State), t = tick e s → u = t.settleMsgs e.half →
    u.accepts e.half m 0x25 .l false = true → bits base 0 48 % 256 ≠ 0 ∨ bits staging 0 27 % 0x10000 ≠ 0 ∨ 2048 < bits staging 0 27 / 0x10000 + bits
    staging 32 12 ∨ bits audit 0 6 = 0 ∨ 60 < bits audit 0 6 → exec (.tlyCfg e m base staging audit enable) s = .next (u.reply e.half m 0x25 .badArg
    0)) ∧
  (∀ (e : Ev) (m : Msg) (vt : Nat) (s t u : State), t = tick e s → u = t.settleMsgs e.half → u.accepts e.half m 0x26 .l false = true → (u.half
    e.half).vt.toNat + 100000 ≤ vt → exec (.winEnableSet e m vt) s = .next ((((((u.upd e.half fun x => x.enableWindows vt).upd 0 fun x => x.setFld
    F.CLK_VT_STAT_held 1).upd 1 fun x => x.setFld F.CLK_VT_STAT_held 1)).saveConf e.half false).reply e.half m 0x26 .ok 0)) ∧
  (∀ (e : Ev) (m : Msg) (vt : Nat) (s t u : State), t = tick e s → u = t.settleMsgs e.half → u.accepts e.half m 0x26 .l false = true → vt < (u.half
    e.half).vt.toNat + 100000 → exec (.winEnableSet e m vt) s = .next (u.reply e.half m 0x26 .badArg 0)) ∧
  (∀ (e : Ev) (m : Msg) (s t u : State), t = tick e s → u = t.settleMsgs e.half → u.accepts e.half m 0x26 .l false = true → exec (.winEnableClear e
    m) s = .next (((u.upd e.half Half.disableWindows).saveConf e.half false).reply e.half m 0x26 .ok 0))

/-- A VDI within the limits is created and one that fails a check gets that check's status; a reset or a removal of a VDI of the half that is neither
migrating nor being reset and that nothing names begins at once, and of one that a window entry or a task names it is BAD_ARG; an owned context whose
record and readable handle set pass their checks is stored, one of another VDI is NOT_OWNER; an owned queue that is disabled takes a record that
passes its checks, another VDI's is NOT_OWNER; a queue's change of state that its state allows begins, and is answered once it is quiet, one that it
does not allow, and one of a queue of the other half, is BAD_ARG with the generation. Here t is the state once the command's own time has passed, and
a row acts only where its condition holds: the model's choices of log entries 4 and 18. u is that state after what its half had under way, in which
the message is accepted. It rests on the model's readings of log entries 64, 85, 86, 87, 89, 90 as well. Rules followed: R235, R405, R408, R412, R413,
R414, R415. -/
def Obligations.VdiMessages : Prop :=
  (∀ (e : Ev) (m : Msg) (vdi : Nat) (profile : Nat) (mark : Nat) (src : Nat) (l : List Byte) (s t u : State), t = tick e s → u = t.settleMsgs e.half
    → u.accepts e.half m 0x80 .l false = true → u.srcBytes e.half m src 160 = (.ok, l) → u.createCheck e.half vdi profile mark (leNat l) = none →
    exec (.vdiCreate e m vdi profile mark src) s = .next (((u.installVdi e.half vdi profile mark (leNat l) 0).saveConf e.half false).reply e.half m
    0x80 .ok 0)) ∧
  (∀ (e : Ev) (m : Msg) (vdi : Nat) (profile : Nat) (mark : Nat) (src : Nat) (l : List Byte) (st : Status) (s t u : State), t = tick e s → u =
    t.settleMsgs e.half → u.accepts e.half m 0x80 .l false = true → u.srcBytes e.half m src 160 = (.ok, l) → u.createCheck e.half vdi profile mark
    (leNat l) = some st → exec (.vdiCreate e m vdi profile mark src) s = .next (u.reply e.half m 0x80 st 0)) ∧
  (∀ (e : Ev) (m : Msg) (s t u : State), t = tick e s → u = t.settleMsgs e.half → u.accepts e.half m 0x81 .v false = true → u.hostOf m.vdi = e.half →
    (u.half e.half).fld F.TEL_STATE_state m.vdi ≠ 2 → (u.half e.half).fld F.TEL_STATE_state m.vdi ≠ 3 → u.vdiNamed m.vdi = false → exec (.vdiReset e
    m) s = .next ((u.resetVdi m.vdi).underWay e.half { msg := m, op := 0x81, kind := .reset, id := m.vdi })) ∧
  (∀ (e : Ev) (m : Msg) (s t u : State), t = tick e s → u = t.settleMsgs e.half → u.accepts e.half m 0x81 .v false = true → u.hostOf m.vdi ≠ e.half ∨
    u.vdiNamed m.vdi = true → exec (.vdiReset e m) s = .next (u.reply e.half m 0x81 .badArg (u.vdi m.vdi).gen)) ∧
  (∀ (e : Ev) (m : Msg) (vdi : Nat) (s t u : State), t = tick e s → u = t.settleMsgs e.half → u.accepts e.half m 0x82 .l false = true → (u.vdi
    vdi).exists_ = true → u.hostOf vdi = e.half → (u.half e.half).fld F.TEL_STATE_state vdi ≠ 2 → (u.half e.half).fld F.TEL_STATE_state vdi ≠ 3 →
    u.vdiNamed vdi = false → (u.half e.half).boundVault vdi = false → exec (.vdiRemove e m vdi) s = .next ((u.resetVdi vdi).underWay e.half { msg := m, op := 0x82, kind := .remove, id := vdi })) ∧
  (∀ (e : Ev) (m : Msg) (vdi : Nat) (s t u : State), t = tick e s → u = t.settleMsgs e.half → u.accepts e.half m 0x82 .l false = true → (u.vdi
    vdi).exists_ = false → exec (.vdiRemove e m vdi) s = .next (u.reply e.half m 0x82 .badArg 0)) ∧
  (∀ (e : Ev) (m : Msg) (ctx : Nat) (src : Nat) (l : List Byte) (set : List (Nat × Nat)) (s t u : State), t = tick e s → u = t.settleMsgs e.half →
    u.accepts e.half m 0x84 .v false = true → (u.vdi m.vdi).ownsCtx ctx = true → u.srcBytes e.half m src 32 = (.ok, l) → cVdi (leNat l) = m.vdi →
    cWeight (leNat l) ≠ 0 → cMark (leNat l) ≠ 15 → u.inWindows m.vdi (cHandleSet (leNat l)) 1024 = true → u.access e.half (cHandleSet (leNat l)) 1024
    = .ok → set = handleSet (u.rdBytes (cHandleSet (leNat l)) 1024) → u.ctxCheck e.half m.vdi (leNat l) set = none → exec (.ctxWrite e m ctx src) s =
    .next ((u.putCtx e.half ctx (leNat l) set).reply e.half m 0x84 .ok 0)) ∧
  (∀ (e : Ev) (m : Msg) (ctx : Nat) (src : Nat) (s t u : State), t = tick e s → u = t.settleMsgs e.half → u.accepts e.half m 0x84 .v false = true →
    (u.vdi m.vdi).ownsCtx ctx = false → exec (.ctxWrite e m ctx src) s = .next (u.reply e.half m 0x84 .notOwner 0)) ∧
  (∀ (e : Ev) (m : Msg) (ctx : Nat) (src : Nat) (l : List Byte) (s t u : State), t = tick e s → u = t.settleMsgs e.half → u.accepts e.half m 0x84 .v
    false = true → (u.vdi m.vdi).ownsCtx ctx = true → u.srcBytes e.half m src 32 = (.ok, l) → cVdi (leNat l) = m.vdi → cWeight (leNat l) = 0 ∨ cMark
    (leNat l) = 15 → exec (.ctxWrite e m ctx src) s = .next (u.reply e.half m 0x84 .badArg 0)) ∧
  (∀ (e : Ev) (m : Msg) (q : Nat) (src : Nat) (l : List Byte) (r : Nat) (s t u : State), t = tick e s → u = t.settleMsgs e.half → u.accepts e.half m
    0x85 .v true = true → (u.vdi m.vdi).ownsQueue q = true → qHalf q = e.half → (u.half e.half).qState (qIdx q) = 0 → u.srcBytes e.half m src 32 =
    (.ok, l) → r = setBits (leNat l) 240 16 0 → u.queueCheck m.vdi r = none → exec (.queueWrite e m q src) s = .next ((u.upd e.half fun x =>
    x.setQueue (qIdx q) { Queue.disabled with record := r }).reply e.half m 0x85 .ok 0)) ∧
  (∀ (e : Ev) (m : Msg) (q : Nat) (src : Nat) (s t u : State), t = tick e s → u = t.settleMsgs e.half → u.accepts e.half m 0x85 .v true = true →
    (u.vdi m.vdi).ownsQueue q = false → exec (.queueWrite e m q src) s = .next (u.reply e.half m 0x85 .notOwner 0)) ∧
  (∀ (e : Ev) (m : Msg) (q : Nat) (src : Nat) (s t u : State), t = tick e s → u = t.settleMsgs e.half → u.accepts e.half m 0x85 .v true = true →
    (u.vdi m.vdi).ownsQueue q = true → qHalf q ≠ e.half ∨ (u.half e.half).qState (qIdx q) ≠ 0 → exec (.queueWrite e m q src) s = .next (u.reply
    e.half m 0x85 .badArg 0)) ∧
  (∀ (e : Ev) (m : Msg) (q : Nat) (s t u : State), t = tick e s → u = t.settleMsgs e.half → u.accepts e.half m 0x86 .v true = true → (u.half
    e.half).fld F.TEL_STATE_state m.vdi ≠ 2 → (u.half e.half).fld F.TEL_STATE_state m.vdi ≠ 3 → (u.vdi m.vdi).ownsQueue q = true → qHalf q = e.half →
    (u.half e.half).qState (qIdx q) = 0 → ((u.half e.half).queue (qIdx q)).record ≠ 0 → exec (.queueEnable e m q) s = .next ((u.upd e.half fun x =>
    x.enableQueue (qIdx q)).underWay e.half { msg := m, op := 0x86, kind := .queue, id := q })) ∧
  (∀ (e : Ev) (m : Msg) (q : Nat) (s t u : State), t = tick e s → u = t.settleMsgs e.half → u.accepts e.half m 0x86 .v true = true → (u.vdi
    m.vdi).ownsQueue q = true → qHalf q = e.half → (u.half e.half).qState (qIdx q) ≠ 0 → exec (.queueEnable e m q) s = .next (u.reply e.half m 0x86
    .badArg ((u.half e.half).qGen (qIdx q)))) ∧
  (∀ (e : Ev) (m : Msg) (q : Nat) (s t u : State), t = tick e s → u = t.settleMsgs e.half → u.accepts e.half m 0x86 .v true = true → (u.vdi
    m.vdi).ownsQueue q = true → qHalf q ≠ e.half → exec (.queueEnable e m q) s = .next (u.reply e.half m 0x86 .badArg ((u.half (qHalf q)).qGen (qIdx
    q)))) ∧
  (∀ (e : Ev) (m : Msg) (q : Nat) (s t u : State), t = tick e s → u = t.settleMsgs e.half → u.accepts e.half m 0x86 .v true = true → (u.half
    e.half).fld F.TEL_STATE_state m.vdi ≠ 2 → (u.half e.half).fld F.TEL_STATE_state m.vdi ≠ 3 → (u.vdi m.vdi).ownsQueue q = true → qHalf q = e.half →
    1 ≤ (u.half e.half).qState (qIdx q) → (u.half e.half).qState (qIdx q) ≤ 3 → exec (.queueSuspend e m q) s = .next ((u.suspendQueue q
    true).underWay e.half { msg := m, op := 0x86, kind := .queue, id := q })) ∧
  (∀ (e : Ev) (m : Msg) (q : Nat) (s t u : State), t = tick e s → u = t.settleMsgs e.half → u.accepts e.half m 0x86 .v true = true → (u.vdi
    m.vdi).ownsQueue q = true → qHalf q = e.half → (u.half e.half).qState (qIdx q) = 0 ∨ 4 ≤ (u.half e.half).qState (qIdx q) → exec (.queueSuspend e
    m q) s = .next (u.reply e.half m 0x86 .badArg ((u.half e.half).qGen (qIdx q)))) ∧
  (∀ (e : Ev) (m : Msg) (q : Nat) (s t u : State), t = tick e s → u = t.settleMsgs e.half → u.accepts e.half m 0x86 .v true = true → (u.vdi
    m.vdi).ownsQueue q = true → qHalf q ≠ e.half → exec (.queueSuspend e m q) s = .next (u.reply e.half m 0x86 .badArg ((u.half (qHalf q)).qGen (qIdx
    q)))) ∧
  (∀ (e : Ev) (m : Msg) (q : Nat) (s t u : State), t = tick e s → u = t.settleMsgs e.half → u.accepts e.half m 0x86 .v true = true → (u.half
    e.half).fld F.TEL_STATE_state m.vdi ≠ 2 → (u.half e.half).fld F.TEL_STATE_state m.vdi ≠ 3 → (u.vdi m.vdi).ownsQueue q = true → qHalf q = e.half →
    (u.half e.half).qState (qIdx q) = 4 → exec (.queueResume e m q) s = .next ((u.resumeQueue q).underWay e.half { msg := m, op := 0x86, kind := .queue, id := q })) ∧
  (∀ (e : Ev) (m : Msg) (q : Nat) (s t u : State), t = tick e s → u = t.settleMsgs e.half → u.accepts e.half m 0x86 .v true = true → (u.vdi
    m.vdi).ownsQueue q = true → qHalf q = e.half → (u.half e.half).qState (qIdx q) ≠ 4 → exec (.queueResume e m q) s = .next (u.reply e.half m 0x86
    .badArg ((u.half e.half).qGen (qIdx q)))) ∧
  (∀ (e : Ev) (m : Msg) (q : Nat) (s t u : State), t = tick e s → u = t.settleMsgs e.half → u.accepts e.half m 0x86 .v true = true → (u.vdi
    m.vdi).ownsQueue q = true → qHalf q ≠ e.half → exec (.queueResume e m q) s = .next (u.reply e.half m 0x86 .badArg ((u.half (qHalf q)).qGen (qIdx
    q)))) ∧
  (∀ (e : Ev) (m : Msg) (q : Nat) (s t u : State), t = tick e s → u = t.settleMsgs e.half → u.accepts e.half m 0x86 .v true = true → (u.vdi
    m.vdi).ownsQueue q = true → qHalf q = e.half → (u.half e.half).qState (qIdx q) ≠ 0 → exec (.queueDisable e m q) s = .next ((u.disableQueue
    q).underWay e.half { msg := m, op := 0x86, kind := .queue, id := q })) ∧
  (∀ (e : Ev) (m : Msg) (q : Nat) (s t u : State), t = tick e s → u = t.settleMsgs e.half → u.accepts e.half m 0x86 .v true = true → (u.vdi
    m.vdi).ownsQueue q = true → qHalf q ≠ e.half → exec (.queueDisable e m q) s = .next (u.reply e.half m 0x86 .badArg ((u.half (qHalf q)).qGen (qIdx
    q))))

/-- On the hosting half and in the order of the phases, a VDI's log starts into two bitmaps that the device reaches outside its windows, swaps, its queues
are suspended, its image is written where it fits, answered NO_SPACE where it does not and with its status where a granule of it does not read, or
placed anew from one that reads, the imported one resumes and the exported one is released; a step out of order is BAD_ARG with the generation; an
abort before the release keeps the VDI where it is, and on the target the imported one goes. Here t is the state once the command's own time has
passed, and a row acts only where its condition holds: the model's choices of log entries 4 and 18. u is that state after what its half had under way,
in which the message is accepted. It rests on the model's readings of log entries 64, 88, 132 as well. Rules followed: R416, R417, R418, R419. -/
def Obligations.Migration : Prop :=
  (∀ (e : Ev) (m : Msg) (vdi : Nat) (src : Nat) (l : List Byte) (a : Nat) (b : Nat) (s t u : State), t = tick e s → u = t.settleMsgs e.half →
    u.accepts e.half m 0x83 .l false = true → u.stepOk e.half vdi [0] = true → (u.half e.half).fld F.TEL_STATE_state vdi = 0 → u.srcBytes e.half m
    src 16 = (.ok, l) → a = leNat l % 2 ^ 64 → b = leNat l / 2 ^ 64 → u.reaches a (u.vdi vdi).bitmapSize = true → u.reaches b (u.vdi vdi).bitmapSize
    = true → (u.vdi vdi).outOfWindows a (u.vdi vdi).bitmapSize = true → (u.vdi vdi).outOfWindows b (u.vdi vdi).bitmapSize = true → exec (.logStart e
    m vdi src) s = .next (((u.startLog e.half vdi a b).migrated vdi 0 false).reply e.half m 0x83 .ok (u.vdi vdi).gen)) ∧
  (∀ (e : Ev) (m : Msg) (vdi : Nat) (s t u : State), t = tick e s → u = t.settleMsgs e.half → u.accepts e.half m 0x83 .l false = true → u.stepOk
    e.half vdi [1, 2] = true → exec (.logSwap e m vdi) s = .next (((u.swapLog vdi).migrated vdi 1 false).reply e.half m 0x83 .ok (u.vdi vdi).gen)) ∧
  (∀ (e : Ev) (m : Msg) (vdi : Nat) (s t u : State), t = tick e s → u = t.settleMsgs e.half → u.accepts e.half m 0x83 .l false = true → u.stepOk
    e.half vdi [1, 2] = false → exec (.logSwap e m vdi) s = .next (u.reply e.half m 0x83 .badArg (u.vdi vdi).gen)) ∧
  (∀ (e : Ev) (m : Msg) (vdi : Nat) (s t u : State), t = tick e s → u = t.settleMsgs e.half → u.accepts e.half m 0x83 .l true = true → u.stepOk
    e.half vdi [1, 2] = true → exec (.quiesce e m vdi) s = .next ((u.suspendVdi e.half vdi).underWay e.half { msg := m, op := 0x83, kind := .quiesce, id := vdi })) ∧
  (∀ (e : Ev) (m : Msg) (vdi : Nat) (s t u : State), t = tick e s → u = t.settleMsgs e.half → u.accepts e.half m 0x83 .l true = true → u.stepOk
    e.half vdi [1, 2] = false → exec (.quiesce e m vdi) s = .next (u.reply e.half m 0x83 .badArg (u.vdi vdi).gen)) ∧
  (∀ (e : Ev) (m : Msg) (vdi : Nat) (src : Nat) (l : List Byte) (a : Nat) (s t u : State), t = tick e s → u = t.settleMsgs e.half → u.accepts e.half
    m 0x83 .l true = true → u.stepOk e.half vdi [3] = true → u.srcBytes e.half m src 16 = (.ok, l) → a = leNat l % 2 ^ 64 → (u.image vdi).length ≤
    leNat l / 2 ^ 64 → u.imageReads e.half vdi = none → u.access e.half a (u.image vdi).length = .ok → exec (.exportImage e m vdi src) s = .next
    (((u.store e.half a (u.image vdi)).migrated vdi 3 false).reply e.half m 0x83 .ok (u.vdi vdi).gen)) ∧
  (∀ (e : Ev) (m : Msg) (vdi : Nat) (src : Nat) (l : List Byte) (s t u : State), t = tick e s → u = t.settleMsgs e.half → u.accepts e.half m 0x83 .l
    true = true → u.stepOk e.half vdi [3] = true → u.srcBytes e.half m src 16 = (.ok, l) → leNat l / 2 ^ 64 < (u.image vdi).length → exec
    (.exportImage e m vdi src) s = .next (u.reply e.half m 0x83 .noSpace (u.vdi vdi).gen)) ∧
  (∀ (e : Ev) (m : Msg) (vdi : Nat) (src : Nat) (l : List Byte) (g : Nat) (st : Status) (s t u : State), t = tick e s → u = t.settleMsgs e.half →
    u.accepts e.half m 0x83 .l true = true → u.stepOk e.half vdi [3] = true → u.srcBytes e.half m src 16 = (.ok, l) → (u.image vdi).length ≤ leNat l
    / 2 ^ 64 → u.imageReads e.half vdi = some (g, st) → st ≠ .dataError → exec (.exportImage e m vdi src) s = .next (u.reply e.half m 0x83 st (u.vdi
    vdi).gen)) ∧
  (∀ (e : Ev) (m : Msg) (vdi : Nat) (src : Nat) (s t u : State), t = tick e s → u = t.settleMsgs e.half → u.accepts e.half m 0x83 .l true = true →
    u.stepOk e.half vdi [3] = false → exec (.exportImage e m vdi src) s = .next (u.reply e.half m 0x83 .badArg (u.vdi vdi).gen)) ∧
  (∀ (e : Ev) (m : Msg) (vdi : Nat) (src : Nat) (l : List Byte) (a : Nat) (n : Nat) (w : State) (s t u : State), t = tick e s → u = t.settleMsgs
    e.half → u.accepts e.half m 0x83 .l false = true → vdi ≤ 255 → (u.vdi vdi).exists_ = false → (u.half e.half).clk.computeUp = true → u.srcBytes
    e.half m src 16 = (.ok, l) → a = leNat l % 2 ^ 64 → n = Nat.min (Nat.min (leNat l / 2 ^ 64) (2 ^ 32)) (Nat.max 64 (u.rdN (a + 12) 4)) → u.access
    e.half a 64 = .ok → u.access e.half a n = .ok → u.importVdi e.half vdi (u.rdBytes a n) = (w, .ok) → exec (.importImage e m vdi src) s = .next
    ((w.saveConf e.half false).reply e.half m 0x83 .ok (w.vdi vdi).gen)) ∧
  (∀ (e : Ev) (m : Msg) (vdi : Nat) (s t u : State), t = tick e s → u = t.settleMsgs e.half → u.accepts e.half m 0x83 .l true = true → u.stepOk
    e.half vdi [5] = true → exec (.resumeVdi e m vdi) s = .next (((u.resumeVdi e.half vdi).migrated vdi 5 true).reply e.half m 0x83 .ok (u.vdi
    vdi).gen)) ∧
  (∀ (e : Ev) (m : Msg) (vdi : Nat) (s t u : State), t = tick e s → u = t.settleMsgs e.half → u.accepts e.half m 0x83 .l true = true → u.stepOk
    e.half vdi [5] = false → exec (.resumeVdi e m vdi) s = .next (u.reply e.half m 0x83 .badArg (u.vdi vdi).gen)) ∧
  (∀ (e : Ev) (m : Msg) (vdi : Nat) (s t u : State), t = tick e s → u = t.settleMsgs e.half → u.accepts e.half m 0x83 .l false = true → (u.vdi
    vdi).exists_ = true → (u.vdi vdi).half = e.half → (u.vdi vdi).migStep ≠ 0 → (u.vdi vdi).migStep ≠ 5 → exec (.abortMigration e m vdi) s = .next
    (((u.stayVdi e.half vdi).migrated vdi 6 true).reply e.half m 0x83 .ok (u.vdi vdi).gen)) ∧
  (∀ (e : Ev) (m : Msg) (vdi : Nat) (s t u : State), t = tick e s → u = t.settleMsgs e.half → u.accepts e.half m 0x83 .l false = true → (u.vdi
    vdi).exists_ = true → (u.vdi vdi).half = e.half → (u.vdi vdi).migStep = 5 → exec (.abortMigration e m vdi) s = .next ((u.resetVdi vdi).underWay
    e.half { msg := m, op := 0x83, kind := .release, id := vdi })) ∧
  (∀ (e : Ev) (m : Msg) (vdi : Nat) (s t u : State), t = tick e s → u = t.settleMsgs e.half → u.accepts e.half m 0x83 .l false = true → u.stepOk
    e.half vdi [4] = true → exec (.releaseVdi e m vdi) s = .next ((u.resetVdi vdi).underWay e.half { msg := m, op := 0x83, kind := .release, id := vdi })) ∧
  (∀ (e : Ev) (m : Msg) (vdi : Nat) (s t u : State), t = tick e s → u = t.settleMsgs e.half → u.accepts e.half m 0x83 .l false = true → u.stepOk
    e.half vdi [4] = false → exec (.releaseVdi e m vdi) s = .next (u.reply e.half m 0x83 .badArg (u.vdi vdi).gen))

/-- The bytes of the record in force are read within 71,472, none is EMPTY, beyond it OUT_OF_RANGE, and while no valid record is in force they are free; a
held service record is rebuilt under the next generation and one in force is not; a retired port whose self-test passes is in service again after the
reply, and one whose self-test fails is BAD_ARG; a half whose other half is NORMAL restarts at H or M once answered, and another is BAD_ARG; an
attestation report goes to its place, and on a Teller only where 64 KiB of the VDI's window hold it; a RUN request is a wake; PARK and SLEEP begin
where the package may stop and no block has a secure owner, are answered OK where the package is there already, BAD_ARG where it may not stop and
NOT_OWNER where a block has a secure owner; an opcode of no list is BAD_ARG. Here t is the state once the command's own time has passed, and a row
acts only where its condition holds: the model's choices of log entries 4 and 18. u is that state after what its half had under way, in which the
message is accepted. It rests on the model's readings of log entries 64, 105, 106, 108 as well. Rules followed: R300, R302, R309, R314, R390, R486,
R499, R500. -/
def Obligations.ServiceMessages : Prop :=
  (∀ (e : Ev) (m : Msg) (off : Nat) (bytes : Nat) (dst : Nat) (w : State) (s t u : State), t = tick e s → u = t.settleMsgs e.half → u.accepts e.half
    m 0x90 .a false = true → bytes ≠ 0 → off + bytes ≤ 71472 → (u.half e.half).fld F.SVC_REC_STAT_held ≠ 1 → u.dstBytes e.half m dst ((((u.half
    e.half).recordBytes e.half).drop off).take bytes) = (.ok, w) → exec (.svcRead e m off bytes dst) s = .next (w.reply e.half m 0x90 .ok ((u.half
    e.half).svc.rpmbGen + bytes * 2 ^ 32))) ∧
  (∀ (e : Ev) (m : Msg) (off : Nat) (bytes : Nat) (dst : Nat) (s t u : State), t = tick e s → u = t.settleMsgs e.half → u.accepts e.half m 0x90 .a
    false = true → bytes = 0 → exec (.svcRead e m off bytes dst) s = .next (u.reply e.half m 0x90 .empty 0)) ∧
  (∀ (e : Ev) (m : Msg) (off : Nat) (bytes : Nat) (dst : Nat) (s t u : State), t = tick e s → u = t.settleMsgs e.half → u.accepts e.half m 0x90 .a
    false = true → bytes ≠ 0 → 71472 < off + bytes → exec (.svcRead e m off bytes dst) s = .next (u.reply e.half m 0x90 .outOfRange 0)) ∧
  (∀ (e : Ev) (m : Msg) (off : Nat) (bytes : Nat) (dst : Nat) (w : State) (s t u : State), t = tick e s → u = t.settleMsgs e.half → u.accepts e.half
    m 0x90 .a false = true → bytes ≠ 0 → off + bytes ≤ 71472 → (u.half e.half).fld F.SVC_REC_STAT_held = 1 → u.draw.2.dstBytes e.half m dst (leBytes
    bytes u.draw.1) = (.ok, w) → exec (.svcRead e m off bytes dst) s = .next (w.reply e.half m 0x90 .ok ((u.half e.half).svc.rpmbGen + bytes * 2 ^
    32))) ∧
  (∀ (e : Ev) (m : Msg) (badCores : List Nat) (badBanks : List Nat) (s t u : State), t = tick e s → u = t.settleMsgs e.half → u.accepts e.half m 0x91
    .l false = true → (u.half e.half).fld F.SVC_REC_STAT_held ≠ 0 → exec (.svcRebuild e m badCores badBanks) s = .next ((u.upd e.half fun x =>
    (x.fillBuckets u.now).rebuild badCores badBanks).reply e.half m 0x91 .ok (((u.half e.half).svc.rpmbGen + 1) % 2 ^ 32))) ∧
  (∀ (e : Ev) (m : Msg) (badCores : List Nat) (badBanks : List Nat) (s t u : State), t = tick e s → u = t.settleMsgs e.half → u.accepts e.half m 0x91
    .l false = true → (u.half e.half).fld F.SVC_REC_STAT_held = 0 → exec (.svcRebuild e m badCores badBanks) s = .next (u.reply e.half m 0x91 .badArg
    0)) ∧
  (∀ (e : Ev) (m : Msg) (passes : Bool) (s t u : State), t = tick e s → u = t.settleMsgs e.half → u.accepts e.half m 0x92 .l false = true → passes =
    true → (u.half e.half).svc.record.portRetired = true → exec (.portRestore e m passes) s = .next ((u.reply e.half m 0x92 .ok 0).upd e.half
    Half.restorePort)) ∧
  (∀ (e : Ev) (m : Msg) (passes : Bool) (s t u : State), t = tick e s → u = t.settleMsgs e.half → u.accepts e.half m 0x92 .l false = true → passes =
    true → (u.half e.half).svc.record.portRetired = false → exec (.portRestore e m passes) s = .next (u.reply e.half m 0x92 .ok 0)) ∧
  (∀ (e : Ev) (m : Msg) (passes : Bool) (s t u : State), t = tick e s → u = t.settleMsgs e.half → u.accepts e.half m 0x92 .l false = true → passes =
    false → exec (.portRestore e m passes) s = .next (u.reply e.half m 0x92 .badArg 0)) ∧
  (∀ (e : Ev) (m : Msg) (half : Nat) (s t u : State), t = tick e s → u = t.settleMsgs e.half → u.accepts e.half m 0x93 .l false = true → half < 2 →
    (u.half (peer half)).normal = true → exec (.halfRestartH e m half) s = .next (((u.reply e.half m 0x93 .ok 0).upd half fun x => { x with clk := { x.clk with latched := false } }).resetHalf
    half 1 0x01 true)) ∧
  (∀ (e : Ev) (m : Msg) (half : Nat) (s t u : State), t = tick e s → u = t.settleMsgs e.half → u.accepts e.half m 0x93 .l false = true → 2 ≤ half ∨
    (u.half (peer half)).normal = false → exec (.halfRestartH e m half) s = .next (u.reply e.half m 0x93 .badArg 0)) ∧
  (∀ (e : Ev) (m : Msg) (half : Nat) (s t u : State), t = tick e s → u = t.settleMsgs e.half → u.accepts e.half m 0x93 .l false = true → half < 2 →
    (u.half (peer half)).normal = true → exec (.halfRestartM e m half) s = .next (((u.reply e.half m 0x93 .ok 0).upd half fun x => { x with clk := { x.clk with latched := false } }).resetHalf
    half 2 0x01 true)) ∧
  (∀ (e : Ev) (m : Msg) (half : Nat) (s t u : State), t = tick e s → u = t.settleMsgs e.half → u.accepts e.half m 0x93 .l false = true → 2 ≤ half ∨
    (u.half (peer half)).normal = false → exec (.halfRestartM e m half) s = .next (u.reply e.half m 0x93 .badArg 0)) ∧
  (∀ (e : Ev) (m : Msg) (nonce : Nat) (dst : Nat) (s t u : State), t = tick e s → u = t.settleMsgs e.half → u.accepts e.half m 0xA0 .a false = true →
    (∀ v, m.org = .teller v → u.inWindows v dst 0x10000 = true) → exec (.attest e m nonce dst) s = .next (
      let r := u.withDst e.half m dst (u.report e.half nonce) (u.report e.half nonce).length
      r.1.reply e.half m 0xA0 r.2.1 r.2.2)) ∧
  (∀ (e : Ev) (m : Msg) (nonce : Nat) (dst : Nat) (v : Nat) (s t u : State), t = tick e s → u = t.settleMsgs e.half → u.accepts e.half m 0xA0 .a
    false = true → m.org = .teller v → u.inWindows v dst 0x10000 = false → exec (.attest e m nonce dst) s = .next (u.reply e.half m 0xA0 .outOfRange
    0)) ∧
  (∀ (e : Ev) (m : Msg) (s t u : State), t = tick e s → u = t.settleMsgs e.half → u.accepts e.half m 0xC0 .l false = true → exec (.powerReqRun e m) s
    = .next ((u.wakeUp 3 e.half false).reply e.half m 0xC0 .ok 0)) ∧
  (∀ (e : Ev) (m : Msg) (s t u : State), t = tick e s → u = t.settleMsgs e.half → u.accepts e.half m 0xC0 .l false = true → u.power ≠ 2 → u.power ≠ 4
    → u.mayStop = true → u.ownedBlock = none → exec (.powerReqPark e m) s = .next (({ (u.goingDown 0 5 0x09 0).goingDown 1 5 0x09 0 with power := 4 }
    : State).reply e.half m 0xC0 .ok 0)) ∧
  (∀ (e : Ev) (m : Msg) (s t u : State), t = tick e s → u = t.settleMsgs e.half → u.accepts e.half m 0xC0 .l false = true → u.power = 2 ∨ u.power = 4
    → exec (.powerReqPark e m) s = .next (u.reply e.half m 0xC0 .ok 0)) ∧
  (∀ (e : Ev) (m : Msg) (s t u : State), t = tick e s → u = t.settleMsgs e.half → u.accepts e.half m 0xC0 .l false = true → u.power ≠ 2 → u.power ≠ 4
    → u.mayStop = false → exec (.powerReqPark e m) s = .next (u.reply e.half m 0xC0 .badArg 0)) ∧
  (∀ (e : Ev) (m : Msg) (b : Nat × Nat) (s t u : State), t = tick e s → u = t.settleMsgs e.half → u.accepts e.half m 0xC0 .l false = true → u.power ≠
    2 → u.power ≠ 4 → u.mayStop = true → u.ownedBlock = some b → exec (.powerReqPark e m) s = .next ((u.gateRefuse b.1 b.2).reply e.half m 0xC0
    .notOwner 0)) ∧
  (∀ (e : Ev) (m : Msg) (s t u : State), t = tick e s → u = t.settleMsgs e.half → u.accepts e.half m 0xC0 .l false = true → u.power ≠ 3 → u.power ≠ 5
    → u.mayStop = true → u.ownedBlock = none → exec (.powerReqSleep e m) s = .next (({ (u.goingDown 0 6 0x09 0).goingDown 1 6 0x09 0 with power := 5 }
    : State).reply e.half m 0xC0 .ok 0)) ∧
  (∀ (e : Ev) (m : Msg) (s t u : State), t = tick e s → u = t.settleMsgs e.half → u.accepts e.half m 0xC0 .l false = true → u.power = 3 ∨ u.power = 5
    → exec (.powerReqSleep e m) s = .next (u.reply e.half m 0xC0 .ok 0)) ∧
  (∀ (e : Ev) (m : Msg) (s t u : State), t = tick e s → u = t.settleMsgs e.half → u.accepts e.half m 0xC0 .l false = true → u.power ≠ 3 → u.power ≠ 5
    → u.mayStop = false → exec (.powerReqSleep e m) s = .next (u.reply e.half m 0xC0 .badArg 0)) ∧
  (∀ (e : Ev) (m : Msg) (b : Nat × Nat) (s t u : State), t = tick e s → u = t.settleMsgs e.half → u.accepts e.half m 0xC0 .l false = true → u.power ≠
    3 → u.power ≠ 5 → u.mayStop = true → u.ownedBlock = some b → exec (.powerReqSleep e m) s = .next ((u.gateRefuse b.1 b.2).reply e.half m 0xC0
    .notOwner 0)) ∧
  (∀ (e : Ev) (m : Msg) (opcode : Nat) (s t u : State), t = tick e s → u = t.settleMsgs e.half → u.accepts e.half m opcode .a false = true →
    listedOps.contains opcode = false → exec (.unknownOpcode e m opcode) s = .next (u.reply e.half m opcode .badArg 0))

/-- Bytes within a slot are written into the other slot, none is EMPTY, more than 131,072 BAD_ARG and beyond the slot OUT_OF_RANGE; once they reach the
package's end it is staged if it verifies and recorded with AUTH_FAIL if not; an activation runs where its checks pass, is deferred during an
emergency and is else refused with its check's status; a commit of equal releases raises the counters of both halves, and of others is
VERSION_MISMATCH; a deferred activation is withdrawn, and without one BAD_ARG. Here t is the state once the command's own time has passed, and a row
acts only where its condition holds: the model's choices of log entries 4 and 18. u is that state after what its half had under way, in which the
message is accepted. It rests on the model's readings of log entries 50, 51, 52, 53, 54, 64, 179 as well. Rules followed: R315, R390, R450, R463,
R467. -/
def Obligations.FirmwareMessages : Prop :=
  (∀ (e : Ev) (m : Msg) (off : Nat) (bytes : Nat) (src : Nat) (l : List Byte) (c : List Host.Cell) (s t u : State), t = tick e s → u = t.settleMsgs
    e.half → u.accepts e.half m 0x94 .l false = true → bytes ≠ 0 → bytes ≤ 131072 → off + bytes ≤ 0x4000000 → u.srcBytes e.half m src bytes = (.ok,
    l) → c = cellsWrite ((u.half e.half).slot (u.half e.half).otherSlot) off l → pkgLength c ≤ off ∨ off + bytes < pkgLength c → exec (.fwWrite e m
    off bytes src) s = .next ((u.upd e.half fun x => x.writePkg c).reply e.half m 0x94 .ok 0)) ∧
  (∀ (e : Ev) (m : Msg) (off : Nat) (bytes : Nat) (src : Nat) (s t u : State), t = tick e s → u = t.settleMsgs e.half → u.accepts e.half m 0x94 .l
    false = true → bytes = 0 → exec (.fwWrite e m off bytes src) s = .next (u.reply e.half m 0x94 .empty 0)) ∧
  (∀ (e : Ev) (m : Msg) (off : Nat) (bytes : Nat) (src : Nat) (s t u : State), t = tick e s → u = t.settleMsgs e.half → u.accepts e.half m 0x94 .l
    false = true → 131072 < bytes → exec (.fwWrite e m off bytes src) s = .next (u.reply e.half m 0x94 .badArg 0)) ∧
  (∀ (e : Ev) (m : Msg) (off : Nat) (bytes : Nat) (src : Nat) (s t u : State), t = tick e s → u = t.settleMsgs e.half → u.accepts e.half m 0x94 .l
    false = true → bytes ≠ 0 → bytes ≤ 131072 → 0x4000000 < off + bytes → exec (.fwWrite e m off bytes src) s = .next (u.reply e.half m 0x94
    .outOfRange 0)) ∧
  (∀ (e : Ev) (m : Msg) (off : Nat) (bytes : Nat) (src : Nat) (l : List Byte) (c : List Host.Cell) (s t u : State), t = tick e s → u = t.settleMsgs
    e.half → u.accepts e.half m 0x94 .l false = true → bytes ≠ 0 → bytes ≤ 131072 → off + bytes ≤ 0x4000000 → u.srcBytes e.half m src bytes = (.ok,
    l) → c = cellsWrite ((u.half e.half).slot (u.half e.half).otherSlot) off l → off < pkgLength c → pkgLength c ≤ off + bytes → exec (.fwWrite e m
    off bytes src) s = .next ((if pkgValid u.es (u.half e.half).fw.rollback c then (u.upd e.half fun x => x.writePkg c).stagePkg e.half else (u.upd
    e.half fun x => x.writePkg c).incident e.half 0x0E 0 .authFail).reply e.half m 0x94 .ok 0)) ∧
  (∀ (e : Ev) (m : Msg) (mask : Nat) (s t u : State), t = tick e s → u = t.settleMsgs e.half → u.accepts e.half m 0x95 .l false = true → exec
    (.fwActivate e m mask) s = .next (if u.fwCheck e.half mask false = .ok then (((u.activate e.half mask).1.reply e.half m 0x95 (u.activate e.half
    mask).2 0).phyRestart e.half mask (u.activate e.half mask).2) else if u.fwCheck e.half mask false = .busyEmergency then ((u.upd e.half fun x =>
    x.deferFw mask).incident e.half 0x0E 0 .busyEmergency mask).reply e.half m 0x95 .busyEmergency mask else u.reply e.half m 0x95 (u.fwCheck e.half
    mask false) 0)) ∧
  (∀ (e : Ev) (m : Msg) (n : Nat) (s t u : State), t = tick e s → u = t.settleMsgs e.half → u.accepts e.half m 0x96 .l false = true → n = (u.half
    e.half).fld F.SVC_FW_STAT_release → n = u.peerRelease e.half → exec (.fwCommit e m) s = .next (((u.commitHalf e.half n).commitHalf (peer e.half)
    n).reply e.half m 0x96 .ok n)) ∧
  (∀ (e : Ev) (m : Msg) (s t u : State), t = tick e s → u = t.settleMsgs e.half → u.accepts e.half m 0x96 .l false = true → (u.half e.half).fld
    F.SVC_FW_STAT_release ≠ u.peerRelease e.half → exec (.fwCommit e m) s = .next (u.reply e.half m 0x96 .versionMismatch 0)) ∧
  (∀ (e : Ev) (m : Msg) (s t u : State), t = tick e s → u = t.settleMsgs e.half → u.accepts e.half m 0x97 .l false = true → (u.half e.half).fld
    F.SVC_FW_ACT_deferred ≠ 0 → exec (.fwWithdraw e m) s = .next ((u.upd e.half Half.undefer).reply e.half m 0x97 .ok 0)) ∧
  (∀ (e : Ev) (m : Msg) (s t u : State), t = tick e s → u = t.settleMsgs e.half → u.accepts e.half m 0x97 .l false = true → (u.half e.half).fld
    F.SVC_FW_ACT_deferred = 0 → exec (.fwWithdraw e m) s = .next (u.reply e.half m 0x97 .badArg 0))

/-- A pipe of the half takes a configuration that is within its limits, or a tell-tale configuration, for its next S; another half's pipe or a
configuration out of its limits is BAD_ARG, and turning a pipe with a secure owner off NOT_OWNER; the render that its partition chooses, posted and
its checks passed, runs on the open graphics cores of its partition, waits while there is none, and is refused with the status of its unreadable
command or of a check that it fails; at S an enabled, unblanked pipe flips its planes and its frame goes out, one that is blanked or shows tell-tales
only flips none, and one that its configuration leaves off stops there; the tell-tale values of a frame are compared on a pipe whose link is up, and
16.7 ms of a down link are a failing frame where a slot is on; a link's state is kept. Here t is the state once the command's own time has passed, and
a row acts only where its condition holds: the model's choices of log entries 4 and 18. u is that state after what its half had under way, in which
the message is accepted. It rests on the model's readings of log entries 64, 110, 111, 112, 113, 114, 115, 131, 155, 156 as well. Rules followed:
R391, R424, R426, R434, R436, R437, R438, R440, R441, R481. -/
def Obligations.Displays : Prop :=
  (∀ (e : Ev) (m : Msg) (pipe : Nat) (src : Nat) (l : List Byte) (w : List Nat) (s t u : State), t = tick e s → u = t.settleMsgs e.half → u.accepts
    e.half m 0xB0 .l false = true → pipeHere e.half pipe = true → u.srcBytes e.half m src 128 = (.ok, l) → w = words64 l 16 → pipeCfgOk w = true →
    bits (w.getD 0 0) 0 1 ≠ 0 ∨ (u.half e.half).secureOwned (0x200 + pipe % 2) = false → exec (.dspCfgPipe e m pipe src) s = .next (((u.upd e.half
    fun x => x.setPipe (pipe % 2) { x.pipe (pipe % 2) with pending := some w, cfgVt := some x.vt.toNat }).saveConf e.half false).reply e.half m 0xB0
    .ok 0)) ∧
  (∀ (e : Ev) (m : Msg) (pipe : Nat) (src : Nat) (s t u : State), t = tick e s → u = t.settleMsgs e.half → u.accepts e.half m 0xB0 .l false = true →
    pipeHere e.half pipe = false → exec (.dspCfgPipe e m pipe src) s = .next (u.reply e.half m 0xB0 .badArg 0)) ∧
  (∀ (e : Ev) (m : Msg) (pipe : Nat) (src : Nat) (l : List Byte) (s t u : State), t = tick e s → u = t.settleMsgs e.half → u.accepts e.half m 0xB0 .l
    false = true → pipeHere e.half pipe = true → u.srcBytes e.half m src 128 = (.ok, l) → pipeCfgOk (words64 l 16) = false → exec (.dspCfgPipe e m
    pipe src) s = .next (u.reply e.half m 0xB0 .badArg 0)) ∧
  (∀ (e : Ev) (m : Msg) (pipe : Nat) (src : Nat) (l : List Byte) (s t u : State), t = tick e s → u = t.settleMsgs e.half → u.accepts e.half m 0xB0 .l
    false = true → pipeHere e.half pipe = true → u.srcBytes e.half m src 128 = (.ok, l) → pipeCfgOk (words64 l 16) = true → bits ((words64 l 16).getD
    0 0) 0 1 = 0 → (u.half e.half).secureOwned (0x200 + pipe % 2) = true → exec (.dspCfgPipe e m pipe src) s = .next ((u.gateRefuse e.half (0x200 +
    pipe % 2)).reply e.half m 0xB0 .notOwner 0)) ∧
  (∀ (e : Ev) (m : Msg) (pipe : Nat) (src : Nat) (l : List Byte) (s t u : State), t = tick e s → u = t.settleMsgs e.half → u.accepts e.half m 0xB0 .l
    false = true → pipeHere e.half pipe = true → u.srcBytes e.half m src 8 = (.ok, l) → exec (.dspCfgTelltale e m pipe src) s = .next (((u.upd e.half
    fun x => x.setPipe (pipe % 2) { x.pipe (pipe % 2) with pendTT := some (leNat l), cfgVt := some x.vt.toNat }).saveConf e.half false).reply e.half
    m 0xB0 .ok 0)) ∧
  (∀ (e : Ev) (m : Msg) (pipe : Nat) (src : Nat) (s t u : State), t = tick e s → u = t.settleMsgs e.half → u.accepts e.half m 0xB0 .l false = true →
    pipeHere e.half pipe = false → exec (.dspCfgTelltale e m pipe src) s = .next (u.reply e.half m 0xB0 .badArg 0)) ∧
  (∀ (e : Ev) (q : Nat) (run : RenderRun) (c : Nat) (g : Nat) (i : Nat) (head : Bool) (a : Nat) (st : Status) (s t : State), t = tick e s → c = qCtx
    ((t.half (qHalf q)).queue (qIdx q)).record → g = cPart (t.ctx c).raw → (t.half (qHalf q)).nextIndex (qIdx q) = some (i, head) → t.gfxPosted q =
    true → t.gfxChosen (qHalf q) g = some q → a = qRing ((t.half (qHalf q)).queue (qIdx q)).record + i % qRingSize ((t.half (qHalf q)).queue (qIdx
    q)).record * 128 → t.access (qHalf q) a 128 = st → st ≠ .ok → exec (.render e q run) s = .next (t.refuseDispatch q i head (raEnd (t.rdN a 128))
    st false true)) ∧
  (∀ (e : Ev) (q : Nat) (run : RenderRun) (c : Nat) (g : Nat) (i : Nat) (head : Bool) (a : Nat) (p : Nat) (ps : List Nat) (s t : State), t = tick e s
    → c = qCtx ((t.half (qHalf q)).queue (qIdx q)).record → g = cPart (t.ctx c).raw → t.gfxPosted q = true → t.gfxChosen (qHalf q) g = some q →
    (t.half (qHalf q)).nextIndex (qIdx q) = some (i, head) → a = qRing ((t.half (qHalf q)).queue (qIdx q)).record + i % qRingSize ((t.half (qHalf
    q)).queue (qIdx q)).record * 128 → t.access (qHalf q) a 128 = .ok → cWeight (t.ctx c).raw ≠ 0 → t.raCheck (qVdi ((t.half (qHalf q)).queue (qIdx
    q)).record) (t.rdN a 128) (t.attsIn (qVdi ((t.half (qHalf q)).queue (qIdx q)).record) { w := raWidth (t.rdN a 128), h := raHeight (t.rdN a 128) }
    run) = none → (t.half (qHalf q)).gfxOpen g = p :: ps → exec (.render e q run) s = .next (t.runRender q i head (t.rdN a 128) c (qVdi ((t.half
    (qHalf q)).queue (qIdx q)).record) g (p :: ps) run)) ∧
  (∀ (e : Ev) (q : Nat) (run : RenderRun) (c : Nat) (g : Nat) (i : Nat) (head : Bool) (a : Nat) (s t : State), t = tick e s → c = qCtx ((t.half
    (qHalf q)).queue (qIdx q)).record → g = cPart (t.ctx c).raw → t.gfxPosted q = true → t.gfxChosen (qHalf q) g = some q → (t.half (qHalf
    q)).nextIndex (qIdx q) = some (i, head) → a = qRing ((t.half (qHalf q)).queue (qIdx q)).record + i % qRingSize ((t.half (qHalf q)).queue (qIdx
    q)).record * 128 → t.access (qHalf q) a 128 = .ok → cWeight (t.ctx c).raw ≠ 0 → t.raCheck (qVdi ((t.half (qHalf q)).queue (qIdx q)).record)
    (t.rdN a 128) (t.attsIn (qVdi ((t.half (qHalf q)).queue (qIdx q)).record) { w := raWidth (t.rdN a 128), h := raHeight (t.rdN a 128) } run) = none
    → (t.half (qHalf q)).gfxOpen g = [] → exec (.render e q run) s = .next (t)) ∧
  (∀ (e : Ev) (q : Nat) (run : RenderRun) (c : Nat) (g : Nat) (i : Nat) (head : Bool) (a : Nat) (st : Status) (s t : State), t = tick e s → c = qCtx
    ((t.half (qHalf q)).queue (qIdx q)).record → g = cPart (t.ctx c).raw → t.gfxPosted q = true → t.gfxChosen (qHalf q) g = some q → (t.half (qHalf
    q)).nextIndex (qIdx q) = some (i, head) → a = qRing ((t.half (qHalf q)).queue (qIdx q)).record + i % qRingSize ((t.half (qHalf q)).queue (qIdx
    q)).record * 128 → t.access (qHalf q) a 128 = .ok → cWeight (t.ctx c).raw ≠ 0 → t.raCheck (qVdi ((t.half (qHalf q)).queue (qIdx q)).record)
    (t.rdN a 128) (t.attsIn (qVdi ((t.half (qHalf q)).queue (qIdx q)).record) { w := raWidth (t.rdN a 128), h := raHeight (t.rdN a 128) } run) = some
    st → exec (.render e q run) s = .next (t.refuseDispatch q i head (raEnd (t.rdN a 128)) st true false)) ∧
  (∀ (e : Ev) (pipe : Nat) (nextS : Nat) (u : State) (s t : State), t = tick e s → (t.half e.half).clk.rimUp = true → (t.half e.half).fld
    F.DSP_PIPE_VT_next_s (pipe % 2) ≤ (t.half e.half).vt.toNat → (t.half e.half).fld F.DSP_PIPE_CTL_enable (pipe % 2) ≠ 0 → u = t.applyPipe e.half
    (pipe % 2) → (u.half e.half).fld F.DSP_PIPE_CTL_enable (pipe % 2) ≠ 0 → (u.half e.half).fld F.DSP_PIPE_CTL_tt_only (pipe % 2) ≠ 1 → (u.half
    e.half).fld F.DSP_PIPE_CTL_blanked (pipe % 2) ≠ 1 → exec (.verticalBlank e pipe nextS) s = .next (((List.range 4).foldl (fun v k => v.flipPlane
    e.half (pipe % 2) k) (u.upd e.half fun x => x.setFld F.DSP_PIPE_VT_next_s nextS (pipe % 2))).scanOut e.half (pipe % 2))) ∧
  (∀ (e : Ev) (pipe : Nat) (nextS : Nat) (u : State) (s t : State), t = tick e s → (t.half e.half).clk.rimUp = true → (t.half e.half).fld
    F.DSP_PIPE_VT_next_s (pipe % 2) ≤ (t.half e.half).vt.toNat → (t.half e.half).fld F.DSP_PIPE_CTL_enable (pipe % 2) ≠ 0 → u = t.applyPipe e.half
    (pipe % 2) → (u.half e.half).fld F.DSP_PIPE_CTL_enable (pipe % 2) ≠ 0 → (u.half e.half).fld F.DSP_PIPE_CTL_tt_only (pipe % 2) = 1 ∨ (u.half
    e.half).fld F.DSP_PIPE_CTL_blanked (pipe % 2) = 1 → exec (.verticalBlank e pipe nextS) s = .next ((u.upd e.half fun x => x.setFld
    F.DSP_PIPE_VT_next_s nextS (pipe % 2)).scanOut e.half (pipe % 2))) ∧
  (∀ (e : Ev) (pipe : Nat) (nextS : Nat) (u : State) (s t : State), t = tick e s → (t.half e.half).clk.rimUp = true → (t.half e.half).fld
    F.DSP_PIPE_VT_next_s (pipe % 2) ≤ (t.half e.half).vt.toNat → (t.half e.half).fld F.DSP_PIPE_CTL_enable (pipe % 2) ≠ 0 → u = t.applyPipe e.half
    (pipe % 2) → (u.half e.half).fld F.DSP_PIPE_CTL_enable (pipe % 2) = 0 → exec (.verticalBlank e pipe nextS) s = .next (u)) ∧
  (∀ (e : Ev) (pipe : Nat) (crcs : List SlotCrc) (s t : State), t = tick e s → (t.half e.half).clk.rimUp = true → (t.half e.half).tally.ghReset =
    false → (t.half e.half).fld F.DSP_PIPE_CTL_enable (pipe % 2) ≠ 0 → ((t.half e.half).pipe (pipe % 2)).linkUp = true → exec (.telltaleCrcCompare e
    pipe crcs) s = .next (
      let bad := (t.half e.half).slotsBad (pipe % 2) crcs t.draw.1
      ((t.draw.2.slotsFail e.half (pipe % 2) bad).upd e.half fun x => if bad = [] then x.passFrame (pipe % 2) else x.failFrame (pipe % 2)).serr
        e.half)) ∧
  (∀ (e : Ev) (pipe : Nat) (crcs : List SlotCrc) (s t : State), t = tick e s → (t.half e.half).clk.rimUp = true → (t.half e.half).tally.ghReset =
    false → (t.half e.half).fld F.DSP_PIPE_CTL_enable (pipe % 2) ≠ 0 → ((t.half e.half).pipe (pipe % 2)).linkUp = false → ((t.half e.half).pipe (pipe
    % 2)).linkDownVt + 16700000 ≤ (t.half e.half).vt.toNat → exec (.telltaleCrcCompare e pipe crcs) s = .next (
      let on := (List.range 32).any fun n => (t.half e.half).slotShown (pipe % 2) n (t.draw.1 / 2 ^ n)
      ((t.draw.2.upd e.half fun x => x.setPipe (pipe % 2) { (t.half e.half).pipe (pipe % 2) with linkDownVt := x.vt.toNat }).upd e.half fun x => if
        on then x.failFrame (pipe % 2) else x).serr e.half)) ∧
  (∀ (e : Ev) (pipe : Nat) (up : Bool) (s t : State), t = tick e s → (t.half e.half).clk.rimUp = true → exec (.displayLinkChange e pipe up) s = .next
    (t.upd e.half fun x => x.pipeLink (pipe % 2) up))

/-- On a running half, a hart of the normal world enters a sealed vault through a valid door with a free hart, is told BAD_ARG of a vault that is not
sealed or a door that is not valid and LATE of one whose harts are taken, and a hart in a vault leaves it with its two results; in the modes and
worlds that may use them the door functions reach the Gatehouse while its controller runs and wait for it while it resets, and elsewhere they are
illegal instructions; a vault that builds is sealed and one that is destroyed ends; a debug unlock record is judged on an engineering sample, and the
other device has no debug port. Here t is the state once the command's own time has passed, and a row acts only where its condition holds: the model's
choices of log entries 4 and 18. It rests on the model's readings of log entries 118, 119, 120, 121 as well. Rules followed: R473, R474, R475, R476,
R477, R478, R479, R480, R485, R487. -/
def Obligations.Doors : Prop :=
  (∀ (e : Ev) (hart : Nat) (vault : Nat) (entry : Nat) (save : HartSave) (raw : Nat) (pc : Nat) (s t : State), t = tick e s → t.runsHart e.half hart
    = true → (t.half e.half).normalWorld hart = true → vault < 64 → raw = ((t.half e.half).vault vault).raw → vtState raw = 2 → t.door raw entry =
    some pc → bits (vtHarts raw) hart 1 = 0 → vtHarts raw ≠ 0xFFF → exec (.doorCall e hart vault entry save) s = .next (t.enterVault e.half hart
    vault pc none save false)) ∧
  (∀ (e : Ev) (hart : Nat) (vault : Nat) (entry : Nat) (save : HartSave) (s t : State), t = tick e s → t.runsHart e.half hart = true → (t.half
    e.half).normalWorld hart = false → exec (.doorCall e hart vault entry save) s = .next (t.illegalAt e.half hart)) ∧
  (∀ (e : Ev) (hart : Nat) (vault : Nat) (entry : Nat) (save : HartSave) (s t : State), t = tick e s → t.runsHart e.half hart = true → (t.half
    e.half).normalWorld hart = true → 64 ≤ vault ∨ vtState ((t.half e.half).vault vault).raw ≠ 2 ∨ t.door ((t.half e.half).vault vault).raw entry =
    none → exec (.doorCall e hart vault entry save) s = .next (t.emit (.doorStatus e.half hart .badArg))) ∧
  (∀ (e : Ev) (hart : Nat) (vault : Nat) (entry : Nat) (save : HartSave) (raw : Nat) (pc : Nat) (s t : State), t = tick e s → t.runsHart e.half hart
    = true → (t.half e.half).normalWorld hart = true → vault < 64 → raw = ((t.half e.half).vault vault).raw → vtState raw = 2 → t.door raw entry =
    some pc → bits (vtHarts raw) hart 1 = 1 ∨ vtHarts raw = 0xFFF → exec (.doorCall e hart vault entry save) s = .next (t.emit (.doorStatus e.half
    hart .late))) ∧
  (∀ (e : Ev) (hart : Nat) (a0 : Nat) (a1 : Nat) (s t : State), t = tick e s → t.runsHart e.half hart = true → (t.half e.half).normalWorld hart =
    false → exec (.doorRet e hart a0 a1) s = .next (t.exitVault e.half hart .ok (a0 % 2 ^ 64) (a1 % 2 ^ 64))) ∧
  (∀ (e : Ev) (hart : Nat) (a0 : Nat) (a1 : Nat) (s t : State), t = tick e s → t.runsHart e.half hart = true → (t.half e.half).normalWorld hart =
    true → exec (.doorRet e hart a0 a1) s = .next (t.illegalAt e.half hart)) ∧
  (∀ (e : Ev) (hart : Nat) (mode : Priv) (addr : Nat) (s t : State), t = tick e s → t.runsHart e.half hart = true → (t.half e.half).normalWorld hart
    = true → Priv.mayBuild mode = true → (t.half e.half).tally.ghReset = false → exec (.doorCreate e hart mode addr) s = .next (t.doorCreate e.half
    hart addr)) ∧
  (∀ (e : Ev) (hart : Nat) (mode : Priv) (addr : Nat) (s t : State), t = tick e s → t.runsHart e.half hart = true → (t.half e.half).normalWorld hart
    = true → Priv.mayBuild mode = true → (t.half e.half).tally.ghReset = true → exec (.doorCreate e hart mode addr) s = .next (t.upd e.half fun x =>
    { x with vaults := { x.vaults with waiting := x.vaults.waiting ++ [.create hart addr] } })) ∧
  (∀ (e : Ev) (hart : Nat) (mode : Priv) (addr : Nat) (s t : State), t = tick e s → t.runsHart e.half hart = true → (t.half e.half).normalWorld hart
    = false ∨ Priv.mayBuild mode = false → exec (.doorCreate e hart mode addr) s = .next (t.illegalAt e.half hart)) ∧
  (∀ (e : Ev) (vault : Nat) (s t : State), t = tick e s → vtState ((t.half e.half).vault vault).raw = 1 → (t.half e.half).tally.ghReset = false →
    exec (.vaultSealDone e vault) s = .next (t.sealVault e.half vault)) ∧
  (∀ (e : Ev) (vault : Nat) (s t : State), t = tick e s → vtState ((t.half e.half).vault vault).raw ≠ 1 ∨ (t.half e.half).tally.ghReset = true → exec
    (.vaultSealDone e vault) s = .next (t)) ∧
  (∀ (e : Ev) (hart : Nat) (mode : Priv) (vault : Nat) (s t : State), t = tick e s → t.runsHart e.half hart = true → ((t.half e.half).hart
    hart).vault = none → Priv.mayBuild mode = true → (t.half e.half).tally.ghReset = false → exec (.doorDestroy e hart mode vault) s = .next
    (t.doorDestroy e.half hart vault)) ∧
  (∀ (e : Ev) (hart : Nat) (mode : Priv) (vault : Nat) (s t : State), t = tick e s → t.runsHart e.half hart = true → ((t.half e.half).hart
    hart).vault = some vault → (t.half e.half).tally.ghReset = false → exec (.doorDestroy e hart mode vault) s = .next (t.doorDestroy e.half hart
    vault)) ∧
  (∀ (e : Ev) (hart : Nat) (mode : Priv) (vault : Nat) (n : Nat) (s t : State), t = tick e s → t.runsHart e.half hart = true → ((t.half e.half).hart
    hart).vault = some n → n ≠ vault → exec (.doorDestroy e hart mode vault) s = .next (t.illegalAt e.half hart)) ∧
  (∀ (e : Ev) (hart : Nat) (mode : Priv) (vault : Nat) (s t : State), t = tick e s → t.runsHart e.half hart = true → ((t.half e.half).hart
    hart).vault = none → Priv.mayBuild mode = false → exec (.doorDestroy e hart mode vault) s = .next (t.illegalAt e.half hart)) ∧
  (∀ (e : Ev) (hart : Nat) (mode : Priv) (vault : Nat) (s t : State), t = tick e s → t.runsHart e.half hart = true → ((t.half e.half).hart
    hart).vault = none → Priv.mayBuild mode = true → (t.half e.half).tally.ghReset = true → exec (.doorDestroy e hart mode vault) s = .next (t.upd
    e.half fun x => { x with vaults := { x.vaults with waiting := x.vaults.waiting ++ [.destroy hart vault] } })) ∧
  (∀ (e : Ev) (vault : Nat) (s t : State), t = tick e s → vtState ((t.half e.half).vault vault).raw = 3 → exec (.vaultDestroyDone e vault) s = .next
    (t.endVault e.half vault)) ∧
  (∀ (e : Ev) (vault : Nat) (s t : State), t = tick e s → vtState ((t.half e.half).vault vault).raw ≠ 3 → exec (.vaultDestroyDone e vault) s = .next
    (t)) ∧
  (∀ (e : Ev) (hart : Nat) (addr : Nat) (n : Nat) (s t : State), t = tick e s → t.runsHart e.half hart = true → ((t.half e.half).hart hart).vault =
    some n → vtPriv ((t.half e.half).vault n).raw 3 = true → (t.half e.half).tally.ghReset = false → exec (.doorSubmit e hart addr) s = .next
    (t.doorSubmit e.half hart addr)) ∧
  (∀ (e : Ev) (hart : Nat) (addr : Nat) (s t : State), t = tick e s → t.runsHart e.half hart = true → ((t.half e.half).hart hart).vault = none →
    (t.half e.half).lifecycle = 0 → (t.half e.half).tally.ghReset = false → exec (.doorSubmit e hart addr) s = .next (t.doorSubmit e.half hart addr)) ∧
  (∀ (e : Ev) (hart : Nat) (addr : Nat) (n : Nat) (s t : State), t = tick e s → t.runsHart e.half hart = true → ((t.half e.half).hart hart).vault =
    some n → vtPriv ((t.half e.half).vault n).raw 3 = true → (t.half e.half).tally.ghReset = true → exec (.doorSubmit e hart addr) s = .next (t.upd
    e.half fun x => { x with vaults := { x.vaults with waiting := x.vaults.waiting ++ [.submit hart addr] } })) ∧
  (∀ (e : Ev) (hart : Nat) (addr : Nat) (s t : State), t = tick e s → t.runsHart e.half hart = true → ((t.half e.half).hart hart).vault = none →
    (t.half e.half).lifecycle ≠ 0 → exec (.doorSubmit e hart addr) s = .next (t.illegalAt e.half hart)) ∧
  (∀ (e : Ev) (hart : Nat) (code : Nat) (s t : State), t = tick e s → t.runsHart e.half hart = true → (t.half e.half).mayClaim hart = true → (t.half
    e.half).tally.ghReset = false → exec (.doorClaim e hart code) s = .next (t.doorClaim e.half hart code true)) ∧
  (∀ (e : Ev) (hart : Nat) (code : Nat) (s t : State), t = tick e s → t.runsHart e.half hart = true → (t.half e.half).mayClaim hart = true → (t.half
    e.half).tally.ghReset = true → exec (.doorClaim e hart code) s = .next (t.upd e.half fun x => { x with vaults := { x.vaults with waiting := x.vaults.waiting ++ [.claim hart code] } })) ∧
  (∀ (e : Ev) (hart : Nat) (code : Nat) (s t : State), t = tick e s → t.runsHart e.half hart = true → (t.half e.half).mayClaim hart = false → exec
    (.doorClaim e hart code) s = .next (t.illegalAt e.half hart)) ∧
  (∀ (e : Ev) (hart : Nat) (code : Nat) (s t : State), t = tick e s → t.runsHart e.half hart = true → (t.half e.half).mayClaim hart = true → (t.half
    e.half).tally.ghReset = false → exec (.doorRelease e hart code) s = .next (t.doorClaim e.half hart code false)) ∧
  (∀ (e : Ev) (hart : Nat) (code : Nat) (s t : State), t = tick e s → t.runsHart e.half hart = true → (t.half e.half).mayClaim hart = true → (t.half
    e.half).tally.ghReset = true → exec (.doorRelease e hart code) s = .next (t.upd e.half fun x => { x with vaults := { x.vaults with waiting := x.vaults.waiting ++ [.release hart code] } })) ∧
  (∀ (e : Ev) (hart : Nat) (code : Nat) (s t : State), t = tick e s → t.runsHart e.half hart = true → (t.half e.half).mayClaim hart = false → exec
    (.doorRelease e hart code) s = .next (t.illegalAt e.half hart)) ∧
  (∀ (e : Ev) (hart : Nat) (addr : Nat) (label : Nat) (s t : State), t = tick e s → t.runsHart e.half hart = true → (t.half e.half).normalWorld hart
    = false → (t.half e.half).tally.ghReset = false → exec (.doorKey e hart addr label) s = .next (t.doorKey e.half hart addr label)) ∧
  (∀ (e : Ev) (hart : Nat) (addr : Nat) (label : Nat) (s t : State), t = tick e s → t.runsHart e.half hart = true → (t.half e.half).normalWorld hart
    = false → (t.half e.half).tally.ghReset = true → exec (.doorKey e hart addr label) s = .next (t.upd e.half fun x => { x with vaults := { x.vaults with waiting := x.vaults.waiting ++ [.key hart addr label] } })) ∧
  (∀ (e : Ev) (hart : Nat) (addr : Nat) (label : Nat) (s t : State), t = tick e s → t.runsHart e.half hart = true → (t.half e.half).normalWorld hart
    = true → exec (.doorKey e hart addr label) s = .next (t.illegalAt e.half hart)) ∧
  (∀ (e : Ev) (record : Nat) (s t : State), t = tick e s → t.es = true → (t.half e.half).clk.rimUp = true → (t.half e.half).tally.ghReset = false →
    exec (.debugUnlock e record) s = .next (t.debugUnlock e.half record)) ∧
  (∀ (e : Ev) (record : Nat) (s t : State), t = tick e s → t.es = true → (t.half e.half).clk.rimUp = true → (t.half e.half).tally.ghReset = true →
    exec (.debugUnlock e record) s = .next (t.upd e.half fun x => { x with vaults := { x.vaults with waiting := x.vaults.waiting ++ [.unlock record] } })) ∧
  (∀ (e : Ev) (record : Nat) (s t : State), t = tick e s → t.es = false → exec (.debugUnlock e record) s = .next (t))

/-- A hart past its quantum leaves its vault with TIMEOUT, one within it stays, and one with an exception runs its fault door or leaves; an identity of no
vault is an application interrupt, a bound one is delivered from the normal world, and either stays pending in the secure one; a refused access is
counted, recorded and failed for its master, as is an application core's or the device DMA's outside their reach; an application core's access to
mapped memory that does not answer faults without a record; the heartbeat of a half that carries its tasks toggles. Here t is the state once the
command's own time has passed, and a row acts only where its condition holds: the model's choices of log entries 4 and 18. It rests on the model's
readings of log entries 117, 118, 122, 154 as well. Rules followed: R17, R28, R29, R30, R469, R470, R477, R478, R479, R518. -/
def Obligations.VaultEvents : Prop :=
  (∀ (e : Ev) (hart : Nat) (n : Nat) (s t : State), t = tick e s → ((t.half e.half).hart hart).vault = some n → ((t.half e.half).hart hart).sinceVt +
    vtQuantum ((t.half e.half).vault n).raw * 1000 ≤ (t.half e.half).vt.toNat → exec (.vaultQuantumExpiry e hart) s = .next (t.exitVault e.half hart
    .timeout 0 0)) ∧
  (∀ (e : Ev) (hart : Nat) (n : Nat) (s t : State), t = tick e s → ((t.half e.half).hart hart).vault = some n → (t.half e.half).vt.toNat < ((t.half
    e.half).hart hart).sinceVt + vtQuantum ((t.half e.half).vault n).raw * 1000 → exec (.vaultQuantumExpiry e hart) s = .next (t)) ∧
  (∀ (e : Ev) (hart : Nat) (cause : Nat) (n : Nat) (s t : State), t = tick e s → ((t.half e.half).hart hart).vault = some n → exec (.vaultException e
    hart cause) s = .next (t.vaultFault e.half hart cause)) ∧
  (∀ (e : Ev) (hart : Nat) (cause : Nat) (s t : State), t = tick e s → ((t.half e.half).hart hart).vault = none → exec (.vaultException e hart cause)
    s = .next (t)) ∧
  (∀ (e : Ev) (hart : Nat) (ident : Nat) (save : HartSave) (s t : State), t = tick e s → t.runsHart e.half hart = true → kget (fun _ => 0) (t.half
    e.half).vaults.idents ident = 0 → ((t.half e.half).hart hart).vault.isNone = true → exec (.secureInterrupt e hart ident save) s = .next (t.emit
    (.appIrq e.half hart ident))) ∧
  (∀ (e : Ev) (hart : Nat) (ident : Nat) (save : HartSave) (s t : State), t = tick e s → t.runsHart e.half hart = true → ((t.half e.half).hart
    hart).vault.isNone = false → exec (.secureInterrupt e hart ident save) s = .next (t.upd e.half fun x => x.setHart hart { x.hart hart with irqs := (x.hart hart).irqs ++ [ident] })) ∧
  (∀ (e : Ev) (hart : Nat) (ident : Nat) (save : HartSave) (s t : State), t = tick e s → t.runsHart e.half hart = true → kget (fun _ => 0) (t.half
    e.half).vaults.idents ident ≠ 0 → ((t.half e.half).hart hart).vault.isNone = true → exec (.secureInterrupt e hart ident save) s = .next ((t.upd
    e.half fun x => x.setHart hart { x.hart hart with irqs := (x.hart hart).irqs ++ [ident] }).deliverIrq e.half hart save)) ∧
  (∀ (e : Ev) (vault : Nat) (who : Master) (n : Nat) (s t : State), t = tick e s → vtState ((t.half e.half).vault vault).raw ≠ 0 → who = .app n →
    exec (.vaultFilterRefusal e vault who) s = .next (((t.upd e.half fun x => x.inc F.SVC_VAULT_CNT_refused).incident e.half 0x11 vault
    .notOwner).accessFault e.half n)) ∧
  (∀ (e : Ev) (vault : Nat) (who : Master) (p : Nat) (i : Nat) (s t : State), t = tick e s → vtState ((t.half e.half).vault vault).raw ≠ 0 → who =
    .dma p i → exec (.vaultFilterRefusal e vault who) s = .next (((t.upd e.half fun x => x.inc F.SVC_VAULT_CNT_refused).incident e.half 0x11 vault
    .notOwner).failDma e.half p i .notOwner)) ∧
  (∀ (e : Ev) (vault : Nat) (who : Master) (s t : State), t = tick e s → vtState ((t.half e.half).vault vault).raw ≠ 0 → who = .steward ∨ who =
    .other → exec (.vaultFilterRefusal e vault who) s = .next ((t.upd e.half fun x => x.inc F.SVC_VAULT_CNT_refused).incident e.half 0x11 vault
    .notOwner)) ∧
  (∀ (e : Ev) (vault : Nat) (who : Master) (s t : State), t = tick e s → vtState ((t.half e.half).vault vault).raw = 0 → exec (.vaultFilterRefusal e
    vault who) s = .next (t)) ∧
  (∀ (e : Ev) (who : Master) (addr : Nat) (n : Nat) (s t : State), t = tick e s → who = .app n → t.present addr = false → exec (.fabricOutOfRange e
    who addr) s = .next ((t.incident e.half 0x10 n .outOfRange).dataFault e.half n)) ∧
  (∀ (e : Ev) (who : Master) (addr : Nat) (n : Nat) (s t : State), t = tick e s → who = .app n → t.present addr = true → t.appRefused e.half addr =
    true → exec (.fabricOutOfRange e who addr) s = .next (t.accessFault e.half n)) ∧
  (∀ (e : Ev) (who : Master) (addr : Nat) (s t : State), t = tick e s → who = .steward ∨ who = .other → t.present addr = false → exec
    (.fabricOutOfRange e who addr) s = .next (t.incident e.half 0x10 0 .outOfRange)) ∧
  (∀ (e : Ev) (who : Master) (addr : Nat) (p : Nat) (i : Nat) (s t : State), t = tick e s → who = .dma p i → t.reaches addr 1 = false → exec
    (.fabricOutOfRange e who addr) s = .next (t.failDma e.half p i .outOfRange)) ∧
  (∀ (e : Ev) (s t : State), t = tick e s → (t.half e.half).fld F.TLY_CTL_enable = 1 → (t.half e.half).carries = true → exec (.serrHbToggle e) s =
    .next ((t.upd e.half fun x => { x with clk := { x.clk with serrHb := !x.clk.serrHb } }).emit (.serrHb e.half)))
end

