-- ==== Sys2Proof/Laws/Bits.lean ====
section
/-! SUPPORT. Laws of bit fields: a field read after one is set. -/
namespace Sys2Proof

/-- A number cut at a field: what lies above, in and below it. -/
theorem bits_split (w lo n : Nat) : w = w / 2 ^ (lo + n) * 2 ^ (lo + n) + bits w lo n * 2 ^ lo + w % 2 ^ lo := by
  have h1 : w = 2 ^ lo * (w / 2 ^ lo) + w % 2 ^ lo := (Nat.div_add_mod w (2 ^ lo)).symm
  have h2 : w / 2 ^ lo = 2 ^ n * (w / 2 ^ lo / 2 ^ n) + (w / 2 ^ lo) % 2 ^ n := (Nat.div_add_mod _ _).symm
  have h3 : w / 2 ^ lo / 2 ^ n = w / 2 ^ (lo + n) := by rw [Nat.div_div_eq_div_mul, pow_add]
  unfold bits
  rw [Nat.shiftRight_eq_div_pow]
  rw [h3] at h2
  conv_lhs => rw [h1, h2]
  rw [pow_add]; ring

theorem setBits_split (w lo n v : Nat) :
    setBits w lo n v = w / 2 ^ (lo + n) * 2 ^ (lo + n) + v % 2 ^ n * 2 ^ lo + w % 2 ^ lo := by
  have h := bits_split w lo n
  unfold setBits
  omega

theorem bits_of_split (a m l lo n : Nat) (hl : l < 2 ^ lo) (hm : m < 2 ^ n) : bits (a * 2 ^ (lo + n) + m * 2 ^ lo + l) lo n = m := by
  unfold bits
  rw [Nat.shiftRight_eq_div_pow, pow_add]
  have : a * (2 ^ lo * 2 ^ n) + m * 2 ^ lo + l = l + (a * 2 ^ n + m) * 2 ^ lo := by ring
  rw [this, Nat.add_mul_div_right _ _ (Nat.two_pow_pos lo), Nat.div_eq_of_lt hl, Nat.zero_add, Nat.add_comm, Nat.add_mul_mod_self_right,
    Nat.mod_eq_of_lt hm]

/-- The field just set. -/
@[simp] theorem bits_setBits_same (w lo n v : Nat) : bits (setBits w lo n v) lo n = v % 2 ^ n := by
  rw [setBits_split]
  exact bits_of_split _ _ _ _ _ (Nat.mod_lt _ (Nat.two_pow_pos lo)) (Nat.mod_lt _ (Nat.two_pow_pos n))

theorem bits_mod (w k lo n : Nat) (h : lo + n ≤ k) : bits (w % 2 ^ k) lo n = bits w lo n := by
  unfold bits
  apply Nat.eq_of_testBit_eq
  intro i
  simp only [Nat.testBit_mod_two_pow, Nat.testBit_shiftRight]
  by_cases hi : i < n
  · simp [hi, show lo + i < k by omega]
  · simp [hi]

theorem bits_div (w k lo n : Nat) (h : k ≤ lo) : bits w lo n = bits (w / 2 ^ k) (lo - k) n := by
  unfold bits
  rw [Nat.shiftRight_eq_div_pow, Nat.shiftRight_eq_div_pow, Nat.div_div_eq_div_mul, ← pow_add, Nat.add_sub_cancel' h]

/-- A field below or above the one set keeps its value. -/
theorem bits_setBits_other (w lo n v lo' n' : Nat) (h : lo' + n' ≤ lo ∨ lo + n ≤ lo') : bits (setBits w lo n v) lo' n' = bits w lo' n' := by
  have hlow : w % 2 ^ lo < 2 ^ lo := Nat.mod_lt _ (Nat.two_pow_pos lo)
  have hmid : v % 2 ^ n < 2 ^ n := Nat.mod_lt _ (Nat.two_pow_pos n)
  rcases h with h | h
  · rw [← bits_mod (setBits w lo n v) lo lo' n' h, ← bits_mod w lo lo' n' h, setBits_split]
    congr 1
    have : w / 2 ^ (lo + n) * 2 ^ (lo + n) + v % 2 ^ n * 2 ^ lo + w % 2 ^ lo =
        w % 2 ^ lo + (w / 2 ^ (lo + n) * 2 ^ n + v % 2 ^ n) * 2 ^ lo := by rw [pow_add]; ring
    rw [this, Nat.add_mul_mod_self_right, Nat.mod_mod]
  · rw [bits_div _ (lo + n) lo' n' h, bits_div w (lo + n) lo' n' h, setBits_split]
    congr 1
    have hb : v % 2 ^ n * 2 ^ lo + w % 2 ^ lo < 2 ^ (lo + n) := by
      rw [pow_add]
      calc v % 2 ^ n * 2 ^ lo + w % 2 ^ lo < v % 2 ^ n * 2 ^ lo + 2 ^ lo := by omega
        _ = (v % 2 ^ n + 1) * 2 ^ lo := by ring
        _ ≤ 2 ^ n * 2 ^ lo := Nat.mul_le_mul_right _ hmid
        _ = 2 ^ lo * 2 ^ n := by ring
    rw [Nat.add_assoc, Nat.add_comm, Nat.add_mul_div_right _ _ (Nat.two_pow_pos _), Nat.div_eq_of_lt hb, Nat.zero_add]

/-- A field is smaller than 2 to its width. -/
theorem bits_lt (w lo n : Nat) : bits w lo n < 2 ^ n := Nat.mod_lt _ (Nat.two_pow_pos n)

/-- Setting a field of a 64-bit word keeps it a 64-bit word. -/
theorem setBits_lt (w lo n v k : Nat) (hw : w < 2 ^ k) (h : lo + n ≤ k) : setBits w lo n v < 2 ^ k := by
  rw [setBits_split]
  have hb : v % 2 ^ n * 2 ^ lo + w % 2 ^ lo < 2 ^ (lo + n) := by
    have hmid : v % 2 ^ n < 2 ^ n := Nat.mod_lt _ (Nat.two_pow_pos n)
    have hlow : w % 2 ^ lo < 2 ^ lo := Nat.mod_lt _ (Nat.two_pow_pos lo)
    rw [pow_add]
    calc v % 2 ^ n * 2 ^ lo + w % 2 ^ lo < v % 2 ^ n * 2 ^ lo + 2 ^ lo := by omega
      _ = (v % 2 ^ n + 1) * 2 ^ lo := by ring
      _ ≤ 2 ^ n * 2 ^ lo := Nat.mul_le_mul_right _ hmid
      _ = 2 ^ lo * 2 ^ n := by ring
  obtain ⟨c, rfl⟩ := Nat.exists_eq_add_of_le h
  have h1 : w / 2 ^ (lo + n) + 1 ≤ 2 ^ c := by
    have : w / 2 ^ (lo + n) < 2 ^ c := by
      rw [Nat.div_lt_iff_lt_mul (Nat.two_pow_pos _), ← pow_add, Nat.add_comm c]; exact hw
    omega
  calc w / 2 ^ (lo + n) * 2 ^ (lo + n) + v % 2 ^ n * 2 ^ lo + w % 2 ^ lo
      < w / 2 ^ (lo + n) * 2 ^ (lo + n) + 2 ^ (lo + n) := by omega
    _ = (w / 2 ^ (lo + n) + 1) * 2 ^ (lo + n) := by ring
    _ ≤ 2 ^ c * 2 ^ (lo + n) := Nat.mul_le_mul_right _ h1
    _ = 2 ^ (lo + n + c) := by rw [← pow_add]; congr 1; omega

end Sys2Proof
end

