-- ==== Sys2Proof/Laws/KMap.lean ====
section
/-! SUPPORT. Laws of sparse lists: a read after a write, and that every operation keeps the canonical form. The reads hold of every list; the form is
needed only for equal contents to be equal lists. -/
namespace Sys2Proof.Machine

variable {α : Type} {d : Nat → α} {m : List (Nat × α)} {k j lo hi : Nat} {v : α}

@[simp] theorem kget_nil : kget d ([] : List (Nat × α)) k = d k := rfl

theorem kget_kins_same : kget d (kins m k v) k = v := by
  induction m with
  | nil => simp [kins, kget]
  | cons x r ih =>
    unfold kins
    by_cases h : x.1 = k <;> by_cases h2 : k < x.1 <;> simp [kget, h, h2, ih]

theorem kget_kins_other (h : j ≠ k) : kget d (kins m k v) j = kget d m j := by
  induction m with
  | nil => simp [kins, kget, Ne.symm h]
  | cons x r ih => unfold kins; repeat' split <;> simp_all [kget, Ne.symm h]

theorem kget_kdel_same : kget d (kdel m k) k = d k := by
  induction m with
  | nil => rfl
  | cons x r ih => unfold kdel; split <;> simp_all [kget]

theorem kget_kdel_other (h : j ≠ k) : kget d (kdel m k) j = kget d m j := by
  induction m with
  | nil => rfl
  | cons x r ih => unfold kdel; split <;> simp_all [kget, Ne.symm h]

/-- Key `j` after a write of key `k`. -/
theorem kget_kput [DecidableEq α] : kget d (kput d m k v) j = if j = k then v else kget d m j := by
  unfold kput
  split <;> split <;> simp_all [kget_kdel_same, kget_kdel_other, kget_kins_same, kget_kins_other]

@[simp] theorem kget_kput_same [DecidableEq α] : kget d (kput d m k v) k = v := by simp [kget_kput]

theorem kget_kput_other [DecidableEq α] (h : j ≠ k) : kget d (kput d m k v) j = kget d m j := by simp [kget_kput, h]

/-- Keys outside a cleared range read as before, keys inside as unlisted. -/
theorem kget_kclear : kget d (kclear m lo hi) k = if k < lo ∨ hi ≤ k then kget d m k else d k := by
  unfold kclear
  induction m with
  | nil => simp
  | cons x r ih =>
    by_cases h : x.1 < lo ∨ hi ≤ x.1 <;> by_cases hx : x.1 = k <;> simp_all [kget] <;> grind

/-! ## The canonical form -/

variable [DecidableEq α]

@[simp] theorem kwf_nil : kwf d ([] : List (Nat × α)) = true := rfl

/-- A smaller lower bound keeps the form. -/
theorem kwfFrom_mono (h : kwfFrom d hi m = true) (hl : lo ≤ hi) : kwfFrom d lo m = true := by
  cases m with
  | nil => rfl
  | cons x r => simp [kwfFrom] at h ⊢; exact ⟨⟨by omega, h.1.2⟩, h.2⟩

theorem kwfFrom_kdel (hw : kwfFrom d lo m = true) : kwfFrom d lo (kdel m k) = true := by
  induction m generalizing lo with
  | nil => rfl
  | cons x r ih =>
    simp [kwfFrom] at hw
    unfold kdel
    split
    · exact ih (kwfFrom_mono hw.2 (by omega))
    · simp [kwfFrom, hw, ih hw.2]

theorem kwfFrom_kins (hw : kwfFrom d lo m = true) (hk : lo ≤ k) (hv : v ≠ d k) : kwfFrom d lo (kins m k v) = true := by
  induction m generalizing lo with
  | nil => simp [kins, kwfFrom, hk, hv]
  | cons x r ih =>
    simp [kwfFrom] at hw
    unfold kins
    split
    · subst_vars; simp [kwfFrom, hk, hv, hw.2]
    · split
      · simp [kwfFrom, hk, hv, hw.1.2, hw.2]; omega
      · simp [kwfFrom, hw.1.1, hw.1.2]; exact ih hw.2 (by omega)

/-- A write keeps the canonical form. -/
theorem kwf_kput (hw : kwf d m = true) : kwf d (kput d m k v) = true := by
  unfold kput
  split
  · exact kwfFrom_kdel hw
  · exact kwfFrom_kins hw (Nat.zero_le _) ‹_›

theorem kwfFrom_filter (p : Nat × α → Bool) (hw : kwfFrom d lo m = true) : kwfFrom d lo (m.filter p) = true := by
  induction m generalizing lo with
  | nil => rfl
  | cons x r ih =>
    simp [kwfFrom] at hw
    simp only [List.filter_cons]
    split
    · simp [kwfFrom, hw, ih hw.2]
    · exact ih (kwfFrom_mono hw.2 (by omega))

/-- Leaving entries out keeps the canonical form. -/
theorem kwf_filter (p : Nat × α → Bool) (hw : kwf d m = true) : kwf d (m.filter p) = true := kwfFrom_filter p hw

theorem kwf_kclear (hw : kwf d m = true) : kwf d (kclear m lo hi) = true := kwfFrom_filter _ hw

theorem kwf_kdel (hw : kwf d m = true) : kwf d (kdel m k) = true := kwfFrom_kdel hw


end Sys2Proof.Machine
end

