-- ==== Sys2Proof/Laws/Regs.lean ====
section
/-! SUPPORT. Laws of the register file: a field read after a field of the same or another register was written. -/
namespace Sys2Proof.Machine

theorem allRegs_regNum (r : Reg) : allRegs[regNum r]? = some r := by cases r <;> rfl

theorem regNum_inj {r q : Reg} (h : regNum r = regNum q) : r = q := by
  have := allRegs_regNum r
  rw [h, allRegs_regNum q] at this
  exact (Option.some.inj this).symm

/-- Words of different registers have different keys. -/
theorem regKey_ne {r q : Reg} (h : r ≠ q) (u i w u' i' w' : Nat) : regKey r u i w ≠ regKey q u' i' w' := by
  intro he
  apply h
  apply regNum_inj
  unfold regKey at he
  omega

theorem word_setWord (x : Half) (r q : Reg) (u i w v u' i' w' : Nat) :
    (x.setWord r u i w v).word q u' i' w' = if regKey q u' i' w' = regKey r u i w then v % 2 ^ 64 else x.word q u' i' w' := by
  unfold Half.word Half.setWord
  simp only [kget_kput]
  split <;> simp

@[simp] theorem word_setWord_same (x : Half) (r : Reg) (u i w v : Nat) : (x.setWord r u i w v).word r u i w = v % 2 ^ 64 := by
  simp [word_setWord]

theorem word_setWord_reg (x : Half) {r q : Reg} (h : r ≠ q) (u i w v u' i' w' : Nat) :
    (x.setWord r u i w v).word q u' i' w' = x.word q u' i' w' := by
  rw [word_setWord, if_neg (regKey_ne (Ne.symm h) _ _ _ _ _ _)]

theorem elem_congr {x y : Half} {q : Reg} {u i : Nat} (h : ∀ w, x.word q u i w = y.word q u i w) : x.elem q u i = y.elem q u i := by
  unfold Half.elem
  congr 1
  funext a w
  have := h w
  unfold Half.word at this
  rw [this]

/-- A fold of updates keeps what each update keeps. -/
theorem foldl_keep {α β γ : Type} (f : β → α → β) (g : β → γ) (h : ∀ b a, g (f b a) = g b) (l : List α) (b : β) : g (l.foldl f b) = g b := by
  induction l generalizing b with
  | nil => rfl
  | cons a r ih => simp [ih, h]

theorem word_setElem_reg (x : Half) {r q : Reg} (h : r ≠ q) (v u i u' i' w' : Nat) :
    (x.setElem r v u i).word q u' i' w' = x.word q u' i' w' := by
  unfold Half.setElem
  exact foldl_keep _ (fun y => y.word q u' i' w') (fun b a => word_setWord_reg b h _ _ _ _ _ _ _) _ _

theorem word_setFld_reg (x : Half) {f : Fld} {q : Reg} (h : f.reg ≠ q) (v u i u' i' w' : Nat) :
    (x.setFld f v u i).word q u' i' w' = x.word q u' i' w' := by
  unfold Half.setFld
  split
  · exact word_setWord_reg x h _ _ _ _ _ _ _
  · exact word_setElem_reg x h _ _ _ _ _ _

theorem fld_congr {x y : Half} {g : Fld} {u i : Nat} (h : ∀ w, x.word g.reg u i w = y.word g.reg u i w) : x.fld g u i = y.fld g u i := by
  unfold Half.fld
  rw [h, elem_congr h]

/-- A field depends on the register file alone. -/
theorem fld_of_regs {x y : Half} (h : x.regs = y.regs) (g : Fld) (u i : Nat) : x.fld g u i = y.fld g u i :=
  fld_congr fun w => by unfold Half.word; rw [h]

/-- Two fields that do not share a bit: of different registers, or apart in the first word of one. -/
def Fld.apart (f g : Fld) : Bool :=
  decide (f.reg ≠ g.reg) || (decide (f.lo + f.width ≤ 64) && decide (g.lo + g.width ≤ 64) && (decide (g.lo + g.width ≤ f.lo) || decide (f.lo + f.width ≤ g.lo)))

theorem word_lt (x : Half) (r : Reg) (u i w : Nat) : x.word r u i w < 2 ^ 64 := by
  unfold Half.word; exact BitVec.isLt _

/-- The field just written, of a register of one word. -/
theorem fld_setFld_same (x : Half) {f : Fld} (hf : f.lo + f.width ≤ 64) (v u i : Nat) : (x.setFld f v u i).fld f u i = v % 2 ^ f.width := by
  unfold Half.fld Half.setFld
  simp only [hf, if_true, word_setWord_same]
  rw [bits_mod _ _ _ _ hf, bits_setBits_same]

/-- A field keeps its value when one apart from it is written, in whatever element. -/
theorem fld_setFld_apart (x : Half) {f g : Fld} (h : f.apart g = true) (v u i u' i' : Nat) : (x.setFld f v u i).fld g u' i' = x.fld g u' i' := by
  by_cases hr : f.reg = g.reg
  · simp [Fld.apart, hr] at h
    obtain ⟨⟨hf, hg⟩, hd⟩ := h
    unfold Half.fld Half.setFld
    simp only [hf, hg, if_true, hr, word_setWord]
    split
    · rename_i hk
      rw [bits_mod _ _ _ _ hg, bits_setBits_other _ _ _ _ _ _ (by omega)]
      unfold Half.word; rw [hk]
    · rfl
  · exact fld_congr fun _ => word_setFld_reg x hr _ _ _ _ _ _

/-- A field of another element keeps its value. -/
theorem fld_setFld_elem (x : Half) {f g : Fld} (hf : f.lo + f.width ≤ 64) (hg : g.lo + g.width ≤ 64) {u u' : Nat} (hu : u % 2 ^ 16 ≠ u' % 2 ^ 16) (v i i' : Nat) :
    (x.setFld f v u i).fld g u' i' = x.fld g u' i' := by
  unfold Half.fld Half.setFld
  simp only [hf, hg, if_true, word_setWord]
  rw [if_neg]
  unfold regKey
  omega

theorem fld_lt (x : Half) {f : Fld} (u i : Nat) : x.fld f u i < 2 ^ f.width := by
  unfold Half.fld; split <;> exact bits_lt _ _ _

theorem fld_inc_same (x : Half) {f : Fld} (hf : f.lo + f.width ≤ 64) (u i n : Nat) : (x.inc f u i n).fld f u i = Nat.min (x.fld f u i + n) (2 ^ f.width - 1) := by
  unfold Half.inc
  rw [fld_setFld_same x hf]
  apply Nat.mod_eq_of_lt
  have := Nat.two_pow_pos f.width
  exact lt_of_le_of_lt (Nat.min_le_right _ _) (by omega)

theorem fld_inc_apart (x : Half) {f g : Fld} (h : f.apart g = true) (u i n u' i' : Nat) : (x.inc f u i n).fld g u' i' = x.fld g u' i' :=
  fld_setFld_apart x h _ _ _ _ _

theorem fld_incw_same (x : Half) {f : Fld} (hf : f.lo + f.width ≤ 64) (u i n : Nat) : (x.incw f u i n).fld f u i = (x.fld f u i + n) % 2 ^ f.width :=
  fld_setFld_same x hf _ _ _

theorem fld_incw_apart (x : Half) {f g : Fld} (h : f.apart g = true) (u i n u' i' : Nat) : (x.incw f u i n).fld g u' i' = x.fld g u' i' :=
  fld_setFld_apart x h _ _ _ _ _

theorem fld_setElem_reg (x : Half) {r : Reg} {g : Fld} (h : r ≠ g.reg) (v u i u' i' : Nat) : (x.setElem r v u i).fld g u' i' = x.fld g u' i' :=
  fld_congr fun _ => word_setElem_reg x h _ _ _ _ _ _

theorem fld_setWord_reg (x : Half) {r : Reg} {g : Fld} (h : r ≠ g.reg) (u i w v u' i' : Nat) : (x.setWord r u i w v).fld g u' i' = x.fld g u' i' :=
  fld_congr fun _ => word_setWord_reg x h _ _ _ _ _ _ _

theorem elem_one (x : Half) {r : Reg} (hr : regWords r = 1) (u i : Nat) : x.elem r u i = x.word r u i 0 := by
  unfold Half.elem Half.word
  rw [hr]
  show 0 + _ * 2 ^ (64 * 0) = _
  rw [Nat.mul_zero, Nat.pow_zero, Nat.mul_one, Nat.zero_add]

theorem setElem_one (x : Half) {r : Reg} (hr : regWords r = 1) (v u i : Nat) : x.setElem r v u i = x.setWord r u i 0 v := by
  unfold Half.setElem
  rw [hr]
  rfl

theorem elem_setElem_same (x : Half) {r : Reg} (hr : regWords r = 1) (v u i : Nat) : (x.setElem r v u i).elem r u i = v % 2 ^ 64 := by
  rw [elem_one _ hr, setElem_one _ hr, word_setWord_same]

end Sys2Proof.Machine
end

