-- ==== Sys2Proof/Laws/State.lean ====
section
/-! SUPPORT. One lemma per field per update, so that no proof unfolds a record update. -/
namespace Sys2Proof.Machine

/-! ## A half after a register write or an incident record: every other field -/

@[simp] theorem setWord_vt (x : Half) (r : Reg) (u i w v : Nat) : (x.setWord r u i w v).vt = x.vt := by unfold Half.setWord; exact (fun (a' : List (Nat × BitVec 64)) => (rfl : ({ x with regs := a' } : Half).vt = x.vt)) _
@[simp] theorem setWord_cores (x : Half) (r : Reg) (u i w v : Nat) : (x.setWord r u i w v).cores = x.cores := by unfold Half.setWord; exact (fun (a' : List (Nat × BitVec 64)) => (rfl : ({ x with regs := a' } : Half).cores = x.cores)) _
@[simp] theorem setWord_str (x : Half) (r : Reg) (u i w v : Nat) : (x.setWord r u i w v).str = x.str := by unfold Half.setWord; exact (fun (a' : List (Nat × BitVec 64)) => (rfl : ({ x with regs := a' } : Half).str = x.str)) _
@[simp] theorem setWord_sieve (x : Half) (r : Reg) (u i w v : Nat) : (x.setWord r u i w v).sieve = x.sieve := by unfold Half.setWord; exact (fun (a' : List (Nat × BitVec 64)) => (rfl : ({ x with regs := a' } : Half).sieve = x.sieve)) _
@[simp] theorem setWord_sieveTimes (x : Half) (r : Reg) (u i w v : Nat) : (x.setWord r u i w v).sieveTimes = x.sieveTimes := by unfold Half.setWord; exact (fun (a' : List (Nat × BitVec 64)) => (rfl : ({ x with regs := a' } : Half).sieveTimes = x.sieveTimes)) _
@[simp] theorem setWord_streams (x : Half) (r : Reg) (u i w v : Nat) : (x.setWord r u i w v).streams = x.streams := by unfold Half.setWord; exact (fun (a' : List (Nat × BitVec 64)) => (rfl : ({ x with regs := a' } : Half).streams = x.streams)) _
@[simp] theorem setWord_win (x : Half) (r : Reg) (u i w v : Nat) : (x.setWord r u i w v).win = x.win := by unfold Half.setWord; exact (fun (a' : List (Nat × BitVec 64)) => (rfl : ({ x with regs := a' } : Half).win = x.win)) _
@[simp] theorem setWord_disp (x : Half) (r : Reg) (u i w v : Nat) : (x.setWord r u i w v).disp = x.disp := by unfold Half.setWord; exact (fun (a' : List (Nat × BitVec 64)) => (rfl : ({ x with regs := a' } : Half).disp = x.disp)) _
@[simp] theorem setWord_tally (x : Half) (r : Reg) (u i w v : Nat) : (x.setWord r u i w v).tally = x.tally := by unfold Half.setWord; exact (fun (a' : List (Nat × BitVec 64)) => (rfl : ({ x with regs := a' } : Half).tally = x.tally)) _
@[simp] theorem setWord_svc (x : Half) (r : Reg) (u i w v : Nat) : (x.setWord r u i w v).svc = x.svc := by unfold Half.setWord; exact (fun (a' : List (Nat × BitVec 64)) => (rfl : ({ x with regs := a' } : Half).svc = x.svc)) _
@[simp] theorem setWord_mint (x : Half) (r : Reg) (u i w v : Nat) : (x.setWord r u i w v).mint = x.mint := by unfold Half.setWord; exact (fun (a' : List (Nat × BitVec 64)) => (rfl : ({ x with regs := a' } : Half).mint = x.mint)) _
@[simp] theorem setWord_hatch (x : Half) (r : Reg) (u i w v : Nat) : (x.setWord r u i w v).hatch = x.hatch := by unfold Half.setWord; exact (fun (a' : List (Nat × BitVec 64)) => (rfl : ({ x with regs := a' } : Half).hatch = x.hatch)) _
@[simp] theorem setWord_gtw (x : Half) (r : Reg) (u i w v : Nat) : (x.setWord r u i w v).gtw = x.gtw := by unfold Half.setWord; exact (fun (a' : List (Nat × BitVec 64)) => (rfl : ({ x with regs := a' } : Half).gtw = x.gtw)) _
@[simp] theorem setWord_ports (x : Half) (r : Reg) (u i w v : Nat) : (x.setWord r u i w v).ports = x.ports := by unfold Half.setWord; exact (fun (a' : List (Nat × BitVec 64)) => (rfl : ({ x with regs := a' } : Half).ports = x.ports)) _
@[simp] theorem setWord_dsp (x : Half) (r : Reg) (u i w v : Nat) : (x.setWord r u i w v).dsp = x.dsp := by unfold Half.setWord; exact (fun (a' : List (Nat × BitVec 64)) => (rfl : ({ x with regs := a' } : Half).dsp = x.dsp)) _
@[simp] theorem setWord_fw (x : Half) (r : Reg) (u i w v : Nat) : (x.setWord r u i w v).fw = x.fw := by unfold Half.setWord; exact (fun (a' : List (Nat × BitVec 64)) => (rfl : ({ x with regs := a' } : Half).fw = x.fw)) _
@[simp] theorem setWord_vaults (x : Half) (r : Reg) (u i w v : Nat) : (x.setWord r u i w v).vaults = x.vaults := by unfold Half.setWord; exact (fun (a' : List (Nat × BitVec 64)) => (rfl : ({ x with regs := a' } : Half).vaults = x.vaults)) _
@[simp] theorem setWord_clk (x : Half) (r : Reg) (u i w v : Nat) : (x.setWord r u i w v).clk = x.clk := by unfold Half.setWord; exact (fun (a' : List (Nat × BitVec 64)) => (rfl : ({ x with regs := a' } : Half).clk = x.clk)) _
@[simp] theorem setWord_incidents (x : Half) (r : Reg) (u i w v : Nat) : (x.setWord r u i w v).incidents = x.incidents := by unfold Half.setWord; exact (fun (a' : List (Nat × BitVec 64)) => (rfl : ({ x with regs := a' } : Half).incidents = x.incidents)) _
@[simp] theorem setWord_incSeq (x : Half) (r : Reg) (u i w v : Nat) : (x.setWord r u i w v).incSeq = x.incSeq := by unfold Half.setWord; exact (fun (a' : List (Nat × BitVec 64)) => (rfl : ({ x with regs := a' } : Half).incSeq = x.incSeq)) _
@[simp] theorem setWord_late (x : Half) (r : Reg) (u i w v : Nat) : (x.setWord r u i w v).late = x.late := by unfold Half.setWord; exact (fun (a' : List (Nat × BitVec 64)) => (rfl : ({ x with regs := a' } : Half).late = x.late)) _
@[simp] theorem setWord_incCount (x : Half) (r : Reg) (u i w v : Nat) : (x.setWord r u i w v).incCount = x.incCount := by unfold Half.setWord; exact (fun (a' : List (Nat × BitVec 64)) => (rfl : ({ x with regs := a' } : Half).incCount = x.incCount)) _

@[simp] theorem setElem_vt (x : Half) (r : Reg) (v u i : Nat) : (x.setElem r v u i).vt = x.vt := by unfold Half.setElem; exact foldl_keep _ Half.vt (fun _ _ => setWord_vt _ _ _ _ _ _) _ _
@[simp] theorem setElem_cores (x : Half) (r : Reg) (v u i : Nat) : (x.setElem r v u i).cores = x.cores := by unfold Half.setElem; exact foldl_keep _ Half.cores (fun _ _ => setWord_cores _ _ _ _ _ _) _ _
@[simp] theorem setElem_str (x : Half) (r : Reg) (v u i : Nat) : (x.setElem r v u i).str = x.str := by unfold Half.setElem; exact foldl_keep _ Half.str (fun _ _ => setWord_str _ _ _ _ _ _) _ _
@[simp] theorem setElem_sieve (x : Half) (r : Reg) (v u i : Nat) : (x.setElem r v u i).sieve = x.sieve := by unfold Half.setElem; exact foldl_keep _ Half.sieve (fun _ _ => setWord_sieve _ _ _ _ _ _) _ _
@[simp] theorem setElem_sieveTimes (x : Half) (r : Reg) (v u i : Nat) : (x.setElem r v u i).sieveTimes = x.sieveTimes := by unfold Half.setElem; exact foldl_keep _ Half.sieveTimes (fun _ _ => setWord_sieveTimes _ _ _ _ _ _) _ _
@[simp] theorem setElem_streams (x : Half) (r : Reg) (v u i : Nat) : (x.setElem r v u i).streams = x.streams := by unfold Half.setElem; exact foldl_keep _ Half.streams (fun _ _ => setWord_streams _ _ _ _ _ _) _ _
@[simp] theorem setElem_win (x : Half) (r : Reg) (v u i : Nat) : (x.setElem r v u i).win = x.win := by unfold Half.setElem; exact foldl_keep _ Half.win (fun _ _ => setWord_win _ _ _ _ _ _) _ _
@[simp] theorem setElem_disp (x : Half) (r : Reg) (v u i : Nat) : (x.setElem r v u i).disp = x.disp := by unfold Half.setElem; exact foldl_keep _ Half.disp (fun _ _ => setWord_disp _ _ _ _ _ _) _ _
@[simp] theorem setElem_tally (x : Half) (r : Reg) (v u i : Nat) : (x.setElem r v u i).tally = x.tally := by unfold Half.setElem; exact foldl_keep _ Half.tally (fun _ _ => setWord_tally _ _ _ _ _ _) _ _
@[simp] theorem setElem_svc (x : Half) (r : Reg) (v u i : Nat) : (x.setElem r v u i).svc = x.svc := by unfold Half.setElem; exact foldl_keep _ Half.svc (fun _ _ => setWord_svc _ _ _ _ _ _) _ _
@[simp] theorem setElem_mint (x : Half) (r : Reg) (v u i : Nat) : (x.setElem r v u i).mint = x.mint := by unfold Half.setElem; exact foldl_keep _ Half.mint (fun _ _ => setWord_mint _ _ _ _ _ _) _ _
@[simp] theorem setElem_hatch (x : Half) (r : Reg) (v u i : Nat) : (x.setElem r v u i).hatch = x.hatch := by unfold Half.setElem; exact foldl_keep _ Half.hatch (fun _ _ => setWord_hatch _ _ _ _ _ _) _ _
@[simp] theorem setElem_gtw (x : Half) (r : Reg) (v u i : Nat) : (x.setElem r v u i).gtw = x.gtw := by unfold Half.setElem; exact foldl_keep _ Half.gtw (fun _ _ => setWord_gtw _ _ _ _ _ _) _ _
@[simp] theorem setElem_ports (x : Half) (r : Reg) (v u i : Nat) : (x.setElem r v u i).ports = x.ports := by unfold Half.setElem; exact foldl_keep _ Half.ports (fun _ _ => setWord_ports _ _ _ _ _ _) _ _
@[simp] theorem setElem_dsp (x : Half) (r : Reg) (v u i : Nat) : (x.setElem r v u i).dsp = x.dsp := by unfold Half.setElem; exact foldl_keep _ Half.dsp (fun _ _ => setWord_dsp _ _ _ _ _ _) _ _
@[simp] theorem setElem_fw (x : Half) (r : Reg) (v u i : Nat) : (x.setElem r v u i).fw = x.fw := by unfold Half.setElem; exact foldl_keep _ Half.fw (fun _ _ => setWord_fw _ _ _ _ _ _) _ _
@[simp] theorem setElem_vaults (x : Half) (r : Reg) (v u i : Nat) : (x.setElem r v u i).vaults = x.vaults := by unfold Half.setElem; exact foldl_keep _ Half.vaults (fun _ _ => setWord_vaults _ _ _ _ _ _) _ _
@[simp] theorem setElem_clk (x : Half) (r : Reg) (v u i : Nat) : (x.setElem r v u i).clk = x.clk := by unfold Half.setElem; exact foldl_keep _ Half.clk (fun _ _ => setWord_clk _ _ _ _ _ _) _ _
@[simp] theorem setElem_incidents (x : Half) (r : Reg) (v u i : Nat) : (x.setElem r v u i).incidents = x.incidents := by unfold Half.setElem; exact foldl_keep _ Half.incidents (fun _ _ => setWord_incidents _ _ _ _ _ _) _ _
@[simp] theorem setElem_incSeq (x : Half) (r : Reg) (v u i : Nat) : (x.setElem r v u i).incSeq = x.incSeq := by unfold Half.setElem; exact foldl_keep _ Half.incSeq (fun _ _ => setWord_incSeq _ _ _ _ _ _) _ _
@[simp] theorem setElem_late (x : Half) (r : Reg) (v u i : Nat) : (x.setElem r v u i).late = x.late := by unfold Half.setElem; exact foldl_keep _ Half.late (fun _ _ => setWord_late _ _ _ _ _ _) _ _
@[simp] theorem setElem_incCount (x : Half) (r : Reg) (v u i : Nat) : (x.setElem r v u i).incCount = x.incCount := by unfold Half.setElem; exact foldl_keep _ Half.incCount (fun _ _ => setWord_incCount _ _ _ _ _ _) _ _

@[simp] theorem setFld_vt (x : Half) (f : Fld) (v u i : Nat) : (x.setFld f v u i).vt = x.vt := by unfold Half.setFld; split <;> simp
@[simp] theorem setFld_cores (x : Half) (f : Fld) (v u i : Nat) : (x.setFld f v u i).cores = x.cores := by unfold Half.setFld; split <;> simp
@[simp] theorem setFld_str (x : Half) (f : Fld) (v u i : Nat) : (x.setFld f v u i).str = x.str := by unfold Half.setFld; split <;> simp
@[simp] theorem setFld_sieve (x : Half) (f : Fld) (v u i : Nat) : (x.setFld f v u i).sieve = x.sieve := by unfold Half.setFld; split <;> simp
@[simp] theorem setFld_sieveTimes (x : Half) (f : Fld) (v u i : Nat) : (x.setFld f v u i).sieveTimes = x.sieveTimes := by unfold Half.setFld; split <;> simp
@[simp] theorem setFld_streams (x : Half) (f : Fld) (v u i : Nat) : (x.setFld f v u i).streams = x.streams := by unfold Half.setFld; split <;> simp
@[simp] theorem setFld_win (x : Half) (f : Fld) (v u i : Nat) : (x.setFld f v u i).win = x.win := by unfold Half.setFld; split <;> simp
@[simp] theorem setFld_disp (x : Half) (f : Fld) (v u i : Nat) : (x.setFld f v u i).disp = x.disp := by unfold Half.setFld; split <;> simp
@[simp] theorem setFld_tally (x : Half) (f : Fld) (v u i : Nat) : (x.setFld f v u i).tally = x.tally := by unfold Half.setFld; split <;> simp
@[simp] theorem setFld_svc (x : Half) (f : Fld) (v u i : Nat) : (x.setFld f v u i).svc = x.svc := by unfold Half.setFld; split <;> simp
@[simp] theorem setFld_mint (x : Half) (f : Fld) (v u i : Nat) : (x.setFld f v u i).mint = x.mint := by unfold Half.setFld; split <;> simp
@[simp] theorem setFld_hatch (x : Half) (f : Fld) (v u i : Nat) : (x.setFld f v u i).hatch = x.hatch := by unfold Half.setFld; split <;> simp
@[simp] theorem setFld_gtw (x : Half) (f : Fld) (v u i : Nat) : (x.setFld f v u i).gtw = x.gtw := by unfold Half.setFld; split <;> simp
@[simp] theorem setFld_ports (x : Half) (f : Fld) (v u i : Nat) : (x.setFld f v u i).ports = x.ports := by unfold Half.setFld; split <;> simp
@[simp] theorem setFld_dsp (x : Half) (f : Fld) (v u i : Nat) : (x.setFld f v u i).dsp = x.dsp := by unfold Half.setFld; split <;> simp
@[simp] theorem setFld_fw (x : Half) (f : Fld) (v u i : Nat) : (x.setFld f v u i).fw = x.fw := by unfold Half.setFld; split <;> simp
@[simp] theorem setFld_vaults (x : Half) (f : Fld) (v u i : Nat) : (x.setFld f v u i).vaults = x.vaults := by unfold Half.setFld; split <;> simp
@[simp] theorem setFld_clk (x : Half) (f : Fld) (v u i : Nat) : (x.setFld f v u i).clk = x.clk := by unfold Half.setFld; split <;> simp
@[simp] theorem setFld_incidents (x : Half) (f : Fld) (v u i : Nat) : (x.setFld f v u i).incidents = x.incidents := by unfold Half.setFld; split <;> simp
@[simp] theorem setFld_incSeq (x : Half) (f : Fld) (v u i : Nat) : (x.setFld f v u i).incSeq = x.incSeq := by unfold Half.setFld; split <;> simp
@[simp] theorem setFld_late (x : Half) (f : Fld) (v u i : Nat) : (x.setFld f v u i).late = x.late := by unfold Half.setFld; split <;> simp
@[simp] theorem setFld_incCount (x : Half) (f : Fld) (v u i : Nat) : (x.setFld f v u i).incCount = x.incCount := by unfold Half.setFld; split <;> simp

@[simp] theorem inc_vt (x : Half) (f : Fld) (u i n : Nat) : (x.inc f u i n).vt = x.vt := by simp [Half.inc]
@[simp] theorem inc_cores (x : Half) (f : Fld) (u i n : Nat) : (x.inc f u i n).cores = x.cores := by simp [Half.inc]
@[simp] theorem inc_str (x : Half) (f : Fld) (u i n : Nat) : (x.inc f u i n).str = x.str := by simp [Half.inc]
@[simp] theorem inc_sieve (x : Half) (f : Fld) (u i n : Nat) : (x.inc f u i n).sieve = x.sieve := by simp [Half.inc]
@[simp] theorem inc_sieveTimes (x : Half) (f : Fld) (u i n : Nat) : (x.inc f u i n).sieveTimes = x.sieveTimes := by simp [Half.inc]
@[simp] theorem inc_streams (x : Half) (f : Fld) (u i n : Nat) : (x.inc f u i n).streams = x.streams := by simp [Half.inc]
@[simp] theorem inc_win (x : Half) (f : Fld) (u i n : Nat) : (x.inc f u i n).win = x.win := by simp [Half.inc]
@[simp] theorem inc_disp (x : Half) (f : Fld) (u i n : Nat) : (x.inc f u i n).disp = x.disp := by simp [Half.inc]
@[simp] theorem inc_tally (x : Half) (f : Fld) (u i n : Nat) : (x.inc f u i n).tally = x.tally := by simp [Half.inc]
@[simp] theorem inc_svc (x : Half) (f : Fld) (u i n : Nat) : (x.inc f u i n).svc = x.svc := by simp [Half.inc]
@[simp] theorem inc_mint (x : Half) (f : Fld) (u i n : Nat) : (x.inc f u i n).mint = x.mint := by simp [Half.inc]
@[simp] theorem inc_hatch (x : Half) (f : Fld) (u i n : Nat) : (x.inc f u i n).hatch = x.hatch := by simp [Half.inc]
@[simp] theorem inc_gtw (x : Half) (f : Fld) (u i n : Nat) : (x.inc f u i n).gtw = x.gtw := by simp [Half.inc]
@[simp] theorem inc_ports (x : Half) (f : Fld) (u i n : Nat) : (x.inc f u i n).ports = x.ports := by simp [Half.inc]
@[simp] theorem inc_dsp (x : Half) (f : Fld) (u i n : Nat) : (x.inc f u i n).dsp = x.dsp := by simp [Half.inc]
@[simp] theorem inc_fw (x : Half) (f : Fld) (u i n : Nat) : (x.inc f u i n).fw = x.fw := by simp [Half.inc]
@[simp] theorem inc_vaults (x : Half) (f : Fld) (u i n : Nat) : (x.inc f u i n).vaults = x.vaults := by simp [Half.inc]
@[simp] theorem inc_clk (x : Half) (f : Fld) (u i n : Nat) : (x.inc f u i n).clk = x.clk := by simp [Half.inc]
@[simp] theorem inc_incidents (x : Half) (f : Fld) (u i n : Nat) : (x.inc f u i n).incidents = x.incidents := by simp [Half.inc]
@[simp] theorem inc_incSeq (x : Half) (f : Fld) (u i n : Nat) : (x.inc f u i n).incSeq = x.incSeq := by simp [Half.inc]
@[simp] theorem inc_late (x : Half) (f : Fld) (u i n : Nat) : (x.inc f u i n).late = x.late := by simp [Half.inc]
@[simp] theorem inc_incCount (x : Half) (f : Fld) (u i n : Nat) : (x.inc f u i n).incCount = x.incCount := by simp [Half.inc]

@[simp] theorem incw_vt (x : Half) (f : Fld) (u i n : Nat) : (x.incw f u i n).vt = x.vt := by simp [Half.incw]
@[simp] theorem incw_cores (x : Half) (f : Fld) (u i n : Nat) : (x.incw f u i n).cores = x.cores := by simp [Half.incw]
@[simp] theorem incw_str (x : Half) (f : Fld) (u i n : Nat) : (x.incw f u i n).str = x.str := by simp [Half.incw]
@[simp] theorem incw_sieve (x : Half) (f : Fld) (u i n : Nat) : (x.incw f u i n).sieve = x.sieve := by simp [Half.incw]
@[simp] theorem incw_sieveTimes (x : Half) (f : Fld) (u i n : Nat) : (x.incw f u i n).sieveTimes = x.sieveTimes := by simp [Half.incw]
@[simp] theorem incw_streams (x : Half) (f : Fld) (u i n : Nat) : (x.incw f u i n).streams = x.streams := by simp [Half.incw]
@[simp] theorem incw_win (x : Half) (f : Fld) (u i n : Nat) : (x.incw f u i n).win = x.win := by simp [Half.incw]
@[simp] theorem incw_disp (x : Half) (f : Fld) (u i n : Nat) : (x.incw f u i n).disp = x.disp := by simp [Half.incw]
@[simp] theorem incw_tally (x : Half) (f : Fld) (u i n : Nat) : (x.incw f u i n).tally = x.tally := by simp [Half.incw]
@[simp] theorem incw_svc (x : Half) (f : Fld) (u i n : Nat) : (x.incw f u i n).svc = x.svc := by simp [Half.incw]
@[simp] theorem incw_mint (x : Half) (f : Fld) (u i n : Nat) : (x.incw f u i n).mint = x.mint := by simp [Half.incw]
@[simp] theorem incw_hatch (x : Half) (f : Fld) (u i n : Nat) : (x.incw f u i n).hatch = x.hatch := by simp [Half.incw]
@[simp] theorem incw_gtw (x : Half) (f : Fld) (u i n : Nat) : (x.incw f u i n).gtw = x.gtw := by simp [Half.incw]
@[simp] theorem incw_ports (x : Half) (f : Fld) (u i n : Nat) : (x.incw f u i n).ports = x.ports := by simp [Half.incw]
@[simp] theorem incw_dsp (x : Half) (f : Fld) (u i n : Nat) : (x.incw f u i n).dsp = x.dsp := by simp [Half.incw]
@[simp] theorem incw_fw (x : Half) (f : Fld) (u i n : Nat) : (x.incw f u i n).fw = x.fw := by simp [Half.incw]
@[simp] theorem incw_vaults (x : Half) (f : Fld) (u i n : Nat) : (x.incw f u i n).vaults = x.vaults := by simp [Half.incw]
@[simp] theorem incw_clk (x : Half) (f : Fld) (u i n : Nat) : (x.incw f u i n).clk = x.clk := by simp [Half.incw]
@[simp] theorem incw_incidents (x : Half) (f : Fld) (u i n : Nat) : (x.incw f u i n).incidents = x.incidents := by simp [Half.incw]
@[simp] theorem incw_incSeq (x : Half) (f : Fld) (u i n : Nat) : (x.incw f u i n).incSeq = x.incSeq := by simp [Half.incw]
@[simp] theorem incw_late (x : Half) (f : Fld) (u i n : Nat) : (x.incw f u i n).late = x.late := by simp [Half.incw]
@[simp] theorem incw_incCount (x : Half) (f : Fld) (u i n : Nat) : (x.incw f u i n).incCount = x.incCount := by simp [Half.incw]

@[simp] theorem record_vt (x : Half) (src half unit : Nat) (st : Status) (d : Nat) : (x.record src half unit st d).vt = x.vt := by unfold Half.record; exact (fun (a' : List Incident) (b' : Nat) (c' : List (Nat × Nat)) => (rfl : ({ x with incidents := a', incSeq := b', incCount := c' } : Half).vt = x.vt)) _ _ _
@[simp] theorem record_regs (x : Half) (src half unit : Nat) (st : Status) (d : Nat) : (x.record src half unit st d).regs = x.regs := by unfold Half.record; exact (fun (a' : List Incident) (b' : Nat) (c' : List (Nat × Nat)) => (rfl : ({ x with incidents := a', incSeq := b', incCount := c' } : Half).regs = x.regs)) _ _ _
@[simp] theorem record_cores (x : Half) (src half unit : Nat) (st : Status) (d : Nat) : (x.record src half unit st d).cores = x.cores := by unfold Half.record; exact (fun (a' : List Incident) (b' : Nat) (c' : List (Nat × Nat)) => (rfl : ({ x with incidents := a', incSeq := b', incCount := c' } : Half).cores = x.cores)) _ _ _
@[simp] theorem record_str (x : Half) (src half unit : Nat) (st : Status) (d : Nat) : (x.record src half unit st d).str = x.str := by unfold Half.record; exact (fun (a' : List Incident) (b' : Nat) (c' : List (Nat × Nat)) => (rfl : ({ x with incidents := a', incSeq := b', incCount := c' } : Half).str = x.str)) _ _ _
@[simp] theorem record_sieve (x : Half) (src half unit : Nat) (st : Status) (d : Nat) : (x.record src half unit st d).sieve = x.sieve := by unfold Half.record; exact (fun (a' : List Incident) (b' : Nat) (c' : List (Nat × Nat)) => (rfl : ({ x with incidents := a', incSeq := b', incCount := c' } : Half).sieve = x.sieve)) _ _ _
@[simp] theorem record_sieveTimes (x : Half) (src half unit : Nat) (st : Status) (d : Nat) : (x.record src half unit st d).sieveTimes = x.sieveTimes := by unfold Half.record; exact (fun (a' : List Incident) (b' : Nat) (c' : List (Nat × Nat)) => (rfl : ({ x with incidents := a', incSeq := b', incCount := c' } : Half).sieveTimes = x.sieveTimes)) _ _ _
@[simp] theorem record_streams (x : Half) (src half unit : Nat) (st : Status) (d : Nat) : (x.record src half unit st d).streams = x.streams := by unfold Half.record; exact (fun (a' : List Incident) (b' : Nat) (c' : List (Nat × Nat)) => (rfl : ({ x with incidents := a', incSeq := b', incCount := c' } : Half).streams = x.streams)) _ _ _
@[simp] theorem record_win (x : Half) (src half unit : Nat) (st : Status) (d : Nat) : (x.record src half unit st d).win = x.win := by unfold Half.record; exact (fun (a' : List Incident) (b' : Nat) (c' : List (Nat × Nat)) => (rfl : ({ x with incidents := a', incSeq := b', incCount := c' } : Half).win = x.win)) _ _ _
@[simp] theorem record_disp (x : Half) (src half unit : Nat) (st : Status) (d : Nat) : (x.record src half unit st d).disp = x.disp := by unfold Half.record; exact (fun (a' : List Incident) (b' : Nat) (c' : List (Nat × Nat)) => (rfl : ({ x with incidents := a', incSeq := b', incCount := c' } : Half).disp = x.disp)) _ _ _
@[simp] theorem record_tally (x : Half) (src half unit : Nat) (st : Status) (d : Nat) : (x.record src half unit st d).tally = x.tally := by unfold Half.record; exact (fun (a' : List Incident) (b' : Nat) (c' : List (Nat × Nat)) => (rfl : ({ x with incidents := a', incSeq := b', incCount := c' } : Half).tally = x.tally)) _ _ _
@[simp] theorem record_svc (x : Half) (src half unit : Nat) (st : Status) (d : Nat) : (x.record src half unit st d).svc = x.svc := by unfold Half.record; exact (fun (a' : List Incident) (b' : Nat) (c' : List (Nat × Nat)) => (rfl : ({ x with incidents := a', incSeq := b', incCount := c' } : Half).svc = x.svc)) _ _ _
@[simp] theorem record_mint (x : Half) (src half unit : Nat) (st : Status) (d : Nat) : (x.record src half unit st d).mint = x.mint := by unfold Half.record; exact (fun (a' : List Incident) (b' : Nat) (c' : List (Nat × Nat)) => (rfl : ({ x with incidents := a', incSeq := b', incCount := c' } : Half).mint = x.mint)) _ _ _
@[simp] theorem record_hatch (x : Half) (src half unit : Nat) (st : Status) (d : Nat) : (x.record src half unit st d).hatch = x.hatch := by unfold Half.record; exact (fun (a' : List Incident) (b' : Nat) (c' : List (Nat × Nat)) => (rfl : ({ x with incidents := a', incSeq := b', incCount := c' } : Half).hatch = x.hatch)) _ _ _
@[simp] theorem record_gtw (x : Half) (src half unit : Nat) (st : Status) (d : Nat) : (x.record src half unit st d).gtw = x.gtw := by unfold Half.record; exact (fun (a' : List Incident) (b' : Nat) (c' : List (Nat × Nat)) => (rfl : ({ x with incidents := a', incSeq := b', incCount := c' } : Half).gtw = x.gtw)) _ _ _
@[simp] theorem record_ports (x : Half) (src half unit : Nat) (st : Status) (d : Nat) : (x.record src half unit st d).ports = x.ports := by unfold Half.record; exact (fun (a' : List Incident) (b' : Nat) (c' : List (Nat × Nat)) => (rfl : ({ x with incidents := a', incSeq := b', incCount := c' } : Half).ports = x.ports)) _ _ _
@[simp] theorem record_dsp (x : Half) (src half unit : Nat) (st : Status) (d : Nat) : (x.record src half unit st d).dsp = x.dsp := by unfold Half.record; exact (fun (a' : List Incident) (b' : Nat) (c' : List (Nat × Nat)) => (rfl : ({ x with incidents := a', incSeq := b', incCount := c' } : Half).dsp = x.dsp)) _ _ _
@[simp] theorem record_fw (x : Half) (src half unit : Nat) (st : Status) (d : Nat) : (x.record src half unit st d).fw = x.fw := by unfold Half.record; exact (fun (a' : List Incident) (b' : Nat) (c' : List (Nat × Nat)) => (rfl : ({ x with incidents := a', incSeq := b', incCount := c' } : Half).fw = x.fw)) _ _ _
@[simp] theorem record_vaults (x : Half) (src half unit : Nat) (st : Status) (d : Nat) : (x.record src half unit st d).vaults = x.vaults := by unfold Half.record; exact (fun (a' : List Incident) (b' : Nat) (c' : List (Nat × Nat)) => (rfl : ({ x with incidents := a', incSeq := b', incCount := c' } : Half).vaults = x.vaults)) _ _ _
@[simp] theorem record_clk (x : Half) (src half unit : Nat) (st : Status) (d : Nat) : (x.record src half unit st d).clk = x.clk := by unfold Half.record; exact (fun (a' : List Incident) (b' : Nat) (c' : List (Nat × Nat)) => (rfl : ({ x with incidents := a', incSeq := b', incCount := c' } : Half).clk = x.clk)) _ _ _
@[simp] theorem record_late (x : Half) (src half unit : Nat) (st : Status) (d : Nat) : (x.record src half unit st d).late = x.late := by unfold Half.record; exact (fun (a' : List Incident) (b' : Nat) (c' : List (Nat × Nat)) => (rfl : ({ x with incidents := a', incSeq := b', incCount := c' } : Half).late = x.late)) _ _ _

@[simp] theorem setCore_vt (x : Half) (p : Nat) (c : Core) : (x.setCore p c).vt = x.vt := by unfold Half.setCore; exact (fun (a' : List (Nat × Core)) => (rfl : ({ x with cores := a' } : Half).vt = x.vt)) _
@[simp] theorem setCore_regs (x : Half) (p : Nat) (c : Core) : (x.setCore p c).regs = x.regs := by unfold Half.setCore; exact (fun (a' : List (Nat × Core)) => (rfl : ({ x with cores := a' } : Half).regs = x.regs)) _
@[simp] theorem setCore_str (x : Half) (p : Nat) (c : Core) : (x.setCore p c).str = x.str := by unfold Half.setCore; exact (fun (a' : List (Nat × Core)) => (rfl : ({ x with cores := a' } : Half).str = x.str)) _
@[simp] theorem setCore_sieve (x : Half) (p : Nat) (c : Core) : (x.setCore p c).sieve = x.sieve := by unfold Half.setCore; exact (fun (a' : List (Nat × Core)) => (rfl : ({ x with cores := a' } : Half).sieve = x.sieve)) _
@[simp] theorem setCore_sieveTimes (x : Half) (p : Nat) (c : Core) : (x.setCore p c).sieveTimes = x.sieveTimes := by unfold Half.setCore; exact (fun (a' : List (Nat × Core)) => (rfl : ({ x with cores := a' } : Half).sieveTimes = x.sieveTimes)) _
@[simp] theorem setCore_streams (x : Half) (p : Nat) (c : Core) : (x.setCore p c).streams = x.streams := by unfold Half.setCore; exact (fun (a' : List (Nat × Core)) => (rfl : ({ x with cores := a' } : Half).streams = x.streams)) _
@[simp] theorem setCore_win (x : Half) (p : Nat) (c : Core) : (x.setCore p c).win = x.win := by unfold Half.setCore; exact (fun (a' : List (Nat × Core)) => (rfl : ({ x with cores := a' } : Half).win = x.win)) _
@[simp] theorem setCore_disp (x : Half) (p : Nat) (c : Core) : (x.setCore p c).disp = x.disp := by unfold Half.setCore; exact (fun (a' : List (Nat × Core)) => (rfl : ({ x with cores := a' } : Half).disp = x.disp)) _
@[simp] theorem setCore_tally (x : Half) (p : Nat) (c : Core) : (x.setCore p c).tally = x.tally := by unfold Half.setCore; exact (fun (a' : List (Nat × Core)) => (rfl : ({ x with cores := a' } : Half).tally = x.tally)) _
@[simp] theorem setCore_svc (x : Half) (p : Nat) (c : Core) : (x.setCore p c).svc = x.svc := by unfold Half.setCore; exact (fun (a' : List (Nat × Core)) => (rfl : ({ x with cores := a' } : Half).svc = x.svc)) _
@[simp] theorem setCore_mint (x : Half) (p : Nat) (c : Core) : (x.setCore p c).mint = x.mint := by unfold Half.setCore; exact (fun (a' : List (Nat × Core)) => (rfl : ({ x with cores := a' } : Half).mint = x.mint)) _
@[simp] theorem setCore_hatch (x : Half) (p : Nat) (c : Core) : (x.setCore p c).hatch = x.hatch := by unfold Half.setCore; exact (fun (a' : List (Nat × Core)) => (rfl : ({ x with cores := a' } : Half).hatch = x.hatch)) _
@[simp] theorem setCore_gtw (x : Half) (p : Nat) (c : Core) : (x.setCore p c).gtw = x.gtw := by unfold Half.setCore; exact (fun (a' : List (Nat × Core)) => (rfl : ({ x with cores := a' } : Half).gtw = x.gtw)) _
@[simp] theorem setCore_ports (x : Half) (p : Nat) (c : Core) : (x.setCore p c).ports = x.ports := by unfold Half.setCore; exact (fun (a' : List (Nat × Core)) => (rfl : ({ x with cores := a' } : Half).ports = x.ports)) _
@[simp] theorem setCore_dsp (x : Half) (p : Nat) (c : Core) : (x.setCore p c).dsp = x.dsp := by unfold Half.setCore; exact (fun (a' : List (Nat × Core)) => (rfl : ({ x with cores := a' } : Half).dsp = x.dsp)) _
@[simp] theorem setCore_fw (x : Half) (p : Nat) (c : Core) : (x.setCore p c).fw = x.fw := by unfold Half.setCore; exact (fun (a' : List (Nat × Core)) => (rfl : ({ x with cores := a' } : Half).fw = x.fw)) _
@[simp] theorem setCore_vaults (x : Half) (p : Nat) (c : Core) : (x.setCore p c).vaults = x.vaults := by unfold Half.setCore; exact (fun (a' : List (Nat × Core)) => (rfl : ({ x with cores := a' } : Half).vaults = x.vaults)) _
@[simp] theorem setCore_clk (x : Half) (p : Nat) (c : Core) : (x.setCore p c).clk = x.clk := by unfold Half.setCore; exact (fun (a' : List (Nat × Core)) => (rfl : ({ x with cores := a' } : Half).clk = x.clk)) _
@[simp] theorem setCore_incidents (x : Half) (p : Nat) (c : Core) : (x.setCore p c).incidents = x.incidents := by unfold Half.setCore; exact (fun (a' : List (Nat × Core)) => (rfl : ({ x with cores := a' } : Half).incidents = x.incidents)) _
@[simp] theorem setCore_incSeq (x : Half) (p : Nat) (c : Core) : (x.setCore p c).incSeq = x.incSeq := by unfold Half.setCore; exact (fun (a' : List (Nat × Core)) => (rfl : ({ x with cores := a' } : Half).incSeq = x.incSeq)) _
@[simp] theorem setCore_late (x : Half) (p : Nat) (c : Core) : (x.setCore p c).late = x.late := by unfold Half.setCore; exact (fun (a' : List (Nat × Core)) => (rfl : ({ x with cores := a' } : Half).late = x.late)) _
@[simp] theorem setCore_incCount (x : Half) (p : Nat) (c : Core) : (x.setCore p c).incCount = x.incCount := by unfold Half.setCore; exact (fun (a' : List (Nat × Core)) => (rfl : ({ x with cores := a' } : Half).incCount = x.incCount)) _

@[simp] theorem updCore_vt (x : Half) (p : Nat) (c : Core → Core) : (x.updCore p c).vt = x.vt := by unfold Half.updCore Half.setCore; exact (fun (a' : List (Nat × Core)) => (rfl : ({ x with cores := a' } : Half).vt = x.vt)) _
@[simp] theorem updCore_regs (x : Half) (p : Nat) (c : Core → Core) : (x.updCore p c).regs = x.regs := by unfold Half.updCore Half.setCore; exact (fun (a' : List (Nat × Core)) => (rfl : ({ x with cores := a' } : Half).regs = x.regs)) _
@[simp] theorem updCore_str (x : Half) (p : Nat) (c : Core → Core) : (x.updCore p c).str = x.str := by unfold Half.updCore Half.setCore; exact (fun (a' : List (Nat × Core)) => (rfl : ({ x with cores := a' } : Half).str = x.str)) _
@[simp] theorem updCore_sieve (x : Half) (p : Nat) (c : Core → Core) : (x.updCore p c).sieve = x.sieve := by unfold Half.updCore Half.setCore; exact (fun (a' : List (Nat × Core)) => (rfl : ({ x with cores := a' } : Half).sieve = x.sieve)) _
@[simp] theorem updCore_sieveTimes (x : Half) (p : Nat) (c : Core → Core) : (x.updCore p c).sieveTimes = x.sieveTimes := by unfold Half.updCore Half.setCore; exact (fun (a' : List (Nat × Core)) => (rfl : ({ x with cores := a' } : Half).sieveTimes = x.sieveTimes)) _
@[simp] theorem updCore_streams (x : Half) (p : Nat) (c : Core → Core) : (x.updCore p c).streams = x.streams := by unfold Half.updCore Half.setCore; exact (fun (a' : List (Nat × Core)) => (rfl : ({ x with cores := a' } : Half).streams = x.streams)) _
@[simp] theorem updCore_win (x : Half) (p : Nat) (c : Core → Core) : (x.updCore p c).win = x.win := by unfold Half.updCore Half.setCore; exact (fun (a' : List (Nat × Core)) => (rfl : ({ x with cores := a' } : Half).win = x.win)) _
@[simp] theorem updCore_disp (x : Half) (p : Nat) (c : Core → Core) : (x.updCore p c).disp = x.disp := by unfold Half.updCore Half.setCore; exact (fun (a' : List (Nat × Core)) => (rfl : ({ x with cores := a' } : Half).disp = x.disp)) _
@[simp] theorem updCore_tally (x : Half) (p : Nat) (c : Core → Core) : (x.updCore p c).tally = x.tally := by unfold Half.updCore Half.setCore; exact (fun (a' : List (Nat × Core)) => (rfl : ({ x with cores := a' } : Half).tally = x.tally)) _
@[simp] theorem updCore_svc (x : Half) (p : Nat) (c : Core → Core) : (x.updCore p c).svc = x.svc := by unfold Half.updCore Half.setCore; exact (fun (a' : List (Nat × Core)) => (rfl : ({ x with cores := a' } : Half).svc = x.svc)) _
@[simp] theorem updCore_mint (x : Half) (p : Nat) (c : Core → Core) : (x.updCore p c).mint = x.mint := by unfold Half.updCore Half.setCore; exact (fun (a' : List (Nat × Core)) => (rfl : ({ x with cores := a' } : Half).mint = x.mint)) _
@[simp] theorem updCore_hatch (x : Half) (p : Nat) (c : Core → Core) : (x.updCore p c).hatch = x.hatch := by unfold Half.updCore Half.setCore; exact (fun (a' : List (Nat × Core)) => (rfl : ({ x with cores := a' } : Half).hatch = x.hatch)) _
@[simp] theorem updCore_gtw (x : Half) (p : Nat) (c : Core → Core) : (x.updCore p c).gtw = x.gtw := by unfold Half.updCore Half.setCore; exact (fun (a' : List (Nat × Core)) => (rfl : ({ x with cores := a' } : Half).gtw = x.gtw)) _
@[simp] theorem updCore_ports (x : Half) (p : Nat) (c : Core → Core) : (x.updCore p c).ports = x.ports := by unfold Half.updCore Half.setCore; exact (fun (a' : List (Nat × Core)) => (rfl : ({ x with cores := a' } : Half).ports = x.ports)) _
@[simp] theorem updCore_dsp (x : Half) (p : Nat) (c : Core → Core) : (x.updCore p c).dsp = x.dsp := by unfold Half.updCore Half.setCore; exact (fun (a' : List (Nat × Core)) => (rfl : ({ x with cores := a' } : Half).dsp = x.dsp)) _
@[simp] theorem updCore_fw (x : Half) (p : Nat) (c : Core → Core) : (x.updCore p c).fw = x.fw := by unfold Half.updCore Half.setCore; exact (fun (a' : List (Nat × Core)) => (rfl : ({ x with cores := a' } : Half).fw = x.fw)) _
@[simp] theorem updCore_vaults (x : Half) (p : Nat) (c : Core → Core) : (x.updCore p c).vaults = x.vaults := by unfold Half.updCore Half.setCore; exact (fun (a' : List (Nat × Core)) => (rfl : ({ x with cores := a' } : Half).vaults = x.vaults)) _
@[simp] theorem updCore_clk (x : Half) (p : Nat) (c : Core → Core) : (x.updCore p c).clk = x.clk := by unfold Half.updCore Half.setCore; exact (fun (a' : List (Nat × Core)) => (rfl : ({ x with cores := a' } : Half).clk = x.clk)) _
@[simp] theorem updCore_incidents (x : Half) (p : Nat) (c : Core → Core) : (x.updCore p c).incidents = x.incidents := by unfold Half.updCore Half.setCore; exact (fun (a' : List (Nat × Core)) => (rfl : ({ x with cores := a' } : Half).incidents = x.incidents)) _
@[simp] theorem updCore_incSeq (x : Half) (p : Nat) (c : Core → Core) : (x.updCore p c).incSeq = x.incSeq := by unfold Half.updCore Half.setCore; exact (fun (a' : List (Nat × Core)) => (rfl : ({ x with cores := a' } : Half).incSeq = x.incSeq)) _
@[simp] theorem updCore_late (x : Half) (p : Nat) (c : Core → Core) : (x.updCore p c).late = x.late := by unfold Half.updCore Half.setCore; exact (fun (a' : List (Nat × Core)) => (rfl : ({ x with cores := a' } : Half).late = x.late)) _
@[simp] theorem updCore_incCount (x : Half) (p : Nat) (c : Core → Core) : (x.updCore p c).incCount = x.incCount := by unfold Half.updCore Half.setCore; exact (fun (a' : List (Nat × Core)) => (rfl : ({ x with cores := a' } : Half).incCount = x.incCount)) _

@[simp] theorem setQueue_vt (x : Half) (u : Nat) (q : Queue) : (x.setQueue u q).vt = x.vt := by unfold Half.setQueue; exact (fun (a' : Dispatch) => (rfl : ({ x with disp := a' } : Half).vt = x.vt)) _
@[simp] theorem setQueue_regs (x : Half) (u : Nat) (q : Queue) : (x.setQueue u q).regs = x.regs := by unfold Half.setQueue; exact (fun (a' : Dispatch) => (rfl : ({ x with disp := a' } : Half).regs = x.regs)) _
@[simp] theorem setQueue_cores (x : Half) (u : Nat) (q : Queue) : (x.setQueue u q).cores = x.cores := by unfold Half.setQueue; exact (fun (a' : Dispatch) => (rfl : ({ x with disp := a' } : Half).cores = x.cores)) _
@[simp] theorem setQueue_str (x : Half) (u : Nat) (q : Queue) : (x.setQueue u q).str = x.str := by unfold Half.setQueue; exact (fun (a' : Dispatch) => (rfl : ({ x with disp := a' } : Half).str = x.str)) _
@[simp] theorem setQueue_sieve (x : Half) (u : Nat) (q : Queue) : (x.setQueue u q).sieve = x.sieve := by unfold Half.setQueue; exact (fun (a' : Dispatch) => (rfl : ({ x with disp := a' } : Half).sieve = x.sieve)) _
@[simp] theorem setQueue_sieveTimes (x : Half) (u : Nat) (q : Queue) : (x.setQueue u q).sieveTimes = x.sieveTimes := by unfold Half.setQueue; exact (fun (a' : Dispatch) => (rfl : ({ x with disp := a' } : Half).sieveTimes = x.sieveTimes)) _
@[simp] theorem setQueue_streams (x : Half) (u : Nat) (q : Queue) : (x.setQueue u q).streams = x.streams := by unfold Half.setQueue; exact (fun (a' : Dispatch) => (rfl : ({ x with disp := a' } : Half).streams = x.streams)) _
@[simp] theorem setQueue_win (x : Half) (u : Nat) (q : Queue) : (x.setQueue u q).win = x.win := by unfold Half.setQueue; exact (fun (a' : Dispatch) => (rfl : ({ x with disp := a' } : Half).win = x.win)) _
@[simp] theorem setQueue_tally (x : Half) (u : Nat) (q : Queue) : (x.setQueue u q).tally = x.tally := by unfold Half.setQueue; exact (fun (a' : Dispatch) => (rfl : ({ x with disp := a' } : Half).tally = x.tally)) _
@[simp] theorem setQueue_svc (x : Half) (u : Nat) (q : Queue) : (x.setQueue u q).svc = x.svc := by unfold Half.setQueue; exact (fun (a' : Dispatch) => (rfl : ({ x with disp := a' } : Half).svc = x.svc)) _
@[simp] theorem setQueue_mint (x : Half) (u : Nat) (q : Queue) : (x.setQueue u q).mint = x.mint := by unfold Half.setQueue; exact (fun (a' : Dispatch) => (rfl : ({ x with disp := a' } : Half).mint = x.mint)) _
@[simp] theorem setQueue_hatch (x : Half) (u : Nat) (q : Queue) : (x.setQueue u q).hatch = x.hatch := by unfold Half.setQueue; exact (fun (a' : Dispatch) => (rfl : ({ x with disp := a' } : Half).hatch = x.hatch)) _
@[simp] theorem setQueue_gtw (x : Half) (u : Nat) (q : Queue) : (x.setQueue u q).gtw = x.gtw := by unfold Half.setQueue; exact (fun (a' : Dispatch) => (rfl : ({ x with disp := a' } : Half).gtw = x.gtw)) _
@[simp] theorem setQueue_ports (x : Half) (u : Nat) (q : Queue) : (x.setQueue u q).ports = x.ports := by unfold Half.setQueue; exact (fun (a' : Dispatch) => (rfl : ({ x with disp := a' } : Half).ports = x.ports)) _
@[simp] theorem setQueue_dsp (x : Half) (u : Nat) (q : Queue) : (x.setQueue u q).dsp = x.dsp := by unfold Half.setQueue; exact (fun (a' : Dispatch) => (rfl : ({ x with disp := a' } : Half).dsp = x.dsp)) _
@[simp] theorem setQueue_fw (x : Half) (u : Nat) (q : Queue) : (x.setQueue u q).fw = x.fw := by unfold Half.setQueue; exact (fun (a' : Dispatch) => (rfl : ({ x with disp := a' } : Half).fw = x.fw)) _
@[simp] theorem setQueue_vaults (x : Half) (u : Nat) (q : Queue) : (x.setQueue u q).vaults = x.vaults := by unfold Half.setQueue; exact (fun (a' : Dispatch) => (rfl : ({ x with disp := a' } : Half).vaults = x.vaults)) _
@[simp] theorem setQueue_clk (x : Half) (u : Nat) (q : Queue) : (x.setQueue u q).clk = x.clk := by unfold Half.setQueue; exact (fun (a' : Dispatch) => (rfl : ({ x with disp := a' } : Half).clk = x.clk)) _
@[simp] theorem setQueue_incidents (x : Half) (u : Nat) (q : Queue) : (x.setQueue u q).incidents = x.incidents := by unfold Half.setQueue; exact (fun (a' : Dispatch) => (rfl : ({ x with disp := a' } : Half).incidents = x.incidents)) _
@[simp] theorem setQueue_incSeq (x : Half) (u : Nat) (q : Queue) : (x.setQueue u q).incSeq = x.incSeq := by unfold Half.setQueue; exact (fun (a' : Dispatch) => (rfl : ({ x with disp := a' } : Half).incSeq = x.incSeq)) _
@[simp] theorem setQueue_late (x : Half) (u : Nat) (q : Queue) : (x.setQueue u q).late = x.late := by unfold Half.setQueue; exact (fun (a' : Dispatch) => (rfl : ({ x with disp := a' } : Half).late = x.late)) _
@[simp] theorem setQueue_incCount (x : Half) (u : Nat) (q : Queue) : (x.setQueue u q).incCount = x.incCount := by unfold Half.setQueue; exact (fun (a' : Dispatch) => (rfl : ({ x with disp := a' } : Half).incCount = x.incCount)) _

@[simp] theorem updQueue_vt (x : Half) (u : Nat) (q : Queue → Queue) : (x.updQueue u q).vt = x.vt := by unfold Half.updQueue Half.setQueue; exact (fun (a' : Dispatch) => (rfl : ({ x with disp := a' } : Half).vt = x.vt)) _
@[simp] theorem updQueue_regs (x : Half) (u : Nat) (q : Queue → Queue) : (x.updQueue u q).regs = x.regs := by unfold Half.updQueue Half.setQueue; exact (fun (a' : Dispatch) => (rfl : ({ x with disp := a' } : Half).regs = x.regs)) _
@[simp] theorem updQueue_cores (x : Half) (u : Nat) (q : Queue → Queue) : (x.updQueue u q).cores = x.cores := by unfold Half.updQueue Half.setQueue; exact (fun (a' : Dispatch) => (rfl : ({ x with disp := a' } : Half).cores = x.cores)) _
@[simp] theorem updQueue_str (x : Half) (u : Nat) (q : Queue → Queue) : (x.updQueue u q).str = x.str := by unfold Half.updQueue Half.setQueue; exact (fun (a' : Dispatch) => (rfl : ({ x with disp := a' } : Half).str = x.str)) _
@[simp] theorem updQueue_sieve (x : Half) (u : Nat) (q : Queue → Queue) : (x.updQueue u q).sieve = x.sieve := by unfold Half.updQueue Half.setQueue; exact (fun (a' : Dispatch) => (rfl : ({ x with disp := a' } : Half).sieve = x.sieve)) _
@[simp] theorem updQueue_sieveTimes (x : Half) (u : Nat) (q : Queue → Queue) : (x.updQueue u q).sieveTimes = x.sieveTimes := by unfold Half.updQueue Half.setQueue; exact (fun (a' : Dispatch) => (rfl : ({ x with disp := a' } : Half).sieveTimes = x.sieveTimes)) _
@[simp] theorem updQueue_streams (x : Half) (u : Nat) (q : Queue → Queue) : (x.updQueue u q).streams = x.streams := by unfold Half.updQueue Half.setQueue; exact (fun (a' : Dispatch) => (rfl : ({ x with disp := a' } : Half).streams = x.streams)) _
@[simp] theorem updQueue_win (x : Half) (u : Nat) (q : Queue → Queue) : (x.updQueue u q).win = x.win := by unfold Half.updQueue Half.setQueue; exact (fun (a' : Dispatch) => (rfl : ({ x with disp := a' } : Half).win = x.win)) _
@[simp] theorem updQueue_tally (x : Half) (u : Nat) (q : Queue → Queue) : (x.updQueue u q).tally = x.tally := by unfold Half.updQueue Half.setQueue; exact (fun (a' : Dispatch) => (rfl : ({ x with disp := a' } : Half).tally = x.tally)) _
@[simp] theorem updQueue_svc (x : Half) (u : Nat) (q : Queue → Queue) : (x.updQueue u q).svc = x.svc := by unfold Half.updQueue Half.setQueue; exact (fun (a' : Dispatch) => (rfl : ({ x with disp := a' } : Half).svc = x.svc)) _
@[simp] theorem updQueue_mint (x : Half) (u : Nat) (q : Queue → Queue) : (x.updQueue u q).mint = x.mint := by unfold Half.updQueue Half.setQueue; exact (fun (a' : Dispatch) => (rfl : ({ x with disp := a' } : Half).mint = x.mint)) _
@[simp] theorem updQueue_hatch (x : Half) (u : Nat) (q : Queue → Queue) : (x.updQueue u q).hatch = x.hatch := by unfold Half.updQueue Half.setQueue; exact (fun (a' : Dispatch) => (rfl : ({ x with disp := a' } : Half).hatch = x.hatch)) _
@[simp] theorem updQueue_gtw (x : Half) (u : Nat) (q : Queue → Queue) : (x.updQueue u q).gtw = x.gtw := by unfold Half.updQueue Half.setQueue; exact (fun (a' : Dispatch) => (rfl : ({ x with disp := a' } : Half).gtw = x.gtw)) _
@[simp] theorem updQueue_ports (x : Half) (u : Nat) (q : Queue → Queue) : (x.updQueue u q).ports = x.ports := by unfold Half.updQueue Half.setQueue; exact (fun (a' : Dispatch) => (rfl : ({ x with disp := a' } : Half).ports = x.ports)) _
@[simp] theorem updQueue_dsp (x : Half) (u : Nat) (q : Queue → Queue) : (x.updQueue u q).dsp = x.dsp := by unfold Half.updQueue Half.setQueue; exact (fun (a' : Dispatch) => (rfl : ({ x with disp := a' } : Half).dsp = x.dsp)) _
@[simp] theorem updQueue_fw (x : Half) (u : Nat) (q : Queue → Queue) : (x.updQueue u q).fw = x.fw := by unfold Half.updQueue Half.setQueue; exact (fun (a' : Dispatch) => (rfl : ({ x with disp := a' } : Half).fw = x.fw)) _
@[simp] theorem updQueue_vaults (x : Half) (u : Nat) (q : Queue → Queue) : (x.updQueue u q).vaults = x.vaults := by unfold Half.updQueue Half.setQueue; exact (fun (a' : Dispatch) => (rfl : ({ x with disp := a' } : Half).vaults = x.vaults)) _
@[simp] theorem updQueue_clk (x : Half) (u : Nat) (q : Queue → Queue) : (x.updQueue u q).clk = x.clk := by unfold Half.updQueue Half.setQueue; exact (fun (a' : Dispatch) => (rfl : ({ x with disp := a' } : Half).clk = x.clk)) _
@[simp] theorem updQueue_incidents (x : Half) (u : Nat) (q : Queue → Queue) : (x.updQueue u q).incidents = x.incidents := by unfold Half.updQueue Half.setQueue; exact (fun (a' : Dispatch) => (rfl : ({ x with disp := a' } : Half).incidents = x.incidents)) _
@[simp] theorem updQueue_incSeq (x : Half) (u : Nat) (q : Queue → Queue) : (x.updQueue u q).incSeq = x.incSeq := by unfold Half.updQueue Half.setQueue; exact (fun (a' : Dispatch) => (rfl : ({ x with disp := a' } : Half).incSeq = x.incSeq)) _
@[simp] theorem updQueue_late (x : Half) (u : Nat) (q : Queue → Queue) : (x.updQueue u q).late = x.late := by unfold Half.updQueue Half.setQueue; exact (fun (a' : Dispatch) => (rfl : ({ x with disp := a' } : Half).late = x.late)) _
@[simp] theorem updQueue_incCount (x : Half) (u : Nat) (q : Queue → Queue) : (x.updQueue u q).incCount = x.incCount := by unfold Half.updQueue Half.setQueue; exact (fun (a' : Dispatch) => (rfl : ({ x with disp := a' } : Half).incCount = x.incCount)) _

@[simp] theorem setStream_vt (x : Half) (k : Nat) (v : Stream) : (x.setStream k v).vt = x.vt := by unfold Half.setStream; exact (fun (a' : List (Nat × Stream)) => (rfl : ({ x with streams := a' } : Half).vt = x.vt)) _
@[simp] theorem setStream_regs (x : Half) (k : Nat) (v : Stream) : (x.setStream k v).regs = x.regs := by unfold Half.setStream; exact (fun (a' : List (Nat × Stream)) => (rfl : ({ x with streams := a' } : Half).regs = x.regs)) _
@[simp] theorem setStream_cores (x : Half) (k : Nat) (v : Stream) : (x.setStream k v).cores = x.cores := by unfold Half.setStream; exact (fun (a' : List (Nat × Stream)) => (rfl : ({ x with streams := a' } : Half).cores = x.cores)) _
@[simp] theorem setStream_str (x : Half) (k : Nat) (v : Stream) : (x.setStream k v).str = x.str := by unfold Half.setStream; exact (fun (a' : List (Nat × Stream)) => (rfl : ({ x with streams := a' } : Half).str = x.str)) _
@[simp] theorem setStream_sieve (x : Half) (k : Nat) (v : Stream) : (x.setStream k v).sieve = x.sieve := by unfold Half.setStream; exact (fun (a' : List (Nat × Stream)) => (rfl : ({ x with streams := a' } : Half).sieve = x.sieve)) _
@[simp] theorem setStream_sieveTimes (x : Half) (k : Nat) (v : Stream) : (x.setStream k v).sieveTimes = x.sieveTimes := by unfold Half.setStream; exact (fun (a' : List (Nat × Stream)) => (rfl : ({ x with streams := a' } : Half).sieveTimes = x.sieveTimes)) _
@[simp] theorem setStream_win (x : Half) (k : Nat) (v : Stream) : (x.setStream k v).win = x.win := by unfold Half.setStream; exact (fun (a' : List (Nat × Stream)) => (rfl : ({ x with streams := a' } : Half).win = x.win)) _
@[simp] theorem setStream_disp (x : Half) (k : Nat) (v : Stream) : (x.setStream k v).disp = x.disp := by unfold Half.setStream; exact (fun (a' : List (Nat × Stream)) => (rfl : ({ x with streams := a' } : Half).disp = x.disp)) _
@[simp] theorem setStream_tally (x : Half) (k : Nat) (v : Stream) : (x.setStream k v).tally = x.tally := by unfold Half.setStream; exact (fun (a' : List (Nat × Stream)) => (rfl : ({ x with streams := a' } : Half).tally = x.tally)) _
@[simp] theorem setStream_svc (x : Half) (k : Nat) (v : Stream) : (x.setStream k v).svc = x.svc := by unfold Half.setStream; exact (fun (a' : List (Nat × Stream)) => (rfl : ({ x with streams := a' } : Half).svc = x.svc)) _
@[simp] theorem setStream_mint (x : Half) (k : Nat) (v : Stream) : (x.setStream k v).mint = x.mint := by unfold Half.setStream; exact (fun (a' : List (Nat × Stream)) => (rfl : ({ x with streams := a' } : Half).mint = x.mint)) _
@[simp] theorem setStream_hatch (x : Half) (k : Nat) (v : Stream) : (x.setStream k v).hatch = x.hatch := by unfold Half.setStream; exact (fun (a' : List (Nat × Stream)) => (rfl : ({ x with streams := a' } : Half).hatch = x.hatch)) _
@[simp] theorem setStream_gtw (x : Half) (k : Nat) (v : Stream) : (x.setStream k v).gtw = x.gtw := by unfold Half.setStream; exact (fun (a' : List (Nat × Stream)) => (rfl : ({ x with streams := a' } : Half).gtw = x.gtw)) _
@[simp] theorem setStream_ports (x : Half) (k : Nat) (v : Stream) : (x.setStream k v).ports = x.ports := by unfold Half.setStream; exact (fun (a' : List (Nat × Stream)) => (rfl : ({ x with streams := a' } : Half).ports = x.ports)) _
@[simp] theorem setStream_dsp (x : Half) (k : Nat) (v : Stream) : (x.setStream k v).dsp = x.dsp := by unfold Half.setStream; exact (fun (a' : List (Nat × Stream)) => (rfl : ({ x with streams := a' } : Half).dsp = x.dsp)) _
@[simp] theorem setStream_fw (x : Half) (k : Nat) (v : Stream) : (x.setStream k v).fw = x.fw := by unfold Half.setStream; exact (fun (a' : List (Nat × Stream)) => (rfl : ({ x with streams := a' } : Half).fw = x.fw)) _
@[simp] theorem setStream_vaults (x : Half) (k : Nat) (v : Stream) : (x.setStream k v).vaults = x.vaults := by unfold Half.setStream; exact (fun (a' : List (Nat × Stream)) => (rfl : ({ x with streams := a' } : Half).vaults = x.vaults)) _
@[simp] theorem setStream_clk (x : Half) (k : Nat) (v : Stream) : (x.setStream k v).clk = x.clk := by unfold Half.setStream; exact (fun (a' : List (Nat × Stream)) => (rfl : ({ x with streams := a' } : Half).clk = x.clk)) _
@[simp] theorem setStream_incidents (x : Half) (k : Nat) (v : Stream) : (x.setStream k v).incidents = x.incidents := by unfold Half.setStream; exact (fun (a' : List (Nat × Stream)) => (rfl : ({ x with streams := a' } : Half).incidents = x.incidents)) _
@[simp] theorem setStream_incSeq (x : Half) (k : Nat) (v : Stream) : (x.setStream k v).incSeq = x.incSeq := by unfold Half.setStream; exact (fun (a' : List (Nat × Stream)) => (rfl : ({ x with streams := a' } : Half).incSeq = x.incSeq)) _
@[simp] theorem setStream_late (x : Half) (k : Nat) (v : Stream) : (x.setStream k v).late = x.late := by unfold Half.setStream; exact (fun (a' : List (Nat × Stream)) => (rfl : ({ x with streams := a' } : Half).late = x.late)) _
@[simp] theorem setStream_incCount (x : Half) (k : Nat) (v : Stream) : (x.setStream k v).incCount = x.incCount := by unfold Half.setStream; exact (fun (a' : List (Nat × Stream)) => (rfl : ({ x with streams := a' } : Half).incCount = x.incCount)) _

@[simp] theorem setInst_vt (x : Half) (n : Nat) (i : Inst) : (x.setInst n i).vt = x.vt := by unfold Half.setInst; exact (fun (a' : Window) => (rfl : ({ x with win := a' } : Half).vt = x.vt)) _
@[simp] theorem setInst_regs (x : Half) (n : Nat) (i : Inst) : (x.setInst n i).regs = x.regs := by unfold Half.setInst; exact (fun (a' : Window) => (rfl : ({ x with win := a' } : Half).regs = x.regs)) _
@[simp] theorem setInst_cores (x : Half) (n : Nat) (i : Inst) : (x.setInst n i).cores = x.cores := by unfold Half.setInst; exact (fun (a' : Window) => (rfl : ({ x with win := a' } : Half).cores = x.cores)) _
@[simp] theorem setInst_str (x : Half) (n : Nat) (i : Inst) : (x.setInst n i).str = x.str := by unfold Half.setInst; exact (fun (a' : Window) => (rfl : ({ x with win := a' } : Half).str = x.str)) _
@[simp] theorem setInst_sieve (x : Half) (n : Nat) (i : Inst) : (x.setInst n i).sieve = x.sieve := by unfold Half.setInst; exact (fun (a' : Window) => (rfl : ({ x with win := a' } : Half).sieve = x.sieve)) _
@[simp] theorem setInst_sieveTimes (x : Half) (n : Nat) (i : Inst) : (x.setInst n i).sieveTimes = x.sieveTimes := by unfold Half.setInst; exact (fun (a' : Window) => (rfl : ({ x with win := a' } : Half).sieveTimes = x.sieveTimes)) _
@[simp] theorem setInst_streams (x : Half) (n : Nat) (i : Inst) : (x.setInst n i).streams = x.streams := by unfold Half.setInst; exact (fun (a' : Window) => (rfl : ({ x with win := a' } : Half).streams = x.streams)) _
@[simp] theorem setInst_disp (x : Half) (n : Nat) (i : Inst) : (x.setInst n i).disp = x.disp := by unfold Half.setInst; exact (fun (a' : Window) => (rfl : ({ x with win := a' } : Half).disp = x.disp)) _
@[simp] theorem setInst_tally (x : Half) (n : Nat) (i : Inst) : (x.setInst n i).tally = x.tally := by unfold Half.setInst; exact (fun (a' : Window) => (rfl : ({ x with win := a' } : Half).tally = x.tally)) _
@[simp] theorem setInst_svc (x : Half) (n : Nat) (i : Inst) : (x.setInst n i).svc = x.svc := by unfold Half.setInst; exact (fun (a' : Window) => (rfl : ({ x with win := a' } : Half).svc = x.svc)) _
@[simp] theorem setInst_mint (x : Half) (n : Nat) (i : Inst) : (x.setInst n i).mint = x.mint := by unfold Half.setInst; exact (fun (a' : Window) => (rfl : ({ x with win := a' } : Half).mint = x.mint)) _
@[simp] theorem setInst_hatch (x : Half) (n : Nat) (i : Inst) : (x.setInst n i).hatch = x.hatch := by unfold Half.setInst; exact (fun (a' : Window) => (rfl : ({ x with win := a' } : Half).hatch = x.hatch)) _
@[simp] theorem setInst_gtw (x : Half) (n : Nat) (i : Inst) : (x.setInst n i).gtw = x.gtw := by unfold Half.setInst; exact (fun (a' : Window) => (rfl : ({ x with win := a' } : Half).gtw = x.gtw)) _
@[simp] theorem setInst_ports (x : Half) (n : Nat) (i : Inst) : (x.setInst n i).ports = x.ports := by unfold Half.setInst; exact (fun (a' : Window) => (rfl : ({ x with win := a' } : Half).ports = x.ports)) _
@[simp] theorem setInst_dsp (x : Half) (n : Nat) (i : Inst) : (x.setInst n i).dsp = x.dsp := by unfold Half.setInst; exact (fun (a' : Window) => (rfl : ({ x with win := a' } : Half).dsp = x.dsp)) _
@[simp] theorem setInst_fw (x : Half) (n : Nat) (i : Inst) : (x.setInst n i).fw = x.fw := by unfold Half.setInst; exact (fun (a' : Window) => (rfl : ({ x with win := a' } : Half).fw = x.fw)) _
@[simp] theorem setInst_vaults (x : Half) (n : Nat) (i : Inst) : (x.setInst n i).vaults = x.vaults := by unfold Half.setInst; exact (fun (a' : Window) => (rfl : ({ x with win := a' } : Half).vaults = x.vaults)) _
@[simp] theorem setInst_clk (x : Half) (n : Nat) (i : Inst) : (x.setInst n i).clk = x.clk := by unfold Half.setInst; exact (fun (a' : Window) => (rfl : ({ x with win := a' } : Half).clk = x.clk)) _
@[simp] theorem setInst_incidents (x : Half) (n : Nat) (i : Inst) : (x.setInst n i).incidents = x.incidents := by unfold Half.setInst; exact (fun (a' : Window) => (rfl : ({ x with win := a' } : Half).incidents = x.incidents)) _
@[simp] theorem setInst_incSeq (x : Half) (n : Nat) (i : Inst) : (x.setInst n i).incSeq = x.incSeq := by unfold Half.setInst; exact (fun (a' : Window) => (rfl : ({ x with win := a' } : Half).incSeq = x.incSeq)) _
@[simp] theorem setInst_late (x : Half) (n : Nat) (i : Inst) : (x.setInst n i).late = x.late := by unfold Half.setInst; exact (fun (a' : Window) => (rfl : ({ x with win := a' } : Half).late = x.late)) _
@[simp] theorem setInst_incCount (x : Half) (n : Nat) (i : Inst) : (x.setInst n i).incCount = x.incCount := by unfold Half.setInst; exact (fun (a' : Window) => (rfl : ({ x with win := a' } : Half).incCount = x.incCount)) _

@[simp] theorem setTask_vt (x : Half) (t : Nat) (k : Task) : (x.setTask t k).vt = x.vt := by unfold Half.setTask; exact (fun (a' : Tally) => (rfl : ({ x with tally := a' } : Half).vt = x.vt)) _
@[simp] theorem setTask_regs (x : Half) (t : Nat) (k : Task) : (x.setTask t k).regs = x.regs := by unfold Half.setTask; exact (fun (a' : Tally) => (rfl : ({ x with tally := a' } : Half).regs = x.regs)) _
@[simp] theorem setTask_cores (x : Half) (t : Nat) (k : Task) : (x.setTask t k).cores = x.cores := by unfold Half.setTask; exact (fun (a' : Tally) => (rfl : ({ x with tally := a' } : Half).cores = x.cores)) _
@[simp] theorem setTask_str (x : Half) (t : Nat) (k : Task) : (x.setTask t k).str = x.str := by unfold Half.setTask; exact (fun (a' : Tally) => (rfl : ({ x with tally := a' } : Half).str = x.str)) _
@[simp] theorem setTask_sieve (x : Half) (t : Nat) (k : Task) : (x.setTask t k).sieve = x.sieve := by unfold Half.setTask; exact (fun (a' : Tally) => (rfl : ({ x with tally := a' } : Half).sieve = x.sieve)) _
@[simp] theorem setTask_sieveTimes (x : Half) (t : Nat) (k : Task) : (x.setTask t k).sieveTimes = x.sieveTimes := by unfold Half.setTask; exact (fun (a' : Tally) => (rfl : ({ x with tally := a' } : Half).sieveTimes = x.sieveTimes)) _
@[simp] theorem setTask_streams (x : Half) (t : Nat) (k : Task) : (x.setTask t k).streams = x.streams := by unfold Half.setTask; exact (fun (a' : Tally) => (rfl : ({ x with tally := a' } : Half).streams = x.streams)) _
@[simp] theorem setTask_win (x : Half) (t : Nat) (k : Task) : (x.setTask t k).win = x.win := by unfold Half.setTask; exact (fun (a' : Tally) => (rfl : ({ x with tally := a' } : Half).win = x.win)) _
@[simp] theorem setTask_disp (x : Half) (t : Nat) (k : Task) : (x.setTask t k).disp = x.disp := by unfold Half.setTask; exact (fun (a' : Tally) => (rfl : ({ x with tally := a' } : Half).disp = x.disp)) _
@[simp] theorem setTask_svc (x : Half) (t : Nat) (k : Task) : (x.setTask t k).svc = x.svc := by unfold Half.setTask; exact (fun (a' : Tally) => (rfl : ({ x with tally := a' } : Half).svc = x.svc)) _
@[simp] theorem setTask_mint (x : Half) (t : Nat) (k : Task) : (x.setTask t k).mint = x.mint := by unfold Half.setTask; exact (fun (a' : Tally) => (rfl : ({ x with tally := a' } : Half).mint = x.mint)) _
@[simp] theorem setTask_hatch (x : Half) (t : Nat) (k : Task) : (x.setTask t k).hatch = x.hatch := by unfold Half.setTask; exact (fun (a' : Tally) => (rfl : ({ x with tally := a' } : Half).hatch = x.hatch)) _
@[simp] theorem setTask_gtw (x : Half) (t : Nat) (k : Task) : (x.setTask t k).gtw = x.gtw := by unfold Half.setTask; exact (fun (a' : Tally) => (rfl : ({ x with tally := a' } : Half).gtw = x.gtw)) _
@[simp] theorem setTask_ports (x : Half) (t : Nat) (k : Task) : (x.setTask t k).ports = x.ports := by unfold Half.setTask; exact (fun (a' : Tally) => (rfl : ({ x with tally := a' } : Half).ports = x.ports)) _
@[simp] theorem setTask_dsp (x : Half) (t : Nat) (k : Task) : (x.setTask t k).dsp = x.dsp := by unfold Half.setTask; exact (fun (a' : Tally) => (rfl : ({ x with tally := a' } : Half).dsp = x.dsp)) _
@[simp] theorem setTask_fw (x : Half) (t : Nat) (k : Task) : (x.setTask t k).fw = x.fw := by unfold Half.setTask; exact (fun (a' : Tally) => (rfl : ({ x with tally := a' } : Half).fw = x.fw)) _
@[simp] theorem setTask_vaults (x : Half) (t : Nat) (k : Task) : (x.setTask t k).vaults = x.vaults := by unfold Half.setTask; exact (fun (a' : Tally) => (rfl : ({ x with tally := a' } : Half).vaults = x.vaults)) _
@[simp] theorem setTask_clk (x : Half) (t : Nat) (k : Task) : (x.setTask t k).clk = x.clk := by unfold Half.setTask; exact (fun (a' : Tally) => (rfl : ({ x with tally := a' } : Half).clk = x.clk)) _
@[simp] theorem setTask_incidents (x : Half) (t : Nat) (k : Task) : (x.setTask t k).incidents = x.incidents := by unfold Half.setTask; exact (fun (a' : Tally) => (rfl : ({ x with tally := a' } : Half).incidents = x.incidents)) _
@[simp] theorem setTask_incSeq (x : Half) (t : Nat) (k : Task) : (x.setTask t k).incSeq = x.incSeq := by unfold Half.setTask; exact (fun (a' : Tally) => (rfl : ({ x with tally := a' } : Half).incSeq = x.incSeq)) _
@[simp] theorem setTask_late (x : Half) (t : Nat) (k : Task) : (x.setTask t k).late = x.late := by unfold Half.setTask; exact (fun (a' : Tally) => (rfl : ({ x with tally := a' } : Half).late = x.late)) _
@[simp] theorem setTask_incCount (x : Half) (t : Nat) (k : Task) : (x.setTask t k).incCount = x.incCount := by unfold Half.setTask; exact (fun (a' : Tally) => (rfl : ({ x with tally := a' } : Half).incCount = x.incCount)) _

@[simp] theorem setRing_vt (x : Half) (p : Nat) (r : Ring) : (x.setRing p r).vt = x.vt := by unfold Half.setRing; exact (fun (a' : Ports) => (rfl : ({ x with ports := a' } : Half).vt = x.vt)) _
@[simp] theorem setRing_regs (x : Half) (p : Nat) (r : Ring) : (x.setRing p r).regs = x.regs := by unfold Half.setRing; exact (fun (a' : Ports) => (rfl : ({ x with ports := a' } : Half).regs = x.regs)) _
@[simp] theorem setRing_cores (x : Half) (p : Nat) (r : Ring) : (x.setRing p r).cores = x.cores := by unfold Half.setRing; exact (fun (a' : Ports) => (rfl : ({ x with ports := a' } : Half).cores = x.cores)) _
@[simp] theorem setRing_str (x : Half) (p : Nat) (r : Ring) : (x.setRing p r).str = x.str := by unfold Half.setRing; exact (fun (a' : Ports) => (rfl : ({ x with ports := a' } : Half).str = x.str)) _
@[simp] theorem setRing_sieve (x : Half) (p : Nat) (r : Ring) : (x.setRing p r).sieve = x.sieve := by unfold Half.setRing; exact (fun (a' : Ports) => (rfl : ({ x with ports := a' } : Half).sieve = x.sieve)) _
@[simp] theorem setRing_sieveTimes (x : Half) (p : Nat) (r : Ring) : (x.setRing p r).sieveTimes = x.sieveTimes := by unfold Half.setRing; exact (fun (a' : Ports) => (rfl : ({ x with ports := a' } : Half).sieveTimes = x.sieveTimes)) _
@[simp] theorem setRing_streams (x : Half) (p : Nat) (r : Ring) : (x.setRing p r).streams = x.streams := by unfold Half.setRing; exact (fun (a' : Ports) => (rfl : ({ x with ports := a' } : Half).streams = x.streams)) _
@[simp] theorem setRing_win (x : Half) (p : Nat) (r : Ring) : (x.setRing p r).win = x.win := by unfold Half.setRing; exact (fun (a' : Ports) => (rfl : ({ x with ports := a' } : Half).win = x.win)) _
@[simp] theorem setRing_disp (x : Half) (p : Nat) (r : Ring) : (x.setRing p r).disp = x.disp := by unfold Half.setRing; exact (fun (a' : Ports) => (rfl : ({ x with ports := a' } : Half).disp = x.disp)) _
@[simp] theorem setRing_tally (x : Half) (p : Nat) (r : Ring) : (x.setRing p r).tally = x.tally := by unfold Half.setRing; exact (fun (a' : Ports) => (rfl : ({ x with ports := a' } : Half).tally = x.tally)) _
@[simp] theorem setRing_svc (x : Half) (p : Nat) (r : Ring) : (x.setRing p r).svc = x.svc := by unfold Half.setRing; exact (fun (a' : Ports) => (rfl : ({ x with ports := a' } : Half).svc = x.svc)) _
@[simp] theorem setRing_mint (x : Half) (p : Nat) (r : Ring) : (x.setRing p r).mint = x.mint := by unfold Half.setRing; exact (fun (a' : Ports) => (rfl : ({ x with ports := a' } : Half).mint = x.mint)) _
@[simp] theorem setRing_hatch (x : Half) (p : Nat) (r : Ring) : (x.setRing p r).hatch = x.hatch := by unfold Half.setRing; exact (fun (a' : Ports) => (rfl : ({ x with ports := a' } : Half).hatch = x.hatch)) _
@[simp] theorem setRing_gtw (x : Half) (p : Nat) (r : Ring) : (x.setRing p r).gtw = x.gtw := by unfold Half.setRing; exact (fun (a' : Ports) => (rfl : ({ x with ports := a' } : Half).gtw = x.gtw)) _
@[simp] theorem setRing_dsp (x : Half) (p : Nat) (r : Ring) : (x.setRing p r).dsp = x.dsp := by unfold Half.setRing; exact (fun (a' : Ports) => (rfl : ({ x with ports := a' } : Half).dsp = x.dsp)) _
@[simp] theorem setRing_fw (x : Half) (p : Nat) (r : Ring) : (x.setRing p r).fw = x.fw := by unfold Half.setRing; exact (fun (a' : Ports) => (rfl : ({ x with ports := a' } : Half).fw = x.fw)) _
@[simp] theorem setRing_vaults (x : Half) (p : Nat) (r : Ring) : (x.setRing p r).vaults = x.vaults := by unfold Half.setRing; exact (fun (a' : Ports) => (rfl : ({ x with ports := a' } : Half).vaults = x.vaults)) _
@[simp] theorem setRing_clk (x : Half) (p : Nat) (r : Ring) : (x.setRing p r).clk = x.clk := by unfold Half.setRing; exact (fun (a' : Ports) => (rfl : ({ x with ports := a' } : Half).clk = x.clk)) _
@[simp] theorem setRing_incidents (x : Half) (p : Nat) (r : Ring) : (x.setRing p r).incidents = x.incidents := by unfold Half.setRing; exact (fun (a' : Ports) => (rfl : ({ x with ports := a' } : Half).incidents = x.incidents)) _
@[simp] theorem setRing_incSeq (x : Half) (p : Nat) (r : Ring) : (x.setRing p r).incSeq = x.incSeq := by unfold Half.setRing; exact (fun (a' : Ports) => (rfl : ({ x with ports := a' } : Half).incSeq = x.incSeq)) _
@[simp] theorem setRing_late (x : Half) (p : Nat) (r : Ring) : (x.setRing p r).late = x.late := by unfold Half.setRing; exact (fun (a' : Ports) => (rfl : ({ x with ports := a' } : Half).late = x.late)) _
@[simp] theorem setRing_incCount (x : Half) (p : Nat) (r : Ring) : (x.setRing p r).incCount = x.incCount := by unfold Half.setRing; exact (fun (a' : Ports) => (rfl : ({ x with ports := a' } : Half).incCount = x.incCount)) _

@[simp] theorem setSession_vt (x : Half) (p : Nat) (r : Option Session) : (x.setSession p r).vt = x.vt := by unfold Half.setSession; exact (fun (a' : Ports) => (rfl : ({ x with ports := a' } : Half).vt = x.vt)) _
@[simp] theorem setSession_regs (x : Half) (p : Nat) (r : Option Session) : (x.setSession p r).regs = x.regs := by unfold Half.setSession; exact (fun (a' : Ports) => (rfl : ({ x with ports := a' } : Half).regs = x.regs)) _
@[simp] theorem setSession_cores (x : Half) (p : Nat) (r : Option Session) : (x.setSession p r).cores = x.cores := by unfold Half.setSession; exact (fun (a' : Ports) => (rfl : ({ x with ports := a' } : Half).cores = x.cores)) _
@[simp] theorem setSession_str (x : Half) (p : Nat) (r : Option Session) : (x.setSession p r).str = x.str := by unfold Half.setSession; exact (fun (a' : Ports) => (rfl : ({ x with ports := a' } : Half).str = x.str)) _
@[simp] theorem setSession_sieve (x : Half) (p : Nat) (r : Option Session) : (x.setSession p r).sieve = x.sieve := by unfold Half.setSession; exact (fun (a' : Ports) => (rfl : ({ x with ports := a' } : Half).sieve = x.sieve)) _
@[simp] theorem setSession_sieveTimes (x : Half) (p : Nat) (r : Option Session) : (x.setSession p r).sieveTimes = x.sieveTimes := by unfold Half.setSession; exact (fun (a' : Ports) => (rfl : ({ x with ports := a' } : Half).sieveTimes = x.sieveTimes)) _
@[simp] theorem setSession_streams (x : Half) (p : Nat) (r : Option Session) : (x.setSession p r).streams = x.streams := by unfold Half.setSession; exact (fun (a' : Ports) => (rfl : ({ x with ports := a' } : Half).streams = x.streams)) _
@[simp] theorem setSession_win (x : Half) (p : Nat) (r : Option Session) : (x.setSession p r).win = x.win := by unfold Half.setSession; exact (fun (a' : Ports) => (rfl : ({ x with ports := a' } : Half).win = x.win)) _
@[simp] theorem setSession_disp (x : Half) (p : Nat) (r : Option Session) : (x.setSession p r).disp = x.disp := by unfold Half.setSession; exact (fun (a' : Ports) => (rfl : ({ x with ports := a' } : Half).disp = x.disp)) _
@[simp] theorem setSession_tally (x : Half) (p : Nat) (r : Option Session) : (x.setSession p r).tally = x.tally := by unfold Half.setSession; exact (fun (a' : Ports) => (rfl : ({ x with ports := a' } : Half).tally = x.tally)) _
@[simp] theorem setSession_svc (x : Half) (p : Nat) (r : Option Session) : (x.setSession p r).svc = x.svc := by unfold Half.setSession; exact (fun (a' : Ports) => (rfl : ({ x with ports := a' } : Half).svc = x.svc)) _
@[simp] theorem setSession_mint (x : Half) (p : Nat) (r : Option Session) : (x.setSession p r).mint = x.mint := by unfold Half.setSession; exact (fun (a' : Ports) => (rfl : ({ x with ports := a' } : Half).mint = x.mint)) _
@[simp] theorem setSession_hatch (x : Half) (p : Nat) (r : Option Session) : (x.setSession p r).hatch = x.hatch := by unfold Half.setSession; exact (fun (a' : Ports) => (rfl : ({ x with ports := a' } : Half).hatch = x.hatch)) _
@[simp] theorem setSession_gtw (x : Half) (p : Nat) (r : Option Session) : (x.setSession p r).gtw = x.gtw := by unfold Half.setSession; exact (fun (a' : Ports) => (rfl : ({ x with ports := a' } : Half).gtw = x.gtw)) _
@[simp] theorem setSession_dsp (x : Half) (p : Nat) (r : Option Session) : (x.setSession p r).dsp = x.dsp := by unfold Half.setSession; exact (fun (a' : Ports) => (rfl : ({ x with ports := a' } : Half).dsp = x.dsp)) _
@[simp] theorem setSession_fw (x : Half) (p : Nat) (r : Option Session) : (x.setSession p r).fw = x.fw := by unfold Half.setSession; exact (fun (a' : Ports) => (rfl : ({ x with ports := a' } : Half).fw = x.fw)) _
@[simp] theorem setSession_vaults (x : Half) (p : Nat) (r : Option Session) : (x.setSession p r).vaults = x.vaults := by unfold Half.setSession; exact (fun (a' : Ports) => (rfl : ({ x with ports := a' } : Half).vaults = x.vaults)) _
@[simp] theorem setSession_clk (x : Half) (p : Nat) (r : Option Session) : (x.setSession p r).clk = x.clk := by unfold Half.setSession; exact (fun (a' : Ports) => (rfl : ({ x with ports := a' } : Half).clk = x.clk)) _
@[simp] theorem setSession_incidents (x : Half) (p : Nat) (r : Option Session) : (x.setSession p r).incidents = x.incidents := by unfold Half.setSession; exact (fun (a' : Ports) => (rfl : ({ x with ports := a' } : Half).incidents = x.incidents)) _
@[simp] theorem setSession_incSeq (x : Half) (p : Nat) (r : Option Session) : (x.setSession p r).incSeq = x.incSeq := by unfold Half.setSession; exact (fun (a' : Ports) => (rfl : ({ x with ports := a' } : Half).incSeq = x.incSeq)) _
@[simp] theorem setSession_late (x : Half) (p : Nat) (r : Option Session) : (x.setSession p r).late = x.late := by unfold Half.setSession; exact (fun (a' : Ports) => (rfl : ({ x with ports := a' } : Half).late = x.late)) _
@[simp] theorem setSession_incCount (x : Half) (p : Nat) (r : Option Session) : (x.setSession p r).incCount = x.incCount := by unfold Half.setSession; exact (fun (a' : Ports) => (rfl : ({ x with ports := a' } : Half).incCount = x.incCount)) _

@[simp] theorem setPipe_vt (x : Half) (p : Nat) (r : Pipe) : (x.setPipe p r).vt = x.vt := by unfold Half.setPipe; exact (fun (a' : Display) => (rfl : ({ x with dsp := a' } : Half).vt = x.vt)) _
@[simp] theorem setPipe_regs (x : Half) (p : Nat) (r : Pipe) : (x.setPipe p r).regs = x.regs := by unfold Half.setPipe; exact (fun (a' : Display) => (rfl : ({ x with dsp := a' } : Half).regs = x.regs)) _
@[simp] theorem setPipe_cores (x : Half) (p : Nat) (r : Pipe) : (x.setPipe p r).cores = x.cores := by unfold Half.setPipe; exact (fun (a' : Display) => (rfl : ({ x with dsp := a' } : Half).cores = x.cores)) _
@[simp] theorem setPipe_str (x : Half) (p : Nat) (r : Pipe) : (x.setPipe p r).str = x.str := by unfold Half.setPipe; exact (fun (a' : Display) => (rfl : ({ x with dsp := a' } : Half).str = x.str)) _
@[simp] theorem setPipe_sieve (x : Half) (p : Nat) (r : Pipe) : (x.setPipe p r).sieve = x.sieve := by unfold Half.setPipe; exact (fun (a' : Display) => (rfl : ({ x with dsp := a' } : Half).sieve = x.sieve)) _
@[simp] theorem setPipe_sieveTimes (x : Half) (p : Nat) (r : Pipe) : (x.setPipe p r).sieveTimes = x.sieveTimes := by unfold Half.setPipe; exact (fun (a' : Display) => (rfl : ({ x with dsp := a' } : Half).sieveTimes = x.sieveTimes)) _
@[simp] theorem setPipe_streams (x : Half) (p : Nat) (r : Pipe) : (x.setPipe p r).streams = x.streams := by unfold Half.setPipe; exact (fun (a' : Display) => (rfl : ({ x with dsp := a' } : Half).streams = x.streams)) _
@[simp] theorem setPipe_win (x : Half) (p : Nat) (r : Pipe) : (x.setPipe p r).win = x.win := by unfold Half.setPipe; exact (fun (a' : Display) => (rfl : ({ x with dsp := a' } : Half).win = x.win)) _
@[simp] theorem setPipe_disp (x : Half) (p : Nat) (r : Pipe) : (x.setPipe p r).disp = x.disp := by unfold Half.setPipe; exact (fun (a' : Display) => (rfl : ({ x with dsp := a' } : Half).disp = x.disp)) _
@[simp] theorem setPipe_tally (x : Half) (p : Nat) (r : Pipe) : (x.setPipe p r).tally = x.tally := by unfold Half.setPipe; exact (fun (a' : Display) => (rfl : ({ x with dsp := a' } : Half).tally = x.tally)) _
@[simp] theorem setPipe_svc (x : Half) (p : Nat) (r : Pipe) : (x.setPipe p r).svc = x.svc := by unfold Half.setPipe; exact (fun (a' : Display) => (rfl : ({ x with dsp := a' } : Half).svc = x.svc)) _
@[simp] theorem setPipe_mint (x : Half) (p : Nat) (r : Pipe) : (x.setPipe p r).mint = x.mint := by unfold Half.setPipe; exact (fun (a' : Display) => (rfl : ({ x with dsp := a' } : Half).mint = x.mint)) _
@[simp] theorem setPipe_hatch (x : Half) (p : Nat) (r : Pipe) : (x.setPipe p r).hatch = x.hatch := by unfold Half.setPipe; exact (fun (a' : Display) => (rfl : ({ x with dsp := a' } : Half).hatch = x.hatch)) _
@[simp] theorem setPipe_gtw (x : Half) (p : Nat) (r : Pipe) : (x.setPipe p r).gtw = x.gtw := by unfold Half.setPipe; exact (fun (a' : Display) => (rfl : ({ x with dsp := a' } : Half).gtw = x.gtw)) _
@[simp] theorem setPipe_ports (x : Half) (p : Nat) (r : Pipe) : (x.setPipe p r).ports = x.ports := by unfold Half.setPipe; exact (fun (a' : Display) => (rfl : ({ x with dsp := a' } : Half).ports = x.ports)) _
@[simp] theorem setPipe_fw (x : Half) (p : Nat) (r : Pipe) : (x.setPipe p r).fw = x.fw := by unfold Half.setPipe; exact (fun (a' : Display) => (rfl : ({ x with dsp := a' } : Half).fw = x.fw)) _
@[simp] theorem setPipe_vaults (x : Half) (p : Nat) (r : Pipe) : (x.setPipe p r).vaults = x.vaults := by unfold Half.setPipe; exact (fun (a' : Display) => (rfl : ({ x with dsp := a' } : Half).vaults = x.vaults)) _
@[simp] theorem setPipe_clk (x : Half) (p : Nat) (r : Pipe) : (x.setPipe p r).clk = x.clk := by unfold Half.setPipe; exact (fun (a' : Display) => (rfl : ({ x with dsp := a' } : Half).clk = x.clk)) _
@[simp] theorem setPipe_incidents (x : Half) (p : Nat) (r : Pipe) : (x.setPipe p r).incidents = x.incidents := by unfold Half.setPipe; exact (fun (a' : Display) => (rfl : ({ x with dsp := a' } : Half).incidents = x.incidents)) _
@[simp] theorem setPipe_incSeq (x : Half) (p : Nat) (r : Pipe) : (x.setPipe p r).incSeq = x.incSeq := by unfold Half.setPipe; exact (fun (a' : Display) => (rfl : ({ x with dsp := a' } : Half).incSeq = x.incSeq)) _
@[simp] theorem setPipe_late (x : Half) (p : Nat) (r : Pipe) : (x.setPipe p r).late = x.late := by unfold Half.setPipe; exact (fun (a' : Display) => (rfl : ({ x with dsp := a' } : Half).late = x.late)) _
@[simp] theorem setPipe_incCount (x : Half) (p : Nat) (r : Pipe) : (x.setPipe p r).incCount = x.incCount := by unfold Half.setPipe; exact (fun (a' : Display) => (rfl : ({ x with dsp := a' } : Half).incCount = x.incCount)) _

@[simp] theorem setHart_vt (x : Half) (n : Nat) (r : Hart) : (x.setHart n r).vt = x.vt := by unfold Half.setHart; exact (fun (a' : Vaults) => (rfl : ({ x with vaults := a' } : Half).vt = x.vt)) _
@[simp] theorem setHart_regs (x : Half) (n : Nat) (r : Hart) : (x.setHart n r).regs = x.regs := by unfold Half.setHart; exact (fun (a' : Vaults) => (rfl : ({ x with vaults := a' } : Half).regs = x.regs)) _
@[simp] theorem setHart_cores (x : Half) (n : Nat) (r : Hart) : (x.setHart n r).cores = x.cores := by unfold Half.setHart; exact (fun (a' : Vaults) => (rfl : ({ x with vaults := a' } : Half).cores = x.cores)) _
@[simp] theorem setHart_str (x : Half) (n : Nat) (r : Hart) : (x.setHart n r).str = x.str := by unfold Half.setHart; exact (fun (a' : Vaults) => (rfl : ({ x with vaults := a' } : Half).str = x.str)) _
@[simp] theorem setHart_sieve (x : Half) (n : Nat) (r : Hart) : (x.setHart n r).sieve = x.sieve := by unfold Half.setHart; exact (fun (a' : Vaults) => (rfl : ({ x with vaults := a' } : Half).sieve = x.sieve)) _
@[simp] theorem setHart_sieveTimes (x : Half) (n : Nat) (r : Hart) : (x.setHart n r).sieveTimes = x.sieveTimes := by unfold Half.setHart; exact (fun (a' : Vaults) => (rfl : ({ x with vaults := a' } : Half).sieveTimes = x.sieveTimes)) _
@[simp] theorem setHart_streams (x : Half) (n : Nat) (r : Hart) : (x.setHart n r).streams = x.streams := by unfold Half.setHart; exact (fun (a' : Vaults) => (rfl : ({ x with vaults := a' } : Half).streams = x.streams)) _
@[simp] theorem setHart_win (x : Half) (n : Nat) (r : Hart) : (x.setHart n r).win = x.win := by unfold Half.setHart; exact (fun (a' : Vaults) => (rfl : ({ x with vaults := a' } : Half).win = x.win)) _
@[simp] theorem setHart_disp (x : Half) (n : Nat) (r : Hart) : (x.setHart n r).disp = x.disp := by unfold Half.setHart; exact (fun (a' : Vaults) => (rfl : ({ x with vaults := a' } : Half).disp = x.disp)) _
@[simp] theorem setHart_tally (x : Half) (n : Nat) (r : Hart) : (x.setHart n r).tally = x.tally := by unfold Half.setHart; exact (fun (a' : Vaults) => (rfl : ({ x with vaults := a' } : Half).tally = x.tally)) _
@[simp] theorem setHart_svc (x : Half) (n : Nat) (r : Hart) : (x.setHart n r).svc = x.svc := by unfold Half.setHart; exact (fun (a' : Vaults) => (rfl : ({ x with vaults := a' } : Half).svc = x.svc)) _
@[simp] theorem setHart_mint (x : Half) (n : Nat) (r : Hart) : (x.setHart n r).mint = x.mint := by unfold Half.setHart; exact (fun (a' : Vaults) => (rfl : ({ x with vaults := a' } : Half).mint = x.mint)) _
@[simp] theorem setHart_hatch (x : Half) (n : Nat) (r : Hart) : (x.setHart n r).hatch = x.hatch := by unfold Half.setHart; exact (fun (a' : Vaults) => (rfl : ({ x with vaults := a' } : Half).hatch = x.hatch)) _
@[simp] theorem setHart_gtw (x : Half) (n : Nat) (r : Hart) : (x.setHart n r).gtw = x.gtw := by unfold Half.setHart; exact (fun (a' : Vaults) => (rfl : ({ x with vaults := a' } : Half).gtw = x.gtw)) _
@[simp] theorem setHart_ports (x : Half) (n : Nat) (r : Hart) : (x.setHart n r).ports = x.ports := by unfold Half.setHart; exact (fun (a' : Vaults) => (rfl : ({ x with vaults := a' } : Half).ports = x.ports)) _
@[simp] theorem setHart_dsp (x : Half) (n : Nat) (r : Hart) : (x.setHart n r).dsp = x.dsp := by unfold Half.setHart; exact (fun (a' : Vaults) => (rfl : ({ x with vaults := a' } : Half).dsp = x.dsp)) _
@[simp] theorem setHart_fw (x : Half) (n : Nat) (r : Hart) : (x.setHart n r).fw = x.fw := by unfold Half.setHart; exact (fun (a' : Vaults) => (rfl : ({ x with vaults := a' } : Half).fw = x.fw)) _
@[simp] theorem setHart_clk (x : Half) (n : Nat) (r : Hart) : (x.setHart n r).clk = x.clk := by unfold Half.setHart; exact (fun (a' : Vaults) => (rfl : ({ x with vaults := a' } : Half).clk = x.clk)) _
@[simp] theorem setHart_incidents (x : Half) (n : Nat) (r : Hart) : (x.setHart n r).incidents = x.incidents := by unfold Half.setHart; exact (fun (a' : Vaults) => (rfl : ({ x with vaults := a' } : Half).incidents = x.incidents)) _
@[simp] theorem setHart_incSeq (x : Half) (n : Nat) (r : Hart) : (x.setHart n r).incSeq = x.incSeq := by unfold Half.setHart; exact (fun (a' : Vaults) => (rfl : ({ x with vaults := a' } : Half).incSeq = x.incSeq)) _
@[simp] theorem setHart_late (x : Half) (n : Nat) (r : Hart) : (x.setHart n r).late = x.late := by unfold Half.setHart; exact (fun (a' : Vaults) => (rfl : ({ x with vaults := a' } : Half).late = x.late)) _
@[simp] theorem setHart_incCount (x : Half) (n : Nat) (r : Hart) : (x.setHart n r).incCount = x.incCount := by unfold Half.setHart; exact (fun (a' : Vaults) => (rfl : ({ x with vaults := a' } : Half).incCount = x.incCount)) _

/-! ## Lookups after their own update -/

theorem core_setCore (x : Half) (k j : Nat) (v : Core) : (x.setCore k v).core j = if j = k then v else x.core j := kget_kput
@[simp] theorem core_setCore_same (x : Half) (k : Nat) (v : Core) : (x.setCore k v).core k = v := kget_kput_same
theorem queue_setQueue (x : Half) (k j : Nat) (v : Queue) : (x.setQueue k v).queue j = if j = k then v else x.queue j := kget_kput
@[simp] theorem queue_setQueue_same (x : Half) (k : Nat) (v : Queue) : (x.setQueue k v).queue k = v := kget_kput_same
theorem stream_setStream (x : Half) (k j : Nat) (v : Stream) : (x.setStream k v).stream j = if j = k then v else x.stream j := kget_kput
@[simp] theorem stream_setStream_same (x : Half) (k : Nat) (v : Stream) : (x.setStream k v).stream k = v := kget_kput_same
theorem inst_setInst (x : Half) (k j : Nat) (v : Inst) : (x.setInst k v).inst j = if j = k then v else x.inst j := kget_kput
@[simp] theorem inst_setInst_same (x : Half) (k : Nat) (v : Inst) : (x.setInst k v).inst k = v := kget_kput_same
theorem task_setTask (x : Half) (k j : Nat) (v : Task) : (x.setTask k v).task j = if j = k then v else x.task j := kget_kput
@[simp] theorem task_setTask_same (x : Half) (k : Nat) (v : Task) : (x.setTask k v).task k = v := kget_kput_same
theorem ring_setRing (x : Half) (k j : Nat) (v : Ring) : (x.setRing k v).ring j = if j = k then v else x.ring j := kget_kput
@[simp] theorem ring_setRing_same (x : Half) (k : Nat) (v : Ring) : (x.setRing k v).ring k = v := kget_kput_same
theorem session_setSession (x : Half) (k j : Nat) (v : Option Session) : (x.setSession k v).session j = if j = k then v else x.session j := kget_kput
@[simp] theorem session_setSession_same (x : Half) (k : Nat) (v : Option Session) : (x.setSession k v).session k = v := kget_kput_same
theorem pipe_setPipe (x : Half) (k j : Nat) (v : Pipe) : (x.setPipe k v).pipe j = if j = k then v else x.pipe j := kget_kput
@[simp] theorem pipe_setPipe_same (x : Half) (k : Nat) (v : Pipe) : (x.setPipe k v).pipe k = v := kget_kput_same
theorem hart_setHart (x : Half) (k j : Nat) (v : Hart) : (x.setHart k v).hart j = if j = k then v else x.hart j := kget_kput
@[simp] theorem hart_setHart_same (x : Half) (k : Nat) (v : Hart) : (x.setHart k v).hart k = v := kget_kput_same
@[simp] theorem core_updCore_same (x : Half) (p : Nat) (f : Core → Core) : (x.updCore p f).core p = f (x.core p) := kget_kput_same
@[simp] theorem queue_updQueue_same (x : Half) (u : Nat) (f : Queue → Queue) : (x.updQueue u f).queue u = f (x.queue u) := kget_kput_same

/-! ## Register fields after updates that touch no register -/

@[simp] theorem fld_record (x : Half) (src half unit : Nat) (st : Status) (d : Nat) (g : Fld) (u i : Nat) : (x.record src half unit st d).fld g u i = x.fld g u i := fld_of_regs (by simp) g u i
@[simp] theorem fld_setCore (x : Half) (p : Nat) (c : Core) (g : Fld) (u i : Nat) : (x.setCore p c).fld g u i = x.fld g u i := fld_of_regs (by simp) g u i
@[simp] theorem fld_updCore (x : Half) (p : Nat) (c : Core → Core) (g : Fld) (u i : Nat) : (x.updCore p c).fld g u i = x.fld g u i := fld_of_regs (by simp) g u i
@[simp] theorem fld_setQueue (x : Half) (k : Nat) (q : Queue) (g : Fld) (u i : Nat) : (x.setQueue k q).fld g u i = x.fld g u i := fld_of_regs (by simp) g u i
@[simp] theorem fld_updQueue (x : Half) (k : Nat) (q : Queue → Queue) (g : Fld) (u i : Nat) : (x.updQueue k q).fld g u i = x.fld g u i := fld_of_regs (by simp) g u i
@[simp] theorem fld_setStream (x : Half) (k : Nat) (v : Stream) (g : Fld) (u i : Nat) : (x.setStream k v).fld g u i = x.fld g u i := fld_of_regs (by simp) g u i
@[simp] theorem fld_setInst (x : Half) (n : Nat) (v : Inst) (g : Fld) (u i : Nat) : (x.setInst n v).fld g u i = x.fld g u i := fld_of_regs (by simp) g u i
@[simp] theorem fld_setTask (x : Half) (t : Nat) (k : Task) (g : Fld) (u i : Nat) : (x.setTask t k).fld g u i = x.fld g u i := fld_of_regs (by simp) g u i
@[simp] theorem fld_setRing (x : Half) (p : Nat) (r : Ring) (g : Fld) (u i : Nat) : (x.setRing p r).fld g u i = x.fld g u i := fld_of_regs (by simp) g u i
@[simp] theorem fld_setSession (x : Half) (p : Nat) (r : Option Session) (g : Fld) (u i : Nat) : (x.setSession p r).fld g u i = x.fld g u i := fld_of_regs (by simp) g u i
@[simp] theorem fld_setPipe (x : Half) (p : Nat) (r : Pipe) (g : Fld) (u i : Nat) : (x.setPipe p r).fld g u i = x.fld g u i := fld_of_regs (by simp) g u i
@[simp] theorem fld_setHart (x : Half) (n : Nat) (r : Hart) (g : Fld) (u i : Nat) : (x.setHart n r).fld g u i = x.fld g u i := fld_of_regs (by simp) g u i

/-! ## The package after an update: every other field -/

@[simp] theorem setHalf_pending (s : State) (h : Nat) (x : Half) : (s.setHalf h x).pending = s.pending := by unfold State.setHalf; split; exacts [(fun (a' : Half) => (rfl : ({ s with h0 := a' } : State).pending = s.pending)) _, (fun (a' : Half) => (rfl : ({ s with h1 := a' } : State).pending = s.pending)) _]
@[simp] theorem setHalf_es (s : State) (h : Nat) (x : Half) : (s.setHalf h x).es = s.es := by unfold State.setHalf; split; exacts [(fun (a' : Half) => (rfl : ({ s with h0 := a' } : State).es = s.es)) _, (fun (a' : Half) => (rfl : ({ s with h1 := a' } : State).es = s.es)) _]
@[simp] theorem setHalf_now (s : State) (h : Nat) (x : Half) : (s.setHalf h x).now = s.now := by unfold State.setHalf; split; exacts [(fun (a' : Half) => (rfl : ({ s with h0 := a' } : State).now = s.now)) _, (fun (a' : Half) => (rfl : ({ s with h1 := a' } : State).now = s.now)) _]
@[simp] theorem setHalf_mem (s : State) (h : Nat) (x : Half) : (s.setHalf h x).mem = s.mem := by unfold State.setHalf; split; exacts [(fun (a' : Half) => (rfl : ({ s with h0 := a' } : State).mem = s.mem)) _, (fun (a' : Half) => (rfl : ({ s with h1 := a' } : State).mem = s.mem)) _]
@[simp] theorem setHalf_latch (s : State) (h : Nat) (x : Half) : (s.setHalf h x).latch = s.latch := by unfold State.setHalf; split; exacts [(fun (a' : Half) => (rfl : ({ s with h0 := a' } : State).latch = s.latch)) _, (fun (a' : Half) => (rfl : ({ s with h1 := a' } : State).latch = s.latch)) _]
@[simp] theorem setHalf_vdis (s : State) (h : Nat) (x : Half) : (s.setHalf h x).vdis = s.vdis := by unfold State.setHalf; split; exacts [(fun (a' : Half) => (rfl : ({ s with h0 := a' } : State).vdis = s.vdis)) _, (fun (a' : Half) => (rfl : ({ s with h1 := a' } : State).vdis = s.vdis)) _]
@[simp] theorem setHalf_ctxs (s : State) (h : Nat) (x : Half) : (s.setHalf h x).ctxs = s.ctxs := by unfold State.setHalf; split; exacts [(fun (a' : Half) => (rfl : ({ s with h0 := a' } : State).ctxs = s.ctxs)) _, (fun (a' : Half) => (rfl : ({ s with h1 := a' } : State).ctxs = s.ctxs)) _]
@[simp] theorem setHalf_power (s : State) (h : Nat) (x : Half) : (s.setHalf h x).power = s.power := by unfold State.setHalf; split; exacts [(fun (a' : Half) => (rfl : ({ s with h0 := a' } : State).power = s.power)) _, (fun (a' : Half) => (rfl : ({ s with h1 := a' } : State).power = s.power)) _]
@[simp] theorem setHalf_wakeLatched (s : State) (h : Nat) (x : Half) : (s.setHalf h x).wakeLatched = s.wakeLatched := by unfold State.setHalf; split; exacts [(fun (a' : Half) => (rfl : ({ s with h0 := a' } : State).wakeLatched = s.wakeLatched)) _, (fun (a' : Half) => (rfl : ({ s with h1 := a' } : State).wakeLatched = s.wakeLatched)) _]
@[simp] theorem setHalf_perrN (s : State) (h : Nat) (x : Half) : (s.setHalf h x).perrN = s.perrN := by unfold State.setHalf; split; exacts [(fun (a' : Half) => (rfl : ({ s with h0 := a' } : State).perrN = s.perrN)) _, (fun (a' : Half) => (rfl : ({ s with h1 := a' } : State).perrN = s.perrN)) _]
@[simp] theorem setHalf_resetPending (s : State) (h : Nat) (x : Half) : (s.setHalf h x).resetPending = s.resetPending := by unfold State.setHalf; split; exacts [(fun (a' : Half) => (rfl : ({ s with h0 := a' } : State).resetPending = s.resetPending)) _, (fun (a' : Half) => (rfl : ({ s with h1 := a' } : State).resetPending = s.resetPending)) _]
@[simp] theorem setHalf_mismatchVt (s : State) (h : Nat) (x : Half) : (s.setHalf h x).mismatchVt = s.mismatchVt := by unfold State.setHalf; split; exacts [(fun (a' : Half) => (rfl : ({ s with h0 := a' } : State).mismatchVt = s.mismatchVt)) _, (fun (a' : Half) => (rfl : ({ s with h1 := a' } : State).mismatchVt = s.mismatchVt)) _]
@[simp] theorem setHalf_secondFault (s : State) (h : Nat) (x : Half) : (s.setHalf h x).secondFault = s.secondFault := by unfold State.setHalf; split; exacts [(fun (a' : Half) => (rfl : ({ s with h0 := a' } : State).secondFault = s.secondFault)) _, (fun (a' : Half) => (rfl : ({ s with h1 := a' } : State).secondFault = s.secondFault)) _]
@[simp] theorem setHalf_freeCtr (s : State) (h : Nat) (x : Half) : (s.setHalf h x).freeCtr = s.freeCtr := by unfold State.setHalf; split; exacts [(fun (a' : Half) => (rfl : ({ s with h0 := a' } : State).freeCtr = s.freeCtr)) _, (fun (a' : Half) => (rfl : ({ s with h1 := a' } : State).freeCtr = s.freeCtr)) _]
@[simp] theorem setHalf_out (s : State) (h : Nat) (x : Half) : (s.setHalf h x).out = s.out := by unfold State.setHalf; split; exacts [(fun (a' : Half) => (rfl : ({ s with h0 := a' } : State).out = s.out)) _, (fun (a' : Half) => (rfl : ({ s with h1 := a' } : State).out = s.out)) _]

@[simp] theorem upd_pending (s : State) (h : Nat) (f : Half → Half) : (s.upd h f).pending = s.pending := by simp [State.upd]
@[simp] theorem upd_es (s : State) (h : Nat) (f : Half → Half) : (s.upd h f).es = s.es := by simp [State.upd]
@[simp] theorem upd_now (s : State) (h : Nat) (f : Half → Half) : (s.upd h f).now = s.now := by simp [State.upd]
@[simp] theorem upd_mem (s : State) (h : Nat) (f : Half → Half) : (s.upd h f).mem = s.mem := by simp [State.upd]
@[simp] theorem upd_latch (s : State) (h : Nat) (f : Half → Half) : (s.upd h f).latch = s.latch := by simp [State.upd]
@[simp] theorem upd_vdis (s : State) (h : Nat) (f : Half → Half) : (s.upd h f).vdis = s.vdis := by simp [State.upd]
@[simp] theorem upd_ctxs (s : State) (h : Nat) (f : Half → Half) : (s.upd h f).ctxs = s.ctxs := by simp [State.upd]
@[simp] theorem upd_power (s : State) (h : Nat) (f : Half → Half) : (s.upd h f).power = s.power := by simp [State.upd]
@[simp] theorem upd_wakeLatched (s : State) (h : Nat) (f : Half → Half) : (s.upd h f).wakeLatched = s.wakeLatched := by simp [State.upd]
@[simp] theorem upd_perrN (s : State) (h : Nat) (f : Half → Half) : (s.upd h f).perrN = s.perrN := by simp [State.upd]
@[simp] theorem upd_resetPending (s : State) (h : Nat) (f : Half → Half) : (s.upd h f).resetPending = s.resetPending := by simp [State.upd]
@[simp] theorem upd_mismatchVt (s : State) (h : Nat) (f : Half → Half) : (s.upd h f).mismatchVt = s.mismatchVt := by simp [State.upd]
@[simp] theorem upd_secondFault (s : State) (h : Nat) (f : Half → Half) : (s.upd h f).secondFault = s.secondFault := by simp [State.upd]
@[simp] theorem upd_freeCtr (s : State) (h : Nat) (f : Half → Half) : (s.upd h f).freeCtr = s.freeCtr := by simp [State.upd]
@[simp] theorem upd_out (s : State) (h : Nat) (f : Half → Half) : (s.upd h f).out = s.out := by simp [State.upd]

@[simp] theorem emit_pending (s : State) (o : Out) : (s.emit o).pending = s.pending := by unfold State.emit; exact (fun (a' : List Out) => (rfl : ({ s with out := a' } : State).pending = s.pending)) _
@[simp] theorem emit_es (s : State) (o : Out) : (s.emit o).es = s.es := by unfold State.emit; exact (fun (a' : List Out) => (rfl : ({ s with out := a' } : State).es = s.es)) _
@[simp] theorem emit_now (s : State) (o : Out) : (s.emit o).now = s.now := by unfold State.emit; exact (fun (a' : List Out) => (rfl : ({ s with out := a' } : State).now = s.now)) _
@[simp] theorem emit_h0 (s : State) (o : Out) : (s.emit o).h0 = s.h0 := by unfold State.emit; exact (fun (a' : List Out) => (rfl : ({ s with out := a' } : State).h0 = s.h0)) _
@[simp] theorem emit_h1 (s : State) (o : Out) : (s.emit o).h1 = s.h1 := by unfold State.emit; exact (fun (a' : List Out) => (rfl : ({ s with out := a' } : State).h1 = s.h1)) _
@[simp] theorem emit_mem (s : State) (o : Out) : (s.emit o).mem = s.mem := by unfold State.emit; exact (fun (a' : List Out) => (rfl : ({ s with out := a' } : State).mem = s.mem)) _
@[simp] theorem emit_latch (s : State) (o : Out) : (s.emit o).latch = s.latch := by unfold State.emit; exact (fun (a' : List Out) => (rfl : ({ s with out := a' } : State).latch = s.latch)) _
@[simp] theorem emit_vdis (s : State) (o : Out) : (s.emit o).vdis = s.vdis := by unfold State.emit; exact (fun (a' : List Out) => (rfl : ({ s with out := a' } : State).vdis = s.vdis)) _
@[simp] theorem emit_ctxs (s : State) (o : Out) : (s.emit o).ctxs = s.ctxs := by unfold State.emit; exact (fun (a' : List Out) => (rfl : ({ s with out := a' } : State).ctxs = s.ctxs)) _
@[simp] theorem emit_power (s : State) (o : Out) : (s.emit o).power = s.power := by unfold State.emit; exact (fun (a' : List Out) => (rfl : ({ s with out := a' } : State).power = s.power)) _
@[simp] theorem emit_wakeLatched (s : State) (o : Out) : (s.emit o).wakeLatched = s.wakeLatched := by unfold State.emit; exact (fun (a' : List Out) => (rfl : ({ s with out := a' } : State).wakeLatched = s.wakeLatched)) _
@[simp] theorem emit_perrN (s : State) (o : Out) : (s.emit o).perrN = s.perrN := by unfold State.emit; exact (fun (a' : List Out) => (rfl : ({ s with out := a' } : State).perrN = s.perrN)) _
@[simp] theorem emit_resetPending (s : State) (o : Out) : (s.emit o).resetPending = s.resetPending := by unfold State.emit; exact (fun (a' : List Out) => (rfl : ({ s with out := a' } : State).resetPending = s.resetPending)) _
@[simp] theorem emit_mismatchVt (s : State) (o : Out) : (s.emit o).mismatchVt = s.mismatchVt := by unfold State.emit; exact (fun (a' : List Out) => (rfl : ({ s with out := a' } : State).mismatchVt = s.mismatchVt)) _
@[simp] theorem emit_secondFault (s : State) (o : Out) : (s.emit o).secondFault = s.secondFault := by unfold State.emit; exact (fun (a' : List Out) => (rfl : ({ s with out := a' } : State).secondFault = s.secondFault)) _
@[simp] theorem emit_freeCtr (s : State) (o : Out) : (s.emit o).freeCtr = s.freeCtr := by unfold State.emit; exact (fun (a' : List Out) => (rfl : ({ s with out := a' } : State).freeCtr = s.freeCtr)) _

@[simp] theorem draw_pending (s : State)  : (s.draw.2).pending = s.pending := by unfold State.draw; exact (fun (a' : Nat) => (rfl : ({ s with freeCtr := a' } : State).pending = s.pending)) _
@[simp] theorem draw_es (s : State)  : (s.draw.2).es = s.es := by unfold State.draw; exact (fun (a' : Nat) => (rfl : ({ s with freeCtr := a' } : State).es = s.es)) _
@[simp] theorem draw_now (s : State)  : (s.draw.2).now = s.now := by unfold State.draw; exact (fun (a' : Nat) => (rfl : ({ s with freeCtr := a' } : State).now = s.now)) _
@[simp] theorem draw_h0 (s : State)  : (s.draw.2).h0 = s.h0 := by unfold State.draw; exact (fun (a' : Nat) => (rfl : ({ s with freeCtr := a' } : State).h0 = s.h0)) _
@[simp] theorem draw_h1 (s : State)  : (s.draw.2).h1 = s.h1 := by unfold State.draw; exact (fun (a' : Nat) => (rfl : ({ s with freeCtr := a' } : State).h1 = s.h1)) _
@[simp] theorem draw_mem (s : State)  : (s.draw.2).mem = s.mem := by unfold State.draw; exact (fun (a' : Nat) => (rfl : ({ s with freeCtr := a' } : State).mem = s.mem)) _
@[simp] theorem draw_latch (s : State)  : (s.draw.2).latch = s.latch := by unfold State.draw; exact (fun (a' : Nat) => (rfl : ({ s with freeCtr := a' } : State).latch = s.latch)) _
@[simp] theorem draw_vdis (s : State)  : (s.draw.2).vdis = s.vdis := by unfold State.draw; exact (fun (a' : Nat) => (rfl : ({ s with freeCtr := a' } : State).vdis = s.vdis)) _
@[simp] theorem draw_ctxs (s : State)  : (s.draw.2).ctxs = s.ctxs := by unfold State.draw; exact (fun (a' : Nat) => (rfl : ({ s with freeCtr := a' } : State).ctxs = s.ctxs)) _
@[simp] theorem draw_power (s : State)  : (s.draw.2).power = s.power := by unfold State.draw; exact (fun (a' : Nat) => (rfl : ({ s with freeCtr := a' } : State).power = s.power)) _
@[simp] theorem draw_wakeLatched (s : State)  : (s.draw.2).wakeLatched = s.wakeLatched := by unfold State.draw; exact (fun (a' : Nat) => (rfl : ({ s with freeCtr := a' } : State).wakeLatched = s.wakeLatched)) _
@[simp] theorem draw_perrN (s : State)  : (s.draw.2).perrN = s.perrN := by unfold State.draw; exact (fun (a' : Nat) => (rfl : ({ s with freeCtr := a' } : State).perrN = s.perrN)) _
@[simp] theorem draw_resetPending (s : State)  : (s.draw.2).resetPending = s.resetPending := by unfold State.draw; exact (fun (a' : Nat) => (rfl : ({ s with freeCtr := a' } : State).resetPending = s.resetPending)) _
@[simp] theorem draw_mismatchVt (s : State)  : (s.draw.2).mismatchVt = s.mismatchVt := by unfold State.draw; exact (fun (a' : Nat) => (rfl : ({ s with freeCtr := a' } : State).mismatchVt = s.mismatchVt)) _
@[simp] theorem draw_secondFault (s : State)  : (s.draw.2).secondFault = s.secondFault := by unfold State.draw; exact (fun (a' : Nat) => (rfl : ({ s with freeCtr := a' } : State).secondFault = s.secondFault)) _
@[simp] theorem draw_out (s : State)  : (s.draw.2).out = s.out := by unfold State.draw; exact (fun (a' : Nat) => (rfl : ({ s with freeCtr := a' } : State).out = s.out)) _

@[simp] theorem setVdi_pending (s : State) (v : Nat) (x : Vdi) : (s.setVdi v x).pending = s.pending := by unfold State.setVdi; exact (fun (a' : List (Nat × Vdi)) => (rfl : ({ s with vdis := a' } : State).pending = s.pending)) _
@[simp] theorem setVdi_es (s : State) (v : Nat) (x : Vdi) : (s.setVdi v x).es = s.es := by unfold State.setVdi; exact (fun (a' : List (Nat × Vdi)) => (rfl : ({ s with vdis := a' } : State).es = s.es)) _
@[simp] theorem setVdi_now (s : State) (v : Nat) (x : Vdi) : (s.setVdi v x).now = s.now := by unfold State.setVdi; exact (fun (a' : List (Nat × Vdi)) => (rfl : ({ s with vdis := a' } : State).now = s.now)) _
@[simp] theorem setVdi_h0 (s : State) (v : Nat) (x : Vdi) : (s.setVdi v x).h0 = s.h0 := by unfold State.setVdi; exact (fun (a' : List (Nat × Vdi)) => (rfl : ({ s with vdis := a' } : State).h0 = s.h0)) _
@[simp] theorem setVdi_h1 (s : State) (v : Nat) (x : Vdi) : (s.setVdi v x).h1 = s.h1 := by unfold State.setVdi; exact (fun (a' : List (Nat × Vdi)) => (rfl : ({ s with vdis := a' } : State).h1 = s.h1)) _
@[simp] theorem setVdi_mem (s : State) (v : Nat) (x : Vdi) : (s.setVdi v x).mem = s.mem := by unfold State.setVdi; exact (fun (a' : List (Nat × Vdi)) => (rfl : ({ s with vdis := a' } : State).mem = s.mem)) _
@[simp] theorem setVdi_latch (s : State) (v : Nat) (x : Vdi) : (s.setVdi v x).latch = s.latch := by unfold State.setVdi; exact (fun (a' : List (Nat × Vdi)) => (rfl : ({ s with vdis := a' } : State).latch = s.latch)) _
@[simp] theorem setVdi_ctxs (s : State) (v : Nat) (x : Vdi) : (s.setVdi v x).ctxs = s.ctxs := by unfold State.setVdi; exact (fun (a' : List (Nat × Vdi)) => (rfl : ({ s with vdis := a' } : State).ctxs = s.ctxs)) _
@[simp] theorem setVdi_power (s : State) (v : Nat) (x : Vdi) : (s.setVdi v x).power = s.power := by unfold State.setVdi; exact (fun (a' : List (Nat × Vdi)) => (rfl : ({ s with vdis := a' } : State).power = s.power)) _
@[simp] theorem setVdi_wakeLatched (s : State) (v : Nat) (x : Vdi) : (s.setVdi v x).wakeLatched = s.wakeLatched := by unfold State.setVdi; exact (fun (a' : List (Nat × Vdi)) => (rfl : ({ s with vdis := a' } : State).wakeLatched = s.wakeLatched)) _
@[simp] theorem setVdi_perrN (s : State) (v : Nat) (x : Vdi) : (s.setVdi v x).perrN = s.perrN := by unfold State.setVdi; exact (fun (a' : List (Nat × Vdi)) => (rfl : ({ s with vdis := a' } : State).perrN = s.perrN)) _
@[simp] theorem setVdi_resetPending (s : State) (v : Nat) (x : Vdi) : (s.setVdi v x).resetPending = s.resetPending := by unfold State.setVdi; exact (fun (a' : List (Nat × Vdi)) => (rfl : ({ s with vdis := a' } : State).resetPending = s.resetPending)) _
@[simp] theorem setVdi_mismatchVt (s : State) (v : Nat) (x : Vdi) : (s.setVdi v x).mismatchVt = s.mismatchVt := by unfold State.setVdi; exact (fun (a' : List (Nat × Vdi)) => (rfl : ({ s with vdis := a' } : State).mismatchVt = s.mismatchVt)) _
@[simp] theorem setVdi_secondFault (s : State) (v : Nat) (x : Vdi) : (s.setVdi v x).secondFault = s.secondFault := by unfold State.setVdi; exact (fun (a' : List (Nat × Vdi)) => (rfl : ({ s with vdis := a' } : State).secondFault = s.secondFault)) _
@[simp] theorem setVdi_freeCtr (s : State) (v : Nat) (x : Vdi) : (s.setVdi v x).freeCtr = s.freeCtr := by unfold State.setVdi; exact (fun (a' : List (Nat × Vdi)) => (rfl : ({ s with vdis := a' } : State).freeCtr = s.freeCtr)) _
@[simp] theorem setVdi_out (s : State) (v : Nat) (x : Vdi) : (s.setVdi v x).out = s.out := by unfold State.setVdi; exact (fun (a' : List (Nat × Vdi)) => (rfl : ({ s with vdis := a' } : State).out = s.out)) _

@[simp] theorem setCtx_pending (s : State) (c : Nat) (x : Ctx) : (s.setCtx c x).pending = s.pending := by unfold State.setCtx; exact (fun (a' : List (Nat × Ctx)) => (rfl : ({ s with ctxs := a' } : State).pending = s.pending)) _
@[simp] theorem setCtx_es (s : State) (c : Nat) (x : Ctx) : (s.setCtx c x).es = s.es := by unfold State.setCtx; exact (fun (a' : List (Nat × Ctx)) => (rfl : ({ s with ctxs := a' } : State).es = s.es)) _
@[simp] theorem setCtx_now (s : State) (c : Nat) (x : Ctx) : (s.setCtx c x).now = s.now := by unfold State.setCtx; exact (fun (a' : List (Nat × Ctx)) => (rfl : ({ s with ctxs := a' } : State).now = s.now)) _
@[simp] theorem setCtx_h0 (s : State) (c : Nat) (x : Ctx) : (s.setCtx c x).h0 = s.h0 := by unfold State.setCtx; exact (fun (a' : List (Nat × Ctx)) => (rfl : ({ s with ctxs := a' } : State).h0 = s.h0)) _
@[simp] theorem setCtx_h1 (s : State) (c : Nat) (x : Ctx) : (s.setCtx c x).h1 = s.h1 := by unfold State.setCtx; exact (fun (a' : List (Nat × Ctx)) => (rfl : ({ s with ctxs := a' } : State).h1 = s.h1)) _
@[simp] theorem setCtx_mem (s : State) (c : Nat) (x : Ctx) : (s.setCtx c x).mem = s.mem := by unfold State.setCtx; exact (fun (a' : List (Nat × Ctx)) => (rfl : ({ s with ctxs := a' } : State).mem = s.mem)) _
@[simp] theorem setCtx_latch (s : State) (c : Nat) (x : Ctx) : (s.setCtx c x).latch = s.latch := by unfold State.setCtx; exact (fun (a' : List (Nat × Ctx)) => (rfl : ({ s with ctxs := a' } : State).latch = s.latch)) _
@[simp] theorem setCtx_vdis (s : State) (c : Nat) (x : Ctx) : (s.setCtx c x).vdis = s.vdis := by unfold State.setCtx; exact (fun (a' : List (Nat × Ctx)) => (rfl : ({ s with ctxs := a' } : State).vdis = s.vdis)) _
@[simp] theorem setCtx_power (s : State) (c : Nat) (x : Ctx) : (s.setCtx c x).power = s.power := by unfold State.setCtx; exact (fun (a' : List (Nat × Ctx)) => (rfl : ({ s with ctxs := a' } : State).power = s.power)) _
@[simp] theorem setCtx_wakeLatched (s : State) (c : Nat) (x : Ctx) : (s.setCtx c x).wakeLatched = s.wakeLatched := by unfold State.setCtx; exact (fun (a' : List (Nat × Ctx)) => (rfl : ({ s with ctxs := a' } : State).wakeLatched = s.wakeLatched)) _
@[simp] theorem setCtx_perrN (s : State) (c : Nat) (x : Ctx) : (s.setCtx c x).perrN = s.perrN := by unfold State.setCtx; exact (fun (a' : List (Nat × Ctx)) => (rfl : ({ s with ctxs := a' } : State).perrN = s.perrN)) _
@[simp] theorem setCtx_resetPending (s : State) (c : Nat) (x : Ctx) : (s.setCtx c x).resetPending = s.resetPending := by unfold State.setCtx; exact (fun (a' : List (Nat × Ctx)) => (rfl : ({ s with ctxs := a' } : State).resetPending = s.resetPending)) _
@[simp] theorem setCtx_mismatchVt (s : State) (c : Nat) (x : Ctx) : (s.setCtx c x).mismatchVt = s.mismatchVt := by unfold State.setCtx; exact (fun (a' : List (Nat × Ctx)) => (rfl : ({ s with ctxs := a' } : State).mismatchVt = s.mismatchVt)) _
@[simp] theorem setCtx_secondFault (s : State) (c : Nat) (x : Ctx) : (s.setCtx c x).secondFault = s.secondFault := by unfold State.setCtx; exact (fun (a' : List (Nat × Ctx)) => (rfl : ({ s with ctxs := a' } : State).secondFault = s.secondFault)) _
@[simp] theorem setCtx_freeCtr (s : State) (c : Nat) (x : Ctx) : (s.setCtx c x).freeCtr = s.freeCtr := by unfold State.setCtx; exact (fun (a' : List (Nat × Ctx)) => (rfl : ({ s with ctxs := a' } : State).freeCtr = s.freeCtr)) _
@[simp] theorem setCtx_out (s : State) (c : Nat) (x : Ctx) : (s.setCtx c x).out = s.out := by unfold State.setCtx; exact (fun (a' : List (Nat × Ctx)) => (rfl : ({ s with ctxs := a' } : State).out = s.out)) _

@[simp] theorem tick_pending (s : State) (e : Ev) : (tick e s).pending = s.pending := by unfold tick; exact (fun (a' : Nat) (b' : Half) (c' : Half) => (rfl : ({ s with now := a', h0 := b', h1 := c' } : State).pending = s.pending)) _ _ _
@[simp] theorem tick_es (s : State) (e : Ev) : (tick e s).es = s.es := by unfold tick; exact (fun (a' : Nat) (b' : Half) (c' : Half) => (rfl : ({ s with now := a', h0 := b', h1 := c' } : State).es = s.es)) _ _ _
@[simp] theorem tick_mem (s : State) (e : Ev) : (tick e s).mem = s.mem := by unfold tick; exact (fun (a' : Nat) (b' : Half) (c' : Half) => (rfl : ({ s with now := a', h0 := b', h1 := c' } : State).mem = s.mem)) _ _ _
@[simp] theorem tick_latch (s : State) (e : Ev) : (tick e s).latch = s.latch := by unfold tick; exact (fun (a' : Nat) (b' : Half) (c' : Half) => (rfl : ({ s with now := a', h0 := b', h1 := c' } : State).latch = s.latch)) _ _ _
@[simp] theorem tick_vdis (s : State) (e : Ev) : (tick e s).vdis = s.vdis := by unfold tick; exact (fun (a' : Nat) (b' : Half) (c' : Half) => (rfl : ({ s with now := a', h0 := b', h1 := c' } : State).vdis = s.vdis)) _ _ _
@[simp] theorem tick_ctxs (s : State) (e : Ev) : (tick e s).ctxs = s.ctxs := by unfold tick; exact (fun (a' : Nat) (b' : Half) (c' : Half) => (rfl : ({ s with now := a', h0 := b', h1 := c' } : State).ctxs = s.ctxs)) _ _ _
@[simp] theorem tick_power (s : State) (e : Ev) : (tick e s).power = s.power := by unfold tick; exact (fun (a' : Nat) (b' : Half) (c' : Half) => (rfl : ({ s with now := a', h0 := b', h1 := c' } : State).power = s.power)) _ _ _
@[simp] theorem tick_wakeLatched (s : State) (e : Ev) : (tick e s).wakeLatched = s.wakeLatched := by unfold tick; exact (fun (a' : Nat) (b' : Half) (c' : Half) => (rfl : ({ s with now := a', h0 := b', h1 := c' } : State).wakeLatched = s.wakeLatched)) _ _ _
@[simp] theorem tick_perrN (s : State) (e : Ev) : (tick e s).perrN = s.perrN := by unfold tick; exact (fun (a' : Nat) (b' : Half) (c' : Half) => (rfl : ({ s with now := a', h0 := b', h1 := c' } : State).perrN = s.perrN)) _ _ _
@[simp] theorem tick_resetPending (s : State) (e : Ev) : (tick e s).resetPending = s.resetPending := by unfold tick; exact (fun (a' : Nat) (b' : Half) (c' : Half) => (rfl : ({ s with now := a', h0 := b', h1 := c' } : State).resetPending = s.resetPending)) _ _ _
@[simp] theorem tick_mismatchVt (s : State) (e : Ev) : (tick e s).mismatchVt = s.mismatchVt := by unfold tick; exact (fun (a' : Nat) (b' : Half) (c' : Half) => (rfl : ({ s with now := a', h0 := b', h1 := c' } : State).mismatchVt = s.mismatchVt)) _ _ _
@[simp] theorem tick_secondFault (s : State) (e : Ev) : (tick e s).secondFault = s.secondFault := by unfold tick; exact (fun (a' : Nat) (b' : Half) (c' : Half) => (rfl : ({ s with now := a', h0 := b', h1 := c' } : State).secondFault = s.secondFault)) _ _ _
@[simp] theorem tick_freeCtr (s : State) (e : Ev) : (tick e s).freeCtr = s.freeCtr := by unfold tick; exact (fun (a' : Nat) (b' : Half) (c' : Half) => (rfl : ({ s with now := a', h0 := b', h1 := c' } : State).freeCtr = s.freeCtr)) _ _ _
@[simp] theorem tick_out (s : State) (e : Ev) : (tick e s).out = s.out := by unfold tick; exact (fun (a' : Nat) (b' : Half) (c' : Half) => (rfl : ({ s with now := a', h0 := b', h1 := c' } : State).out = s.out)) _ _ _

@[simp] theorem incident_pending (s : State) (h src unit : Nat) (st : Status) (d : Nat) : (s.incident h src unit st d).pending = s.pending := by simp [State.incident]
@[simp] theorem incident_es (s : State) (h src unit : Nat) (st : Status) (d : Nat) : (s.incident h src unit st d).es = s.es := by simp [State.incident]
@[simp] theorem incident_now (s : State) (h src unit : Nat) (st : Status) (d : Nat) : (s.incident h src unit st d).now = s.now := by simp [State.incident]
@[simp] theorem incident_mem (s : State) (h src unit : Nat) (st : Status) (d : Nat) : (s.incident h src unit st d).mem = s.mem := by simp [State.incident]
@[simp] theorem incident_latch (s : State) (h src unit : Nat) (st : Status) (d : Nat) : (s.incident h src unit st d).latch = s.latch := by simp [State.incident]
@[simp] theorem incident_vdis (s : State) (h src unit : Nat) (st : Status) (d : Nat) : (s.incident h src unit st d).vdis = s.vdis := by simp [State.incident]
@[simp] theorem incident_ctxs (s : State) (h src unit : Nat) (st : Status) (d : Nat) : (s.incident h src unit st d).ctxs = s.ctxs := by simp [State.incident]
@[simp] theorem incident_power (s : State) (h src unit : Nat) (st : Status) (d : Nat) : (s.incident h src unit st d).power = s.power := by simp [State.incident]
@[simp] theorem incident_wakeLatched (s : State) (h src unit : Nat) (st : Status) (d : Nat) : (s.incident h src unit st d).wakeLatched = s.wakeLatched := by simp [State.incident]
@[simp] theorem incident_perrN (s : State) (h src unit : Nat) (st : Status) (d : Nat) : (s.incident h src unit st d).perrN = s.perrN := by simp [State.incident]
@[simp] theorem incident_resetPending (s : State) (h src unit : Nat) (st : Status) (d : Nat) : (s.incident h src unit st d).resetPending = s.resetPending := by simp [State.incident]
@[simp] theorem incident_mismatchVt (s : State) (h src unit : Nat) (st : Status) (d : Nat) : (s.incident h src unit st d).mismatchVt = s.mismatchVt := by simp [State.incident]
@[simp] theorem incident_secondFault (s : State) (h src unit : Nat) (st : Status) (d : Nat) : (s.incident h src unit st d).secondFault = s.secondFault := by simp [State.incident]
@[simp] theorem incident_freeCtr (s : State) (h src unit : Nat) (st : Status) (d : Nat) : (s.incident h src unit st d).freeCtr = s.freeCtr := by simp [State.incident]
@[simp] theorem incident_out (s : State) (h src unit : Nat) (st : Status) (d : Nat) : (s.incident h src unit st d).out = s.out := by simp [State.incident]

@[simp] theorem clearSems_pending (s : State) (a n : Nat) : (s.clearSems a n).pending = s.pending := by unfold State.clearSems; split <;> simp
@[simp] theorem clearSems_es (s : State) (a n : Nat) : (s.clearSems a n).es = s.es := by unfold State.clearSems; split <;> simp
@[simp] theorem clearSems_now (s : State) (a n : Nat) : (s.clearSems a n).now = s.now := by unfold State.clearSems; split <;> simp
@[simp] theorem clearSems_mem (s : State) (a n : Nat) : (s.clearSems a n).mem = s.mem := by unfold State.clearSems; split <;> simp
@[simp] theorem clearSems_latch (s : State) (a n : Nat) : (s.clearSems a n).latch = s.latch := by unfold State.clearSems; split <;> simp
@[simp] theorem clearSems_vdis (s : State) (a n : Nat) : (s.clearSems a n).vdis = s.vdis := by unfold State.clearSems; split <;> simp
@[simp] theorem clearSems_ctxs (s : State) (a n : Nat) : (s.clearSems a n).ctxs = s.ctxs := by unfold State.clearSems; split <;> simp
@[simp] theorem clearSems_power (s : State) (a n : Nat) : (s.clearSems a n).power = s.power := by unfold State.clearSems; split <;> simp
@[simp] theorem clearSems_wakeLatched (s : State) (a n : Nat) : (s.clearSems a n).wakeLatched = s.wakeLatched := by unfold State.clearSems; split <;> simp
@[simp] theorem clearSems_perrN (s : State) (a n : Nat) : (s.clearSems a n).perrN = s.perrN := by unfold State.clearSems; split <;> simp
@[simp] theorem clearSems_resetPending (s : State) (a n : Nat) : (s.clearSems a n).resetPending = s.resetPending := by unfold State.clearSems; split <;> simp
@[simp] theorem clearSems_mismatchVt (s : State) (a n : Nat) : (s.clearSems a n).mismatchVt = s.mismatchVt := by unfold State.clearSems; split <;> simp
@[simp] theorem clearSems_secondFault (s : State) (a n : Nat) : (s.clearSems a n).secondFault = s.secondFault := by unfold State.clearSems; split <;> simp
@[simp] theorem clearSems_freeCtr (s : State) (a n : Nat) : (s.clearSems a n).freeCtr = s.freeCtr := by unfold State.clearSems; split <;> simp
@[simp] theorem clearSems_out (s : State) (a n : Nat) : (s.clearSems a n).out = s.out := by unfold State.clearSems; split <;> simp

@[simp] theorem wr_pending (s : State) (a : Nat) (b : Byte) : (s.wr a b).pending = s.pending := by unfold State.wr; rw [clearSems_pending]
@[simp] theorem wr_es (s : State) (a : Nat) (b : Byte) : (s.wr a b).es = s.es := by unfold State.wr; rw [clearSems_es]
@[simp] theorem wr_now (s : State) (a : Nat) (b : Byte) : (s.wr a b).now = s.now := by unfold State.wr; rw [clearSems_now]
@[simp] theorem wr_latch (s : State) (a : Nat) (b : Byte) : (s.wr a b).latch = s.latch := by unfold State.wr; rw [clearSems_latch]
@[simp] theorem wr_vdis (s : State) (a : Nat) (b : Byte) : (s.wr a b).vdis = s.vdis := by unfold State.wr; rw [clearSems_vdis]
@[simp] theorem wr_ctxs (s : State) (a : Nat) (b : Byte) : (s.wr a b).ctxs = s.ctxs := by unfold State.wr; rw [clearSems_ctxs]
@[simp] theorem wr_power (s : State) (a : Nat) (b : Byte) : (s.wr a b).power = s.power := by unfold State.wr; rw [clearSems_power]
@[simp] theorem wr_wakeLatched (s : State) (a : Nat) (b : Byte) : (s.wr a b).wakeLatched = s.wakeLatched := by unfold State.wr; rw [clearSems_wakeLatched]
@[simp] theorem wr_perrN (s : State) (a : Nat) (b : Byte) : (s.wr a b).perrN = s.perrN := by unfold State.wr; rw [clearSems_perrN]
@[simp] theorem wr_resetPending (s : State) (a : Nat) (b : Byte) : (s.wr a b).resetPending = s.resetPending := by unfold State.wr; rw [clearSems_resetPending]
@[simp] theorem wr_mismatchVt (s : State) (a : Nat) (b : Byte) : (s.wr a b).mismatchVt = s.mismatchVt := by unfold State.wr; rw [clearSems_mismatchVt]
@[simp] theorem wr_secondFault (s : State) (a : Nat) (b : Byte) : (s.wr a b).secondFault = s.secondFault := by unfold State.wr; rw [clearSems_secondFault]
@[simp] theorem wr_freeCtr (s : State) (a : Nat) (b : Byte) : (s.wr a b).freeCtr = s.freeCtr := by unfold State.wr; rw [clearSems_freeCtr]
@[simp] theorem wr_out (s : State) (a : Nat) (b : Byte) : (s.wr a b).out = s.out := by unfold State.wr; rw [clearSems_out]

@[simp] theorem wrBytes_pending (s : State) (a : Nat) (l : List Byte) : (s.wrBytes a l).pending = s.pending := by unfold State.wrBytes; rw [clearSems_pending]
@[simp] theorem wrBytes_es (s : State) (a : Nat) (l : List Byte) : (s.wrBytes a l).es = s.es := by unfold State.wrBytes; rw [clearSems_es]
@[simp] theorem wrBytes_now (s : State) (a : Nat) (l : List Byte) : (s.wrBytes a l).now = s.now := by unfold State.wrBytes; rw [clearSems_now]
@[simp] theorem wrBytes_latch (s : State) (a : Nat) (l : List Byte) : (s.wrBytes a l).latch = s.latch := by unfold State.wrBytes; rw [clearSems_latch]
@[simp] theorem wrBytes_vdis (s : State) (a : Nat) (l : List Byte) : (s.wrBytes a l).vdis = s.vdis := by unfold State.wrBytes; rw [clearSems_vdis]
@[simp] theorem wrBytes_ctxs (s : State) (a : Nat) (l : List Byte) : (s.wrBytes a l).ctxs = s.ctxs := by unfold State.wrBytes; rw [clearSems_ctxs]
@[simp] theorem wrBytes_power (s : State) (a : Nat) (l : List Byte) : (s.wrBytes a l).power = s.power := by unfold State.wrBytes; rw [clearSems_power]
@[simp] theorem wrBytes_wakeLatched (s : State) (a : Nat) (l : List Byte) : (s.wrBytes a l).wakeLatched = s.wakeLatched := by unfold State.wrBytes; rw [clearSems_wakeLatched]
@[simp] theorem wrBytes_perrN (s : State) (a : Nat) (l : List Byte) : (s.wrBytes a l).perrN = s.perrN := by unfold State.wrBytes; rw [clearSems_perrN]
@[simp] theorem wrBytes_resetPending (s : State) (a : Nat) (l : List Byte) : (s.wrBytes a l).resetPending = s.resetPending := by unfold State.wrBytes; rw [clearSems_resetPending]
@[simp] theorem wrBytes_mismatchVt (s : State) (a : Nat) (l : List Byte) : (s.wrBytes a l).mismatchVt = s.mismatchVt := by unfold State.wrBytes; rw [clearSems_mismatchVt]
@[simp] theorem wrBytes_secondFault (s : State) (a : Nat) (l : List Byte) : (s.wrBytes a l).secondFault = s.secondFault := by unfold State.wrBytes; rw [clearSems_secondFault]
@[simp] theorem wrBytes_freeCtr (s : State) (a : Nat) (l : List Byte) : (s.wrBytes a l).freeCtr = s.freeCtr := by unfold State.wrBytes; rw [clearSems_freeCtr]
@[simp] theorem wrBytes_out (s : State) (a : Nat) (l : List Byte) : (s.wrBytes a l).out = s.out := by unfold State.wrBytes; rw [clearSems_out]

@[simp] theorem wrN_pending (s : State) (a n v : Nat) : (s.wrN a n v).pending = s.pending := by simp [State.wrN]
@[simp] theorem wrN_es (s : State) (a n v : Nat) : (s.wrN a n v).es = s.es := by simp [State.wrN]
@[simp] theorem wrN_now (s : State) (a n v : Nat) : (s.wrN a n v).now = s.now := by simp [State.wrN]
@[simp] theorem wrN_latch (s : State) (a n v : Nat) : (s.wrN a n v).latch = s.latch := by simp [State.wrN]
@[simp] theorem wrN_vdis (s : State) (a n v : Nat) : (s.wrN a n v).vdis = s.vdis := by simp [State.wrN]
@[simp] theorem wrN_ctxs (s : State) (a n v : Nat) : (s.wrN a n v).ctxs = s.ctxs := by simp [State.wrN]
@[simp] theorem wrN_power (s : State) (a n v : Nat) : (s.wrN a n v).power = s.power := by simp [State.wrN]
@[simp] theorem wrN_wakeLatched (s : State) (a n v : Nat) : (s.wrN a n v).wakeLatched = s.wakeLatched := by simp [State.wrN]
@[simp] theorem wrN_perrN (s : State) (a n v : Nat) : (s.wrN a n v).perrN = s.perrN := by simp [State.wrN]
@[simp] theorem wrN_resetPending (s : State) (a n v : Nat) : (s.wrN a n v).resetPending = s.resetPending := by simp [State.wrN]
@[simp] theorem wrN_mismatchVt (s : State) (a n v : Nat) : (s.wrN a n v).mismatchVt = s.mismatchVt := by simp [State.wrN]
@[simp] theorem wrN_secondFault (s : State) (a n v : Nat) : (s.wrN a n v).secondFault = s.secondFault := by simp [State.wrN]
@[simp] theorem wrN_freeCtr (s : State) (a n v : Nat) : (s.wrN a n v).freeCtr = s.freeCtr := by simp [State.wrN]
@[simp] theorem wrN_out (s : State) (a n v : Nat) : (s.wrN a n v).out = s.out := by simp [State.wrN]

@[simp] theorem zero_pending (s : State) (lo n : Nat) : (s.zero lo n).pending = s.pending := by unfold State.zero; rw [clearSems_pending]
@[simp] theorem zero_es (s : State) (lo n : Nat) : (s.zero lo n).es = s.es := by unfold State.zero; rw [clearSems_es]
@[simp] theorem zero_now (s : State) (lo n : Nat) : (s.zero lo n).now = s.now := by unfold State.zero; rw [clearSems_now]
@[simp] theorem zero_latch (s : State) (lo n : Nat) : (s.zero lo n).latch = s.latch := by unfold State.zero; rw [clearSems_latch]
@[simp] theorem zero_vdis (s : State) (lo n : Nat) : (s.zero lo n).vdis = s.vdis := by unfold State.zero; rw [clearSems_vdis]
@[simp] theorem zero_ctxs (s : State) (lo n : Nat) : (s.zero lo n).ctxs = s.ctxs := by unfold State.zero; rw [clearSems_ctxs]
@[simp] theorem zero_power (s : State) (lo n : Nat) : (s.zero lo n).power = s.power := by unfold State.zero; rw [clearSems_power]
@[simp] theorem zero_wakeLatched (s : State) (lo n : Nat) : (s.zero lo n).wakeLatched = s.wakeLatched := by unfold State.zero; rw [clearSems_wakeLatched]
@[simp] theorem zero_perrN (s : State) (lo n : Nat) : (s.zero lo n).perrN = s.perrN := by unfold State.zero; rw [clearSems_perrN]
@[simp] theorem zero_resetPending (s : State) (lo n : Nat) : (s.zero lo n).resetPending = s.resetPending := by unfold State.zero; rw [clearSems_resetPending]
@[simp] theorem zero_mismatchVt (s : State) (lo n : Nat) : (s.zero lo n).mismatchVt = s.mismatchVt := by unfold State.zero; rw [clearSems_mismatchVt]
@[simp] theorem zero_secondFault (s : State) (lo n : Nat) : (s.zero lo n).secondFault = s.secondFault := by unfold State.zero; rw [clearSems_secondFault]
@[simp] theorem zero_freeCtr (s : State) (lo n : Nat) : (s.zero lo n).freeCtr = s.freeCtr := by unfold State.zero; rw [clearSems_freeCtr]
@[simp] theorem zero_out (s : State) (lo n : Nat) : (s.zero lo n).out = s.out := by unfold State.zero; rw [clearSems_out]

@[simp] theorem hatchFlush_pending (s : State) (h : Nat) (l : List (Nat × List Nat)) : (s.hatchFlush h l).pending = s.pending := by unfold State.hatchFlush; exact foldl_keep _ State.pending (fun _ _ => by dsimp only; split <;> simp) _ _
@[simp] theorem hatchFlush_es (s : State) (h : Nat) (l : List (Nat × List Nat)) : (s.hatchFlush h l).es = s.es := by unfold State.hatchFlush; exact foldl_keep _ State.es (fun _ _ => by dsimp only; split <;> simp) _ _
@[simp] theorem hatchFlush_now (s : State) (h : Nat) (l : List (Nat × List Nat)) : (s.hatchFlush h l).now = s.now := by unfold State.hatchFlush; exact foldl_keep _ State.now (fun _ _ => by dsimp only; split <;> simp) _ _
@[simp] theorem hatchFlush_mem (s : State) (h : Nat) (l : List (Nat × List Nat)) : (s.hatchFlush h l).mem = s.mem := by unfold State.hatchFlush; exact foldl_keep _ State.mem (fun _ _ => by dsimp only; split <;> simp) _ _
@[simp] theorem hatchFlush_latch (s : State) (h : Nat) (l : List (Nat × List Nat)) : (s.hatchFlush h l).latch = s.latch := by unfold State.hatchFlush; exact foldl_keep _ State.latch (fun _ _ => by dsimp only; split <;> simp) _ _
@[simp] theorem hatchFlush_vdis (s : State) (h : Nat) (l : List (Nat × List Nat)) : (s.hatchFlush h l).vdis = s.vdis := by unfold State.hatchFlush; exact foldl_keep _ State.vdis (fun _ _ => by dsimp only; split <;> simp) _ _
@[simp] theorem hatchFlush_ctxs (s : State) (h : Nat) (l : List (Nat × List Nat)) : (s.hatchFlush h l).ctxs = s.ctxs := by unfold State.hatchFlush; exact foldl_keep _ State.ctxs (fun _ _ => by dsimp only; split <;> simp) _ _
@[simp] theorem hatchFlush_power (s : State) (h : Nat) (l : List (Nat × List Nat)) : (s.hatchFlush h l).power = s.power := by unfold State.hatchFlush; exact foldl_keep _ State.power (fun _ _ => by dsimp only; split <;> simp) _ _
@[simp] theorem hatchFlush_wakeLatched (s : State) (h : Nat) (l : List (Nat × List Nat)) : (s.hatchFlush h l).wakeLatched = s.wakeLatched := by unfold State.hatchFlush; exact foldl_keep _ State.wakeLatched (fun _ _ => by dsimp only; split <;> simp) _ _
@[simp] theorem hatchFlush_perrN (s : State) (h : Nat) (l : List (Nat × List Nat)) : (s.hatchFlush h l).perrN = s.perrN := by unfold State.hatchFlush; exact foldl_keep _ State.perrN (fun _ _ => by dsimp only; split <;> simp) _ _
@[simp] theorem hatchFlush_resetPending (s : State) (h : Nat) (l : List (Nat × List Nat)) : (s.hatchFlush h l).resetPending = s.resetPending := by unfold State.hatchFlush; exact foldl_keep _ State.resetPending (fun _ _ => by dsimp only; split <;> simp) _ _
@[simp] theorem hatchFlush_mismatchVt (s : State) (h : Nat) (l : List (Nat × List Nat)) : (s.hatchFlush h l).mismatchVt = s.mismatchVt := by unfold State.hatchFlush; exact foldl_keep _ State.mismatchVt (fun _ _ => by dsimp only; split <;> simp) _ _
@[simp] theorem hatchFlush_secondFault (s : State) (h : Nat) (l : List (Nat × List Nat)) : (s.hatchFlush h l).secondFault = s.secondFault := by unfold State.hatchFlush; exact foldl_keep _ State.secondFault (fun _ _ => by dsimp only; split <;> simp) _ _
@[simp] theorem hatchFlush_freeCtr (s : State) (h : Nat) (l : List (Nat × List Nat)) : (s.hatchFlush h l).freeCtr = s.freeCtr := by unfold State.hatchFlush; exact foldl_keep _ State.freeCtr (fun _ _ => by dsimp only; split <;> simp) _ _

@[simp] theorem hatchSend_pending (s : State) (h kind : Nat) (l : List Nat) : (s.hatchSend h kind l).pending = s.pending := by unfold State.hatchSend; dsimp only; split <;> simp
@[simp] theorem hatchSend_es (s : State) (h kind : Nat) (l : List Nat) : (s.hatchSend h kind l).es = s.es := by unfold State.hatchSend; dsimp only; split <;> simp
@[simp] theorem hatchSend_now (s : State) (h kind : Nat) (l : List Nat) : (s.hatchSend h kind l).now = s.now := by unfold State.hatchSend; dsimp only; split <;> simp
@[simp] theorem hatchSend_mem (s : State) (h kind : Nat) (l : List Nat) : (s.hatchSend h kind l).mem = s.mem := by unfold State.hatchSend; dsimp only; split <;> simp
@[simp] theorem hatchSend_latch (s : State) (h kind : Nat) (l : List Nat) : (s.hatchSend h kind l).latch = s.latch := by unfold State.hatchSend; dsimp only; split <;> simp
@[simp] theorem hatchSend_vdis (s : State) (h kind : Nat) (l : List Nat) : (s.hatchSend h kind l).vdis = s.vdis := by unfold State.hatchSend; dsimp only; split <;> simp
@[simp] theorem hatchSend_ctxs (s : State) (h kind : Nat) (l : List Nat) : (s.hatchSend h kind l).ctxs = s.ctxs := by unfold State.hatchSend; dsimp only; split <;> simp
@[simp] theorem hatchSend_power (s : State) (h kind : Nat) (l : List Nat) : (s.hatchSend h kind l).power = s.power := by unfold State.hatchSend; dsimp only; split <;> simp
@[simp] theorem hatchSend_wakeLatched (s : State) (h kind : Nat) (l : List Nat) : (s.hatchSend h kind l).wakeLatched = s.wakeLatched := by unfold State.hatchSend; dsimp only; split <;> simp
@[simp] theorem hatchSend_perrN (s : State) (h kind : Nat) (l : List Nat) : (s.hatchSend h kind l).perrN = s.perrN := by unfold State.hatchSend; dsimp only; split <;> simp
@[simp] theorem hatchSend_resetPending (s : State) (h kind : Nat) (l : List Nat) : (s.hatchSend h kind l).resetPending = s.resetPending := by unfold State.hatchSend; dsimp only; split <;> simp
@[simp] theorem hatchSend_mismatchVt (s : State) (h kind : Nat) (l : List Nat) : (s.hatchSend h kind l).mismatchVt = s.mismatchVt := by unfold State.hatchSend; dsimp only; split <;> simp
@[simp] theorem hatchSend_secondFault (s : State) (h kind : Nat) (l : List Nat) : (s.hatchSend h kind l).secondFault = s.secondFault := by unfold State.hatchSend; dsimp only; split <;> simp
@[simp] theorem hatchSend_freeCtr (s : State) (h kind : Nat) (l : List Nat) : (s.hatchSend h kind l).freeCtr = s.freeCtr := by unfold State.hatchSend; dsimp only; split <;> simp

/-! ## Halves -/

@[simp] theorem half_setHalf_same (s : State) (h : Nat) (x : Half) : (s.setHalf h x).half h = x := by
  unfold State.setHalf State.half; split <;> dsimp only

theorem half_setHalf_other (s : State) {h k : Nat} (x : Half) (hk : ¬ (h = 0 ↔ k = 0)) : (s.setHalf h x).half k = s.half k := by
  unfold State.setHalf State.half; split <;> split <;> first | (exfalso; tauto) | dsimp only

@[simp] theorem half_upd_same (s : State) (h : Nat) (f : Half → Half) : (s.upd h f).half h = f (s.half h) := by simp [State.upd]

theorem half_upd_other (s : State) {h k : Nat} (f : Half → Half) (hk : ¬ (h = 0 ↔ k = 0)) : (s.upd h f).half k = s.half k :=
  half_setHalf_other s _ hk

/-- The two halves are told apart. -/
theorem peer_ne (h : Nat) : ¬ (h = 0 ↔ peer h = 0) := by unfold peer; split <;> simp_all

@[simp] theorem half_upd_peer (s : State) (h : Nat) (f : Half → Half) : (s.upd h f).half (peer h) = s.half (peer h) := half_upd_other s f (peer_ne h)

@[simp] theorem half_upd_peer' (s : State) (h : Nat) (f : Half → Half) : (s.upd (peer h) f).half h = s.half h :=
  half_upd_other s f (fun c => peer_ne h c.symm)

@[simp] theorem half_emit (s : State) (o : Out) (h : Nat) : (s.emit o).half h = s.half h := by dsimp only [State.half, State.emit, State.draw, State.setVdi, State.setCtx]
@[simp] theorem half_draw (s : State) (h : Nat) : s.draw.2.half h = s.half h := by dsimp only [State.half, State.emit, State.draw, State.setVdi, State.setCtx]
@[simp] theorem half_setVdi (s : State) (v : Nat) (x : Vdi) (h : Nat) : (s.setVdi v x).half h = s.half h := by dsimp only [State.half, State.emit, State.draw, State.setVdi, State.setCtx]
@[simp] theorem half_setCtx (s : State) (c : Nat) (x : Ctx) (h : Nat) : (s.setCtx c x).half h = s.half h := by dsimp only [State.half, State.emit, State.draw, State.setVdi, State.setCtx]
@[simp] theorem half_tick (s : State) (e : Ev) (h : Nat) : (tick e s).half h = (s.half h).tick e.dt := by
  unfold tick State.half; split <;> dsimp only

@[simp] theorem emit_out (s : State) (o : Out) : (s.emit o).out = o :: s.out := by dsimp only [State.emit]

theorem half_incident_same (s : State) (h src unit : Nat) (st : Status) (d : Nat) (hr : (s.half h).clk.rimUp = true) :
    (s.incident h src unit st d).half h = (s.half h).record src h unit st d := by simp [State.incident, hr]

@[simp] theorem half_incident_peer (s : State) (h src unit : Nat) (st : Status) (d : Nat) : (s.incident h src unit st d).half (peer h) = s.half (peer h) := by
  simp [State.incident]

/-- An incident touches no register of any half. -/
@[simp] theorem fld_incident (s : State) (h src unit : Nat) (st : Status) (d k : Nat) (g : Fld) (u i : Nat) :
    ((s.incident h src unit st d).half k).fld g u i = (s.half k).fld g u i := by
  by_cases hk : (h = 0 ↔ k = 0)
  · have : (s.incident h src unit st d).half k = (s.incident h src unit st d).half h := by
      unfold State.half; split <;> split <;> first | (exfalso; tauto) | rfl
    have h2 : s.half k = s.half h := by unfold State.half; split <;> split <;> first | (exfalso; tauto) | rfl
    rw [this, h2]
    simp only [State.incident, half_upd_same]
    split
    · exact fld_of_regs (by simp) g u i
    · exact fld_of_regs (by simp) g u i
  · rw [State.incident, half_upd_other _ _ hk]

/-! ## Lookups of the package -/

theorem vdi_setVdi (s : State) (v w : Nat) (x : Vdi) : (s.setVdi v x).vdi w = if w = v then x else s.vdi w := kget_kput
@[simp] theorem vdi_setVdi_same (s : State) (v : Nat) (x : Vdi) : (s.setVdi v x).vdi v = x := kget_kput_same
theorem ctx_setCtx (s : State) (c b : Nat) (x : Ctx) : (s.setCtx c x).ctx b = if b = c then x else s.ctx b := kget_kput
@[simp] theorem ctx_setCtx_same (s : State) (c : Nat) (x : Ctx) : (s.setCtx c x).ctx c = x := kget_kput_same

/-! ## Time -/

theorem tick_now (e : Ev) (s : State) : (tick e s).now = s.now + e.dt := by dsimp only [tick]

end Sys2Proof.Machine
end

