-- ==== Sys2Proof/Laws/Keeps.lean ====
section
/-! SUPPORT. What every operation keeps: the ordering code, the queue of commands, the elapsed time, and the canonical form of the memory. One lemma per
operation; the meanings are compositions of them. -/
namespace Sys2Proof.Machine

/-- `t` comes from `s` by operations that keep the ordering code, the queue and the time, and the memory's form. -/
structure Same (s t : State) : Prop where
  es : t.es = s.es
  pending : t.pending = s.pending
  now : t.now = s.now
  mem : Memory.wf s.mem = true → Memory.wf t.mem = true

variable {r₀ s : State}

theorem Same.refl (s : State) : Same s s := ⟨rfl, rfl, rfl, id⟩

theorem Same.trans {t : State} (h : Same r₀ s) (k : Same s t) : Same r₀ t :=
  ⟨k.es.trans h.es, k.pending.trans h.pending, k.now.trans h.now, fun w => k.mem (h.mem w)⟩

/-- A state written out in full. -/
theorem Same.mk_iff (p : List Instr) (e : Bool) (n : Nat) (h0 h1 : Half) (m : List Host.Cell) (l : Latch) (vd : List (Nat × Vdi)) (cs : List (Nat × Ctx))
    (pw : Nat) (wl : Option (Nat × Nat)) (pe rp : Bool) (mm : Option Nat) (sf : Bool) (fc : Nat) (o : List Out) :
    Same r₀ ⟨p, e, n, h0, h1, m, l, vd, cs, pw, wl, pe, rp, mm, sf, fc, o⟩ ↔
      (e = r₀.es ∧ p = r₀.pending ∧ n = r₀.now ∧ (Memory.wf r₀.mem = true → Memory.wf m = true)) :=
  ⟨fun h => ⟨h.es, h.pending, h.now, h.mem⟩, fun h => ⟨h.1, h.2.1, h.2.2.1, h.2.2.2⟩⟩

theorem Same.of_eq {t : State} (h : Same r₀ s) (he : t.es = s.es) (hp : t.pending = s.pending) (hn : t.now = s.now) (hm : t.mem = s.mem) : Same r₀ t :=
  ⟨he.trans h.es, hp.trans h.pending, hn.trans h.now, fun w => hm ▸ h.mem w⟩



theorem Same.ite {c : Prop} [Decidable c] {a b : State} (ha : Same r₀ a) (hb : Same r₀ b) : Same r₀ (if c then a else b) := by
  split
  · exact ha
  · exact hb

/-- A fold keeps what each of its steps keeps. -/
theorem Same.foldl {α : Type} (f : State → α → State) (l : List α) (hf : ∀ t a, Same r₀ t → Same r₀ (f t a)) (h : Same r₀ s) : Same r₀ (l.foldl f s) := by
  induction l generalizing s with
  | nil => exact h
  | cons a l ih => exact ih (hf _ _ h)

/-- The same for a fold that carries a state in a pair. -/
theorem Same.foldl_fst {α β : Type} (f : State × β → α → State × β) (l : List α) (p : State × β) (hf : ∀ q a, Same r₀ q.1 → Same r₀ (f q a).1)
    (h : Same r₀ p.1) : Same r₀ (l.foldl f p).1 := by
  induction l generalizing p with
  | nil => exact h
  | cons a l ih => exact ih _ (hf _ _ h)

theorem Same.foldl_snd {α β : Type} (f : β × State → α → β × State) (l : List α) (p : β × State) (hf : ∀ q a, Same r₀ q.2 → Same r₀ (f q a).2)
    (h : Same r₀ p.2) : Same r₀ (l.foldl f p).2 := by
  induction l generalizing p with
  | nil => exact h
  | cons a l ih => exact ih _ (hf _ _ h)

/-- The second part of a pair that an operation answered. -/
theorem Same.of_snd {α : Type} {p : α × State} {a : α} (e : p = (a, s)) (h : Same r₀ p.2) : Same r₀ s := by subst e; exact h

theorem Same.of_fst {α : Type} {p : State × α} {a : α} (e : p = (s, a)) (h : Same r₀ p.1) : Same r₀ s := by subst e; exact h

/-- A state that differs in fields the relation does not name. -/
theorem Same.fields (h : Same r₀ s) (h0 h1 : Half) (l : Latch) (vd : List (Nat × Vdi)) (cs : List (Nat × Ctx)) (pw : Nat) (wl : Option (Nat × Nat))
    (pe rp : Bool) (mm : Option Nat) (sf : Bool) (fc : Nat) (o : List Out) :
    Same r₀ ⟨s.pending, s.es, s.now, h0, h1, s.mem, l, vd, cs, pw, wl, pe, rp, mm, sf, fc, o⟩ := ⟨h.es, h.pending, h.now, h.mem⟩

theorem Same.setHalf (h : Same r₀ s) (k : Nat) (x : Half) : Same r₀ (s.setHalf k x) := h.of_eq (by simp) (by simp) (by simp) (by simp)
theorem Same.upd (h : Same r₀ s) (k : Nat) (f : Half → Half) : Same r₀ (s.upd k f) := h.of_eq (by simp) (by simp) (by simp) (by simp)
theorem Same.emit (h : Same r₀ s) (o : Out) : Same r₀ (s.emit o) := h.of_eq (by simp) (by simp) (by simp) (by simp)
theorem Same.draw (h : Same r₀ s) : Same r₀ s.draw.2 := h.of_eq (by simp) (by simp) (by simp) (by simp)
theorem Same.setVdi (h : Same r₀ s) (v : Nat) (x : Vdi) : Same r₀ (s.setVdi v x) := h.of_eq (by simp) (by simp) (by simp) (by simp)
theorem Same.setCtx (h : Same r₀ s) (c : Nat) (x : Ctx) : Same r₀ (s.setCtx c x) := h.of_eq (by simp) (by simp) (by simp) (by simp)
theorem Same.incident (h : Same r₀ s) (k src u : Nat) (st : Status) (d : Nat) : Same r₀ (s.incident k src u st d) :=
  h.of_eq (by simp) (by simp) (by simp) (by simp)
theorem Same.clearSems (h : Same r₀ s) (a n : Nat) : Same r₀ (s.clearSems a n) := h.of_eq (by simp) (by simp) (by simp) (by simp)

/-- A byte write keeps the canonical form. -/
theorem wf_kput_mem {m : List Host.Cell} (h : Memory.wf m = true) (a : Nat) (b : Byte) : Memory.wf (kput memD m a b) = true := kwf_kput h

/-- So does a write of bytes. -/
theorem wf_cellsWrite {m : List Host.Cell} (h : Memory.wf m = true) (a : Nat) (l : List Byte) : Memory.wf (cellsWrite m a l) = true := by
  induction l generalizing m a with
  | nil => exact h
  | cons b l ih => exact ih (wf_kput_mem h a b) _

theorem wf_kclear_mem {m : List Host.Cell} (h : Memory.wf m = true) (lo hi : Nat) : Memory.wf (kclear m lo hi) = true := kwf_kclear h

theorem Same.withMem (h : Same r₀ s) {m : List Host.Cell} (hm : Memory.wf s.mem = true → Memory.wf m = true) : Same r₀ { s with mem := m } :=
  ⟨h.es, h.pending, h.now, fun w => hm (h.mem w)⟩

theorem Same.wr (h : Same r₀ s) (a : Nat) (b : Byte) : Same r₀ (s.wr a b) := (h.withMem fun w => wf_kput_mem w a b).clearSems _ _

/-- So does a write that leaves some bytes out. -/
theorem wf_cellsMask (drop : Nat → Bool) {m : List Host.Cell} (h : Memory.wf m = true) (a : Nat) (l : List Byte) : Memory.wf (cellsMask drop m a l) = true := by
  induction l generalizing m a with
  | nil => exact h
  | cons b l ih =>
    unfold cellsMask
    split
    · exact ih h _
    · exact ih (wf_kput_mem h a b) _

theorem Same.wrMask (h : Same r₀ s) (drop : Nat → Bool) (a : Nat) (l : List Byte) : Same r₀ (s.wrMask drop a l) :=
  (h.withMem fun w => wf_cellsMask drop w a l).clearSems _ _
theorem Same.wrBytes (h : Same r₀ s) (a : Nat) (l : List Byte) : Same r₀ (s.wrBytes a l) := (h.withMem fun w => wf_cellsWrite w a l).clearSems _ _
theorem Same.wrN (h : Same r₀ s) (a n v : Nat) : Same r₀ (s.wrN a n v) := h.wrBytes _ _
theorem Same.zero (h : Same r₀ s) (lo n : Nat) : Same r₀ (s.zero lo n) := (h.withMem fun w => wf_kclear_mem w _ _).clearSems _ _


theorem Same.lose (h₀ : Same r₀ s) (lo : Nat) (n : Nat) : Same r₀ (s.lose lo n) := by
  exact h₀.withMem fun w => wf_kclear_mem w _ _

theorem Same.moveOn (h₀ : Same r₀ s) (h : Nat) : Same r₀ (s.moveOn h) := by
  unfold Sys2Proof.Machine.State.moveOn
  repeat' first
    | intro _ | with_reducible first | assumption | apply Same.draw | apply Same.upd
    | fail_if_no_progress with_reducible apply Same.fields | with_reducible first | refine Same.of_snd (by assumption) ?_ | refine Same.of_fst (by assumption) ?_ | apply Same.ite

theorem Same.hatchFlush (h₀ : Same r₀ s) (h : Nat) (l : List (Nat × List Nat)) : Same r₀ (s.hatchFlush h l) := by
  unfold Sys2Proof.Machine.State.hatchFlush
  repeat' first
    | intro _ | with_reducible first | assumption | apply Same.emit | apply Same.upd
    | fail_if_no_progress with_reducible apply Same.fields | with_reducible first | refine Same.foldl _ _ (fun _ _ _ => ?_) ?_ | refine Same.foldl_fst _ _ _ (fun _ _ _ => ?_) ?_ | refine Same.foldl_snd _ _ _ (fun _ _ _ => ?_) ?_ | refine Same.of_snd (by assumption) ?_ | refine Same.of_fst (by assumption) ?_ | apply Same.ite

theorem Same.hatchSend (h₀ : Same r₀ s) (h : Nat) (kind : Nat) (args : List Nat) : Same r₀ (s.hatchSend h kind args) := by
  unfold Sys2Proof.Machine.State.hatchSend
  repeat' first
    | intro _ | with_reducible first | assumption | apply Same.hatchFlush | apply Same.upd
    | fail_if_no_progress with_reducible apply Same.fields | with_reducible first | refine Same.of_snd (by assumption) ?_ | refine Same.of_fst (by assumption) ?_ | apply Same.ite

theorem Same.creditBack (h₀ : Same r₀ s) (h : Nat) (pool : Nat) (units : Nat) : Same r₀ (s.creditBack h pool units) := by
  unfold Sys2Proof.Machine.State.creditBack
  repeat' first
    | intro _ | with_reducible first | assumption | apply Same.hatchFlush | apply Same.upd

theorem Same.goingDown (h₀ : Same r₀ s) (h : Nat) (kind : Nat) (reason : Nat) (bound : Nat) : Same r₀ (s.goingDown h kind reason bound) := by
  unfold Sys2Proof.Machine.State.goingDown
  repeat' first
    | intro _ | with_reducible first | assumption | apply Same.emit | apply Same.hatchSend

theorem Same.refresh (h₀ : Same r₀ s) (a : Nat) (n : Nat) : Same r₀ (s.refresh a n) := by
  unfold Sys2Proof.Machine.State.refresh
  repeat' first
    | intro _ | with_reducible first | assumption | apply Same.upd

theorem Same.strErr (h₀ : Same r₀ s) (h : Nat) (off : Nat) : Same r₀ (s.strErr h off) := by
  unfold Sys2Proof.Machine.State.strErr
  repeat' first
    | intro _ | with_reducible first | assumption | apply Same.moveOn | apply Same.upd

theorem Same.strErrs (h₀ : Same r₀ s) (a : Nat) (n : Nat) : Same r₀ (s.strErrs a n) := by
  unfold Sys2Proof.Machine.State.strErrs
  repeat' first
    | intro _ | with_reducible first | assumption | apply Same.strErr
    | fail_if_no_progress with_reducible apply Same.fields | with_reducible first | refine Same.foldl _ _ (fun _ _ _ => ?_) ?_ | refine Same.foldl_fst _ _ _ (fun _ _ _ => ?_) ?_ | refine Same.foldl_snd _ _ _ (fun _ _ _ => ?_) ?_ | refine Same.of_snd (by assumption) ?_ | refine Same.of_fst (by assumption) ?_ | apply Same.ite

theorem Same.late (h₀ : Same r₀ s) (a : Nat) (st : Status) : Same r₀ (s.late a st) := by
  unfold Sys2Proof.Machine.State.late
  repeat' first
    | intro _ | with_reducible first | assumption | apply Same.upd
    | fail_if_no_progress with_reducible apply Same.fields | with_reducible first | refine Same.of_snd (by assumption) ?_ | refine Same.of_fst (by assumption) ?_ | apply Same.ite

theorem Same.readErrs (h₀ : Same r₀ s) (h : Nat) (a : Nat) (n : Nat) : Same r₀ (s.readErrs h a n) := by
  unfold Sys2Proof.Machine.State.readErrs
  repeat' first
    | intro _ | with_reducible first | assumption | apply Same.late | apply Same.strErrs
    | fail_if_no_progress with_reducible apply Same.fields | with_reducible first | refine Same.of_snd (by assumption) ?_ | refine Same.of_fst (by assumption) ?_ | apply Same.ite

theorem Same.store (h₀ : Same r₀ s) (h : Nat) (a : Nat) (l : List Byte) (v : optParam (Option Nat) none) : Same r₀ (s.store h a l v) := by
  unfold Sys2Proof.Machine.State.store
  repeat' first
    | intro _ | with_reducible first | assumption | apply Same.late | apply Same.refresh | apply Same.strErrs | apply Same.wrBytes | apply Same.wrMask
    | fail_if_no_progress with_reducible apply Same.fields | with_reducible first | refine Same.of_snd (by assumption) ?_ | refine Same.of_fst (by assumption) ?_ | apply Same.ite
    | split

theorem Same.clearRows (h₀ : Same r₀ s) (h : Nat) (off : Nat) (n : Nat) : Same r₀ (s.clearRows h off n) := by
  unfold Sys2Proof.Machine.State.clearRows
  repeat' first
    | intro _ | with_reducible first | assumption | apply Same.upd | apply Same.zero

theorem Same.markPage (h₀ : Same r₀ s) (v : Nat) (bit : Nat) : Same r₀ (s.markPage v bit) := by
  unfold Sys2Proof.Machine.State.markPage
  repeat' first
    | intro _ | with_reducible first | assumption | apply Same.upd | apply Same.wr
    | fail_if_no_progress with_reducible apply Same.fields | with_reducible first | refine Same.of_snd (by assumption) ?_ | refine Same.of_fst (by assumption) ?_ | apply Same.ite

theorem Same.logWrite (h₀ : Same r₀ s) (h : Nat) (v : Nat) (a : Nat) (n : Nat) : Same r₀ (s.logWrite h v a n) := by
  unfold Sys2Proof.Machine.State.logWrite
  repeat' first
    | intro _ | with_reducible first | assumption | apply Same.markPage
    | fail_if_no_progress with_reducible apply Same.fields | with_reducible first | refine Same.foldl _ _ (fun _ _ _ => ?_) ?_ | refine Same.foldl_fst _ _ _ (fun _ _ _ => ?_) ?_ | refine Same.foldl_snd _ _ _ (fun _ _ _ => ?_) ?_ | refine Same.of_snd (by assumption) ?_ | refine Same.of_fst (by assumption) ?_ | apply Same.ite

theorem Same.storeV (h₀ : Same r₀ s) (h : Nat) (v : Nat) (a : Nat) (l : List Byte) : Same r₀ (s.storeV h v a l) := by
  unfold Sys2Proof.Machine.State.storeV
  repeat' first
    | intro _ | with_reducible first | assumption | apply Same.late | apply Same.logWrite | apply Same.store
    | fail_if_no_progress with_reducible apply Same.fields | with_reducible first | refine Same.of_snd (by assumption) ?_ | refine Same.of_fst (by assumption) ?_ | apply Same.ite
    | split

theorem Same.hWr (h₀ : Same r₀ s) (h : Nat) (p : Nat) (entry : Nat) (off : Nat) (l : List Byte) : Same r₀ (s.hWr h p entry off l) := by
  unfold Sys2Proof.Machine.State.hWr
  repeat' first
    | intro _ | with_reducible first | assumption | apply Same.store | apply Same.upd
    | fail_if_no_progress with_reducible apply Same.fields | with_reducible first | refine Same.of_snd (by assumption) ?_ | refine Same.of_fst (by assumption) ?_ | apply Same.ite
    | split

theorem Same.notice (h₀ : Same r₀ s) (v : Nat) (bit : Nat) (detail : Nat) (st : Status) : Same r₀ (s.notice v bit detail st) := by
  unfold Sys2Proof.Machine.State.notice
  repeat' first
    | intro _ | with_reducible first | assumption | apply Same.emit | apply Same.upd
    | fail_if_no_progress with_reducible apply Same.fields | with_reducible first | refine Same.of_snd (by assumption) ?_ | refine Same.of_fst (by assumption) ?_ | apply Same.ite

theorem Same.noticeBare (h₀ : Same r₀ s) (v : Nat) (bit : Nat) : Same r₀ (s.noticeBare v bit) := by
  unfold Sys2Proof.Machine.State.noticeBare
  repeat' first
    | intro _ | with_reducible first | assumption | apply Same.draw | apply Same.emit | apply Same.upd
    | fail_if_no_progress with_reducible apply Same.fields | with_reducible first | refine Same.of_snd (by assumption) ?_ | refine Same.of_fst (by assumption) ?_ | apply Same.ite

theorem Same.serr (h₀ : Same r₀ s) (h : Nat) : Same r₀ (s.serr h) := by
  unfold Sys2Proof.Machine.State.serr
  repeat' first
    | intro _ | with_reducible first | assumption | apply Same.upd

theorem Same.fetchRecord (h₀ : Same r₀ s) (c : Nat) : Same r₀ (s.fetchRecord c) := by
  unfold Sys2Proof.Machine.State.fetchRecord
  repeat' first
    | intro _ | with_reducible first | assumption | apply Same.setCtx
    | fail_if_no_progress with_reducible apply Same.fields | with_reducible first | refine Same.of_snd (by assumption) ?_ | refine Same.of_fst (by assumption) ?_ | apply Same.ite

theorem Same.writeBack (h₀ : Same r₀ s) (h : Nat) (c : Nat) : Same r₀ (s.writeBack h c) := by
  unfold Sys2Proof.Machine.State.writeBack
  repeat' first
    | intro _ | with_reducible first | assumption | apply Same.store | apply Same.upd
    | fail_if_no_progress with_reducible apply Same.fields | with_reducible first | refine Same.of_snd (by assumption) ?_ | refine Same.of_fst (by assumption) ?_ | apply Same.ite

theorem Same.cacheCtx (h₀ : Same r₀ s) (h : Nat) (c : Nat) : Same r₀ (s.cacheCtx h c) := by
  unfold Sys2Proof.Machine.State.cacheCtx
  repeat' first
    | intro _ | with_reducible first | assumption | apply Same.fetchRecord | apply Same.upd | apply Same.writeBack
    | fail_if_no_progress with_reducible apply Same.fields | with_reducible first | refine Same.of_snd (by assumption) ?_ | refine Same.of_fst (by assumption) ?_ | apply Same.ite
    | split | dsimp only

theorem Same.touchCtx (h₀ : Same r₀ s) (h : Nat) (c : Nat) : Same r₀ (s.touchCtx h c) := by
  unfold Sys2Proof.Machine.State.touchCtx
  repeat' first
    | intro _ | with_reducible first | assumption | apply Same.upd

theorem Same.wipeRecords (h₀ : Same r₀ s) (l : List Nat) : Same r₀ (s.wipeRecords l) := by
  unfold Sys2Proof.Machine.State.wipeRecords
  repeat' first
    | intro _ | with_reducible first | assumption | apply Same.zero
    | with_reducible first | refine Same.foldl _ _ (fun _ _ _ => ?_) ?_

theorem Same.shareReady (h₀ : Same r₀ s) (h : Nat) (c : Nat) : Same r₀ (s.shareReady h c) := by
  unfold Sys2Proof.Machine.State.shareReady
  repeat' first
    | intro _ | with_reducible first | assumption | apply Same.upd
    | fail_if_no_progress with_reducible apply Same.fields | with_reducible first | refine Same.of_snd (by assumption) ?_ | refine Same.of_fst (by assumption) ?_ | apply Same.ite

theorem Same.shareCharge (h₀ : Same r₀ s) (h : Nat) (c : Nat) (ns : Nat) : Same r₀ (s.shareCharge h c ns) := by
  unfold Sys2Proof.Machine.State.shareCharge
  repeat' first
    | intro _ | with_reducible first | assumption | apply Same.upd
    | fail_if_no_progress with_reducible apply Same.fields | with_reducible first | refine Same.of_snd (by assumption) ?_ | refine Same.of_fst (by assumption) ?_ | apply Same.ite
    | split | dsimp only

theorem Same.shareIdle (h₀ : Same r₀ s) (h : Nat) (c : Nat) : Same r₀ (s.shareIdle h c) := by
  unfold Sys2Proof.Machine.State.shareIdle
  repeat' first
    | intro _ | with_reducible first | assumption | apply Same.setCtx | apply Same.upd
    | fail_if_no_progress with_reducible apply Same.fields | with_reducible first | refine Same.of_snd (by assumption) ?_ | refine Same.of_fst (by assumption) ?_ | apply Same.ite

theorem Same.account (h₀ : Same r₀ s) (h : Nat) (c : Nat) (r : Cpl) (charged : Bool) : Same r₀ (s.account h c r charged) := by
  unfold Sys2Proof.Machine.State.account
  repeat' first
    | intro _ | with_reducible first | assumption | apply Same.setCtx | apply Same.shareCharge | apply Same.upd
    | fail_if_no_progress with_reducible apply Same.fields | with_reducible first | refine Same.of_snd (by assumption) ?_ | refine Same.of_fst (by assumption) ?_ | apply Same.ite

theorem Same.postQ (h₀ : Same r₀ s) (q : Nat) (gen : Nat) (r : Cpl) : Same r₀ (s.postQ q gen r) := by
  unfold Sys2Proof.Machine.State.postQ
  repeat' first
    | intro _ | with_reducible first | assumption | apply Same.account | apply Same.emit | apply Same.storeV | apply Same.upd
    | fail_if_no_progress with_reducible apply Same.fields | with_reducible first | refine Same.of_snd (by assumption) ?_ | refine Same.of_fst (by assumption) ?_ | apply Same.ite

theorem Same.countRx (h₀ : Same r₀ s) (h : Nat) : Same r₀ (s.countRx h) := by
  unfold Sys2Proof.Machine.State.countRx
  repeat' first
    | intro _ | with_reducible first | assumption | apply Same.draw | apply Same.upd

theorem Same.countTx (h₀ : Same r₀ s) (h : Nat) (port : Option Nat) : Same r₀ (s.countTx h port) := by
  unfold Sys2Proof.Machine.State.countTx
  repeat' first
    | intro _ | with_reducible first | assumption | apply Same.draw | apply Same.upd
    | fail_if_no_progress with_reducible apply Same.fields | with_reducible first | refine Same.of_snd (by assumption) ?_ | refine Same.of_fst (by assumption) ?_ | apply Same.ite
    | split

theorem Same.watchAnswer (h₀ : Same r₀ s) (h : Nat) (w : Watch) : Same r₀ (s.watchAnswer h w) := by
  unfold Sys2Proof.Machine.State.watchAnswer
  repeat' first
    | intro _ | with_reducible first | assumption | apply Same.countTx | apply Same.emit | apply Same.hatchSend
    | fail_if_no_progress with_reducible apply Same.fields | with_reducible first | refine Same.of_snd (by assumption) ?_ | refine Same.of_fst (by assumption) ?_ | apply Same.ite
    | split

theorem Same.addWatch (h₀ : Same r₀ s) (h : Nat) (w : Watch) : Same r₀ (s.addWatch h w) := by
  unfold Sys2Proof.Machine.State.addWatch
  repeat' first
    | intro _ | with_reducible first | assumption | apply Same.upd | apply Same.watchAnswer
    | fail_if_no_progress with_reducible apply Same.fields | with_reducible first | refine Same.of_snd (by assumption) ?_ | refine Same.of_fst (by assumption) ?_ | apply Same.ite

theorem Same.answerWatches (h₀ : Same r₀ s) (h : Nat) : Same r₀ (s.answerWatches h) := by
  unfold Sys2Proof.Machine.State.answerWatches
  repeat' first
    | intro _ | with_reducible first | assumption | apply Same.upd | apply Same.watchAnswer
    | with_reducible first | refine Same.foldl _ _ (fun _ _ _ => ?_) ?_

theorem Same.fence (h₀ : Same r₀ s) (h : Nat) (d : Nat) (v : Nat) : Same r₀ (s.fence h d v) := by
  unfold Sys2Proof.Machine.State.fence
  repeat' first
    | intro _ | with_reducible first | assumption | apply Same.answerWatches | apply Same.storeV
    | fail_if_no_progress with_reducible apply Same.fields | with_reducible first | refine Same.of_snd (by assumption) ?_ | refine Same.of_fst (by assumption) ?_ | apply Same.ite

theorem Same.finishQ (h₀ : Same r₀ s) (q : Nat) (gen : Nat) (i : Nat) (d : Nat) (r : Cpl) : Same r₀ (s.finishQ q gen i d r) := by
  unfold Sys2Proof.Machine.State.finishQ
  repeat' first
    | intro _ | with_reducible first | assumption | apply Same.fence | apply Same.postQ | apply Same.upd
    | fail_if_no_progress with_reducible apply Same.fields | with_reducible first | refine Same.of_snd (by assumption) ?_ | refine Same.of_fst (by assumption) ?_ | apply Same.ite

theorem Same.requeueQ (h₀ : Same r₀ s) (q : Nat) (gen : Nat) (i : Nat) (r : Cpl) (past : Nat) (pre : Nat) : Same r₀ (s.requeueQ q gen i r past pre) := by
  unfold Sys2Proof.Machine.State.requeueQ
  repeat' first
    | intro _ | with_reducible first | assumption | apply Same.postQ | apply Same.upd
    | fail_if_no_progress with_reducible apply Same.fields | with_reducible first | refine Same.of_snd (by assumption) ?_ | refine Same.of_fst (by assumption) ?_ | apply Same.ite

theorem Same.postE (h₀ : Same r₀ s) (h : Nat) (n : Nat) (entry : Nat) (k : Nat) (r : Cpl) : Same r₀ (s.postE h n entry k r) := by
  unfold Sys2Proof.Machine.State.postE
  repeat' first
    | intro _ | with_reducible first | assumption | apply Same.account | apply Same.storeV | apply Same.upd
    | fail_if_no_progress with_reducible apply Same.fields | with_reducible first | refine Same.of_snd (by assumption) ?_ | refine Same.of_fst (by assumption) ?_ | apply Same.ite

theorem Same.finish (h₀ : Same r₀ s) (h : Nat) (w : Work) (gen : Nat) (i : Nat) (rec : Nat) (d : Nat) (r : Cpl) : Same r₀ (s.finish h w gen i rec d r) := by
  unfold Sys2Proof.Machine.State.finish
  repeat' first
    | intro _ | with_reducible first | assumption | apply Same.fence | apply Same.finishQ | apply Same.postE
    | fail_if_no_progress with_reducible apply Same.fields | with_reducible first | refine Same.of_snd (by assumption) ?_ | refine Same.of_fst (by assumption) ?_ | apply Same.ite
    | split

theorem Same.dropWatch (h₀ : Same r₀ s) (q : Nat) : Same r₀ (s.dropWatch q) := by
  unfold Sys2Proof.Machine.State.dropWatch
  repeat' first
    | intro _ | with_reducible first | assumption | apply Same.upd

theorem Same.rewind (h₀ : Same r₀ s) (q : Nat) : Same r₀ (s.rewind q) := by
  unfold Sys2Proof.Machine.State.rewind
  repeat' first
    | intro _ | with_reducible first | assumption | apply Same.dropWatch | apply Same.postQ | apply Same.upd
    | fail_if_no_progress with_reducible apply Same.fields | with_reducible first | refine Same.of_snd (by assumption) ?_ | refine Same.of_fst (by assumption) ?_ | apply Same.ite
    | split | dsimp only

theorem Same.rewindAll (h₀ : Same r₀ s) (h : Nat) (p : Nat → Bool) : Same r₀ (s.rewindAll h p) := by
  unfold Sys2Proof.Machine.State.rewindAll
  repeat' first
    | intro _ | with_reducible first | assumption | apply Same.rewind
    | fail_if_no_progress with_reducible apply Same.fields | with_reducible first | refine Same.foldl _ _ (fun _ _ _ => ?_) ?_ | refine Same.foldl_fst _ _ _ (fun _ _ _ => ?_) ?_ | refine Same.foldl_snd _ _ _ (fun _ _ _ => ?_) ?_ | refine Same.of_snd (by assumption) ?_ | refine Same.of_fst (by assumption) ?_ | apply Same.ite

theorem Same.pay (h₀ : Same r₀ s) (h : Nat) (p : Nat) (k : Nat) (write : Bool) (a : Nat) (n : Nat) : Same r₀ (s.pay h p k write a n) := by
  unfold Sys2Proof.Machine.State.pay
  repeat' first
    | intro _ | with_reducible first | assumption | apply Same.upd
    | fail_if_no_progress with_reducible apply Same.fields | with_reducible first | refine Same.of_snd (by assumption) ?_ | refine Same.of_fst (by assumption) ?_ | apply Same.ite

theorem Same.condErrs (h₀ : Same r₀ s) (a : Nat) (c : Nat) : Same r₀ (s.condErrs a c) := by
  unfold Sys2Proof.Machine.State.condErrs
  repeat' first
    | intro _ | with_reducible first | assumption | apply Same.strErrs

theorem Same.sideWr (h₀ : Same r₀ s) (h : Nat) (p : Nat) (vdi : Nat) (isH : Bool) (hd : Nat) (a : Nat) (l : List Byte) : Same r₀ (s.sideWr h p vdi isH hd a l) := by
  unfold Sys2Proof.Machine.State.sideWr
  repeat' first
    | intro _ | with_reducible first | assumption | apply Same.hWr | apply Same.storeV
    | fail_if_no_progress with_reducible apply Same.fields | with_reducible first | refine Same.of_snd (by assumption) ?_ | refine Same.of_fst (by assumption) ?_ | apply Same.ite

theorem Same.lateSide (h₀ : Same r₀ s) (h : Nat) (p : Nat) (d : Nat) : Same r₀ (s.lateSide h p d) := by
  unfold Sys2Proof.Machine.State.lateSide
  repeat' first
    | intro _ | with_reducible first | assumption | apply Same.upd

theorem Same.putScales (h₀ : Same r₀ s) (h : Nat) (p : Nat) (vdi : Nat) (d : Nat) (dq : Nat) (l : List Nat) : Same r₀ (s.putScales h p vdi d dq l) := by
  unfold Sys2Proof.Machine.State.putScales
  repeat' first
    | intro _ | with_reducible first | assumption | apply Same.sideWr
    | fail_if_no_progress with_reducible apply Same.fields | with_reducible first | refine Same.of_snd (by assumption) ?_ | refine Same.of_fst (by assumption) ?_ | apply Same.ite
    | split | dsimp only

theorem Same.payCore (h₀ : Same r₀ s) (h : Nat) (p : Nat) (write : Bool) (isH : Bool) (a : Nat) (n : Nat) : Same r₀ (s.payCore h p write isH a n) := by
  unfold Sys2Proof.Machine.State.payCore
  repeat' first
    | intro _ | with_reducible first | assumption | apply Same.pay
    | fail_if_no_progress with_reducible apply Same.fields | with_reducible first | refine Same.of_snd (by assumption) ?_ | refine Same.of_fst (by assumption) ?_ | apply Same.ite
    | split

/-- The state a move carries. -/
theorem Same.movePiece {m : Mv} (h₀ : Same r₀ m.s) (h p vdi d t : Nat) (q : Piece) : Same r₀ (movePiece h p vdi d t m q).s := by
  unfold Sys2Proof.Machine.movePiece
  repeat' first
    | intro _ | with_reducible first | assumption | apply Same.sideWr | apply Same.putScales | apply Same.payCore
    | fail_if_no_progress with_reducible apply Same.fields | with_reducible first | apply Same.ite
    | split | dsimp only

theorem Same.foldl_mv {α : Type} (f : Mv → α → Mv) (l : List α) (m : Mv) (hf : ∀ q a, Same r₀ q.s → Same r₀ (f q a).s)
    (h : Same r₀ m.s) : Same r₀ (l.foldl f m).s := by
  induction l generalizing m with
  | nil => exact h
  | cons a l ih => exact ih _ (hf _ _ h)

theorem Same.moveLedger {m : Mv} (h₀ : Same r₀ m.s) (h p vdi d : Nat) : Same r₀ (moveLedger h p vdi d m).s := by
  unfold Sys2Proof.Machine.moveLedger
  repeat' first
    | intro _ | with_reducible first | assumption | apply Same.sideWr
    | fail_if_no_progress with_reducible apply Same.fields | with_reducible first | refine Same.foldl_mv _ _ _ (fun _ _ _ => ?_) ?_ | apply Same.ite
    | split | dsimp only

/-- A descriptor's move writes memory, the Till and the buckets alone. -/
theorem Same.dmaMove (h₀ : Same r₀ s) (h p vdi d t stop : Nat) : Same r₀ (s.dmaMove h p vdi d t stop).s := by
  unfold Sys2Proof.Machine.State.dmaMove
  have k : ∀ l, Same r₀ (List.foldl (fun m r => List.foldl (Sys2Proof.Machine.movePiece h p vdi d t) m (dmaPieces d r)) (Mv.start s) l).s := fun l =>
    Same.foldl_mv _ _ _ (fun _ _ k => Same.foldl_mv _ _ _ (fun _ _ k => Same.movePiece k _ _ _ _ _ _) k) h₀
  dsimp only
  generalize (if mRowBytes d = 0 then 0 else mRows d) = n
  split
  · exact Same.moveLedger (k _) _ _ _ _
  · exact k _

theorem Same.countMove (h₀ : Same r₀ s) (h : Nat) (p : Nat) (unit : Nat) (d : Nat) (n : Nat) : Same r₀ (s.countMove h p unit d n) := by
  unfold Sys2Proof.Machine.State.countMove
  repeat' first
    | intro _ | with_reducible first | assumption | apply Same.upd
    | fail_if_no_progress with_reducible apply Same.fields | with_reducible first | refine Same.of_snd (by assumption) ?_ | refine Same.of_fst (by assumption) ?_ | apply Same.ite
    | split | dsimp only

theorem Same.Cx.write (h₀ : Same r₀ s) (cx : Cx) (i : Nat) (off : Nat) (l : List Byte) : Same r₀ (Cx.write cx s i off l) := by
  unfold Sys2Proof.Machine.Cx.write
  repeat' first
    | intro _ | with_reducible first | assumption | apply Same.hWr | apply Same.storeV
    | fail_if_no_progress with_reducible apply Same.fields | with_reducible first | refine Same.of_snd (by assumption) ?_ | refine Same.of_fst (by assumption) ?_ | apply Same.ite

/-! ## SIMT clusters -/

theorem Same.exLanes {e : Ex} (h₀ : Same r₀ e.s) (mask : Nat) (f : Ex → Nat → Ex) (hf : ∀ x l, Same r₀ x.s → Same r₀ (f x l).s) :
    Same r₀ (e.onLanes mask f).s := by
  unfold Sys2Proof.Machine.Ex.onLanes
  generalize lanesOf mask = l
  induction l generalizing e with
  | nil => exact h₀
  | cons a l ih => exact ih (hf _ _ h₀)

theorem Same.exNote {e : Ex} (h₀ : Same r₀ e.s) (cx : Cx) (r : SimtRes) : Same r₀ (e.note cx r).s := by
  unfold Sys2Proof.Machine.Ex.note
  split
  all_goals first | exact h₀ | exact Same.strErr h₀ _ _

theorem Same.exSet {e : Ex} (h₀ : Same r₀ e.s) (lane id : Nat) (v : Val) : Same r₀ (e.set lane id v).s := h₀

theorem Same.exLoad {e : Ex} (h₀ : Same r₀ e.s) (cx : Cx) (lane : Nat) (ptr : Val) (ls : List (Nat × Nat)) : Same r₀ (e.load cx lane ptr ls).2.s := by
  unfold Sys2Proof.Machine.Ex.load
  repeat' first
    | intro _ | with_reducible first | assumption | apply Same.exNote
    | fail_if_no_progress with_reducible apply Same.fields | with_reducible first | apply Same.ite
    | split | dsimp only

theorem Same.exStore {e : Ex} (h₀ : Same r₀ e.s) (cx : Cx) (lane : Nat) (ptr : Val) (ls : List (Nat × Nat)) (v : Val) : Same r₀ (e.store cx lane ptr ls v).s := by
  unfold Sys2Proof.Machine.Ex.store
  repeat' first
    | intro _ | with_reducible first | assumption | apply Same.exNote | apply Same.Cx.write
    | fail_if_no_progress with_reducible apply Same.fields | with_reducible first | refine Same.foldl _ _ (fun _ _ _ => ?_) ?_ | apply Same.ite
    | split | dsimp only

/-- A fold over what an instruction leaves. -/
theorem Same.foldl_ex {α : Type} (f : Ex → α → Ex) (l : List α) {e : Ex} (hf : ∀ x a, Same r₀ x.s → Same r₀ (f x a).s) (h : Same r₀ e.s) :
    Same r₀ (l.foldl f e).s := by
  induction l generalizing e with
  | nil => exact h
  | cons a l ih => exact ih (hf _ _ h)

theorem Same.exGoto {e : Ex} (h₀ : Same r₀ e.s) (cx : Cx) (f : Fibre) (lanes t : Nat) : Same r₀ (e.goto cx f lanes t).1.s := by
  unfold Sys2Proof.Machine.Ex.goto
  exact Same.exLanes h₀ _ _ fun x l h => Same.foldl_ex _ _ (fun _ _ h => h) h

theorem Same.exSpread {e : Ex} (h₀ : Same r₀ e.s) (cx : Cx) (f : Fibre) (ts : List Nat) (target : Nat → Nat) : Same r₀ (e.spread cx f ts target).1.s := by
  unfold Sys2Proof.Machine.Ex.spread
  have k : ∀ (l : List Nat) (a : Ex × List Fibre), Same r₀ a.1.s → Same r₀ (l.foldl (fun (a : Ex × List Fibre) t =>
      let l := (lanesOf f.lanes).filter fun i => target i = t
      if l = [] then a else let g := a.1.goto cx f (maskOf l) t; (g.1, a.2 ++ [g.2])) a).1.s := by
    intro l
    induction l with
    | nil => exact fun _ h => h
    | cons t l ih =>
      intro a h
      refine ih _ ?_
      dsimp only
      split
      · exact h
      · exact Same.exGoto h _ _ _ _
  exact k _ _ h₀

theorem Same.exRet {e : Ex} (h₀ : Same r₀ e.s) (cx : Cx) (f : Fibre) (v : Option Nat) : Same r₀ (e.ret cx f v).1.s := by
  unfold Sys2Proof.Machine.Ex.ret
  repeat' first
    | intro _ | with_reducible first | assumption | refine Same.exLanes ?_ _ _ (fun _ _ _ => ?_) | apply Same.exSet
    | fail_if_no_progress with_reducible apply Same.fields | with_reducible first | apply Same.ite
    | split

theorem Same.exGroup {e : Ex} (h₀ : Same r₀ e.s) (cx : Cx) (f : Fibre) (i : Ins) : Same r₀ (e.group cx f i).s := by
  unfold Sys2Proof.Machine.Ex.group
  repeat' first
    | intro _ | with_reducible first | assumption | refine Same.exLanes ?_ _ _ (fun _ _ _ => ?_) | apply Same.exSet
    | fail_if_no_progress with_reducible apply Same.fields | with_reducible first | apply Same.ite
    | split

theorem Same.exIns {e : Ex} (h₀ : Same r₀ e.s) (cx : Cx) (f : Fibre) (i : Ins) : Same r₀ (e.ins cx f i).1.s := by
  unfold Sys2Proof.Machine.Ex.ins
  repeat' first
    | intro _ | with_reducible first | assumption | refine Same.exLanes ?_ _ _ (fun _ _ _ => ?_) | apply Same.exSet | apply Same.exStore
      | apply Same.exLoad | apply Same.exGoto | apply Same.exSpread | apply Same.exRet | apply Same.exGroup
    | fail_if_no_progress with_reducible apply Same.fields | with_reducible first | refine Same.foldl_ex _ _ (fun _ _ _ => ?_) ?_ | apply Same.ite
    | split

theorem Same.exIssue {e : Ex} (h₀ : Same r₀ e.s) (cx : Cx) : Same r₀ (e.issue cx).s := by
  unfold Sys2Proof.Machine.Ex.issue
  repeat' first
    | intro _ | with_reducible first | assumption | apply Same.exIns
    | fail_if_no_progress with_reducible apply Same.fields | with_reducible first | apply Same.ite
    | split | dsimp only

theorem Same.sxUpd {x : Sx} (h₀ : Same r₀ x.s) (cx : Cx) (f : Core → Core) : Same r₀ (x.upd cx f).s := by
  unfold Sys2Proof.Machine.Sx.upd
  dsimp only
  exact Same.upd h₀ _ _

theorem Same.sxAdmit {x : Sx} (h₀ : Same r₀ x.s) (cx : Cx) (k : Nat) : Same r₀ (Sx.admitGroups cx k x).s := by
  induction k generalizing x with
  | zero => exact h₀
  | succ k ih =>
    unfold Sys2Proof.Machine.Sx.admitGroups
    repeat' (first
      | (with_reducible assumption)
      | (intro _)
      | (with_reducible apply Same.sxUpd)
      | (with_reducible apply ih)
      | (fail_if_no_progress with_reducible apply Same.fields)
      | (with_reducible apply Same.ite)
      | (split)
      | (dsimp only))

theorem Same.sxStep {x : Sx} (h₀ : Same r₀ x.s) (cx : Cx) (n : Nat) : Same r₀ (Sx.step cx x n).s := by
  unfold Sys2Proof.Machine.Sx.step
  repeat' first
    | intro _ | with_reducible first | assumption | apply Same.sxUpd | apply Same.sxAdmit | apply Same.exIssue
    | fail_if_no_progress with_reducible apply Same.fields | with_reducible first | apply Same.ite
    | split | dsimp only

theorem Same.foldl_sx {α : Type} (f : Sx → α → Sx) (l : List α) {x : Sx} (hf : ∀ x a, Same r₀ x.s → Same r₀ (f x a).s) (h : Same r₀ x.s) :
    Same r₀ (l.foldl f x).s := by
  induction l generalizing x with
  | nil => exact h
  | cons a l ih => exact ih (hf _ _ h)

/-- The clusters' work on a tile writes memory, the core and the buckets alone. -/
theorem Same.simtRun (h₀ : Same r₀ s) (h p : Nat) (r : Run) (sched : List Nat) : Same r₀ (s.simtRun h p r sched).1.s := by
  unfold Sys2Proof.Machine.State.simtRun
  repeat' first
    | intro _ | with_reducible first | assumption | apply Same.sxUpd | apply Same.sxAdmit | apply Same.sxStep
    | fail_if_no_progress with_reducible apply Same.fields | with_reducible first | refine Same.foldl_sx _ _ (fun _ _ _ => ?_) ?_ | apply Same.ite
    | split | dsimp only

theorem Same.syncModels (h₀ : Same r₀ s)  : Same r₀ (s.syncModels) := by
  unfold Sys2Proof.Machine.State.syncModels
  repeat' first
    | intro _ | with_reducible first | assumption
    | fail_if_no_progress with_reducible apply Same.fields

theorem Same.touchModels (h₀ : Same r₀ s) (h : Nat) (ctx : Nat) (vdi : Nat) : Same r₀ (s.touchModels h ctx vdi) := by
  unfold Sys2Proof.Machine.State.touchModels
  repeat' first
    | intro _ | with_reducible first | assumption
    | fail_if_no_progress with_reducible apply Same.fields

theorem Same.bindModels (h₀ : Same r₀ s) (h : Nat) (ctx : Nat) (set : List (Nat × Nat)) : Same r₀ (s.bindModels h ctx set) := by
  unfold Sys2Proof.Machine.State.bindModels
  repeat' first
    | intro _ | with_reducible first | assumption | apply Same.upd

theorem Same.moveBound (h₀ : Same r₀ s) (m : ModelEntry) (g : Nat) : Same r₀ (s.moveBound m g) := by
  unfold Sys2Proof.Machine.State.moveBound
  repeat' first
    | intro _ | with_reducible first | assumption | apply Same.setCtx
    | fail_if_no_progress with_reducible apply Same.fields | with_reducible first | refine Same.foldl _ _ (fun _ _ _ => ?_) ?_ | refine Same.foldl_fst _ _ _ (fun _ _ _ => ?_) ?_ | refine Same.foldl_snd _ _ _ (fun _ _ _ => ?_) ?_

theorem Same.putModel (h₀ : Same r₀ s) (h : Nat) (key : Nat) (vdi : Nat) (mark : Nat) (src : Nat) (size : Nat) (i : Nat) (img : List Byte) (l : List ModelEntry) : Same r₀ (s.putModel h key vdi mark src size i img l) := by
  unfold Sys2Proof.Machine.State.putModel
  repeat' first
    | intro _ | with_reducible first | assumption | apply Same.clearRows | apply Same.moveBound | apply Same.pay | apply Same.upd | apply Same.wrBytes
    | fail_if_no_progress with_reducible apply Same.fields | with_reducible first | refine Same.of_snd (by assumption) ?_ | refine Same.of_fst (by assumption) ?_ | apply Same.ite
    | split

theorem Same.fetchModel (h₀ : Same r₀ s) (h : Nat) (ctx : Nat) (m : ModelEntry) : Same r₀ (s.fetchModel h ctx m).1 := by
  unfold Sys2Proof.Machine.State.fetchModel
  repeat' first
    | intro _ | with_reducible first | assumption | apply Same.incident | apply Same.putModel
    | fail_if_no_progress with_reducible apply Same.fields | with_reducible first | refine Same.of_snd (by assumption) ?_ | refine Same.of_fst (by assumption) ?_ | apply Same.ite
    | split

theorem Same.gateRefuse (h₀ : Same r₀ s) (h : Nat) (code : Nat) : Same r₀ (s.gateRefuse h code) := by
  unfold Sys2Proof.Machine.State.gateRefuse
  repeat' first
    | intro _ | with_reducible first | assumption | apply Same.incident | apply Same.upd

theorem Same.enterVault (h₀ : Same r₀ s) (h : Nat) (hart : Nat) (n : Nat) (pc : Nat) (a0 : Option Nat) (save : HartSave) (byIrq : Bool) : Same r₀ (s.enterVault h hart n pc a0 save byIrq) := by
  unfold Sys2Proof.Machine.State.enterVault
  repeat' first
    | intro _ | with_reducible first | assumption | apply Same.emit | apply Same.upd

theorem Same.takeIrq (h₀ : Same r₀ s) (h : Nat) (hart : Nat) (save : HartSave) (i : Nat) : Same r₀ (s.takeIrq h hart save i) := by
  unfold Sys2Proof.Machine.State.takeIrq
  repeat' first
    | intro _ | with_reducible first | assumption | apply Same.emit | apply Same.enterVault | apply Same.upd
    | fail_if_no_progress with_reducible apply Same.fields | with_reducible first | refine Same.of_snd (by assumption) ?_ | refine Same.of_fst (by assumption) ?_ | apply Same.ite
    | split

theorem Same.deliverIrq (h₀ : Same r₀ s) (h : Nat) (hart : Nat) (save : HartSave) : Same r₀ (s.deliverIrq h hart save) := by
  unfold Sys2Proof.Machine.State.deliverIrq
  repeat' first
    | intro _ | with_reducible first | assumption | apply Same.takeIrq
    | with_reducible first | refine Same.foldl _ _ (fun _ _ _ => ?_) ?_

theorem Same.interrupt (h₀ : Same r₀ s) (h : Nat) (hart : Nat) (ident : Nat) (save : HartSave) : Same r₀ (s.interrupt h hart ident save) := by
  unfold Sys2Proof.Machine.State.interrupt
  repeat' first
    | intro _ | with_reducible first | assumption | apply Same.deliverIrq | apply Same.emit | apply Same.upd
    | fail_if_no_progress with_reducible apply Same.fields | with_reducible first | refine Same.of_snd (by assumption) ?_ | refine Same.of_fst (by assumption) ?_ | apply Same.ite

theorem Same.exitVault (h₀ : Same r₀ s) (h : Nat) (hart : Nat) (st : Status) (a0 : Nat) (a1 : Nat) : Same r₀ (s.exitVault h hart st a0 a1) := by
  unfold Sys2Proof.Machine.State.exitVault
  repeat' first
    | intro _ | with_reducible first | assumption | apply Same.deliverIrq | apply Same.emit | apply Same.upd
    | fail_if_no_progress with_reducible apply Same.fields | with_reducible first | refine Same.of_snd (by assumption) ?_ | refine Same.of_fst (by assumption) ?_ | apply Same.ite
    | split | dsimp only

theorem Same.vaultFault (h₀ : Same r₀ s) (h : Nat) (hart : Nat) (cause : Nat) : Same r₀ (s.vaultFault h hart cause) := by
  unfold Sys2Proof.Machine.State.vaultFault
  repeat' first
    | intro _ | with_reducible first | assumption | apply Same.emit | apply Same.exitVault | apply Same.upd
    | fail_if_no_progress with_reducible apply Same.fields | with_reducible first | refine Same.of_snd (by assumption) ?_ | refine Same.of_fst (by assumption) ?_ | apply Same.ite
    | split | dsimp only

theorem Same.illegalAt (h₀ : Same r₀ s) (h : Nat) (hart : Nat) : Same r₀ (s.illegalAt h hart) := by
  unfold Sys2Proof.Machine.State.illegalAt
  repeat' first
    | intro _ | with_reducible first | assumption | apply Same.emit | apply Same.vaultFault
    | fail_if_no_progress with_reducible apply Same.fields | with_reducible first | refine Same.of_snd (by assumption) ?_ | refine Same.of_fst (by assumption) ?_ | apply Same.ite
    | split

theorem Same.hartFault (h₀ : Same r₀ s) (h : Nat) (hart : Nat) (cause : Nat) : Same r₀ (s.hartFault h hart cause) := by
  unfold Sys2Proof.Machine.State.hartFault
  repeat' first
    | intro _ | with_reducible first | assumption | apply Same.emit | apply Same.vaultFault
    | fail_if_no_progress with_reducible apply Same.fields | with_reducible first | refine Same.of_snd (by assumption) ?_ | refine Same.of_fst (by assumption) ?_ | apply Same.ite
    | split

theorem Same.accessFault (h₀ : Same r₀ s) (h : Nat) (hart : Nat) : Same r₀ (s.accessFault h hart) := by
  unfold Sys2Proof.Machine.State.accessFault
  repeat' first
    | intro _ | with_reducible first | assumption | apply Same.draw | apply Same.hartFault

theorem Same.dataFault (h₀ : Same r₀ s) (h : Nat) (hart : Nat) : Same r₀ (s.dataFault h hart) := by
  unfold Sys2Proof.Machine.State.dataFault
  repeat' first
    | intro _ | with_reducible first | assumption | apply Same.draw | apply Same.hartFault

theorem Same.expel (h₀ : Same r₀ s) (h : Nat) (n : Nat) : Same r₀ (s.expel h n) := by
  unfold Sys2Proof.Machine.State.expel
  repeat' first
    | intro _ | with_reducible first | assumption | apply Same.exitVault
    | fail_if_no_progress with_reducible apply Same.fields | with_reducible first | refine Same.foldl _ _ (fun _ _ _ => ?_) ?_ | refine Same.foldl_fst _ _ _ (fun _ _ _ => ?_) ?_ | refine Same.foldl_snd _ _ _ (fun _ _ _ => ?_) ?_ | refine Same.of_snd (by assumption) ?_ | refine Same.of_fst (by assumption) ?_ | apply Same.ite

theorem Same.endVault (h₀ : Same r₀ s) (h : Nat) (n : Nat) : Same r₀ (s.endVault h n) := by
  unfold Sys2Proof.Machine.State.endVault
  repeat' first
    | intro _ | with_reducible first | assumption | apply Same.expel | apply Same.upd | apply Same.zero
    | fail_if_no_progress with_reducible apply Same.fields | with_reducible first | refine Same.foldl _ _ (fun _ _ _ => ?_) ?_ | refine Same.foldl_fst _ _ _ (fun _ _ _ => ?_) ?_ | refine Same.foldl_snd _ _ _ (fun _ _ _ => ?_) ?_ | refine Same.of_snd (by assumption) ?_ | refine Same.of_fst (by assumption) ?_ | apply Same.ite

theorem Same.startDestroy (h₀ : Same r₀ s) (h : Nat) (n : Nat) : Same r₀ (s.startDestroy h n) := by
  unfold Sys2Proof.Machine.State.startDestroy
  repeat' first
    | intro _ | with_reducible first | assumption | apply Same.expel | apply Same.upd

theorem Same.doorCreate (h₀ : Same r₀ s) (h : Nat) (hart : Nat) (addr : Nat) : Same r₀ (s.doorCreate h hart addr) := by
  unfold Sys2Proof.Machine.State.doorCreate
  repeat' first
    | intro _ | with_reducible first | assumption | apply Same.emit | apply Same.readErrs | apply Same.upd | apply Same.wrN
    | fail_if_no_progress with_reducible apply Same.fields | with_reducible first | refine Same.of_snd (by assumption) ?_ | refine Same.of_fst (by assumption) ?_ | apply Same.ite
    | split | dsimp only

theorem Same.sealVault (h₀ : Same r₀ s) (h : Nat) (n : Nat) : Same r₀ (s.sealVault h n) := by
  unfold Sys2Proof.Machine.State.sealVault
  repeat' first
    | intro _ | with_reducible first | assumption | apply Same.endVault | apply Same.upd | apply Same.wrN | apply Same.zero
    | fail_if_no_progress with_reducible apply Same.fields | with_reducible first | refine Same.foldl _ _ (fun _ _ _ => ?_) ?_ | refine Same.foldl_fst _ _ _ (fun _ _ _ => ?_) ?_ | refine Same.foldl_snd _ _ _ (fun _ _ _ => ?_) ?_ | refine Same.of_snd (by assumption) ?_ | refine Same.of_fst (by assumption) ?_ | apply Same.ite

theorem Same.doorDestroy (h₀ : Same r₀ s) (h : Nat) (hart : Nat) (n : Nat) : Same r₀ (s.doorDestroy h hart n) := by
  unfold Sys2Proof.Machine.State.doorDestroy
  repeat' first
    | intro _ | with_reducible first | assumption | apply Same.draw | apply Same.emit | apply Same.exitVault | apply Same.startDestroy
    | fail_if_no_progress with_reducible apply Same.fields | with_reducible first | refine Same.of_snd (by assumption) ?_ | refine Same.of_fst (by assumption) ?_ | apply Same.ite

theorem Same.doorClaim (h₀ : Same r₀ s) (h : Nat) (hart : Nat) (code : Nat) (take : Bool) : Same r₀ (s.doorClaim h hart code take) := by
  unfold Sys2Proof.Machine.State.doorClaim
  repeat' first
    | intro _ | with_reducible first | assumption | apply Same.emit | apply Same.setHalf
    | fail_if_no_progress with_reducible apply Same.fields | with_reducible first | refine Same.of_snd (by assumption) ?_ | refine Same.of_fst (by assumption) ?_ | apply Same.ite
    | split

theorem Same.doorKey (h₀ : Same r₀ s) (h : Nat) (hart : Nat) (addr : Nat) (label : Nat) : Same r₀ (s.doorKey h hart addr label) := by
  unfold Sys2Proof.Machine.State.doorKey
  repeat' first
    | intro _ | with_reducible first | assumption | apply Same.emit | apply Same.wrN
    | fail_if_no_progress with_reducible apply Same.fields | with_reducible first | refine Same.of_snd (by assumption) ?_ | refine Same.of_fst (by assumption) ?_ | apply Same.ite
    | split | dsimp only

theorem Same.doorSubmit (h₀ : Same r₀ s) (h : Nat) (hart : Nat) (addr : Nat) : Same r₀ (s.doorSubmit h hart addr) := by
  unfold Sys2Proof.Machine.State.doorSubmit
  repeat' first
    | intro _ | with_reducible first | assumption | apply Same.emit | apply Same.incident | apply Same.upd
    | fail_if_no_progress with_reducible apply Same.fields | with_reducible first | refine Same.of_snd (by assumption) ?_ | refine Same.of_fst (by assumption) ?_ | apply Same.ite
    | split

theorem Same.debugUnlock (h₀ : Same r₀ s) (h : Nat) (record : Nat) : Same r₀ (s.debugUnlock h record) := by
  unfold Sys2Proof.Machine.State.debugUnlock
  repeat' first
    | intro _ | with_reducible first | assumption | apply Same.draw | apply Same.startDestroy | apply Same.upd
    | fail_if_no_progress with_reducible apply Same.fields | with_reducible first | refine Same.foldl _ _ (fun _ _ _ => ?_) ?_ | refine Same.foldl_fst _ _ _ (fun _ _ _ => ?_) ?_ | refine Same.foldl_snd _ _ _ (fun _ _ _ => ?_) ?_ | refine Same.of_snd (by assumption) ?_ | refine Same.of_fst (by assumption) ?_ | apply Same.ite

theorem Same.doDoor (h₀ : Same r₀ s) (h : Nat) (op : DoorOp) : Same r₀ (s.doDoor h op) := by
  unfold Sys2Proof.Machine.State.doDoor
  repeat' (first
    | (with_reducible assumption)
    | (intro _)
    | (with_reducible apply Same.debugUnlock)
    | (with_reducible apply Same.doorClaim)
    | (with_reducible apply Same.doorCreate)
    | (with_reducible apply Same.doorDestroy)
    | (with_reducible apply Same.doorKey)
    | (with_reducible apply Same.doorSubmit)
    | (fail_if_no_progress with_reducible apply Same.fields)
    | (with_reducible refine Same.of_snd (by assumption) ?_)
    | (with_reducible refine Same.of_fst (by assumption) ?_)
    | (with_reducible apply Same.ite)
    | (split))

theorem Same.viaController (h₀ : Same r₀ s) (h : Nat) (op : DoorOp) : Same r₀ (s.viaController h op) := by
  unfold Sys2Proof.Machine.State.viaController
  repeat' first
    | intro _ | with_reducible first | assumption | apply Same.doDoor | apply Same.upd
    | fail_if_no_progress with_reducible apply Same.fields | with_reducible first | refine Same.of_snd (by assumption) ?_ | refine Same.of_fst (by assumption) ?_ | apply Same.ite

theorem Same.runWaiting (h₀ : Same r₀ s) (h : Nat) : Same r₀ (s.runWaiting h) := by
  unfold Sys2Proof.Machine.State.runWaiting
  repeat' first
    | intro _ | with_reducible first | assumption | apply Same.doDoor | apply Same.upd
    | with_reducible first | refine Same.foldl _ _ (fun _ _ _ => ?_) ?_

theorem Same.loadAtlas (h₀ : Same r₀ s) (h : Nat) : Same r₀ (s.loadAtlas h) := by
  unfold Sys2Proof.Machine.State.loadAtlas
  repeat' first
    | intro _ | with_reducible first | assumption | apply Same.incident | apply Same.store | apply Same.upd
    | fail_if_no_progress with_reducible apply Same.fields | with_reducible first | refine Same.of_snd (by assumption) ?_ | refine Same.of_fst (by assumption) ?_ | apply Same.ite

theorem Same.saveConf (h₀ : Same r₀ s) (h : Nat) (banks : Bool) : Same r₀ (s.saveConf h banks) := by
  unfold Sys2Proof.Machine.State.saveConf
  repeat' first
    | intro _ | with_reducible first | assumption | apply Same.upd

theorem Same.reloadRegions (h₀ : Same r₀ s) (h : Nat) (bad : List Nat) : Same r₀ (s.reloadRegions h bad) := by
  unfold Sys2Proof.Machine.State.reloadRegions
  repeat' first
    | intro _ | with_reducible first | assumption | apply Same.upd | apply Same.wr
    | fail_if_no_progress with_reducible apply Same.fields | with_reducible first | refine Same.foldl _ _ (fun _ _ _ => ?_) ?_ | refine Same.foldl_fst _ _ _ (fun _ _ _ => ?_) ?_ | refine Same.foldl_snd _ _ _ (fun _ _ _ => ?_) ?_ | refine Same.of_snd (by assumption) ?_ | refine Same.of_fst (by assumption) ?_ | apply Same.ite

theorem Same.applyConf (h₀ : Same r₀ s) (h : Nat) (bad : List Nat) : Same r₀ (s.applyConf h bad) := by
  unfold Sys2Proof.Machine.State.applyConf
  repeat' first
    | intro _ | with_reducible first | assumption | apply Same.reloadRegions | apply Same.setVdi | apply Same.upd | apply Same.wrN
    | fail_if_no_progress with_reducible apply Same.fields | with_reducible first | refine Same.foldl _ _ (fun _ _ _ => ?_) ?_ | refine Same.foldl_fst _ _ _ (fun _ _ _ => ?_) ?_ | refine Same.foldl_snd _ _ _ (fun _ _ _ => ?_) ?_ | refine Same.of_snd (by assumption) ?_ | refine Same.of_fst (by assumption) ?_ | apply Same.ite

theorem Same.downCompute (h₀ : Same r₀ s) (h : Nat) : Same r₀ (s.downCompute h) := by
  unfold Sys2Proof.Machine.State.downCompute
  repeat' first
    | intro _ | with_reducible first | assumption | apply Same.endVault | apply Same.lose | apply Same.noticeBare | apply Same.rewindAll
      | apply Same.setVdi | apply Same.upd
    | fail_if_no_progress with_reducible apply Same.fields | with_reducible first | refine Same.foldl _ _ (fun _ _ _ => ?_) ?_ | refine Same.foldl_fst _ _ _ (fun _ _ _ => ?_) ?_ | refine Same.foldl_snd _ _ _ (fun _ _ _ => ?_) ?_ | refine Same.of_snd (by assumption) ?_ | refine Same.of_fst (by assumption) ?_ | apply Same.ite

theorem Same.answerOut (h₀ : Same r₀ s) (h : Nat) : Same r₀ (s.answerOut h) := by
  unfold Sys2Proof.Machine.State.answerOut
  repeat' first
    | intro _ | with_reducible first | assumption | apply Same.accessFault | apply Same.draw | apply Same.upd
    | fail_if_no_progress with_reducible apply Same.fields | with_reducible first | refine Same.foldl _ _ (fun _ _ _ => ?_) ?_ | refine Same.foldl_fst _ _ _ (fun _ _ _ => ?_) ?_ | refine Same.foldl_snd _ _ _ (fun _ _ _ => ?_) ?_ | refine Same.of_snd (by assumption) ?_ | refine Same.of_fst (by assumption) ?_ | apply Same.ite

theorem Same.downRim (h₀ : Same r₀ s) (h : Nat) (kind : Nat) (kept : Bool) : Same r₀ (s.downRim h kind kept) := by
  unfold Sys2Proof.Machine.State.downRim
  repeat' first
    | intro _ | with_reducible first | assumption | apply Same.answerOut | apply Same.upd | apply Same.wipeRecords | apply Same.zero
    | fail_if_no_progress with_reducible apply Same.fields | with_reducible first | refine Same.of_snd (by assumption) ?_ | refine Same.of_fst (by assumption) ?_ | apply Same.ite

theorem Same.enterReset (h₀ : Same r₀ s) (h : Nat) (kind : Nat) (cause : Nat) (told : Bool) : Same r₀ (s.enterReset h kind cause told) := by
  unfold Sys2Proof.Machine.State.enterReset
  repeat' first
    | intro _ | with_reducible first | assumption | apply Same.downCompute | apply Same.downRim | apply Same.goingDown | apply Same.upd
    | fail_if_no_progress with_reducible apply Same.fields | with_reducible first | refine Same.of_snd (by assumption) ?_ | refine Same.of_fst (by assumption) ?_ | apply Same.ite

theorem Same.perr (h₀ : Same r₀ s)  : Same r₀ (s.perr) := by
  unfold Sys2Proof.Machine.State.perr
  repeat' first
    | intro _ | with_reducible first | assumption
    | fail_if_no_progress with_reducible apply Same.fields | with_reducible first | refine Same.of_snd (by assumption) ?_ | refine Same.of_fst (by assumption) ?_ | apply Same.ite

theorem Same.resetHalf (h₀ : Same r₀ s) (h : Nat) (kind : Nat) (cause : Nat) (told : Bool) : Same r₀ (s.resetHalf h kind cause told) := by
  unfold Sys2Proof.Machine.State.resetHalf
  repeat' first
    | intro _ | with_reducible first | assumption | apply Same.enterReset | apply Same.perr

theorem Same.askRestart (h₀ : Same r₀ s) (h : Nat) (kind : Nat) (cause : Nat) : Same r₀ (s.askRestart h kind cause) := by
  unfold Sys2Proof.Machine.State.askRestart
  repeat' first
    | intro _ | with_reducible first | assumption | apply Same.resetHalf | apply Same.upd
    | fail_if_no_progress with_reducible apply Same.fields | with_reducible first | refine Same.of_snd (by assumption) ?_ | refine Same.of_fst (by assumption) ?_ | apply Same.ite

theorem Same.runRestart (h₀ : Same r₀ s) (h : Nat) : Same r₀ (s.runRestart h) := by
  unfold Sys2Proof.Machine.State.runRestart
  repeat' first
    | intro _ | with_reducible first | assumption | apply Same.askRestart | apply Same.upd
    | fail_if_no_progress with_reducible apply Same.fields | with_reducible first | refine Same.of_snd (by assumption) ?_ | refine Same.of_fst (by assumption) ?_ | apply Same.ite
    | split

theorem Same.resetPackage (h₀ : Same r₀ s) (kind : Nat) (cause : Nat) (told : Bool) : Same r₀ (s.resetPackage kind cause told) := by
  unfold Sys2Proof.Machine.State.resetPackage
  repeat' first
    | intro _ | with_reducible first | assumption | apply Same.enterReset
    | fail_if_no_progress with_reducible apply Same.fields

theorem Same.updCore (h₀ : Same r₀ s) (h : Nat) (p : Nat) (f : Core → Core) : Same r₀ (s.updCore h p f) := by
  unfold Sys2Proof.Machine.State.updCore
  repeat' first
    | intro _ | with_reducible first | assumption | apply Same.upd

theorem Same.acceptDma (h₀ : Same r₀ s) (h : Nat) (p : Nat) : Same r₀ (s.acceptDma h p) := by
  unfold Sys2Proof.Machine.State.acceptDma
  repeat' first
    | intro _ | with_reducible first | assumption | apply Same.updCore
    | fail_if_no_progress with_reducible apply Same.fields | with_reducible first | refine Same.foldl _ _ (fun _ _ _ => ?_) ?_ | refine Same.foldl_fst _ _ _ (fun _ _ _ => ?_) ?_ | refine Same.foldl_snd _ _ _ (fun _ _ _ => ?_) ?_ | refine Same.of_snd (by assumption) ?_ | refine Same.of_fst (by assumption) ?_ | apply Same.ite
    | split

theorem Same.countLanded (h₀ : Same r₀ s) (h : Nat) (p : Nat) (r : Run) (sel : Nat → Bool) : Same r₀ (s.countLanded h p r sel) := by
  unfold Sys2Proof.Machine.State.countLanded
  repeat' first
    | intro _ | with_reducible first | assumption | apply Same.countMove
    | with_reducible first | refine Same.foldl _ _ (fun _ _ _ => ?_) ?_

theorem Same.unreserve (h₀ : Same r₀ s) (r : Run) : Same r₀ (s.unreserve r) := by
  unfold Sys2Proof.Machine.State.unreserve
  repeat' first
    | intro _ | with_reducible first | assumption | apply Same.upd
    | fail_if_no_progress with_reducible apply Same.fields | with_reducible first | refine Same.of_snd (by assumption) ?_ | refine Same.of_fst (by assumption) ?_ | apply Same.ite
    | split

theorem Same.freeCore (h₀ : Same r₀ s) (h : Nat) (p : Nat) (r : Run) : Same r₀ (s.freeCore h p r) := by
  unfold Sys2Proof.Machine.State.freeCore
  repeat' first
    | intro _ | with_reducible first | assumption | apply Same.countLanded | apply Same.syncModels | apply Same.unreserve | apply Same.updCore
    | fail_if_no_progress with_reducible apply Same.fields

theorem Same.completeHead (h₀ : Same r₀ s) (q : Nat) (d : Nat) (st : Status) (detail : Nat) (known : Bool) : Same r₀ (s.completeHead q d st detail known) := by
  unfold Sys2Proof.Machine.State.completeHead
  repeat' first
    | intro _ | with_reducible first | assumption | apply Same.finishQ | apply Same.upd

theorem Same.completeInst (h₀ : Same r₀ s) (h : Nat) (n : Nat) (st : Nat) (status : Status) (detail : Nat) : Same r₀ (s.completeInst h n st status detail) := by
  unfold Sys2Proof.Machine.State.completeInst
  repeat' first
    | intro _ | with_reducible first | assumption | apply Same.fence | apply Same.postE | apply Same.upd

theorem Same.endFallback (h₀ : Same r₀ s) (h : Nat) (r : Run) (st : Status) (detail : Nat) : Same r₀ (s.endFallback h r st detail) := by
  unfold Sys2Proof.Machine.State.endFallback
  repeat' first
    | intro _ | with_reducible first | assumption | apply Same.completeHead | apply Same.completeInst | apply Same.upd
    | fail_if_no_progress with_reducible apply Same.fields | with_reducible first | refine Same.of_snd (by assumption) ?_ | refine Same.of_fst (by assumption) ?_ | apply Same.ite
    | split

theorem Same.finishCore (h₀ : Same r₀ s) (h : Nat) (p : Nat) (r : Run) (st : Status) (detail : Nat) : Same r₀ (s.finishCore h p r st detail) := by
  unfold Sys2Proof.Machine.State.finishCore
  repeat' first
    | intro _ | with_reducible first | assumption | apply Same.endFallback | apply Same.finish | apply Same.freeCore
    | fail_if_no_progress with_reducible apply Same.fields | with_reducible first | refine Same.of_snd (by assumption) ?_ | refine Same.of_fst (by assumption) ?_ | apply Same.ite

theorem Same.requeueCore (h₀ : Same r₀ s) (h : Nat) (p : Nat) (r : Run) (cause : Nat) (past : Nat) (pre : Nat) : Same r₀ (s.requeueCore h p r cause past pre) := by
  unfold Sys2Proof.Machine.State.requeueCore
  repeat' first
    | intro _ | with_reducible first | assumption | apply Same.freeCore | apply Same.requeueQ
    | fail_if_no_progress with_reducible apply Same.fields | with_reducible first | refine Same.of_snd (by assumption) ?_ | refine Same.of_fst (by assumption) ?_ | apply Same.ite
    | split

theorem Same.countErr (h₀ : Same r₀ s) (h : Nat) (p : Nat) (mem : Nat) (off : Nat) : Same r₀ (s.countErr h p mem off) := by
  unfold Sys2Proof.Machine.State.countErr
  repeat' first
    | intro _ | with_reducible first | assumption | apply Same.strErr | apply Same.upd | apply Same.updCore
    | fail_if_no_progress with_reducible apply Same.fields | with_reducible first | refine Same.of_snd (by assumption) ?_ | refine Same.of_fst (by assumption) ?_ | apply Same.ite

theorem Same.countMemErr (h₀ : Same r₀ s) (h : Nat) (p : Nat) (mem : Nat) (off : Nat) : Same r₀ (s.countMemErr h p mem off) := by
  unfold Sys2Proof.Machine.State.countMemErr
  repeat' first
    | intro _ | with_reducible first | assumption | apply Same.countErr | apply Same.incident
    | fail_if_no_progress with_reducible apply Same.fields | with_reducible first | refine Same.of_snd (by assumption) ?_ | refine Same.of_fst (by assumption) ?_ | apply Same.ite

theorem Same.countRange (h₀ : Same r₀ s) (h : Nat) (p : Nat) (r : Nat × Nat × Nat) : Same r₀ (s.countRange h p r) := by
  unfold Sys2Proof.Machine.State.countRange
  repeat' first
    | intro _ | with_reducible first | assumption | apply Same.countErr | apply Same.strErrs
    | fail_if_no_progress with_reducible apply Same.fields | with_reducible first | refine Same.foldl _ _ (fun _ _ _ => ?_) ?_ | refine Same.foldl_fst _ _ _ (fun _ _ _ => ?_) ?_ | refine Same.foldl_snd _ _ _ (fun _ _ _ => ?_) ?_ | refine Same.of_snd (by assumption) ?_ | refine Same.of_fst (by assumption) ?_ | apply Same.ite

theorem Same.putByte (h₀ : Same r₀ s) (h : Nat) (p : Nat) (vdi : Nat) (isH : Bool) (hd : Nat) (a : Nat) (v : Nat) : Same r₀ (s.putByte h p vdi isH hd a v) := by
  unfold Sys2Proof.Machine.State.putByte
  repeat' first
    | intro _ | with_reducible first | assumption | apply Same.countMemErr | apply Same.sideWr | apply Same.strErr
    | fail_if_no_progress with_reducible apply Same.fields | with_reducible first | refine Same.of_snd (by assumption) ?_ | refine Same.of_fst (by assumption) ?_ | apply Same.ite
    | split

theorem Same.zeroKernelLed (h₀ : Same r₀ s) (h : Nat) (p : Nat) (r : Run) (tiles : List Nat) : Same r₀ (s.zeroKernelLed h p r tiles) := by
  unfold Sys2Proof.Machine.State.zeroKernelLed
  repeat' first
    | intro _ | with_reducible first | assumption | apply Same.putByte
    | fail_if_no_progress with_reducible apply Same.fields | with_reducible first | refine Same.foldl _ _ (fun _ _ _ => ?_) ?_ | refine Same.foldl_fst _ _ _ (fun _ _ _ => ?_) ?_ | refine Same.foldl_snd _ _ _ (fun _ _ _ => ?_) ?_ | refine Same.of_snd (by assumption) ?_ | refine Same.of_fst (by assumption) ?_ | apply Same.ite

theorem Same.zeroDmaAt (h₀ : Same r₀ s) (h : Nat) (p : Nat) (r : Run) (l : List (Nat × Nat)) : Same r₀ (s.zeroDmaAt h p r l) := by
  unfold Sys2Proof.Machine.State.zeroDmaAt
  repeat' first
    | intro _ | with_reducible first | assumption | apply Same.putByte
    | with_reducible first | refine Same.foldl _ _ (fun _ _ _ => ?_) ?_

theorem Same.zeroDmaLed (h₀ : Same r₀ s) (h : Nat) (p : Nat) (r : Run) : Same r₀ (s.zeroDmaLed h p r) := by
  unfold Sys2Proof.Machine.State.zeroDmaLed
  repeat' first
    | intro _ | with_reducible first | assumption | apply Same.zeroDmaAt
    | fail_if_no_progress with_reducible apply Same.fields | with_reducible first | refine Same.of_snd (by assumption) ?_ | refine Same.of_fst (by assumption) ?_ | apply Same.ite

theorem Same.zeroUndone (h₀ : Same r₀ s) (h : Nat) (p : Nat) (r : Run) : Same r₀ (s.zeroUndone h p r) := by
  unfold Sys2Proof.Machine.State.zeroUndone
  repeat' first
    | intro _ | with_reducible first | assumption | apply Same.zeroDmaLed | apply Same.zeroKernelLed

theorem Same.zeroTileLed (h₀ : Same r₀ s) (h : Nat) (p : Nat) (r : Run) : Same r₀ (s.zeroTileLed h p r) := by
  unfold Sys2Proof.Machine.State.zeroTileLed
  repeat' first
    | intro _ | with_reducible first | assumption | apply Same.zeroDmaAt | apply Same.zeroKernelLed

theorem Same.tenantClear (h₀ : Same r₀ s) (h : Nat) (p : Nat) (out : Nat) : Same r₀ (s.tenantClear h p out) := by
  unfold Sys2Proof.Machine.State.tenantClear
  repeat' first
    | intro _ | with_reducible first | assumption | apply Same.draw | apply Same.upd | apply Same.updCore

theorem Same.clearFor (h₀ : Same r₀ s) (h : Nat) (p : Nat) (vdi : Nat) : Same r₀ (s.clearFor h p vdi) := by
  unfold Sys2Proof.Machine.State.clearFor
  repeat' first
    | intro _ | with_reducible first | assumption | apply Same.tenantClear
    | fail_if_no_progress with_reducible apply Same.fields | with_reducible first | refine Same.of_snd (by assumption) ?_ | refine Same.of_fst (by assumption) ?_ | apply Same.ite
    | split

theorem Same.loadHandles (h₀ : Same r₀ s) (h : Nat) (p : Nat) (ctx : Nat) : Same r₀ (s.loadHandles h p ctx) := by
  unfold Sys2Proof.Machine.State.loadHandles
  repeat' first
    | intro _ | with_reducible first | assumption | apply Same.updCore

theorem Same.meet (h₀ : Same r₀ s) (h : Nat) (p : Nat) (r : Run) (rows : List Nat) : Same r₀ (s.meet h p r rows).1 := by
  unfold Sys2Proof.Machine.State.meet
  repeat' first
    | intro _ | with_reducible first | assumption | apply Same.draw | apply Same.upd
    | fail_if_no_progress with_reducible apply Same.fields | with_reducible first | refine Same.of_snd (by assumption) ?_ | refine Same.of_fst (by assumption) ?_ | apply Same.ite
    | split

theorem Same.asFound (h₀ : Same r₀ s) (h : Nat) (p : Nat) (r : Run) (tag : Nat) : Same r₀ (s.asFound h p r tag) := by
  unfold Sys2Proof.Machine.State.asFound
  repeat' first
    | intro _ | with_reducible first | assumption | apply Same.updCore
    | with_reducible first | refine Same.foldl _ _ (fun _ _ _ => ?_) ?_

theorem Same.stampMark (h₀ : Same r₀ s) (h : Nat) (p : Nat) (r : Run) (d : Nat) (t : Nat) : Same r₀ (s.stampMark h p r d t) := by
  unfold Sys2Proof.Machine.State.stampMark
  repeat' first
    | intro _ | with_reducible first | assumption | apply Same.sideWr
    | fail_if_no_progress with_reducible apply Same.fields | with_reducible first | refine Same.of_snd (by assumption) ?_ | refine Same.of_fst (by assumption) ?_ | apply Same.ite

theorem Same.landRow (h₀ : Same r₀ s) (h : Nat) (p : Nat) (tag : Nat) (row : Nat) : Same r₀ (s.landRow h p tag row) := by
  unfold Sys2Proof.Machine.State.landRow
  repeat' first
    | intro _ | with_reducible first | assumption | apply Same.updCore
    | fail_if_no_progress with_reducible apply Same.fields | with_reducible first | refine Same.of_snd (by assumption) ?_ | refine Same.of_fst (by assumption) ?_ | apply Same.ite
    | split

theorem Same.race (h₀ : Same r₀ s) (h : Nat) (p : Nat) (r : Run) (tag : Nat) : Same r₀ (s.race h p r tag) := by
  unfold Sys2Proof.Machine.State.race
  repeat' first
    | intro _ | with_reducible first | assumption | apply Same.draw | apply Same.landRow | apply Same.updCore | apply Same.wr
    | fail_if_no_progress with_reducible apply Same.fields | with_reducible first | refine Same.foldl _ _ (fun _ _ _ => ?_) ?_ | refine Same.foldl_fst _ _ _ (fun _ _ _ => ?_) ?_ | refine Same.foldl_snd _ _ _ (fun _ _ _ => ?_) ?_ | refine Same.of_snd (by assumption) ?_ | refine Same.of_fst (by assumption) ?_ | apply Same.ite

theorem Same.raceEngine (h₀ : Same r₀ s) (h : Nat) (p : Nat) (r : Run) (tag : Nat) : Same r₀ (s.raceEngine h p r tag) := by
  unfold Sys2Proof.Machine.State.raceEngine
  repeat' first
    | intro _ | with_reducible first | assumption | apply Same.draw | apply Same.updCore | apply Same.wr
    | fail_if_no_progress with_reducible apply Same.fields | with_reducible first | refine Same.foldl _ _ (fun _ _ _ => ?_) ?_ | refine Same.foldl_fst _ _ _ (fun _ _ _ => ?_) ?_ | refine Same.foldl_snd _ _ _ (fun _ _ _ => ?_) ?_ | refine Same.of_snd (by assumption) ?_ | refine Same.of_fst (by assumption) ?_ | apply Same.ite

theorem Same.zeroOutputs (h₀ : Same r₀ s) (h : Nat) (ctx : Nat) (vdi : Nat) (d : Nat) : Same r₀ (s.zeroOutputs h ctx vdi d) := by
  unfold Sys2Proof.Machine.State.zeroOutputs
  repeat' first
    | intro _ | with_reducible first | assumption | apply Same.loadHandles | apply Same.updCore | apply Same.zeroUndone
    | fail_if_no_progress with_reducible apply Same.fields | with_reducible first | refine Same.of_snd (by assumption) ?_ | refine Same.of_fst (by assumption) ?_ | apply Same.ite

theorem Same.freshRow (h₀ : Same r₀ s) (h : Nat) (p : Nat) (mem : Nat) (row : Nat) : Same r₀ (s.freshRow h p mem row) := by
  unfold Sys2Proof.Machine.State.freshRow
  repeat' first
    | intro _ | with_reducible first | assumption | apply Same.refresh | apply Same.updCore
    | fail_if_no_progress with_reducible apply Same.fields | with_reducible first | refine Same.of_snd (by assumption) ?_ | refine Same.of_fst (by assumption) ?_ | apply Same.ite
    | split

theorem Same.feedOperands (h₀ : Same r₀ s) (h : Nat) (p : Nat) (k : Kb) : Same r₀ (s.feedOperands h p k) := by
  unfold Sys2Proof.Machine.State.feedOperands
  repeat' first
    | intro _ | with_reducible first | assumption | apply Same.updCore
    | fail_if_no_progress with_reducible apply Same.fields

theorem Same.putOutputs (h₀ : Same r₀ s) (h : Nat) (p : Nat) (k : Kb) (t : Nat) (l : List KWr) : Same r₀ (s.putOutputs h p k t l) := by
  unfold Sys2Proof.Machine.State.putOutputs
  repeat' first
    | intro _ | with_reducible first | assumption | apply Same.freshRow | apply Same.hWr
    | with_reducible first | refine Same.foldl _ _ (fun _ _ _ => ?_) ?_

theorem Same.compute (h₀ : Same r₀ s) (h : Nat) (p : Nat) (r : Run) (sched : List Nat) : Same r₀ (s.compute h p r sched).1 := by
  unfold Sys2Proof.Machine.State.compute
  repeat' (first
    | (with_reducible assumption)
    | (intro _)
    | (with_reducible apply Same.asFound)
    | (with_reducible apply Same.feedOperands)
    | (with_reducible apply Same.meet)
    | (with_reducible apply Same.putOutputs)
    | (with_reducible apply Same.simtRun)
    | (with_reducible apply Same.wr)
    | (fail_if_no_progress with_reducible apply Same.fields)
    | (with_reducible refine Same.of_snd (by assumption) ?_)
    | (with_reducible refine Same.of_fst (by assumption) ?_)
    | (with_reducible apply Same.ite)
    | (split)
    | (dsimp only))

theorem Same.engineFail (h₀ : Same r₀ s) (h : Nat) (p : Nat) (r : Run) (st : Status) : Same r₀ (s.engineFail h p r st) := by
  unfold Sys2Proof.Machine.State.engineFail
  repeat' first
    | intro _ | with_reducible first | assumption | apply Same.finishCore | apply Same.incident | apply Same.zeroUndone

theorem Same.overrun (h₀ : Same r₀ s) (h : Nat) (p : Nat) (r : Run) : Same r₀ (s.overrun h p r) := by
  unfold Sys2Proof.Machine.State.overrun
  repeat' first
    | intro _ | with_reducible first | assumption | apply Same.finishCore | apply Same.incident | apply Same.requeueCore | apply Same.zeroUndone
    | fail_if_no_progress with_reducible apply Same.fields | with_reducible first | refine Same.of_snd (by assumption) ?_ | refine Same.of_fst (by assumption) ?_ | apply Same.ite
    | split

theorem Same.tileError (h₀ : Same r₀ s) (h : Nat) (p : Nat) (r : Run) : Same r₀ (s.tileError h p r) := by
  unfold Sys2Proof.Machine.State.tileError
  repeat' (first
    | (with_reducible assumption)
    | (intro _)
    | (with_reducible apply Same.acceptDma)
    | (with_reducible apply Same.countLanded)
    | (with_reducible apply Same.finishCore)
    | (with_reducible apply Same.overrun)
    | (with_reducible apply Same.requeueCore)
    | (with_reducible apply Same.updCore)
    | (with_reducible apply Same.zeroTileLed)
    | (with_reducible apply Same.zeroUndone)
    | (fail_if_no_progress with_reducible apply Same.fields)
    | (with_reducible refine Same.of_snd (by assumption) ?_)
    | (with_reducible refine Same.of_fst (by assumption) ?_)
    | (with_reducible apply Same.ite))

theorem Same.nextError (h₀ : Same r₀ s) (h : Nat) (p : Nat) (r : Run) : Same r₀ (s.nextError h p r) := by
  unfold Sys2Proof.Machine.State.nextError
  repeat' first
    | intro _ | with_reducible first | assumption | apply Same.countLanded | apply Same.updCore

theorem Same.dmaStatus (h₀ : Same r₀ s) (h : Nat) (p : Nat) (r : Run) (i : Nat) (st : Status) : Same r₀ (s.dmaStatus h p r i st) := by
  unfold Sys2Proof.Machine.State.dmaStatus
  repeat' first
    | intro _ | with_reducible first | assumption | apply Same.putByte

theorem Same.dmaFailed (h₀ : Same r₀ s) (h : Nat) (p : Nat) (r : Run) (tag : Nat) (st : Status) : Same r₀ (s.dmaFailed h p r tag st) := by
  unfold Sys2Proof.Machine.State.dmaFailed
  repeat' first
    | intro _ | with_reducible first | assumption | apply Same.dmaStatus | apply Same.incident | apply Same.updCore

theorem Same.boundary (h₀ : Same r₀ s) (h : Nat) (p : Nat) (r : Run) : Same r₀ (s.boundary h p r) := by
  unfold Sys2Proof.Machine.State.boundary
  repeat' first
    | intro _ | with_reducible first | assumption | apply Same.acceptDma | apply Same.finishCore | apply Same.late | apply Same.requeueCore
      | apply Same.updCore | apply Same.zeroUndone
    | fail_if_no_progress with_reducible apply Same.fields | with_reducible first | refine Same.of_snd (by assumption) ?_ | refine Same.of_fst (by assumption) ?_ | apply Same.ite
    | split

theorem Same.lastTile (h₀ : Same r₀ s) (h : Nat) (p : Nat) (r : Run) : Same r₀ (s.lastTile h p r) := by
  unfold Sys2Proof.Machine.State.lastTile
  repeat' first
    | intro _ | with_reducible first | assumption | apply Same.acceptDma | apply Same.finishCore | apply Same.updCore
    | fail_if_no_progress with_reducible apply Same.fields | with_reducible first | refine Same.of_snd (by assumption) ?_ | refine Same.of_fst (by assumption) ?_ | apply Same.ite

theorem Same.endFailed (h₀ : Same r₀ s) (h : Nat) (p : Nat) (r : Run) (st : Status) (tag : Nat) : Same r₀ (s.endFailed h p r st tag) := by
  unfold Sys2Proof.Machine.State.endFailed
  repeat' first
    | intro _ | with_reducible first | assumption | apply Same.finishCore | apply Same.zeroDmaLed | apply Same.zeroKernelLed | apply Same.zeroUndone
    | fail_if_no_progress with_reducible apply Same.fields | with_reducible first | refine Same.of_snd (by assumption) ?_ | refine Same.of_fst (by assumption) ?_ | apply Same.ite

theorem Same.killRun (h₀ : Same r₀ s) (h : Nat) (p : Nat) : Same r₀ (s.killRun h p) := by
  unfold Sys2Proof.Machine.State.killRun
  repeat' first
    | intro _ | with_reducible first | assumption | apply Same.freeCore
    | fail_if_no_progress with_reducible apply Same.fields | with_reducible first | refine Same.of_snd (by assumption) ?_ | refine Same.of_fst (by assumption) ?_ | apply Same.ite
    | split

theorem Same.startCoreReset (h₀ : Same r₀ s) (h : Nat) (p : Nat) (cause : Nat) (l : Nat) : Same r₀ (s.startCoreReset h p cause l) := by
  unfold Sys2Proof.Machine.State.startCoreReset
  repeat' first
    | intro _ | with_reducible first | assumption | apply Same.finishCore | apply Same.incident | apply Same.requeueCore | apply Same.upd
      | apply Same.updCore | apply Same.zeroUndone
    | fail_if_no_progress with_reducible apply Same.fields | with_reducible first | refine Same.of_snd (by assumption) ?_ | refine Same.of_fst (by assumption) ?_ | apply Same.ite
    | split

theorem Same.setDiv (h₀ : Same r₀ s) (h : Nat) (p : Nat) (d : Nat) : Same r₀ (s.setDiv h p d) := by
  unfold Sys2Proof.Machine.State.setDiv
  repeat' first
    | intro _ | with_reducible first | assumption | apply Same.upd

theorem Same.wantModels (h₀ : Same r₀ s) (q : Nat) : Same r₀ (s.wantModels q) := by
  unfold Sys2Proof.Machine.State.wantModels
  repeat' first
    | intro _ | with_reducible first | assumption | apply Same.completeHead | apply Same.fetchModel
    | fail_if_no_progress with_reducible apply Same.fields | with_reducible first | refine Same.foldl _ _ (fun _ _ _ => ?_) ?_ | refine Same.foldl_fst _ _ _ (fun _ _ _ => ?_) ?_ | refine Same.foldl_snd _ _ _ (fun _ _ _ => ?_) ?_ | refine Same.of_snd (by assumption) ?_ | refine Same.of_fst (by assumption) ?_ | apply Same.ite
    | split

theorem Same.noteReady (h₀ : Same r₀ s) (q : Nat) : Same r₀ (s.noteReady q) := by
  unfold Sys2Proof.Machine.State.noteReady
  repeat' first
    | intro _ | with_reducible first | assumption | apply Same.shareReady | apply Same.upd | apply Same.wantModels
    | fail_if_no_progress with_reducible apply Same.fields | with_reducible first | refine Same.of_snd (by assumption) ?_ | refine Same.of_fst (by assumption) ?_ | apply Same.ite

theorem Same.noteIdle (h₀ : Same r₀ s) (h : Nat) (c : Nat) : Same r₀ (s.noteIdle h c) := by
  unfold Sys2Proof.Machine.State.noteIdle
  repeat' first
    | intro _ | with_reducible first | assumption | apply Same.shareIdle
    | fail_if_no_progress with_reducible apply Same.fields | with_reducible first | refine Same.of_snd (by assumption) ?_ | refine Same.of_fst (by assumption) ?_ | apply Same.ite

theorem Same.doorbellIncident (h₀ : Same r₀ s) (q : Nat) : Same r₀ (doorbellIncident s q) := by
  unfold Sys2Proof.Machine.doorbellIncident
  repeat' first
    | intro _ | with_reducible first | assumption | apply Same.incident

theorem Same.dbTail (h₀ : Same r₀ s) (q : Nat) (v : Nat) : Same r₀ (s.dbTail q v) := by
  unfold Sys2Proof.Machine.State.dbTail
  repeat' first
    | intro _ | with_reducible first | assumption | apply Same.doorbellIncident | apply Same.noteReady | apply Same.upd
    | fail_if_no_progress with_reducible apply Same.fields | with_reducible first | refine Same.of_snd (by assumption) ?_ | refine Same.of_fst (by assumption) ?_ | apply Same.ite

theorem Same.dbCqHead (h₀ : Same r₀ s) (q : Nat) (v : Nat) : Same r₀ (s.dbCqHead q v) := by
  unfold Sys2Proof.Machine.State.dbCqHead
  repeat' first
    | intro _ | with_reducible first | assumption | apply Same.doorbellIncident | apply Same.noteReady | apply Same.upd
    | fail_if_no_progress with_reducible apply Same.fields | with_reducible first | refine Same.of_snd (by assumption) ?_ | refine Same.of_fst (by assumption) ?_ | apply Same.ite

theorem Same.sendWatch (h₀ : Same r₀ s) (q : Nat) (w : WaitRt) : Same r₀ (s.sendWatch q w) := by
  unfold Sys2Proof.Machine.State.sendWatch
  repeat' first
    | intro _ | with_reducible first | assumption | apply Same.countTx | apply Same.draw | apply Same.emit | apply Same.hatchSend
    | fail_if_no_progress with_reducible apply Same.fields | with_reducible first | refine Same.of_snd (by assumption) ?_ | refine Same.of_fst (by assumption) ?_ | apply Same.ite

theorem Same.startWait (h₀ : Same r₀ s) (q : Nat) (i : Nat) (d : Nat) : Same r₀ (s.startWait q i d) := by
  unfold Sys2Proof.Machine.State.startWait
  repeat' first
    | intro _ | with_reducible first | assumption | apply Same.completeHead | apply Same.sendWatch | apply Same.upd
    | fail_if_no_progress with_reducible apply Same.fields | with_reducible first | refine Same.of_snd (by assumption) ?_ | refine Same.of_fst (by assumption) ?_ | apply Same.ite

theorem Same.endWait (h₀ : Same r₀ s) (q : Nat) (w : WaitRt) (st : Status) (detail : Nat) : Same r₀ (s.endWait q w st detail) := by
  unfold Sys2Proof.Machine.State.endWait
  repeat' first
    | intro _ | with_reducible first | assumption | apply Same.dropWatch | apply Same.noteIdle | apply Same.noteReady | apply Same.postQ
      | apply Same.upd
    | fail_if_no_progress with_reducible apply Same.fields | with_reducible first | refine Same.of_snd (by assumption) ?_ | refine Same.of_fst (by assumption) ?_ | apply Same.ite

theorem Same.watchReply (h₀ : Same r₀ s) (q : Nat) (gen : Nat) (idx : Nat) : Same r₀ (s.watchReply q gen idx) := by
  unfold Sys2Proof.Machine.State.watchReply
  repeat' first
    | intro _ | with_reducible first | assumption | apply Same.endWait | apply Same.upd
    | fail_if_no_progress with_reducible apply Same.fields | with_reducible first | refine Same.of_snd (by assumption) ?_ | refine Same.of_fst (by assumption) ?_ | apply Same.ite
    | split

theorem Same.accountDispatch (h₀ : Same r₀ s) (h : Nat) (q : Nat) (c : Nat) : Same r₀ (s.accountDispatch h q c) := by
  unfold Sys2Proof.Machine.State.accountDispatch
  repeat' first
    | intro _ | with_reducible first | assumption | apply Same.setCtx | apply Same.shareReady | apply Same.upd

theorem Same.refuseDispatch (h₀ : Same r₀ s) (q : Nat) (i : Nat) (head : Bool) (d : Nat) (st : Status) (known : Bool) (readFail : Bool) : Same r₀ (s.refuseDispatch q i head d st known readFail) := by
  unfold Sys2Proof.Machine.State.refuseDispatch
  repeat' first
    | intro _ | with_reducible first | assumption | apply Same.completeHead | apply Same.finishQ | apply Same.incident | apply Same.noteIdle
      | apply Same.noteReady | apply Same.strErrs | apply Same.syncModels | apply Same.upd
    | fail_if_no_progress with_reducible apply Same.fields | with_reducible first | refine Same.of_snd (by assumption) ?_ | refine Same.of_fst (by assumption) ?_ | apply Same.ite

theorem Same.place (h₀ : Same r₀ s) (h : Nat) (p : Nat) (r : Run) : Same r₀ (s.place h p r) := by
  unfold Sys2Proof.Machine.State.place
  repeat' first
    | intro _ | with_reducible first | assumption | apply Same.acceptDma | apply Same.clearFor | apply Same.loadHandles | apply Same.syncModels
      | apply Same.touchModels | apply Same.updCore

theorem Same.bindFrame (h₀ : Same r₀ s) (h : Nat) (p : Nat) (cond : Option CondRt) : Same r₀ (s.bindFrame h p cond) := by
  unfold Sys2Proof.Machine.State.bindFrame
  repeat' first
    | intro _ | with_reducible first | assumption | apply Same.hWr
    | fail_if_no_progress with_reducible apply Same.fields | with_reducible first | refine Same.foldl _ _ (fun _ _ _ => ?_) ?_ | refine Same.foldl_fst _ _ _ (fun _ _ _ => ?_) ?_ | refine Same.foldl_snd _ _ _ (fun _ _ _ => ?_) ?_ | refine Same.of_snd (by assumption) ?_ | refine Same.of_fst (by assumption) ?_ | apply Same.ite
    | split

theorem Same.dispatch (h₀ : Same r₀ s) (h : Nat) (p : Nat) (q : Nat) : Same r₀ (s.dispatch h p q) := by
  unfold Sys2Proof.Machine.State.dispatch
  repeat' (first
    | (with_reducible assumption)
    | (intro _)
    | (with_reducible apply Same.accountDispatch)
    | (with_reducible apply Same.bindFrame)
    | (with_reducible apply Same.countRange)
    | (with_reducible apply Same.endFallback)
    | (with_reducible apply Same.noteReady)
    | (with_reducible apply Same.place)
    | (with_reducible apply Same.refuseDispatch)
    | (with_reducible apply Same.startWait)
    | (with_reducible apply Same.upd)
    | (fail_if_no_progress with_reducible apply Same.fields)
    | (with_reducible refine Same.of_snd (by assumption) ?_)
    | (with_reducible refine Same.of_fst (by assumption) ?_)
    | (with_reducible apply Same.ite)
    | (split)
    | (dsimp only))

theorem Same.refuseInvalid (h₀ : Same r₀ s) (p : Nat) (q : Nat) : Same r₀ (s.refuseInvalid p q) := by
  unfold Sys2Proof.Machine.State.refuseInvalid
  repeat' first
    | intro _ | with_reducible first | assumption | apply Same.dispatch
    | fail_if_no_progress with_reducible apply Same.fields | with_reducible first | refine Same.of_snd (by assumption) ?_ | refine Same.of_fst (by assumption) ?_ | apply Same.ite

theorem Same.fetchFailed (h₀ : Same r₀ s) (h : Nat) (ctx : Nat) (st : Status) : Same r₀ (s.fetchFailed h ctx st) := by
  unfold Sys2Proof.Machine.State.fetchFailed
  repeat' first
    | intro _ | with_reducible first | assumption | apply Same.refuseDispatch
    | fail_if_no_progress with_reducible apply Same.fields | with_reducible first | refine Same.foldl _ _ (fun _ _ _ => ?_) ?_ | refine Same.foldl_fst _ _ _ (fun _ _ _ => ?_) ?_ | refine Same.foldl_snd _ _ _ (fun _ _ _ => ?_) ?_ | refine Same.of_snd (by assumption) ?_ | refine Same.of_fst (by assumption) ?_ | apply Same.ite
    | split

theorem Same.killRuns (h₀ : Same r₀ s) (h : Nat) (p : Run → Bool) : Same r₀ (s.killRuns h p) := by
  unfold Sys2Proof.Machine.State.killRuns
  repeat' first
    | intro _ | with_reducible first | assumption | apply Same.killRun
    | fail_if_no_progress with_reducible apply Same.fields | with_reducible first | refine Same.foldl _ _ (fun _ _ _ => ?_) ?_ | refine Same.foldl_fst _ _ _ (fun _ _ _ => ?_) ?_ | refine Same.foldl_snd _ _ _ (fun _ _ _ => ?_) ?_ | refine Same.of_snd (by assumption) ?_ | refine Same.of_fst (by assumption) ?_ | apply Same.ite
    | split

theorem Same.disableQueue (h₀ : Same r₀ s) (q : Nat) : Same r₀ (s.disableQueue q) := by
  unfold Sys2Proof.Machine.State.disableQueue
  repeat' first
    | intro _ | with_reducible first | assumption | apply Same.dropWatch | apply Same.killRuns | apply Same.noteIdle | apply Same.upd

theorem Same.suspendQueue (h₀ : Same r₀ s) (q : Nat) (own : Bool) : Same r₀ (s.suspendQueue q own) := by
  unfold Sys2Proof.Machine.State.suspendQueue
  repeat' first
    | intro _ | with_reducible first | assumption | apply Same.noteIdle | apply Same.rewind | apply Same.upd
    | fail_if_no_progress with_reducible apply Same.fields | with_reducible first | refine Same.of_snd (by assumption) ?_ | refine Same.of_fst (by assumption) ?_ | apply Same.ite

theorem Same.resumeQueue (h₀ : Same r₀ s) (q : Nat) : Same r₀ (s.resumeQueue q) := by
  unfold Sys2Proof.Machine.State.resumeQueue
  repeat' first
    | intro _ | with_reducible first | assumption | apply Same.noteReady | apply Same.upd

theorem Same.raiseQueue (h₀ : Same r₀ s) (q : Nat) : Same r₀ (s.raiseQueue q) := by
  unfold Sys2Proof.Machine.State.raiseQueue
  repeat' first
    | intro _ | with_reducible first | assumption | apply Same.rewind | apply Same.upd
    | fail_if_no_progress with_reducible apply Same.fields | with_reducible first | refine Same.of_snd (by assumption) ?_ | refine Same.of_fst (by assumption) ?_ | apply Same.ite
    | split

theorem Same.raiseVdi (h₀ : Same r₀ s) (v : Nat) : Same r₀ (s.raiseVdi v) := by
  unfold Sys2Proof.Machine.State.raiseVdi
  repeat' first
    | intro _ | with_reducible first | assumption | apply Same.raiseQueue | apply Same.setVdi | apply Same.upd
    | with_reducible first | refine Same.foldl _ _ (fun _ _ _ => ?_) ?_

theorem Same.freeGranules (h₀ : Same r₀ s) (v : Nat) : Same r₀ (s.freeGranules v) := by
  unfold Sys2Proof.Machine.State.freeGranules
  repeat' first
    | intro _ | with_reducible first | assumption | apply Same.upd
    | with_reducible first | refine Same.foldl _ _ (fun _ _ _ => ?_) ?_

theorem Same.resetVdi (h₀ : Same r₀ s) (v : Nat) : Same r₀ (s.resetVdi v) := by
  unfold Sys2Proof.Machine.State.resetVdi
  repeat' (first
    | (with_reducible assumption)
    | (intro _)
    | (with_reducible apply Same.dropWatch)
    | (with_reducible apply Same.freeGranules)
    | (with_reducible apply Same.killRuns)
    | (with_reducible apply Same.noteIdle)
    | (with_reducible apply Same.raiseVdi)
    | (with_reducible apply Same.touchCtx)
    | (with_reducible apply Same.upd)
    | (with_reducible refine Same.foldl _ _ (fun _ _ _ => ?_) ?_)
    | (with_reducible refine Same.foldl_fst _ _ _ (fun _ _ _ => ?_) ?_)
    | (with_reducible refine Same.foldl_snd _ _ _ (fun _ _ _ => ?_) ?_)
    | (fail_if_no_progress with_reducible apply Same.fields))

theorem Same.releaseVdi (h₀ : Same r₀ s) (v : Nat) : Same r₀ (s.releaseVdi v) := by
  unfold Sys2Proof.Machine.State.releaseVdi
  repeat' first
    | intro _ | with_reducible first | assumption | apply Same.upd | apply Same.wipeRecords
    | fail_if_no_progress with_reducible apply Same.fields | with_reducible first | refine Same.foldl _ _ (fun _ _ _ => ?_) ?_ | refine Same.foldl_fst _ _ _ (fun _ _ _ => ?_) ?_ | refine Same.foldl_snd _ _ _ (fun _ _ _ => ?_) ?_

theorem Same.zeroBitmap (h₀ : Same r₀ s) (v : Nat) (k : Nat) : Same r₀ (s.zeroBitmap v k) := by
  unfold Sys2Proof.Machine.State.zeroBitmap
  repeat' first
    | intro _ | with_reducible first | assumption | apply Same.zero

theorem Same.swapLog (h₀ : Same r₀ s) (v : Nat) : Same r₀ (s.swapLog v) := by
  unfold Sys2Proof.Machine.State.swapLog
  repeat' first
    | intro _ | with_reducible first | assumption | apply Same.setVdi | apply Same.upd | apply Same.zeroBitmap

theorem Same.migrated (h₀ : Same r₀ s) (v : Nat) (step : Nat) (done : Bool) : Same r₀ (s.migrated v step done) := by
  unfold Sys2Proof.Machine.State.migrated
  repeat' first
    | intro _ | with_reducible first | assumption | apply Same.setVdi | apply Same.upd

theorem Same.dstBytes (h₀ : Same r₀ s) (h : Nat) (m : Msg) (dst : Nat) (l : List Byte) : Same r₀ (s.dstBytes h m dst l).2 := by
  unfold Sys2Proof.Machine.State.dstBytes
  repeat' first
    | intro _ | with_reducible first | assumption | apply Same.storeV | apply Same.upd
    | fail_if_no_progress with_reducible apply Same.fields | with_reducible first | refine Same.of_snd (by assumption) ?_ | refine Same.of_fst (by assumption) ?_ | apply Same.ite
    | split | dsimp only

theorem Same.answer (h₀ : Same r₀ s) (g : Nat) (p : Nat) (fs : Nat) (type : Nat) (st : Status) (relay : Bool) (data : List Nat) : Same r₀ (s.answer g p fs type st relay data) := by
  unfold Sys2Proof.Machine.State.answer
  repeat' first
    | intro _ | with_reducible first | assumption | apply Same.emit | apply Same.upd
    | fail_if_no_progress with_reducible apply Same.fields | with_reducible first | refine Same.of_snd (by assumption) ?_ | refine Same.of_fst (by assumption) ?_ | apply Same.ite
    | split

theorem Same.reply (h₀ : Same r₀ s) (h : Nat) (m : Msg) (op : Nat) (st : Status) (pay : Nat) : Same r₀ (s.reply h m op st pay) := by
  unfold Sys2Proof.Machine.State.reply
  repeat' first
    | intro _ | with_reducible first | assumption | apply Same.answer | apply Same.emit | apply Same.pay | apply Same.upd
    | fail_if_no_progress with_reducible apply Same.fields | with_reducible first | refine Same.of_snd (by assumption) ?_ | refine Same.of_fst (by assumption) ?_ | apply Same.ite
    | split | dsimp only

theorem Same.rest (h₀ : Same r₀ s) (h : Nat) (l : Leaving) : Same r₀ (s.rest h l).1 := by
  unfold Sys2Proof.Machine.State.rest
  repeat' first
    | intro _ | with_reducible first | assumption | apply Same.migrated | apply Same.noticeBare | apply Same.raiseVdi | apply Same.releaseVdi
      | apply Same.saveConf | apply Same.swapLog | apply Same.upd
    | fail_if_no_progress with_reducible apply Same.fields | with_reducible first | refine Same.of_snd (by assumption) ?_ | refine Same.of_fst (by assumption) ?_ | apply Same.ite
    | split

theorem Same.complete (h₀ : Same r₀ s) (h : Nat) (l : Leaving) : Same r₀ (s.complete h l) := by
  unfold Sys2Proof.Machine.State.complete
  repeat' first
    | intro _ | with_reducible first | assumption | apply Same.reply | apply Same.rest

theorem Same.settleMsgs (h₀ : Same r₀ s) (h : Nat) : Same r₀ (s.settleMsgs h) := by
  unfold Sys2Proof.Machine.State.settleMsgs
  repeat' first
    | intro _ | with_reducible first | assumption | apply Same.complete | apply Same.upd
    | fail_if_no_progress with_reducible apply Same.fields | with_reducible first | refine Same.foldl _ _ (fun _ _ _ => ?_) ?_ | refine Same.foldl_fst _ _ _ (fun _ _ _ => ?_) ?_ | refine Same.foldl_snd _ _ _ (fun _ _ _ => ?_) ?_ | refine Same.of_snd (by assumption) ?_ | refine Same.of_fst (by assumption) ?_ | apply Same.ite

theorem Same.underWay (h₀ : Same r₀ s) (h : Nat) (l : Leaving) : Same r₀ (s.underWay h l) := by
  unfold Sys2Proof.Machine.State.underWay
  repeat' first
    | intro _ | with_reducible first | assumption | apply Same.settleMsgs | apply Same.upd

theorem Same.mboxW (h₀ : Same r₀ s) (h : Nat) (m : Msg) (op : Nat) (sc : Scope) (compute : Bool) (body : State → State × Option (Status × Nat)) (h₀body : ∀ t, Same r₀ t → Same r₀ (body t).1) : Same r₀ (s.mboxW h m op sc compute body) := by
  unfold Sys2Proof.Machine.State.mboxW
  repeat' first
    | intro _ | with_reducible first | assumption | apply Same.compute | apply Same.reply | apply Same.settleMsgs | apply h₀body
    | fail_if_no_progress with_reducible apply Same.fields | with_reducible first | refine Same.of_snd (by assumption) ?_ | refine Same.of_fst (by assumption) ?_ | apply Same.ite
    | split | dsimp only

theorem Same.mbox (h₀ : Same r₀ s) (h : Nat) (m : Msg) (op : Nat) (sc : Scope) (compute : Bool) (body : State → State × Status × Nat) (h₀body : ∀ t, Same r₀ t → Same r₀ (body t).1) : Same r₀ (s.mbox h m op sc compute body) := by
  unfold Sys2Proof.Machine.State.mbox
  repeat' (first
    | (with_reducible assumption)
    | (intro _)
    | (with_reducible apply Same.compute)
    | (with_reducible apply Same.mboxW))

theorem Same.mboxL (h₀ : Same r₀ s) (h : Nat) (m : Msg) (op : Nat) (body : State → State × Status × Nat) (h₀body : ∀ t, Same r₀ t → Same r₀ (body t).1) : Same r₀ (s.mboxL h m op body) := by
  unfold Sys2Proof.Machine.State.mboxL
  refine Same.mbox h₀ _ _ _ _ _ _ fun t ht => ?_
  dsimp only
  split
  · exact Same.saveConf (h₀body t ht) _ _
  · exact h₀body t ht

theorem Same.afterRun (h₀ : Same r₀ s) (h : Nat) (r : Run) : Same r₀ (s.afterRun h r) := by
  unfold Sys2Proof.Machine.State.afterRun
  repeat' first
    | intro _ | with_reducible first | assumption | apply Same.noteIdle | apply Same.noteReady | apply Same.settleMsgs
    | fail_if_no_progress with_reducible apply Same.fields | with_reducible first | refine Same.of_snd (by assumption) ?_ | refine Same.of_fst (by assumption) ?_ | apply Same.ite
    | split

theorem Same.settleFail (h₀ : Same r₀ s) (h : Nat) (p : Nat) : Same r₀ (s.settleFail h p) := by
  unfold Sys2Proof.Machine.State.settleFail
  repeat' first
    | intro _ | with_reducible first | assumption | apply Same.afterRun | apply Same.endFailed
    | fail_if_no_progress with_reducible apply Same.fields | with_reducible first | refine Same.of_snd (by assumption) ?_ | refine Same.of_fst (by assumption) ?_ | apply Same.ite
    | split

theorem Same.engineEnd (h₀ : Same r₀ s) (h : Nat) (p : Nat) (r : Run) (e : EngRes) : Same r₀ (s.engineEnd h p r e) := by
  unfold Sys2Proof.Machine.State.engineEnd
  repeat' first
    | intro _ | with_reducible first | assumption | apply Same.afterRun | apply Same.countMemErr | apply Same.engineFail | apply Same.tileError
      | apply Same.updCore
    | fail_if_no_progress with_reducible apply Same.fields | with_reducible first | refine Same.of_snd (by assumption) ?_ | refine Same.of_fst (by assumption) ?_ | apply Same.ite
    | split

theorem Same.endTile (h₀ : Same r₀ s) (h : Nat) (p : Nat) (r : Run) : Same r₀ (s.endTile h p r) := by
  unfold Sys2Proof.Machine.State.endTile
  repeat' first
    | intro _ | with_reducible first | assumption | apply Same.afterRun | apply Same.boundary | apply Same.lastTile
    | fail_if_no_progress with_reducible apply Same.fields | with_reducible first | refine Same.of_snd (by assumption) ?_ | refine Same.of_fst (by assumption) ?_ | apply Same.ite

theorem Same.idleBoundary (h₀ : Same r₀ s) (h : Nat) (p : Nat) : Same r₀ (s.idleBoundary h p) := by
  unfold Sys2Proof.Machine.State.idleBoundary
  repeat' first
    | intro _ | with_reducible first | assumption | apply Same.updCore
    | fail_if_no_progress with_reducible apply Same.fields | with_reducible first | refine Same.of_snd (by assumption) ?_ | refine Same.of_fst (by assumption) ?_ | apply Same.ite

theorem Same.settleOrder (h₀ : Same r₀ s) (h : Nat) (p : Nat) (tag : Nat) (r : Run) : Same r₀ (s.settleOrder h p tag r) := by
  unfold Sys2Proof.Machine.State.settleOrder
  repeat' first
    | intro _ | with_reducible first | assumption | apply Same.meet | apply Same.race | apply Same.raceEngine | apply Same.updCore

theorem Same.moveOf (h₀ : Same r₀ s) (h p : Nat) (r : Run) (tag stop : Nat) : Same r₀ (s.moveOf h p r tag stop).s := by
  unfold Sys2Proof.Machine.State.moveOf
  repeat' first
    | intro _ | with_reducible first | assumption | apply Same.dmaMove | apply Same.asFound | apply Same.updCore | apply Same.stampMark
    | fail_if_no_progress with_reducible apply Same.fields | with_reducible first | apply Same.ite
    | split | dsimp only

theorem Same.done {m : Mv} (h₀ : Same r₀ m.s) (h p : Nat) (r : Run) (tag : Nat) : Same r₀ (m.done h p r tag) := by
  unfold Sys2Proof.Machine.Mv.done
  repeat' (first
    | (with_reducible assumption)
    | (intro _)
    | (with_reducible apply Same.lateSide)
    | (with_reducible apply Same.strErr)
    | (with_reducible apply Same.countMove)
    | (with_reducible apply Same.dmaFailed)
    | (with_reducible apply Same.settleFail)
    | (with_reducible apply Same.countMemErr)
    | (with_reducible apply Same.nextError)
    | (with_reducible apply Same.tileError)
    | (with_reducible apply Same.afterRun)
    | (with_reducible apply Same.dmaStatus)
    | (with_reducible apply Same.updCore)
    | (with_reducible apply Same.finishCore)
    | (with_reducible apply Same.acceptDma)
    | (fail_if_no_progress with_reducible apply Same.fields)
    | (with_reducible apply Same.ite)
    | (split))


theorem Same.endDma (h₀ : Same r₀ s) (h : Nat) (p : Nat) (tag : Nat) (r : Run) : Same r₀ (s.endDma h p tag r) := by
  unfold Sys2Proof.Machine.State.endDma
  repeat' first
    | intro _ | with_reducible first | assumption | apply Same.done | apply Same.moveOf | apply Same.settleOrder
    | fail_if_no_progress with_reducible apply Same.fields | with_reducible first | refine Same.of_snd (by assumption) ?_ | refine Same.of_fst (by assumption) ?_ | apply Same.ite
    | split | dsimp only

theorem Same.computeFirst (h₀ : Same r₀ s) (h : Nat) (p : Nat) (r : Run) (i : Nat) : Same r₀ (s.computeFirst h p r i).1 := by
  unfold Sys2Proof.Machine.State.computeFirst
  repeat' (first
    | (with_reducible assumption)
    | (intro _)
    | (with_reducible apply Same.compute)
    | (with_reducible apply Same.draw)
    | (fail_if_no_progress with_reducible apply Same.fields)
    | (with_reducible refine Same.of_snd (by assumption) ?_)
    | (with_reducible refine Same.of_fst (by assumption) ?_)
    | (with_reducible apply Same.ite)
    | (split)
    | (dsimp only))

theorem Same.endHead (h₀ : Same r₀ s) (h : Nat) (p : Nat) (i : Nat) : Same r₀ (s.endHead h p i) := by
  unfold Sys2Proof.Machine.State.endHead
  repeat' first
    | intro _ | with_reducible first | assumption | apply Same.acceptDma | apply Same.endDma
    | fail_if_no_progress with_reducible apply Same.fields | with_reducible first | refine Same.of_snd (by assumption) ?_ | refine Same.of_fst (by assumption) ?_ | apply Same.ite
    | split | dsimp only

theorem Same.failHead (h₀ : Same r₀ s) (h : Nat) (p : Nat) (i : Nat) (st : Status) : Same r₀ (s.failHead h p i st) := by
  unfold Sys2Proof.Machine.State.failHead
  repeat' first
    | intro _ | with_reducible first | assumption | apply Same.countMove | apply Same.dmaFailed | apply Same.draw | apply Same.moveOf
      | apply Same.settleFail | apply Same.settleOrder
    | fail_if_no_progress with_reducible apply Same.fields | with_reducible first | refine Same.of_snd (by assumption) ?_ | refine Same.of_fst (by assumption) ?_ | apply Same.ite
    | split | dsimp only

theorem Same.failDma (h₀ : Same r₀ s) (h : Nat) (p : Nat) (i : Nat) (st : Status) : Same r₀ (s.failDma h p i st) := by
  unfold Sys2Proof.Machine.State.failDma
  repeat' first
    | intro _ | with_reducible first | assumption | apply Same.acceptDma | apply Same.computeFirst | apply Same.engineEnd | apply Same.failHead
      | apply Same.updCore
    | fail_if_no_progress with_reducible apply Same.fields | with_reducible first | refine Same.of_snd (by assumption) ?_ | refine Same.of_fst (by assumption) ?_ | apply Same.ite
    | split | dsimp only

theorem Same.coreReset (h₀ : Same r₀ s) (h : Nat) (p : Nat) (cause : Nat) (l : Nat) : Same r₀ (s.coreReset h p cause l) := by
  unfold Sys2Proof.Machine.State.coreReset
  repeat' first
    | intro _ | with_reducible first | assumption | apply Same.afterRun | apply Same.startCoreReset
    | fail_if_no_progress with_reducible apply Same.fields | with_reducible first | refine Same.of_snd (by assumption) ?_ | refine Same.of_fst (by assumption) ?_ | apply Same.ite
    | split | dsimp only

theorem Same.raRead (h₀ : Same r₀ s) (h : Nat) (v : Nat) (k : Nat) (a : Nat) (n : Nat) : Same r₀ (s.raRead h v k a n).2.2 := by
  unfold Sys2Proof.Machine.State.raRead
  repeat' first
    | intro _ | with_reducible first | assumption | apply Same.pay | apply Same.strErrs
    | fail_if_no_progress with_reducible apply Same.fields | with_reducible first | refine Same.of_snd (by assumption) ?_ | refine Same.of_fst (by assumption) ?_ | apply Same.ite
    | split | dsimp only

theorem Same.raIndices (h₀ : Same r₀ s) (h : Nat) (v : Nat) (k : Nat) (d : RasDraw) : Same r₀ (s.raIndices h v k d).2 := by
  unfold Sys2Proof.Machine.State.raIndices
  repeat' first
    | intro _ | with_reducible first | assumption | apply Same.draw | apply Same.raRead
    | fail_if_no_progress with_reducible apply Same.fields | with_reducible first | refine Same.of_snd (by assumption) ?_ | refine Same.of_fst (by assumption) ?_ | apply Same.ite
    | split

theorem Same.raPrims (h₀ : Same r₀ s) (h : Nat) (v : Nat) (k : Nat) (d : RasDraw) : Same r₀ (s.raPrims h v k d).2 := by
  unfold Sys2Proof.Machine.State.raPrims
  repeat' first
    | intro _ | with_reducible first | assumption | apply Same.raIndices

theorem Same.raStreamPrims (h₀ : Same r₀ s) (h : Nat) (v : Nat) (k : Nat) (l : List RasDraw) : Same r₀ (s.raStreamPrims h v k l).2 := by
  unfold Sys2Proof.Machine.State.raStreamPrims
  repeat' first
    | intro _ | with_reducible first | assumption | apply Same.raPrims
    | with_reducible first | refine Same.foldl _ _ (fun _ _ _ => ?_) ?_ | refine Same.foldl_fst _ _ _ (fun _ _ _ => ?_) ?_ | refine Same.foldl_snd _ _ _ (fun _ _ _ => ?_) ?_

theorem Same.setFeedback (h₀ : Same r₀ s) (h : Nat) (v : Nat) (k : Nat) (texs : List RasTex) (e : Nat × Nat) : Same r₀ (s.setFeedback h v k texs e) := by
  unfold Sys2Proof.Machine.State.setFeedback
  repeat' first
    | intro _ | with_reducible first | assumption | apply Same.pay | apply Same.storeV
    | fail_if_no_progress with_reducible apply Same.fields | with_reducible first | refine Same.of_snd (by assumption) ?_ | refine Same.of_fst (by assumption) ?_ | apply Same.ite
    | split

theorem Same.fillPool (h₀ : Same r₀ s) (h : Nat) (v : Nat) (k : Nat) (pool : Nat) (chunks : Nat) : Same r₀ (s.fillPool h v k pool chunks) := by
  unfold Sys2Proof.Machine.State.fillPool
  repeat' first
    | intro _ | with_reducible first | assumption | apply Same.draw | apply Same.pay | apply Same.storeV
    | fail_if_no_progress with_reducible apply Same.fields | with_reducible first | refine Same.foldl _ _ (fun _ _ _ => ?_) ?_ | refine Same.foldl_fst _ _ _ (fun _ _ _ => ?_) ?_ | refine Same.foldl_snd _ _ _ (fun _ _ _ => ?_) ?_ | refine Same.of_snd (by assumption) ?_ | refine Same.of_fst (by assumption) ?_ | apply Same.ite

/-! ## Renders -/

theorem Same.loadLine {q : RasRun} (h₀ : Same r₀ q.st) (h v k : Nat) (a : RasAtt) (area : Bool) (at_ n : Nat) : Same r₀ (q.loadLine h v k a area at_ n).2.st := by
  unfold Sys2Proof.Machine.RasRun.loadLine
  repeat' first
    | intro _ | with_reducible first | assumption | apply Same.raRead | apply Same.draw
    | fail_if_no_progress with_reducible apply Same.fields | with_reducible first | apply Same.ite
    | split | dsimp only

theorem Same.storeLine {q : RasRun} (h₀ : Same r₀ q.st) (h v k : Nat) (a : RasAtt) (at_ : Nat) (l : List Nat) : Same r₀ (q.storeLine h v k a at_ l).st := by
  unfold Sys2Proof.Machine.RasRun.storeLine
  repeat' first
    | intro _ | with_reducible first | assumption | apply Same.pay | apply Same.storeV
    | fail_if_no_progress with_reducible apply Same.fields | with_reducible first | apply Same.ite
    | split | dsimp only

theorem Same.foldl_ras {α : Type} (f : RasRun → α → RasRun) (l : List α) {q : RasRun} (hf : ∀ q a, Same r₀ q.st → Same r₀ (f q a).st)
    (h : Same r₀ q.st) : Same r₀ (l.foldl f q).st := by
  induction l generalizing q with
  | nil => exact h
  | cons a l ih => exact ih (hf _ _ h)

theorem Same.foldl_ras_snd {α β : Type} (f : β × RasRun → α → β × RasRun) (l : List α) (q : β × RasRun) (hf : ∀ q a, Same r₀ q.2.st → Same r₀ (f q a).2.st)
    (h : Same r₀ q.2.st) : Same r₀ (l.foldl f q).2.st := by
  induction l generalizing q with
  | nil => exact h
  | cons a l ih => exact ih _ (hf _ _ h)

theorem Same.loadAtts {q : RasRun} (h₀ : Same r₀ q.st) (h v k : Nat) (r : RenderRun) (g : RasGrid) (store : Nat) (t : RasTile) (y n : Nat) :
    Same r₀ (q.loadAtts h v k r g store t y n).2.st := by
  unfold Sys2Proof.Machine.RasRun.loadAtts
  exact Same.foldl_ras_snd _ _ _ (fun _ _ h => Same.loadLine h _ _ _ _ _ _ _) h₀

theorem Same.line {q : RasRun} (h₀ : Same r₀ q.st) (h v k : Nat) (r : RenderRun) (g : RasGrid) (store : Nat) (res : Nat → Nat → Bool) (t : RasTile) (y : Nat) :
    Same r₀ (q.line h v k r g store res t y).st := by
  unfold Sys2Proof.Machine.RasRun.line
  repeat' first
    | intro _ | with_reducible first | assumption | apply Same.loadAtts | apply Same.storeLine | apply Same.setFeedback
    | fail_if_no_progress with_reducible apply Same.fields | with_reducible first | refine Same.foldl_ras _ _ (fun _ _ _ => ?_) ?_ | refine Same.foldl _ _ (fun _ _ _ => ?_) ?_ | apply Same.ite
    | split | dsimp only

theorem Same.tile {q : RasRun} (h₀ : Same r₀ q.st) (h v k : Nat) (r : RenderRun) (g : RasGrid) (store : Nat) (t : RasTile) :
    Same r₀ (q.tile h v k r g store t).st := by
  unfold Sys2Proof.Machine.RasRun.tile
  repeat' first
    | intro _ | with_reducible first | assumption | apply Same.line
    | fail_if_no_progress with_reducible apply Same.fields | with_reducible first | refine Same.foldl_ras _ _ (fun _ _ _ => ?_) ?_ | apply Same.ite
    | split | dsimp only

/-- A render's passes write memory, the buckets and the counter of free values alone. -/
theorem Same.rasterize (h₀ : Same r₀ s) (h v c d : Nat) (r : RenderRun) (leave : Bool) : Same r₀ (s.rasterize h v c d r leave).run.st := by
  unfold Sys2Proof.Machine.State.rasterize Sys2Proof.Machine.State.noTiles
  repeat' first
    | intro _ | with_reducible first | assumption | apply Same.tile | apply Same.fillPool | apply Same.raStreamPrims | apply Same.raRead
      | apply Same.draw
    | fail_if_no_progress with_reducible apply Same.fields | with_reducible first | refine Same.foldl_ras _ _ (fun _ _ _ => ?_) ?_ | apply Same.ite
    | split | dsimp only


theorem Same.takeGfx (h₀ : Same r₀ s) (h : Nat) (v : Nat) (cores : List Nat) : Same r₀ (s.takeGfx h v cores) := by
  unfold Sys2Proof.Machine.State.takeGfx
  repeat' first
    | intro _ | with_reducible first | assumption | apply Same.clearFor | apply Same.updCore
    | with_reducible first | refine Same.foldl _ _ (fun _ _ _ => ?_) ?_

theorem Same.gfxDone (h₀ : Same r₀ s) (h : Nat) (part : Nat) : Same r₀ (s.gfxDone h part) := by
  unfold Sys2Proof.Machine.State.gfxDone
  repeat' first
    | intro _ | with_reducible first | assumption | apply Same.updCore
    | fail_if_no_progress with_reducible apply Same.fields | with_reducible first | refine Same.foldl _ _ (fun _ _ _ => ?_) ?_ | refine Same.foldl_fst _ _ _ (fun _ _ _ => ?_) ?_ | refine Same.foldl_snd _ _ _ (fun _ _ _ => ?_) ?_ | refine Same.of_snd (by assumption) ?_ | refine Same.of_fst (by assumption) ?_ | apply Same.ite

theorem Same.endRender (h₀ : Same r₀ s) (q : Nat) (gen : Nat) (i : Nat) (d : Nat) (o : RasEnd) (cpl : Status → Bool → Nat → Cpl) (core : Nat) : Same r₀ (s.endRender q gen i d o cpl core) := by
  unfold Sys2Proof.Machine.State.endRender
  repeat' first
    | intro _ | with_reducible first | assumption | apply Same.finishQ | apply Same.incident | apply Same.requeueQ | apply Same.upd
    | fail_if_no_progress with_reducible apply Same.fields | with_reducible first | refine Same.foldl _ _ (fun _ _ _ => ?_) ?_ | refine Same.foldl_fst _ _ _ (fun _ _ _ => ?_) ?_ | refine Same.foldl_snd _ _ _ (fun _ _ _ => ?_) ?_ | refine Same.of_snd (by assumption) ?_ | refine Same.of_fst (by assumption) ?_ | apply Same.ite

theorem Same.runRender (h₀ : Same r₀ s) (q : Nat) (i : Nat) (head : Bool) (d : Nat) (c : Nat) (v : Nat) (part : Nat) (cores : List Nat) (r : RenderRun) : Same r₀ (s.runRender q i head d c v part cores r) := by
  unfold Sys2Proof.Machine.State.runRender
  repeat' first
    | intro _ | with_reducible first | assumption | apply Same.accountDispatch | apply Same.clearFor | apply Same.draw | apply Same.endRender
      | apply Same.gfxDone | apply Same.noteIdle | apply Same.noteReady | apply Same.rasterize | apply Same.takeGfx | apply Same.upd

theorem Same.flipPlane (h₀ : Same r₀ s) (h : Nat) (u : Nat) (p : Nat) : Same r₀ (s.flipPlane h u p) := by
  unfold Sys2Proof.Machine.State.flipPlane
  repeat' first
    | intro _ | with_reducible first | assumption | apply Same.draw | apply Same.incident | apply Same.readErrs | apply Same.storeV | apply Same.upd
    | fail_if_no_progress with_reducible apply Same.fields | with_reducible first | refine Same.foldl _ _ (fun _ _ _ => ?_) ?_ | refine Same.foldl_fst _ _ _ (fun _ _ _ => ?_) ?_ | refine Same.foldl_snd _ _ _ (fun _ _ _ => ?_) ?_ | refine Same.of_snd (by assumption) ?_ | refine Same.of_fst (by assumption) ?_ | apply Same.ite

theorem Same.applyPipe (h₀ : Same r₀ s) (h : Nat) (u : Nat) : Same r₀ (s.applyPipe h u) := by
  unfold Sys2Proof.Machine.State.applyPipe
  repeat' first
    | intro _ | with_reducible first | assumption | apply Same.saveConf | apply Same.upd
    | fail_if_no_progress with_reducible apply Same.fields | with_reducible first | refine Same.foldl _ _ (fun _ _ _ => ?_) ?_ | refine Same.foldl_fst _ _ _ (fun _ _ _ => ?_) ?_ | refine Same.foldl_snd _ _ _ (fun _ _ _ => ?_) ?_ | refine Same.of_snd (by assumption) ?_ | refine Same.of_fst (by assumption) ?_ | apply Same.ite
    | split

theorem Same.payScan (h₀ : Same r₀ s) (h : Nat) (u : Nat) (free : Nat) : Same r₀ (s.payScan h u free) := by
  unfold Sys2Proof.Machine.State.payScan
  repeat' first
    | intro _ | with_reducible first | assumption | apply Same.pay
    | fail_if_no_progress with_reducible apply Same.fields | with_reducible first | refine Same.foldl _ _ (fun _ _ _ => ?_) ?_ | refine Same.foldl_fst _ _ _ (fun _ _ _ => ?_) ?_ | refine Same.foldl_snd _ _ _ (fun _ _ _ => ?_) ?_ | refine Same.of_snd (by assumption) ?_ | refine Same.of_fst (by assumption) ?_ | apply Same.ite

theorem Same.scanOut (h₀ : Same r₀ s) (h : Nat) (u : Nat) : Same r₀ (s.scanOut h u) := by
  unfold Sys2Proof.Machine.State.scanOut
  repeat' first
    | intro _ | with_reducible first | assumption | apply Same.draw | apply Same.emit | apply Same.payScan
    | fail_if_no_progress with_reducible apply Same.fields | with_reducible first | refine Same.of_snd (by assumption) ?_ | refine Same.of_fst (by assumption) ?_ | apply Same.ite

theorem Same.slotsFail (h₀ : Same r₀ s) (h : Nat) (u : Nat) (bad : List Nat) : Same r₀ (s.slotsFail h u bad) := by
  unfold Sys2Proof.Machine.State.slotsFail
  repeat' first
    | intro _ | with_reducible first | assumption | apply Same.incident | apply Same.upd
    | with_reducible first | refine Same.foldl _ _ (fun _ _ _ => ?_) ?_

theorem Same.writeLedger (h₀ : Same r₀ s) (h : Nat) (writers : Nat) (old : Nat) (new : Nat) : Same r₀ (s.writeLedger h writers old new) := by
  unfold Sys2Proof.Machine.State.writeLedger
  repeat' first
    | intro _ | with_reducible first | assumption | apply Same.wrBytes

theorem Same.adoptLedger (h₀ : Same r₀ s) (h : Nat) (new : Nat) : Same r₀ (s.adoptLedger h new) := by
  unfold Sys2Proof.Machine.State.adoptLedger
  repeat' first
    | intro _ | with_reducible first | assumption | apply Same.incident | apply Same.upd
    | fail_if_no_progress with_reducible apply Same.fields | with_reducible first | refine Same.of_snd (by assumption) ?_ | refine Same.of_fst (by assumption) ?_ | apply Same.ite

theorem Same.stagePkg (h₀ : Same r₀ s) (h : Nat) : Same r₀ (s.stagePkg h) := by
  unfold Sys2Proof.Machine.State.stagePkg
  repeat' first
    | intro _ | with_reducible first | assumption | apply Same.upd | apply Same.wrBytes
    | fail_if_no_progress with_reducible apply Same.fields | with_reducible first | refine Same.foldl _ _ (fun _ _ _ => ?_) ?_ | refine Same.foldl_fst _ _ _ (fun _ _ _ => ?_) ?_ | refine Same.foldl_snd _ _ _ (fun _ _ _ => ?_) ?_ | refine Same.of_snd (by assumption) ?_ | refine Same.of_fst (by assumption) ?_ | apply Same.ite
    | split

theorem Same.startSlot (h₀ : Same r₀ s) (h : Nat) (slot : Nat) (trial : Bool) : Same r₀ (s.startSlot h slot trial) := by
  unfold Sys2Proof.Machine.State.startSlot
  repeat' first
    | intro _ | with_reducible first | assumption | apply Same.upd | apply Same.wrBytes
    | fail_if_no_progress with_reducible apply Same.fields | with_reducible first | refine Same.foldl _ _ (fun _ _ _ => ?_) ?_ | refine Same.foldl_fst _ _ _ (fun _ _ _ => ?_) ?_ | refine Same.foldl_snd _ _ _ (fun _ _ _ => ?_) ?_ | refine Same.of_snd (by assumption) ?_ | refine Same.of_fst (by assumption) ?_ | apply Same.ite
    | split

theorem Same.slotFails (h₀ : Same r₀ s) (h : Nat) (slot : Nat) : Same r₀ (s.slotFails h slot) := by
  unfold Sys2Proof.Machine.State.slotFails
  repeat' first
    | intro _ | with_reducible first | assumption | apply Same.incident | apply Same.upd
    | fail_if_no_progress with_reducible apply Same.fields | with_reducible first | refine Same.of_snd (by assumption) ?_ | refine Same.of_fst (by assumption) ?_ | apply Same.ite

theorem Same.tryOther (h₀ : Same r₀ s) (h : Nat) (slot : Nat) : Same r₀ (s.tryOther h slot) := by
  unfold Sys2Proof.Machine.State.tryOther
  repeat' first
    | intro _ | with_reducible first | assumption | apply Same.slotFails | apply Same.startSlot
    | fail_if_no_progress with_reducible apply Same.fields | with_reducible first | refine Same.of_snd (by assumption) ?_ | refine Same.of_fst (by assumption) ?_ | apply Same.ite

theorem Same.bootSlot (h₀ : Same r₀ s) (h : Nat) (slot : Nat) (trial : Bool) : Same r₀ (s.bootSlot h slot trial) := by
  unfold Sys2Proof.Machine.State.bootSlot
  repeat' first
    | intro _ | with_reducible first | assumption | apply Same.startSlot | apply Same.tryOther
    | fail_if_no_progress with_reducible apply Same.fields | with_reducible first | refine Same.of_snd (by assumption) ?_ | refine Same.of_fst (by assumption) ?_ | apply Same.ite

theorem Same.bootFirmware (h₀ : Same r₀ s) (h : Nat) : Same r₀ (s.bootFirmware h) := by
  unfold Sys2Proof.Machine.State.bootFirmware
  repeat' first
    | intro _ | with_reducible first | assumption | apply Same.bootSlot | apply Same.incident | apply Same.upd
    | fail_if_no_progress with_reducible apply Same.fields | with_reducible first | refine Same.of_snd (by assumption) ?_ | refine Same.of_fst (by assumption) ?_ | apply Same.ite

theorem Same.syncSoak (h₀ : Same r₀ s)  : Same r₀ (s.syncSoak) := by
  unfold Sys2Proof.Machine.State.syncSoak
  repeat' first
    | intro _ | with_reducible first | assumption
    | fail_if_no_progress with_reducible apply Same.fields

theorem Same.syncEmergency (h₀ : Same r₀ s)  : Same r₀ (s.syncEmergency) := by
  unfold Sys2Proof.Machine.State.syncEmergency
  repeat' first
    | intro _ | with_reducible first | assumption
    | fail_if_no_progress with_reducible apply Same.fields

theorem Same.adoptCopy (h₀ : Same r₀ s) (h : Nat) (c : List Host.Cell) (id : Nat) : Same r₀ (s.adoptCopy h c id) := by
  unfold Sys2Proof.Machine.State.adoptCopy
  repeat' first
    | intro _ | with_reducible first | assumption | apply Same.wrBytes
    | fail_if_no_progress with_reducible apply Same.fields | with_reducible first | refine Same.of_snd (by assumption) ?_ | refine Same.of_fst (by assumption) ?_ | apply Same.ite
    | split

theorem Same.activate (h₀ : Same r₀ s) (h : Nat) (mask : Nat) : Same r₀ (s.activate h mask).1 := by
  unfold Sys2Proof.Machine.State.activate
  repeat' (first
    | (with_reducible assumption)
    | (intro _)
    | (with_reducible apply Same.adoptCopy)
    | (with_reducible apply Same.adoptLedger)
    | (with_reducible apply Same.hatchSend)
    | (with_reducible apply Same.rewindAll)
    | (with_reducible apply Same.syncSoak)
    | (with_reducible apply Same.upd)
    | (with_reducible apply Same.writeLedger)
    | (with_reducible refine Same.foldl _ _ (fun _ _ _ => ?_) ?_)
    | (with_reducible refine Same.foldl_fst _ _ _ (fun _ _ _ => ?_) ?_)
    | (with_reducible refine Same.foldl_snd _ _ _ (fun _ _ _ => ?_) ?_)
    | (fail_if_no_progress with_reducible apply Same.fields)
    | (with_reducible refine Same.of_snd (by assumption) ?_)
    | (with_reducible refine Same.of_fst (by assumption) ?_)
    | (with_reducible apply Same.ite)
    | (split)
    | (dsimp only))

theorem Same.phyRestart (h₀ : Same r₀ s) (h : Nat) (mask : Nat) (st : Status) : Same r₀ (s.phyRestart h mask st) := by
  unfold Sys2Proof.Machine.State.phyRestart
  repeat' first
    | intro _ | with_reducible first | assumption | apply Same.resetHalf
    | fail_if_no_progress with_reducible apply Same.fields | with_reducible first | refine Same.of_snd (by assumption) ?_ | refine Same.of_fst (by assumption) ?_ | apply Same.ite

theorem Same.loseDeferred (h₀ : Same r₀ s) (h : Nat) : Same r₀ (s.loseDeferred h) := by
  unfold Sys2Proof.Machine.State.loseDeferred
  repeat' first
    | intro _ | with_reducible first | assumption | apply Same.incident | apply Same.upd
    | fail_if_no_progress with_reducible apply Same.fields | with_reducible first | refine Same.of_snd (by assumption) ?_ | refine Same.of_fst (by assumption) ?_ | apply Same.ite

theorem Same.runDeferred (h₀ : Same r₀ s) (h : Nat) : Same r₀ (s.runDeferred h) := by
  unfold Sys2Proof.Machine.State.runDeferred
  repeat' first
    | intro _ | with_reducible first | assumption | apply Same.activate | apply Same.incident | apply Same.phyRestart | apply Same.upd
    | fail_if_no_progress with_reducible apply Same.fields | with_reducible first | refine Same.of_snd (by assumption) ?_ | refine Same.of_fst (by assumption) ?_ | apply Same.ite
    | split | dsimp only

theorem Same.reloadCopy (h₀ : Same r₀ s) (h : Nat) (id : Nat) : Same r₀ (s.reloadCopy h id) := by
  unfold Sys2Proof.Machine.State.reloadCopy
  repeat' first
    | intro _ | with_reducible first | assumption | apply Same.incident | apply Same.wrBytes
    | fail_if_no_progress with_reducible apply Same.fields | with_reducible first | refine Same.of_snd (by assumption) ?_ | refine Same.of_fst (by assumption) ?_ | apply Same.ite
    | split | dsimp only

theorem Same.rollback (h₀ : Same r₀ s) (h : Nat) : Same r₀ (s.rollback h) := by
  unfold Sys2Proof.Machine.State.rollback
  repeat' first
    | intro _ | with_reducible first | assumption | apply Same.activate | apply Same.incident | apply Same.phyRestart | apply Same.stagePkg
      | apply Same.upd
    | fail_if_no_progress with_reducible apply Same.fields | with_reducible first | refine Same.of_snd (by assumption) ?_ | refine Same.of_fst (by assumption) ?_ | apply Same.ite
    | split | dsimp only

theorem Same.componentStop (h₀ : Same r₀ s) (h : Nat) (id : Nat) : Same r₀ (s.componentStop h id) := by
  unfold Sys2Proof.Machine.State.componentStop
  repeat' first
    | intro _ | with_reducible first | assumption | apply Same.rollback | apply Same.setHalf
    | fail_if_no_progress with_reducible apply Same.fields | with_reducible first | refine Same.of_snd (by assumption) ?_ | refine Same.of_fst (by assumption) ?_ | apply Same.ite

theorem Same.tellCut (h₀ : Same r₀ s) (h : Nat) (k : Nat) (g : Nat) : Same r₀ (s.tellCut h k g) := by
  unfold Sys2Proof.Machine.State.tellCut
  repeat' first
    | intro _ | with_reducible first | assumption | apply Same.incident | apply Same.notice | apply Same.upd
    | fail_if_no_progress with_reducible apply Same.fields | with_reducible first | refine Same.foldl _ _ (fun _ _ _ => ?_) ?_ | refine Same.foldl_fst _ _ _ (fun _ _ _ => ?_) ?_ | refine Same.foldl_snd _ _ _ (fun _ _ _ => ?_) ?_ | refine Same.of_snd (by assumption) ?_ | refine Same.of_fst (by assumption) ?_ | apply Same.ite

theorem Same.reconcileField (h₀ : Same r₀ s) (h : Nat) (f : Fld) (budget : Nat) : Same r₀ (s.reconcileField h f budget).1 := by
  unfold Sys2Proof.Machine.State.reconcileField
  repeat' first
    | intro _ | with_reducible first | assumption | apply Same.tellCut | apply Same.upd
    | fail_if_no_progress with_reducible apply Same.fields | with_reducible first | refine Same.foldl _ _ (fun _ _ _ => ?_) ?_ | refine Same.foldl_fst _ _ _ (fun _ _ _ => ?_) ?_ | refine Same.foldl_snd _ _ _ (fun _ _ _ => ?_) ?_ | refine Same.of_snd (by assumption) ?_ | refine Same.of_fst (by assumption) ?_ | apply Same.ite
    | split | dsimp only

theorem Same.reconcile (h₀ : Same r₀ s) (h : Nat) (cause : Nat) : Same r₀ (s.reconcile h cause) := by
  unfold Sys2Proof.Machine.State.reconcile
  repeat' first
    | intro _ | with_reducible first | assumption | apply Same.askRestart | apply Same.reconcileField | apply Same.upd
    | fail_if_no_progress with_reducible apply Same.fields | with_reducible first | refine Same.of_snd (by assumption) ?_ | refine Same.of_fst (by assumption) ?_ | apply Same.ite

theorem Same.degrade (h₀ : Same r₀ s) (h : Nat) : Same r₀ (s.degrade h) := by
  unfold Sys2Proof.Machine.State.degrade
  repeat' first
    | intro _ | with_reducible first | assumption | apply Same.hatchSend | apply Same.upd
    | fail_if_no_progress with_reducible apply Same.fields | with_reducible first | refine Same.of_snd (by assumption) ?_ | refine Same.of_fst (by assumption) ?_ | apply Same.ite

theorem Same.unbackedRound (h₀ : Same r₀ s) (h : Nat) (t : Nat) (r : Nat) : Same r₀ (s.unbackedRound h t r) := by
  unfold Sys2Proof.Machine.State.unbackedRound
  repeat' first
    | intro _ | with_reducible first | assumption | apply Same.degrade | apply Same.upd
    | fail_if_no_progress with_reducible apply Same.fields | with_reducible first | refine Same.of_snd (by assumption) ?_ | refine Same.of_fst (by assumption) ?_ | apply Same.ite

theorem Same.perrClear (h₀ : Same r₀ s)  : Same r₀ (s.perrClear) := by
  unfold Sys2Proof.Machine.State.perrClear
  repeat' first
    | intro _ | with_reducible first | assumption
    | fail_if_no_progress with_reducible apply Same.fields | with_reducible first | refine Same.of_snd (by assumption) ?_ | refine Same.of_fst (by assumption) ?_ | apply Same.ite

theorem Same.countRecompute (h₀ : Same r₀ s) (h : Nat) (c : Nat) : Same r₀ (s.countRecompute h c) := by
  unfold Sys2Proof.Machine.State.countRecompute
  repeat' first
    | intro _ | with_reducible first | assumption | apply Same.upd

theorem Same.failRead (h₀ : Same r₀ s) (h : Nat) (n : Nat) (st : Status) : Same r₀ (s.failRead h n st) := by
  unfold Sys2Proof.Machine.State.failRead
  repeat' first
    | intro _ | with_reducible first | assumption | apply Same.completeInst | apply Same.incident | apply Same.strErrs

theorem Same.startInst (h₀ : Same r₀ s) (h : Nat) (n : Nat) (p : Nat) : Same r₀ (s.startInst h n p) := by
  unfold Sys2Proof.Machine.State.startInst
  repeat' (first
    | (with_reducible assumption)
    | (intro _)
    | (with_reducible apply Same.bindFrame)
    | (with_reducible apply Same.cacheCtx)
    | (with_reducible apply Same.completeInst)
    | (with_reducible apply Same.countRange)
    | (with_reducible apply Same.failRead)
    | (with_reducible apply Same.place)
    | (with_reducible apply Same.upd)
    | (fail_if_no_progress with_reducible apply Same.fields)
    | (with_reducible refine Same.of_snd (by assumption) ?_)
    | (with_reducible refine Same.of_fst (by assumption) ?_)
    | (with_reducible apply Same.ite)
    | (split)
    | (dsimp only))

theorem Same.startOpen (h₀ : Same r₀ s) (h : Nat) (n : Nat) : Same r₀ (s.startOpen h n) := by
  unfold Sys2Proof.Machine.State.startOpen
  repeat' first
    | intro _ | with_reducible first | assumption | apply Same.startInst
    | fail_if_no_progress with_reducible apply Same.fields | with_reducible first | refine Same.of_snd (by assumption) ?_ | refine Same.of_fst (by assumption) ?_ | apply Same.ite
    | split

theorem Same.failOutputs (h₀ : Same r₀ s) (h : Nat) (n : Nat) : Same r₀ (s.failOutputs h n) := by
  unfold Sys2Proof.Machine.State.failOutputs
  repeat' first
    | intro _ | with_reducible first | assumption | apply Same.zeroOutputs
    | fail_if_no_progress with_reducible apply Same.fields | with_reducible first | refine Same.of_snd (by assumption) ?_ | refine Same.of_fst (by assumption) ?_ | apply Same.ite

theorem Same.failQueue (h₀ : Same r₀ s) (q : Nat) (i : Nat) : Same r₀ (s.failQueue q i) := by
  unfold Sys2Proof.Machine.State.failQueue
  repeat' first
    | intro _ | with_reducible first | assumption | apply Same.zeroOutputs
    | fail_if_no_progress with_reducible apply Same.fields | with_reducible first | refine Same.of_snd (by assumption) ?_ | refine Same.of_fst (by assumption) ?_ | apply Same.ite

theorem Same.endUnmet (h₀ : Same r₀ s) (h : Nat) (n : Nat) : Same r₀ (s.endUnmet h n) := by
  unfold Sys2Proof.Machine.State.endUnmet
  repeat' first
    | intro _ | with_reducible first | assumption | apply Same.completeInst | apply Same.failOutputs | apply Same.upd
    | fail_if_no_progress with_reducible apply Same.fields | with_reducible first | refine Same.of_snd (by assumption) ?_ | refine Same.of_fst (by assumption) ?_ | apply Same.ite

theorem Same.startFallback (h₀ : Same r₀ s) (h : Nat) (n : Nat) : Same r₀ (s.startFallback h n) := by
  unfold Sys2Proof.Machine.State.startFallback
  repeat' (first
    | (with_reducible assumption)
    | (intro _)
    | (with_reducible apply Same.completeInst)
    | (with_reducible apply Same.endFallback)
    | (with_reducible apply Same.failRead)
    | (with_reducible apply Same.place)
    | (with_reducible apply Same.strErrs)
    | (fail_if_no_progress with_reducible apply Same.fields)
    | (with_reducible refine Same.of_snd (by assumption) ?_)
    | (with_reducible refine Same.of_fst (by assumption) ?_)
    | (with_reducible apply Same.ite)
    | (split)
    | (dsimp only))

theorem Same.evalInst (h₀ : Same r₀ s) (h : Nat) (n : Nat) : Same r₀ (s.evalInst h n) := by
  unfold Sys2Proof.Machine.State.evalInst
  repeat' first
    | intro _ | with_reducible first | assumption | apply Same.completeInst | apply Same.condErrs | apply Same.failOutputs | apply Same.startFallback
      | apply Same.startOpen | apply Same.upd
    | fail_if_no_progress with_reducible apply Same.fields | with_reducible first | refine Same.of_snd (by assumption) ?_ | refine Same.of_fst (by assumption) ?_ | apply Same.ite
    | split | dsimp only

theorem Same.forgetUnread (h₀ : Same r₀ s) (h : Nat) (n : Nat) : Same r₀ (s.forgetUnread h n) := by
  unfold Sys2Proof.Machine.State.forgetUnread
  repeat' first
    | intro _ | with_reducible first | assumption | apply Same.upd

theorem Same.evalEntry (h₀ : Same r₀ s) (h : Nat) (n : Nat) : Same r₀ (s.evalEntry h n) := by
  unfold Sys2Proof.Machine.State.evalEntry
  repeat' first
    | intro _ | with_reducible first | assumption | apply Same.evalInst | apply Same.forgetUnread

theorem Same.deferAssay (h₀ : Same r₀ s) (h : Nat) (n : Nat) (e : Nat) : Same r₀ (s.deferAssay h n e) := by
  unfold Sys2Proof.Machine.State.deferAssay
  repeat' first
    | intro _ | with_reducible first | assumption | apply Same.boundary | apply Same.upd | apply Same.updCore
    | fail_if_no_progress with_reducible apply Same.fields | with_reducible first | refine Same.of_snd (by assumption) ?_ | refine Same.of_fst (by assumption) ?_ | apply Same.ite
    | split

theorem Same.openInst (h₀ : Same r₀ s) (h : Nat) (n : Nat) (e : Nat) (start : Nat) : Same r₀ (s.openInst h n e start) := by
  unfold Sys2Proof.Machine.State.openInst
  repeat' first
    | intro _ | with_reducible first | assumption | apply Same.upd
    | fail_if_no_progress with_reducible apply Same.fields | with_reducible first | refine Same.of_snd (by assumption) ?_ | refine Same.of_fst (by assumption) ?_ | apply Same.ite
    | split | dsimp only

theorem Same.queueCondErrs (h₀ : Same r₀ s) (q : Nat) (i : Nat) : Same r₀ (s.queueCondErrs q i) := by
  unfold Sys2Proof.Machine.State.queueCondErrs
  repeat' first
    | intro _ | with_reducible first | assumption | apply Same.condErrs

theorem Same.failCondition (h₀ : Same r₀ s) (q : Nat) (i : Nat) (st : Status) : Same r₀ (s.failCondition q i st) := by
  unfold Sys2Proof.Machine.State.failCondition
  repeat' first
    | intro _ | with_reducible first | assumption | apply Same.completeHead | apply Same.failQueue | apply Same.noteIdle | apply Same.noteReady
      | apply Same.queueCondErrs
    | fail_if_no_progress with_reducible apply Same.fields | with_reducible first | refine Same.of_snd (by assumption) ?_ | refine Same.of_fst (by assumption) ?_ | apply Same.ite

theorem Same.preArm (h₀ : Same r₀ s) (h : Nat) (p : Nat) (c : Nat) : Same r₀ (s.preArm h p c) := by
  unfold Sys2Proof.Machine.State.preArm
  repeat' first
    | intro _ | with_reducible first | assumption | apply Same.clearFor | apply Same.loadHandles | apply Same.updCore

theorem Same.runInst (h₀ : Same r₀ s) (h : Nat) (n : Nat) (e : Nat) : Same r₀ (s.runInst h n e) := by
  unfold Sys2Proof.Machine.State.runInst
  repeat' first
    | intro _ | with_reducible first | assumption | apply Same.completeInst | apply Same.deferAssay | apply Same.evalEntry | apply Same.incident
      | apply Same.late | apply Same.unbackedRound | apply Same.upd
    | fail_if_no_progress with_reducible apply Same.fields | with_reducible first | refine Same.of_snd (by assumption) ?_ | refine Same.of_fst (by assumption) ?_ | apply Same.ite
    | split

theorem Same.startTrial (h₀ : Same r₀ s) (h : Nat) (n : Nat) (w : Nat) (st : Nat) : Same r₀ (s.startTrial h n w st) := by
  unfold Sys2Proof.Machine.State.startTrial
  repeat' first
    | intro _ | with_reducible first | assumption | apply Same.completeInst | apply Same.evalEntry | apply Same.upd
    | fail_if_no_progress with_reducible apply Same.fields | with_reducible first | refine Same.of_snd (by assumption) ?_ | refine Same.of_fst (by assumption) ?_ | apply Same.ite

theorem Same.svEmptyHeader (h₀ : Same r₀ s) (h : Nat) (v : Nat) (d : Nat) : Same r₀ (s.svEmptyHeader h v d) := by
  unfold Sys2Proof.Machine.State.svEmptyHeader
  repeat' first
    | intro _ | with_reducible first | assumption | apply Same.draw | apply Same.storeV

theorem Same.endSieve (h₀ : Same r₀ s) (h : Nat) (r : SieveRun) (st : Status) (invalid : Nat) (wrote : Nat) : Same r₀ (s.endSieve h r st invalid wrote) := by
  unfold Sys2Proof.Machine.State.endSieve
  repeat' first
    | intro _ | with_reducible first | assumption | apply Same.fence | apply Same.finishQ | apply Same.noteIdle | apply Same.noteReady
      | apply Same.postE | apply Same.settleMsgs | apply Same.upd
    | fail_if_no_progress with_reducible apply Same.fields | with_reducible first | refine Same.of_snd (by assumption) ?_ | refine Same.of_fst (by assumption) ?_ | apply Same.ite
    | split

theorem Same.dropSieve (h₀ : Same r₀ s) (h : Nat) (r : SieveRun) : Same r₀ (s.dropSieve h r) := by
  unfold Sys2Proof.Machine.State.dropSieve
  repeat' first
    | intro _ | with_reducible first | assumption | apply Same.draw | apply Same.storeV
    | fail_if_no_progress with_reducible apply Same.fields | with_reducible first | refine Same.foldl _ _ (fun _ _ _ => ?_) ?_ | refine Same.foldl_fst _ _ _ (fun _ _ _ => ?_) ?_ | refine Same.foldl_snd _ _ _ (fun _ _ _ => ?_) ?_

theorem Same.countSieve (h₀ : Same r₀ s) (h : Nat) : Same r₀ (s.countSieve h) := by
  unfold Sys2Proof.Machine.State.countSieve
  repeat' first
    | intro _ | with_reducible first | assumption | apply Same.upd

theorem Same.takeSieve (h₀ : Same r₀ s) (h : Nat) (w : Work) (index : Nat) (gen : Nat) (went : Nat) (d : Nat) (ctx : Nat) (vdi : Nat) : Same r₀ (s.takeSieve h w index gen went d ctx vdi) := by
  unfold Sys2Proof.Machine.State.takeSieve
  repeat' first
    | intro _ | with_reducible first | assumption | apply Same.upd

theorem Same.sieveError (h₀ : Same r₀ s) (h : Nat) (r : SieveRun) : Same r₀ (s.sieveError h r) := by
  unfold Sys2Proof.Machine.State.sieveError
  repeat' first
    | intro _ | with_reducible first | assumption | apply Same.dropSieve | apply Same.endSieve | apply Same.incident | apply Same.readErrs
      | apply Same.svEmptyHeader | apply Same.upd
    | fail_if_no_progress with_reducible apply Same.fields | with_reducible first | refine Same.foldl _ _ (fun _ _ _ => ?_) ?_ | refine Same.foldl_fst _ _ _ (fun _ _ _ => ?_) ?_ | refine Same.foldl_snd _ _ _ (fun _ _ _ => ?_) ?_ | refine Same.of_snd (by assumption) ?_ | refine Same.of_fst (by assumption) ?_ | apply Same.ite

theorem Same.paySieve (h₀ : Same r₀ s) (h : Nat) (r : SieveRun) (records : Nat) : Same r₀ (s.paySieve h r records) := by
  unfold Sys2Proof.Machine.State.paySieve
  repeat' first
    | intro _ | with_reducible first | assumption | apply Same.pay
    | with_reducible first | refine Same.foldl _ _ (fun _ _ _ => ?_) ?_

theorem Same.updTasks (h₀ : Same r₀ s) (h : Nat) (t : Nat) (f : Task → Task) : Same r₀ (s.updTasks h t f) := by
  unfold Sys2Proof.Machine.State.updTasks
  repeat' first
    | intro _ | with_reducible first | assumption | apply Same.upd
    | fail_if_no_progress with_reducible apply Same.fields | with_reducible first | refine Same.of_snd (by assumption) ?_ | refine Same.of_fst (by assumption) ?_ | apply Same.ite

theorem Same.stage (h₀ : Same r₀ s) (h : Nat) (g : Nat) (t : Nat) (r : Nat) (c : Nat) (st : Status) (data : List Byte) (led : List Byte) : Same r₀ (s.stage h g t r c st data led) := by
  unfold Sys2Proof.Machine.State.stage
  repeat' first
    | intro _ | with_reducible first | assumption | apply Same.pay | apply Same.store | apply Same.upd
    | fail_if_no_progress with_reducible apply Same.fields | with_reducible first | refine Same.of_snd (by assumption) ?_ | refine Same.of_fst (by assumption) ?_ | apply Same.ite

theorem Same.deliver (h₀ : Same r₀ s) (h : Nat) (t : Nat) (r : Nat) (c : Nat) (st : Status) (data : List Byte) (led : List Byte) : Same r₀ (s.deliver h t r c st data led) := by
  unfold Sys2Proof.Machine.State.deliver
  repeat' first
    | intro _ | with_reducible first | assumption | apply Same.hatchSend | apply Same.stage
    | fail_if_no_progress with_reducible apply Same.fields | with_reducible first | refine Same.of_snd (by assumption) ?_ | refine Same.of_fst (by assumption) ?_ | apply Same.ite

theorem Same.writeVerdict (h₀ : Same r₀ s) (h : Nat) (t : Nat) (r : Nat) (st : Status) (witnessed : Bool) (rings : List Nat) : Same r₀ (s.writeVerdict h t r st witnessed rings) := by
  unfold Sys2Proof.Machine.State.writeVerdict
  repeat' first
    | intro _ | with_reducible first | assumption | apply Same.draw | apply Same.pay | apply Same.store | apply Same.upd
    | fail_if_no_progress with_reducible apply Same.fields | with_reducible first | refine Same.foldl _ _ (fun _ _ _ => ?_) ?_ | refine Same.foldl_fst _ _ _ (fun _ _ _ => ?_) ?_ | refine Same.foldl_snd _ _ _ (fun _ _ _ => ?_) ?_ | refine Same.of_snd (by assumption) ?_ | refine Same.of_fst (by assumption) ?_ | apply Same.ite
    | split

theorem Same.askAssay (h₀ : Same r₀ s) (h : Nat) (t : Nat) (chs : List Nat) : Same r₀ (s.askAssay h t chs) := by
  unfold Sys2Proof.Machine.State.askAssay
  repeat' first
    | intro _ | with_reducible first | assumption | apply Same.updTasks

theorem Same.restartFor (h₀ : Same r₀ s) (h : Nat) (t : Nat) (g : Nat) : Same r₀ (s.restartFor h t g) := by
  unfold Sys2Proof.Machine.State.restartFor
  repeat' first
    | intro _ | with_reducible first | assumption | apply Same.askRestart | apply Same.resetPackage | apply Same.upd
    | fail_if_no_progress with_reducible apply Same.fields | with_reducible first | refine Same.of_snd (by assumption) ?_ | refine Same.of_fst (by assumption) ?_ | apply Same.ite

theorem Same.enterLocating (h₀ : Same r₀ s) (h : Nat) (t : Nat) (aF : Bool) (bF : Bool) : Same r₀ (s.enterLocating h t aF bF) := by
  unfold Sys2Proof.Machine.State.enterLocating
  repeat' first
    | intro _ | with_reducible first | assumption | apply Same.restartFor | apply Same.upd
    | fail_if_no_progress with_reducible apply Same.fields | with_reducible first | refine Same.of_snd (by assumption) ?_ | refine Same.of_fst (by assumption) ?_ | apply Same.ite

theorem Same.searchResult (h₀ : Same r₀ s) (h : Nat) (t : Nat) (pass : Bool) : Same r₀ (s.searchResult h t pass) := by
  unfold Sys2Proof.Machine.State.searchResult
  repeat' first
    | intro _ | with_reducible first | assumption | apply Same.rest | apply Same.restartFor | apply Same.upd | apply Same.updCore
    | fail_if_no_progress with_reducible apply Same.fields | with_reducible first | refine Same.of_snd (by assumption) ?_ | refine Same.of_fst (by assumption) ?_ | apply Same.ite
    | split | dsimp only

theorem Same.searchSkip (h₀ : Same r₀ s) (h : Nat) (t : Nat) : Same r₀ (s.searchSkip h t) := by
  unfold Sys2Proof.Machine.State.searchSkip
  repeat' first
    | intro _ | with_reducible first | assumption | apply Same.searchResult
    | fail_if_no_progress with_reducible apply Same.fields | with_reducible first | refine Same.of_snd (by assumption) ?_ | refine Same.of_fst (by assumption) ?_ | apply Same.ite

theorem Same.assayOutcome (h₀ : Same r₀ s) (h : Nat) (t : Nat) (aF : Bool) (bF : Bool) : Same r₀ (s.assayOutcome h t aF bF) := by
  unfold Sys2Proof.Machine.State.assayOutcome
  repeat' first
    | intro _ | with_reducible first | assumption | apply Same.enterLocating | apply Same.incident | apply Same.searchResult | apply Same.upd
    | fail_if_no_progress with_reducible apply Same.fields | with_reducible first | refine Same.foldl _ _ (fun _ _ _ => ?_) ?_ | refine Same.foldl_fst _ _ _ (fun _ _ _ => ?_) ?_ | refine Same.foldl_snd _ _ _ (fun _ _ _ => ?_) ?_ | refine Same.of_snd (by assumption) ?_ | refine Same.of_fst (by assumption) ?_ | apply Same.ite
    | split

theorem Same.selfTest (h₀ : Same r₀ s) (g : Nat) : Same r₀ (s.selfTest g) := by
  unfold Sys2Proof.Machine.State.selfTest
  repeat' first
    | intro _ | with_reducible first | assumption | apply Same.askRestart | apply Same.draw | apply Same.upd
    | fail_if_no_progress with_reducible apply Same.fields | with_reducible first | refine Same.of_snd (by assumption) ?_ | refine Same.of_fst (by assumption) ?_ | apply Same.ite

theorem Same.countInternal (h₀ : Same r₀ s) (h : Nat) (t : Nat) (r : Nat) : Same r₀ (s.countInternal h t r) := by
  unfold Sys2Proof.Machine.State.countInternal
  repeat' first
    | intro _ | with_reducible first | assumption | apply Same.selfTest | apply Same.upd
    | fail_if_no_progress with_reducible apply Same.fields | with_reducible first | refine Same.of_snd (by assumption) ?_ | refine Same.of_fst (by assumption) ?_ | apply Same.ite

theorem Same.settle (h₀ : Same r₀ s) (h : Nat) (t : Nat) (r : Nat) (st : Status) : Same r₀ (s.settle h t r st) := by
  unfold Sys2Proof.Machine.State.settle
  repeat' first
    | intro _ | with_reducible first | assumption | apply Same.askAssay | apply Same.assayOutcome | apply Same.countInternal | apply Same.upd
    | fail_if_no_progress with_reducible apply Same.fields | with_reducible first | refine Same.of_snd (by assumption) ?_ | refine Same.of_fst (by assumption) ?_ | apply Same.ite
    | split

theorem Same.tryWrite (h₀ : Same r₀ s) (h : Nat) (t : Nat) (r : Nat) : Same r₀ (s.tryWrite h t r) := by
  unfold Sys2Proof.Machine.State.tryWrite
  repeat' first
    | intro _ | with_reducible first | assumption | apply Same.settle | apply Same.writeVerdict
    | fail_if_no_progress with_reducible apply Same.fields | with_reducible first | refine Same.of_snd (by assumption) ?_ | refine Same.of_fst (by assumption) ?_ | apply Same.ite
    | split | dsimp only

theorem Same.formVerdict (h₀ : Same r₀ s) (h : Nat) (t : Nat) (r : Nat) (v : Verdict) (j : Judged) (aF : Bool) (bF : Bool) (assay : Bool) : Same r₀ (s.formVerdict h t r v j aF bF assay) := by
  unfold Sys2Proof.Machine.State.formVerdict
  repeat' first
    | intro _ | with_reducible first | assumption | apply Same.hatchSend | apply Same.tryWrite | apply Same.upd

theorem Same.slotErrs (h₀ : Same r₀ s) (h : Nat) (t : Nat) (r : Nat) (c : Nat) : Same r₀ (s.slotErrs h t r c) := by
  unfold Sys2Proof.Machine.State.slotErrs
  repeat' first
    | intro _ | with_reducible first | assumption | apply Same.readErrs

theorem Same.judgeRound (h₀ : Same r₀ s) (h : Nat) (t : Nat) (r : Nat) : Same r₀ (s.judgeRound h t r) := by
  unfold Sys2Proof.Machine.State.judgeRound
  repeat' first
    | intro _ | with_reducible first | assumption | apply Same.formVerdict | apply Same.slotErrs
    | fail_if_no_progress with_reducible apply Same.fields | with_reducible first | refine Same.of_snd (by assumption) ?_ | refine Same.of_fst (by assumption) ?_ | apply Same.ite

theorem Same.verdictArrives (h₀ : Same r₀ s) (h : Nat) (t : Nat) (n : Nat) (v : Verdict) : Same r₀ (s.verdictArrives h t n v) := by
  unfold Sys2Proof.Machine.State.verdictArrives
  repeat' first
    | intro _ | with_reducible first | assumption | apply Same.tryWrite | apply Same.upd
    | fail_if_no_progress with_reducible apply Same.fields | with_reducible first | refine Same.of_snd (by assumption) ?_ | refine Same.of_fst (by assumption) ?_ | apply Same.ite

theorem Same.retryTrial (h₀ : Same r₀ s) (h : Nat) (t : Nat) : Same r₀ (s.retryTrial h t) := by
  unfold Sys2Proof.Machine.State.retryTrial
  repeat' first
    | intro _ | with_reducible first | assumption | apply Same.upd
    | fail_if_no_progress with_reducible apply Same.fields | with_reducible first | refine Same.foldl _ _ (fun _ _ _ => ?_) ?_ | refine Same.foldl_fst _ _ _ (fun _ _ _ => ?_) ?_ | refine Same.foldl_snd _ _ _ (fun _ _ _ => ?_) ?_ | refine Same.of_snd (by assumption) ?_ | refine Same.of_fst (by assumption) ?_ | apply Same.ite

theorem Same.trialVerdict (h₀ : Same r₀ s) (h : Nat) (t : Nat) : Same r₀ (s.trialVerdict h t) := by
  unfold Sys2Proof.Machine.State.trialVerdict
  repeat' first
    | intro _ | with_reducible first | assumption | apply Same.hatchSend | apply Same.upd
    | fail_if_no_progress with_reducible apply Same.fields | with_reducible first | refine Same.of_snd (by assumption) ?_ | refine Same.of_fst (by assumption) ?_ | apply Same.ite

theorem Same.stopInstances (h₀ : Same r₀ s) (h : Nat) : Same r₀ (s.stopInstances h) := by
  unfold Sys2Proof.Machine.State.stopInstances
  repeat' first
    | intro _ | with_reducible first | assumption | apply Same.completeInst | apply Same.endSieve | apply Same.finishCore | apply Same.zeroUndone
    | fail_if_no_progress with_reducible apply Same.fields | with_reducible first | refine Same.foldl _ _ (fun _ _ _ => ?_) ?_ | refine Same.foldl_fst _ _ _ (fun _ _ _ => ?_) ?_ | refine Same.foldl_snd _ _ _ (fun _ _ _ => ?_) ?_ | refine Same.of_snd (by assumption) ?_ | refine Same.of_fst (by assumption) ?_ | apply Same.ite
    | split

theorem Same.restartSearch (h₀ : Same r₀ s) (h : Nat) (t : Nat) : Same r₀ (s.restartSearch h t) := by
  unfold Sys2Proof.Machine.State.restartSearch
  repeat' first
    | intro _ | with_reducible first | assumption | apply Same.enterLocating | apply Same.upd
    | fail_if_no_progress with_reducible apply Same.fields | with_reducible first | refine Same.of_snd (by assumption) ?_ | refine Same.of_fst (by assumption) ?_ | apply Same.ite
    | split

theorem Same.afterGhReset (h₀ : Same r₀ s) (h : Nat) (t : Nat) : Same r₀ (s.afterGhReset h t) := by
  unfold Sys2Proof.Machine.State.afterGhReset
  repeat' first
    | intro _ | with_reducible first | assumption | apply Same.enterLocating | apply Same.restartSearch | apply Same.upd
    | fail_if_no_progress with_reducible apply Same.fields | with_reducible first | refine Same.of_snd (by assumption) ?_ | refine Same.of_fst (by assumption) ?_ | apply Same.ite
    | split

theorem Same.freeLatch (h₀ : Same r₀ s)  : Same r₀ (s.freeLatch) := by
  unfold Sys2Proof.Machine.State.freeLatch
  repeat' first
    | intro _ | with_reducible first | assumption
    | fail_if_no_progress with_reducible apply Same.fields

theorem Same.endLease (h₀ : Same r₀ s)  : Same r₀ (s.endLease) := by
  unfold Sys2Proof.Machine.State.endLease
  repeat' first
    | intro _ | with_reducible first | assumption | apply Same.freeLatch
    | fail_if_no_progress with_reducible apply Same.fields | with_reducible first | refine Same.of_snd (by assumption) ?_ | refine Same.of_fst (by assumption) ?_ | apply Same.ite

theorem Same.srcFail (h₀ : Same r₀ s) (h : Nat) (m : Msg) (src : Nat) (n : Nat) (st : Status) : Same r₀ (s.srcFail h m src n st) := by
  unfold Sys2Proof.Machine.State.srcFail
  repeat' first
    | intro _ | with_reducible first | assumption | apply Same.incident | apply Same.strErrs
    | fail_if_no_progress with_reducible apply Same.fields | with_reducible first | refine Same.of_snd (by assumption) ?_ | refine Same.of_fst (by assumption) ?_ | apply Same.ite
    | split

theorem Same.withSrc (h₀ : Same r₀ s) (h : Nat) (m : Msg) (src : Nat) (n : Nat) (f : List Byte → State × Status × Nat) (h₀f : ∀ a0, Same r₀ (f a0).1) : Same r₀ (s.withSrc h m src n f).1 := by
  unfold Sys2Proof.Machine.State.withSrc
  repeat' first
    | intro _ | with_reducible first | assumption | apply Same.srcFail | apply h₀f
    | fail_if_no_progress with_reducible apply Same.fields | with_reducible first | refine Same.of_snd (by assumption) ?_ | refine Same.of_fst (by assumption) ?_ | apply Same.ite
    | split

theorem Same.withDst (h₀ : Same r₀ s) (h : Nat) (m : Msg) (dst : Nat) (l : List Byte) (pay : Nat) : Same r₀ (s.withDst h m dst l pay).1 := by
  unfold Sys2Proof.Machine.State.withDst
  repeat' first
    | intro _ | with_reducible first | assumption | apply Same.dstBytes | apply Same.pay
    | fail_if_no_progress with_reducible apply Same.fields | with_reducible first | refine Same.of_snd (by assumption) ?_ | refine Same.of_fst (by assumption) ?_ | apply Same.ite
    | split

theorem Same.orphan (h₀ : Same r₀ s) (g : Nat) (p : Nat) : Same r₀ (s.orphan g p) := by
  unfold Sys2Proof.Machine.State.orphan
  repeat' first
    | intro _ | with_reducible first | assumption | apply Same.upd
    | fail_if_no_progress with_reducible apply Same.fields | with_reducible first | refine Same.foldl _ _ (fun _ _ _ => ?_) ?_ | refine Same.foldl_fst _ _ _ (fun _ _ _ => ?_) ?_ | refine Same.foldl_snd _ _ _ (fun _ _ _ => ?_) ?_ | refine Same.of_snd (by assumption) ?_ | refine Same.of_fst (by assumption) ?_ | apply Same.ite

theorem Same.sendOut (h₀ : Same r₀ s) (g : Nat) (p : Nat) (type : Nat) (st : Status) : Same r₀ (s.sendOut g p type st) := by
  unfold Sys2Proof.Machine.State.sendOut
  repeat' first
    | intro _ | with_reducible first | assumption | apply Same.emit | apply Same.upd
    | fail_if_no_progress with_reducible apply Same.fields | with_reducible first | refine Same.of_snd (by assumption) ?_ | refine Same.of_fst (by assumption) ?_ | apply Same.ite

theorem Same.taken (h₀ : Same r₀ s) (g : Nat) (p : Nat) : Same r₀ (s.taken g p) := by
  unfold Sys2Proof.Machine.State.taken
  repeat' first
    | intro _ | with_reducible first | assumption | apply Same.upd

theorem Same.takeAnswer (h₀ : Same r₀ s) (g : Nat) (hd : FrameHdr) (type : Nat) (st : Status) (data : List Nat) : Same r₀ (s.takeAnswer g hd type st data) := by
  unfold Sys2Proof.Machine.State.takeAnswer
  repeat' first
    | intro _ | with_reducible first | assumption | apply Same.answer | apply Same.taken

theorem Same.touched (h₀ : Same r₀ s) (g : Nat) (hd : FrameHdr) (k : Session) : Same r₀ (s.touched g hd k) := by
  unfold Sys2Proof.Machine.State.touched
  repeat' first
    | intro _ | with_reducible first | assumption | apply Same.upd

theorem Same.inSeq (h₀ : Same r₀ s) (g : Nat) (hd : FrameHdr) (f : State → State) (h₀f : ∀ t, Same r₀ t → Same r₀ (f t)) : Same r₀ (s.inSeq g hd f) := by
  unfold Sys2Proof.Machine.State.inSeq
  repeat' first
    | intro _ | with_reducible first | assumption | apply Same.emit | apply Same.sendOut | apply Same.takeAnswer | apply Same.touched | apply h₀f
    | fail_if_no_progress with_reducible apply Same.fields | with_reducible first | refine Same.of_snd (by assumption) ?_ | refine Same.of_fst (by assumption) ?_ | apply Same.ite
    | split | dsimp only

theorem Same.tellerGo (h₀ : Same r₀ s) (v : Nat) : Same r₀ (s.tellerGo v) := by
  unfold Sys2Proof.Machine.State.tellerGo
  repeat' first
    | intro _ | with_reducible first | assumption | apply Same.upd
    | fail_if_no_progress with_reducible apply Same.fields | with_reducible first | refine Same.of_snd (by assumption) ?_ | refine Same.of_fst (by assumption) ?_ | apply Same.ite

theorem Same.tellerWrite (h₀ : Same r₀ s) (v : Nat) (off : Nat) (val : Nat) : Same r₀ (s.tellerWrite v off val) := by
  unfold Sys2Proof.Machine.State.tellerWrite
  repeat' first
    | intro _ | with_reducible first | assumption | apply Same.tellerGo | apply Same.upd
    | fail_if_no_progress with_reducible apply Same.fields | with_reducible first | refine Same.of_snd (by assumption) ?_ | refine Same.of_fst (by assumption) ?_ | apply Same.ite
    | split

theorem Same.onHello (h₀ : Same r₀ s) (g : Nat) (p : Nat) (seq : Nat) (pid : Nat) : Same r₀ (s.onHello g p seq pid) := by
  unfold Sys2Proof.Machine.State.onHello
  repeat' first
    | intro _ | with_reducible first | assumption | apply Same.answer | apply Same.inSeq | apply Same.orphan | apply Same.sendOut
      | apply Same.takeAnswer | apply Same.upd
    | fail_if_no_progress with_reducible apply Same.fields | with_reducible first | refine Same.of_snd (by assumption) ?_ | refine Same.of_fst (by assumption) ?_ | apply Same.ite

theorem Same.onMailbox (h₀ : Same r₀ s) (g : Nat) (arrived : Nat) (hd : FrameHdr) (msgs : List MsgHead) : Same r₀ (s.onMailbox g arrived hd msgs) := by
  unfold Sys2Proof.Machine.State.onMailbox
  repeat' first
    | intro _ | with_reducible first | assumption | apply Same.inSeq | apply Same.sendOut | apply Same.takeAnswer | apply Same.taken | apply Same.upd
    | fail_if_no_progress with_reducible apply Same.fields | with_reducible first | refine Same.of_snd (by assumption) ?_ | refine Same.of_fst (by assumption) ?_ | apply Same.ite
    | split

theorem Same.onRegRead (h₀ : Same r₀ s) (g : Nat) (hd : FrameHdr) (v : Nat) (off : Nat) (n : Nat) : Same r₀ (s.onRegRead g hd v off n) := by
  unfold Sys2Proof.Machine.State.onRegRead
  repeat' first
    | intro _ | with_reducible first | assumption | apply Same.inSeq | apply Same.takeAnswer
    | fail_if_no_progress with_reducible apply Same.fields | with_reducible first | refine Same.of_snd (by assumption) ?_ | refine Same.of_fst (by assumption) ?_ | apply Same.ite
    | split

theorem Same.onRegWrite (h₀ : Same r₀ s) (g : Nat) (hd : FrameHdr) (v : Nat) (off : Nat) (vals : List Nat) : Same r₀ (s.onRegWrite g hd v off vals) := by
  unfold Sys2Proof.Machine.State.onRegWrite
  repeat' first
    | intro _ | with_reducible first | assumption | apply Same.inSeq | apply Same.takeAnswer | apply Same.tellerWrite
    | fail_if_no_progress with_reducible apply Same.fields | with_reducible first | refine Same.foldl _ _ (fun _ _ _ => ?_) ?_ | refine Same.foldl_fst _ _ _ (fun _ _ _ => ?_) ?_ | refine Same.foldl_snd _ _ _ (fun _ _ _ => ?_) ?_ | refine Same.of_snd (by assumption) ?_ | refine Same.of_fst (by assumption) ?_ | apply Same.ite
    | split

theorem Same.onDataWrite (h₀ : Same r₀ s) (g : Nat) (hd : FrameHdr) (off : Nat) (data : List Byte) : Same r₀ (s.onDataWrite g hd off data) := by
  unfold Sys2Proof.Machine.State.onDataWrite
  repeat' first
    | intro _ | with_reducible first | assumption | apply Same.inSeq | apply Same.takeAnswer | apply Same.upd
    | fail_if_no_progress with_reducible apply Same.fields | with_reducible first | refine Same.of_snd (by assumption) ?_ | refine Same.of_fst (by assumption) ?_ | apply Same.ite
    | split

theorem Same.onDataRead (h₀ : Same r₀ s) (g : Nat) (hd : FrameHdr) (off : Nat) (n : Nat) : Same r₀ (s.onDataRead g hd off n) := by
  unfold Sys2Proof.Machine.State.onDataRead
  repeat' first
    | intro _ | with_reducible first | assumption | apply Same.inSeq | apply Same.takeAnswer
    | fail_if_no_progress with_reducible apply Same.fields | with_reducible first | refine Same.of_snd (by assumption) ?_ | refine Same.of_fst (by assumption) ?_ | apply Same.ite
    | split

theorem Same.onRing (h₀ : Same r₀ s) (g : Nat) (hd : FrameHdr) (index : Nat) (slots : List Nat) : Same r₀ (s.onRing g hd index slots) := by
  unfold Sys2Proof.Machine.State.onRing
  repeat' first
    | intro _ | with_reducible first | assumption | apply Same.inSeq | apply Same.takeAnswer | apply Same.upd
    | fail_if_no_progress with_reducible apply Same.fields | with_reducible first | refine Same.of_snd (by assumption) ?_ | refine Same.of_fst (by assumption) ?_ | apply Same.ite

theorem Same.onFrame (h₀ : Same r₀ s) (g : Nat) (arrived : Nat) (i : Instr) : Same r₀ (s.onFrame g arrived i) := by
  unfold Sys2Proof.Machine.State.onFrame
  repeat' first
    | intro _ | with_reducible first | assumption | apply Same.onDataRead | apply Same.onDataWrite | apply Same.onHello | apply Same.onMailbox
      | apply Same.onRegRead | apply Same.onRegWrite | apply Same.onRing | apply Same.tellerGo | apply Same.tellerWrite | apply Same.upd
    | fail_if_no_progress with_reducible apply Same.fields | with_reducible first | refine Same.of_snd (by assumption) ?_ | refine Same.of_fst (by assumption) ?_ | apply Same.ite
    | split

theorem Same.receive (h₀ : Same r₀ s) (g : Nat) (p : Nat) (i : Instr) : Same r₀ (s.receive g p i) := by
  unfold Sys2Proof.Machine.State.receive
  repeat' first
    | intro _ | with_reducible first | assumption | apply Same.onFrame | apply Same.upd
    | fail_if_no_progress with_reducible apply Same.fields | with_reducible first | refine Same.of_snd (by assumption) ?_ | refine Same.of_fst (by assumption) ?_ | apply Same.ite

theorem Same.tellerAccess (h₀ : Same r₀ s) (v : Nat) (i : Instr) : Same r₀ (s.tellerAccess v i) := by
  unfold Sys2Proof.Machine.State.tellerAccess
  repeat' first
    | intro _ | with_reducible first | assumption | apply Same.onFrame | apply Same.upd
    | fail_if_no_progress with_reducible apply Same.fields | with_reducible first | refine Same.of_snd (by assumption) ?_ | refine Same.of_fst (by assumption) ?_ | apply Same.ite

theorem Same.toBus (h₀ : Same r₀ s) (h : Nat) (b : Nat) (f : Frame) : Same r₀ (s.toBus h b f) := by
  unfold Sys2Proof.Machine.State.toBus
  repeat' first
    | intro _ | with_reducible first | assumption | apply Same.draw | apply Same.emit | apply Same.upd
    | fail_if_no_progress with_reducible apply Same.fields | with_reducible first | refine Same.foldl _ _ (fun _ _ _ => ?_) ?_ | refine Same.foldl_fst _ _ _ (fun _ _ _ => ?_) ?_ | refine Same.foldl_snd _ _ _ (fun _ _ _ => ?_) ?_ | refine Same.of_snd (by assumption) ?_ | refine Same.of_fst (by assumption) ?_ | apply Same.ite

theorem Same.flushSlot (h₀ : Same r₀ s) (h : Nat) (n : Nat) : Same r₀ (s.flushSlot h n) := by
  unfold Sys2Proof.Machine.State.flushSlot
  repeat' first
    | intro _ | with_reducible first | assumption | apply Same.countTx | apply Same.emit | apply Same.upd
    | fail_if_no_progress with_reducible apply Same.fields | with_reducible first | refine Same.foldl _ _ (fun _ _ _ => ?_) ?_ | refine Same.foldl_fst _ _ _ (fun _ _ _ => ?_) ?_ | refine Same.foldl_snd _ _ _ (fun _ _ _ => ?_) ?_ | refine Same.of_snd (by assumption) ?_ | refine Same.of_fst (by assumption) ?_ | apply Same.ite
    | split | dsimp only

theorem Same.toSlot (h₀ : Same r₀ s) (h : Nat) (n : Nat) (a : AcfOut) : Same r₀ (s.toSlot h n a) := by
  unfold Sys2Proof.Machine.State.toSlot
  repeat' first
    | intro _ | with_reducible first | assumption | apply Same.flushSlot | apply Same.upd
    | fail_if_no_progress with_reducible apply Same.fields | with_reducible first | refine Same.foldl _ _ (fun _ _ _ => ?_) ?_ | refine Same.foldl_fst _ _ _ (fun _ _ _ => ?_) ?_ | refine Same.foldl_snd _ _ _ (fun _ _ _ => ?_) ?_ | refine Same.of_snd (by assumption) ?_ | refine Same.of_fst (by assumption) ?_ | apply Same.ite

theorem Same.toQueue (h₀ : Same r₀ s) (h : Nat) (n : Nat) (w : GwSlot) : Same r₀ (s.toQueue h n w) := by
  unfold Sys2Proof.Machine.State.toQueue
  repeat' first
    | intro _ | with_reducible first | assumption | apply Same.emit | apply Same.upd
    | fail_if_no_progress with_reducible apply Same.fields | with_reducible first | refine Same.of_snd (by assumption) ?_ | refine Same.of_fst (by assumption) ?_ | apply Same.ite

theorem Same.toDest (h₀ : Same r₀ s) (h : Nat) (src : Nat) (e : Nat) (f : Frame) : Same r₀ (s.toDest h src e f) := by
  unfold Sys2Proof.Machine.State.toDest
  repeat' first
    | intro _ | with_reducible first | assumption | apply Same.hatchSend | apply Same.toBus | apply Same.toQueue | apply Same.toSlot | apply Same.upd
    | fail_if_no_progress with_reducible apply Same.fields | with_reducible first | refine Same.of_snd (by assumption) ?_ | refine Same.of_fst (by assumption) ?_ | apply Same.ite

theorem Same.payLookup (h₀ : Same r₀ s) (h : Nat) (key : Nat) : Same r₀ (s.payLookup h key) := by
  unfold Sys2Proof.Machine.State.payLookup
  repeat' first
    | intro _ | with_reducible first | assumption | apply Same.pay
    | fail_if_no_progress with_reducible apply Same.fields | with_reducible first | refine Same.of_snd (by assumption) ?_ | refine Same.of_fst (by assumption) ?_ | apply Same.ite

theorem Same.route (h₀ : Same r₀ s) (h : Nat) (src : Nat) (acf : Nat) (f : Frame) : Same r₀ (s.route h src acf f) := by
  unfold Sys2Proof.Machine.State.route
  repeat' first
    | intro _ | with_reducible first | assumption | apply Same.payLookup | apply Same.toDest | apply Same.upd
    | fail_if_no_progress with_reducible apply Same.fields | with_reducible first | refine Same.foldl _ _ (fun _ _ _ => ?_) ?_ | refine Same.foldl_fst _ _ _ (fun _ _ _ => ?_) ?_ | refine Same.foldl_snd _ _ _ (fun _ _ _ => ?_) ?_ | refine Same.of_snd (by assumption) ?_ | refine Same.of_fst (by assumption) ?_ | apply Same.ite
    | split | dsimp only

theorem Same.routeAcf (h₀ : Same r₀ s) (h : Nat) (slot : Nat) (m : AcfMsg) : Same r₀ (s.routeAcf h slot m) := by
  unfold Sys2Proof.Machine.State.routeAcf
  repeat' first
    | intro _ | with_reducible first | assumption | apply Same.route | apply Same.upd
    | fail_if_no_progress with_reducible apply Same.fields | with_reducible first | refine Same.of_snd (by assumption) ?_ | refine Same.of_fst (by assumption) ?_ | apply Same.ite

theorem Same.setBusOff (h₀ : Same r₀ s) (c : Nat) (off : Bool) : Same r₀ (s.setBusOff c off) := by
  unfold Sys2Proof.Machine.State.setBusOff
  repeat' first
    | intro _ | with_reducible first | assumption | apply Same.upd
    | fail_if_no_progress with_reducible apply Same.fields | with_reducible first | refine Same.of_snd (by assumption) ?_ | refine Same.of_fst (by assumption) ?_ | apply Same.ite

theorem Same.putRoutes (h₀ : Same r₀ s) (h : Nat) (l : List Nat) : Same r₀ (s.putRoutes h l).1 := by
  unfold Sys2Proof.Machine.State.putRoutes
  repeat' first
    | intro _ | with_reducible first | assumption | apply Same.upd
    | fail_if_no_progress with_reducible apply Same.fields | with_reducible first | refine Same.foldl _ _ (fun _ _ _ => ?_) ?_ | refine Same.foldl_fst _ _ _ (fun _ _ _ => ?_) ?_ | refine Same.foldl_snd _ _ _ (fun _ _ _ => ?_) ?_ | refine Same.of_snd (by assumption) ?_ | refine Same.of_fst (by assumption) ?_ | apply Same.ite
    | split | dsimp only

theorem Same.dropRoute (h₀ : Same r₀ s) (h : Nat) (n : Nat) (w : Nat) : Same r₀ (s.dropRoute h n w).1 := by
  unfold Sys2Proof.Machine.State.dropRoute
  repeat' first
    | intro _ | with_reducible first | assumption | apply Same.upd

theorem Same.powerReset (h₀ : Same r₀ s)  : Same r₀ (s.powerReset) := by
  unfold Sys2Proof.Machine.State.powerReset
  repeat' first
    | intro _ | with_reducible first | assumption | apply Same.resetPackage | apply Same.upd

theorem Same.setGood (h₀ : Same r₀ s) (v : Bool) : Same r₀ (s.setGood v) := by
  unfold Sys2Proof.Machine.State.setGood
  repeat' first
    | intro _ | with_reducible first | assumption | apply Same.upd

theorem Same.sleepExit (h₀ : Same r₀ s)  : Same r₀ (s.sleepExit) := by
  unfold Sys2Proof.Machine.State.sleepExit
  repeat' first
    | intro _ | with_reducible first | assumption | apply Same.upd
    | fail_if_no_progress with_reducible apply Same.fields

theorem Same.spareFirst (h₀ : Same r₀ s) (h : Nat) (p : Nat) : Same r₀ (s.spareFirst h p) := by
  unfold Sys2Proof.Machine.State.spareFirst
  repeat' first
    | intro _ | with_reducible first | assumption | apply Same.upd
    | fail_if_no_progress with_reducible apply Same.fields | with_reducible first | refine Same.of_snd (by assumption) ?_ | refine Same.of_fst (by assumption) ?_ | apply Same.ite

theorem Same.resetCore (h₀ : Same r₀ s) (h : Nat) (p : Nat) (cause : Nat) : Same r₀ (s.resetCore h p cause) := by
  unfold Sys2Proof.Machine.State.resetCore
  repeat' first
    | intro _ | with_reducible first | assumption | apply Same.coreReset | apply Same.spareFirst

theorem Same.resetClk (h₀ : Same r₀ s) (h : Nat) (f : ClkFail) : Same r₀ (s.resetClk h f) := by
  unfold Sys2Proof.Machine.State.resetClk
  repeat' first
    | intro _ | with_reducible first | assumption | apply Same.resetCore
    | fail_if_no_progress with_reducible apply Same.fields | with_reducible first | refine Same.of_snd (by assumption) ?_ | refine Same.of_fst (by assumption) ?_ | apply Same.ite
    | split

theorem Same.stageActions (h₀ : Same r₀ s) (h : Nat) (cur : Nat) (now : Nat) (unit : Nat) (m : Int) : Same r₀ (s.stageActions h cur now unit m) := by
  unfold Sys2Proof.Machine.State.stageActions
  repeat' first
    | intro _ | with_reducible first | assumption | apply Same.incident | apply Same.syncEmergency | apply Same.upd
    | fail_if_no_progress with_reducible apply Same.fields | with_reducible first | refine Same.of_snd (by assumption) ?_ | refine Same.of_fst (by assumption) ?_ | apply Same.ite

theorem Same.raiseSupply (h₀ : Same r₀ s) (h : Nat) : Same r₀ (s.raiseSupply h) := by
  unfold Sys2Proof.Machine.State.raiseSupply
  repeat' first
    | intro _ | with_reducible first | assumption | apply Same.syncEmergency | apply Same.upd

theorem Same.noteWake (h₀ : Same r₀ s) (src : Nat) (unit : Nat) : Same r₀ (s.noteWake src unit) := by
  unfold Sys2Proof.Machine.State.noteWake
  repeat' first
    | intro _ | with_reducible first | assumption | apply Same.upd

theorem Same.parkExit (h₀ : Same r₀ s)  : Same r₀ (s.parkExit) := by
  unfold Sys2Proof.Machine.State.parkExit
  repeat' first
    | intro _ | with_reducible first | assumption | apply Same.upd
    | fail_if_no_progress with_reducible apply Same.fields

theorem Same.leave (h₀ : Same r₀ s)  : Same r₀ (s.leave) := by
  unfold Sys2Proof.Machine.State.leave
  repeat' first
    | intro _ | with_reducible first | assumption | apply Same.parkExit | apply Same.sleepExit | apply Same.upd
    | fail_if_no_progress with_reducible apply Same.fields | with_reducible first | refine Same.of_snd (by assumption) ?_ | refine Same.of_fst (by assumption) ?_ | apply Same.ite

theorem Same.wakeUp (h₀ : Same r₀ s) (src : Nat) (unit : Nat) (fromSleep : Bool) : Same r₀ (s.wakeUp src unit fromSleep) := by
  unfold Sys2Proof.Machine.State.wakeUp
  repeat' first
    | intro _ | with_reducible first | assumption | apply Same.emit | apply Same.leave | apply Same.noteWake
    | fail_if_no_progress with_reducible apply Same.fields | with_reducible first | refine Same.of_snd (by assumption) ?_ | refine Same.of_fst (by assumption) ?_ | apply Same.ite

theorem Same.latchedWake (h₀ : Same r₀ s)  : Same r₀ (s.latchedWake) := by
  unfold Sys2Proof.Machine.State.latchedWake
  repeat' first
    | intro _ | with_reducible first | assumption | apply Same.emit | apply Same.leave | apply Same.noteWake
    | fail_if_no_progress with_reducible apply Same.fields | with_reducible first | refine Same.of_snd (by assumption) ?_ | refine Same.of_fst (by assumption) ?_ | apply Same.ite
    | split

theorem Same.parkHalf (h₀ : Same r₀ s) (h : Nat) : Same r₀ (s.parkHalf h) := by
  unfold Sys2Proof.Machine.State.parkHalf
  repeat' first
    | intro _ | with_reducible first | assumption | apply Same.downCompute | apply Same.upd
    | fail_if_no_progress with_reducible apply Same.fields | with_reducible first | refine Same.foldl _ _ (fun _ _ _ => ?_) ?_ | refine Same.foldl_fst _ _ _ (fun _ _ _ => ?_) ?_ | refine Same.foldl_snd _ _ _ (fun _ _ _ => ?_) ?_ | refine Same.of_snd (by assumption) ?_ | refine Same.of_fst (by assumption) ?_ | apply Same.ite

theorem Same.sleepHalf (h₀ : Same r₀ s) (h : Nat) : Same r₀ (s.sleepHalf h) := by
  unfold Sys2Proof.Machine.State.sleepHalf
  repeat' first
    | intro _ | with_reducible first | assumption | apply Same.downCompute | apply Same.downRim | apply Same.upd
    | fail_if_no_progress with_reducible apply Same.fields | with_reducible first | refine Same.of_snd (by assumption) ?_ | refine Same.of_fst (by assumption) ?_ | apply Same.ite

theorem Same.intakeWrite (h₀ : Same r₀ s) (h : Nat) (a : Nat) (l : List Byte) : Same r₀ (s.intakeWrite h a l).1 := by
  unfold Sys2Proof.Machine.State.intakeWrite
  repeat' first
    | intro _ | with_reducible first | assumption | apply Same.late | apply Same.pay | apply Same.store
    | fail_if_no_progress with_reducible apply Same.fields | with_reducible first | refine Same.of_snd (by assumption) ?_ | refine Same.of_fst (by assumption) ?_ | apply Same.ite
    | split

theorem Same.publish (h₀ : Same r₀ s) (h : Nat) (k : Nat) (row : Nat) (lines : List (List Nat)) : Same r₀ (s.publish h k row lines) := by
  unfold Sys2Proof.Machine.State.publish
  repeat' first
    | intro _ | with_reducible first | assumption | apply Same.intakeWrite | apply Same.upd
    | fail_if_no_progress with_reducible apply Same.fields | with_reducible first | refine Same.foldl _ _ (fun _ _ _ => ?_) ?_ | refine Same.foldl_fst _ _ _ (fun _ _ _ => ?_) ?_ | refine Same.foldl_snd _ _ _ (fun _ _ _ => ?_) ?_ | refine Same.of_snd (by assumption) ?_ | refine Same.of_fst (by assumption) ?_ | apply Same.ite
    | split

theorem Same.failCheck (h₀ : Same r₀ s) (h : Nat) (k : Nat) (mask : Nat) (detail : Option Nat) : Same r₀ (s.failCheck h k mask detail) := by
  unfold Sys2Proof.Machine.State.failCheck
  repeat' first
    | intro _ | with_reducible first | assumption | apply Same.incident | apply Same.notice | apply Same.upd
    | fail_if_no_progress with_reducible apply Same.fields | with_reducible first | refine Same.foldl _ _ (fun _ _ _ => ?_) ?_ | refine Same.foldl_fst _ _ _ (fun _ _ _ => ?_) ?_ | refine Same.foldl_snd _ _ _ (fun _ _ _ => ?_) ?_ | refine Same.of_snd (by assumption) ?_ | refine Same.of_fst (by assumption) ?_ | apply Same.ite

theorem Same.closeFrame (h₀ : Same r₀ s) (h : Nat) (k : Nat) (timeout : Bool) : Same r₀ (s.closeFrame h k timeout) := by
  unfold Sys2Proof.Machine.State.closeFrame
  repeat' first
    | intro _ | with_reducible first | assumption | apply Same.draw | apply Same.emit | apply Same.failCheck | apply Same.intakeWrite | apply Same.upd
    | fail_if_no_progress with_reducible apply Same.fields | with_reducible first | refine Same.foldl _ _ (fun _ _ _ => ?_) ?_ | refine Same.foldl_fst _ _ _ (fun _ _ _ => ?_) ?_ | refine Same.foldl_snd _ _ _ (fun _ _ _ => ?_) ?_ | refine Same.of_snd (by assumption) ?_ | refine Same.of_fst (by assumption) ?_ | apply Same.ite

theorem Same.rebalance (h₀ : Same r₀ s) (h : Nat) (k : Nat) : Same r₀ (s.rebalance h k) := by
  unfold Sys2Proof.Machine.State.rebalance
  repeat' first
    | intro _ | with_reducible first | assumption | apply Same.incident | apply Same.upd
    | fail_if_no_progress with_reducible apply Same.fields | with_reducible first | refine Same.of_snd (by assumption) ?_ | refine Same.of_fst (by assumption) ?_ | apply Same.ite

theorem Same.openFrame (h₀ : Same r₀ s) (h : Nat) (k : Nat) (frameNo : Nat) : Same r₀ (s.openFrame h k frameNo) := by
  unfold Sys2Proof.Machine.State.openFrame
  repeat' first
    | intro _ | with_reducible first | assumption | apply Same.closeFrame | apply Same.failCheck | apply Same.rebalance | apply Same.upd
    | fail_if_no_progress with_reducible apply Same.fields | with_reducible first | refine Same.of_snd (by assumption) ?_ | refine Same.of_fst (by assumption) ?_ | apply Same.ite
    | split

theorem Same.noFrame (h₀ : Same r₀ s) (h : Nat) (slot : Nat) : Same r₀ (s.noFrame h slot) := by
  unfold Sys2Proof.Machine.State.noFrame
  repeat' first
    | intro _ | with_reducible first | assumption | apply Same.closeFrame | apply Same.failCheck | apply Same.upd
    | fail_if_no_progress with_reducible apply Same.fields | with_reducible first | refine Same.of_snd (by assumption) ?_ | refine Same.of_fst (by assumption) ?_ | apply Same.ite

theorem Same.embeddedLine (h₀ : Same r₀ s) (h : Nat) (k : Nat) (data : List Byte) : Same r₀ (s.embeddedLine h k data) := by
  unfold Sys2Proof.Machine.State.embeddedLine
  repeat' first
    | intro _ | with_reducible first | assumption | apply Same.failCheck | apply Same.upd
    | fail_if_no_progress with_reducible apply Same.fields | with_reducible first | refine Same.of_snd (by assumption) ?_ | refine Same.of_fst (by assumption) ?_ | apply Same.ite

theorem Same.imageFirst (h₀ : Same r₀ s) (h : Nat) (k : Nat) : Same r₀ (s.imageFirst h k) := by
  unfold Sys2Proof.Machine.State.imageFirst
  repeat' first
    | intro _ | with_reducible first | assumption | apply Same.failCheck | apply Same.upd
    | fail_if_no_progress with_reducible apply Same.fields | with_reducible first | refine Same.of_snd (by assumption) ?_ | refine Same.of_fst (by assumption) ?_ | apply Same.ite

theorem Same.placeLine (h₀ : Same r₀ s) (h : Nat) (rx : Nat) (k : Nat) (px : List Nat) (crcOk : Bool) : Same r₀ (s.placeLine h rx k px crcOk) := by
  unfold Sys2Proof.Machine.State.placeLine
  repeat' first
    | intro _ | with_reducible first | assumption | apply Same.imageFirst | apply Same.publish | apply Same.upd
    | fail_if_no_progress with_reducible apply Same.fields | with_reducible first | refine Same.of_snd (by assumption) ?_ | refine Same.of_fst (by assumption) ?_ | apply Same.ite

theorem Same.streamWord (h₀ : Same r₀ s) (h : Nat) (reg : Reg) (k : Nat) (val : Nat) : Same r₀ (s.streamWord h reg k val) := by
  unfold Sys2Proof.Machine.State.streamWord
  repeat' first
    | intro _ | with_reducible first | assumption | apply Same.closeFrame | apply Same.upd
    | fail_if_no_progress with_reducible apply Same.fields | with_reducible first | refine Same.of_snd (by assumption) ?_ | refine Same.of_fst (by assumption) ?_ | apply Same.ite

theorem Same.partWord (h₀ : Same r₀ s) (h : Nat) (reg : Reg) (part : Nat) (word : Nat) (val : Nat) : Same r₀ (s.partWord h reg part word val) := by
  unfold Sys2Proof.Machine.State.partWord
  repeat' first
    | intro _ | with_reducible first | assumption | apply Same.upd
    | fail_if_no_progress with_reducible apply Same.fields | with_reducible first | refine Same.of_snd (by assumption) ?_ | refine Same.of_fst (by assumption) ?_ | apply Same.ite

theorem Same.periphWrite (h₀ : Same r₀ s) (h : Nat) (a : Nat) : Same r₀ (s.periphWrite h a) := by
  unfold Sys2Proof.Machine.State.periphWrite
  generalize periphSource _ = o
  cases o
  · exact h₀
  · exact Same.incident h₀ _ _ _ _ _

theorem Same.periphRead (h₀ : Same r₀ s) (h : Nat) (a : Nat) (n : Nat) : Same r₀ (s.periphRead h a n).2.2 := by
  unfold Sys2Proof.Machine.State.periphRead
  generalize periphReg _ = o
  cases o
  · exact Same.draw h₀
  · dsimp only
    by_cases c : (n = 8 || n = 4) = true
    · rw [if_pos c]; dsimp only; exact Same.upd h₀ _ _
    · rw [if_neg c]; exact Same.draw h₀

theorem Same.askReplay (h₀ : Same r₀ s) (h : Nat) (module : Nat) (lane : Nat) (seq : Nat) : Same r₀ (s.askReplay h module lane seq) := by
  unfold Sys2Proof.Machine.State.askReplay
  repeat' first
    | intro _ | with_reducible first | assumption | apply Same.emit | apply Same.upd

theorem Same.hatchRecord (h₀ : Same r₀ s) (h : Nat) (f : SvcRecord → SvcRecord) (kind : Nat) (unit : Nat) (spare : Option Nat) : Same r₀ (s.hatchRecord h f kind unit spare) := by
  unfold Sys2Proof.Machine.State.hatchRecord
  repeat' first
    | intro _ | with_reducible first | assumption | apply Same.upd
    | fail_if_no_progress with_reducible apply Same.fields | with_reducible first | refine Same.of_snd (by assumption) ?_ | refine Same.of_fst (by assumption) ?_ | apply Same.ite

theorem Same.modulesChanged (h₀ : Same r₀ s) (h : Nat) : Same r₀ (s.modulesChanged h) := by
  unfold Sys2Proof.Machine.State.modulesChanged
  repeat' first
    | intro _ | with_reducible first | assumption | apply Same.reconcile | apply Same.upd
    | fail_if_no_progress with_reducible apply Same.fields | with_reducible first | refine Same.of_snd (by assumption) ?_ | refine Same.of_fst (by assumption) ?_ | apply Same.ite

theorem Same.failModule (h₀ : Same r₀ s) (h : Nat) (module : Nat) : Same r₀ (s.failModule h module) := by
  unfold Sys2Proof.Machine.State.failModule
  repeat' first
    | intro _ | with_reducible first | assumption | apply Same.hatchRecord | apply Same.modulesChanged
    | fail_if_no_progress with_reducible apply Same.fields | with_reducible first | refine Same.of_snd (by assumption) ?_ | refine Same.of_fst (by assumption) ?_ | apply Same.ite

theorem Same.takeVt (h₀ : Same r₀ s)  : Same r₀ (s.takeVt) := by
  unfold Sys2Proof.Machine.State.takeVt
  repeat' first
    | intro _ | with_reducible first | assumption | apply Same.upd
    | fail_if_no_progress with_reducible apply Same.fields | with_reducible first | refine Same.of_snd (by assumption) ?_ | refine Same.of_fst (by assumption) ?_ | apply Same.ite
    | split

theorem Same.uniteHatch (h₀ : Same r₀ s)  : Same r₀ (s.uniteHatch) := by
  unfold Sys2Proof.Machine.State.uniteHatch
  repeat' first
    | intro _ | with_reducible first | assumption
    | fail_if_no_progress with_reducible apply Same.fields | with_reducible first | refine Same.of_snd (by assumption) ?_ | refine Same.of_fst (by assumption) ?_ | apply Same.ite

theorem Same.violation (h₀ : Same r₀ s) (h : Nat) (code : Nat) (type : Nat) (tag : Nat) : Same r₀ (s.violation h code type tag) := by
  unfold Sys2Proof.Machine.State.violation
  repeat' first
    | intro _ | with_reducible first | assumption | apply Same.answerOut | apply Same.emit | apply Same.hatchSend | apply Same.incident
      | apply Same.upd
    | fail_if_no_progress with_reducible apply Same.fields | with_reducible first | refine Same.of_snd (by assumption) ?_ | refine Same.of_fst (by assumption) ?_ | apply Same.ite

theorem Same.issued (h₀ : Same r₀ s) (h : Nat) (k : Pkt) (n : Nat) : Same r₀ (s.issued h k n) := by
  unfold Sys2Proof.Machine.State.issued
  repeat' first
    | intro _ | with_reducible first | assumption | apply Same.upd

theorem Same.complete_ (h₀ : Same r₀ s) (h : Nat) (tag : Nat) (st : Status) (data : List Byte) : Same r₀ (s.complete_ h tag st data) := by
  unfold Sys2Proof.Machine.State.complete_
  repeat' first
    | intro _ | with_reducible first | assumption | apply Same.emit

theorem Same.unmapped (h₀ : Same r₀ s) (h : Nat) (src : Nat) : Same r₀ (s.unmapped h src) := by
  unfold Sys2Proof.Machine.State.unmapped
  repeat' first
    | intro _ | with_reducible first | assumption | apply Same.incident

theorem Same.portWrite (h₀ : Same r₀ s) (h : Nat) (src : Nat) (a : Nat) (l : List Byte) : Same r₀ (s.portWrite h src a l) := by
  unfold Sys2Proof.Machine.State.portWrite
  repeat' first
    | intro _ | with_reducible first | assumption | apply Same.dbCqHead | apply Same.dbTail | apply Same.periphWrite | apply Same.store
      | apply Same.tellerAccess | apply Same.unmapped | apply Same.upd
    | fail_if_no_progress with_reducible apply Same.fields | with_reducible first | refine Same.of_snd (by assumption) ?_ | refine Same.of_fst (by assumption) ?_ | apply Same.ite
    | split

theorem Same.portRead (h₀ : Same r₀ s) (h : Nat) (src : Nat) (a : Nat) (n : Nat) : Same r₀ (s.portRead h src a n).2.2 := by
  unfold Sys2Proof.Machine.State.portRead
  repeat' first
    | intro _ | with_reducible first | assumption | apply Same.periphRead | apply Same.readErrs | apply Same.unmapped
    | fail_if_no_progress with_reducible apply Same.fields | with_reducible first | refine Same.of_snd (by assumption) ?_ | refine Same.of_fst (by assumption) ?_ | apply Same.ite
    | split

theorem Same.wordRun (h₀ : Same r₀ s) (h : Nat) (k : Pkt) (addr : Nat) (width : Nat) (f : State → Nat → State) (h₀f : ∀ t a0, Same r₀ t → Same r₀ (f t a0)) : Same r₀ (s.wordRun h k addr width f) := by
  unfold Sys2Proof.Machine.State.wordRun
  repeat' first
    | intro _ | with_reducible first | assumption | apply Same.complete_ | apply Same.readErrs | apply Same.unmapped | apply h₀f
    | fail_if_no_progress with_reducible apply Same.fields | with_reducible first | refine Same.of_snd (by assumption) ?_ | refine Same.of_fst (by assumption) ?_ | apply Same.ite
    | split | dsimp only

theorem Same.takeSem (h₀ : Same r₀ s) (h : Nat) (k : Pkt) (hart : Nat) (a : Nat) (width : Nat) : Same r₀ (s.takeSem h k hart a width) := by
  unfold Sys2Proof.Machine.State.takeSem
  repeat' first
    | intro _ | with_reducible first | assumption | apply Same.complete_ | apply Same.upd

theorem Same.lrRun (h₀ : Same r₀ s) (h : Nat) (k : Pkt) (hart : Nat) (a : Nat) (width : Nat) : Same r₀ (s.lrRun h k hart a width) := by
  unfold Sys2Proof.Machine.State.lrRun
  repeat' first
    | intro _ | with_reducible first | assumption | apply Same.takeSem | apply Same.upd
    | fail_if_no_progress with_reducible apply Same.fields | with_reducible first | refine Same.of_snd (by assumption) ?_ | refine Same.of_fst (by assumption) ?_ | apply Same.ite
    | split | dsimp only

theorem Same.scRun (h₀ : Same r₀ s) (h : Nat) (k : Pkt) (hart : Nat) (a : Nat) (width : Nat) (val : Nat) : Same r₀ (s.scRun h k hart a width val) := by
  unfold Sys2Proof.Machine.State.scRun
  repeat' first
    | intro _ | with_reducible first | assumption | apply Same.complete_ | apply Same.store | apply Same.upd
    | fail_if_no_progress with_reducible apply Same.fields | with_reducible first | refine Same.of_snd (by assumption) ?_ | refine Same.of_fst (by assumption) ?_ | apply Same.ite
    | split | dsimp only

theorem Same.amoRun (h₀ : Same r₀ s) (h : Nat) (k : Pkt) (op : AmoOp) (a : Nat) (width : Nat) (val : Nat) : Same r₀ (s.amoRun h k op a width val) := by
  unfold Sys2Proof.Machine.State.amoRun
  repeat' first
    | intro _ | with_reducible first | assumption | apply Same.complete_ | apply Same.store

theorem Same.serveIn (h₀ : Same r₀ s) (h : Nat) (r : HatchIn) : Same r₀ (s.serveIn h r) := by
  unfold Sys2Proof.Machine.State.serveIn
  repeat' first
    | intro _ | with_reducible first | assumption | apply Same.amoRun | apply Same.complete_ | apply Same.lrRun | apply Same.portRead
      | apply Same.portWrite | apply Same.scRun | apply Same.wordRun
    | fail_if_no_progress with_reducible apply Same.fields | with_reducible first | refine Same.of_snd (by assumption) ?_ | refine Same.of_fst (by assumption) ?_ | apply Same.ite
    | split

theorem Same.atPort (h₀ : Same r₀ s) (h : Nat) (r : HatchIn) : Same r₀ (s.atPort h r) := by
  unfold Sys2Proof.Machine.State.atPort
  repeat' first
    | intro _ | with_reducible first | assumption | apply Same.pay | apply Same.serveIn | apply Same.upd
    | fail_if_no_progress with_reducible apply Same.fields | with_reducible first | refine Same.of_snd (by assumption) ?_ | refine Same.of_fst (by assumption) ?_ | apply Same.ite

theorem Same.drain (h₀ : Same r₀ s) (h : Nat) : Same r₀ (s.drain h) := by
  unfold Sys2Proof.Machine.State.drain
  repeat' first
    | intro _ | with_reducible first | assumption | apply Same.atPort | apply Same.upd
    | fail_if_no_progress with_reducible apply Same.fields | with_reducible first | refine Same.foldl _ _ (fun _ _ _ => ?_) ?_ | refine Same.foldl_fst _ _ _ (fun _ _ _ => ?_) ?_ | refine Same.foldl_snd _ _ _ (fun _ _ _ => ?_) ?_ | refine Same.of_snd (by assumption) ?_ | refine Same.of_fst (by assumption) ?_ | apply Same.ite
    | split

theorem Same.crosses (h₀ : Same r₀ s) (h : Nat) (r : HatchIn) : Same r₀ (s.crosses h r) := by
  unfold Sys2Proof.Machine.State.crosses
  repeat' first
    | intro _ | with_reducible first | assumption | apply Same.atPort | apply Same.upd

theorem Same.holdOut (h₀ : Same r₀ s) (h : Nat) (r : HatchIn) : Same r₀ (s.holdOut h r) := by
  unfold Sys2Proof.Machine.State.holdOut
  repeat' first
    | intro _ | with_reducible first | assumption | apply Same.upd

theorem Same.drainOut (h₀ : Same r₀ s) (h : Nat) : Same r₀ (s.drainOut h) := by
  unfold Sys2Proof.Machine.State.drainOut
  repeat' first
    | intro _ | with_reducible first | assumption | apply Same.crosses | apply Same.holdOut | apply Same.upd
    | fail_if_no_progress with_reducible apply Same.fields | with_reducible first | refine Same.foldl _ _ (fun _ _ _ => ?_) ?_ | refine Same.foldl_fst _ _ _ (fun _ _ _ => ?_) ?_ | refine Same.foldl_snd _ _ _ (fun _ _ _ => ?_) ?_ | refine Same.of_snd (by assumption) ?_ | refine Same.of_fst (by assumption) ?_ | apply Same.ite

theorem Same.arrive (h₀ : Same r₀ s) (h : Nat) (r : HatchIn) : Same r₀ (s.arrive h r) := by
  unfold Sys2Proof.Machine.State.arrive
  repeat' first
    | intro _ | with_reducible first | assumption | apply Same.crosses | apply Same.drain | apply Same.drainOut | apply Same.holdOut | apply Same.upd
      | apply Same.violation
    | fail_if_no_progress with_reducible apply Same.fields | with_reducible first | refine Same.of_snd (by assumption) ?_ | refine Same.of_fst (by assumption) ?_ | apply Same.ite

theorem Same.wordRequest (h₀ : Same r₀ s) (h : Nat) (r : HatchIn) : Same r₀ (s.wordRequest h r) := by
  unfold Sys2Proof.Machine.State.wordRequest
  repeat' first
    | intro _ | with_reducible first | assumption | apply Same.arrive | apply Same.issued | apply Same.violation
    | fail_if_no_progress with_reducible apply Same.fields | with_reducible first | refine Same.of_snd (by assumption) ?_ | refine Same.of_fst (by assumption) ?_ | apply Same.ite

theorem Same.completed (h₀ : Same r₀ s) (h : Nat) (type : Nat) (tag : Nat) (n : Option Nat) : Same r₀ (s.completed h type tag n) := by
  unfold Sys2Proof.Machine.State.completed
  repeat' first
    | intro _ | with_reducible first | assumption | apply Same.upd | apply Same.violation
    | fail_if_no_progress with_reducible apply Same.fields | with_reducible first | refine Same.of_snd (by assumption) ?_ | refine Same.of_fst (by assumption) ?_ | apply Same.ite
    | split

theorem Same.cplFault (h₀ : Same r₀ s) (h : Nat) (tag : Nat) (st : Status) : Same r₀ (s.cplFault h tag st) := by
  unfold Sys2Proof.Machine.State.cplFault
  repeat' first
    | intro _ | with_reducible first | assumption | apply Same.accessFault | apply Same.draw
    | fail_if_no_progress with_reducible apply Same.fields | with_reducible first | refine Same.of_snd (by assumption) ?_ | refine Same.of_fst (by assumption) ?_ | apply Same.ite

theorem Same.counted (h₀ : Same r₀ s) (h : Nat) (kind : Nat) (x : MsgH) : Same r₀ (s.counted h kind x) := by
  unfold Sys2Proof.Machine.State.counted
  repeat' first
    | intro _ | with_reducible first | assumption | apply Same.upd

theorem Same.message (h₀ : Same r₀ s) (h : Nat) (kind : Nat) (x : MsgH) (f : State → State) (h₀f : ∀ t, Same r₀ t → Same r₀ (f t)) : Same r₀ (s.message h kind x f) := by
  unfold Sys2Proof.Machine.State.message
  repeat' first
    | intro _ | with_reducible first | assumption | apply Same.counted | apply Same.violation | apply h₀f
    | fail_if_no_progress with_reducible apply Same.fields | with_reducible first | refine Same.of_snd (by assumption) ?_ | refine Same.of_fst (by assumption) ?_ | apply Same.ite

theorem Same.compareVt (h₀ : Same r₀ s) (h : Nat) (peerVt : Nat) : Same r₀ (s.compareVt h peerVt) := by
  unfold Sys2Proof.Machine.State.compareVt
  repeat' first
    | intro _ | with_reducible first | assumption | apply Same.draw | apply Same.hatchSend | apply Same.upd
    | fail_if_no_progress with_reducible apply Same.fields | with_reducible first | refine Same.of_snd (by assumption) ?_ | refine Same.of_fst (by assumption) ?_ | apply Same.ite

theorem Same.followVt (h₀ : Same r₀ s) (h : Nat) : Same r₀ (s.followVt h) := by
  unfold Sys2Proof.Machine.State.followVt
  repeat' first
    | intro _ | with_reducible first | assumption | apply Same.draw | apply Same.upd
    | fail_if_no_progress with_reducible apply Same.fields | with_reducible first | refine Same.of_snd (by assumption) ?_ | refine Same.of_fst (by assumption) ?_ | apply Same.ite

theorem Same.takeLatch (h₀ : Same r₀ s) (h : Nat) (m : Msg) (pid : Nat) (g : Nat) : Same r₀ (s.takeLatch h m pid g) := by
  unfold Sys2Proof.Machine.State.takeLatch
  repeat' first
    | intro _ | with_reducible first | assumption
    | fail_if_no_progress with_reducible apply Same.fields

theorem Same.stopped (h₀ : Same r₀ s) (h : Nat) (m : Msg) (op : Nat) : Same r₀ (s.stopped h m op) := by
  unfold Sys2Proof.Machine.State.stopped
  repeat' first
    | intro _ | with_reducible first | assumption | apply Same.draw | apply Same.reply | apply Same.upd
    | fail_if_no_progress with_reducible apply Same.fields | with_reducible first | refine Same.of_snd (by assumption) ?_ | refine Same.of_fst (by assumption) ?_ | apply Same.ite

theorem Same.stopLeaving (h₀ : Same r₀ s) (h : Nat) : Same r₀ (s.stopLeaving h) := by
  unfold Sys2Proof.Machine.State.stopLeaving
  repeat' first
    | intro _ | with_reducible first | assumption | apply Same.reply | apply Same.rest | apply Same.upd
    | with_reducible first | refine Same.foldl _ _ (fun _ _ _ => ?_) ?_

theorem Same.stopMessages (h₀ : Same r₀ s) (h : Nat) : Same r₀ (s.stopMessages h) := by
  unfold Sys2Proof.Machine.State.stopMessages
  repeat' first
    | intro _ | with_reducible first | assumption | apply Same.draw | apply Same.stopped
    | fail_if_no_progress with_reducible apply Same.fields | with_reducible first | refine Same.foldl _ _ (fun _ _ _ => ?_) ?_ | refine Same.foldl_fst _ _ _ (fun _ _ _ => ?_) ?_ | refine Same.foldl_snd _ _ _ (fun _ _ _ => ?_) ?_ | refine Same.of_snd (by assumption) ?_ | refine Same.of_fst (by assumption) ?_ | apply Same.ite
    | split

theorem Same.badFrame (h₀ : Same r₀ s) (g : Nat) (p : Nat) (kind : BadFrame) : Same r₀ (s.badFrame g p kind) := by
  unfold Sys2Proof.Machine.State.badFrame
  repeat' first
    | intro _ | with_reducible first | assumption | apply Same.sendOut | apply Same.upd
    | fail_if_no_progress with_reducible apply Same.fields | with_reducible first | refine Same.of_snd (by assumption) ?_ | refine Same.of_fst (by assumption) ?_ | apply Same.ite
    | split

theorem Same.restartHalf (h₀ : Same r₀ s) (h : Nat) (m : Msg) (half : Nat) (kind : Nat) : Same r₀ (s.restartHalf h m half kind).1 := by
  unfold Sys2Proof.Machine.State.restartHalf
  repeat' first
    | intro _ | with_reducible first | assumption | apply Same.reply | apply Same.resetHalf | apply Same.upd
    | fail_if_no_progress with_reducible apply Same.fields | with_reducible first | refine Same.of_snd (by assumption) ?_ | refine Same.of_fst (by assumption) ?_ | apply Same.ite
    | split

theorem Same.commitHalf (h₀ : Same r₀ s) (g : Nat) (n : Nat) : Same r₀ (s.commitHalf g n) := by
  unfold Sys2Proof.Machine.State.commitHalf
  repeat' first
    | intro _ | with_reducible first | assumption | apply Same.loseDeferred | apply Same.rollback | apply Same.upd
    | fail_if_no_progress with_reducible apply Same.fields | with_reducible first | refine Same.of_snd (by assumption) ?_ | refine Same.of_fst (by assumption) ?_ | apply Same.ite

theorem Same.stopRequest (h₀ : Same r₀ s) (kind : Nat) : Same r₀ (s.stopRequest kind).1 := by
  unfold Sys2Proof.Machine.State.stopRequest
  repeat' first
    | intro _ | with_reducible first | assumption | apply Same.gateRefuse | apply Same.goingDown
    | fail_if_no_progress with_reducible apply Same.fields | with_reducible first | refine Same.of_snd (by assumption) ?_ | refine Same.of_fst (by assumption) ?_ | apply Same.ite
    | split

theorem Same.alloc (h₀ : Same r₀ s) (h : Nat) (a : AllocWait) : Same r₀ (s.alloc h a).1 := by
  unfold Sys2Proof.Machine.State.alloc
  repeat' first
    | intro _ | with_reducible first | assumption | apply Same.saveConf | apply Same.upd
    | fail_if_no_progress with_reducible apply Same.fields | with_reducible first | refine Same.of_snd (by assumption) ?_ | refine Same.of_fst (by assumption) ?_ | apply Same.ite
    | split

theorem Same.retryAllocs (h₀ : Same r₀ s) (h : Nat) : Same r₀ (s.retryAllocs h) := by
  unfold Sys2Proof.Machine.State.retryAllocs
  repeat' first
    | intro _ | with_reducible first | assumption | apply Same.alloc | apply Same.reply | apply Same.upd
    | fail_if_no_progress with_reducible apply Same.fields | with_reducible first | refine Same.foldl _ _ (fun _ _ _ => ?_) ?_ | refine Same.foldl_fst _ _ _ (fun _ _ _ => ?_) ?_ | refine Same.foldl_snd _ _ _ (fun _ _ _ => ?_) ?_ | refine Same.of_snd (by assumption) ?_ | refine Same.of_fst (by assumption) ?_ | apply Same.ite
    | split | dsimp only

theorem Same.moveRegions (h₀ : Same r₀ s) (from_ : State) (h : Nat) (rel : List (Nat × Nat × Nat)) : Same r₀ (s.moveRegions from_ h rel) := by
  unfold Sys2Proof.Machine.State.moveRegions
  repeat' first
    | intro _ | with_reducible first | assumption | apply Same.upd | apply Same.wr
    | with_reducible first | refine Same.foldl _ _ (fun _ _ _ => ?_) ?_

theorem Same.withdraw (h₀ : Same r₀ s) (h : Nat) (g : Nat) : Same r₀ (s.withdraw h g) := by
  unfold Sys2Proof.Machine.State.withdraw
  repeat' first
    | intro _ | with_reducible first | assumption | apply Same.askRestart | apply Same.clearRows | apply Same.incident | apply Same.moveRegions
      | apply Same.notice | apply Same.saveConf | apply Same.upd
    | fail_if_no_progress with_reducible apply Same.fields | with_reducible first | refine Same.foldl _ _ (fun _ _ _ => ?_) ?_ | refine Same.foldl_fst _ _ _ (fun _ _ _ => ?_) ?_ | refine Same.foldl_snd _ _ _ (fun _ _ _ => ?_) ?_ | refine Same.of_snd (by assumption) ?_ | refine Same.of_fst (by assumption) ?_ | apply Same.ite

theorem Same.powerOff (h₀ : Same r₀ s) (h : Nat) (unit : ShutUnit) : Same r₀ (s.powerOff h unit) := by
  unfold Sys2Proof.Machine.State.powerOff
  repeat' first
    | intro _ | with_reducible first | assumption | apply Same.clearRows | apply Same.upd | apply Same.updCore
    | fail_if_no_progress with_reducible apply Same.fields | with_reducible first | refine Same.of_snd (by assumption) ?_ | refine Same.of_fst (by assumption) ?_ | apply Same.ite
    | split

theorem Same.shutAborts (h₀ : Same r₀ s) (h : Nat) (unit : ShutUnit) : Same r₀ (s.shutAborts h unit) := by
  unfold Sys2Proof.Machine.State.shutAborts
  repeat' first
    | intro _ | with_reducible first | assumption | apply Same.incident | apply Same.retryAllocs | apply Same.upd
    | fail_if_no_progress with_reducible apply Same.fields | with_reducible first | refine Same.of_snd (by assumption) ?_ | refine Same.of_fst (by assumption) ?_ | apply Same.ite
    | split

theorem Same.pinModel (h₀ : Same r₀ s) (h : Nat) (m : Msg) (key : Nat) (pin : Bool) : Same r₀ (s.pinModel h m key pin).1 := by
  unfold Sys2Proof.Machine.State.pinModel
  repeat' first
    | intro _ | with_reducible first | assumption | apply Same.saveConf | apply Same.upd
    | fail_if_no_progress with_reducible apply Same.fields | with_reducible first | refine Same.foldl _ _ (fun _ _ _ => ?_) ?_ | refine Same.foldl_fst _ _ _ (fun _ _ _ => ?_) ?_ | refine Same.foldl_snd _ _ _ (fun _ _ _ => ?_) ?_ | refine Same.of_snd (by assumption) ?_ | refine Same.of_fst (by assumption) ?_ | apply Same.ite
    | split | dsimp only

theorem Same.installVdi (h₀ : Same r₀ s) (h : Nat) (v : Nat) (profile : Nat) (mark : Nat) (cfg : Nat) (gen : Nat) : Same r₀ (s.installVdi h v profile mark cfg gen) := by
  unfold Sys2Proof.Machine.State.installVdi
  repeat' first
    | intro _ | with_reducible first | assumption | apply Same.setVdi | apply Same.upd

theorem Same.leaveVdi (h₀ : Same r₀ s) (h : Nat) (m : Msg) (op : Nat) (kind : LeaveKind) (v : Nat) : Same r₀ (s.leaveVdi h m op kind v).1 := by
  unfold Sys2Proof.Machine.State.leaveVdi
  repeat' first
    | intro _ | with_reducible first | assumption | apply Same.resetVdi | apply Same.underWay

theorem Same.putCtx (h₀ : Same r₀ s) (h : Nat) (c : Nat) (raw : Nat) (set : List (Nat × Nat)) : Same r₀ (s.putCtx h c raw set) := by
  unfold Sys2Proof.Machine.State.putCtx
  repeat' first
    | intro _ | with_reducible first | assumption | apply Same.bindModels | apply Same.noteIdle | apply Same.noteReady | apply Same.setCtx
      | apply Same.touchCtx | apply Same.upd
    | with_reducible first | refine Same.foldl _ _ (fun _ _ _ => ?_) ?_

theorem Same.queueState (h₀ : Same r₀ s) (h : Nat) (m : Msg) (q : Nat) (disable : Bool) (ok : Nat → Bool) (f : State → State) (h₀f : ∀ t, Same r₀ t → Same r₀ (f t)) : Same r₀ (s.queueState h m q disable ok f).1 := by
  unfold Sys2Proof.Machine.State.queueState
  repeat' first
    | intro _ | with_reducible first | assumption | apply Same.underWay | apply h₀f
    | fail_if_no_progress with_reducible apply Same.fields | with_reducible first | refine Same.of_snd (by assumption) ?_ | refine Same.of_fst (by assumption) ?_ | apply Same.ite
    | split | dsimp only

theorem Same.startLog (h₀ : Same r₀ s) (h : Nat) (vdi : Nat) (a : Nat) (b : Nat) : Same r₀ (s.startLog h vdi a b) := by
  unfold Sys2Proof.Machine.State.startLog
  repeat' first
    | intro _ | with_reducible first | assumption | apply Same.setVdi | apply Same.upd | apply Same.zeroBitmap

theorem Same.suspendVdi (h₀ : Same r₀ s) (h : Nat) (vdi : Nat) : Same r₀ (s.suspendVdi h vdi) := by
  unfold Sys2Proof.Machine.State.suspendVdi
  repeat' first
    | intro _ | with_reducible first | assumption | apply Same.setVdi | apply Same.suspendQueue
    | with_reducible first | refine Same.foldl _ _ (fun _ _ _ => ?_) ?_

theorem Same.importQueues (h₀ : Same r₀ s) (h : Nat) (w : Nat) (first : Nat) (l : List Byte) : Same r₀ (s.importQueues h w first l).2 := by
  unfold Sys2Proof.Machine.State.importQueues
  repeat' first
    | intro _ | with_reducible first | assumption | apply Same.setVdi | apply Same.upd
    | fail_if_no_progress with_reducible apply Same.fields | with_reducible first | refine Same.foldl _ _ (fun _ _ _ => ?_) ?_ | refine Same.foldl_fst _ _ _ (fun _ _ _ => ?_) ?_ | refine Same.foldl_snd _ _ _ (fun _ _ _ => ?_) ?_ | refine Same.of_snd (by assumption) ?_ | refine Same.of_fst (by assumption) ?_ | apply Same.ite
    | split | dsimp only

theorem Same.importCtxs (h₀ : Same r₀ s) (h : Nat) (v : Nat) (w : Nat) (profile : Nat) (l : List Byte) : Same r₀ (s.importCtxs h v w profile l).2 := by
  unfold Sys2Proof.Machine.State.importCtxs
  repeat' first
    | intro _ | with_reducible first | assumption | apply Same.setCtx | apply Same.touchCtx
    | fail_if_no_progress with_reducible apply Same.fields | with_reducible first | refine Same.foldl _ _ (fun _ _ _ => ?_) ?_ | refine Same.foldl_fst _ _ _ (fun _ _ _ => ?_) ?_ | refine Same.foldl_snd _ _ _ (fun _ _ _ => ?_) ?_ | refine Same.of_snd (by assumption) ?_ | refine Same.of_fst (by assumption) ?_ | apply Same.ite
    | split | dsimp only

theorem Same.importGranules (h₀ : Same r₀ s) (h : Nat) (w : Nat) (l : List Byte) : Same r₀ (s.importGranules h w l).2 := by
  unfold Sys2Proof.Machine.State.importGranules
  repeat' first
    | intro _ | with_reducible first | assumption | apply Same.upd | apply Same.wrBytes
    | fail_if_no_progress with_reducible apply Same.fields | with_reducible first | refine Same.foldl _ _ (fun _ _ _ => ?_) ?_ | refine Same.foldl_fst _ _ _ (fun _ _ _ => ?_) ?_ | refine Same.foldl_snd _ _ _ (fun _ _ _ => ?_) ?_ | refine Same.of_snd (by assumption) ?_ | refine Same.of_fst (by assumption) ?_ | apply Same.ite
    | split | dsimp only

theorem Same.importModels (h₀ : Same r₀ s) (h : Nat) (w : Nat) (l : List Byte) : Same r₀ (s.importModels h w l).2 := by
  unfold Sys2Proof.Machine.State.importModels
  repeat' first
    | intro _ | with_reducible first | assumption | apply Same.putModel | apply Same.rest | apply Same.upd
    | fail_if_no_progress with_reducible apply Same.fields | with_reducible first | refine Same.foldl _ _ (fun _ _ _ => ?_) ?_ | refine Same.foldl_fst _ _ _ (fun _ _ _ => ?_) ?_ | refine Same.foldl_snd _ _ _ (fun _ _ _ => ?_) ?_ | refine Same.of_snd (by assumption) ?_ | refine Same.of_fst (by assumption) ?_ | apply Same.ite
    | split | dsimp only

theorem Same.importVdi (h₀ : Same r₀ s) (h : Nat) (w : Nat) (img : List Byte) : Same r₀ (s.importVdi h w img).1 := by
  unfold Sys2Proof.Machine.State.importVdi
  repeat' (first
    | (with_reducible assumption)
    | (intro _)
    | (with_reducible apply Same.importCtxs)
    | (with_reducible apply Same.importGranules)
    | (with_reducible apply Same.importModels)
    | (with_reducible apply Same.importQueues)
    | (with_reducible apply Same.installVdi)
    | (with_reducible apply Same.migrated)
    | (with_reducible apply Same.upd)
    | (fail_if_no_progress with_reducible apply Same.fields)
    | (with_reducible refine Same.of_snd (by assumption) ?_)
    | (with_reducible refine Same.of_fst (by assumption) ?_)
    | (with_reducible apply Same.ite)
    | (split)
    | (dsimp only))

theorem Same.resumeVdi (h₀ : Same r₀ s) (h : Nat) (vdi : Nat) : Same r₀ (s.resumeVdi h vdi) := by
  unfold Sys2Proof.Machine.State.resumeVdi
  repeat' first
    | intro _ | with_reducible first | assumption | apply Same.resumeQueue | apply Same.setVdi | apply Same.upd
    | fail_if_no_progress with_reducible apply Same.fields | with_reducible first | refine Same.foldl _ _ (fun _ _ _ => ?_) ?_ | refine Same.foldl_fst _ _ _ (fun _ _ _ => ?_) ?_ | refine Same.foldl_snd _ _ _ (fun _ _ _ => ?_) ?_ | refine Same.of_snd (by assumption) ?_ | refine Same.of_fst (by assumption) ?_ | apply Same.ite

theorem Same.stayVdi (h₀ : Same r₀ s) (h : Nat) (vdi : Nat) : Same r₀ (s.stayVdi h vdi) := by
  unfold Sys2Proof.Machine.State.stayVdi
  repeat' first
    | intro _ | with_reducible first | assumption | apply Same.resumeQueue | apply Same.setVdi | apply Same.upd
    | with_reducible first | refine Same.foldl _ _ (fun _ _ _ => ?_) ?_

end Sys2Proof.Machine
end

