-- ==== Sys2Proof/Laws/Messages.lean ====
section
/-! SUPPORT. A mailbox message by its outcome: taken and not refused, refused, or not taken. -/
namespace Sys2Proof.Machine

variable {s : State} {h : Nat} {m : Msg} {op : Nat} {sc : Scope} {compute : Bool}

/-- An accepted message has the effect of its body, and its reply where the body gives one. -/
theorem mboxW_accepted (a : (s.settleMsgs h).accepts h m op sc compute = true) (body : State → State × Option (Status × Nat)) :
    s.mboxW h m op sc compute body =
      match (body (s.settleMsgs h)).2 with
      | some r => (body (s.settleMsgs h)).1.reply h m op r.1 r.2
      | none => (body (s.settleMsgs h)).1 := by
  simp only [State.accepts, Bool.and_eq_true, decide_eq_true_eq] at a
  simp only [State.mboxW, a.1.1, a.1.2, a.2, Bool.not_true, Bool.or_self, Bool.false_eq_true, if_false]
  all_goals (rcases body (s.settleMsgs h) with ⟨t, _ | r⟩ <;> rfl)

theorem mbox_accepted (a : (s.settleMsgs h).accepts h m op sc compute = true) (body : State → State × Status × Nat) :
    s.mbox h m op sc compute body = (body (s.settleMsgs h)).1.reply h m op (body (s.settleMsgs h)).2.1 (body (s.settleMsgs h)).2.2 := by
  rw [State.mbox, mboxW_accepted a]

/-- An accepted configuration message stores the configuration where it succeeds. -/
theorem mboxL_accepted (a : (s.settleMsgs h).accepts h m op .l false = true) (body : State → State × Status × Nat) :
    s.mboxL h m op body =
      (if (body (s.settleMsgs h)).2.1 = .ok then (body (s.settleMsgs h)).1.saveConf h false else (body (s.settleMsgs h)).1).reply h m op
        (body (s.settleMsgs h)).2.1 (body (s.settleMsgs h)).2.2 := by
  rw [State.mboxL, mbox_accepted a]

/-- A message that its path executes now and that is refused has no effect but its reply. -/
theorem mboxW_refused {st : Status} (v : ((s.settleMsgs h).half h).serves = true) (t : (s.settleMsgs h).turn h m op = true)
    (r : (s.settleMsgs h).refusal h m op sc compute = some st) (body : State → State × Option (Status × Nat)) :
    s.mboxW h m op sc compute body = (s.settleMsgs h).reply h m op st 0 := by
  simp [State.mboxW, v, t, r]

/-- A message out of its turn, or at a half whose steward does not serve, waits. -/
theorem mboxW_waits (w : (((s.settleMsgs h).half h).serves && (s.settleMsgs h).turn h m op) = false) (body : State → State × Option (Status × Nat)) :
    s.mboxW h m op sc compute body = s.settleMsgs h := by
  simp only [Bool.and_eq_false_iff] at w
  simp only [State.mboxW]
  rw [if_pos]
  simpa [Bool.or_eq_true] using w

end Sys2Proof.Machine
end

