-- ==== Sys2Proof/Laws/Mint.lean ====
section
/-! SUPPORT. What the Mint's small operations leave alone, and what a throttle and a request at its port come to (R331, R334). -/
namespace Sys2Proof.Machine

/-! ## Reported levels and refills -/

@[simp] theorem setLevel_fld (x : Half) (stack n : Nat) (f : Fld) (u i : Nat) : (x.setLevel stack n).fld f u i = x.fld f u i := rfl
@[simp] theorem setLevel_throttled (x : Half) (stack n k : Nat) : (x.setLevel stack n).throttled k = x.throttled k := rfl
@[simp] theorem setLevel_clk (x : Half) (stack n : Nat) : (x.setLevel stack n).clk = x.clk := rfl
@[simp] theorem fillBuckets_clk (x : Half) (now : Nat) : (x.fillBuckets now).clk = x.clk := by simp only [Half.fillBuckets]
@[simp] theorem fillBuckets_vt (x : Half) (now : Nat) : (x.fillBuckets now).vt = x.vt := by simp only [Half.fillBuckets]

/-! ## The throttle of a stack (R334) -/

theorem feedback_starts {x : Half} {stack : Nat} (ht : x.throttled stack = false) (hl : x.fld F.MNT_FB_CFG_threshold ≤ x.queueLevel stack) :
    x.feedback stack = (x.setFld (if stack = 0 then F.MNT_FB_CFG_throttle0 else F.MNT_FB_CFG_throttle1) 1).setFld F.MNT_INT_throttle 1 := by
  unfold Half.feedback
  rw [if_pos hl, ht]
  rfl

theorem feedback_stays {x : Half} {stack : Nat} (ht : x.throttled stack = true) (hl : x.fld F.MNT_FB_CFG_threshold ≤ x.queueLevel stack) :
    x.feedback stack = x := by
  unfold Half.feedback
  rw [if_pos hl, ht]
  rfl

theorem feedback_ends {x : Half} {stack : Nat} (ht : x.throttled stack = true) (hl : x.queueLevel stack < x.fld F.MNT_FB_CFG_threshold)
    (hy : x.queueLevel stack ≤ x.fld F.MNT_FB_CFG_threshold - x.fld F.MNT_FB_CFG_hyst) :
    x.feedback stack = x.setFld (if stack = 0 then F.MNT_FB_CFG_throttle0 else F.MNT_FB_CFG_throttle1) 0 := by
  unfold Half.feedback
  rw [if_neg (Nat.not_le.mpr hl), if_pos hy, ht]
  rfl

/-! ## A request at its port (R331, R332) -/

/-- A request that waits behind one of its port and class is held. -/
theorem atMint_behind {x : Half} {now : Nat} {r : Held} (h : (x.mint.held.any fun q => decide (q.port = r.port) && decide (q.cls = r.cls)) = true) :
    x.atMint now r = x.keepReq r now false := by
  unfold Half.atMint
  rw [h]
  rfl

/-- One that does not leaves if it can, and is held else. -/
theorem atMint_free {x : Half} {now : Nat} {r : Held} (h : (x.mint.held.any fun q => decide (q.port = r.port) && decide (q.cls = r.cls)) = false) :
    x.atMint now r = (x.send r).getD (x.keepReq r now true) := by
  unfold Half.atMint
  rw [h]
  rfl

end Sys2Proof.Machine
end

