-- ==== Sys2Proof/Laws/PerInstr.lean ====
section
/-! SUPPORT. A well-formed command names one of the two halves, command by command. -/
namespace Sys2Proof.Laws.Event

set_option Elab.async false

/-- A well-formed command's event names half 0 or half 1. -/
def Statement (i : Instr) : Prop := i.wf = true → i.ev.half < 2

theorem left {a b : Bool} (h : (a && b) = true) : a = true := ((Bool.and_eq_true a b).mp h).1

theorem of_wf {e : Ev} (h : e.wf = true) : e.half < 2 := of_decide_eq_true h

theorem powerGoodRise (e : Ev) : Statement (.powerGoodRise e) := fun h => of_wf h

theorem powerGoodFall (e : Ev) : Statement (.powerGoodFall e) := fun h => of_wf h

theorem pwrgoodMismatchTimeout (e : Ev) : Statement (.pwrgoodMismatchTimeout e) := fun h => of_wf h

theorem resetNLow (e : Ev) (ns : Nat) : Statement (.resetNLow e ns) := fun h => of_wf (left h)

theorem resetNRelease (e : Ev) : Statement (.resetNRelease e) := fun h => of_wf h

theorem crystalJudgedStable (e : Ev) : Statement (.crystalJudgedStable e) := fun h => of_wf h

theorem crystalStartTimeout (e : Ev) : Statement (.crystalStartTimeout e) := fun h => of_wf h

theorem pllJudgedLocked (e : Ev) : Statement (.pllJudgedLocked e) := fun h => of_wf h

theorem clockMonitorFailure (e : Ev) (fails : List ClkFail) : Statement (.clockMonitorFailure e fails) := fun h => of_wf h

theorem rcOscillatorCheck (e : Ev) (ppm : Nat) : Statement (.rcOscillatorCheck e ppm) := fun h => of_wf (left h)

theorem coreDividerChange (e : Ev) (p : Nat) (div : Nat) : Statement (.coreDividerChange e p div) := fun h => of_wf (left (left h))

theorem thermalSensorPoll (e : Ev) (temps : List Int) : Statement (.thermalSensorPoll e temps) := fun h => of_wf h

theorem trimStepTimer (e : Ev) : Statement (.trimStepTimer e) := fun h => of_wf h

theorem thermalTrip (e : Ev) (src : TripSrc) : Statement (.thermalTrip e src) := fun h => of_wf (left h)

theorem tripCooldownRelease (e : Ev) (temps : List Int) (stackTemps : List Int) : Statement (.tripCooldownRelease e temps stackTemps) := fun h => of_wf h

theorem dramTemperaturePoll (e : Ev) (t0 : Int) (t1 : Int) : Statement (.dramTemperaturePoll e t0 t1) := fun h => of_wf h

theorem pmbusPoll (e : Ev) (fault : Bool) (alertHigh : Bool) : Statement (.pmbusPoll e fault alertHigh) := fun h => of_wf h

theorem vrAlertNLow (e : Ev) : Statement (.vrAlertNLow e) := fun h => of_wf h

theorem emergencyClear (e : Ev) : Statement (.emergencyClear e) := fun h => of_wf h

theorem canRouteWake (e : Ev) (ctrl : Nat) : Statement (.canRouteWake e ctrl) := fun h => of_wf (left h)

theorem tc10Wake (e : Ev) : Statement (.tc10Wake e) := fun h => of_wf h

theorem wakeInputBall (e : Ev) (ball : Nat) : Statement (.wakeInputBall e ball) := fun h => of_wf (left h)

theorem parkEntryComplete (e : Ev) : Statement (.parkEntryComplete e) := fun h => of_wf h

theorem sleepEntryComplete (e : Ev) : Statement (.sleepEntryComplete e) := fun h => of_wf h

theorem coreReset (e : Ev) (p : Nat) (cause : Nat) : Statement (.coreReset e p cause) := fun h => of_wf (left (left h))

theorem coreResetDone (e : Ev) (p : Nat) : Statement (.coreResetDone e p) := fun h => of_wf (left h)

theorem halfComputeRestart (e : Ev) (reason : Nat) (fwStopped : Bool) : Statement (.halfComputeRestart e reason fwStopped) := fun h => of_wf (left h)

theorem halfRimRestart (e : Ev) (reason : Nat) (fwStopped : Bool) : Statement (.halfRimRestart e reason fwStopped) := fun h => of_wf (left h)

theorem packageWarmReset (e : Ev) (reason : Nat) (fwStopped : Bool) : Statement (.packageWarmReset e reason fwStopped) := fun h => of_wf (left h)

theorem gatehouseReady (e : Ev) : Statement (.gatehouseReady e) := fun h => of_wf h

theorem rejoinActivation (e : Ev) (vt : Nat) : Statement (.rejoinActivation e vt) := fun h => of_wf (left h)

theorem telDbTailWrite (e : Ev) (q : Nat) (v : Nat) : Statement (.telDbTailWrite e q v) := fun h => of_wf (left (left h))

theorem telDbCqHeadWrite (e : Ev) (q : Nat) (v : Nat) : Statement (.telDbCqHeadWrite e q v) := fun h => of_wf (left (left h))

theorem coreFreeDispatch (e : Ev) (p : Nat) : Statement (.coreFreeDispatch e p) := fun h => of_wf (left h)

theorem contextFetchDone (e : Ev) (ctx : Nat) : Statement (.contextFetchDone e ctx) := fun h => of_wf (left h)

theorem contextWriteBack (e : Ev) (ctx : Nat) : Statement (.contextWriteBack e ctx) := fun h => of_wf (left h)

theorem tileEnd (e : Ev) (p : Nat) (sched : List Nat) : Statement (.tileEnd e p sched) := fun h => of_wf (left h)

theorem tileWatchdogFire (e : Ev) (p : Nat) : Statement (.tileWatchdogFire e p) := fun h => of_wf (left h)

theorem dmaDescriptorEnd (e : Ev) (p : Nat) (desc : Nat) : Statement (.dmaDescriptorEnd e p desc) := fun h => of_wf (left (left h))

theorem dmaDescriptorFailure (e : Ev) (p : Nat) (desc : Nat) (st : Status) : Statement (.dmaDescriptorFailure e p desc st) := fun h => of_wf (left (left h))

theorem detectedMemoryError (e : Ev) (p : Nat) (mem : Nat) (off : Nat) : Statement (.detectedMemoryError e p mem off) := fun h => of_wf (left (left (left h)))

theorem nonTileReadError (e : Ev) (who : ReadKind) (addr : Nat) : Statement (.nonTileReadError e who addr) := fun h => of_wf (left (left h))

theorem rowWriteLands (e : Ev) (p : Nat) (row : Nat) : Statement (.rowWriteLands e p row) := fun h => of_wf (left (left h))

theorem tokenBarrierPass (e : Ev) (p : Nat) (desc : Nat) : Statement (.tokenBarrierPass e p desc) := fun h => of_wf (left (left h))

theorem preemptionRequest (e : Ev) (ctx : Nat) : Statement (.preemptionRequest e ctx) := fun h => of_wf (left h)

theorem graphicsSwitchRequest (e : Ev) (part : Nat) : Statement (.graphicsSwitchRequest e part) := fun h => of_wf (left h)

theorem modeSwitchDone (e : Ev) (p : Nat) : Statement (.modeSwitchDone e p) := fun h => of_wf (left h)

theorem waitLocalEvaluation (e : Ev) (q : Nat) : Statement (.waitLocalEvaluation e q) := fun h => of_wf (left h)

theorem waitLimitExpiry (e : Ev) (q : Nat) : Statement (.waitLimitExpiry e q) := fun h => of_wf (left h)

theorem remoteWatchRepeat (e : Ev) (q : Nat) : Statement (.remoteWatchRepeat e q) := fun h => of_wf (left h)

theorem remoteWatchReply (e : Ev) (q : Nat) (gen : Nat) (idx : Nat) : Statement (.remoteWatchReply e q gen idx) := fun h => of_wf (left (left (left h)))

theorem rowConditionEvaluation (e : Ev) (w : Work) : Statement (.rowConditionEvaluation e w) := fun h => of_wf (left h)

theorem lagLimitExpiry (e : Ev) (w : Work) : Statement (.lagLimitExpiry e w) := fun h => of_wf (left h)

theorem windowPreArm (e : Ev) (n : Nat) : Statement (.windowPreArm e n) := fun h => of_wf (left h)

theorem windowInstanceStart (e : Ev) (n : Nat) : Statement (.windowInstanceStart e n) := fun h => of_wf (left h)

theorem windowInstanceEndUnmet (e : Ev) (n : Nat) : Statement (.windowInstanceEndUnmet e n) := fun h => of_wf (left h)

theorem bankActivationVt (e : Ev) : Statement (.bankActivationVt e) := fun h => of_wf h

theorem majorFrameEndDisable (e : Ev) : Statement (.majorFrameEndDisable e) := fun h => of_wf h

theorem dispatchWatchdog (e : Ev) (d : Nat) : Statement (.dispatchWatchdog e d) := fun h => of_wf (left h)

theorem dispatchRestartDone (e : Ev) (d : Nat) : Statement (.dispatchRestartDone e d) := fun h => of_wf (left h)

theorem stewardWatchdog (e : Ev) : Statement (.stewardWatchdog e) := fun h => of_wf h

theorem stewardRestartDone (e : Ev) : Statement (.stewardRestartDone e) := fun h => of_wf h

theorem lockstepMismatch (e : Ev) : Statement (.lockstepMismatch e) := fun h => of_wf h

theorem sieveCommandStart (e : Ev) (w : Work) : Statement (.sieveCommandStart e w) := fun h => of_wf (left h)

theorem sieveCommandEnd (e : Ev) : Statement (.sieveCommandEnd e) := fun h => of_wf h

theorem sieveDataError (e : Ev) : Statement (.sieveDataError e) := fun h => of_wf h

theorem sieveWatchdog (e : Ev) : Statement (.sieveWatchdog e) := fun h => of_wf h

theorem patrolRowRead (e : Ev) (row : Nat) (err : Bool) : Statement (.patrolRowRead e row err) := fun h => of_wf (left h)

theorem strongroomBankRetire (e : Ev) (bank : Nat) : Statement (.strongroomBankRetire e bank) := fun h => of_wf (left h)

theorem bankMoveDone (e : Ev) (badRows : List Nat) : Statement (.bankMoveDone e badRows) := fun h => of_wf h

theorem groupWithdrawal (e : Ev) (g : Nat) : Statement (.groupWithdrawal e g) := fun h => of_wf (left h)

theorem granuleZeroed (e : Ev) : Statement (.granuleZeroed e) := fun h => of_wf h

theorem shutterClose (e : Ev) (unit : ShutUnit) : Statement (.shutterClose e unit) := fun h => of_wf (left h)

theorem shutterDrainTimeout (e : Ev) (unit : ShutUnit) : Statement (.shutterDrainTimeout e unit) := fun h => of_wf (left h)

theorem shutDoorRefusal (e : Ev) (unit : ShutUnit) (who : Master) : Statement (.shutDoorRefusal e unit who) := fun h => of_wf (left (left h))

theorem groupReopenDone (e : Ev) (g : Nat) : Statement (.groupReopenDone e g) := fun h => of_wf (left h)

theorem modelLoadDone (e : Ev) (key : Nat) (vdi : Nat) : Statement (.modelLoadDone e key vdi) := fun h => of_wf (left (left h))

theorem longPacket (e : Ev) (rx : Nat) (vc : Nat) (dt : Nat) (px : List Nat) (crcOk : Bool) (corrected : Bool) : Statement (.longPacket e rx vc dt px crcOk corrected) := fun h => of_wf (left (left (left h)))

theorem frameStart (e : Ev) (hd : RxHdr) (vc : Nat) (frameNo : Nat) : Statement (.frameStart e hd vc frameNo) := fun h => of_wf (left (left (left h)))

theorem frameEnd (e : Ev) (hd : RxHdr) (vc : Nat) : Statement (.frameEnd e hd vc) := fun h => of_wf (left (left h))

theorem frameCloseTimeout (e : Ev) (slot : Nat) : Statement (.frameCloseTimeout e slot) := fun h => of_wf (left h)

theorem embeddedDataLine (e : Ev) (hd : RxHdr) (vc : Nat) (line : EmbLine) : Statement (.embeddedDataLine e hd vc line) := fun h => of_wf (left (left h))

theorem channelResultDelivered (e : Ev) (n : Nat) : Statement (.channelResultDelivered e n) := fun h => of_wf (left h)

theorem roundDueTime (e : Ev) (task : Nat) (round : Nat) : Statement (.roundDueTime e task round) := fun h => of_wf (left (left h))

theorem tallyJudgement (e : Ev) (task : Nat) (round : Nat) : Statement (.tallyJudgement e task round) := fun h => of_wf (left (left h))

theorem verdictExchange (e : Ev) (task : Nat) (round : Nat) (v : Verdict) : Statement (.verdictExchange e task round v) := fun h => of_wf (left (left (left h)))

theorem verdictExchangeTimeout (e : Ev) (task : Nat) (round : Nat) : Statement (.verdictExchangeTimeout e task round) := fun h => of_wf (left (left h))

theorem lateResultDiscard (e : Ev) (task : Nat) (round : Nat) : Statement (.lateResultDiscard e task round) := fun h => of_wf (left (left h))

theorem locatingSearchStep (e : Ev) (task : Nat) : Statement (.locatingSearchStep e task) := fun h => of_wf (left h)

theorem assayDue (e : Ev) (task : Nat) (ch : Nat) : Statement (.assayDue e task ch) := fun h => of_wf (left (left h))

theorem assayVerdict (e : Ev) (task : Nat) (round : Nat) : Statement (.assayVerdict e task round) := fun h => of_wf (left (left h))

theorem auditDue (e : Ev) : Statement (.auditDue e) := fun h => of_wf h

theorem auditDone (e : Ev) (p : Nat) (fail : Bool) (block : Nat) : Statement (.auditDone e p fail block) := fun h => of_wf (left (left h))

theorem auditOverdue (e : Ev) (p : Nat) : Statement (.auditOverdue e p) := fun h => of_wf (left h)

theorem dutyHandover (e : Ev) (p : Nat) : Statement (.dutyHandover e p) := fun h => of_wf (left h)

theorem degradedEntry (e : Ev) (cause : LossCause) : Statement (.degradedEntry e cause) := fun h => of_wf h

theorem serrHbCheck (e : Ev) (toggling : Bool) : Statement (.serrHbCheck e toggling) := fun h => of_wf h

theorem yieldHalf (e : Ev) : Statement (.yieldHalf e) := fun h => of_wf h

theorem flitReceive (e : Ev) (module : Nat) (ok : Bool) (corrected : Bool) (seq : Nat) (tail : FlitEnd) : Statement (.flitReceive e module ok corrected seq tail) := fun h => of_wf (left (left (left h)))

theorem hatchLaneRepair (e : Ev) (module : Nat) (lane : Nat) : Statement (.hatchLaneRepair e module lane) := fun h => of_wf (left (left h))

theorem hatchModuleFailover (e : Ev) (module : Nat) : Statement (.hatchModuleFailover e module) := fun h => of_wf (left h)

theorem hatchLinkLoss (e : Ev) : Statement (.hatchLinkLoss e) := fun h => of_wf h

theorem hatchLinkTraining (e : Ev) (peerRelease : Nat) (ok : Bool) : Statement (.hatchLinkTraining e peerRelease ok) := fun h => of_wf (left h)

theorem hatchViolation (e : Ev) (code : Nat) (type : Nat) (tag : Nat) : Statement (.hatchViolation e code type tag) := fun h => of_wf (left (left (left h)))

theorem mWrite (e : Ev) (k : Pkt) (addr : Nat) (data : List Byte) : Statement (.mWrite e k addr data) := fun h => of_wf (left (left h))

theorem mRead (e : Ev) (k : Pkt) (addr : Nat) (len : Nat) : Statement (.mRead e k addr len) := fun h => of_wf (left (left (left h)))

theorem amo (e : Ev) (k : Pkt) (op : AmoOp) (addr : Nat) (width : Nat) (val : Nat) : Statement (.amo e k op addr width val) := fun h => of_wf (left (left (left (left h))))

theorem loadReserved (e : Ev) (k : Pkt) (hart : Nat) (addr : Nat) (width : Nat) : Statement (.loadReserved e k hart addr width) := fun h => of_wf (left (left (left (left h))))

theorem storeConditional (e : Ev) (k : Pkt) (hart : Nat) (addr : Nat) (width : Nat) (val : Nat) : Statement (.storeConditional e k hart addr width val) := fun h => of_wf (left (left (left (left (left h)))))

theorem semaphoreEntryExpiry (e : Ev) (idx : Nat) : Statement (.semaphoreEntryExpiry e idx) := fun h => of_wf (left h)

theorem cpl (e : Ev) (tag : Nat) (data : List Byte) : Statement (.cpl e tag data) := fun h => of_wf (left h)

theorem cplSt (e : Ev) (tag : Nat) (st : Status) : Statement (.cplSt e tag st) := fun h => of_wf (left h)

theorem resWr (e : Ev) (addr : Nat) (data : List Byte) : Statement (.resWr e addr data) := fun h => of_wf (left h)

theorem msgInterrupt (e : Ev) (x : MsgH) (hart : Nat) (ident : Nat) : Statement (.msgInterrupt e x hart ident) := fun h => of_wf (left (left (left h)))

theorem msgQueueCompletionIrq (e : Ev) (x : MsgH) (q : Nat) : Statement (.msgQueueCompletionIrq e x q) := fun h => of_wf (left (left h))

theorem msgRemoteWatchRequest (e : Ev) (x : MsgH) (q : Nat) (gen : Nat) (idx : Nat) (addr : Nat) (val : Nat) : Statement (.msgRemoteWatchRequest e x q gen idx addr val) := fun h => of_wf (left (left (left (left (left (left h))))))

theorem msgRemoteWatchReply (e : Ev) (x : MsgH) (q : Nat) (gen : Nat) (idx : Nat) : Statement (.msgRemoteWatchReply e x q gen idx) := fun h => of_wf (left (left (left (left h))))

theorem msgGatewayFrame (e : Ev) (x : MsgH) (f : Frame) (dst : Nat) : Statement (.msgGatewayFrame e x f dst) := fun h => of_wf (left (left (left h)))

theorem msgControlRelay (e : Ev) (x : MsgH) (frag : List Byte) : Statement (.msgControlRelay e x frag) := fun h => of_wf (left h)

theorem resMsgResult (e : Ev) (x : MsgH) (task : Nat) (ch : Nat) (round : Nat) (st : Status) : Statement (.resMsgResult e x task ch round st) := fun h => of_wf (left (left (left (left h))))

theorem resMsgVerdict (e : Ev) (x : MsgH) (task : Nat) (round : Nat) (v : Verdict) : Statement (.resMsgVerdict e x task round v) := fun h => of_wf (left (left (left (left h))))

theorem vtCompare (e : Ev) (x : MsgH) (peerVt : Nat) : Statement (.vtCompare e x peerVt) := fun h => of_wf (left (left h))

theorem resMsgGoingDown (e : Ev) (x : MsgH) (kind : Nat) (reason : Nat) (vt : Nat) : Statement (.resMsgGoingDown e x kind reason vt) := fun h => of_wf (left (left (left (left h))))

theorem resMsgGatehouseState (e : Ev) (x : MsgH) (st : GhState) : Statement (.resMsgGatehouseState e x st) := fun h => of_wf (left h)

theorem resMsgRepairNotice (e : Ev) (x : MsgH) (release : Nat) : Statement (.resMsgRepairNotice e x release) := fun h => of_wf (left (left h))

theorem canFrameReceive (e : Ev) (bus : Nat) (f : Frame) : Statement (.canFrameReceive e bus f) := fun h => of_wf (left (left h))

theorem streamIngress (e : Ev) (slot : Nat) (seqNum : Nat) (msgs : List AcfMsg) : Statement (.streamIngress e slot seqNum msgs) := fun h => of_wf (left (left h))

theorem streamEgressHoldExpiry (e : Ev) (slot : Nat) : Statement (.streamEgressHoldExpiry e slot) := fun h => of_wf (left h)

theorem gatewayQueueDoorbell (e : Ev) (gq : Nat) (f : Frame) : Statement (.gatewayQueueDoorbell e gq f) := fun h => of_wf (left (left h))

theorem busOffRecovery (e : Ev) (ctrl : Nat) : Statement (.busOffRecovery e ctrl) := fun h => of_wf (left h)

theorem hello (e : Ev) (partner : Nat) (seq : Nat) (pid : Nat) : Statement (.hello e partner seq pid) := fun h => of_wf (left (left (left h)))

theorem mailbox (e : Ev) (hd : FrameHdr) (msgs : List MsgHead) : Statement (.mailbox e hd msgs) := fun h => of_wf (left h)

theorem regRead (e : Ev) (hd : FrameHdr) (vdi : Nat) (off : Nat) (count : Nat) : Statement (.regRead e hd vdi off count) := fun h => of_wf (left (left (left (left h))))

theorem regWrite (e : Ev) (hd : FrameHdr) (vdi : Nat) (off : Nat) (vals : List Nat) : Statement (.regWrite e hd vdi off vals) := fun h => of_wf (left (left (left h)))

theorem dataWrite (e : Ev) (hd : FrameHdr) (off : Nat) (data : List Byte) : Statement (.dataWrite e hd off data) := fun h => of_wf (left (left h))

theorem dataRead (e : Ev) (hd : FrameHdr) (off : Nat) (len : Nat) : Statement (.dataRead e hd off len) := fun h => of_wf (left (left (left h)))

theorem ringFrame (e : Ev) (hd : FrameHdr) (index : Nat) (slots : List Nat) : Statement (.ringFrame e hd index slots) := fun h => of_wf (left (left h))

theorem peerWatch (e : Ev) (src : Nat) (q : Nat) (gen : Nat) (idx : Nat) (addr : Nat) (val : Nat) (rpeer : Nat) : Statement (.peerWatch e src q gen idx addr val rpeer) := fun h => of_wf (left (left (left (left (left (left (left h)))))))

theorem peerReply (e : Ev) (src : Nat) (q : Nat) (gen : Nat) (idx : Nat) : Statement (.peerReply e src q gen idx) := fun h => of_wf (left (left (left (left h))))

theorem malformedFrame (e : Ev) (partner : Nat) (kind : BadFrame) : Statement (.malformedFrame e partner kind) := fun h => of_wf (left h)

theorem malformedBlockExpiry (e : Ev) (partner : Nat) : Statement (.malformedBlockExpiry e partner) := fun h => of_wf (left h)

theorem sessionIdleTimeout (e : Ev) (partner : Nat) : Statement (.sessionIdleTimeout e partner) := fun h => of_wf (left h)

theorem heartbeat (e : Ev) : Statement (.heartbeat e) := fun h => of_wf h

theorem latchLeaseExpiry (e : Ev) : Statement (.latchLeaseExpiry e) := fun h => of_wf h

theorem controlPortRetire (e : Ev) (selfTestFail : Bool) : Statement (.controlPortRetire e selfTestFail) := fun h => of_wf h

theorem latchTake (e : Ev) (m : Msg) (pid : Nat) : Statement (.latchTake e m pid) := fun h => of_wf (left (left h))

theorem latchRenew (e : Ev) (m : Msg) : Statement (.latchRenew e m) := fun h => of_wf (left h)

theorem latchRelease (e : Ev) (m : Msg) : Statement (.latchRelease e m) := fun h => of_wf (left h)

theorem latchQuery (e : Ev) (m : Msg) : Statement (.latchQuery e m) := fun h => of_wf (left h)

theorem devInfo (e : Ev) (m : Msg) : Statement (.devInfo e m) := fun h => of_wf (left h)

theorem statsRead (e : Ev) (m : Msg) (block : Nat) (clear : Bool) (unit : Nat) (reg : Nat) (index : Nat) (count : Nat) : Statement (.statsRead e m block clear unit reg index count) := fun h => of_wf (left (left (left (left (left (left h))))))

theorem incidentRead (e : Ev) (m : Msg) (first : Nat) (count : Nat) (dst : Nat) : Statement (.incidentRead e m first count dst) := fun h => of_wf (left (left (left (left h))))

theorem accountRead (e : Ev) (m : Msg) (ctx : Nat) (dst : Nat) : Statement (.accountRead e m ctx dst) := fun h => of_wf (left (left (left h)))

theorem winWrite (e : Ev) (m : Msg) (first : Nat) (count : Nat) (src : Nat) : Statement (.winWrite e m first count src) := fun h => of_wf (left (left (left (left h))))

theorem winActivate (e : Ev) (m : Msg) (vt : Nat) (standby : Bool) : Statement (.winActivate e m vt standby) := fun h => of_wf (left (left h))

theorem winFrame (e : Ev) (m : Msg) (length : Nat) (phase : Nat) : Statement (.winFrame e m length phase) := fun h => of_wf (left (left (left h)))

theorem partWrite (e : Ev) (m : Msg) (part : Nat) (cfg : Nat) (cores : Nat) : Statement (.partWrite e m part cfg cores) := fun h => of_wf (left (left (left (left h))))

theorem taskWrite (e : Ev) (m : Msg) (task : Nat) (src : Nat) : Statement (.taskWrite e m task src) := fun h => of_wf (left (left (left h)))

theorem tlyCfg (e : Ev) (m : Msg) (base : Nat) (staging : Nat) (audit : Nat) (enable : Bool) : Statement (.tlyCfg e m base staging audit enable) := fun h => of_wf (left (left (left (left h))))

theorem winEnableSet (e : Ev) (m : Msg) (vt : Nat) : Statement (.winEnableSet e m vt) := fun h => of_wf (left (left h))

theorem winEnableClear (e : Ev) (m : Msg) : Statement (.winEnableClear e m) := fun h => of_wf (left h)

theorem mntShadow (e : Ev) (m : Msg) (cls : Nat) (cfg : Nat) (ports : Nat) : Statement (.mntShadow e m cls cfg ports) := fun h => of_wf (left (left (left (left h))))

theorem mntCommit (e : Ev) (m : Msg) : Statement (.mntCommit e m) := fun h => of_wf (left h)

theorem mntFb (e : Ev) (m : Msg) (cfg : Nat) : Statement (.mntFb e m cfg) := fun h => of_wf (left (left h))

theorem strAlloc (e : Ev) (m : Msg) (count : Nat) (group : Nat) : Statement (.strAlloc e m count group) := fun h => of_wf (left (left (left h)))

theorem strFree (e : Ev) (m : Msg) (off : Nat) (count : Nat) : Statement (.strFree e m off count) := fun h => of_wf (left (left (left h)))

theorem cacheSize (e : Ev) (m : Msg) (count : Nat) : Statement (.cacheSize e m count) := fun h => of_wf (left (left h))

theorem modelLoad (e : Ev) (m : Msg) (key : Nat) (src : Nat) (size : Nat) : Statement (.modelLoad e m key src size) := fun h => of_wf (left (left (left (left h))))

theorem modelPin (e : Ev) (m : Msg) (key : Nat) : Statement (.modelPin e m key) := fun h => of_wf (left (left h))

theorem modelUnpin (e : Ev) (m : Msg) (key : Nat) : Statement (.modelUnpin e m key) := fun h => of_wf (left (left h))

theorem strPatrol (e : Ev) (m : Msg) (enable : Bool) : Statement (.strPatrol e m enable) := fun h => of_wf (left h)

theorem rxCfg (e : Ev) (m : Msg) (rx : Nat) (cfg : Nat) : Statement (.rxCfg e m rx cfg) := fun h => of_wf (left (left (left h)))

theorem streamCfg (e : Ev) (m : Msg) (slot : Nat) (src : Nat) : Statement (.streamCfg e m slot src) := fun h => of_wf (left (left (left h)))

theorem routeWrite (e : Ev) (m : Msg) (count : Nat) (src : Nat) : Statement (.routeWrite e m count src) := fun h => of_wf (left (left (left h)))

theorem routeDelete (e : Ev) (m : Msg) (count : Nat) (src : Nat) : Statement (.routeDelete e m count src) := fun h => of_wf (left (left (left h)))

theorem fanoutWrite (e : Ev) (m : Msg) (first : Nat) (count : Nat) (src : Nat) : Statement (.fanoutWrite e m first count src) := fun h => of_wf (left (left (left (left h))))

theorem gtwCfg (e : Ev) (m : Msg) (ctl : Nat) (ovf : Nat) : Statement (.gtwCfg e m ctl ovf) := fun h => of_wf (left (left (left h)))

theorem slotCfg (e : Ev) (m : Msg) (slot : Nat) (src : Nat) : Statement (.slotCfg e m slot src) := fun h => of_wf (left (left (left h)))

theorem portCfg (e : Ev) (m : Msg) (udp : Nat) (ip4 : Nat) (pfx4 : Nat) (pfx6 : Nat) (ip6 : Nat) : Statement (.portCfg e m udp ip4 pfx4 pfx6 ip6) := fun h => of_wf (left (left (left (left (left (left h))))))

theorem qbvWrite (e : Ev) (m : Msg) (port : Nat) (count : Nat) (cycle : Nat) (base : Nat) (src : Nat) : Statement (.qbvWrite e m port count cycle base src) := fun h => of_wf (left (left (left (left (left (left h))))))

theorem peerFenceWrite (e : Ev) (m : Msg) (first : Nat) (count : Nat) (src : Nat) : Statement (.peerFenceWrite e m first count src) := fun h => of_wf (left (left (left (left h))))

theorem peerListWrite (e : Ev) (m : Msg) (first : Nat) (count : Nat) (src : Nat) : Statement (.peerListWrite e m first count src) := fun h => of_wf (left (left (left (left h))))

theorem vdiCreate (e : Ev) (m : Msg) (vdi : Nat) (profile : Nat) (mark : Nat) (src : Nat) : Statement (.vdiCreate e m vdi profile mark src) := fun h => of_wf (left (left (left (left (left h)))))

theorem vdiReset (e : Ev) (m : Msg) : Statement (.vdiReset e m) := fun h => of_wf (left h)

theorem vdiRemove (e : Ev) (m : Msg) (vdi : Nat) : Statement (.vdiRemove e m vdi) := fun h => of_wf (left (left h))

theorem logStart (e : Ev) (m : Msg) (vdi : Nat) (src : Nat) : Statement (.logStart e m vdi src) := fun h => of_wf (left (left (left h)))

theorem logSwap (e : Ev) (m : Msg) (vdi : Nat) : Statement (.logSwap e m vdi) := fun h => of_wf (left (left h))

theorem quiesce (e : Ev) (m : Msg) (vdi : Nat) : Statement (.quiesce e m vdi) := fun h => of_wf (left (left h))

theorem exportImage (e : Ev) (m : Msg) (vdi : Nat) (src : Nat) : Statement (.exportImage e m vdi src) := fun h => of_wf (left (left (left h)))

theorem importImage (e : Ev) (m : Msg) (vdi : Nat) (src : Nat) : Statement (.importImage e m vdi src) := fun h => of_wf (left (left (left h)))

theorem resumeVdi (e : Ev) (m : Msg) (vdi : Nat) : Statement (.resumeVdi e m vdi) := fun h => of_wf (left (left h))

theorem abortMigration (e : Ev) (m : Msg) (vdi : Nat) : Statement (.abortMigration e m vdi) := fun h => of_wf (left (left h))

theorem releaseVdi (e : Ev) (m : Msg) (vdi : Nat) : Statement (.releaseVdi e m vdi) := fun h => of_wf (left (left h))

theorem ctxWrite (e : Ev) (m : Msg) (ctx : Nat) (src : Nat) : Statement (.ctxWrite e m ctx src) := fun h => of_wf (left (left (left h)))

theorem queueWrite (e : Ev) (m : Msg) (q : Nat) (src : Nat) : Statement (.queueWrite e m q src) := fun h => of_wf (left (left (left h)))

theorem queueEnable (e : Ev) (m : Msg) (q : Nat) : Statement (.queueEnable e m q) := fun h => of_wf (left (left h))

theorem queueSuspend (e : Ev) (m : Msg) (q : Nat) : Statement (.queueSuspend e m q) := fun h => of_wf (left (left h))

theorem queueResume (e : Ev) (m : Msg) (q : Nat) : Statement (.queueResume e m q) := fun h => of_wf (left (left h))

theorem queueDisable (e : Ev) (m : Msg) (q : Nat) : Statement (.queueDisable e m q) := fun h => of_wf (left (left h))

theorem lateArrivalDiscard (e : Ev) (q : Nat) (gen : Nat) : Statement (.lateArrivalDiscard e q gen) := fun h => of_wf (left (left h))

theorem svcRead (e : Ev) (m : Msg) (off : Nat) (bytes : Nat) (dst : Nat) : Statement (.svcRead e m off bytes dst) := fun h => of_wf (left (left (left (left h))))

theorem svcRebuild (e : Ev) (m : Msg) (badCores : List Nat) (badBanks : List Nat) : Statement (.svcRebuild e m badCores badBanks) := fun h => of_wf (left h)

theorem portRestore (e : Ev) (m : Msg) (passes : Bool) : Statement (.portRestore e m passes) := fun h => of_wf (left h)

theorem halfRestartH (e : Ev) (m : Msg) (half : Nat) : Statement (.halfRestartH e m half) := fun h => of_wf (left (left h))

theorem halfRestartM (e : Ev) (m : Msg) (half : Nat) : Statement (.halfRestartM e m half) := fun h => of_wf (left (left h))

theorem fwWrite (e : Ev) (m : Msg) (off : Nat) (bytes : Nat) (src : Nat) : Statement (.fwWrite e m off bytes src) := fun h => of_wf (left (left (left (left h))))

theorem fwActivate (e : Ev) (m : Msg) (mask : Nat) : Statement (.fwActivate e m mask) := fun h => of_wf (left (left h))

theorem fwCommit (e : Ev) (m : Msg) : Statement (.fwCommit e m) := fun h => of_wf (left h)

theorem fwWithdraw (e : Ev) (m : Msg) : Statement (.fwWithdraw e m) := fun h => of_wf (left h)

theorem attest (e : Ev) (m : Msg) (nonce : Nat) (dst : Nat) : Statement (.attest e m nonce dst) := fun h => of_wf (left (left (left h)))

theorem dspCfgPipe (e : Ev) (m : Msg) (pipe : Nat) (src : Nat) : Statement (.dspCfgPipe e m pipe src) := fun h => of_wf (left (left (left h)))

theorem dspCfgTelltale (e : Ev) (m : Msg) (pipe : Nat) (src : Nat) : Statement (.dspCfgTelltale e m pipe src) := fun h => of_wf (left (left (left h)))

theorem powerReqRun (e : Ev) (m : Msg) : Statement (.powerReqRun e m) := fun h => of_wf (left h)

theorem powerReqPark (e : Ev) (m : Msg) : Statement (.powerReqPark e m) := fun h => of_wf (left h)

theorem powerReqSleep (e : Ev) (m : Msg) : Statement (.powerReqSleep e m) := fun h => of_wf (left h)

theorem unknownOpcode (e : Ev) (m : Msg) (opcode : Nat) : Statement (.unknownOpcode e m opcode) := fun h => of_wf (left (left h))

theorem telMbxGo (e : Ev) (vdi : Nat) : Statement (.telMbxGo e vdi) := fun h => of_wf (left h)

theorem tellerMailboxReply (e : Ev) (vdi : Nat) : Statement (.tellerMailboxReply e vdi) := fun h => of_wf (left h)

theorem reqTailWrite (e : Ev) (pair : Nat) (tail : Nat) : Statement (.reqTailWrite e pair tail) := fun h => of_wf (left (left h))

theorem registerWrite (e : Ev) (who : Master) (reg : Reg) (unit : Nat) (index : Nat) (word : Nat) (val : Nat) : Statement (.registerWrite e who reg unit index word val) := fun h => of_wf (left (left (left (left (left h)))))

theorem render (e : Ev) (q : Nat) (run : RenderRun) : Statement (.render e q run) := fun h => of_wf (left (left h))

theorem verticalBlank (e : Ev) (pipe : Nat) (nextS : Nat) : Statement (.verticalBlank e pipe nextS) := fun h => of_wf (left (left h))

theorem telltaleCrcCompare (e : Ev) (pipe : Nat) (crcs : List SlotCrc) : Statement (.telltaleCrcCompare e pipe crcs) := fun h => of_wf (left h)

theorem dramReadEcc (e : Ev) (pc : Nat) (bank : Nat) (row : Nat) (unc : Bool) : Statement (.dramReadEcc e pc bank row unc) := fun h => of_wf (left (left (left h)))

theorem rowRemap (e : Ev) (pc : Nat) (bank : Nat) (row : Nat) (lost : Nat) : Statement (.rowRemap e pc bank row lost) := fun h => of_wf (left (left (left (left h))))

theorem ecsScrub (e : Ev) (pc : Nat) (bank : Nat) (row : Nat) : Statement (.ecsScrub e pc bank row) := fun h => of_wf (left (left (left h)))

theorem pseudoChannelRetire (e : Ev) (idx : Nat) (training : Bool) : Statement (.pseudoChannelRetire e idx training) := fun h => of_wf (left h)

theorem stackThrottle (e : Ev) (stack : Nat) (level : Nat) : Statement (.stackThrottle e stack level) := fun h => of_wf (left (left h))

theorem guaranteeMiss (e : Ev) (port : Nat) (cls : Nat) : Statement (.guaranteeMiss e port cls) := fun h => of_wf (left (left h))

theorem portRequestHeldRelease (e : Ev) (port : Nat) (cls : Nat) (to_ : DramReq) (bytes : Nat) (write : Bool) : Statement (.portRequestHeldRelease e port cls to_ bytes write) := fun h => of_wf (left (left (left (left h))))

theorem serviceRecordWriteDone (e : Ev) (ok : Bool) : Statement (.serviceRecordWriteDone e ok) := fun h => of_wf h

theorem serviceRecordLoad (e : Ev) (ok0 : Bool) (ok1 : Bool) : Statement (.serviceRecordLoad e ok0 ok1) := fun h => of_wf h

theorem bootSlotFailure (e : Ev) (slot : Nat) : Statement (.bootSlotFailure e slot) := fun h => of_wf (left h)

theorem trialBootConfirm (e : Ev) : Statement (.trialBootConfirm e) := fun h => of_wf h

theorem configStoreApply (e : Ev) (bad : List Nat) : Statement (.configStoreApply e bad) := fun h => of_wf h

theorem soakTimer (e : Ev) : Statement (.soakTimer e) := fun h => of_wf h

theorem vtServoStep (e : Ev) (ev : ServoEv) : Statement (.vtServoStep e ev) := fun h => of_wf h

theorem vtDeviationIncident (e : Ev) (devNs : Int) : Statement (.vtDeviationIncident e devNs) := fun h => of_wf h

theorem doorCall (e : Ev) (hart : Nat) (vault : Nat) (entry : Nat) (save : HartSave) : Statement (.doorCall e hart vault entry save) := fun h => of_wf (left (left (left (left h))))

theorem doorRet (e : Ev) (hart : Nat) (a0 : Nat) (a1 : Nat) : Statement (.doorRet e hart a0 a1) := fun h => of_wf (left (left (left h)))

theorem doorCreate (e : Ev) (hart : Nat) (mode : Priv) (addr : Nat) : Statement (.doorCreate e hart mode addr) := fun h => of_wf (left (left h))

theorem vaultSealDone (e : Ev) (vault : Nat) : Statement (.vaultSealDone e vault) := fun h => of_wf (left h)

theorem doorDestroy (e : Ev) (hart : Nat) (mode : Priv) (vault : Nat) : Statement (.doorDestroy e hart mode vault) := fun h => of_wf (left (left h))

theorem vaultDestroyDone (e : Ev) (vault : Nat) : Statement (.vaultDestroyDone e vault) := fun h => of_wf (left h)

theorem doorSubmit (e : Ev) (hart : Nat) (addr : Nat) : Statement (.doorSubmit e hart addr) := fun h => of_wf (left (left h))

theorem doorClaim (e : Ev) (hart : Nat) (code : Nat) : Statement (.doorClaim e hart code) := fun h => of_wf (left (left h))

theorem doorRelease (e : Ev) (hart : Nat) (code : Nat) : Statement (.doorRelease e hart code) := fun h => of_wf (left (left h))

theorem doorKey (e : Ev) (hart : Nat) (addr : Nat) (label : Nat) : Statement (.doorKey e hart addr label) := fun h => of_wf (left (left (left h)))

theorem vaultQuantumExpiry (e : Ev) (hart : Nat) : Statement (.vaultQuantumExpiry e hart) := fun h => of_wf (left h)

theorem vaultException (e : Ev) (hart : Nat) (cause : Nat) : Statement (.vaultException e hart cause) := fun h => of_wf (left (left h))

theorem secureInterrupt (e : Ev) (hart : Nat) (ident : Nat) (save : HartSave) : Statement (.secureInterrupt e hart ident save) := fun h => of_wf (left (left (left h)))

theorem vaultFilterRefusal (e : Ev) (vault : Nat) (who : Master) : Statement (.vaultFilterRefusal e vault who) := fun h => of_wf (left (left h))

theorem pufReconstruction (e : Ev) (ok : Bool) : Statement (.pufReconstruction e ok) := fun h => of_wf h

theorem debugUnlock (e : Ev) (record : Nat) : Statement (.debugUnlock e record) := fun h => of_wf (left h)

theorem fabricOutOfRange (e : Ev) (who : Master) (addr : Nat) : Statement (.fabricOutOfRange e who addr) := fun h => of_wf (left (left h))

theorem windowEnableFrameStart (e : Ev) : Statement (.windowEnableFrameStart e) := fun h => of_wf h

theorem gatehouseResetDone (e : Ev) : Statement (.gatehouseResetDone e) := fun h => of_wf h

theorem semaphoreEntrySteal (e : Ev) (k : Pkt) (hart : Nat) (addr : Nat) (width : Nat) : Statement (.semaphoreEntrySteal e k hart addr width) := fun h => of_wf (left (left (left (left h))))

theorem uncorrectableHeader (e : Ev) (rx : Nat) : Statement (.uncorrectableHeader e rx) := fun h => of_wf (left h)

theorem canBusOff (e : Ev) (ctrl : Nat) : Statement (.canBusOff e ctrl) := fun h => of_wf (left h)

theorem qbvListSwap (e : Ev) (port : Nat) : Statement (.qbvListSwap e port) := fun h => of_wf (left h)

theorem repHeadWrite (e : Ev) (pair : Nat) (head : Nat) : Statement (.repHeadWrite e pair head) := fun h => of_wf (left (left h))

theorem mkaFrame (e : Ev) (partner : Nat) (ok : Bool) : Statement (.mkaFrame e partner ok) := fun h => of_wf (left h)

theorem controlPortLinkLoss (e : Ev) (ms : Nat) : Statement (.controlPortLinkLoss e ms) := fun h => of_wf (left h)

theorem displayLinkChange (e : Ev) (pipe : Nat) (up : Bool) : Statement (.displayLinkChange e pipe up) := fun h => of_wf (left h)

theorem serrHbToggle (e : Ev) : Statement (.serrHbToggle e) := fun h => of_wf h

end Sys2Proof.Laws.Event
end

