-- ==== Sys2Proof/Laws/Runs.lean ====
section
/-! SUPPORT. Every command's meaning answers a next state, and from the state with the elapsed time added it keeps what `Same` names. -/
namespace Sys2Proof.Machine

/-- An outcome that is a next state which keeps what `Same` names. -/
def Runs (r : State) (o : Host.Outcome State Fault Refusal) : Prop := ∃ t, o = .next t ∧ Same r t

variable {r₀ : State}

theorem Runs.next {s : State} (h : Same r₀ s) : Runs r₀ (.next s) := ⟨s, rfl, h⟩

theorem Runs.ite {c : Prop} [Decidable c] {a b : Host.Outcome State Fault Refusal} (ha : Runs r₀ a) (hb : Runs r₀ b) : Runs r₀ (if c then a else b) := by
  split
  · exact ha
  · exact hb

theorem Runs.execPowerGoodRise (e : Ev) (s0 : State) : Runs (tick e s0) (execPowerGoodRise e s0) := by
  unfold Sys2Proof.Machine.execPowerGoodRise
  have h₀ := Same.refl (tick e s0)
  generalize tick e s0 = r₁ at h₀ ⊢
  repeat' first
    | intro _ | with_reducible first | assumption | apply Runs.next | apply Same.powerReset | apply Same.setGood | apply Same.sleepExit
    | fail_if_no_progress with_reducible apply Same.fields | with_reducible first | apply Runs.ite | refine Same.of_snd (by assumption) ?_ | refine Same.of_fst (by assumption) ?_ | apply Same.ite

theorem Runs.execPowerGoodFall (e : Ev) (s0 : State) : Runs (tick e s0) (execPowerGoodFall e s0) := by
  unfold Sys2Proof.Machine.execPowerGoodFall
  have h₀ := Same.refl (tick e s0)
  generalize tick e s0 = r₁ at h₀ ⊢
  repeat' first
    | intro _ | with_reducible first | assumption | apply Runs.next | apply Same.powerReset | apply Same.setGood
    | fail_if_no_progress with_reducible apply Same.fields | with_reducible first | apply Runs.ite

theorem Runs.execPwrgoodMismatchTimeout (e : Ev) (s0 : State) : Runs (tick e s0) (execPwrgoodMismatchTimeout e s0) := by
  unfold Sys2Proof.Machine.execPwrgoodMismatchTimeout
  have h₀ := Same.refl (tick e s0)
  generalize tick e s0 = r₁ at h₀ ⊢
  repeat' first
    | intro _ | with_reducible first | assumption | apply Runs.next | apply Same.powerReset | apply Same.upd
    | fail_if_no_progress with_reducible apply Same.fields | with_reducible first | apply Runs.ite

theorem Runs.execResetNLow (e : Ev) (ns : Nat) (s0 : State) : Runs (tick e s0) (execResetNLow e ns s0) := by
  unfold Sys2Proof.Machine.execResetNLow
  have h₀ := Same.refl (tick e s0)
  generalize tick e s0 = r₁ at h₀ ⊢
  repeat' first
    | intro _ | with_reducible first | assumption | apply Runs.next | apply Same.draw | apply Same.resetPackage | apply Same.upd
    | fail_if_no_progress with_reducible apply Same.fields | with_reducible first | apply Runs.ite | refine Same.of_snd (by assumption) ?_ | refine Same.of_fst (by assumption) ?_ | apply Same.ite

theorem Runs.execResetNRelease (e : Ev) (s0 : State) : Runs (tick e s0) (execResetNRelease e s0) := by
  unfold Sys2Proof.Machine.execResetNRelease
  have h₀ := Same.refl (tick e s0)
  generalize tick e s0 = r₁ at h₀ ⊢
  repeat' first
    | intro _ | with_reducible first | assumption | apply Runs.next | apply Same.upd
    | fail_if_no_progress with_reducible apply Same.fields | with_reducible first | apply Runs.ite

theorem Runs.execCrystalJudgedStable (e : Ev) (s0 : State) : Runs (tick e s0) (execCrystalJudgedStable e s0) := by
  unfold Sys2Proof.Machine.execCrystalJudgedStable
  have h₀ := Same.refl (tick e s0)
  generalize tick e s0 = r₁ at h₀ ⊢
  repeat' first
    | intro _ | with_reducible first | assumption | apply Runs.next | apply Same.upd
    | with_reducible first | apply Runs.ite

theorem Runs.execCrystalStartTimeout (e : Ev) (s0 : State) : Runs (tick e s0) (execCrystalStartTimeout e s0) := by
  unfold Sys2Proof.Machine.execCrystalStartTimeout
  have h₀ := Same.refl (tick e s0)
  generalize tick e s0 = r₁ at h₀ ⊢
  repeat' first
    | intro _ | with_reducible first | assumption | apply Runs.next | apply Same.upd
    | with_reducible first | apply Runs.ite

theorem Runs.execPllJudgedLocked (e : Ev) (s0 : State) : Runs (tick e s0) (execPllJudgedLocked e s0) := by
  unfold Sys2Proof.Machine.execPllJudgedLocked
  have h₀ := Same.refl (tick e s0)
  generalize tick e s0 = r₁ at h₀ ⊢
  repeat' first
    | intro _ | with_reducible first | assumption | apply Runs.next | apply Same.bootFirmware | apply Same.upd
    | with_reducible first | apply Runs.ite

theorem Runs.execClockMonitorFailure (e : Ev) (fails : List ClkFail) (s0 : State) : Runs (tick e s0) (execClockMonitorFailure e fails s0) := by
  unfold Sys2Proof.Machine.execClockMonitorFailure
  have h₀ := Same.refl (tick e s0)
  generalize tick e s0 = r₁ at h₀ ⊢
  repeat' first
    | intro _ | with_reducible first | assumption | apply Runs.next | apply Same.incident | apply Same.resetClk | apply Same.resetHalf
      | apply Same.upd
    | fail_if_no_progress with_reducible apply Same.fields | with_reducible first | apply Runs.ite | refine Same.foldl _ _ (fun _ _ _ => ?_) ?_ | refine Same.foldl_fst _ _ _ (fun _ _ _ => ?_) ?_ | refine Same.foldl_snd _ _ _ (fun _ _ _ => ?_) ?_ | refine Same.of_snd (by assumption) ?_ | refine Same.of_fst (by assumption) ?_ | apply Same.ite

theorem Runs.execRcOscillatorCheck (e : Ev) (ppm : Nat) (s0 : State) : Runs (tick e s0) (execRcOscillatorCheck e ppm s0) := by
  unfold Sys2Proof.Machine.execRcOscillatorCheck
  have h₀ := Same.refl (tick e s0)
  generalize tick e s0 = r₁ at h₀ ⊢
  repeat' first
    | intro _ | with_reducible first | assumption | apply Runs.next | apply Same.askRestart | apply Same.incident | apply Same.upd
    | with_reducible first | apply Runs.ite

theorem Runs.execCoreDividerChange (e : Ev) (p div : Nat) (s0 : State) : Runs (tick e s0) (execCoreDividerChange e p div s0) := by
  unfold Sys2Proof.Machine.execCoreDividerChange
  have h₀ := Same.refl (tick e s0)
  generalize tick e s0 = r₁ at h₀ ⊢
  repeat' first
    | intro _ | with_reducible first | assumption | apply Runs.next | apply Same.setDiv | apply Same.upd
    | with_reducible first | apply Runs.ite

theorem Runs.execThermalSensorPoll (e : Ev) (temps : List Int) (s0 : State) : Runs (tick e s0) (execThermalSensorPoll e temps s0) := by
  unfold Sys2Proof.Machine.execThermalSensorPoll
  have h₀ := Same.refl (tick e s0)
  generalize tick e s0 = r₁ at h₀ ⊢
  repeat' first
    | intro _ | with_reducible first | assumption | apply Runs.next | apply Same.setHalf | apply Same.stageActions
    | with_reducible first | apply Runs.ite

theorem Runs.execTrimStepTimer (e : Ev) (s0 : State) : Runs (tick e s0) (execTrimStepTimer e s0) := by
  unfold Sys2Proof.Machine.execTrimStepTimer
  have h₀ := Same.refl (tick e s0)
  generalize tick e s0 = r₁ at h₀ ⊢
  repeat' first
    | intro _ | with_reducible first | assumption | apply Runs.next | apply Same.upd
    | with_reducible first | apply Runs.ite

theorem Runs.execThermalTrip (e : Ev) (src : TripSrc) (s0 : State) : Runs (tick e s0) (execThermalTrip e src s0) := by
  unfold Sys2Proof.Machine.execThermalTrip
  have h₀ := Same.refl (tick e s0)
  generalize tick e s0 = r₁ at h₀ ⊢
  repeat' first
    | intro _ | with_reducible first | assumption | apply Runs.next | apply Same.incident | apply Same.resetHalf | apply Same.syncEmergency
      | apply Same.upd
    | fail_if_no_progress with_reducible apply Same.fields | with_reducible first | apply Runs.ite | refine Same.of_snd (by assumption) ?_ | refine Same.of_fst (by assumption) ?_ | apply Same.ite

theorem Runs.execTripCooldownRelease (e : Ev) (temps stackTemps : List Int) (s0 : State) : Runs (tick e s0) (execTripCooldownRelease e temps stackTemps s0) := by
  unfold Sys2Proof.Machine.execTripCooldownRelease
  have h₀ := Same.refl (tick e s0)
  generalize tick e s0 = r₁ at h₀ ⊢
  repeat' first
    | intro _ | with_reducible first | assumption | apply Runs.next | apply Same.upd
    | with_reducible first | apply Runs.ite

theorem Runs.execDramTemperaturePoll (e : Ev) (t0 t1 : Int) (s0 : State) : Runs (tick e s0) (execDramTemperaturePoll e t0 t1 s0) := by
  unfold Sys2Proof.Machine.execDramTemperaturePoll
  have h₀ := Same.refl (tick e s0)
  generalize tick e s0 = r₁ at h₀ ⊢
  repeat' first
    | intro _ | with_reducible first | assumption | apply Runs.next | apply Same.setHalf | apply Same.stageActions
    | with_reducible first | apply Runs.ite

theorem Runs.execPmbusPoll (e : Ev) (fault alertHigh : Bool) (s0 : State) : Runs (tick e s0) (execPmbusPoll e fault alertHigh s0) := by
  unfold Sys2Proof.Machine.execPmbusPoll
  have h₀ := Same.refl (tick e s0)
  generalize tick e s0 = r₁ at h₀ ⊢
  repeat' first
    | intro _ | with_reducible first | assumption | apply Runs.next | apply Same.raiseSupply | apply Same.syncEmergency | apply Same.upd
    | fail_if_no_progress with_reducible apply Same.fields | with_reducible first | apply Runs.ite | refine Same.of_snd (by assumption) ?_ | refine Same.of_fst (by assumption) ?_ | apply Same.ite
    | split | dsimp only

theorem Runs.execVrAlertNLow (e : Ev) (s0 : State) : Runs (tick e s0) (execVrAlertNLow e s0) := by
  unfold Sys2Proof.Machine.execVrAlertNLow
  have h₀ := Same.refl (tick e s0)
  generalize tick e s0 = r₁ at h₀ ⊢
  repeat' first
    | intro _ | with_reducible first | assumption | apply Runs.next | apply Same.raiseSupply | apply Same.upd
    | with_reducible first | apply Runs.ite

theorem Runs.execEmergencyClear (e : Ev) (s0 : State) : Runs (tick e s0) (execEmergencyClear e s0) := by
  unfold Sys2Proof.Machine.execEmergencyClear
  have h₀ := Same.refl (tick e s0)
  generalize tick e s0 = r₁ at h₀ ⊢
  repeat' first
    | intro _ | with_reducible first | assumption | apply Runs.next | apply Same.runDeferred | apply Same.upd
    | fail_if_no_progress with_reducible apply Same.fields | with_reducible first | apply Runs.ite | refine Same.of_snd (by assumption) ?_ | refine Same.of_fst (by assumption) ?_ | apply Same.ite
    | split | dsimp only

theorem Runs.execCanRouteWake (e : Ev) (ctrl : Nat) (s0 : State) : Runs (tick e s0) (execCanRouteWake e ctrl s0) := by
  unfold Sys2Proof.Machine.execCanRouteWake
  have h₀ := Same.refl (tick e s0)
  generalize tick e s0 = r₁ at h₀ ⊢
  repeat' first
    | intro _ | with_reducible first | assumption | apply Runs.next | apply Same.wakeUp
    | with_reducible first | apply Runs.ite

theorem Runs.execTc10Wake (e : Ev) (s0 : State) : Runs (tick e s0) (execTc10Wake e s0) := by
  unfold Sys2Proof.Machine.execTc10Wake
  have h₀ := Same.refl (tick e s0)
  generalize tick e s0 = r₁ at h₀ ⊢
  repeat' first
    | intro _ | with_reducible first | assumption | apply Runs.next | apply Same.wakeUp
    | with_reducible first | apply Runs.ite

theorem Runs.execWakeInputBall (e : Ev) (ball : Nat) (s0 : State) : Runs (tick e s0) (execWakeInputBall e ball s0) := by
  unfold Sys2Proof.Machine.execWakeInputBall
  have h₀ := Same.refl (tick e s0)
  generalize tick e s0 = r₁ at h₀ ⊢
  repeat' first
    | intro _ | with_reducible first | assumption | apply Runs.next | apply Same.wakeUp
    | with_reducible first | apply Runs.ite

theorem Runs.execParkEntryComplete (e : Ev) (s0 : State) : Runs (tick e s0) (execParkEntryComplete e s0) := by
  unfold Sys2Proof.Machine.execParkEntryComplete
  have h₀ := Same.refl (tick e s0)
  generalize tick e s0 = r₁ at h₀ ⊢
  repeat' first
    | intro _ | with_reducible first | assumption | apply Runs.next | apply Same.latchedWake | apply Same.loseDeferred | apply Same.parkHalf
    | fail_if_no_progress with_reducible apply Same.fields | with_reducible first | apply Runs.ite

theorem Runs.execSleepEntryComplete (e : Ev) (s0 : State) : Runs (tick e s0) (execSleepEntryComplete e s0) := by
  unfold Sys2Proof.Machine.execSleepEntryComplete
  have h₀ := Same.refl (tick e s0)
  generalize tick e s0 = r₁ at h₀ ⊢
  repeat' first
    | intro _ | with_reducible first | assumption | apply Runs.next | apply Same.latchedWake | apply Same.sleepHalf
    | fail_if_no_progress with_reducible apply Same.fields | with_reducible first | apply Runs.ite

theorem Runs.execCoreReset (e : Ev) (p cause : Nat) (s0 : State) : Runs (tick e s0) (execCoreReset e p cause s0) := by
  unfold Sys2Proof.Machine.execCoreReset
  have h₀ := Same.refl (tick e s0)
  generalize tick e s0 = r₁ at h₀ ⊢
  repeat' first
    | intro _ | with_reducible first | assumption | apply Runs.next | apply Same.resetCore
    | with_reducible first | apply Runs.ite

theorem Runs.execCoreResetDone (e : Ev) (p : Nat) (s0 : State) : Runs (tick e s0) (execCoreResetDone e p s0) := by
  unfold Sys2Proof.Machine.execCoreResetDone
  have h₀ := Same.refl (tick e s0)
  generalize tick e s0 = r₁ at h₀ ⊢
  repeat' first
    | intro _ | with_reducible first | assumption | apply Runs.next | apply Same.updCore
    | with_reducible first | apply Runs.ite

theorem Runs.execHalfComputeRestart (e : Ev) (reason : Nat) (fwStopped : Bool) (s0 : State) : Runs (tick e s0) (execHalfComputeRestart e reason fwStopped s0) := by
  unfold Sys2Proof.Machine.execHalfComputeRestart
  have h₀ := Same.refl (tick e s0)
  generalize tick e s0 = r₁ at h₀ ⊢
  repeat' first
    | intro _ | with_reducible first | assumption | apply Runs.next | apply Same.resetHalf
    | with_reducible first | apply Runs.ite

theorem Runs.execHalfRimRestart (e : Ev) (reason : Nat) (fwStopped : Bool) (s0 : State) : Runs (tick e s0) (execHalfRimRestart e reason fwStopped s0) := by
  unfold Sys2Proof.Machine.execHalfRimRestart
  have h₀ := Same.refl (tick e s0)
  generalize tick e s0 = r₁ at h₀ ⊢
  repeat' first
    | intro _ | with_reducible first | assumption | apply Runs.next | apply Same.resetHalf
    | with_reducible first | apply Runs.ite

theorem Runs.execPackageWarmReset (e : Ev) (reason : Nat) (fwStopped : Bool) (s0 : State) : Runs (tick e s0) (execPackageWarmReset e reason fwStopped s0) := by
  unfold Sys2Proof.Machine.execPackageWarmReset
  have h₀ := Same.refl (tick e s0)
  generalize tick e s0 = r₁ at h₀ ⊢
  repeat' first
    | intro _ | with_reducible first | assumption | apply Runs.next | apply Same.resetPackage
    | with_reducible first | apply Runs.ite

theorem Runs.execGatehouseReady (e : Ev) (s0 : State) : Runs (tick e s0) (execGatehouseReady e s0) := by
  unfold Sys2Proof.Machine.execGatehouseReady
  have h₀ := Same.refl (tick e s0)
  generalize tick e s0 = r₁ at h₀ ⊢
  repeat' (first
    | (with_reducible assumption)
    | (with_reducible apply Runs.next)
    | (with_reducible apply Runs.ite)
    | (intro _)
    | (with_reducible apply Same.hatchSend)
    | (with_reducible apply Same.loadAtlas)
    | (with_reducible apply Same.noticeBare)
    | (with_reducible apply Same.perrClear)
    | (with_reducible apply Same.reloadRegions)
    | (with_reducible apply Same.serr)
    | (with_reducible apply Same.settleMsgs)
    | (with_reducible apply Same.stage)
    | (with_reducible apply Same.syncEmergency)
    | (with_reducible apply Same.upd)
    | (with_reducible refine Same.foldl _ _ (fun _ _ _ => ?_) ?_)
    | (with_reducible refine Same.foldl_fst _ _ _ (fun _ _ _ => ?_) ?_)
    | (with_reducible refine Same.foldl_snd _ _ _ (fun _ _ _ => ?_) ?_)
    | (fail_if_no_progress with_reducible apply Same.fields)
    | (with_reducible refine Same.of_snd (by assumption) ?_)
    | (with_reducible refine Same.of_fst (by assumption) ?_)
    | (with_reducible apply Same.ite))

theorem Runs.execRejoinActivation (e : Ev) (vt : Nat) (s0 : State) : Runs (tick e s0) (execRejoinActivation e vt s0) := by
  unfold Sys2Proof.Machine.execRejoinActivation
  have h₀ := Same.refl (tick e s0)
  generalize tick e s0 = r₁ at h₀ ⊢
  repeat' first
    | intro _ | with_reducible first | assumption | apply Runs.next | apply Same.endUnmet | apply Same.incident | apply Same.perrClear
      | apply Same.runRestart | apply Same.serr
    | fail_if_no_progress with_reducible apply Same.fields | with_reducible first | apply Runs.ite | refine Same.foldl _ _ (fun _ _ _ => ?_) ?_ | refine Same.foldl_fst _ _ _ (fun _ _ _ => ?_) ?_ | refine Same.foldl_snd _ _ _ (fun _ _ _ => ?_) ?_

theorem Runs.execTelDbTailWrite (e : Ev) (q v : Nat) (s0 : State) : Runs (tick e s0) (execTelDbTailWrite e q v s0) := by
  unfold Sys2Proof.Machine.execTelDbTailWrite
  have h₀ := Same.refl (tick e s0)
  generalize tick e s0 = r₁ at h₀ ⊢
  repeat' first
    | intro _ | with_reducible first | assumption | apply Runs.next | apply Same.dbTail
    | with_reducible first | apply Runs.ite

theorem Runs.execTelDbCqHeadWrite (e : Ev) (q v : Nat) (s0 : State) : Runs (tick e s0) (execTelDbCqHeadWrite e q v s0) := by
  unfold Sys2Proof.Machine.execTelDbCqHeadWrite
  have h₀ := Same.refl (tick e s0)
  generalize tick e s0 = r₁ at h₀ ⊢
  repeat' first
    | intro _ | with_reducible first | assumption | apply Runs.next | apply Same.dbCqHead
    | with_reducible first | apply Runs.ite

theorem Runs.execCoreFreeDispatch (e : Ev) (p : Nat) (s0 : State) : Runs (tick e s0) (execCoreFreeDispatch e p s0) := by
  unfold Sys2Proof.Machine.execCoreFreeDispatch
  have h₀ := Same.refl (tick e s0)
  generalize tick e s0 = r₁ at h₀ ⊢
  repeat' first
    | intro _ | with_reducible first | assumption | apply Runs.next | apply Same.dispatch | apply Same.draw | apply Same.refuseInvalid
      | apply Same.wantModels
    | fail_if_no_progress with_reducible apply Same.fields | with_reducible first | apply Runs.ite | refine Same.foldl _ _ (fun _ _ _ => ?_) ?_ | refine Same.foldl_fst _ _ _ (fun _ _ _ => ?_) ?_ | refine Same.foldl_snd _ _ _ (fun _ _ _ => ?_) ?_ | refine Same.of_snd (by assumption) ?_ | refine Same.of_fst (by assumption) ?_ | apply Same.ite
    | split | dsimp only

theorem Runs.execContextFetchDone (e : Ev) (ctx : Nat) (s0 : State) : Runs (tick e s0) (execContextFetchDone e ctx s0) := by
  unfold Sys2Proof.Machine.execContextFetchDone
  have h₀ := Same.refl (tick e s0)
  generalize tick e s0 = r₁ at h₀ ⊢
  repeat' first
    | intro _ | with_reducible first | assumption | apply Runs.next | apply Same.cacheCtx | apply Same.fetchFailed
    | with_reducible first | apply Runs.ite

theorem Runs.execContextWriteBack (e : Ev) (ctx : Nat) (s0 : State) : Runs (tick e s0) (execContextWriteBack e ctx s0) := by
  unfold Sys2Proof.Machine.execContextWriteBack
  have h₀ := Same.refl (tick e s0)
  generalize tick e s0 = r₁ at h₀ ⊢
  repeat' first
    | intro _ | with_reducible first | assumption | apply Runs.next | apply Same.writeBack
    | with_reducible first | apply Runs.ite

theorem Runs.execTileEnd (e : Ev) (p : Nat) (sched : List Nat) (s0 : State) : Runs (tick e s0) (execTileEnd e p sched s0) := by
  unfold Sys2Proof.Machine.execTileEnd
  have h₀ := Same.refl (tick e s0)
  generalize tick e s0 = r₁ at h₀ ⊢
  repeat' first
    | intro _ | with_reducible first | assumption | apply Runs.next | apply Same.acceptDma | apply Same.afterRun | apply Same.compute
      | apply Same.endFailed | apply Same.endTile | apply Same.engineEnd | apply Same.idleBoundary | apply Same.settleFail | apply Same.updCore
    | fail_if_no_progress with_reducible apply Same.fields | with_reducible first | apply Runs.ite | refine Same.of_snd (by assumption) ?_ | refine Same.of_fst (by assumption) ?_ | apply Same.ite
    | split | dsimp only

theorem Runs.execTileWatchdogFire (e : Ev) (p : Nat) (s0 : State) : Runs (tick e s0) (execTileWatchdogFire e p s0) := by
  unfold Sys2Proof.Machine.execTileWatchdogFire
  have h₀ := Same.refl (tick e s0)
  generalize tick e s0 = r₁ at h₀ ⊢
  repeat' first
    | intro _ | with_reducible first | assumption | apply Runs.next | apply Same.afterRun | apply Same.overrun
    | fail_if_no_progress with_reducible apply Same.fields | with_reducible first | apply Runs.ite | refine Same.of_snd (by assumption) ?_ | refine Same.of_fst (by assumption) ?_ | apply Same.ite
    | split | dsimp only

theorem Runs.execDmaDescriptorEnd (e : Ev) (p i : Nat) (s0 : State) : Runs (tick e s0) (execDmaDescriptorEnd e p i s0) := by
  unfold Sys2Proof.Machine.execDmaDescriptorEnd
  have h₀ := Same.refl (tick e s0)
  generalize tick e s0 = r₁ at h₀ ⊢
  repeat' first
    | intro _ | with_reducible first | assumption | apply Runs.next | apply Same.acceptDma | apply Same.computeFirst | apply Same.endHead
      | apply Same.engineEnd | apply Same.updCore
    | fail_if_no_progress with_reducible apply Same.fields | with_reducible first | apply Runs.ite | refine Same.of_snd (by assumption) ?_ | refine Same.of_fst (by assumption) ?_ | apply Same.ite
    | split | dsimp only

theorem Runs.execDmaDescriptorFailure (e : Ev) (p i : Nat) (st : Status) (s0 : State) : Runs (tick e s0) (execDmaDescriptorFailure e p i st s0) := by
  unfold Sys2Proof.Machine.execDmaDescriptorFailure
  have h₀ := Same.refl (tick e s0)
  generalize tick e s0 = r₁ at h₀ ⊢
  repeat' first
    | intro _ | with_reducible first | assumption | apply Runs.next | apply Same.failDma
    | with_reducible first | apply Runs.ite

theorem Runs.execDetectedMemoryError (e : Ev) (p mem off : Nat) (s0 : State) : Runs (tick e s0) (execDetectedMemoryError e p mem off s0) := by
  unfold Sys2Proof.Machine.execDetectedMemoryError
  have h₀ := Same.refl (tick e s0)
  generalize tick e s0 = r₁ at h₀ ⊢
  repeat' first
    | intro _ | with_reducible first | assumption | apply Runs.next | apply Same.afterRun | apply Same.countMemErr | apply Same.tileError
    | fail_if_no_progress with_reducible apply Same.fields | with_reducible first | apply Runs.ite | refine Same.of_snd (by assumption) ?_ | refine Same.of_fst (by assumption) ?_ | apply Same.ite
    | split | dsimp only

theorem Runs.execNonTileReadError (e : Ev) (who : ReadKind) (addr : Nat) (s0 : State) : Runs (tick e s0) (execNonTileReadError e who addr s0) := by
  unfold Sys2Proof.Machine.execNonTileReadError
  have h₀ := Same.refl (tick e s0)
  generalize tick e s0 = r₁ at h₀ ⊢
  repeat' first
    | intro _ | with_reducible first | assumption | apply Runs.next | apply Same.emit | apply Same.hartFault | apply Same.incident | apply Same.strErr
      | apply Same.upd
    | fail_if_no_progress with_reducible apply Same.fields | with_reducible first | apply Runs.ite | refine Same.of_snd (by assumption) ?_ | refine Same.of_fst (by assumption) ?_ | apply Same.ite
    | split

theorem Runs.execRowWriteLands (e : Ev) (p row : Nat) (s0 : State) : Runs (tick e s0) (execRowWriteLands e p row s0) := by
  unfold Sys2Proof.Machine.execRowWriteLands
  have h₀ := Same.refl (tick e s0)
  generalize tick e s0 = r₁ at h₀ ⊢
  repeat' first
    | intro _ | with_reducible first | assumption | apply Runs.next | apply Same.acceptDma | apply Same.landRow | apply Same.updCore
    | fail_if_no_progress with_reducible apply Same.fields | with_reducible first | apply Runs.ite | refine Same.of_snd (by assumption) ?_ | refine Same.of_fst (by assumption) ?_ | apply Same.ite
    | split | dsimp only

theorem Runs.execTokenBarrierPass (e : Ev) (p i : Nat) (s0 : State) : Runs (tick e s0) (execTokenBarrierPass e p i s0) := by
  unfold Sys2Proof.Machine.execTokenBarrierPass
  have h₀ := Same.refl (tick e s0)
  generalize tick e s0 = r₁ at h₀ ⊢
  repeat' first
    | intro _ | with_reducible first | assumption | apply Runs.next | apply Same.acceptDma | apply Same.updCore
    | fail_if_no_progress with_reducible apply Same.fields | with_reducible first | apply Runs.ite | refine Same.of_snd (by assumption) ?_ | refine Same.of_fst (by assumption) ?_ | apply Same.ite
    | split | dsimp only

theorem Runs.execPreemptionRequest (e : Ev) (ctx : Nat) (s0 : State) : Runs (tick e s0) (execPreemptionRequest e ctx s0) := by
  unfold Sys2Proof.Machine.execPreemptionRequest
  have h₀ := Same.refl (tick e s0)
  generalize tick e s0 = r₁ at h₀ ⊢
  repeat' first
    | intro _ | with_reducible first | assumption | apply Runs.next | apply Same.updCore
    | fail_if_no_progress with_reducible apply Same.fields | with_reducible first | apply Runs.ite | refine Same.of_snd (by assumption) ?_ | refine Same.of_fst (by assumption) ?_ | apply Same.ite
    | split | dsimp only

theorem Runs.execGraphicsSwitchRequest (e : Ev) (part : Nat) (s0 : State) : Runs (tick e s0) (execGraphicsSwitchRequest e part s0) := by
  unfold Sys2Proof.Machine.execGraphicsSwitchRequest
  have h₀ := Same.refl (tick e s0)
  generalize tick e s0 = r₁ at h₀ ⊢
  repeat' first
    | intro _ | with_reducible first | assumption | apply Runs.next | apply Same.updCore
    | with_reducible first | apply Runs.ite | refine Same.foldl _ _ (fun _ _ _ => ?_) ?_

theorem Runs.execModeSwitchDone (e : Ev) (p : Nat) (s0 : State) : Runs (tick e s0) (execModeSwitchDone e p s0) := by
  unfold Sys2Proof.Machine.execModeSwitchDone
  have h₀ := Same.refl (tick e s0)
  generalize tick e s0 = r₁ at h₀ ⊢
  repeat' first
    | intro _ | with_reducible first | assumption | apply Runs.next | apply Same.compute | apply Same.updCore
    | with_reducible first | apply Runs.ite

theorem Runs.execWaitLocalEvaluation (e : Ev) (q : Nat) (s0 : State) : Runs (tick e s0) (execWaitLocalEvaluation e q s0) := by
  unfold Sys2Proof.Machine.execWaitLocalEvaluation
  have h₀ := Same.refl (tick e s0)
  generalize tick e s0 = r₁ at h₀ ⊢
  repeat' first
    | intro _ | with_reducible first | assumption | apply Runs.next | apply Same.endWait | apply Same.startWait
    | fail_if_no_progress with_reducible apply Same.fields | with_reducible first | apply Runs.ite | refine Same.of_snd (by assumption) ?_ | refine Same.of_fst (by assumption) ?_ | apply Same.ite
    | split | dsimp only

theorem Runs.execWaitLimitExpiry (e : Ev) (q : Nat) (s0 : State) : Runs (tick e s0) (execWaitLimitExpiry e q s0) := by
  unfold Sys2Proof.Machine.execWaitLimitExpiry
  have h₀ := Same.refl (tick e s0)
  generalize tick e s0 = r₁ at h₀ ⊢
  repeat' first
    | intro _ | with_reducible first | assumption | apply Runs.next | apply Same.endWait
    | fail_if_no_progress with_reducible apply Same.fields | with_reducible first | apply Runs.ite | refine Same.of_snd (by assumption) ?_ | refine Same.of_fst (by assumption) ?_ | apply Same.ite
    | split | dsimp only

theorem Runs.execRemoteWatchRepeat (e : Ev) (q : Nat) (s0 : State) : Runs (tick e s0) (execRemoteWatchRepeat e q s0) := by
  unfold Sys2Proof.Machine.execRemoteWatchRepeat
  have h₀ := Same.refl (tick e s0)
  generalize tick e s0 = r₁ at h₀ ⊢
  repeat' first
    | intro _ | with_reducible first | assumption | apply Runs.next | apply Same.sendWatch | apply Same.startWait
    | fail_if_no_progress with_reducible apply Same.fields | with_reducible first | apply Runs.ite | refine Same.of_snd (by assumption) ?_ | refine Same.of_fst (by assumption) ?_ | apply Same.ite
    | split | dsimp only

theorem Runs.execRemoteWatchReply (e : Ev) (q gen idx : Nat) (s0 : State) : Runs (tick e s0) (execRemoteWatchReply e q gen idx s0) := by
  unfold Sys2Proof.Machine.execRemoteWatchReply
  have h₀ := Same.refl (tick e s0)
  generalize tick e s0 = r₁ at h₀ ⊢
  repeat' first
    | intro _ | with_reducible first | assumption | apply Runs.next | apply Same.watchReply
    | with_reducible first | apply Runs.ite

theorem Runs.execRowConditionEvaluation (e : Ev) (w : Work) (s0 : State) : Runs (tick e s0) (execRowConditionEvaluation e w s0) := by
  unfold Sys2Proof.Machine.execRowConditionEvaluation
  have h₀ := Same.refl (tick e s0)
  generalize tick e s0 = r₁ at h₀ ⊢
  repeat' first
    | intro _ | with_reducible first | assumption | apply Runs.next | apply Same.evalEntry | apply Same.failCondition | apply Same.noteReady
      | apply Same.upd
    | fail_if_no_progress with_reducible apply Same.fields | with_reducible first | apply Runs.ite | refine Same.of_snd (by assumption) ?_ | refine Same.of_fst (by assumption) ?_ | apply Same.ite
    | split | dsimp only

theorem Runs.execLagLimitExpiry (e : Ev) (w : Work) (s0 : State) : Runs (tick e s0) (execLagLimitExpiry e w s0) := by
  unfold Sys2Proof.Machine.execLagLimitExpiry
  have h₀ := Same.refl (tick e s0)
  generalize tick e s0 = r₁ at h₀ ⊢
  repeat' first
    | intro _ | with_reducible first | assumption | apply Runs.next | apply Same.completeHead | apply Same.completeInst | apply Same.countRecompute
      | apply Same.noteIdle | apply Same.noteReady | apply Same.startFallback | apply Same.startOpen | apply Same.upd
    | fail_if_no_progress with_reducible apply Same.fields | with_reducible first | apply Runs.ite | refine Same.of_snd (by assumption) ?_ | refine Same.of_fst (by assumption) ?_ | apply Same.ite
    | split | dsimp only

theorem Runs.execWindowPreArm (e : Ev) (n : Nat) (s0 : State) : Runs (tick e s0) (execWindowPreArm e n s0) := by
  unfold Sys2Proof.Machine.execWindowPreArm
  have h₀ := Same.refl (tick e s0)
  generalize tick e s0 = r₁ at h₀ ⊢
  repeat' first
    | intro _ | with_reducible first | assumption | apply Runs.next | apply Same.cacheCtx | apply Same.preArm
    | fail_if_no_progress with_reducible apply Same.fields | with_reducible first | apply Runs.ite | refine Same.of_snd (by assumption) ?_ | refine Same.of_fst (by assumption) ?_ | apply Same.ite
    | split | dsimp only

theorem Runs.execWindowInstanceStart (e : Ev) (n : Nat) (s0 : State) : Runs (tick e s0) (execWindowInstanceStart e n s0) := by
  unfold Sys2Proof.Machine.execWindowInstanceStart
  have h₀ := Same.refl (tick e s0)
  generalize tick e s0 = r₁ at h₀ ⊢
  repeat' first
    | intro _ | with_reducible first | assumption | apply Runs.next | apply Same.endUnmet | apply Same.openInst | apply Same.runInst
      | apply Same.startTrial
    | fail_if_no_progress with_reducible apply Same.fields | with_reducible first | apply Runs.ite | refine Same.of_snd (by assumption) ?_ | refine Same.of_fst (by assumption) ?_ | apply Same.ite
    | split

theorem Runs.execWindowInstanceEndUnmet (e : Ev) (n : Nat) (s0 : State) : Runs (tick e s0) (execWindowInstanceEndUnmet e n s0) := by
  unfold Sys2Proof.Machine.execWindowInstanceEndUnmet
  have h₀ := Same.refl (tick e s0)
  generalize tick e s0 = r₁ at h₀ ⊢
  repeat' first
    | intro _ | with_reducible first | assumption | apply Runs.next | apply Same.endUnmet
    | with_reducible first | apply Runs.ite

theorem Runs.execBankActivationVt (e : Ev) (s0 : State) : Runs (tick e s0) (execBankActivationVt e s0) := by
  unfold Sys2Proof.Machine.execBankActivationVt
  have h₀ := Same.refl (tick e s0)
  generalize tick e s0 = r₁ at h₀ ⊢
  repeat' first
    | intro _ | with_reducible first | assumption | apply Runs.next | apply Same.endUnmet | apply Same.perrClear | apply Same.saveConf
      | apply Same.serr | apply Same.upd
    | fail_if_no_progress with_reducible apply Same.fields | with_reducible first | apply Runs.ite | refine Same.foldl _ _ (fun _ _ _ => ?_) ?_ | refine Same.foldl_fst _ _ _ (fun _ _ _ => ?_) ?_ | refine Same.foldl_snd _ _ _ (fun _ _ _ => ?_) ?_ | refine Same.of_snd (by assumption) ?_ | refine Same.of_fst (by assumption) ?_ | apply Same.ite
    | split

theorem Runs.execMajorFrameEndDisable (e : Ev) (s0 : State) : Runs (tick e s0) (execMajorFrameEndDisable e s0) := by
  unfold Sys2Proof.Machine.execMajorFrameEndDisable
  have h₀ := Same.refl (tick e s0)
  generalize tick e s0 = r₁ at h₀ ⊢
  repeat' first
    | intro _ | with_reducible first | assumption | apply Runs.next | apply Same.endUnmet | apply Same.saveConf | apply Same.upd
    | fail_if_no_progress with_reducible apply Same.fields | with_reducible first | apply Runs.ite | refine Same.foldl _ _ (fun _ _ _ => ?_) ?_ | refine Same.foldl_fst _ _ _ (fun _ _ _ => ?_) ?_ | refine Same.foldl_snd _ _ _ (fun _ _ _ => ?_) ?_ | refine Same.of_snd (by assumption) ?_ | refine Same.of_fst (by assumption) ?_ | apply Same.ite
    | split | dsimp only

theorem Runs.execDispatchWatchdog (e : Ev) (d : Nat) (s0 : State) : Runs (tick e s0) (execDispatchWatchdog e d s0) := by
  unfold Sys2Proof.Machine.execDispatchWatchdog
  have h₀ := Same.refl (tick e s0)
  generalize tick e s0 = r₁ at h₀ ⊢
  repeat' first
    | intro _ | with_reducible first | assumption | apply Runs.next | apply Same.askRestart | apply Same.componentStop | apply Same.upd
    | with_reducible first | apply Runs.ite

theorem Runs.execDispatchRestartDone (e : Ev) (d : Nat) (s0 : State) : Runs (tick e s0) (execDispatchRestartDone e d s0) := by
  unfold Sys2Proof.Machine.execDispatchRestartDone
  have h₀ := Same.refl (tick e s0)
  generalize tick e s0 = r₁ at h₀ ⊢
  repeat' first
    | intro _ | with_reducible first | assumption | apply Runs.next | apply Same.reloadCopy | apply Same.rewindAll | apply Same.upd
    | with_reducible first | apply Runs.ite

theorem Runs.execStewardWatchdog (e : Ev) (s0 : State) : Runs (tick e s0) (execStewardWatchdog e s0) := by
  unfold Sys2Proof.Machine.execStewardWatchdog
  have h₀ := Same.refl (tick e s0)
  generalize tick e s0 = r₁ at h₀ ⊢
  repeat' first
    | intro _ | with_reducible first | assumption | apply Runs.next | apply Same.componentStop | apply Same.resetHalf | apply Same.upd
    | with_reducible first | apply Runs.ite

theorem Runs.execStewardRestartDone (e : Ev) (s0 : State) : Runs (tick e s0) (execStewardRestartDone e s0) := by
  unfold Sys2Proof.Machine.execStewardRestartDone
  have h₀ := Same.refl (tick e s0)
  generalize tick e s0 = r₁ at h₀ ⊢
  repeat' first
    | intro _ | with_reducible first | assumption | apply Runs.next | apply Same.onFrame | apply Same.reloadCopy | apply Same.stopLeaving
      | apply Same.stopMessages | apply Same.upd
    | with_reducible first | apply Runs.ite | refine Same.foldl _ _ (fun _ _ _ => ?_) ?_

theorem Runs.execLockstepMismatch (e : Ev) (s0 : State) : Runs (tick e s0) (execLockstepMismatch e s0) := by
  unfold Sys2Proof.Machine.execLockstepMismatch
  have h₀ := Same.refl (tick e s0)
  generalize tick e s0 = r₁ at h₀ ⊢
  repeat' first
    | intro _ | with_reducible first | assumption | apply Runs.next | apply Same.componentStop | apply Same.resetHalf | apply Same.upd
    | with_reducible first | apply Runs.ite

theorem Runs.execSieveCommandStart (e : Ev) (w : Work) (s0 : State) : Runs (tick e s0) (execSieveCommandStart e w s0) := by
  unfold Sys2Proof.Machine.execSieveCommandStart
  have h₀ := Same.refl (tick e s0)
  generalize tick e s0 = r₁ at h₀ ⊢
  repeat' (first
    | (with_reducible assumption)
    | (with_reducible apply Runs.next)
    | (with_reducible apply Runs.ite)
    | (intro _)
    | (with_reducible apply Same.accountDispatch)
    | (with_reducible apply Same.cacheCtx)
    | (with_reducible apply Same.completeInst)
    | (with_reducible apply Same.countSieve)
    | (with_reducible apply Same.failRead)
    | (with_reducible apply Same.incident)
    | (with_reducible apply Same.readErrs)
    | (with_reducible apply Same.refuseDispatch)
    | (with_reducible apply Same.svEmptyHeader)
    | (with_reducible apply Same.takeSieve)
    | (with_reducible apply Same.upd)
    | (fail_if_no_progress with_reducible apply Same.fields)
    | (with_reducible refine Same.of_snd (by assumption) ?_)
    | (with_reducible refine Same.of_fst (by assumption) ?_)
    | (with_reducible apply Same.ite)
    | (split)
    | (dsimp only))

theorem Runs.execSieveCommandEnd (e : Ev) (s0 : State) : Runs (tick e s0) (execSieveCommandEnd e s0) := by
  unfold Sys2Proof.Machine.execSieveCommandEnd
  have h₀ := Same.refl (tick e s0)
  generalize tick e s0 = r₁ at h₀ ⊢
  repeat' first
    | intro _ | with_reducible first | assumption | apply Runs.next | apply Same.draw | apply Same.endSieve | apply Same.paySieve
      | apply Same.sieveError | apply Same.storeV
    | fail_if_no_progress with_reducible apply Same.fields | with_reducible first | apply Runs.ite | refine Same.foldl _ _ (fun _ _ _ => ?_) ?_ | refine Same.foldl_fst _ _ _ (fun _ _ _ => ?_) ?_ | refine Same.foldl_snd _ _ _ (fun _ _ _ => ?_) ?_ | refine Same.of_snd (by assumption) ?_ | refine Same.of_fst (by assumption) ?_ | apply Same.ite
    | split | dsimp only

theorem Runs.execSieveDataError (e : Ev) (s0 : State) : Runs (tick e s0) (execSieveDataError e s0) := by
  unfold Sys2Proof.Machine.execSieveDataError
  have h₀ := Same.refl (tick e s0)
  generalize tick e s0 = r₁ at h₀ ⊢
  repeat' first
    | intro _ | with_reducible first | assumption | apply Runs.next | apply Same.sieveError
    | fail_if_no_progress with_reducible apply Same.fields | with_reducible first | apply Runs.ite | refine Same.of_snd (by assumption) ?_ | refine Same.of_fst (by assumption) ?_ | apply Same.ite
    | split | dsimp only

theorem Runs.execSieveWatchdog (e : Ev) (s0 : State) : Runs (tick e s0) (execSieveWatchdog e s0) := by
  unfold Sys2Proof.Machine.execSieveWatchdog
  have h₀ := Same.refl (tick e s0)
  generalize tick e s0 = r₁ at h₀ ⊢
  repeat' first
    | intro _ | with_reducible first | assumption | apply Runs.next | apply Same.dropSieve | apply Same.endSieve | apply Same.incident
      | apply Same.svEmptyHeader | apply Same.upd
    | fail_if_no_progress with_reducible apply Same.fields | with_reducible first | apply Runs.ite | refine Same.of_snd (by assumption) ?_ | refine Same.of_fst (by assumption) ?_ | apply Same.ite
    | split | dsimp only

theorem Runs.execPatrolRowRead (e : Ev) (row : Nat) (err : Bool) (s0 : State) : Runs (tick e s0) (execPatrolRowRead e row err s0) := by
  unfold Sys2Proof.Machine.execPatrolRowRead
  have h₀ := Same.refl (tick e s0)
  generalize tick e s0 = r₁ at h₀ ⊢
  repeat' first
    | intro _ | with_reducible first | assumption | apply Runs.next | apply Same.clearRows | apply Same.countMemErr | apply Same.strErr
      | apply Same.upd
    | with_reducible first | apply Runs.ite

theorem Runs.execStrongroomBankRetire (e : Ev) (bank : Nat) (s0 : State) : Runs (tick e s0) (execStrongroomBankRetire e bank s0) := by
  unfold Sys2Proof.Machine.execStrongroomBankRetire
  have h₀ := Same.refl (tick e s0)
  generalize tick e s0 = r₁ at h₀ ⊢
  repeat' first
    | intro _ | with_reducible first | assumption | apply Runs.next | apply Same.upd
    | fail_if_no_progress with_reducible apply Same.fields | with_reducible first | apply Runs.ite | refine Same.of_snd (by assumption) ?_ | refine Same.of_fst (by assumption) ?_ | apply Same.ite
    | split

theorem Runs.execBankMoveDone (e : Ev) (badRows : List Nat) (s0 : State) : Runs (tick e s0) (execBankMoveDone e badRows s0) := by
  unfold Sys2Proof.Machine.execBankMoveDone
  have h₀ := Same.refl (tick e s0)
  generalize tick e s0 = r₁ at h₀ ⊢
  repeat' first
    | intro _ | with_reducible first | assumption | apply Runs.next | apply Same.upd
    | fail_if_no_progress with_reducible apply Same.fields | with_reducible first | apply Runs.ite | refine Same.of_snd (by assumption) ?_ | refine Same.of_fst (by assumption) ?_ | apply Same.ite
    | split | dsimp only

theorem Runs.execGroupWithdrawal (e : Ev) (g : Nat) (s0 : State) : Runs (tick e s0) (execGroupWithdrawal e g s0) := by
  unfold Sys2Proof.Machine.execGroupWithdrawal
  have h₀ := Same.refl (tick e s0)
  generalize tick e s0 = r₁ at h₀ ⊢
  repeat' first
    | intro _ | with_reducible first | assumption | apply Runs.next | apply Same.withdraw
    | with_reducible first | apply Runs.ite

theorem Runs.execGranuleZeroed (e : Ev) (s0 : State) : Runs (tick e s0) (execGranuleZeroed e s0) := by
  unfold Sys2Proof.Machine.execGranuleZeroed
  have h₀ := Same.refl (tick e s0)
  generalize tick e s0 = r₁ at h₀ ⊢
  repeat' first
    | intro _ | with_reducible first | assumption | apply Runs.next | apply Same.clearRows | apply Same.retryAllocs | apply Same.upd
    | fail_if_no_progress with_reducible apply Same.fields | with_reducible first | apply Runs.ite | refine Same.of_snd (by assumption) ?_ | refine Same.of_fst (by assumption) ?_ | apply Same.ite
    | split | dsimp only

theorem Runs.execShutterClose (e : Ev) (unit : ShutUnit) (s0 : State) : Runs (tick e s0) (execShutterClose e unit s0) := by
  unfold Sys2Proof.Machine.execShutterClose
  have h₀ := Same.refl (tick e s0)
  generalize tick e s0 = r₁ at h₀ ⊢
  repeat' first
    | intro _ | with_reducible first | assumption | apply Runs.next | apply Same.powerOff | apply Same.shutAborts | apply Same.upd
    | fail_if_no_progress with_reducible apply Same.fields | with_reducible first | apply Runs.ite | refine Same.of_snd (by assumption) ?_ | refine Same.of_fst (by assumption) ?_ | apply Same.ite
    | split

theorem Runs.execShutterDrainTimeout (e : Ev) (unit : ShutUnit) (s0 : State) : Runs (tick e s0) (execShutterDrainTimeout e unit s0) := by
  unfold Sys2Proof.Machine.execShutterDrainTimeout
  have h₀ := Same.refl (tick e s0)
  generalize tick e s0 = r₁ at h₀ ⊢
  repeat' first
    | intro _ | with_reducible first | assumption | apply Runs.next | apply Same.shutAborts
    | fail_if_no_progress with_reducible apply Same.fields | with_reducible first | apply Runs.ite | refine Same.of_snd (by assumption) ?_ | refine Same.of_fst (by assumption) ?_ | apply Same.ite
    | split | dsimp only

theorem Runs.execShutDoorRefusal (e : Ev) (unit : ShutUnit) (who : Master) (s0 : State) : Runs (tick e s0) (execShutDoorRefusal e unit who s0) := by
  unfold Sys2Proof.Machine.execShutDoorRefusal
  have h₀ := Same.refl (tick e s0)
  generalize tick e s0 = r₁ at h₀ ⊢
  repeat' first
    | intro _ | with_reducible first | assumption | apply Runs.next | apply Same.accessFault | apply Same.failDma | apply Same.upd
    | fail_if_no_progress with_reducible apply Same.fields | with_reducible first | apply Runs.ite | refine Same.of_snd (by assumption) ?_ | refine Same.of_fst (by assumption) ?_ | apply Same.ite
    | split

theorem Runs.execGroupReopenDone (e : Ev) (g : Nat) (s0 : State) : Runs (tick e s0) (execGroupReopenDone e g s0) := by
  unfold Sys2Proof.Machine.execGroupReopenDone
  have h₀ := Same.refl (tick e s0)
  generalize tick e s0 = r₁ at h₀ ⊢
  repeat' first
    | intro _ | with_reducible first | assumption | apply Runs.next | apply Same.clearRows | apply Same.retryAllocs | apply Same.upd
    | with_reducible first | apply Runs.ite

theorem Runs.execModelLoadDone (e : Ev) (key vdi : Nat) (s0 : State) : Runs (tick e s0) (execModelLoadDone e key vdi s0) := by
  unfold Sys2Proof.Machine.execModelLoadDone
  have h₀ := Same.refl (tick e s0)
  generalize tick e s0 = r₁ at h₀ ⊢
  repeat' first
    | intro _ | with_reducible first | assumption | apply Runs.next | apply Same.noteReady | apply Same.upd
    | with_reducible first | apply Runs.ite | refine Same.foldl _ _ (fun _ _ _ => ?_) ?_

theorem Runs.execLongPacket (e : Ev) (rx vc dt : Nat) (px : List Nat) (crcOk corrected : Bool) (s0 : State) : Runs (tick e s0) (execLongPacket e rx vc dt px crcOk corrected s0) := by
  unfold Sys2Proof.Machine.execLongPacket
  have h₀ := Same.refl (tick e s0)
  generalize tick e s0 = r₁ at h₀ ⊢
  repeat' first
    | intro _ | with_reducible first | assumption | apply Runs.next | apply Same.placeLine | apply Same.upd
    | fail_if_no_progress with_reducible apply Same.fields | with_reducible first | apply Runs.ite | refine Same.of_snd (by assumption) ?_ | refine Same.of_fst (by assumption) ?_ | apply Same.ite
    | split

theorem Runs.execFrameStart (e : Ev) (hd : RxHdr) (vc frameNo : Nat) (s0 : State) : Runs (tick e s0) (execFrameStart e hd vc frameNo s0) := by
  unfold Sys2Proof.Machine.execFrameStart
  have h₀ := Same.refl (tick e s0)
  generalize tick e s0 = r₁ at h₀ ⊢
  repeat' first
    | intro _ | with_reducible first | assumption | apply Runs.next | apply Same.openFrame | apply Same.upd
    | with_reducible first | apply Runs.ite | refine Same.foldl _ _ (fun _ _ _ => ?_) ?_

theorem Runs.execFrameEnd (e : Ev) (hd : RxHdr) (vc : Nat) (s0 : State) : Runs (tick e s0) (execFrameEnd e hd vc s0) := by
  unfold Sys2Proof.Machine.execFrameEnd
  have h₀ := Same.refl (tick e s0)
  generalize tick e s0 = r₁ at h₀ ⊢
  repeat' first
    | intro _ | with_reducible first | assumption | apply Runs.next | apply Same.closeFrame | apply Same.upd
    | with_reducible first | apply Runs.ite | refine Same.foldl _ _ (fun _ _ _ => ?_) ?_

theorem Runs.execFrameCloseTimeout (e : Ev) (slot : Nat) (s0 : State) : Runs (tick e s0) (execFrameCloseTimeout e slot s0) := by
  unfold Sys2Proof.Machine.execFrameCloseTimeout
  have h₀ := Same.refl (tick e s0)
  generalize tick e s0 = r₁ at h₀ ⊢
  repeat' first
    | intro _ | with_reducible first | assumption | apply Runs.next | apply Same.noFrame
    | fail_if_no_progress with_reducible apply Same.fields | with_reducible first | apply Runs.ite | refine Same.of_snd (by assumption) ?_ | refine Same.of_fst (by assumption) ?_ | apply Same.ite
    | split

theorem Runs.execEmbeddedDataLine (e : Ev) (hd : RxHdr) (vc : Nat) (line : EmbLine) (s0 : State) : Runs (tick e s0) (execEmbeddedDataLine e hd vc line s0) := by
  unfold Sys2Proof.Machine.execEmbeddedDataLine
  have h₀ := Same.refl (tick e s0)
  generalize tick e s0 = r₁ at h₀ ⊢
  repeat' first
    | intro _ | with_reducible first | assumption | apply Runs.next | apply Same.embeddedLine | apply Same.upd
    | with_reducible first | apply Runs.ite | refine Same.foldl _ _ (fun _ _ _ => ?_) ?_

theorem Runs.execChannelResultDelivered (e : Ev) (n : Nat) (s0 : State) : Runs (tick e s0) (execChannelResultDelivered e n s0) := by
  unfold Sys2Proof.Machine.execChannelResultDelivered
  have h₀ := Same.refl (tick e s0)
  generalize tick e s0 = r₁ at h₀ ⊢
  repeat' first
    | intro _ | with_reducible first | assumption | apply Runs.next | apply Same.deliver | apply Same.done | apply Same.readErrs | apply Same.upd
    | fail_if_no_progress with_reducible apply Same.fields | with_reducible first | apply Runs.ite | refine Same.of_snd (by assumption) ?_ | refine Same.of_fst (by assumption) ?_ | apply Same.ite
    | split | dsimp only

theorem Runs.execRoundDueTime (e : Ev) (task round : Nat) (s0 : State) : Runs (tick e s0) (execRoundDueTime e task round s0) := by
  unfold Sys2Proof.Machine.execRoundDueTime
  have h₀ := Same.refl (tick e s0)
  generalize tick e s0 = r₁ at h₀ ⊢
  repeat' first
    | intro _ | with_reducible first | assumption | apply Runs.next | apply Same.formVerdict | apply Same.judgeRound
    | with_reducible first | apply Runs.ite

theorem Runs.execTallyJudgement (e : Ev) (task round : Nat) (s0 : State) : Runs (tick e s0) (execTallyJudgement e task round s0) := by
  unfold Sys2Proof.Machine.execTallyJudgement
  have h₀ := Same.refl (tick e s0)
  generalize tick e s0 = r₁ at h₀ ⊢
  repeat' first
    | intro _ | with_reducible first | assumption | apply Runs.next | apply Same.judgeRound
    | with_reducible first | apply Runs.ite

theorem Runs.execVerdictExchange (e : Ev) (task round : Nat) (v : Verdict) (s0 : State) : Runs (tick e s0) (execVerdictExchange e task round v s0) := by
  unfold Sys2Proof.Machine.execVerdictExchange
  have h₀ := Same.refl (tick e s0)
  generalize tick e s0 = r₁ at h₀ ⊢
  repeat' first
    | intro _ | with_reducible first | assumption | apply Runs.next | apply Same.verdictArrives
    | with_reducible first | apply Runs.ite

theorem Runs.execVerdictExchangeTimeout (e : Ev) (task round : Nat) (s0 : State) : Runs (tick e s0) (execVerdictExchangeTimeout e task round s0) := by
  unfold Sys2Proof.Machine.execVerdictExchangeTimeout
  have h₀ := Same.refl (tick e s0)
  generalize tick e s0 = r₁ at h₀ ⊢
  repeat' first
    | intro _ | with_reducible first | assumption | apply Runs.next | apply Same.degrade | apply Same.settle | apply Same.upd
      | apply Same.writeVerdict
    | fail_if_no_progress with_reducible apply Same.fields | with_reducible first | apply Runs.ite | refine Same.of_snd (by assumption) ?_ | refine Same.of_fst (by assumption) ?_ | apply Same.ite
    | split | dsimp only

theorem Runs.execLateResultDiscard (e : Ev) (task round : Nat) (s0 : State) : Runs (tick e s0) (execLateResultDiscard e task round s0) := by
  unfold Sys2Proof.Machine.execLateResultDiscard
  have h₀ := Same.refl (tick e s0)
  generalize tick e s0 = r₁ at h₀ ⊢
  repeat' first
    | intro _ | with_reducible first | assumption | apply Runs.next | apply Same.late | apply Same.upd
    | with_reducible first | apply Runs.ite

theorem Runs.execLocatingSearchStep (e : Ev) (task : Nat) (s0 : State) : Runs (tick e s0) (execLocatingSearchStep e task s0) := by
  unfold Sys2Proof.Machine.execLocatingSearchStep
  have h₀ := Same.refl (tick e s0)
  generalize tick e s0 = r₁ at h₀ ⊢
  repeat' first
    | intro _ | with_reducible first | assumption | apply Runs.next | apply Same.askAssay | apply Same.searchSkip | apply Same.upd
    | fail_if_no_progress with_reducible apply Same.fields | with_reducible first | apply Runs.ite | refine Same.of_snd (by assumption) ?_ | refine Same.of_fst (by assumption) ?_ | apply Same.ite
    | split

theorem Runs.execAssayDue (e : Ev) (task ch : Nat) (s0 : State) : Runs (tick e s0) (execAssayDue e task ch s0) := by
  unfold Sys2Proof.Machine.execAssayDue
  have h₀ := Same.refl (tick e s0)
  generalize tick e s0 = r₁ at h₀ ⊢
  repeat' first
    | intro _ | with_reducible first | assumption | apply Runs.next | apply Same.askAssay | apply Same.retryTrial
    | with_reducible first | apply Runs.ite

theorem Runs.execAssayVerdict (e : Ev) (task round : Nat) (s0 : State) : Runs (tick e s0) (execAssayVerdict e task round s0) := by
  unfold Sys2Proof.Machine.execAssayVerdict
  have h₀ := Same.refl (tick e s0)
  generalize tick e s0 = r₁ at h₀ ⊢
  repeat' first
    | intro _ | with_reducible first | assumption | apply Runs.next | apply Same.formVerdict | apply Same.trialVerdict
    | with_reducible first | apply Runs.ite

theorem Runs.execAuditDue (e : Ev) (s0 : State) : Runs (tick e s0) (execAuditDue e s0) := by
  unfold Sys2Proof.Machine.execAuditDue
  have h₀ := Same.refl (tick e s0)
  generalize tick e s0 = r₁ at h₀ ⊢
  repeat' first
    | intro _ | with_reducible first | assumption | apply Runs.next | apply Same.upd | apply Same.updCore
    | fail_if_no_progress with_reducible apply Same.fields | with_reducible first | apply Runs.ite | refine Same.of_snd (by assumption) ?_ | refine Same.of_fst (by assumption) ?_ | apply Same.ite
    | split

theorem Runs.execAuditDone (e : Ev) (p : Nat) (fail : Bool) (block : Nat) (s0 : State) : Runs (tick e s0) (execAuditDone e p fail block s0) := by
  unfold Sys2Proof.Machine.execAuditDone
  have h₀ := Same.refl (tick e s0)
  generalize tick e s0 = r₁ at h₀ ⊢
  repeat' first
    | intro _ | with_reducible first | assumption | apply Runs.next | apply Same.incident | apply Same.searchSkip | apply Same.upd
      | apply Same.updCore
    | with_reducible first | apply Runs.ite | refine Same.foldl _ _ (fun _ _ _ => ?_) ?_

theorem Runs.execAuditOverdue (e : Ev) (p : Nat) (s0 : State) : Runs (tick e s0) (execAuditOverdue e p s0) := by
  unfold Sys2Proof.Machine.execAuditOverdue
  have h₀ := Same.refl (tick e s0)
  generalize tick e s0 = r₁ at h₀ ⊢
  repeat' first
    | intro _ | with_reducible first | assumption | apply Runs.next | apply Same.incident | apply Same.upd | apply Same.updCore
    | fail_if_no_progress with_reducible apply Same.fields | with_reducible first | apply Runs.ite | refine Same.of_snd (by assumption) ?_ | refine Same.of_fst (by assumption) ?_ | apply Same.ite

theorem Runs.execDutyHandover (e : Ev) (p : Nat) (s0 : State) : Runs (tick e s0) (execDutyHandover e p s0) := by
  unfold Sys2Proof.Machine.execDutyHandover
  have h₀ := Same.refl (tick e s0)
  generalize tick e s0 = r₁ at h₀ ⊢
  repeat' first
    | intro _ | with_reducible first | assumption | apply Runs.next | apply Same.upd | apply Same.updCore
    | fail_if_no_progress with_reducible apply Same.fields | with_reducible first | apply Runs.ite | refine Same.of_snd (by assumption) ?_ | refine Same.of_fst (by assumption) ?_ | apply Same.ite
    | split

theorem Runs.execDegradedEntry (e : Ev) (cause : LossCause) (s0 : State) : Runs (tick e s0) (execDegradedEntry e cause s0) := by
  unfold Sys2Proof.Machine.execDegradedEntry
  have h₀ := Same.refl (tick e s0)
  generalize tick e s0 = r₁ at h₀ ⊢
  repeat' first
    | intro _ | with_reducible first | assumption | apply Runs.next | apply Same.degrade | apply Same.upd
    | fail_if_no_progress with_reducible apply Same.fields | with_reducible first | apply Runs.ite | refine Same.of_snd (by assumption) ?_ | refine Same.of_fst (by assumption) ?_ | apply Same.ite
    | split

theorem Runs.execSerrHbCheck (e : Ev) (toggling : Bool) (s0 : State) : Runs (tick e s0) (execSerrHbCheck e toggling s0) := by
  unfold Sys2Proof.Machine.execSerrHbCheck
  have h₀ := Same.refl (tick e s0)
  generalize tick e s0 = r₁ at h₀ ⊢
  repeat' first
    | intro _ | with_reducible first | assumption | apply Runs.next | apply Same.upd
    | fail_if_no_progress with_reducible apply Same.fields | with_reducible first | apply Runs.ite | refine Same.of_snd (by assumption) ?_ | refine Same.of_fst (by assumption) ?_ | apply Same.ite
    | split | dsimp only

theorem Runs.execYieldHalf (e : Ev) (s0 : State) : Runs (tick e s0) (execYieldHalf e s0) := by
  unfold Sys2Proof.Machine.execYieldHalf
  have h₀ := Same.refl (tick e s0)
  generalize tick e s0 = r₁ at h₀ ⊢
  repeat' first
    | intro _ | with_reducible first | assumption | apply Runs.next | apply Same.resetHalf | apply Same.stopInstances
    | with_reducible first | apply Runs.ite

theorem Runs.execFlitReceive (e : Ev) (module : Nat) (ok corrected : Bool) (seq : Nat) (tail : FlitEnd) (s0 : State) : Runs (tick e s0) (execFlitReceive e module ok corrected seq tail s0) := by
  unfold Sys2Proof.Machine.execFlitReceive
  have h₀ := Same.refl (tick e s0)
  generalize tick e s0 = r₁ at h₀ ⊢
  repeat' first
    | intro _ | with_reducible first | assumption | apply Runs.next | apply Same.askReplay | apply Same.creditBack | apply Same.drain | apply Same.upd
    | fail_if_no_progress with_reducible apply Same.fields | with_reducible first | apply Runs.ite | refine Same.of_snd (by assumption) ?_ | refine Same.of_fst (by assumption) ?_ | apply Same.ite

theorem Runs.execHatchLaneRepair (e : Ev) (module lane : Nat) (s0 : State) : Runs (tick e s0) (execHatchLaneRepair e module lane s0) := by
  unfold Sys2Proof.Machine.execHatchLaneRepair
  have h₀ := Same.refl (tick e s0)
  generalize tick e s0 = r₁ at h₀ ⊢
  repeat' first
    | intro _ | with_reducible first | assumption | apply Runs.next | apply Same.failModule | apply Same.hatchRecord | apply Same.upd
    | with_reducible first | apply Runs.ite

theorem Runs.execHatchModuleFailover (e : Ev) (module : Nat) (s0 : State) : Runs (tick e s0) (execHatchModuleFailover e module s0) := by
  unfold Sys2Proof.Machine.execHatchModuleFailover
  have h₀ := Same.refl (tick e s0)
  generalize tick e s0 = r₁ at h₀ ⊢
  repeat' first
    | intro _ | with_reducible first | assumption | apply Runs.next | apply Same.failModule
    | with_reducible first | apply Runs.ite

theorem Runs.execHatchLinkLoss (e : Ev) (s0 : State) : Runs (tick e s0) (execHatchLinkLoss e s0) := by
  unfold Sys2Proof.Machine.execHatchLinkLoss
  have h₀ := Same.refl (tick e s0)
  generalize tick e s0 = r₁ at h₀ ⊢
  repeat' first
    | intro _ | with_reducible first | assumption | apply Runs.next | apply Same.answerOut | apply Same.upd
    | with_reducible first | apply Runs.ite

theorem Runs.execHatchLinkTraining (e : Ev) (peerRelease : Nat) (ok : Bool) (s0 : State) : Runs (tick e s0) (execHatchLinkTraining e peerRelease ok s0) := by
  unfold Sys2Proof.Machine.execHatchLinkTraining
  have h₀ := Same.refl (tick e s0)
  generalize tick e s0 = r₁ at h₀ ⊢
  repeat' first
    | intro _ | with_reducible first | assumption | apply Runs.next | apply Same.incident | apply Same.serr | apply Same.syncSoak | apply Same.takeVt
      | apply Same.uniteHatch | apply Same.upd
    | fail_if_no_progress with_reducible apply Same.fields | with_reducible first | apply Runs.ite | refine Same.of_snd (by assumption) ?_ | refine Same.of_fst (by assumption) ?_ | apply Same.ite

theorem Runs.execHatchViolation (e : Ev) (code type tag : Nat) (s0 : State) : Runs (tick e s0) (execHatchViolation e code type tag s0) := by
  unfold Sys2Proof.Machine.execHatchViolation
  have h₀ := Same.refl (tick e s0)
  generalize tick e s0 = r₁ at h₀ ⊢
  repeat' first
    | intro _ | with_reducible first | assumption | apply Runs.next | apply Same.violation
    | with_reducible first | apply Runs.ite

theorem Runs.execMWrite (e : Ev) (k : Pkt) (addr : Nat) (data : List Byte) (s0 : State) : Runs (tick e s0) (execMWrite e k addr data s0) := by
  unfold Sys2Proof.Machine.execMWrite
  have h₀ := Same.refl (tick e s0)
  generalize tick e s0 = r₁ at h₀ ⊢
  repeat' first
    | intro _ | with_reducible first | assumption | apply Runs.next | apply Same.arrive | apply Same.violation
    | with_reducible first | apply Runs.ite

theorem Runs.execMRead (e : Ev) (k : Pkt) (addr len : Nat) (s0 : State) : Runs (tick e s0) (execMRead e k addr len s0) := by
  unfold Sys2Proof.Machine.execMRead
  have h₀ := Same.refl (tick e s0)
  generalize tick e s0 = r₁ at h₀ ⊢
  repeat' first
    | intro _ | with_reducible first | assumption | apply Runs.next | apply Same.arrive | apply Same.issued | apply Same.violation
    | with_reducible first | apply Runs.ite

theorem Runs.execAmo (e : Ev) (k : Pkt) (op : AmoOp) (addr width val : Nat) (s0 : State) : Runs (tick e s0) (execAmo e k op addr width val s0) := by
  unfold Sys2Proof.Machine.execAmo
  have h₀ := Same.refl (tick e s0)
  generalize tick e s0 = r₁ at h₀ ⊢
  repeat' first
    | intro _ | with_reducible first | assumption | apply Runs.next | apply Same.wordRequest
    | with_reducible first | apply Runs.ite

theorem Runs.execLoadReserved (e : Ev) (k : Pkt) (hart addr width : Nat) (s0 : State) : Runs (tick e s0) (execLoadReserved e k hart addr width s0) := by
  unfold Sys2Proof.Machine.execLoadReserved
  have h₀ := Same.refl (tick e s0)
  generalize tick e s0 = r₁ at h₀ ⊢
  repeat' first
    | intro _ | with_reducible first | assumption | apply Runs.next | apply Same.wordRequest
    | with_reducible first | apply Runs.ite

theorem Runs.execStoreConditional (e : Ev) (k : Pkt) (hart addr width val : Nat) (s0 : State) : Runs (tick e s0) (execStoreConditional e k hart addr width val s0) := by
  unfold Sys2Proof.Machine.execStoreConditional
  have h₀ := Same.refl (tick e s0)
  generalize tick e s0 = r₁ at h₀ ⊢
  repeat' first
    | intro _ | with_reducible first | assumption | apply Runs.next | apply Same.wordRequest
    | with_reducible first | apply Runs.ite

theorem Runs.execSemaphoreEntryExpiry (e : Ev) (idx : Nat) (s0 : State) : Runs (tick e s0) (execSemaphoreEntryExpiry e idx s0) := by
  unfold Sys2Proof.Machine.execSemaphoreEntryExpiry
  have h₀ := Same.refl (tick e s0)
  generalize tick e s0 = r₁ at h₀ ⊢
  repeat' first
    | intro _ | with_reducible first | assumption | apply Runs.next | apply Same.upd
    | with_reducible first | apply Runs.ite

theorem Runs.execCpl (e : Ev) (tag : Nat) (data : List Byte) (s0 : State) : Runs (tick e s0) (execCpl e tag data s0) := by
  unfold Sys2Proof.Machine.execCpl
  have h₀ := Same.refl (tick e s0)
  generalize tick e s0 = r₁ at h₀ ⊢
  repeat' first
    | intro _ | with_reducible first | assumption | apply Runs.next | apply Same.completed
    | with_reducible first | apply Runs.ite

theorem Runs.execCplSt (e : Ev) (tag : Nat) (st : Status) (s0 : State) : Runs (tick e s0) (execCplSt e tag st s0) := by
  unfold Sys2Proof.Machine.execCplSt
  have h₀ := Same.refl (tick e s0)
  generalize tick e s0 = r₁ at h₀ ⊢
  repeat' first
    | intro _ | with_reducible first | assumption | apply Runs.next | apply Same.completed | apply Same.cplFault
    | with_reducible first | apply Runs.ite

theorem Runs.execResWr (e : Ev) (addr : Nat) (data : List Byte) (s0 : State) : Runs (tick e s0) (execResWr e addr data s0) := by
  unfold Sys2Proof.Machine.execResWr
  have h₀ := Same.refl (tick e s0)
  generalize tick e s0 = r₁ at h₀ ⊢
  repeat' first
    | intro _ | with_reducible first | assumption | apply Runs.next | apply Same.store | apply Same.unmapped | apply Same.violation
    | with_reducible first | apply Runs.ite

theorem Runs.execMsgInterrupt (e : Ev) (x : MsgH) (hart ident : Nat) (s0 : State) : Runs (tick e s0) (execMsgInterrupt e x hart ident s0) := by
  unfold Sys2Proof.Machine.execMsgInterrupt
  have h₀ := Same.refl (tick e s0)
  generalize tick e s0 = r₁ at h₀ ⊢
  repeat' first
    | intro _ | with_reducible first | assumption | apply Runs.next | apply Same.draw | apply Same.interrupt | apply Same.message
    | with_reducible first | apply Runs.ite

theorem Runs.execMsgQueueCompletionIrq (e : Ev) (x : MsgH) (q : Nat) (s0 : State) : Runs (tick e s0) (execMsgQueueCompletionIrq e x q s0) := by
  unfold Sys2Proof.Machine.execMsgQueueCompletionIrq
  have h₀ := Same.refl (tick e s0)
  generalize tick e s0 = r₁ at h₀ ⊢
  repeat' first
    | intro _ | with_reducible first | assumption | apply Runs.next | apply Same.emit | apply Same.message
    | with_reducible first | apply Runs.ite

theorem Runs.execMsgRemoteWatchRequest (e : Ev) (x : MsgH) (q gen idx addr val : Nat) (s0 : State) : Runs (tick e s0) (execMsgRemoteWatchRequest e x q gen idx addr val s0) := by
  unfold Sys2Proof.Machine.execMsgRemoteWatchRequest
  have h₀ := Same.refl (tick e s0)
  generalize tick e s0 = r₁ at h₀ ⊢
  repeat' first
    | intro _ | with_reducible first | assumption | apply Runs.next | apply Same.addWatch | apply Same.message
    | fail_if_no_progress with_reducible apply Same.fields | with_reducible first | apply Runs.ite | refine Same.of_snd (by assumption) ?_ | refine Same.of_fst (by assumption) ?_ | apply Same.ite

theorem Runs.execMsgRemoteWatchReply (e : Ev) (x : MsgH) (q gen idx : Nat) (s0 : State) : Runs (tick e s0) (execMsgRemoteWatchReply e x q gen idx s0) := by
  unfold Sys2Proof.Machine.execMsgRemoteWatchReply
  have h₀ := Same.refl (tick e s0)
  generalize tick e s0 = r₁ at h₀ ⊢
  repeat' first
    | intro _ | with_reducible first | assumption | apply Runs.next | apply Same.message | apply Same.watchReply
    | fail_if_no_progress with_reducible apply Same.fields | with_reducible first | apply Runs.ite | refine Same.of_snd (by assumption) ?_ | refine Same.of_fst (by assumption) ?_ | apply Same.ite

theorem Runs.execMsgGatewayFrame (e : Ev) (x : MsgH) (f : Frame) (dst : Nat) (s0 : State) : Runs (tick e s0) (execMsgGatewayFrame e x f dst s0) := by
  unfold Sys2Proof.Machine.execMsgGatewayFrame
  have h₀ := Same.refl (tick e s0)
  generalize tick e s0 = r₁ at h₀ ⊢
  repeat' first
    | intro _ | with_reducible first | assumption | apply Runs.next | apply Same.message | apply Same.toBus
    | fail_if_no_progress with_reducible apply Same.fields | with_reducible first | apply Runs.ite | refine Same.of_snd (by assumption) ?_ | refine Same.of_fst (by assumption) ?_ | apply Same.ite

theorem Runs.execMsgControlRelay (e : Ev) (x : MsgH) (_frag : List Byte) (s0 : State) : Runs (tick e s0) (execMsgControlRelay e x _frag s0) := by
  unfold Sys2Proof.Machine.execMsgControlRelay
  have h₀ := Same.refl (tick e s0)
  generalize tick e s0 = r₁ at h₀ ⊢
  repeat' first
    | intro _ | with_reducible first | assumption | apply Runs.next | apply Same.message
    | with_reducible first | apply Runs.ite

theorem Runs.execResMsgResult (e : Ev) (x : MsgH) (task ch round : Nat) (st : Status) (s0 : State) : Runs (tick e s0) (execResMsgResult e x task ch round st s0) := by
  unfold Sys2Proof.Machine.execResMsgResult
  have h₀ := Same.refl (tick e s0)
  generalize tick e s0 = r₁ at h₀ ⊢
  repeat' first
    | intro _ | with_reducible first | assumption | apply Runs.next | apply Same.message | apply Same.stage
    | with_reducible first | apply Runs.ite

theorem Runs.execResMsgVerdict (e : Ev) (x : MsgH) (task round : Nat) (v : Verdict) (s0 : State) : Runs (tick e s0) (execResMsgVerdict e x task round v s0) := by
  unfold Sys2Proof.Machine.execResMsgVerdict
  have h₀ := Same.refl (tick e s0)
  generalize tick e s0 = r₁ at h₀ ⊢
  repeat' first
    | intro _ | with_reducible first | assumption | apply Runs.next | apply Same.message | apply Same.verdictArrives
    | with_reducible first | apply Runs.ite

theorem Runs.execVtCompare (e : Ev) (x : MsgH) (peerVt : Nat) (s0 : State) : Runs (tick e s0) (execVtCompare e x peerVt s0) := by
  unfold Sys2Proof.Machine.execVtCompare
  have h₀ := Same.refl (tick e s0)
  generalize tick e s0 = r₁ at h₀ ⊢
  repeat' first
    | intro _ | with_reducible first | assumption | apply Runs.next | apply Same.compareVt | apply Same.followVt | apply Same.message
    | with_reducible first | apply Runs.ite

theorem Runs.execResMsgGoingDown (e : Ev) (x : MsgH) (kind reason vt : Nat) (s0 : State) : Runs (tick e s0) (execResMsgGoingDown e x kind reason vt s0) := by
  unfold Sys2Proof.Machine.execResMsgGoingDown
  have h₀ := Same.refl (tick e s0)
  generalize tick e s0 = r₁ at h₀ ⊢
  repeat' first
    | intro _ | with_reducible first | assumption | apply Runs.next | apply Same.emit | apply Same.goingDown | apply Same.message
    | with_reducible first | apply Runs.ite

theorem Runs.execResMsgGatehouseState (e : Ev) (x : MsgH) (st : GhState) (s0 : State) : Runs (tick e s0) (execResMsgGatehouseState e x st s0) := by
  unfold Sys2Proof.Machine.execResMsgGatehouseState
  have h₀ := Same.refl (tick e s0)
  generalize tick e s0 = r₁ at h₀ ⊢
  repeat' first
    | intro _ | with_reducible first | assumption | apply Runs.next | apply Same.answerOut | apply Same.message | apply Same.upd
    | fail_if_no_progress with_reducible apply Same.fields | with_reducible first | apply Runs.ite | refine Same.of_snd (by assumption) ?_ | refine Same.of_fst (by assumption) ?_ | apply Same.ite

theorem Runs.execResMsgRepairNotice (e : Ev) (x : MsgH) (release : Nat) (s0 : State) : Runs (tick e s0) (execResMsgRepairNotice e x release s0) := by
  unfold Sys2Proof.Machine.execResMsgRepairNotice
  have h₀ := Same.refl (tick e s0)
  generalize tick e s0 = r₁ at h₀ ⊢
  repeat' first
    | intro _ | with_reducible first | assumption | apply Runs.next | apply Same.message | apply Same.upd
    | with_reducible first | apply Runs.ite

theorem Runs.execCanFrameReceive (e : Ev) (bus : Nat) (f : Frame) (s0 : State) : Runs (tick e s0) (execCanFrameReceive e bus f s0) := by
  unfold Sys2Proof.Machine.execCanFrameReceive
  have h₀ := Same.refl (tick e s0)
  generalize tick e s0 = r₁ at h₀ ⊢
  repeat' first
    | intro _ | with_reducible first | assumption | apply Runs.next | apply Same.route
    | with_reducible first | apply Runs.ite

theorem Runs.execStreamIngress (e : Ev) (slot seqNum : Nat) (msgs : List AcfMsg) (s0 : State) : Runs (tick e s0) (execStreamIngress e slot seqNum msgs s0) := by
  unfold Sys2Proof.Machine.execStreamIngress
  have h₀ := Same.refl (tick e s0)
  generalize tick e s0 = r₁ at h₀ ⊢
  repeat' first
    | intro _ | with_reducible first | assumption | apply Runs.next | apply Same.routeAcf | apply Same.upd
    | with_reducible first | apply Runs.ite | refine Same.foldl _ _ (fun _ _ _ => ?_) ?_

theorem Runs.execStreamEgressHoldExpiry (e : Ev) (slot : Nat) (s0 : State) : Runs (tick e s0) (execStreamEgressHoldExpiry e slot s0) := by
  unfold Sys2Proof.Machine.execStreamEgressHoldExpiry
  have h₀ := Same.refl (tick e s0)
  generalize tick e s0 = r₁ at h₀ ⊢
  repeat' first
    | intro _ | with_reducible first | assumption | apply Runs.next | apply Same.flushSlot
    | with_reducible first | apply Runs.ite

theorem Runs.execGatewayQueueDoorbell (e : Ev) (gq : Nat) (f : Frame) (s0 : State) : Runs (tick e s0) (execGatewayQueueDoorbell e gq f s0) := by
  unfold Sys2Proof.Machine.execGatewayQueueDoorbell
  have h₀ := Same.refl (tick e s0)
  generalize tick e s0 = r₁ at h₀ ⊢
  repeat' first
    | intro _ | with_reducible first | assumption | apply Runs.next | apply Same.route
    | with_reducible first | apply Runs.ite

theorem Runs.execBusOffRecovery (e : Ev) (ctrl : Nat) (s0 : State) : Runs (tick e s0) (execBusOffRecovery e ctrl s0) := by
  unfold Sys2Proof.Machine.execBusOffRecovery
  have h₀ := Same.refl (tick e s0)
  generalize tick e s0 = r₁ at h₀ ⊢
  repeat' first
    | intro _ | with_reducible first | assumption | apply Runs.next | apply Same.setBusOff
    | with_reducible first | apply Runs.ite

theorem Runs.execHello (e : Ev) (partner seq pid : Nat) (s0 : State) : Runs (tick e s0) (execHello e partner seq pid s0) := by
  unfold Sys2Proof.Machine.execHello
  have h₀ := Same.refl (tick e s0)
  generalize tick e s0 = r₁ at h₀ ⊢
  repeat' first
    | intro _ | with_reducible first | assumption | apply Runs.next | apply Same.receive
    | with_reducible first | apply Runs.ite

theorem Runs.execMailbox (e : Ev) (hd : FrameHdr) (msgs : List MsgHead) (s0 : State) : Runs (tick e s0) (execMailbox e hd msgs s0) := by
  unfold Sys2Proof.Machine.execMailbox
  have h₀ := Same.refl (tick e s0)
  generalize tick e s0 = r₁ at h₀ ⊢
  repeat' first
    | intro _ | with_reducible first | assumption | apply Runs.next | apply Same.receive
    | with_reducible first | apply Runs.ite

theorem Runs.execRegRead (e : Ev) (hd : FrameHdr) (vdi off count : Nat) (s0 : State) : Runs (tick e s0) (execRegRead e hd vdi off count s0) := by
  unfold Sys2Proof.Machine.execRegRead
  have h₀ := Same.refl (tick e s0)
  generalize tick e s0 = r₁ at h₀ ⊢
  repeat' first
    | intro _ | with_reducible first | assumption | apply Runs.next | apply Same.receive
    | with_reducible first | apply Runs.ite

theorem Runs.execRegWrite (e : Ev) (hd : FrameHdr) (vdi off : Nat) (vals : List Nat) (s0 : State) : Runs (tick e s0) (execRegWrite e hd vdi off vals s0) := by
  unfold Sys2Proof.Machine.execRegWrite
  have h₀ := Same.refl (tick e s0)
  generalize tick e s0 = r₁ at h₀ ⊢
  repeat' first
    | intro _ | with_reducible first | assumption | apply Runs.next | apply Same.receive
    | with_reducible first | apply Runs.ite

theorem Runs.execDataWrite (e : Ev) (hd : FrameHdr) (off : Nat) (data : List Byte) (s0 : State) : Runs (tick e s0) (execDataWrite e hd off data s0) := by
  unfold Sys2Proof.Machine.execDataWrite
  have h₀ := Same.refl (tick e s0)
  generalize tick e s0 = r₁ at h₀ ⊢
  repeat' first
    | intro _ | with_reducible first | assumption | apply Runs.next | apply Same.receive
    | with_reducible first | apply Runs.ite

theorem Runs.execDataRead (e : Ev) (hd : FrameHdr) (off len : Nat) (s0 : State) : Runs (tick e s0) (execDataRead e hd off len s0) := by
  unfold Sys2Proof.Machine.execDataRead
  have h₀ := Same.refl (tick e s0)
  generalize tick e s0 = r₁ at h₀ ⊢
  repeat' first
    | intro _ | with_reducible first | assumption | apply Runs.next | apply Same.receive
    | with_reducible first | apply Runs.ite

theorem Runs.execRingFrame (e : Ev) (hd : FrameHdr) (index : Nat) (slots : List Nat) (s0 : State) : Runs (tick e s0) (execRingFrame e hd index slots s0) := by
  unfold Sys2Proof.Machine.execRingFrame
  have h₀ := Same.refl (tick e s0)
  generalize tick e s0 = r₁ at h₀ ⊢
  repeat' first
    | intro _ | with_reducible first | assumption | apply Runs.next | apply Same.receive
    | with_reducible first | apply Runs.ite

theorem Runs.execPeerWatch (e : Ev) (src q gen idx addr val rpeer : Nat) (s0 : State) : Runs (tick e s0) (execPeerWatch e src q gen idx addr val rpeer s0) := by
  unfold Sys2Proof.Machine.execPeerWatch
  have h₀ := Same.refl (tick e s0)
  generalize tick e s0 = r₁ at h₀ ⊢
  repeat' first
    | intro _ | with_reducible first | assumption | apply Runs.next | apply Same.addWatch | apply Same.countRx | apply Same.incident
    | with_reducible first | apply Runs.ite

theorem Runs.execPeerReply (e : Ev) (src q gen idx : Nat) (s0 : State) : Runs (tick e s0) (execPeerReply e src q gen idx s0) := by
  unfold Sys2Proof.Machine.execPeerReply
  have h₀ := Same.refl (tick e s0)
  generalize tick e s0 = r₁ at h₀ ⊢
  repeat' first
    | intro _ | with_reducible first | assumption | apply Runs.next | apply Same.countRx | apply Same.watchReply
    | with_reducible first | apply Runs.ite

theorem Runs.execMalformedFrame (e : Ev) (partner : Nat) (kind : BadFrame) (s0 : State) : Runs (tick e s0) (execMalformedFrame e partner kind s0) := by
  unfold Sys2Proof.Machine.execMalformedFrame
  have h₀ := Same.refl (tick e s0)
  generalize tick e s0 = r₁ at h₀ ⊢
  repeat' first
    | intro _ | with_reducible first | assumption | apply Runs.next | apply Same.badFrame | apply Same.incident | apply Same.orphan | apply Same.upd
    | with_reducible first | apply Runs.ite

theorem Runs.execMalformedBlockExpiry (e : Ev) (partner : Nat) (s0 : State) : Runs (tick e s0) (execMalformedBlockExpiry e partner s0) := by
  unfold Sys2Proof.Machine.execMalformedBlockExpiry
  have h₀ := Same.refl (tick e s0)
  generalize tick e s0 = r₁ at h₀ ⊢
  repeat' first
    | intro _ | with_reducible first | assumption | apply Runs.next | apply Same.upd
    | fail_if_no_progress with_reducible apply Same.fields | with_reducible first | apply Runs.ite | refine Same.of_snd (by assumption) ?_ | refine Same.of_fst (by assumption) ?_ | apply Same.ite
    | split | dsimp only

theorem Runs.execSessionIdleTimeout (e : Ev) (partner : Nat) (s0 : State) : Runs (tick e s0) (execSessionIdleTimeout e partner s0) := by
  unfold Sys2Proof.Machine.execSessionIdleTimeout
  have h₀ := Same.refl (tick e s0)
  generalize tick e s0 = r₁ at h₀ ⊢
  repeat' first
    | intro _ | with_reducible first | assumption | apply Runs.next | apply Same.orphan | apply Same.upd
    | fail_if_no_progress with_reducible apply Same.fields | with_reducible first | apply Runs.ite | refine Same.of_snd (by assumption) ?_ | refine Same.of_fst (by assumption) ?_ | apply Same.ite
    | split | dsimp only

theorem Runs.execHeartbeat (e : Ev) (s0 : State) : Runs (tick e s0) (execHeartbeat e s0) := by
  unfold Sys2Proof.Machine.execHeartbeat
  have h₀ := Same.refl (tick e s0)
  generalize tick e s0 = r₁ at h₀ ⊢
  repeat' first
    | intro _ | with_reducible first | assumption | apply Runs.next | apply Same.draw | apply Same.emit | apply Same.upd
    | fail_if_no_progress with_reducible apply Same.fields | with_reducible first | apply Runs.ite | refine Same.of_snd (by assumption) ?_ | refine Same.of_fst (by assumption) ?_ | apply Same.ite

theorem Runs.execLatchLeaseExpiry (e : Ev) (s0 : State) : Runs (tick e s0) (execLatchLeaseExpiry e s0) := by
  unfold Sys2Proof.Machine.execLatchLeaseExpiry
  have h₀ := Same.refl (tick e s0)
  generalize tick e s0 = r₁ at h₀ ⊢
  repeat' first
    | intro _ | with_reducible first | assumption | apply Runs.next | apply Same.endLease
    | with_reducible first | apply Runs.ite

theorem Runs.execControlPortRetire (e : Ev) (selfTestFail : Bool) (s0 : State) : Runs (tick e s0) (execControlPortRetire e selfTestFail s0) := by
  unfold Sys2Proof.Machine.execControlPortRetire
  have h₀ := Same.refl (tick e s0)
  generalize tick e s0 = r₁ at h₀ ⊢
  repeat' first
    | intro _ | with_reducible first | assumption | apply Runs.next | apply Same.orphan | apply Same.upd
    | with_reducible first | apply Runs.ite | refine Same.foldl _ _ (fun _ _ _ => ?_) ?_

theorem Runs.execLatchTake (e : Ev) (m : Msg) (pid : Nat) (s0 : State) : Runs (tick e s0) (execLatchTake e m pid s0) := by
  unfold Sys2Proof.Machine.execLatchTake
  have h₀ := Same.refl (tick e s0)
  generalize tick e s0 = r₁ at h₀ ⊢
  repeat' first
    | intro _ | with_reducible first | assumption | apply Runs.next | apply Same.endLease | apply Same.mbox | apply Same.takeLatch
    | fail_if_no_progress with_reducible apply Same.fields | with_reducible first | apply Runs.ite | refine Same.of_snd (by assumption) ?_ | refine Same.of_fst (by assumption) ?_ | apply Same.ite
    | split | dsimp only

theorem Runs.execLatchRenew (e : Ev) (m : Msg) (s0 : State) : Runs (tick e s0) (execLatchRenew e m s0) := by
  unfold Sys2Proof.Machine.execLatchRenew
  have h₀ := Same.refl (tick e s0)
  generalize tick e s0 = r₁ at h₀ ⊢
  repeat' first
    | intro _ | with_reducible first | assumption | apply Runs.next | apply Same.freeLatch | apply Same.mbox
    | fail_if_no_progress with_reducible apply Same.fields | with_reducible first | apply Runs.ite | refine Same.of_snd (by assumption) ?_ | refine Same.of_fst (by assumption) ?_ | apply Same.ite
    | split | dsimp only

theorem Runs.execLatchRelease (e : Ev) (m : Msg) (s0 : State) : Runs (tick e s0) (execLatchRelease e m s0) := by
  unfold Sys2Proof.Machine.execLatchRelease
  have h₀ := Same.refl (tick e s0)
  generalize tick e s0 = r₁ at h₀ ⊢
  repeat' first
    | intro _ | with_reducible first | assumption | apply Runs.next | apply Same.freeLatch | apply Same.mbox
    | with_reducible first | apply Runs.ite

theorem Runs.execLatchQuery (e : Ev) (m : Msg) (s0 : State) : Runs (tick e s0) (execLatchQuery e m s0) := by
  unfold Sys2Proof.Machine.execLatchQuery
  have h₀ := Same.refl (tick e s0)
  generalize tick e s0 = r₁ at h₀ ⊢
  repeat' first
    | intro _ | with_reducible first | assumption | apply Runs.next | apply Same.draw | apply Same.mbox
    | fail_if_no_progress with_reducible apply Same.fields | with_reducible first | apply Runs.ite | refine Same.of_snd (by assumption) ?_ | refine Same.of_fst (by assumption) ?_ | apply Same.ite
    | split

theorem Runs.execDevInfo (e : Ev) (m : Msg) (s0 : State) : Runs (tick e s0) (execDevInfo e m s0) := by
  unfold Sys2Proof.Machine.execDevInfo
  have h₀ := Same.refl (tick e s0)
  generalize tick e s0 = r₁ at h₀ ⊢
  repeat' first
    | intro _ | with_reducible first | assumption | apply Runs.next | apply Same.mbox
    | with_reducible first | apply Runs.ite

theorem Runs.execStatsRead (e : Ev) (m : Msg) (block : Nat) (clear : Bool) (unit reg index count : Nat) (s0 : State) : Runs (tick e s0) (execStatsRead e m block clear unit reg index count s0) := by
  unfold Sys2Proof.Machine.execStatsRead
  have h₀ := Same.refl (tick e s0)
  generalize tick e s0 = r₁ at h₀ ⊢
  repeat' first
    | intro _ | with_reducible first | assumption | apply Runs.next | apply Same.mbox | apply Same.moveOn | apply Same.upd
    | fail_if_no_progress with_reducible apply Same.fields | with_reducible first | apply Runs.ite | refine Same.of_snd (by assumption) ?_ | refine Same.of_fst (by assumption) ?_ | apply Same.ite
    | split

theorem Runs.execIncidentRead (e : Ev) (m : Msg) (first count dst : Nat) (s0 : State) : Runs (tick e s0) (execIncidentRead e m first count dst s0) := by
  unfold Sys2Proof.Machine.execIncidentRead
  have h₀ := Same.refl (tick e s0)
  generalize tick e s0 = r₁ at h₀ ⊢
  repeat' first
    | intro _ | with_reducible first | assumption | apply Runs.next | apply Same.dstBytes | apply Same.mbox | apply Same.withDst
    | fail_if_no_progress with_reducible apply Same.fields | with_reducible first | apply Runs.ite | refine Same.of_snd (by assumption) ?_ | refine Same.of_fst (by assumption) ?_ | apply Same.ite
    | split | dsimp only

theorem Runs.execAccountRead (e : Ev) (m : Msg) (ctx dst : Nat) (s0 : State) : Runs (tick e s0) (execAccountRead e m ctx dst s0) := by
  unfold Sys2Proof.Machine.execAccountRead
  have h₀ := Same.refl (tick e s0)
  generalize tick e s0 = r₁ at h₀ ⊢
  repeat' first
    | intro _ | with_reducible first | assumption | apply Runs.next | apply Same.mbox | apply Same.withDst
    | fail_if_no_progress with_reducible apply Same.fields | with_reducible first | apply Runs.ite | refine Same.of_snd (by assumption) ?_ | refine Same.of_fst (by assumption) ?_ | apply Same.ite
    | split

theorem Runs.execWinWrite (e : Ev) (m : Msg) (first count src : Nat) (s0 : State) : Runs (tick e s0) (execWinWrite e m first count src s0) := by
  unfold Sys2Proof.Machine.execWinWrite
  have h₀ := Same.refl (tick e s0)
  generalize tick e s0 = r₁ at h₀ ⊢
  repeat' first
    | intro _ | with_reducible first | assumption | apply Runs.next | apply Same.mbox | apply Same.upd | apply Same.withSrc
    | fail_if_no_progress with_reducible apply Same.fields | with_reducible first | apply Runs.ite | refine Same.of_snd (by assumption) ?_ | refine Same.of_fst (by assumption) ?_ | apply Same.ite
    | split

theorem Runs.execWinActivate (e : Ev) (m : Msg) (vt : Nat) (standby : Bool) (s0 : State) : Runs (tick e s0) (execWinActivate e m vt standby s0) := by
  unfold Sys2Proof.Machine.execWinActivate
  have h₀ := Same.refl (tick e s0)
  generalize tick e s0 = r₁ at h₀ ⊢
  repeat' (first
    | (with_reducible assumption)
    | (with_reducible apply Runs.next)
    | (with_reducible apply Runs.ite)
    | (intro _)
    | (with_reducible apply Same.draw)
    | (with_reducible apply Same.mbox)
    | (with_reducible apply Same.perrClear)
    | (with_reducible apply Same.saveConf)
    | (with_reducible apply Same.upd)
    | (fail_if_no_progress with_reducible apply Same.fields)
    | (with_reducible refine Same.of_snd (by assumption) ?_)
    | (with_reducible refine Same.of_fst (by assumption) ?_)
    | (with_reducible apply Same.ite)
    | (split)
    | (dsimp only))

theorem Runs.execWinFrame (e : Ev) (m : Msg) (length phase : Nat) (s0 : State) : Runs (tick e s0) (execWinFrame e m length phase s0) := by
  unfold Sys2Proof.Machine.execWinFrame
  have h₀ := Same.refl (tick e s0)
  generalize tick e s0 = r₁ at h₀ ⊢
  repeat' first
    | intro _ | with_reducible first | assumption | apply Runs.next | apply Same.mboxL | apply Same.upd
    | fail_if_no_progress with_reducible apply Same.fields | with_reducible first | apply Runs.ite | refine Same.of_snd (by assumption) ?_ | refine Same.of_fst (by assumption) ?_ | apply Same.ite
    | split

theorem Runs.execPartWrite (e : Ev) (m : Msg) (part cfg cores : Nat) (s0 : State) : Runs (tick e s0) (execPartWrite e m part cfg cores s0) := by
  unfold Sys2Proof.Machine.execPartWrite
  have h₀ := Same.refl (tick e s0)
  generalize tick e s0 = r₁ at h₀ ⊢
  repeat' first
    | intro _ | with_reducible first | assumption | apply Runs.next | apply Same.mboxL | apply Same.upd
    | fail_if_no_progress with_reducible apply Same.fields | with_reducible first | apply Runs.ite | refine Same.of_snd (by assumption) ?_ | refine Same.of_fst (by assumption) ?_ | apply Same.ite
    | split

theorem Runs.execTaskWrite (e : Ev) (m : Msg) (task src : Nat) (s0 : State) : Runs (tick e s0) (execTaskWrite e m task src s0) := by
  unfold Sys2Proof.Machine.execTaskWrite
  have h₀ := Same.refl (tick e s0)
  generalize tick e s0 = r₁ at h₀ ⊢
  repeat' first
    | intro _ | with_reducible first | assumption | apply Runs.next | apply Same.mboxL | apply Same.store | apply Same.upd | apply Same.withSrc
    | fail_if_no_progress with_reducible apply Same.fields | with_reducible first | apply Runs.ite | refine Same.of_snd (by assumption) ?_ | refine Same.of_fst (by assumption) ?_ | apply Same.ite
    | split

theorem Runs.execTlyCfg (e : Ev) (m : Msg) (base staging audit : Nat) (enable : Bool) (s0 : State) : Runs (tick e s0) (execTlyCfg e m base staging audit enable s0) := by
  unfold Sys2Proof.Machine.execTlyCfg
  have h₀ := Same.refl (tick e s0)
  generalize tick e s0 = r₁ at h₀ ⊢
  repeat' first
    | intro _ | with_reducible first | assumption | apply Runs.next | apply Same.mboxL | apply Same.upd
    | fail_if_no_progress with_reducible apply Same.fields | with_reducible first | apply Runs.ite | refine Same.of_snd (by assumption) ?_ | refine Same.of_fst (by assumption) ?_ | apply Same.ite
    | split | dsimp only

theorem Runs.execWinEnableSet (e : Ev) (m : Msg) (vt : Nat) (s0 : State) : Runs (tick e s0) (execWinEnableSet e m vt s0) := by
  unfold Sys2Proof.Machine.execWinEnableSet
  have h₀ := Same.refl (tick e s0)
  generalize tick e s0 = r₁ at h₀ ⊢
  repeat' first
    | intro _ | with_reducible first | assumption | apply Runs.next | apply Same.mboxL | apply Same.upd
    | fail_if_no_progress with_reducible apply Same.fields | with_reducible first | apply Runs.ite | refine Same.of_snd (by assumption) ?_ | refine Same.of_fst (by assumption) ?_ | apply Same.ite
    | split

theorem Runs.execWinEnableClear (e : Ev) (m : Msg) (s0 : State) : Runs (tick e s0) (execWinEnableClear e m s0) := by
  unfold Sys2Proof.Machine.execWinEnableClear
  have h₀ := Same.refl (tick e s0)
  generalize tick e s0 = r₁ at h₀ ⊢
  repeat' first
    | intro _ | with_reducible first | assumption | apply Runs.next | apply Same.mboxL | apply Same.upd
    | with_reducible first | apply Runs.ite

theorem Runs.execMntShadow (e : Ev) (m : Msg) (cls cfg ports : Nat) (s0 : State) : Runs (tick e s0) (execMntShadow e m cls cfg ports s0) := by
  unfold Sys2Proof.Machine.execMntShadow
  have h₀ := Same.refl (tick e s0)
  generalize tick e s0 = r₁ at h₀ ⊢
  repeat' first
    | intro _ | with_reducible first | assumption | apply Runs.next | apply Same.mbox | apply Same.upd
    | fail_if_no_progress with_reducible apply Same.fields | with_reducible first | apply Runs.ite | refine Same.of_snd (by assumption) ?_ | refine Same.of_fst (by assumption) ?_ | apply Same.ite
    | split

theorem Runs.execMntCommit (e : Ev) (m : Msg) (s0 : State) : Runs (tick e s0) (execMntCommit e m s0) := by
  unfold Sys2Proof.Machine.execMntCommit
  have h₀ := Same.refl (tick e s0)
  generalize tick e s0 = r₁ at h₀ ⊢
  repeat' first
    | intro _ | with_reducible first | assumption | apply Runs.next | apply Same.draw | apply Same.mboxL | apply Same.upd
    | fail_if_no_progress with_reducible apply Same.fields | with_reducible first | apply Runs.ite | refine Same.of_snd (by assumption) ?_ | refine Same.of_fst (by assumption) ?_ | apply Same.ite
    | split | dsimp only

theorem Runs.execMntFb (e : Ev) (m : Msg) (cfg : Nat) (s0 : State) : Runs (tick e s0) (execMntFb e m cfg s0) := by
  unfold Sys2Proof.Machine.execMntFb
  have h₀ := Same.refl (tick e s0)
  generalize tick e s0 = r₁ at h₀ ⊢
  repeat' first
    | intro _ | with_reducible first | assumption | apply Runs.next | apply Same.mboxL | apply Same.upd
    | fail_if_no_progress with_reducible apply Same.fields | with_reducible first | apply Runs.ite | refine Same.of_snd (by assumption) ?_ | refine Same.of_fst (by assumption) ?_ | apply Same.ite
    | split | dsimp only

theorem Runs.execStrAlloc (e : Ev) (m : Msg) (count group : Nat) (s0 : State) : Runs (tick e s0) (execStrAlloc e m count group s0) := by
  unfold Sys2Proof.Machine.execStrAlloc
  have h₀ := Same.refl (tick e s0)
  generalize tick e s0 = r₁ at h₀ ⊢
  repeat' first
    | intro _ | with_reducible first | assumption | apply Runs.next | apply Same.alloc | apply Same.mboxW
    | fail_if_no_progress with_reducible apply Same.fields | with_reducible first | apply Runs.ite | refine Same.of_snd (by assumption) ?_ | refine Same.of_fst (by assumption) ?_ | apply Same.ite
    | split

theorem Runs.execStrFree (e : Ev) (m : Msg) (off count : Nat) (s0 : State) : Runs (tick e s0) (execStrFree e m off count s0) := by
  unfold Sys2Proof.Machine.execStrFree
  have h₀ := Same.refl (tick e s0)
  generalize tick e s0 = r₁ at h₀ ⊢
  repeat' first
    | intro _ | with_reducible first | assumption | apply Runs.next | apply Same.mbox | apply Same.upd
    | fail_if_no_progress with_reducible apply Same.fields | with_reducible first | apply Runs.ite | refine Same.of_snd (by assumption) ?_ | refine Same.of_fst (by assumption) ?_ | apply Same.ite
    | split | dsimp only

theorem Runs.execCacheSize (e : Ev) (m : Msg) (count : Nat) (s0 : State) : Runs (tick e s0) (execCacheSize e m count s0) := by
  unfold Sys2Proof.Machine.execCacheSize
  have h₀ := Same.refl (tick e s0)
  generalize tick e s0 = r₁ at h₀ ⊢
  repeat' first
    | intro _ | with_reducible first | assumption | apply Runs.next | apply Same.alloc | apply Same.mboxW | apply Same.saveConf | apply Same.upd
    | fail_if_no_progress with_reducible apply Same.fields | with_reducible first | apply Runs.ite | refine Same.of_snd (by assumption) ?_ | refine Same.of_fst (by assumption) ?_ | apply Same.ite
    | split | dsimp only

theorem Runs.execModelLoad (e : Ev) (m : Msg) (key src size : Nat) (s0 : State) : Runs (tick e s0) (execModelLoad e m key src size s0) := by
  unfold Sys2Proof.Machine.execModelLoad
  have h₀ := Same.refl (tick e s0)
  generalize tick e s0 = r₁ at h₀ ⊢
  repeat' first
    | intro _ | with_reducible first | assumption | apply Runs.next | apply Same.mbox | apply Same.putModel | apply Same.srcFail
    | fail_if_no_progress with_reducible apply Same.fields | with_reducible first | apply Runs.ite | refine Same.of_snd (by assumption) ?_ | refine Same.of_fst (by assumption) ?_ | apply Same.ite
    | split | dsimp only

theorem Runs.execModelPin (e : Ev) (m : Msg) (key : Nat) (s0 : State) : Runs (tick e s0) (execModelPin e m key s0) := by
  unfold Sys2Proof.Machine.execModelPin
  have h₀ := Same.refl (tick e s0)
  generalize tick e s0 = r₁ at h₀ ⊢
  repeat' first
    | intro _ | with_reducible first | assumption | apply Runs.next | apply Same.mbox | apply Same.pinModel
    | with_reducible first | apply Runs.ite

theorem Runs.execModelUnpin (e : Ev) (m : Msg) (key : Nat) (s0 : State) : Runs (tick e s0) (execModelUnpin e m key s0) := by
  unfold Sys2Proof.Machine.execModelUnpin
  have h₀ := Same.refl (tick e s0)
  generalize tick e s0 = r₁ at h₀ ⊢
  repeat' first
    | intro _ | with_reducible first | assumption | apply Runs.next | apply Same.mbox | apply Same.pinModel
    | with_reducible first | apply Runs.ite

theorem Runs.execStrPatrol (e : Ev) (m : Msg) (enable : Bool) (s0 : State) : Runs (tick e s0) (execStrPatrol e m enable s0) := by
  unfold Sys2Proof.Machine.execStrPatrol
  have h₀ := Same.refl (tick e s0)
  generalize tick e s0 = r₁ at h₀ ⊢
  repeat' first
    | intro _ | with_reducible first | assumption | apply Runs.next | apply Same.mboxL | apply Same.upd
    | with_reducible first | apply Runs.ite

theorem Runs.execRxCfg (e : Ev) (m : Msg) (rx cfg : Nat) (s0 : State) : Runs (tick e s0) (execRxCfg e m rx cfg s0) := by
  unfold Sys2Proof.Machine.execRxCfg
  have h₀ := Same.refl (tick e s0)
  generalize tick e s0 = r₁ at h₀ ⊢
  repeat' first
    | intro _ | with_reducible first | assumption | apply Runs.next | apply Same.gateRefuse | apply Same.mboxL | apply Same.upd
    | fail_if_no_progress with_reducible apply Same.fields | with_reducible first | apply Runs.ite | refine Same.of_snd (by assumption) ?_ | refine Same.of_fst (by assumption) ?_ | apply Same.ite
    | split | dsimp only

theorem Runs.execStreamCfg (e : Ev) (m : Msg) (slot src : Nat) (s0 : State) : Runs (tick e s0) (execStreamCfg e m slot src s0) := by
  unfold Sys2Proof.Machine.execStreamCfg
  have h₀ := Same.refl (tick e s0)
  generalize tick e s0 = r₁ at h₀ ⊢
  repeat' first
    | intro _ | with_reducible first | assumption | apply Runs.next | apply Same.closeFrame | apply Same.gateRefuse | apply Same.mboxL
      | apply Same.upd
    | fail_if_no_progress with_reducible apply Same.fields | with_reducible first | apply Runs.ite | refine Same.of_snd (by assumption) ?_ | refine Same.of_fst (by assumption) ?_ | apply Same.ite
    | split | dsimp only

theorem Runs.execRouteWrite (e : Ev) (m : Msg) (count src : Nat) (s0 : State) : Runs (tick e s0) (execRouteWrite e m count src s0) := by
  unfold Sys2Proof.Machine.execRouteWrite
  have h₀ := Same.refl (tick e s0)
  generalize tick e s0 = r₁ at h₀ ⊢
  repeat' first
    | intro _ | with_reducible first | assumption | apply Runs.next | apply Same.mbox | apply Same.putRoutes | apply Same.saveConf
      | apply Same.withSrc
    | fail_if_no_progress with_reducible apply Same.fields | with_reducible first | apply Runs.ite | refine Same.of_snd (by assumption) ?_ | refine Same.of_fst (by assumption) ?_ | apply Same.ite
    | split | dsimp only

theorem Runs.execRouteDelete (e : Ev) (m : Msg) (count src : Nat) (s0 : State) : Runs (tick e s0) (execRouteDelete e m count src s0) := by
  unfold Sys2Proof.Machine.execRouteDelete
  have h₀ := Same.refl (tick e s0)
  generalize tick e s0 = r₁ at h₀ ⊢
  repeat' first
    | intro _ | with_reducible first | assumption | apply Runs.next | apply Same.dropRoute | apply Same.mboxL | apply Same.withSrc
    | fail_if_no_progress with_reducible apply Same.fields | with_reducible first | apply Runs.ite | refine Same.foldl _ _ (fun _ _ _ => ?_) ?_ | refine Same.foldl_fst _ _ _ (fun _ _ _ => ?_) ?_ | refine Same.foldl_snd _ _ _ (fun _ _ _ => ?_) ?_ | refine Same.of_snd (by assumption) ?_ | refine Same.of_fst (by assumption) ?_ | apply Same.ite
    | split

theorem Runs.execFanoutWrite (e : Ev) (m : Msg) (first count src : Nat) (s0 : State) : Runs (tick e s0) (execFanoutWrite e m first count src s0) := by
  unfold Sys2Proof.Machine.execFanoutWrite
  have h₀ := Same.refl (tick e s0)
  generalize tick e s0 = r₁ at h₀ ⊢
  repeat' first
    | intro _ | with_reducible first | assumption | apply Runs.next | apply Same.mboxL | apply Same.upd | apply Same.withSrc
    | fail_if_no_progress with_reducible apply Same.fields | with_reducible first | apply Runs.ite | refine Same.of_snd (by assumption) ?_ | refine Same.of_fst (by assumption) ?_ | apply Same.ite
    | split | dsimp only

theorem Runs.execGtwCfg (e : Ev) (m : Msg) (ctl ovf : Nat) (s0 : State) : Runs (tick e s0) (execGtwCfg e m ctl ovf s0) := by
  unfold Sys2Proof.Machine.execGtwCfg
  have h₀ := Same.refl (tick e s0)
  generalize tick e s0 = r₁ at h₀ ⊢
  repeat' first
    | intro _ | with_reducible first | assumption | apply Runs.next | apply Same.mboxL | apply Same.putRoutes | apply Same.setHalf | apply Same.upd
    | fail_if_no_progress with_reducible apply Same.fields | with_reducible first | apply Runs.ite | refine Same.of_snd (by assumption) ?_ | refine Same.of_fst (by assumption) ?_ | apply Same.ite
    | split | dsimp only

theorem Runs.execSlotCfg (e : Ev) (m : Msg) (slot src : Nat) (s0 : State) : Runs (tick e s0) (execSlotCfg e m slot src s0) := by
  unfold Sys2Proof.Machine.execSlotCfg
  have h₀ := Same.refl (tick e s0)
  generalize tick e s0 = r₁ at h₀ ⊢
  repeat' first
    | intro _ | with_reducible first | assumption | apply Runs.next | apply Same.flushSlot | apply Same.mboxL | apply Same.upd | apply Same.withSrc
    | fail_if_no_progress with_reducible apply Same.fields | with_reducible first | apply Runs.ite | refine Same.of_snd (by assumption) ?_ | refine Same.of_fst (by assumption) ?_ | apply Same.ite
    | split | dsimp only

theorem Runs.execPortCfg (e : Ev) (m : Msg) (udp ip4 pfx4 pfx6 ip6 : Nat) (s0 : State) : Runs (tick e s0) (execPortCfg e m udp ip4 pfx4 pfx6 ip6 s0) := by
  unfold Sys2Proof.Machine.execPortCfg
  have h₀ := Same.refl (tick e s0)
  generalize tick e s0 = r₁ at h₀ ⊢
  repeat' first
    | intro _ | with_reducible first | assumption | apply Runs.next | apply Same.mboxL | apply Same.upd
    | fail_if_no_progress with_reducible apply Same.fields | with_reducible first | apply Runs.ite | refine Same.of_snd (by assumption) ?_ | refine Same.of_fst (by assumption) ?_ | apply Same.ite
    | split

theorem Runs.execQbvWrite (e : Ev) (m : Msg) (port count cycle base src : Nat) (s0 : State) : Runs (tick e s0) (execQbvWrite e m port count cycle base src s0) := by
  unfold Sys2Proof.Machine.execQbvWrite
  have h₀ := Same.refl (tick e s0)
  generalize tick e s0 = r₁ at h₀ ⊢
  repeat' first
    | intro _ | with_reducible first | assumption | apply Runs.next | apply Same.mboxL | apply Same.upd | apply Same.withSrc
    | fail_if_no_progress with_reducible apply Same.fields | with_reducible first | apply Runs.ite | refine Same.foldl _ _ (fun _ _ _ => ?_) ?_ | refine Same.foldl_fst _ _ _ (fun _ _ _ => ?_) ?_ | refine Same.foldl_snd _ _ _ (fun _ _ _ => ?_) ?_ | refine Same.of_snd (by assumption) ?_ | refine Same.of_fst (by assumption) ?_ | apply Same.ite
    | split | dsimp only

theorem Runs.execPeerFenceWrite (e : Ev) (m : Msg) (first count src : Nat) (s0 : State) : Runs (tick e s0) (execPeerFenceWrite e m first count src s0) := by
  unfold Sys2Proof.Machine.execPeerFenceWrite
  have h₀ := Same.refl (tick e s0)
  generalize tick e s0 = r₁ at h₀ ⊢
  repeat' first
    | intro _ | with_reducible first | assumption | apply Runs.next | apply Same.mboxL | apply Same.upd | apply Same.withSrc
    | fail_if_no_progress with_reducible apply Same.fields | with_reducible first | apply Runs.ite | refine Same.of_snd (by assumption) ?_ | refine Same.of_fst (by assumption) ?_ | apply Same.ite
    | split

theorem Runs.execPeerListWrite (e : Ev) (m : Msg) (first count src : Nat) (s0 : State) : Runs (tick e s0) (execPeerListWrite e m first count src s0) := by
  unfold Sys2Proof.Machine.execPeerListWrite
  have h₀ := Same.refl (tick e s0)
  generalize tick e s0 = r₁ at h₀ ⊢
  repeat' first
    | intro _ | with_reducible first | assumption | apply Runs.next | apply Same.mboxL | apply Same.upd | apply Same.withSrc
    | fail_if_no_progress with_reducible apply Same.fields | with_reducible first | apply Runs.ite | refine Same.of_snd (by assumption) ?_ | refine Same.of_fst (by assumption) ?_ | apply Same.ite
    | split

theorem Runs.execVdiCreate (e : Ev) (m : Msg) (vdi profile mark src : Nat) (s0 : State) : Runs (tick e s0) (execVdiCreate e m vdi profile mark src s0) := by
  unfold Sys2Proof.Machine.execVdiCreate
  have h₀ := Same.refl (tick e s0)
  generalize tick e s0 = r₁ at h₀ ⊢
  repeat' first
    | intro _ | with_reducible first | assumption | apply Runs.next | apply Same.installVdi | apply Same.mboxL | apply Same.withSrc
    | fail_if_no_progress with_reducible apply Same.fields | with_reducible first | apply Runs.ite | refine Same.of_snd (by assumption) ?_ | refine Same.of_fst (by assumption) ?_ | apply Same.ite
    | split | dsimp only

theorem Runs.execVdiReset (e : Ev) (m : Msg) (s0 : State) : Runs (tick e s0) (execVdiReset e m s0) := by
  unfold Sys2Proof.Machine.execVdiReset
  have h₀ := Same.refl (tick e s0)
  generalize tick e s0 = r₁ at h₀ ⊢
  repeat' first
    | intro _ | with_reducible first | assumption | apply Runs.next | apply Same.leaveVdi | apply Same.mboxW
    | fail_if_no_progress with_reducible apply Same.fields | with_reducible first | apply Runs.ite | refine Same.of_snd (by assumption) ?_ | refine Same.of_fst (by assumption) ?_ | apply Same.ite
    | split | dsimp only

theorem Runs.execVdiRemove (e : Ev) (m : Msg) (vdi : Nat) (s0 : State) : Runs (tick e s0) (execVdiRemove e m vdi s0) := by
  unfold Sys2Proof.Machine.execVdiRemove
  have h₀ := Same.refl (tick e s0)
  generalize tick e s0 = r₁ at h₀ ⊢
  repeat' first
    | intro _ | with_reducible first | assumption | apply Runs.next | apply Same.leaveVdi | apply Same.mboxW
    | fail_if_no_progress with_reducible apply Same.fields | with_reducible first | apply Runs.ite | refine Same.of_snd (by assumption) ?_ | refine Same.of_fst (by assumption) ?_ | apply Same.ite
    | split | dsimp only

theorem Runs.execLogStart (e : Ev) (m : Msg) (vdi src : Nat) (s0 : State) : Runs (tick e s0) (execLogStart e m vdi src s0) := by
  unfold Sys2Proof.Machine.execLogStart
  have h₀ := Same.refl (tick e s0)
  generalize tick e s0 = r₁ at h₀ ⊢
  repeat' first
    | intro _ | with_reducible first | assumption | apply Runs.next | apply Same.mbox | apply Same.migrated | apply Same.startLog | apply Same.withSrc
    | fail_if_no_progress with_reducible apply Same.fields | with_reducible first | apply Runs.ite | refine Same.of_snd (by assumption) ?_ | refine Same.of_fst (by assumption) ?_ | apply Same.ite
    | split | dsimp only

theorem Runs.execLogSwap (e : Ev) (m : Msg) (vdi : Nat) (s0 : State) : Runs (tick e s0) (execLogSwap e m vdi s0) := by
  unfold Sys2Proof.Machine.execLogSwap
  have h₀ := Same.refl (tick e s0)
  generalize tick e s0 = r₁ at h₀ ⊢
  repeat' first
    | intro _ | with_reducible first | assumption | apply Runs.next | apply Same.mbox | apply Same.migrated | apply Same.swapLog
    | fail_if_no_progress with_reducible apply Same.fields | with_reducible first | apply Runs.ite | refine Same.of_snd (by assumption) ?_ | refine Same.of_fst (by assumption) ?_ | apply Same.ite
    | split

theorem Runs.execQuiesce (e : Ev) (m : Msg) (vdi : Nat) (s0 : State) : Runs (tick e s0) (execQuiesce e m vdi s0) := by
  unfold Sys2Proof.Machine.execQuiesce
  have h₀ := Same.refl (tick e s0)
  generalize tick e s0 = r₁ at h₀ ⊢
  repeat' first
    | intro _ | with_reducible first | assumption | apply Runs.next | apply Same.mboxW | apply Same.suspendVdi | apply Same.underWay
    | fail_if_no_progress with_reducible apply Same.fields | with_reducible first | apply Runs.ite | refine Same.of_snd (by assumption) ?_ | refine Same.of_fst (by assumption) ?_ | apply Same.ite
    | split

theorem Runs.execExportImage (e : Ev) (m : Msg) (vdi src : Nat) (s0 : State) : Runs (tick e s0) (execExportImage e m vdi src s0) := by
  unfold Sys2Proof.Machine.execExportImage
  have h₀ := Same.refl (tick e s0)
  generalize tick e s0 = r₁ at h₀ ⊢
  repeat' (first
    | (with_reducible assumption)
    | (with_reducible apply Runs.next)
    | (with_reducible apply Runs.ite)
    | (intro _)
    | (with_reducible apply Same.incident)
    | (with_reducible apply Same.mbox)
    | (with_reducible apply Same.migrated)
    | (with_reducible apply Same.store)
    | (with_reducible apply Same.strErrs)
    | (with_reducible apply Same.withSrc)
    | (fail_if_no_progress with_reducible apply Same.fields)
    | (with_reducible refine Same.of_snd (by assumption) ?_)
    | (with_reducible refine Same.of_fst (by assumption) ?_)
    | (with_reducible apply Same.ite)
    | (split)
    | (dsimp only))

theorem Runs.execImportImage (e : Ev) (m : Msg) (vdi src : Nat) (s0 : State) : Runs (tick e s0) (execImportImage e m vdi src s0) := by
  unfold Sys2Proof.Machine.execImportImage
  have h₀ := Same.refl (tick e s0)
  generalize tick e s0 = r₁ at h₀ ⊢
  repeat' first
    | intro _ | with_reducible first | assumption | apply Runs.next | apply Same.importVdi | apply Same.mboxL | apply Same.withSrc
    | fail_if_no_progress with_reducible apply Same.fields | with_reducible first | apply Runs.ite | refine Same.of_snd (by assumption) ?_ | refine Same.of_fst (by assumption) ?_ | apply Same.ite
    | split | dsimp only

theorem Runs.execResumeVdi (e : Ev) (m : Msg) (vdi : Nat) (s0 : State) : Runs (tick e s0) (execResumeVdi e m vdi s0) := by
  unfold Sys2Proof.Machine.execResumeVdi
  have h₀ := Same.refl (tick e s0)
  generalize tick e s0 = r₁ at h₀ ⊢
  repeat' first
    | intro _ | with_reducible first | assumption | apply Runs.next | apply Same.mbox | apply Same.migrated | apply Same.resumeVdi
    | fail_if_no_progress with_reducible apply Same.fields | with_reducible first | apply Runs.ite | refine Same.of_snd (by assumption) ?_ | refine Same.of_fst (by assumption) ?_ | apply Same.ite
    | split

theorem Runs.execAbortMigration (e : Ev) (m : Msg) (vdi : Nat) (s0 : State) : Runs (tick e s0) (execAbortMigration e m vdi s0) := by
  unfold Sys2Proof.Machine.execAbortMigration
  have h₀ := Same.refl (tick e s0)
  generalize tick e s0 = r₁ at h₀ ⊢
  repeat' first
    | intro _ | with_reducible first | assumption | apply Runs.next | apply Same.leaveVdi | apply Same.mboxW | apply Same.migrated
      | apply Same.stayVdi
    | fail_if_no_progress with_reducible apply Same.fields | with_reducible first | apply Runs.ite | refine Same.of_snd (by assumption) ?_ | refine Same.of_fst (by assumption) ?_ | apply Same.ite
    | split | dsimp only

theorem Runs.execReleaseVdi (e : Ev) (m : Msg) (vdi : Nat) (s0 : State) : Runs (tick e s0) (execReleaseVdi e m vdi s0) := by
  unfold Sys2Proof.Machine.execReleaseVdi
  have h₀ := Same.refl (tick e s0)
  generalize tick e s0 = r₁ at h₀ ⊢
  repeat' first
    | intro _ | with_reducible first | assumption | apply Runs.next | apply Same.leaveVdi | apply Same.mboxW
    | fail_if_no_progress with_reducible apply Same.fields | with_reducible first | apply Runs.ite | refine Same.of_snd (by assumption) ?_ | refine Same.of_fst (by assumption) ?_ | apply Same.ite
    | split

theorem Runs.execCtxWrite (e : Ev) (m : Msg) (ctx src : Nat) (s0 : State) : Runs (tick e s0) (execCtxWrite e m ctx src s0) := by
  unfold Sys2Proof.Machine.execCtxWrite
  have h₀ := Same.refl (tick e s0)
  generalize tick e s0 = r₁ at h₀ ⊢
  repeat' (first
    | (with_reducible assumption)
    | (with_reducible apply Runs.next)
    | (with_reducible apply Runs.ite)
    | (intro _)
    | (with_reducible apply Same.incident)
    | (with_reducible apply Same.mbox)
    | (with_reducible apply Same.putCtx)
    | (with_reducible apply Same.strErrs)
    | (with_reducible apply Same.withSrc)
    | (fail_if_no_progress with_reducible apply Same.fields)
    | (with_reducible refine Same.of_snd (by assumption) ?_)
    | (with_reducible refine Same.of_fst (by assumption) ?_)
    | (with_reducible apply Same.ite)
    | (split)
    | (dsimp only))

theorem Runs.execQueueWrite (e : Ev) (m : Msg) (q src : Nat) (s0 : State) : Runs (tick e s0) (execQueueWrite e m q src s0) := by
  unfold Sys2Proof.Machine.execQueueWrite
  have h₀ := Same.refl (tick e s0)
  generalize tick e s0 = r₁ at h₀ ⊢
  repeat' first
    | intro _ | with_reducible first | assumption | apply Runs.next | apply Same.mbox | apply Same.upd | apply Same.withSrc
    | fail_if_no_progress with_reducible apply Same.fields | with_reducible first | apply Runs.ite | refine Same.of_snd (by assumption) ?_ | refine Same.of_fst (by assumption) ?_ | apply Same.ite
    | split | dsimp only

theorem Runs.execQueueEnable (e : Ev) (m : Msg) (q : Nat) (s0 : State) : Runs (tick e s0) (execQueueEnable e m q s0) := by
  unfold Sys2Proof.Machine.execQueueEnable
  have h₀ := Same.refl (tick e s0)
  generalize tick e s0 = r₁ at h₀ ⊢
  repeat' first
    | intro _ | with_reducible first | assumption | apply Runs.next | apply Same.mboxW | apply Same.queueState | apply Same.upd
    | with_reducible first | apply Runs.ite

theorem Runs.execQueueSuspend (e : Ev) (m : Msg) (q : Nat) (s0 : State) : Runs (tick e s0) (execQueueSuspend e m q s0) := by
  unfold Sys2Proof.Machine.execQueueSuspend
  have h₀ := Same.refl (tick e s0)
  generalize tick e s0 = r₁ at h₀ ⊢
  repeat' first
    | intro _ | with_reducible first | assumption | apply Runs.next | apply Same.mboxW | apply Same.queueState | apply Same.suspendQueue
    | with_reducible first | apply Runs.ite

theorem Runs.execQueueResume (e : Ev) (m : Msg) (q : Nat) (s0 : State) : Runs (tick e s0) (execQueueResume e m q s0) := by
  unfold Sys2Proof.Machine.execQueueResume
  have h₀ := Same.refl (tick e s0)
  generalize tick e s0 = r₁ at h₀ ⊢
  repeat' first
    | intro _ | with_reducible first | assumption | apply Runs.next | apply Same.mboxW | apply Same.queueState | apply Same.resumeQueue
    | with_reducible first | apply Runs.ite

theorem Runs.execQueueDisable (e : Ev) (m : Msg) (q : Nat) (s0 : State) : Runs (tick e s0) (execQueueDisable e m q s0) := by
  unfold Sys2Proof.Machine.execQueueDisable
  have h₀ := Same.refl (tick e s0)
  generalize tick e s0 = r₁ at h₀ ⊢
  repeat' first
    | intro _ | with_reducible first | assumption | apply Runs.next | apply Same.disableQueue | apply Same.mboxW | apply Same.queueState
    | with_reducible first | apply Runs.ite

theorem Runs.execLateArrivalDiscard (e : Ev) (q gen : Nat) (s0 : State) : Runs (tick e s0) (execLateArrivalDiscard e q gen s0) := by
  unfold Sys2Proof.Machine.execLateArrivalDiscard
  have h₀ := Same.refl (tick e s0)
  generalize tick e s0 = r₁ at h₀ ⊢
  repeat' first
    | intro _ | with_reducible first | assumption | apply Runs.next | apply Same.upd
    | with_reducible first | apply Runs.ite

theorem Runs.execSvcRead (e : Ev) (m : Msg) (off bytes dst : Nat) (s0 : State) : Runs (tick e s0) (execSvcRead e m off bytes dst s0) := by
  unfold Sys2Proof.Machine.execSvcRead
  have h₀ := Same.refl (tick e s0)
  generalize tick e s0 = r₁ at h₀ ⊢
  repeat' first
    | intro _ | with_reducible first | assumption | apply Runs.next | apply Same.draw | apply Same.mbox | apply Same.pay | apply Same.withDst
    | fail_if_no_progress with_reducible apply Same.fields | with_reducible first | apply Runs.ite | refine Same.of_snd (by assumption) ?_ | refine Same.of_fst (by assumption) ?_ | apply Same.ite
    | split

theorem Runs.execSvcRebuild (e : Ev) (m : Msg) (badCores badBanks : List Nat) (s0 : State) : Runs (tick e s0) (execSvcRebuild e m badCores badBanks s0) := by
  unfold Sys2Proof.Machine.execSvcRebuild
  have h₀ := Same.refl (tick e s0)
  generalize tick e s0 = r₁ at h₀ ⊢
  repeat' first
    | intro _ | with_reducible first | assumption | apply Runs.next | apply Same.mbox | apply Same.upd
    | fail_if_no_progress with_reducible apply Same.fields | with_reducible first | apply Runs.ite | refine Same.of_snd (by assumption) ?_ | refine Same.of_fst (by assumption) ?_ | apply Same.ite
    | split

theorem Runs.execPortRestore (e : Ev) (m : Msg) (passes : Bool) (s0 : State) : Runs (tick e s0) (execPortRestore e m passes s0) := by
  unfold Sys2Proof.Machine.execPortRestore
  have h₀ := Same.refl (tick e s0)
  generalize tick e s0 = r₁ at h₀ ⊢
  repeat' first
    | intro _ | with_reducible first | assumption | apply Runs.next | apply Same.mboxW | apply Same.reply | apply Same.upd
    | fail_if_no_progress with_reducible apply Same.fields | with_reducible first | apply Runs.ite | refine Same.of_snd (by assumption) ?_ | refine Same.of_fst (by assumption) ?_ | apply Same.ite
    | split

theorem Runs.execHalfRestartH (e : Ev) (m : Msg) (half : Nat) (s0 : State) : Runs (tick e s0) (execHalfRestartH e m half s0) := by
  unfold Sys2Proof.Machine.execHalfRestartH
  have h₀ := Same.refl (tick e s0)
  generalize tick e s0 = r₁ at h₀ ⊢
  repeat' first
    | intro _ | with_reducible first | assumption | apply Runs.next | apply Same.mboxW | apply Same.restartHalf
    | with_reducible first | apply Runs.ite

theorem Runs.execHalfRestartM (e : Ev) (m : Msg) (half : Nat) (s0 : State) : Runs (tick e s0) (execHalfRestartM e m half s0) := by
  unfold Sys2Proof.Machine.execHalfRestartM
  have h₀ := Same.refl (tick e s0)
  generalize tick e s0 = r₁ at h₀ ⊢
  repeat' first
    | intro _ | with_reducible first | assumption | apply Runs.next | apply Same.mboxW | apply Same.restartHalf
    | with_reducible first | apply Runs.ite

theorem Runs.execFwWrite (e : Ev) (m : Msg) (off bytes src : Nat) (s0 : State) : Runs (tick e s0) (execFwWrite e m off bytes src s0) := by
  unfold Sys2Proof.Machine.execFwWrite
  have h₀ := Same.refl (tick e s0)
  generalize tick e s0 = r₁ at h₀ ⊢
  repeat' first
    | intro _ | with_reducible first | assumption | apply Runs.next | apply Same.incident | apply Same.mbox | apply Same.rollback
      | apply Same.stagePkg | apply Same.upd | apply Same.withSrc
    | fail_if_no_progress with_reducible apply Same.fields | with_reducible first | apply Runs.ite | refine Same.of_snd (by assumption) ?_ | refine Same.of_fst (by assumption) ?_ | apply Same.ite
    | split | dsimp only

theorem Runs.execFwActivate (e : Ev) (m : Msg) (mask : Nat) (s0 : State) : Runs (tick e s0) (execFwActivate e m mask s0) := by
  unfold Sys2Proof.Machine.execFwActivate
  have h₀ := Same.refl (tick e s0)
  generalize tick e s0 = r₁ at h₀ ⊢
  repeat' first
    | intro _ | with_reducible first | assumption | apply Runs.next | apply Same.activate | apply Same.incident | apply Same.mboxW
      | apply Same.phyRestart | apply Same.reply | apply Same.upd
    | fail_if_no_progress with_reducible apply Same.fields | with_reducible first | apply Runs.ite | refine Same.of_snd (by assumption) ?_ | refine Same.of_fst (by assumption) ?_ | apply Same.ite
    | split

theorem Runs.execFwCommit (e : Ev) (m : Msg) (s0 : State) : Runs (tick e s0) (execFwCommit e m s0) := by
  unfold Sys2Proof.Machine.execFwCommit
  have h₀ := Same.refl (tick e s0)
  generalize tick e s0 = r₁ at h₀ ⊢
  repeat' first
    | intro _ | with_reducible first | assumption | apply Runs.next | apply Same.commitHalf | apply Same.mbox
    | fail_if_no_progress with_reducible apply Same.fields | with_reducible first | apply Runs.ite | refine Same.of_snd (by assumption) ?_ | refine Same.of_fst (by assumption) ?_ | apply Same.ite
    | split | dsimp only

theorem Runs.execFwWithdraw (e : Ev) (m : Msg) (s0 : State) : Runs (tick e s0) (execFwWithdraw e m s0) := by
  unfold Sys2Proof.Machine.execFwWithdraw
  have h₀ := Same.refl (tick e s0)
  generalize tick e s0 = r₁ at h₀ ⊢
  repeat' first
    | intro _ | with_reducible first | assumption | apply Runs.next | apply Same.mbox | apply Same.upd
    | fail_if_no_progress with_reducible apply Same.fields | with_reducible first | apply Runs.ite | refine Same.of_snd (by assumption) ?_ | refine Same.of_fst (by assumption) ?_ | apply Same.ite
    | split

theorem Runs.execAttest (e : Ev) (m : Msg) (nonce dst : Nat) (s0 : State) : Runs (tick e s0) (execAttest e m nonce dst s0) := by
  unfold Sys2Proof.Machine.execAttest
  have h₀ := Same.refl (tick e s0)
  generalize tick e s0 = r₁ at h₀ ⊢
  repeat' first
    | intro _ | with_reducible first | assumption | apply Runs.next | apply Same.mbox | apply Same.withDst
    | fail_if_no_progress with_reducible apply Same.fields | with_reducible first | apply Runs.ite | refine Same.of_snd (by assumption) ?_ | refine Same.of_fst (by assumption) ?_ | apply Same.ite
    | split | dsimp only

theorem Runs.execDspCfgPipe (e : Ev) (m : Msg) (pipe src : Nat) (s0 : State) : Runs (tick e s0) (execDspCfgPipe e m pipe src s0) := by
  unfold Sys2Proof.Machine.execDspCfgPipe
  have h₀ := Same.refl (tick e s0)
  generalize tick e s0 = r₁ at h₀ ⊢
  repeat' first
    | intro _ | with_reducible first | assumption | apply Runs.next | apply Same.gateRefuse | apply Same.mboxL | apply Same.upd
    | fail_if_no_progress with_reducible apply Same.fields | with_reducible first | apply Runs.ite | refine Same.of_snd (by assumption) ?_ | refine Same.of_fst (by assumption) ?_ | apply Same.ite
    | split | dsimp only

theorem Runs.execDspCfgTelltale (e : Ev) (m : Msg) (pipe src : Nat) (s0 : State) : Runs (tick e s0) (execDspCfgTelltale e m pipe src s0) := by
  unfold Sys2Proof.Machine.execDspCfgTelltale
  have h₀ := Same.refl (tick e s0)
  generalize tick e s0 = r₁ at h₀ ⊢
  repeat' first
    | intro _ | with_reducible first | assumption | apply Runs.next | apply Same.mboxL | apply Same.upd
    | fail_if_no_progress with_reducible apply Same.fields | with_reducible first | apply Runs.ite | refine Same.of_snd (by assumption) ?_ | refine Same.of_fst (by assumption) ?_ | apply Same.ite
    | split | dsimp only

theorem Runs.execPowerReqRun (e : Ev) (m : Msg) (s0 : State) : Runs (tick e s0) (execPowerReqRun e m s0) := by
  unfold Sys2Proof.Machine.execPowerReqRun
  have h₀ := Same.refl (tick e s0)
  generalize tick e s0 = r₁ at h₀ ⊢
  repeat' first
    | intro _ | with_reducible first | assumption | apply Runs.next | apply Same.mbox | apply Same.wakeUp
    | with_reducible first | apply Runs.ite

theorem Runs.execPowerReqPark (e : Ev) (m : Msg) (s0 : State) : Runs (tick e s0) (execPowerReqPark e m s0) := by
  unfold Sys2Proof.Machine.execPowerReqPark
  have h₀ := Same.refl (tick e s0)
  generalize tick e s0 = r₁ at h₀ ⊢
  repeat' first
    | intro _ | with_reducible first | assumption | apply Runs.next | apply Same.mbox | apply Same.stopRequest
    | with_reducible first | apply Runs.ite

theorem Runs.execPowerReqSleep (e : Ev) (m : Msg) (s0 : State) : Runs (tick e s0) (execPowerReqSleep e m s0) := by
  unfold Sys2Proof.Machine.execPowerReqSleep
  have h₀ := Same.refl (tick e s0)
  generalize tick e s0 = r₁ at h₀ ⊢
  repeat' first
    | intro _ | with_reducible first | assumption | apply Runs.next | apply Same.mbox | apply Same.stopRequest
    | with_reducible first | apply Runs.ite

theorem Runs.execUnknownOpcode (e : Ev) (m : Msg) (opcode : Nat) (s0 : State) : Runs (tick e s0) (execUnknownOpcode e m opcode s0) := by
  unfold Sys2Proof.Machine.execUnknownOpcode
  have h₀ := Same.refl (tick e s0)
  generalize tick e s0 = r₁ at h₀ ⊢
  repeat' first
    | intro _ | with_reducible first | assumption | apply Runs.next | apply Same.mbox
    | with_reducible first | apply Runs.ite

theorem Runs.execTelMbxGo (e : Ev) (vdi : Nat) (s0 : State) : Runs (tick e s0) (execTelMbxGo e vdi s0) := by
  unfold Sys2Proof.Machine.execTelMbxGo
  have h₀ := Same.refl (tick e s0)
  generalize tick e s0 = r₁ at h₀ ⊢
  repeat' first
    | intro _ | with_reducible first | assumption | apply Runs.next | apply Same.tellerAccess
    | with_reducible first | apply Runs.ite

theorem Runs.execTellerMailboxReply (e : Ev) (vdi : Nat) (s0 : State) : Runs (tick e s0) (execTellerMailboxReply e vdi s0) := by
  unfold Sys2Proof.Machine.execTellerMailboxReply
  have h₀ := Same.refl (tick e s0)
  generalize tick e s0 = r₁ at h₀ ⊢
  repeat' first
    | intro _ | with_reducible first | assumption | apply Runs.next | apply Same.emit | apply Same.upd
    | fail_if_no_progress with_reducible apply Same.fields | with_reducible first | apply Runs.ite | refine Same.of_snd (by assumption) ?_ | refine Same.of_fst (by assumption) ?_ | apply Same.ite
    | split | dsimp only

theorem Runs.execReqTailWrite (e : Ev) (pair tail : Nat) (s0 : State) : Runs (tick e s0) (execReqTailWrite e pair tail s0) := by
  unfold Sys2Proof.Machine.execReqTailWrite
  have h₀ := Same.refl (tick e s0)
  generalize tick e s0 = r₁ at h₀ ⊢
  repeat' first
    | intro _ | with_reducible first | assumption | apply Runs.next | apply Same.upd
    | with_reducible first | apply Runs.ite

theorem Runs.execRegisterWrite (e : Ev) (who : Master) (reg : Reg) (unit index word val : Nat) (s0 : State) : Runs (tick e s0) (execRegisterWrite e who reg unit index word val s0) := by
  unfold Sys2Proof.Machine.execRegisterWrite
  have h₀ := Same.refl (tick e s0)
  generalize tick e s0 = r₁ at h₀ ⊢
  repeat' first
    | intro _ | with_reducible first | assumption | apply Runs.next | apply Same.dbCqHead | apply Same.dbTail | apply Same.incident
      | apply Same.partWord | apply Same.streamWord | apply Same.tellerAccess | apply Same.upd
    | fail_if_no_progress with_reducible apply Same.fields | with_reducible first | apply Runs.ite | refine Same.of_snd (by assumption) ?_ | refine Same.of_fst (by assumption) ?_ | apply Same.ite
    | split

theorem Runs.execRender (e : Ev) (q : Nat) (run : RenderRun) (s0 : State) : Runs (tick e s0) (execRender e q run s0) := by
  unfold Sys2Proof.Machine.execRender
  have h₀ := Same.refl (tick e s0)
  generalize tick e s0 = r₁ at h₀ ⊢
  repeat' first
    | intro _ | with_reducible first | assumption | apply Runs.next | apply Same.refuseDispatch | apply Same.runRender
    | fail_if_no_progress with_reducible apply Same.fields | with_reducible first | apply Runs.ite | refine Same.of_snd (by assumption) ?_ | refine Same.of_fst (by assumption) ?_ | apply Same.ite
    | split | dsimp only

theorem Runs.execVerticalBlank (e : Ev) (pipe nextS : Nat) (s0 : State) : Runs (tick e s0) (execVerticalBlank e pipe nextS s0) := by
  unfold Sys2Proof.Machine.execVerticalBlank
  have h₀ := Same.refl (tick e s0)
  generalize tick e s0 = r₁ at h₀ ⊢
  repeat' first
    | intro _ | with_reducible first | assumption | apply Runs.next | apply Same.applyPipe | apply Same.flipPlane | apply Same.scanOut
      | apply Same.upd
    | with_reducible first | apply Runs.ite | refine Same.foldl _ _ (fun _ _ _ => ?_) ?_

theorem Runs.execTelltaleCrcCompare (e : Ev) (pipe : Nat) (crcs : List SlotCrc) (s0 : State) : Runs (tick e s0) (execTelltaleCrcCompare e pipe crcs s0) := by
  unfold Sys2Proof.Machine.execTelltaleCrcCompare
  have h₀ := Same.refl (tick e s0)
  generalize tick e s0 = r₁ at h₀ ⊢
  repeat' first
    | intro _ | with_reducible first | assumption | apply Runs.next | apply Same.draw | apply Same.serr | apply Same.slotsFail | apply Same.upd
    | with_reducible first | apply Runs.ite

theorem Runs.execDramReadEcc (e : Ev) (pc bank row : Nat) (unc : Bool) (s0 : State) : Runs (tick e s0) (execDramReadEcc e pc bank row unc s0) := by
  unfold Sys2Proof.Machine.execDramReadEcc
  have h₀ := Same.refl (tick e s0)
  generalize tick e s0 = r₁ at h₀ ⊢
  repeat' first
    | intro _ | with_reducible first | assumption | apply Runs.next | apply Same.draw | apply Same.incident | apply Same.upd
    | with_reducible first | apply Runs.ite

theorem Runs.execRowRemap (e : Ev) (pc bank row lost : Nat) (s0 : State) : Runs (tick e s0) (execRowRemap e pc bank row lost s0) := by
  unfold Sys2Proof.Machine.execRowRemap
  have h₀ := Same.refl (tick e s0)
  generalize tick e s0 = r₁ at h₀ ⊢
  repeat' first
    | intro _ | with_reducible first | assumption | apply Runs.next | apply Same.upd
    | with_reducible first | apply Runs.ite

theorem Runs.execEcsScrub (e : Ev) (pc bank row : Nat) (s0 : State) : Runs (tick e s0) (execEcsScrub e pc bank row s0) := by
  unfold Sys2Proof.Machine.execEcsScrub
  have h₀ := Same.refl (tick e s0)
  generalize tick e s0 = r₁ at h₀ ⊢
  repeat' first
    | intro _ | with_reducible first | assumption | apply Runs.next | apply Same.upd
    | with_reducible first | apply Runs.ite

theorem Runs.execPseudoChannelRetire (e : Ev) (idx : Nat) (training : Bool) (s0 : State) : Runs (tick e s0) (execPseudoChannelRetire e idx training s0) := by
  unfold Sys2Proof.Machine.execPseudoChannelRetire
  have h₀ := Same.refl (tick e s0)
  generalize tick e s0 = r₁ at h₀ ⊢
  repeat' first
    | intro _ | with_reducible first | assumption | apply Runs.next | apply Same.askRestart | apply Same.reconcile | apply Same.upd
    | fail_if_no_progress with_reducible apply Same.fields | with_reducible first | apply Runs.ite | refine Same.of_snd (by assumption) ?_ | refine Same.of_fst (by assumption) ?_ | apply Same.ite

theorem Runs.execStackThrottle (e : Ev) (stack level : Nat) (s0 : State) : Runs (tick e s0) (execStackThrottle e stack level s0) := by
  unfold Sys2Proof.Machine.execStackThrottle
  have h₀ := Same.refl (tick e s0)
  generalize tick e s0 = r₁ at h₀ ⊢
  repeat' first
    | intro _ | with_reducible first | assumption | apply Runs.next | apply Same.upd
    | with_reducible first | apply Runs.ite

theorem Runs.execGuaranteeMiss (e : Ev) (port cls : Nat) (s0 : State) : Runs (tick e s0) (execGuaranteeMiss e port cls s0) := by
  unfold Sys2Proof.Machine.execGuaranteeMiss
  have h₀ := Same.refl (tick e s0)
  generalize tick e s0 = r₁ at h₀ ⊢
  repeat' first
    | intro _ | with_reducible first | assumption | apply Runs.next | apply Same.incident | apply Same.upd
    | fail_if_no_progress with_reducible apply Same.fields | with_reducible first | apply Runs.ite | refine Same.of_snd (by assumption) ?_ | refine Same.of_fst (by assumption) ?_ | apply Same.ite

theorem Runs.execPortRequestHeldRelease (e : Ev) (port cls : Nat) (to_ : DramReq) (bytes : Nat) (write : Bool) (s0 : State) : Runs (tick e s0) (execPortRequestHeldRelease e port cls to_ bytes write s0) := by
  unfold Sys2Proof.Machine.execPortRequestHeldRelease
  have h₀ := Same.refl (tick e s0)
  generalize tick e s0 = r₁ at h₀ ⊢
  repeat' first
    | intro _ | with_reducible first | assumption | apply Runs.next | apply Same.upd
    | with_reducible first | apply Runs.ite

theorem Runs.execServiceRecordWriteDone (e : Ev) (ok : Bool) (s0 : State) : Runs (tick e s0) (execServiceRecordWriteDone e ok s0) := by
  unfold Sys2Proof.Machine.execServiceRecordWriteDone
  have h₀ := Same.refl (tick e s0)
  generalize tick e s0 = r₁ at h₀ ⊢
  repeat' first
    | intro _ | with_reducible first | assumption | apply Runs.next | apply Same.upd
    | fail_if_no_progress with_reducible apply Same.fields | with_reducible first | apply Runs.ite | refine Same.of_snd (by assumption) ?_ | refine Same.of_fst (by assumption) ?_ | apply Same.ite
    | split

theorem Runs.execServiceRecordLoad (e : Ev) (ok0 ok1 : Bool) (s0 : State) : Runs (tick e s0) (execServiceRecordLoad e ok0 ok1 s0) := by
  unfold Sys2Proof.Machine.execServiceRecordLoad
  have h₀ := Same.refl (tick e s0)
  generalize tick e s0 = r₁ at h₀ ⊢
  repeat' first
    | intro _ | with_reducible first | assumption | apply Runs.next | apply Same.incident | apply Same.stage | apply Same.upd
    | with_reducible first | apply Runs.ite

theorem Runs.execBootSlotFailure (e : Ev) (slot : Nat) (s0 : State) : Runs (tick e s0) (execBootSlotFailure e slot s0) := by
  unfold Sys2Proof.Machine.execBootSlotFailure
  have h₀ := Same.refl (tick e s0)
  generalize tick e s0 = r₁ at h₀ ⊢
  repeat' first
    | intro _ | with_reducible first | assumption | apply Runs.next | apply Same.stage | apply Same.tryOther
    | with_reducible first | apply Runs.ite

theorem Runs.execTrialBootConfirm (e : Ev) (s0 : State) : Runs (tick e s0) (execTrialBootConfirm e s0) := by
  unfold Sys2Proof.Machine.execTrialBootConfirm
  have h₀ := Same.refl (tick e s0)
  generalize tick e s0 = r₁ at h₀ ⊢
  repeat' first
    | intro _ | with_reducible first | assumption | apply Runs.next | apply Same.upd
    | with_reducible first | apply Runs.ite

theorem Runs.execConfigStoreApply (e : Ev) (bad : List Nat) (s0 : State) : Runs (tick e s0) (execConfigStoreApply e bad s0) := by
  unfold Sys2Proof.Machine.execConfigStoreApply
  have h₀ := Same.refl (tick e s0)
  generalize tick e s0 = r₁ at h₀ ⊢
  repeat' (first
    | (with_reducible assumption)
    | (with_reducible apply Runs.next)
    | (with_reducible apply Runs.ite)
    | (intro _)
    | (with_reducible apply Same.applyConf)
    | (with_reducible apply Same.reconcile)
    | (with_reducible apply Same.runRestart)
    | (with_reducible apply Same.serr)
    | (with_reducible apply Same.store)
    | (with_reducible apply Same.upd))

theorem Runs.execSoakTimer (e : Ev) (s0 : State) : Runs (tick e s0) (execSoakTimer e s0) := by
  unfold Sys2Proof.Machine.execSoakTimer
  have h₀ := Same.refl (tick e s0)
  generalize tick e s0 = r₁ at h₀ ⊢
  repeat' first
    | intro _ | with_reducible first | assumption | apply Runs.next | apply Same.incident | apply Same.upd
    | fail_if_no_progress with_reducible apply Same.fields | with_reducible first | apply Runs.ite | refine Same.of_snd (by assumption) ?_ | refine Same.of_fst (by assumption) ?_ | apply Same.ite
    | split | dsimp only

theorem Runs.execVtServoStep (e : Ev) (ev : ServoEv) (s0 : State) : Runs (tick e s0) (execVtServoStep e ev s0) := by
  unfold Sys2Proof.Machine.execVtServoStep
  have h₀ := Same.refl (tick e s0)
  generalize tick e s0 = r₁ at h₀ ⊢
  repeat' first
    | intro _ | with_reducible first | assumption | apply Runs.next | apply Same.hatchSend | apply Same.upd
    | fail_if_no_progress with_reducible apply Same.fields | with_reducible first | apply Runs.ite | refine Same.of_snd (by assumption) ?_ | refine Same.of_fst (by assumption) ?_ | apply Same.ite
    | split

theorem Runs.execVtDeviationIncident (e : Ev) (devNs : Int) (s0 : State) : Runs (tick e s0) (execVtDeviationIncident e devNs s0) := by
  unfold Sys2Proof.Machine.execVtDeviationIncident
  have h₀ := Same.refl (tick e s0)
  generalize tick e s0 = r₁ at h₀ ⊢
  repeat' first
    | intro _ | with_reducible first | assumption | apply Runs.next | apply Same.incident | apply Same.upd
    | with_reducible first | apply Runs.ite

theorem Runs.execDoorCall (e : Ev) (hart vault entry : Nat) (save : HartSave) (s0 : State) : Runs (tick e s0) (execDoorCall e hart vault entry save s0) := by
  unfold Sys2Proof.Machine.execDoorCall
  have h₀ := Same.refl (tick e s0)
  generalize tick e s0 = r₁ at h₀ ⊢
  repeat' first
    | intro _ | with_reducible first | assumption | apply Runs.next | apply Same.emit | apply Same.enterVault | apply Same.illegalAt | apply Same.late
    | fail_if_no_progress with_reducible apply Same.fields | with_reducible first | apply Runs.ite | refine Same.of_snd (by assumption) ?_ | refine Same.of_fst (by assumption) ?_ | apply Same.ite
    | split

theorem Runs.execDoorRet (e : Ev) (hart a0 a1 : Nat) (s0 : State) : Runs (tick e s0) (execDoorRet e hart a0 a1 s0) := by
  unfold Sys2Proof.Machine.execDoorRet
  have h₀ := Same.refl (tick e s0)
  generalize tick e s0 = r₁ at h₀ ⊢
  repeat' first
    | intro _ | with_reducible first | assumption | apply Runs.next | apply Same.exitVault | apply Same.illegalAt
    | with_reducible first | apply Runs.ite

theorem Runs.execDoorCreate (e : Ev) (hart : Nat) (mode : Priv) (addr : Nat) (s0 : State) : Runs (tick e s0) (execDoorCreate e hart mode addr s0) := by
  unfold Sys2Proof.Machine.execDoorCreate
  have h₀ := Same.refl (tick e s0)
  generalize tick e s0 = r₁ at h₀ ⊢
  repeat' first
    | intro _ | with_reducible first | assumption | apply Runs.next | apply Same.illegalAt | apply Same.viaController
    | with_reducible first | apply Runs.ite

theorem Runs.execVaultSealDone (e : Ev) (vault : Nat) (s0 : State) : Runs (tick e s0) (execVaultSealDone e vault s0) := by
  unfold Sys2Proof.Machine.execVaultSealDone
  have h₀ := Same.refl (tick e s0)
  generalize tick e s0 = r₁ at h₀ ⊢
  repeat' first
    | intro _ | with_reducible first | assumption | apply Runs.next | apply Same.sealVault
    | with_reducible first | apply Runs.ite

theorem Runs.execDoorDestroy (e : Ev) (hart : Nat) (mode : Priv) (vault : Nat) (s0 : State) : Runs (tick e s0) (execDoorDestroy e hart mode vault s0) := by
  unfold Sys2Proof.Machine.execDoorDestroy
  have h₀ := Same.refl (tick e s0)
  generalize tick e s0 = r₁ at h₀ ⊢
  repeat' first
    | intro _ | with_reducible first | assumption | apply Runs.next | apply Same.illegalAt | apply Same.viaController
    | with_reducible first | apply Runs.ite

theorem Runs.execVaultDestroyDone (e : Ev) (vault : Nat) (s0 : State) : Runs (tick e s0) (execVaultDestroyDone e vault s0) := by
  unfold Sys2Proof.Machine.execVaultDestroyDone
  have h₀ := Same.refl (tick e s0)
  generalize tick e s0 = r₁ at h₀ ⊢
  repeat' first
    | intro _ | with_reducible first | assumption | apply Runs.next | apply Same.endVault
    | with_reducible first | apply Runs.ite

theorem Runs.execDoorSubmit (e : Ev) (hart addr : Nat) (s0 : State) : Runs (tick e s0) (execDoorSubmit e hart addr s0) := by
  unfold Sys2Proof.Machine.execDoorSubmit
  have h₀ := Same.refl (tick e s0)
  generalize tick e s0 = r₁ at h₀ ⊢
  repeat' first
    | intro _ | with_reducible first | assumption | apply Runs.next | apply Same.illegalAt | apply Same.viaController
    | with_reducible first | apply Runs.ite

theorem Runs.execDoorClaim (e : Ev) (hart code : Nat) (s0 : State) : Runs (tick e s0) (execDoorClaim e hart code s0) := by
  unfold Sys2Proof.Machine.execDoorClaim
  have h₀ := Same.refl (tick e s0)
  generalize tick e s0 = r₁ at h₀ ⊢
  repeat' first
    | intro _ | with_reducible first | assumption | apply Runs.next | apply Same.illegalAt | apply Same.viaController
    | with_reducible first | apply Runs.ite

theorem Runs.execDoorRelease (e : Ev) (hart code : Nat) (s0 : State) : Runs (tick e s0) (execDoorRelease e hart code s0) := by
  unfold Sys2Proof.Machine.execDoorRelease
  have h₀ := Same.refl (tick e s0)
  generalize tick e s0 = r₁ at h₀ ⊢
  repeat' first
    | intro _ | with_reducible first | assumption | apply Runs.next | apply Same.illegalAt | apply Same.viaController
    | with_reducible first | apply Runs.ite

theorem Runs.execDoorKey (e : Ev) (hart addr label : Nat) (s0 : State) : Runs (tick e s0) (execDoorKey e hart addr label s0) := by
  unfold Sys2Proof.Machine.execDoorKey
  have h₀ := Same.refl (tick e s0)
  generalize tick e s0 = r₁ at h₀ ⊢
  repeat' first
    | intro _ | with_reducible first | assumption | apply Runs.next | apply Same.illegalAt | apply Same.viaController
    | with_reducible first | apply Runs.ite

theorem Runs.execVaultQuantumExpiry (e : Ev) (hart : Nat) (s0 : State) : Runs (tick e s0) (execVaultQuantumExpiry e hart s0) := by
  unfold Sys2Proof.Machine.execVaultQuantumExpiry
  have h₀ := Same.refl (tick e s0)
  generalize tick e s0 = r₁ at h₀ ⊢
  repeat' first
    | intro _ | with_reducible first | assumption | apply Runs.next | apply Same.exitVault
    | fail_if_no_progress with_reducible apply Same.fields | with_reducible first | apply Runs.ite | refine Same.of_snd (by assumption) ?_ | refine Same.of_fst (by assumption) ?_ | apply Same.ite
    | split | dsimp only

theorem Runs.execVaultException (e : Ev) (hart cause : Nat) (s0 : State) : Runs (tick e s0) (execVaultException e hart cause s0) := by
  unfold Sys2Proof.Machine.execVaultException
  have h₀ := Same.refl (tick e s0)
  generalize tick e s0 = r₁ at h₀ ⊢
  repeat' first
    | intro _ | with_reducible first | assumption | apply Runs.next | apply Same.vaultFault
    | with_reducible first | apply Runs.ite

theorem Runs.execSecureInterrupt (e : Ev) (hart ident : Nat) (save : HartSave) (s0 : State) : Runs (tick e s0) (execSecureInterrupt e hart ident save s0) := by
  unfold Sys2Proof.Machine.execSecureInterrupt
  have h₀ := Same.refl (tick e s0)
  generalize tick e s0 = r₁ at h₀ ⊢
  repeat' first
    | intro _ | with_reducible first | assumption | apply Runs.next | apply Same.interrupt
    | with_reducible first | apply Runs.ite

theorem Runs.execVaultFilterRefusal (e : Ev) (vault : Nat) (who : Master) (s0 : State) : Runs (tick e s0) (execVaultFilterRefusal e vault who s0) := by
  unfold Sys2Proof.Machine.execVaultFilterRefusal
  have h₀ := Same.refl (tick e s0)
  generalize tick e s0 = r₁ at h₀ ⊢
  repeat' first
    | intro _ | with_reducible first | assumption | apply Runs.next | apply Same.accessFault | apply Same.failDma | apply Same.incident
      | apply Same.upd
    | fail_if_no_progress with_reducible apply Same.fields | with_reducible first | apply Runs.ite | refine Same.of_snd (by assumption) ?_ | refine Same.of_fst (by assumption) ?_ | apply Same.ite
    | split

theorem Runs.execPufReconstruction (e : Ev) (ok : Bool) (s0 : State) : Runs (tick e s0) (execPufReconstruction e ok s0) := by
  unfold Sys2Proof.Machine.execPufReconstruction
  have h₀ := Same.refl (tick e s0)
  generalize tick e s0 = r₁ at h₀ ⊢
  repeat' first
    | intro _ | with_reducible first | assumption | apply Runs.next | apply Same.draw | apply Same.incident | apply Same.upd
    | with_reducible first | apply Runs.ite

theorem Runs.execDebugUnlock (e : Ev) (record : Nat) (s0 : State) : Runs (tick e s0) (execDebugUnlock e record s0) := by
  unfold Sys2Proof.Machine.execDebugUnlock
  have h₀ := Same.refl (tick e s0)
  generalize tick e s0 = r₁ at h₀ ⊢
  repeat' first
    | intro _ | with_reducible first | assumption | apply Runs.next | apply Same.viaController
    | with_reducible first | apply Runs.ite

theorem Runs.execFabricOutOfRange (e : Ev) (who : Master) (addr : Nat) (s0 : State) : Runs (tick e s0) (execFabricOutOfRange e who addr s0) := by
  unfold Sys2Proof.Machine.execFabricOutOfRange
  have h₀ := Same.refl (tick e s0)
  generalize tick e s0 = r₁ at h₀ ⊢
  repeat' first
    | intro _ | with_reducible first | assumption | apply Runs.next | apply Same.accessFault | apply Same.dataFault | apply Same.failDma
      | apply Same.incident
    | fail_if_no_progress with_reducible apply Same.fields | with_reducible first | apply Runs.ite | refine Same.of_snd (by assumption) ?_ | refine Same.of_fst (by assumption) ?_ | apply Same.ite
    | split

theorem Runs.execWindowEnableFrameStart (e : Ev) (s0 : State) : Runs (tick e s0) (execWindowEnableFrameStart e s0) := by
  unfold Sys2Proof.Machine.execWindowEnableFrameStart
  have h₀ := Same.refl (tick e s0)
  generalize tick e s0 = r₁ at h₀ ⊢
  repeat' first
    | intro _ | with_reducible first | assumption | apply Runs.next | apply Same.upd
    | fail_if_no_progress with_reducible apply Same.fields | with_reducible first | apply Runs.ite | refine Same.of_snd (by assumption) ?_ | refine Same.of_fst (by assumption) ?_ | apply Same.ite
    | split | dsimp only

theorem Runs.execGatehouseResetDone (e : Ev) (s0 : State) : Runs (tick e s0) (execGatehouseResetDone e s0) := by
  unfold Sys2Proof.Machine.execGatehouseResetDone
  have h₀ := Same.refl (tick e s0)
  generalize tick e s0 = r₁ at h₀ ⊢
  repeat' first
    | intro _ | with_reducible first | assumption | apply Runs.next | apply Same.afterGhReset | apply Same.runWaiting | apply Same.upd
    | with_reducible first | apply Runs.ite | refine Same.foldl _ _ (fun _ _ _ => ?_) ?_

theorem Runs.execSemaphoreEntrySteal (e : Ev) (k : Pkt) (hart addr width : Nat) (s0 : State) : Runs (tick e s0) (execSemaphoreEntrySteal e k hart addr width s0) := by
  unfold Sys2Proof.Machine.execSemaphoreEntrySteal
  have h₀ := Same.refl (tick e s0)
  generalize tick e s0 = r₁ at h₀ ⊢
  repeat' first
    | intro _ | with_reducible first | assumption | apply Runs.next | apply Same.takeSem | apply Same.upd
    | fail_if_no_progress with_reducible apply Same.fields | with_reducible first | apply Runs.ite | refine Same.of_snd (by assumption) ?_ | refine Same.of_fst (by assumption) ?_ | apply Same.ite
    | split | dsimp only

theorem Runs.execUncorrectableHeader (e : Ev) (rx : Nat) (s0 : State) : Runs (tick e s0) (execUncorrectableHeader e rx s0) := by
  unfold Sys2Proof.Machine.execUncorrectableHeader
  have h₀ := Same.refl (tick e s0)
  generalize tick e s0 = r₁ at h₀ ⊢
  repeat' first
    | intro _ | with_reducible first | assumption | apply Runs.next | apply Same.upd
    | with_reducible first | apply Runs.ite

theorem Runs.execCanBusOff (e : Ev) (ctrl : Nat) (s0 : State) : Runs (tick e s0) (execCanBusOff e ctrl s0) := by
  unfold Sys2Proof.Machine.execCanBusOff
  have h₀ := Same.refl (tick e s0)
  generalize tick e s0 = r₁ at h₀ ⊢
  repeat' first
    | intro _ | with_reducible first | assumption | apply Runs.next | apply Same.setBusOff
    | with_reducible first | apply Runs.ite

theorem Runs.execQbvListSwap (e : Ev) (port : Nat) (s0 : State) : Runs (tick e s0) (execQbvListSwap e port s0) := by
  unfold Sys2Proof.Machine.execQbvListSwap
  have h₀ := Same.refl (tick e s0)
  generalize tick e s0 = r₁ at h₀ ⊢
  repeat' first
    | intro _ | with_reducible first | assumption | apply Runs.next | apply Same.upd
    | with_reducible first | apply Runs.ite

theorem Runs.execRepHeadWrite (e : Ev) (pair head : Nat) (s0 : State) : Runs (tick e s0) (execRepHeadWrite e pair head s0) := by
  unfold Sys2Proof.Machine.execRepHeadWrite
  have h₀ := Same.refl (tick e s0)
  generalize tick e s0 = r₁ at h₀ ⊢
  repeat' first
    | intro _ | with_reducible first | assumption | apply Runs.next | apply Same.upd
    | with_reducible first | apply Runs.ite

theorem Runs.execMkaFrame (e : Ev) (partner : Nat) (ok : Bool) (s0 : State) : Runs (tick e s0) (execMkaFrame e partner ok s0) := by
  unfold Sys2Proof.Machine.execMkaFrame
  have h₀ := Same.refl (tick e s0)
  generalize tick e s0 = r₁ at h₀ ⊢
  repeat' first
    | intro _ | with_reducible first | assumption | apply Runs.next | apply Same.upd
    | with_reducible first | apply Runs.ite

theorem Runs.execControlPortLinkLoss (e : Ev) (ms : Nat) (s0 : State) : Runs (tick e s0) (execControlPortLinkLoss e ms s0) := by
  unfold Sys2Proof.Machine.execControlPortLinkLoss
  have h₀ := Same.refl (tick e s0)
  generalize tick e s0 = r₁ at h₀ ⊢
  repeat' first
    | intro _ | with_reducible first | assumption | apply Runs.next | apply Same.upd
    | with_reducible first | apply Runs.ite

theorem Runs.execDisplayLinkChange (e : Ev) (pipe : Nat) (up : Bool) (s0 : State) : Runs (tick e s0) (execDisplayLinkChange e pipe up s0) := by
  unfold Sys2Proof.Machine.execDisplayLinkChange
  have h₀ := Same.refl (tick e s0)
  generalize tick e s0 = r₁ at h₀ ⊢
  repeat' first
    | intro _ | with_reducible first | assumption | apply Runs.next | apply Same.upd
    | with_reducible first | apply Runs.ite

theorem Runs.execSerrHbToggle (e : Ev) (s0 : State) : Runs (tick e s0) (execSerrHbToggle e s0) := by
  unfold Sys2Proof.Machine.execSerrHbToggle
  have h₀ := Same.refl (tick e s0)
  generalize tick e s0 = r₁ at h₀ ⊢
  repeat' first
    | intro _ | with_reducible first | assumption | apply Runs.next | apply Same.emit | apply Same.upd
    | with_reducible first | apply Runs.ite

end Sys2Proof.Machine
end

