-- ==== Sys2Proof/Tests/Slice0.lean ====
section
/-! SUPPORT. The model's own tests: ill-formed commands are refused, every statement's hypotheses can be met together, and single steps agree with the
manual's examples. -/
set_option Elab.async false
namespace Sys2Proof.Tests
open Sys2Proof.Machine

/-- An event of half `h` with no time passed. -/
def ev (h : Nat) : Ev := ⟨h, 0⟩

/-- A half in service. -/
def upHalf : Half :=
  ({ Half.reset with
      clk := { Clocks.reset with rimUp := true, computeUp := true, ready := true, resetKind := 0, phase := 3, serrN := true }
      regs := [] } : Half).setFld F.CLK_STAT_xtal_ok 1 |>.setFld F.HTC_LINK_state 2

/-- Both halves in service, nothing configured. -/
def sUp : State := { State.reset with h0 := upHalf, h1 := upHalf, perrN := true }

/-- A Kerbel command on core 3, its tile ready. -/
def run3 : Run :=
  { org := .queue 0, index := 0, gen := 0, went := 0, desc := 4 * 2 ^ 64, params := 0, dma := [], ctx := 0, vdi := 0, part := 0, assay := false, fallback := false,
    tile := 0, computed := true, rerun := false, retried := false, ended := [], accepted := [], passed := [], fail := none, sat := 0, inv := 0, tileSat := 0,
    tileInv := 0, tilesRun := 0, hazards := 0, oob := 0, simtNext := none, tileOob := 0, refused := none, tileRefused := none, nextVt := none, nextSat := 0,
    nextInv := 0, nextRerun := false, failed := [], landed := [], olds := [], core := 0, parts := [], startVt := 0, tileVt := 0 }

/-- The same with one Till-reading store of each tile, which bears token 1. -/
def runTok : Run := { run3 with dma := [2 ^ 14 + 2 ^ 18 + 2 ^ 24 + 128 * 2 ^ 32 + 2 ^ 64] }

/-- The same with one load of each tile into Till row 0, accepted, which bears token 1. -/
def runLoad : Run := { run3 with computed := false, accepted := [0], dma := [2 ^ 14 + 2 ^ 19 + 2 ^ 24 + 128 * 2 ^ 32 + 2 ^ 64] }

def sRunLoad : State := sUp.updCore 0 3 fun c => { c with run := some runLoad, rowMark := [(0, 1)] }

def sRunTok : State := sUp.updCore 0 3 fun c => { c with run := some runTok }

def sRun : State := sUp.updCore 0 3 fun c => { c with run := some run3 }

/-- Boot of a half: its rim runs in a reset of kind `k`. -/
def sBoot (k : Nat) : State := sUp.upd 0 fun x => { x with clk := { x.clk with resetKind := k, ready := false, computeUp := false }, ports := { x.ports with stage := 1 } }

/-- A VDI configuration: one DMA window over the first 4 GiB. -/
def vdiCfg0 : Nat := 2 ^ 352

/-- VDI 0 of half 0 with its first DMA window over the first 4 GiB, and context 0 of weight 1 in partition 1. -/
def sVdi : State :=
  { sUp with vdis := [(0, { Vdi.absent with exists_ := true, cfg := vdiCfg0 })], ctxs := [(0, ⟨2 ^ 8 + 2 ^ 32, []⟩)] }

/-- Queue 0 enabled with one command, for partition 1 over logical core 0. -/
def sQ : State := sVdi.upd 0 fun x =>
  ({ ((((x.setFld F.TEL_DB_STATE_state 2 0).setFld F.TEL_DB_TAIL_tail 1 0).setFld F.WIN_PART_CFG_kind 2 0 1).setFld F.WIN_PART_CORES_cores 1 0 1) with
      disp := { x.disp with cached := [0] } } : Half).updQueue 0 fun k => { k with record := 0x10000 + 0x20000 * 2 ^ 64 }

def wait0 : WaitRt := { index := 0, since := 0, addr := 0x8000, value := 0, tag := 0, remote := false }

/-- A WAIT for the word at 0x8000 to reach `v`, at the head of queue 0. -/
def waitDesc (v : Nat) : Nat := 6 + 2 ^ 30 + 2 ^ 64 + 0x8000 * 2 ^ 768 + v * 2 ^ 832

def sWaitHead (v : Nat) : State := sQ.wrN 0x10000 128 (waitDesc v)

def sWait : State := sQ.upd 0 fun x => x.updQueue 0 fun k => { k with wait := some wait0 }

/-- A context with a higher priority waits while core 0 of its partition runs a command of another. -/
def sVictim : State :=
  { sQ with ctxs := [(0, ⟨2 ^ 8 + 3 * 2 ^ 12 + 2 ^ 32, []⟩), (1, ⟨2 ^ 8 + 2 ^ 32, []⟩)] }.updCore 0 0 fun c => { c with run := some { run3 with ctx := 1, part := 1 } }

/-- A condition with nothing to watch: it is met. -/
def cond0 : CondRt := { cond := 0, lagVt := none, met := false, viaFallback := false }

def sCond : State := sQ.upd 0 fun x => x.updQueue 0 fun k => { k with record := k.record + 0x30000 * 2 ^ 128, cond := some cond0 }

/-- A halo condition on a mark that still holds another sequence, its lag over, with a fallback. -/
def halo0 : CondRt :=
  { cond := 0x2000000000 + 2 ^ 48 + 5 * 2 ^ 64 + 2 ^ 96 + 2 ^ 106, lagVt := some 0, met := false, viaFallback := false }

def sHalo : State := sQ.upd 0 fun x => x.updQueue 0 fun k => { k with cond := some halo0 }

/-- A mark that matches. -/
def haloMark : Nat := 5 + 2 ^ 32

def sHaloMet : State := sHalo.wrN 0x2000000000 16 haloMark

def sHaloNo : State := sQ.upd 0 fun x => x.updQueue 0 fun k => { k with cond := some { halo0 with cond := halo0.cond - 2 ^ 106 } }

/-- Window entry 0: a COMMAND of one 100 ns instance for core 0 and context 0. -/
def win0 : Nat := 2 ^ 24 + 2 ^ 32 + 2 ^ 64 + 2 ^ 96

def sWin : State := sVdi.upd 0 fun x => { x with win := { x.win with running := true, bank0 := [(0, win0)] } }

/-- Half 0 has restarted and runs its channels' assays. -/
def sTrials : State := sWin.upd 0 fun x => { x with win := { x.win with running := false }, tally := { x.tally with rejoining := true }, clk := { x.clk with phase := 1 } }

def sieve0 : SieveRun :=
  { org := .entry 0, index := 0, gen := 0, desc := 0, ctx := 0, vdi := 0, startVt := 0, went := 0, assay := false, ranNs := 0, retried := false }

/-- A Sieve descriptor of one candidate and one class that passes the checks of R174. -/
def sieveDesc : Nat :=
  2 ^ 64 + 2 ^ 96 + 2 ^ 112 + 2 ^ 128 + 0x5000 * 2 ^ 320 + 0x6000 * 2 ^ 384 + 0x9000 * 2 ^ 512 +
    0x3F800000 * (2 ^ 768 + 2 ^ 800 + 2 ^ 832 + 2 ^ 864 + 2 ^ 896 + 2 ^ 928)

def sSieve : State :=
  (sVdi.upd 0 fun x => ({ x with win := { x.win with running := true, bank0 := [(0, win0 + 2 ^ 135 + 0x4000 * 2 ^ 192)] },
                                 disp := { x.disp with cached := [wCtx win0] } } : Half).setInst 0
    { Inst.none with open_ := true, start := 1 }).wrN 0x4000 128 sieveDesc

/-- The same as the head of a queue of the Sieve. -/
def sSieveQ : State := (sQ.upd 0 fun x => x.updQueue 0 fun k => { k with record := k.record + 2 ^ 56 }).wrN 0x10000 128 sieveDesc

/-- Session 1 of half 0's port. -/
def session1 : Session := { pid := 1, expect := 1, devSeq := 0, answers := [], queued := [], replies := [], lastVt := 0, staging := [] }

/-- A session that holds the Latch, and VDI 0. -/
def sMsg : State :=
  { sVdi.upd 0 fun x => { x with ports := { x.ports with stage := 4, sessions := [(1, some session1)] } } with
    latch := { holder := some 1, half := 0, partner := 1, gen := 0, expires := 100000000 } }

/-- A message of session 1 for VDI 0. -/
def msg0 : Msg := { org := .session 1, tag := 7, gen := 0, vdi := 0 }

/-- The same for the device. -/
def msgDev : Msg := { org := .session 1, tag := 7, gen := 0, vdi := 0xFF }

/-- Bank 3 of half 0 failed 8 times within the hour. -/
def sBank : State := sUp.upd 0 fun x => { x with str := { x.str with bankErr := [(3, [0, 0, 0, 0, 0, 0, 0, 0])] } }

/-- Receiver 0 enabled with stream slot 0 of RAW12 on virtual channel 0. -/
def sCam : State := sUp.upd 0 fun x =>
  ((x.setFld F.INT_RX_CFG_enable 1 0).setFld F.INT_STREAM_CFG_enable 1 0).setFld F.INT_STREAM_CFG_data_type 0x2B 0

/-- RAW12 of 16 by 16 to DRAM past the reserve, marks in the Strongroom. -/
def streamCfg0 : Nat :=
  (1 + 0x2C * 2 ^ 5 + 1 * 2 ^ 13) + (16 + 16 * 2 ^ 16 + 1000000 * 2 ^ 32) * 2 ^ 64 + 0x10000000 * 2 ^ 192 + 2 ^ 256 + 1000 * 2 ^ 320 + 0x2000000000 * 2 ^ 384

/-- An acceptable stream configuration staged at offset 0 by the Latch holder, while slot 0 runs. -/
def sStream : State := sMsg.upd 0 fun x =>
  let y := ((x.setFld F.INT_RX_CFG_enable 1 0).setFld F.INT_STREAM_CFG_enable 1 0).setFld F.INT_STREAM_CFG_data_type 0x2B 0
  { y with str := { y.str with gran := [(0, 258)] } }.setSession 1 (some { session1 with staging := cellsWrite [] 0 (leBytes 56 streamCfg0) })

/-- The same staged without the enable bit. -/
def sStreamOff : State := sStream.upd 0 fun x => x.setSession 1 (some { session1 with staging := cellsWrite [] 0 (leBytes 56 (streamCfg0 - 1)) })

/-- Round 0 of task 0 judged by half 0, with these channel statuses. -/
def sRound (a b : Option Status) : State := sUp.upd 0 fun x =>
  (({ x with win := { x.win with running := true } } : Half).setFld F.TLY_CTL_enable 1 |>.setFld F.TLY_TASK_STATE_state 1 0).updTask 0 fun k =>
    k.setRound 0 { Round.new with stA := a, stB := b, opened := true }

/-- An instance of entry 0 that ended OK, whose round is 0. -/
def sDeliver : State := sUp.upd 0 fun x =>
  ({ x with win := { x.win with running := true, bank0 := [(0, win0 + 2 ^ 384)] } } : Half).setInst 0 { Inst.none with last := some (.ok, 0), rounds := [(0, 0)] }

/-- A RESERVE assay of channel 0 of task 0 is due and its last run failed. -/
def sAssay : State := (sRound none none).upd 0 fun x =>
  (({ x with win := { x.win with bank0 := [(0, win0 + 2 ^ 157 + 2 ^ 384)] } } : Half).setInst 0 { Inst.none with last := some (.internal, 0) }).updTask 0 fun k =>
    { k with assayDue := [(0, true)] }

/-- Both channels of round 0 of task 0, which runs the assay in ROUND mode, are reported absent. -/
def sAssayRound : State :=
  let s := (sRound (some .late) (some .late)).upd 0 fun x => x.updTask 0 fun k => { k with assayRound := some 0 }
  s.wrN (s.taskAddr 0 0) 1 16

/-- Half 0 is up with its configuration still to be applied. -/
def sConf : State := sUp.upd 0 fun x => { x with fw := { x.fw with confDue := true } }

/-- Core 0 carries critical duty. -/
def sCrit : State := sWin

/-- Stream slot 2 of the gateway takes frames in, gateway queue 15 has an owner. -/
def sGate : State := sUp.upd 0 fun x =>
  { x.setFld F.GTW_CTL_enable 1 with gtw := { x.gtw with slots := [(2, 2 ^ 64)], queueOwner := [(15, 1)] } }

/-- The route of identifier 0x123 on bus 3, with its destination bus 4. -/
def route3 : Nat := 3 + 2 ^ 13 + 0x123 * 2 ^ 16 + 4 * 2 ^ 64 + 0x1FFF * 2 ^ 112

def sRoute : State := (sGate.putRoutes 0 [route3]).1

/-- The gateway holds an entry that cannot be placed anew. -/
def sFullRoutes : State := sMsg.upd 0 fun x => { x with gtw := { x.gtw with hw := [(0, 3 * 2 ^ 11 + 2 ^ 13)] } }

/-- Slot 2 sends to port 0 and has packed one message. -/
def acf0 : AcfOut := { bus := 3, brief := true, stamp := 0, frame := ⟨0, 0x123, [], 0⟩ }

def sPacked : State := sGate.upd 0 fun x => { x with gtw := { x.gtw with slots := [(2, 2 ^ 8)], packing := [(2, [acf0])] } }

/-- A request of the camera intake's class is held at port 130 with its coins, its controller's queue being full. -/
def heldReq : Held := { port := 130, cls := 15, pc := 0, bank := 0, row := 0, bytes := 64, write := true, since := 0, coinsAt := 1, missed := false }

def sHeldLong : State := { sUp.upd 0 fun x => { (x.setFld F.MNT_CLASS_CFG_window_us 1 0 15) with mint := { x.mint with held := [heldReq] } } with now := 2000 }

def sHeldMissed : State := sHeldLong.upd 0 fun x => { x with mint := { x.mint with missVt := [(15, 1)] } }

/-- A request of class 14, which may not borrow, is held at port 138. -/
def sHeldTwo : State := sUp.upd 0 fun x =>
  { x.setFld F.MNT_CLASS_CFG_borrow 0 0 14 with mint := { x.mint with held := [{ heldReq with port := 138, cls := 14, coinsAt := 0 }] } }

/-- The Latch holder has staged the number `n` at offset 0. -/
def sStaged (n : Nat) : State := sMsg.upd 0 fun x => x.setSession 1 (some { session1 with staging := cellsWrite [] 0 (leBytes 64 n) })

/-- Module 1 of half 0 awaits flit 4095. -/
def sFlit : State := sUp.upd 0 fun x =>
  { x.setFld F.HTC_LINK_modules_up 7 with hatch := { x.hatch with rxSeq := [(1, 4096)] } }

/-- A request of 4 bytes with tag 9 waits for its completion at half 0's bridge. -/
def sTag : State := sUp.upd 0 fun x => { x with hatch := { x.hatch with outstanding := [(9, 5)] } }

/-- Hart 2 holds the entry of the granule at 0x10000000, and hart 1 waits for it. -/
def sem0 : Sem := { hart := 2, granule := 0x400000, takenVt := 0 }

def lr0 : LrWait := { pkt := ⟨0, 0, 0⟩, hart := 1, addr := 0x10000008, width := 8 }

def sSem : State := sUp.upd 0 fun x => { x with hatch := { x.hatch with sems := [(0, some sem0)], lrWait := [lr0] } }

/-- Peer 4 of half 0 is listed. -/
def sPeer : State := sVdi.upd 0 fun x => { x with ports := { x.ports with peers := [(4, 1)] } }

/-- The Latch is free. -/
def sFree : State := { sMsg with latch := { sMsg.latch with holder := none } }

/-- VDI 0 owns queues 0 to 63 and small contexts 0 to 15. -/
def sOwn : State := { sMsg with vdis := [(0, { Vdi.absent with exists_ := true, cfg := vdiCfg0 + 64 * 2 ^ 80 + 16 * 2 ^ 128 })] }

/-- The same VDI on half 1. -/
def sFar : State := { sMsg with vdis := [(0, { Vdi.absent with exists_ := true, half := 1, cfg := vdiCfg0 + 64 * 2 ^ 80 + 16 * 2 ^ 128 })] }

/-- Half 0 has a frame of 1 ms. -/
def sFrame : State := sMsg.upd 0 fun x => x.setFld F.WIN_FRAME_length 10000

/-- The same with the number `n` staged at offset 0. -/
def sStagedOwn (n : Nat) : State := { sOwn with h0 := (sStaged n).h0, ctxs := [(0, ⟨2 ^ 8 + 2 ^ 32, []⟩)] }

/-- Queue 5 of VDI 0 has a record and is in a state. -/
def sOwnQ (st : Nat) : State := sOwn.upd 0 fun x =>
  (x.setFld F.TEL_DB_STATE_state st 5).setQueue 5 { Queue.disabled with record := 0x10000 + 0x20000 * 2 ^ 64 + 2 ^ 224 }

/-- VDI 0 at a step of its migration. -/
def sPhase (k : Nat) : State := { sMsg with vdis := [(0, { Vdi.absent with exists_ := true, cfg := vdiCfg0, migStep := k })] }

/-- A quiesced VDI 0, with the place of its image staged. -/
def sExport : State := { sPhase 3 with h0 := (sStaged (0x10000000 + 2 ^ 30 * 2 ^ 64)).h0 }

/-- The port of half 0 is retired; the session and the Latch are on half 1's. -/
def sRetired : State :=
  { (sMsg.upd 0 fun x => { (x.setRecord fun r => { r with portRetired := true }) with ports := { x.ports with sessions := [] } }).upd 1
      (fun x => { x with ports := { x.ports with stage := 4, sessions := [(1, some session1)] } }) with
    latch := { sMsg.latch with half := 1 } }

/-- Pipe 1 of half 0 is enabled, its link up. -/
def sPipe : State := sUp.upd 0 fun x => (x.setFld F.DSP_PIPE_CTL_enable 1 1).setPipe 1 { x.pipe 1 with linkUp := true }

/-- A vault's entry in a state: one code range, one door range with two entries, quantum 5 µs, privileges of R471. -/
def vaultRaw (st : Nat) : Nat :=
  st + 8 + 16 + 32 + 5 * 2 ^ 16 + 2 * 2 ^ 32 + (0x1000 + 2 ^ 32 + 2 ^ 52) * 2 ^ 128 + (0x1001 + 2 ^ 32 + 3 * 2 ^ 52) * 2 ^ 192

/-- Vault 63 is sealed with hart 2 in it, 62 builds, 61 is being destroyed; identity 7 is bound. -/
def sVault : State :=
  (sUp.upd 0 fun x =>
    { x.setHart 2 { x.hart 2 with vault := some 63, sinceVt := 0 } with
      vaults := { x.vaults with
        table := [(61, { x.vault 61 with raw := vaultRaw 3 }), (62, { x.vault 62 with raw := vaultRaw 1 }), (63, { x.vault 63 with raw := vaultRaw 2 })]
        harts := (x.setHart 2 { x.hart 2 with vault := some 63, sinceVt := 0 }).vaults.harts, idents := [(7, 64)] } }).wrN 0x10010000 8 (2 ^ 32 + 0x40)

/-- A render of one bin, and queue 0 with it for a graphics partition over core 0. -/
def render0 : RenderRun :=
  { badAt := none, samples := 1, colours := [{ base := 0x10040000, pitch := 128, bytes := 4, load := .clear 5, store := true }], depth := none, texs := [], draws := [],
    hung := none, lastCore := 0, engineNs := 0 }

def renderDesc : Nat :=
  0x40 + 32 * 2 ^ 64 + 32 * 2 ^ 80 + 64 * 2 ^ 96 + 0x10020000 * 2 ^ 128 + 0x10030000 * 2 ^ 192 + 512 * 2 ^ 256 + 512 * 2 ^ 288

def sRender : State :=
  (({ sVdi with ctxs := [(0, ⟨2 ^ 8 + 2 ^ 32, []⟩)] }.upd 0 fun x =>
    ({ ((((x.setFld F.TEL_DB_STATE_state 2 0).setFld F.TEL_DB_TAIL_tail 1 0).setFld F.WIN_PART_CFG_kind 3 0 1).setFld F.WIN_PART_CORES_cores 1 0 1) with
        disp := { x.disp with cached := [0] } } : Half).updQueue 0 fun k => { k with record := 0x10010000 + 0x10000 * 2 ^ 64 }).updCore 0 0
    fun c => { c with graphics := true }).wrN 0x10010000 128 renderDesc

/-- Model 5 of VDI 0 in a state, in granules 0 to 3. -/
def model5 (st : Nat) : ModelEntry :=
  { key := 5, vdi := 0, state := st, gran := 0, len := 1, src := 0, size := 4, inUse := 0, lastVt := 0, bound := [] }

def sModel : State := sMsg.upd 0 fun x => { x with str := { x.str with models := [model5 1] } }

/-- Half 0's rim is down while its compute domain runs. -/
def sRimDown : State := sUp.upd 0 fun x => { x with clk := { x.clk with rimUp := false } }

/-- Two halves whose rims run with all their DRAM, nothing of it damaged and no vault in it. -/
structure DramWell (t : State) : Prop where
  backed : ∀ g, (t.half g).backed = 0xC00000000
  table : ∀ g, (t.half g).vaults.table = []
  bad : ∀ g, (t.half g).mint.dramBad = []
  fails : ∀ g, (t.half g).mint.pcFailed = 0
  link : (t.half 0).linkUp = true

/-- A range of 1 KiB at most in the first 768 MiB of a half's DRAM: where it lies. -/
theorem dram_place (g o n : Nat) (hn : n ≤ 1024) (ho : o < 0x30000000) :
    homeHalf (dramBase (g % 2) + o) = g % 2 ∧ inDram (g % 2) (dramBase (g % 2) + o) n = true ∧ inStr (g % 2) (dramBase (g % 2) + o) n = false := by
  rcases Nat.mod_two_eq_zero_or_one g with e | e
  all_goals
    rw [e]
    refine ⟨?_, ?_, ?_⟩
    · unfold homeHalf dramBase
      repeat' split
      all_goals first | rfl | omega
    · simp [inDram, dramBase, dramSize]
      omega
    · simp [inStr, strBase, dramBase]
      omega

/-- Half 0 reads such a range of a half whose rim runs, and gets no answer where it is down. -/
theorem dram_access (t : State) (w : DramWell t) (g o n : Nat) (hn : n ≤ 1024) (ho : o < 0x30000000) :
    t.access 0 (dramBase (g % 2) + o) n = if (t.half (g % 2)).clk.rimUp = true then .ok else .timeout := by
  obtain ⟨hh, hd, hs⟩ := dram_place g o n hn ho
  have hv : t.vaultDenies 0 none (dramBase (g % 2) + o) n = false := by simp [State.vaultDenies, State.vaultBlocks, w.table]
  have hr : dmaReach (dramBase (g % 2) + o) n = true := by
    rcases Nat.mod_two_eq_zero_or_one g with e | e <;> rw [e] at hd <;> simp [dmaReach, e, hd]
  have hq : t.reaches (dramBase (g % 2) + o) n = true := by
    simp [State.reaches, hr, hh, hd, w.backed]
    omega
  have hm : t.damaged (dramBase (g % 2) + o) n = false := by simp [State.damaged, hh, hs, w.bad, w.fails, Half.pcFails]
  by_cases k : (t.half (g % 2)).clk.rimUp = true
  · simp [State.access, State.fabric, hq, hv, hm, State.served, hr, hh, hd, hs, k, w.link]
  · simp [State.access, State.fabric, hq, State.served, hr, hh, hd, k]

theorem record_place (c : Nat) : ∃ g o, recordAt c = dramBase (g % 2) + o ∧ o < 0x30000000 ∧ ctxBytes c ≤ 1024 := by
  have hb : bits c 0 19 < 524288 := Nat.mod_lt _ (by decide)
  obtain ⟨k, hk, hk2⟩ : ∃ k, (if isL c then 1 else 0) = k ∧ k ≤ 1 := ⟨_, rfl, by split <;> omega⟩
  obtain ⟨n, hn, hn2⟩ : ∃ n, ctxBytes c = n ∧ n ≤ 128 := ⟨_, rfl, by unfold ctxBytes; split <;> omega⟩
  have hm : n * bits c 0 19 ≤ 128 * 524287 := Nat.mul_le_mul hn2 (by omega)
  obtain ⟨o, ho⟩ : ∃ o, o = k * 0x10000000 + Config.ctxTable k / 2 % 0xC000000 / 128 * 128 + n * bits c 0 19 := ⟨_, rfl⟩
  refine ⟨Config.ctxTable k, o, ?_, by omega, by omega⟩
  simp only [recordAt, hk, hn]
  omega

theorem set_place (c : Nat) : ∃ o, ctxAt 0 c = dramBase (0 % 2) + o ∧ o < 0x30000000 := by
  obtain ⟨o, ho⟩ : ∃ o, o = 0x20000000 + Config.ctxCopy c % 0x40000 * 1024 := ⟨_, rfl⟩
  refine ⟨o, ?_, by omega⟩
  simp only [ctxAt, Nat.zero_mod]
  omega

theorem ctxRead_eq (t : State) (c : Nat) {a b : Status} (h : t.access 0 (recordAt c) (ctxBytes c) = a) (k : t.access 0 (ctxAt 0 c) 1024 = b) :
    t.ctxRead 0 c = if a = .ok then b else a := by
  rw [State.ctxRead, h, k]

/-- Half 0 reads a context's record and handle set where both rims run. -/
theorem ctxRead_ok (t : State) (c : Nat) (w : DramWell t) (hr : ∀ g, (t.half g).clk.rimUp = true) : t.ctxRead 0 c = .ok := by
  obtain ⟨g, o, e, ho, hn⟩ := record_place c
  obtain ⟨o2, e2, ho2⟩ := set_place c
  have h1 := dram_access t w g o _ hn ho
  have h2 := dram_access t w 0 o2 1024 (Nat.le_refl _) ho2
  rw [← e, if_pos (hr _)] at h1
  rw [← e2, if_pos (hr _)] at h2
  rw [ctxRead_eq t c h1 h2]
  rfl

/-- They do not answer where half 0's rim is down. -/
theorem ctxRead_down (t : State) (c : Nat) (w : DramWell t) (hr : (t.half 0).clk.rimUp = false) : t.ctxRead 0 c = .timeout := by
  obtain ⟨g, o, e, ho, hn⟩ := record_place c
  obtain ⟨o2, e2, ho2⟩ := set_place c
  have h1 := dram_access t w g o _ hn ho
  have h2 := dram_access t w 0 o2 1024 (Nat.le_refl _) ho2
  rw [← e] at h1
  rw [← e2, if_neg (by simp [hr])] at h2
  rw [ctxRead_eq t c h1 h2]
  by_cases k : (t.half (g % 2)).clk.rimUp = true <;> simp [k]

/-- A fact about both halves. -/
theorem both (P : Half → Prop) (t : State) (h0 : P (t.half 0)) (h1 : P (t.half 1)) (g : Nat) : P (t.half g) := by
  by_cases e : g = 0
  · rw [e]; exact h0
  · have : t.half g = t.half 1 := by simp [State.half, e]
    rw [this]; exact h1

theorem sUp_well : DramWell (tick (ev 0) sUp) :=
  ⟨both (fun x => x.backed = 0xC00000000) _ (by decide +kernel) (by decide +kernel), both (fun x => x.vaults.table = []) _ (by decide +kernel) (by decide +kernel),
    both (fun x => x.mint.dramBad = []) _ (by decide +kernel) (by decide +kernel), both (fun x => x.mint.pcFailed = 0) _ (by decide +kernel) (by decide +kernel), by decide +kernel⟩

theorem sRimDown_well : DramWell (tick (ev 0) sRimDown) :=
  ⟨both (fun x => x.backed = 0xC00000000) _ (by decide +kernel) (by decide +kernel), both (fun x => x.vaults.table = []) _ (by decide +kernel) (by decide +kernel),
    both (fun x => x.mint.dramBad = []) _ (by decide +kernel) (by decide +kernel), both (fun x => x.mint.pcFailed = 0) _ (by decide +kernel) (by decide +kernel), by decide +kernel⟩

theorem sUp_ctxRead (ctx : Nat) : (tick (ev 0) sUp).ctxRead 0 ctx = .ok :=
  ctxRead_ok _ ctx sUp_well (both (fun x => x.clk.rimUp = true) _ (by decide +kernel) (by decide +kernel))

theorem sRimDown_ctxRead (ctx : Nat) : (tick (ev 0) sRimDown).ctxRead 0 ctx = .timeout := ctxRead_down _ ctx sRimDown_well (by decide +kernel)

theorem Half.ownerPaused_running (x : Half) (run : ∀ u < 4, x.fld F.WIN_DISP_STAT_paused 0 u = 0) (h part : Nat) : x.ownerPaused h part = false := by
  simp [Half.ownerPaused, run _ (Nat.mod_lt _ (by decide))]

/-- Window entry 0: a SLOT of one 100 ns instance for core 5. -/
def slot5 : Nat := 2 * 2 ^ 24 + 2 ^ 32 + 2 ^ 64 + 2 ^ 96 + 5 * 2 ^ 128 + 2 ^ 136

def sSlot : State := sVdi.upd 0 fun x => { x.setFld F.TLY_AUDIT_CFG_enable 1 with win := { x.win with running := true, bank0 := [(0, slot5)] } }

/-- The same, its result in no memory. -/
def sDeliverFar : State := sDeliver.wrN (sDeliver.taskAddr 0 0 + 128) 6 (2 ^ 47)

def okMsg : Msg := { org := .session 0, tag := 0, gen := 0, vdi := 0 }

def okFrame : Frame := { idKind := 0, id := 0, data := [], flags := 0 }

def okSave : HartSave := { pc := 0, regs := [], trans := 0, priv := .u }

def rasAtt0 : RasAtt := { base := 0, pitch := 0, bytes := 4, load := .load, store := false }

def rasDraw0 : RasDraw :=
  { topo := .list, verts := 3, indexAddr := none, indexBytes := 2, count := 3, restart := false, positions := [], viewport := [], cullBack := false,
    frontCcw := true, clampZ := false, depthCmp := none, depthWrite := false, stencil := none, late := false, blend := [], frags := [], covers := [] }

/-! ## Well-formedness: an ill-formed term for each check, and a well-formed one of each command -/

theorem test_wf_origins : [Origin.session (2 ^ 32), .teller 256, .ring 8].all (fun o => !o.wf) = true ∧ (Origin.ring 7).wf = true := by decide

theorem test_wf_heads : [{ okMsg with org := .ring 8 }, { okMsg with tag := 2 ^ 32 }, { okMsg with gen := 2 ^ 16 }, { okMsg with vdi := 256 }].all (fun m => !m.wf) = true ∧
    [FrameHdr.mk (2 ^ 32) 0 0 0, .mk 0 (2 ^ 32) 0 0, .mk 0 0 (2 ^ 32) 0, .mk 0 0 0 256].all (fun m => !m.wf) = true ∧
    [MsgH.mk (2 ^ 16) 0, .mk 0 (2 ^ 16)].all (fun m => !m.wf) = true := by decide

theorem test_wf_units : [Work.queue 16384, .entry 4096].all (fun w => !w.wf) = true ∧ [Master.app 12, .dma 136 0].all (fun w => !w.wf) = true ∧
    [ShutUnit.group 8, .core 136, .chan 64].all (fun w => !w.wf) = true ∧ [TripSrc.junction 24, .stack 2].all (fun w => !w.wf) = true ∧
    [ReadKind.appLoad 12, .window 256, .rmw 256, .hatch 4096].all (fun w => !w.wf) = true := by decide

theorem test_wf_packets : [FlitEnd.mk 0 32 0, .mk 0 0 2048].all (fun w => !w.wf) = true ∧
    [DramReq.mk 0 48 0 [], .mk 0 0 16384 [], .mk 0 0 0 (List.replicate 65 false)].all (fun w => !w.wf) = true ∧
    [{ render0 with colours := List.replicate 5 rasAtt0 }, { render0 with draws := [{ rasDraw0 with verts := 4 }] }].all (fun w => !w.wf) = true := by decide +kernel

theorem test_wf_payloads : [Verdict.mk .ok (2 ^ 32) 0, .mk .ok 0 (2 ^ 32)].all (fun w => !w.wf) = true ∧
    [Pkt.mk 16 0 0, .mk 0 256 0, .mk 0 0 4096].all (fun w => !w.wf) = true ∧
    [{ okFrame with idKind := 4 }, { okFrame with id := 2 ^ 32 }, { okFrame with data := List.replicate 2049 0 }].all (fun w => !w.wf) = true ∧
    [{ okSave with pc := 2 ^ 64 }, { okSave with regs := List.replicate 17 0 }, { okSave with regs := [2 ^ 64] }].all (fun w => !w.wf) = true := by decide +kernel

theorem test_ill_formed_1 : (show List Instr from [
    .powerGoodRise ⟨2, 0⟩,
    .resetNLow ⟨0, 0⟩ (2 ^ 64),
    .rcOscillatorCheck ⟨0, 0⟩ (2 ^ 64),
    .coreDividerChange ⟨0, 0⟩ 136 0,
    .coreDividerChange ⟨0, 0⟩ 0 (2 ^ 64),
    .thermalTrip ⟨0, 0⟩ (.junction 24),
    .canRouteWake ⟨0, 0⟩ 8,
    .wakeInputBall ⟨0, 0⟩ 16,
    .coreReset ⟨0, 0⟩ 136 0,
    .coreReset ⟨0, 0⟩ 0 256,
    .coreResetDone ⟨0, 0⟩ 136,
    .halfComputeRestart ⟨0, 0⟩ (2 ^ 64) false,
    .halfRimRestart ⟨0, 0⟩ (2 ^ 64) false,
    .packageWarmReset ⟨0, 0⟩ (2 ^ 64) false,
    .rejoinActivation ⟨0, 0⟩ (2 ^ 64),
    .telDbTailWrite ⟨0, 0⟩ 16384 0,
    .telDbTailWrite ⟨0, 0⟩ 0 (2 ^ 64),
    .telDbCqHeadWrite ⟨0, 0⟩ 16384 0,
    .telDbCqHeadWrite ⟨0, 0⟩ 0 (2 ^ 64),
    .coreFreeDispatch ⟨0, 0⟩ 136,
    .contextFetchDone ⟨0, 0⟩ (2 ^ 20),
    .contextWriteBack ⟨0, 0⟩ (2 ^ 20),
    .tileEnd ⟨0, 0⟩ 136 [],
    .tileWatchdogFire ⟨0, 0⟩ 136,
    .dmaDescriptorEnd ⟨0, 0⟩ 136 0,
    .dmaDescriptorEnd ⟨0, 0⟩ 0 (2 ^ 64),
    .dmaDescriptorFailure ⟨0, 0⟩ 136 0 .ok,
    .dmaDescriptorFailure ⟨0, 0⟩ 0 (2 ^ 64) .ok,
    .detectedMemoryError ⟨0, 0⟩ 136 0 0,
    .detectedMemoryError ⟨0, 0⟩ 0 8 0,
    .detectedMemoryError ⟨0, 0⟩ 0 0 (2 ^ 64),
    .nonTileReadError ⟨0, 0⟩ (.appLoad 12) 0,
    .nonTileReadError ⟨0, 0⟩ (.window 0) (2 ^ 64),
    .rowWriteLands ⟨0, 0⟩ 136 0,
    .rowWriteLands ⟨0, 0⟩ 0 12288,
    .tokenBarrierPass ⟨0, 0⟩ 136 0,
    .tokenBarrierPass ⟨0, 0⟩ 0 (2 ^ 64),
    .preemptionRequest ⟨0, 0⟩ (2 ^ 20),
    .graphicsSwitchRequest ⟨0, 0⟩ 16,
    .modeSwitchDone ⟨0, 0⟩ 136,
    .waitLocalEvaluation ⟨0, 0⟩ 16384,
    .waitLimitExpiry ⟨0, 0⟩ 16384,
    .remoteWatchRepeat ⟨0, 0⟩ 16384,
    .remoteWatchReply ⟨0, 0⟩ 16384 0 0,
    .remoteWatchReply ⟨0, 0⟩ 0 65536 0,
    .remoteWatchReply ⟨0, 0⟩ 0 0 (2 ^ 32),
    .rowConditionEvaluation ⟨0, 0⟩ (.queue 16384),
    .lagLimitExpiry ⟨0, 0⟩ (.queue 16384),
    .windowPreArm ⟨0, 0⟩ 4096,
    .windowInstanceStart ⟨0, 0⟩ 4096,
    .windowInstanceEndUnmet ⟨0, 0⟩ 4096,
    .dispatchWatchdog ⟨0, 0⟩ 4,
    .dispatchRestartDone ⟨0, 0⟩ 4,
    .sieveCommandStart ⟨0, 0⟩ (.queue 16384),
    .patrolRowRead ⟨0, 0⟩ (2 ^ 20) false,
    .strongroomBankRetire ⟨0, 0⟩ 68,
    .groupWithdrawal ⟨0, 0⟩ 8,
    .shutterClose ⟨0, 0⟩ (.group 8),
    .shutterDrainTimeout ⟨0, 0⟩ (.group 8),
    .shutDoorRefusal ⟨0, 0⟩ (.group 8) .steward,
    .shutDoorRefusal ⟨0, 0⟩ (.group 0) (.app 12),
    .groupReopenDone ⟨0, 0⟩ 8,
    .modelLoadDone ⟨0, 0⟩ (2 ^ 64) 0,
    .modelLoadDone ⟨0, 0⟩ 0 256
  ]).all (fun i => !i.wf) = true := by decide +kernel

theorem test_ill_formed_2 : (show List Instr from [
    .longPacket ⟨0, 0⟩ 8 0 0 [] false false,
    .longPacket ⟨0, 0⟩ 0 16 0 [] false false,
    .longPacket ⟨0, 0⟩ 0 0 64 [] false false,
    .frameStart ⟨0, 0⟩ ⟨8, false⟩ 0 0,
    .frameStart ⟨0, 0⟩ ⟨0, false⟩ 16 0,
    .frameStart ⟨0, 0⟩ ⟨0, false⟩ 0 65536,
    .frameEnd ⟨0, 0⟩ ⟨8, false⟩ 0,
    .frameEnd ⟨0, 0⟩ ⟨0, false⟩ 16,
    .frameCloseTimeout ⟨0, 0⟩ 32,
    .embeddedDataLine ⟨0, 0⟩ ⟨8, false⟩ 0 ⟨[], false⟩,
    .embeddedDataLine ⟨0, 0⟩ ⟨0, false⟩ 16 ⟨[], false⟩,
    .channelResultDelivered ⟨0, 0⟩ 4096,
    .roundDueTime ⟨0, 0⟩ 4096 0,
    .roundDueTime ⟨0, 0⟩ 0 (2 ^ 32),
    .tallyJudgement ⟨0, 0⟩ 4096 0,
    .tallyJudgement ⟨0, 0⟩ 0 (2 ^ 32),
    .verdictExchange ⟨0, 0⟩ 4096 0 ⟨.ok, 0, 0⟩,
    .verdictExchange ⟨0, 0⟩ 0 (2 ^ 32) ⟨.ok, 0, 0⟩,
    .verdictExchange ⟨0, 0⟩ 0 0 ⟨.ok, 2 ^ 32, 0⟩,
    .verdictExchangeTimeout ⟨0, 0⟩ 4096 0,
    .verdictExchangeTimeout ⟨0, 0⟩ 0 (2 ^ 32),
    .lateResultDiscard ⟨0, 0⟩ 4096 0,
    .lateResultDiscard ⟨0, 0⟩ 0 (2 ^ 32),
    .locatingSearchStep ⟨0, 0⟩ 4096,
    .assayDue ⟨0, 0⟩ 4096 0,
    .assayDue ⟨0, 0⟩ 0 2,
    .assayVerdict ⟨0, 0⟩ 4096 0,
    .assayVerdict ⟨0, 0⟩ 0 (2 ^ 32),
    .auditDone ⟨0, 0⟩ 136 false 0,
    .auditDone ⟨0, 0⟩ 0 false 256,
    .auditOverdue ⟨0, 0⟩ 136,
    .dutyHandover ⟨0, 0⟩ 136,
    .flitReceive ⟨0, 0⟩ 3 false false 0 ⟨0, 0, 0⟩,
    .flitReceive ⟨0, 0⟩ 0 false false (2 ^ 32) ⟨0, 0, 0⟩,
    .flitReceive ⟨0, 0⟩ 0 false false 0 ⟨64, 0, 0⟩,
    .hatchLaneRepair ⟨0, 0⟩ 3 0,
    .hatchLaneRepair ⟨0, 0⟩ 0 64,
    .hatchModuleFailover ⟨0, 0⟩ 3,
    .hatchLinkTraining ⟨0, 0⟩ 65536 false,
    .hatchViolation ⟨0, 0⟩ (2 ^ 64) 0 0,
    .hatchViolation ⟨0, 0⟩ 0 (2 ^ 64) 0,
    .hatchViolation ⟨0, 0⟩ 0 0 4096,
    .mWrite ⟨0, 0⟩ ⟨16, 0, 0⟩ 0 [],
    .mWrite ⟨0, 0⟩ ⟨0, 0, 0⟩ (2 ^ 64) [],
    .mRead ⟨0, 0⟩ ⟨16, 0, 0⟩ 0 0,
    .mRead ⟨0, 0⟩ ⟨0, 0, 0⟩ (2 ^ 64) 0,
    .mRead ⟨0, 0⟩ ⟨0, 0, 0⟩ 0 (2 ^ 64),
    .amo ⟨0, 0⟩ ⟨16, 0, 0⟩ .add 0 0 0,
    .amo ⟨0, 0⟩ ⟨0, 0, 0⟩ .add (2 ^ 64) 0 0,
    .amo ⟨0, 0⟩ ⟨0, 0, 0⟩ .add 0 (2 ^ 64) 0,
    .amo ⟨0, 0⟩ ⟨0, 0, 0⟩ .add 0 0 (2 ^ 64),
    .loadReserved ⟨0, 0⟩ ⟨16, 0, 0⟩ 0 0 0,
    .loadReserved ⟨0, 0⟩ ⟨0, 0, 0⟩ 12 0 0,
    .loadReserved ⟨0, 0⟩ ⟨0, 0, 0⟩ 0 (2 ^ 64) 0,
    .loadReserved ⟨0, 0⟩ ⟨0, 0, 0⟩ 0 0 (2 ^ 64),
    .storeConditional ⟨0, 0⟩ ⟨16, 0, 0⟩ 0 0 0 0,
    .storeConditional ⟨0, 0⟩ ⟨0, 0, 0⟩ 12 0 0 0,
    .storeConditional ⟨0, 0⟩ ⟨0, 0, 0⟩ 0 (2 ^ 64) 0 0,
    .storeConditional ⟨0, 0⟩ ⟨0, 0, 0⟩ 0 0 (2 ^ 64) 0,
    .storeConditional ⟨0, 0⟩ ⟨0, 0, 0⟩ 0 0 0 (2 ^ 64),
    .semaphoreEntryExpiry ⟨0, 0⟩ 256,
    .cpl ⟨0, 0⟩ 4096 [],
    .cplSt ⟨0, 0⟩ 4096 .ok,
    .resWr ⟨0, 0⟩ (2 ^ 64) []
  ]).all (fun i => !i.wf) = true := by decide +kernel

theorem test_ill_formed_3 : (show List Instr from [
    .msgInterrupt ⟨0, 0⟩ ⟨2 ^ 16, 0⟩ 0 0,
    .msgInterrupt ⟨0, 0⟩ ⟨0, 0⟩ 12 0,
    .msgInterrupt ⟨0, 0⟩ ⟨0, 0⟩ 0 65536,
    .msgQueueCompletionIrq ⟨0, 0⟩ ⟨2 ^ 16, 0⟩ 0,
    .msgQueueCompletionIrq ⟨0, 0⟩ ⟨0, 0⟩ 16384,
    .msgRemoteWatchRequest ⟨0, 0⟩ ⟨2 ^ 16, 0⟩ 0 0 0 0 0,
    .msgRemoteWatchRequest ⟨0, 0⟩ ⟨0, 0⟩ 16384 0 0 0 0,
    .msgRemoteWatchRequest ⟨0, 0⟩ ⟨0, 0⟩ 0 65536 0 0 0,
    .msgRemoteWatchRequest ⟨0, 0⟩ ⟨0, 0⟩ 0 0 (2 ^ 32) 0 0,
    .msgRemoteWatchRequest ⟨0, 0⟩ ⟨0, 0⟩ 0 0 0 (2 ^ 64) 0,
    .msgRemoteWatchRequest ⟨0, 0⟩ ⟨0, 0⟩ 0 0 0 0 (2 ^ 64),
    .msgRemoteWatchReply ⟨0, 0⟩ ⟨2 ^ 16, 0⟩ 0 0 0,
    .msgRemoteWatchReply ⟨0, 0⟩ ⟨0, 0⟩ 16384 0 0,
    .msgRemoteWatchReply ⟨0, 0⟩ ⟨0, 0⟩ 0 65536 0,
    .msgRemoteWatchReply ⟨0, 0⟩ ⟨0, 0⟩ 0 0 (2 ^ 32),
    .msgGatewayFrame ⟨0, 0⟩ ⟨2 ^ 16, 0⟩ okFrame 0,
    .msgGatewayFrame ⟨0, 0⟩ ⟨0, 0⟩ { okFrame with idKind := 4 } 0,
    .msgGatewayFrame ⟨0, 0⟩ ⟨0, 0⟩ okFrame (2 ^ 64),
    .msgControlRelay ⟨0, 0⟩ ⟨2 ^ 16, 0⟩ [],
    .resMsgResult ⟨0, 0⟩ ⟨2 ^ 16, 0⟩ 0 0 0 .ok,
    .resMsgResult ⟨0, 0⟩ ⟨0, 0⟩ 4096 0 0 .ok,
    .resMsgResult ⟨0, 0⟩ ⟨0, 0⟩ 0 2 0 .ok,
    .resMsgResult ⟨0, 0⟩ ⟨0, 0⟩ 0 0 (2 ^ 32) .ok,
    .resMsgVerdict ⟨0, 0⟩ ⟨2 ^ 16, 0⟩ 0 0 ⟨.ok, 0, 0⟩,
    .resMsgVerdict ⟨0, 0⟩ ⟨0, 0⟩ 4096 0 ⟨.ok, 0, 0⟩,
    .resMsgVerdict ⟨0, 0⟩ ⟨0, 0⟩ 0 (2 ^ 32) ⟨.ok, 0, 0⟩,
    .resMsgVerdict ⟨0, 0⟩ ⟨0, 0⟩ 0 0 ⟨.ok, 2 ^ 32, 0⟩,
    .vtCompare ⟨0, 0⟩ ⟨2 ^ 16, 0⟩ 0,
    .vtCompare ⟨0, 0⟩ ⟨0, 0⟩ (2 ^ 64),
    .resMsgGoingDown ⟨0, 0⟩ ⟨2 ^ 16, 0⟩ 0 0 0,
    .resMsgGoingDown ⟨0, 0⟩ ⟨0, 0⟩ (2 ^ 64) 0 0,
    .resMsgGoingDown ⟨0, 0⟩ ⟨0, 0⟩ 0 (2 ^ 64) 0,
    .resMsgGoingDown ⟨0, 0⟩ ⟨0, 0⟩ 0 0 (2 ^ 64),
    .resMsgGatehouseState ⟨0, 0⟩ ⟨2 ^ 16, 0⟩ .degraded,
    .resMsgRepairNotice ⟨0, 0⟩ ⟨2 ^ 16, 0⟩ 0,
    .resMsgRepairNotice ⟨0, 0⟩ ⟨0, 0⟩ 65536,
    .canFrameReceive ⟨0, 0⟩ 16 okFrame,
    .canFrameReceive ⟨0, 0⟩ 0 { okFrame with idKind := 4 },
    .streamIngress ⟨0, 0⟩ 32 0 [],
    .streamIngress ⟨0, 0⟩ 0 (2 ^ 64) [],
    .streamEgressHoldExpiry ⟨0, 0⟩ 32,
    .gatewayQueueDoorbell ⟨0, 0⟩ 16 okFrame,
    .gatewayQueueDoorbell ⟨0, 0⟩ 0 { okFrame with idKind := 4 },
    .busOffRecovery ⟨0, 0⟩ 8,
    .hello ⟨0, 0⟩ (2 ^ 32) 0 0,
    .hello ⟨0, 0⟩ 0 (2 ^ 32) 0,
    .hello ⟨0, 0⟩ 0 0 (2 ^ 64),
    .mailbox ⟨0, 0⟩ ⟨2 ^ 32, 0, 0, 0⟩ [],
    .regRead ⟨0, 0⟩ ⟨2 ^ 32, 0, 0, 0⟩ 0 0 0,
    .regRead ⟨0, 0⟩ ⟨0, 0, 0, 0⟩ 256 0 0,
    .regRead ⟨0, 0⟩ ⟨0, 0, 0, 0⟩ 0 (2 ^ 64) 0,
    .regRead ⟨0, 0⟩ ⟨0, 0, 0, 0⟩ 0 0 (2 ^ 64),
    .regWrite ⟨0, 0⟩ ⟨2 ^ 32, 0, 0, 0⟩ 0 0 [],
    .regWrite ⟨0, 0⟩ ⟨0, 0, 0, 0⟩ 256 0 [],
    .regWrite ⟨0, 0⟩ ⟨0, 0, 0, 0⟩ 0 (2 ^ 64) [],
    .dataWrite ⟨0, 0⟩ ⟨2 ^ 32, 0, 0, 0⟩ 0 [],
    .dataWrite ⟨0, 0⟩ ⟨0, 0, 0, 0⟩ (2 ^ 64) [],
    .dataRead ⟨0, 0⟩ ⟨2 ^ 32, 0, 0, 0⟩ 0 0,
    .dataRead ⟨0, 0⟩ ⟨0, 0, 0, 0⟩ (2 ^ 64) 0,
    .dataRead ⟨0, 0⟩ ⟨0, 0, 0, 0⟩ 0 (2 ^ 64),
    .ringFrame ⟨0, 0⟩ ⟨2 ^ 32, 0, 0, 0⟩ 0 [],
    .ringFrame ⟨0, 0⟩ ⟨0, 0, 0, 0⟩ (2 ^ 64) [],
    .peerWatch ⟨0, 0⟩ (2 ^ 64) 0 0 0 0 0 0,
    .peerWatch ⟨0, 0⟩ 0 16384 0 0 0 0 0
  ]).all (fun i => !i.wf) = true := by decide +kernel

theorem test_ill_formed_4 : (show List Instr from [
    .peerWatch ⟨0, 0⟩ 0 0 65536 0 0 0 0,
    .peerWatch ⟨0, 0⟩ 0 0 0 (2 ^ 32) 0 0 0,
    .peerWatch ⟨0, 0⟩ 0 0 0 0 (2 ^ 64) 0 0,
    .peerWatch ⟨0, 0⟩ 0 0 0 0 0 (2 ^ 64) 0,
    .peerWatch ⟨0, 0⟩ 0 0 0 0 0 0 (2 ^ 64),
    .peerReply ⟨0, 0⟩ (2 ^ 64) 0 0 0,
    .peerReply ⟨0, 0⟩ 0 16384 0 0,
    .peerReply ⟨0, 0⟩ 0 0 65536 0,
    .peerReply ⟨0, 0⟩ 0 0 0 (2 ^ 32),
    .malformedFrame ⟨0, 0⟩ (2 ^ 32) .crc,
    .malformedBlockExpiry ⟨0, 0⟩ (2 ^ 32),
    .sessionIdleTimeout ⟨0, 0⟩ (2 ^ 32),
    .latchTake ⟨0, 0⟩ okMsg (2 ^ 384),
    .latchRenew ⟨0, 0⟩ { okMsg with gen := 2 ^ 16 },
    .statsRead ⟨0, 0⟩ okMsg (2 ^ 384) false 0 0 0 0,
    .statsRead ⟨0, 0⟩ okMsg 0 false (2 ^ 384) 0 0 0,
    .statsRead ⟨0, 0⟩ okMsg 0 false 0 (2 ^ 384) 0 0,
    .statsRead ⟨0, 0⟩ okMsg 0 false 0 0 (2 ^ 384) 0,
    .statsRead ⟨0, 0⟩ okMsg 0 false 0 0 0 (2 ^ 384),
    .incidentRead ⟨0, 0⟩ okMsg (2 ^ 384) 0 0,
    .incidentRead ⟨0, 0⟩ okMsg 0 (2 ^ 384) 0,
    .incidentRead ⟨0, 0⟩ okMsg 0 0 (2 ^ 384),
    .accountRead ⟨0, 0⟩ okMsg (2 ^ 384) 0,
    .accountRead ⟨0, 0⟩ okMsg 0 (2 ^ 384),
    .winWrite ⟨0, 0⟩ okMsg (2 ^ 384) 0 0,
    .winWrite ⟨0, 0⟩ okMsg 0 (2 ^ 384) 0,
    .winWrite ⟨0, 0⟩ okMsg 0 0 (2 ^ 384),
    .winActivate ⟨0, 0⟩ okMsg (2 ^ 384) false,
    .winFrame ⟨0, 0⟩ okMsg (2 ^ 384) 0,
    .winFrame ⟨0, 0⟩ okMsg 0 (2 ^ 384),
    .partWrite ⟨0, 0⟩ okMsg (2 ^ 384) 0 0,
    .partWrite ⟨0, 0⟩ okMsg 0 (2 ^ 384) 0,
    .partWrite ⟨0, 0⟩ okMsg 0 0 (2 ^ 384),
    .taskWrite ⟨0, 0⟩ okMsg (2 ^ 384) 0,
    .taskWrite ⟨0, 0⟩ okMsg 0 (2 ^ 384),
    .tlyCfg ⟨0, 0⟩ okMsg (2 ^ 384) 0 0 false,
    .tlyCfg ⟨0, 0⟩ okMsg 0 (2 ^ 384) 0 false,
    .tlyCfg ⟨0, 0⟩ okMsg 0 0 (2 ^ 384) false,
    .winEnableSet ⟨0, 0⟩ okMsg (2 ^ 384),
    .mntShadow ⟨0, 0⟩ okMsg (2 ^ 384) 0 0,
    .mntShadow ⟨0, 0⟩ okMsg 0 (2 ^ 384) 0,
    .mntShadow ⟨0, 0⟩ okMsg 0 0 (2 ^ 384),
    .mntFb ⟨0, 0⟩ okMsg (2 ^ 384),
    .strAlloc ⟨0, 0⟩ okMsg (2 ^ 384) 0,
    .strAlloc ⟨0, 0⟩ okMsg 0 (2 ^ 384),
    .strFree ⟨0, 0⟩ okMsg (2 ^ 384) 0,
    .strFree ⟨0, 0⟩ okMsg 0 (2 ^ 384),
    .cacheSize ⟨0, 0⟩ okMsg (2 ^ 384),
    .modelLoad ⟨0, 0⟩ okMsg (2 ^ 384) 0 0,
    .modelLoad ⟨0, 0⟩ okMsg 0 (2 ^ 384) 0,
    .modelLoad ⟨0, 0⟩ okMsg 0 0 (2 ^ 384),
    .modelPin ⟨0, 0⟩ okMsg (2 ^ 384),
    .modelUnpin ⟨0, 0⟩ okMsg (2 ^ 384),
    .rxCfg ⟨0, 0⟩ okMsg (2 ^ 384) 0,
    .rxCfg ⟨0, 0⟩ okMsg 0 (2 ^ 384),
    .streamCfg ⟨0, 0⟩ okMsg (2 ^ 384) 0,
    .streamCfg ⟨0, 0⟩ okMsg 0 (2 ^ 384),
    .routeWrite ⟨0, 0⟩ okMsg (2 ^ 384) 0,
    .routeWrite ⟨0, 0⟩ okMsg 0 (2 ^ 384),
    .routeDelete ⟨0, 0⟩ okMsg (2 ^ 384) 0,
    .routeDelete ⟨0, 0⟩ okMsg 0 (2 ^ 384),
    .fanoutWrite ⟨0, 0⟩ okMsg (2 ^ 384) 0 0,
    .fanoutWrite ⟨0, 0⟩ okMsg 0 (2 ^ 384) 0,
    .fanoutWrite ⟨0, 0⟩ okMsg 0 0 (2 ^ 384)
  ]).all (fun i => !i.wf) = true := by decide +kernel

theorem test_ill_formed_5 : (show List Instr from [
    .gtwCfg ⟨0, 0⟩ okMsg (2 ^ 384) 0,
    .gtwCfg ⟨0, 0⟩ okMsg 0 (2 ^ 384),
    .slotCfg ⟨0, 0⟩ okMsg (2 ^ 384) 0,
    .slotCfg ⟨0, 0⟩ okMsg 0 (2 ^ 384),
    .portCfg ⟨0, 0⟩ okMsg (2 ^ 384) 0 0 0 0,
    .portCfg ⟨0, 0⟩ okMsg 0 (2 ^ 384) 0 0 0,
    .portCfg ⟨0, 0⟩ okMsg 0 0 (2 ^ 384) 0 0,
    .portCfg ⟨0, 0⟩ okMsg 0 0 0 (2 ^ 384) 0,
    .portCfg ⟨0, 0⟩ okMsg 0 0 0 0 (2 ^ 384),
    .qbvWrite ⟨0, 0⟩ okMsg (2 ^ 384) 0 0 0 0,
    .qbvWrite ⟨0, 0⟩ okMsg 0 (2 ^ 384) 0 0 0,
    .qbvWrite ⟨0, 0⟩ okMsg 0 0 (2 ^ 384) 0 0,
    .qbvWrite ⟨0, 0⟩ okMsg 0 0 0 (2 ^ 384) 0,
    .qbvWrite ⟨0, 0⟩ okMsg 0 0 0 0 (2 ^ 384),
    .peerFenceWrite ⟨0, 0⟩ okMsg (2 ^ 384) 0 0,
    .peerFenceWrite ⟨0, 0⟩ okMsg 0 (2 ^ 384) 0,
    .peerFenceWrite ⟨0, 0⟩ okMsg 0 0 (2 ^ 384),
    .peerListWrite ⟨0, 0⟩ okMsg (2 ^ 384) 0 0,
    .peerListWrite ⟨0, 0⟩ okMsg 0 (2 ^ 384) 0,
    .peerListWrite ⟨0, 0⟩ okMsg 0 0 (2 ^ 384),
    .vdiCreate ⟨0, 0⟩ okMsg (2 ^ 384) 0 0 0,
    .vdiCreate ⟨0, 0⟩ okMsg 0 (2 ^ 384) 0 0,
    .vdiCreate ⟨0, 0⟩ okMsg 0 0 (2 ^ 384) 0,
    .vdiCreate ⟨0, 0⟩ okMsg 0 0 0 (2 ^ 384),
    .vdiRemove ⟨0, 0⟩ okMsg (2 ^ 384),
    .logStart ⟨0, 0⟩ okMsg (2 ^ 384) 0,
    .logStart ⟨0, 0⟩ okMsg 0 (2 ^ 384),
    .logSwap ⟨0, 0⟩ okMsg (2 ^ 384),
    .quiesce ⟨0, 0⟩ okMsg (2 ^ 384),
    .exportImage ⟨0, 0⟩ okMsg (2 ^ 384) 0,
    .exportImage ⟨0, 0⟩ okMsg 0 (2 ^ 384),
    .importImage ⟨0, 0⟩ okMsg (2 ^ 384) 0,
    .importImage ⟨0, 0⟩ okMsg 0 (2 ^ 384),
    .resumeVdi ⟨0, 0⟩ okMsg (2 ^ 384),
    .abortMigration ⟨0, 0⟩ okMsg (2 ^ 384),
    .releaseVdi ⟨0, 0⟩ okMsg (2 ^ 384),
    .ctxWrite ⟨0, 0⟩ okMsg (2 ^ 384) 0,
    .ctxWrite ⟨0, 0⟩ okMsg 0 (2 ^ 384),
    .queueWrite ⟨0, 0⟩ okMsg (2 ^ 384) 0,
    .queueWrite ⟨0, 0⟩ okMsg 0 (2 ^ 384),
    .queueEnable ⟨0, 0⟩ okMsg (2 ^ 384),
    .queueSuspend ⟨0, 0⟩ okMsg (2 ^ 384),
    .queueResume ⟨0, 0⟩ okMsg (2 ^ 384),
    .queueDisable ⟨0, 0⟩ okMsg (2 ^ 384),
    .lateArrivalDiscard ⟨0, 0⟩ 16384 0,
    .lateArrivalDiscard ⟨0, 0⟩ 0 65536,
    .svcRead ⟨0, 0⟩ okMsg (2 ^ 384) 0 0,
    .svcRead ⟨0, 0⟩ okMsg 0 (2 ^ 384) 0,
    .svcRead ⟨0, 0⟩ okMsg 0 0 (2 ^ 384),
    .halfRestartH ⟨0, 0⟩ okMsg (2 ^ 384),
    .halfRestartM ⟨0, 0⟩ okMsg (2 ^ 384),
    .fwWrite ⟨0, 0⟩ okMsg (2 ^ 384) 0 0,
    .fwWrite ⟨0, 0⟩ okMsg 0 (2 ^ 384) 0,
    .fwWrite ⟨0, 0⟩ okMsg 0 0 (2 ^ 384),
    .fwActivate ⟨0, 0⟩ okMsg (2 ^ 384),
    .attest ⟨0, 0⟩ okMsg (2 ^ 384) 0,
    .attest ⟨0, 0⟩ okMsg 0 (2 ^ 384),
    .dspCfgPipe ⟨0, 0⟩ okMsg (2 ^ 384) 0,
    .dspCfgPipe ⟨0, 0⟩ okMsg 0 (2 ^ 384),
    .dspCfgTelltale ⟨0, 0⟩ okMsg (2 ^ 384) 0,
    .dspCfgTelltale ⟨0, 0⟩ okMsg 0 (2 ^ 384),
    .unknownOpcode ⟨0, 0⟩ okMsg (2 ^ 384),
    .telMbxGo ⟨0, 0⟩ 256,
    .tellerMailboxReply ⟨0, 0⟩ 256
  ]).all (fun i => !i.wf) = true := by decide +kernel

theorem test_ill_formed_6 : (show List Instr from [
    .reqTailWrite ⟨0, 0⟩ 8 0,
    .reqTailWrite ⟨0, 0⟩ 0 (2 ^ 64),
    .registerWrite ⟨0, 0⟩ (.app 12) .WIN_CTL 0 0 0 0,
    .registerWrite ⟨0, 0⟩ .steward .WIN_CTL 65536 0 0 0,
    .registerWrite ⟨0, 0⟩ .steward .WIN_CTL 0 4096 0 0,
    .registerWrite ⟨0, 0⟩ .steward .WIN_CTL 0 0 16 0,
    .registerWrite ⟨0, 0⟩ .steward .WIN_CTL 0 0 0 (2 ^ 64),
    .render ⟨0, 0⟩ 16384 render0,
    .render ⟨0, 0⟩ 0 { render0 with samples := 3 },
    .verticalBlank ⟨0, 0⟩ 2 0,
    .verticalBlank ⟨0, 0⟩ 0 (2 ^ 64),
    .telltaleCrcCompare ⟨0, 0⟩ 2 [],
    .dramReadEcc ⟨0, 0⟩ 64 0 0 false,
    .dramReadEcc ⟨0, 0⟩ 0 64 0 false,
    .dramReadEcc ⟨0, 0⟩ 0 0 (2 ^ 17) false,
    .rowRemap ⟨0, 0⟩ 64 0 0 0,
    .rowRemap ⟨0, 0⟩ 0 64 0 0,
    .rowRemap ⟨0, 0⟩ 0 0 (2 ^ 17) 0,
    .rowRemap ⟨0, 0⟩ 0 0 0 (2 ^ 64),
    .ecsScrub ⟨0, 0⟩ 64 0 0,
    .ecsScrub ⟨0, 0⟩ 0 64 0,
    .ecsScrub ⟨0, 0⟩ 0 0 (2 ^ 17),
    .pseudoChannelRetire ⟨0, 0⟩ 64 false,
    .stackThrottle ⟨0, 0⟩ 2 0,
    .stackThrottle ⟨0, 0⟩ 0 65536,
    .guaranteeMiss ⟨0, 0⟩ 142 0,
    .guaranteeMiss ⟨0, 0⟩ 0 16,
    .portRequestHeldRelease ⟨0, 0⟩ 142 0 ⟨0, 0, 0, []⟩ 0 false,
    .portRequestHeldRelease ⟨0, 0⟩ 0 16 ⟨0, 0, 0, []⟩ 0 false,
    .portRequestHeldRelease ⟨0, 0⟩ 0 0 ⟨64, 0, 0, []⟩ 0 false,
    .portRequestHeldRelease ⟨0, 0⟩ 0 0 ⟨0, 0, 0, []⟩ (2 ^ 64) false,
    .bootSlotFailure ⟨0, 0⟩ 2,
    .doorCall ⟨0, 0⟩ 12 0 0 okSave,
    .doorCall ⟨0, 0⟩ 0 64 0 okSave,
    .doorCall ⟨0, 0⟩ 0 0 (2 ^ 64) okSave,
    .doorCall ⟨0, 0⟩ 0 0 0 { okSave with pc := 2 ^ 64 },
    .doorRet ⟨0, 0⟩ 12 0 0,
    .doorRet ⟨0, 0⟩ 0 (2 ^ 64) 0,
    .doorRet ⟨0, 0⟩ 0 0 (2 ^ 64),
    .doorCreate ⟨0, 0⟩ 12 .u 0,
    .doorCreate ⟨0, 0⟩ 0 .u (2 ^ 64),
    .vaultSealDone ⟨0, 0⟩ 64,
    .doorDestroy ⟨0, 0⟩ 12 .u 0,
    .doorDestroy ⟨0, 0⟩ 0 .u 64,
    .vaultDestroyDone ⟨0, 0⟩ 64,
    .doorSubmit ⟨0, 0⟩ 12 0,
    .doorSubmit ⟨0, 0⟩ 0 (2 ^ 64),
    .doorClaim ⟨0, 0⟩ 12 0,
    .doorClaim ⟨0, 0⟩ 0 (2 ^ 64),
    .doorRelease ⟨0, 0⟩ 12 0,
    .doorRelease ⟨0, 0⟩ 0 (2 ^ 64),
    .doorKey ⟨0, 0⟩ 12 0 0,
    .doorKey ⟨0, 0⟩ 0 (2 ^ 64) 0,
    .doorKey ⟨0, 0⟩ 0 0 (2 ^ 64),
    .vaultQuantumExpiry ⟨0, 0⟩ 12,
    .vaultException ⟨0, 0⟩ 12 0,
    .vaultException ⟨0, 0⟩ 0 (2 ^ 64),
    .secureInterrupt ⟨0, 0⟩ 12 0 okSave,
    .secureInterrupt ⟨0, 0⟩ 0 65536 okSave,
    .secureInterrupt ⟨0, 0⟩ 0 0 { okSave with pc := 2 ^ 64 },
    .vaultFilterRefusal ⟨0, 0⟩ 64 .steward,
    .vaultFilterRefusal ⟨0, 0⟩ 0 (.app 12),
    .debugUnlock ⟨0, 0⟩ (2 ^ 64),
    .fabricOutOfRange ⟨0, 0⟩ (.app 12) 0
  ]).all (fun i => !i.wf) = true := by decide +kernel

theorem test_ill_formed_7 : (show List Instr from [
    .fabricOutOfRange ⟨0, 0⟩ .steward (2 ^ 64),
    .semaphoreEntrySteal ⟨0, 0⟩ ⟨16, 0, 0⟩ 0 0 0,
    .semaphoreEntrySteal ⟨0, 0⟩ ⟨0, 0, 0⟩ 12 0 0,
    .semaphoreEntrySteal ⟨0, 0⟩ ⟨0, 0, 0⟩ 0 (2 ^ 64) 0,
    .semaphoreEntrySteal ⟨0, 0⟩ ⟨0, 0, 0⟩ 0 0 (2 ^ 64),
    .uncorrectableHeader ⟨0, 0⟩ 8,
    .canBusOff ⟨0, 0⟩ 8,
    .qbvListSwap ⟨0, 0⟩ 4,
    .repHeadWrite ⟨0, 0⟩ 8 0,
    .repHeadWrite ⟨0, 0⟩ 0 (2 ^ 64),
    .mkaFrame ⟨0, 0⟩ (2 ^ 32) false,
    .controlPortLinkLoss ⟨0, 0⟩ (2 ^ 64),
    .displayLinkChange ⟨0, 0⟩ 2 false
  ]).all (fun i => !i.wf) = true := by decide +kernel

theorem test_well_formed_1 : (show List Instr from [
    .powerGoodRise ⟨0, 0⟩,
    .powerGoodFall ⟨0, 0⟩,
    .pwrgoodMismatchTimeout ⟨0, 0⟩,
    .resetNLow ⟨0, 0⟩ 0,
    .resetNRelease ⟨0, 0⟩,
    .crystalJudgedStable ⟨0, 0⟩,
    .crystalStartTimeout ⟨0, 0⟩,
    .pllJudgedLocked ⟨0, 0⟩,
    .clockMonitorFailure ⟨0, 0⟩ [],
    .rcOscillatorCheck ⟨0, 0⟩ 0,
    .coreDividerChange ⟨0, 0⟩ 0 0,
    .thermalSensorPoll ⟨0, 0⟩ [],
    .trimStepTimer ⟨0, 0⟩,
    .thermalTrip ⟨0, 0⟩ (.junction 0),
    .tripCooldownRelease ⟨0, 0⟩ [] [],
    .dramTemperaturePoll ⟨0, 0⟩ 0 0,
    .pmbusPoll ⟨0, 0⟩ false false,
    .vrAlertNLow ⟨0, 0⟩,
    .emergencyClear ⟨0, 0⟩,
    .canRouteWake ⟨0, 0⟩ 0,
    .tc10Wake ⟨0, 0⟩,
    .wakeInputBall ⟨0, 0⟩ 0,
    .parkEntryComplete ⟨0, 0⟩,
    .sleepEntryComplete ⟨0, 0⟩,
    .coreReset ⟨0, 0⟩ 0 0,
    .coreResetDone ⟨0, 0⟩ 0,
    .halfComputeRestart ⟨0, 0⟩ 0 false,
    .halfRimRestart ⟨0, 0⟩ 0 false,
    .packageWarmReset ⟨0, 0⟩ 0 false,
    .gatehouseReady ⟨0, 0⟩,
    .rejoinActivation ⟨0, 0⟩ 0,
    .telDbTailWrite ⟨0, 0⟩ 0 0,
    .telDbCqHeadWrite ⟨0, 0⟩ 0 0,
    .coreFreeDispatch ⟨0, 0⟩ 0,
    .contextFetchDone ⟨0, 0⟩ 0,
    .contextWriteBack ⟨0, 0⟩ 0,
    .tileEnd ⟨0, 0⟩ 0 [],
    .tileWatchdogFire ⟨0, 0⟩ 0,
    .dmaDescriptorEnd ⟨0, 0⟩ 0 0,
    .dmaDescriptorFailure ⟨0, 0⟩ 0 0 .ok,
    .detectedMemoryError ⟨0, 0⟩ 0 0 0,
    .nonTileReadError ⟨0, 0⟩ (.window 0) 0,
    .rowWriteLands ⟨0, 0⟩ 0 0,
    .tokenBarrierPass ⟨0, 0⟩ 0 0,
    .preemptionRequest ⟨0, 0⟩ 0,
    .graphicsSwitchRequest ⟨0, 0⟩ 0,
    .modeSwitchDone ⟨0, 0⟩ 0,
    .waitLocalEvaluation ⟨0, 0⟩ 0,
    .waitLimitExpiry ⟨0, 0⟩ 0,
    .remoteWatchRepeat ⟨0, 0⟩ 0,
    .remoteWatchReply ⟨0, 0⟩ 0 0 0,
    .rowConditionEvaluation ⟨0, 0⟩ (.queue 0),
    .lagLimitExpiry ⟨0, 0⟩ (.queue 0),
    .windowPreArm ⟨0, 0⟩ 0,
    .windowInstanceStart ⟨0, 0⟩ 0,
    .windowInstanceEndUnmet ⟨0, 0⟩ 0,
    .bankActivationVt ⟨0, 0⟩,
    .majorFrameEndDisable ⟨0, 0⟩,
    .dispatchWatchdog ⟨0, 0⟩ 0,
    .dispatchRestartDone ⟨0, 0⟩ 0,
    .stewardWatchdog ⟨0, 0⟩,
    .stewardRestartDone ⟨0, 0⟩,
    .lockstepMismatch ⟨0, 0⟩,
    .sieveCommandStart ⟨0, 0⟩ (.queue 0),
    .sieveCommandEnd ⟨0, 0⟩,
    .sieveDataError ⟨0, 0⟩,
    .sieveWatchdog ⟨0, 0⟩,
    .patrolRowRead ⟨0, 0⟩ 0 false,
    .strongroomBankRetire ⟨0, 0⟩ 0,
    .bankMoveDone ⟨0, 0⟩ [],
    .groupWithdrawal ⟨0, 0⟩ 0,
    .granuleZeroed ⟨0, 0⟩,
    .shutterClose ⟨0, 0⟩ (.group 0),
    .shutterDrainTimeout ⟨0, 0⟩ (.group 0),
    .shutDoorRefusal ⟨0, 0⟩ (.group 0) .steward,
    .groupReopenDone ⟨0, 0⟩ 0,
    .modelLoadDone ⟨0, 0⟩ 0 0,
    .longPacket ⟨0, 0⟩ 0 0 0 [] false false,
    .frameStart ⟨0, 0⟩ ⟨0, false⟩ 0 0,
    .frameEnd ⟨0, 0⟩ ⟨0, false⟩ 0,
    .frameCloseTimeout ⟨0, 0⟩ 0,
    .embeddedDataLine ⟨0, 0⟩ ⟨0, false⟩ 0 ⟨[], false⟩,
    .channelResultDelivered ⟨0, 0⟩ 0,
    .roundDueTime ⟨0, 0⟩ 0 0,
    .tallyJudgement ⟨0, 0⟩ 0 0,
    .verdictExchange ⟨0, 0⟩ 0 0 ⟨.ok, 0, 0⟩,
    .verdictExchangeTimeout ⟨0, 0⟩ 0 0,
    .lateResultDiscard ⟨0, 0⟩ 0 0,
    .locatingSearchStep ⟨0, 0⟩ 0,
    .assayDue ⟨0, 0⟩ 0 0
  ]).all Instr.wf = true := by decide +kernel

theorem test_well_formed_2 : (show List Instr from [
    .assayVerdict ⟨0, 0⟩ 0 0,
    .auditDue ⟨0, 0⟩,
    .auditDone ⟨0, 0⟩ 0 false 0,
    .auditOverdue ⟨0, 0⟩ 0,
    .dutyHandover ⟨0, 0⟩ 0,
    .degradedEntry ⟨0, 0⟩ .linkLoss,
    .serrHbCheck ⟨0, 0⟩ false,
    .yieldHalf ⟨0, 0⟩,
    .flitReceive ⟨0, 0⟩ 0 false false 0 ⟨0, 0, 0⟩,
    .hatchLaneRepair ⟨0, 0⟩ 0 0,
    .hatchModuleFailover ⟨0, 0⟩ 0,
    .hatchLinkLoss ⟨0, 0⟩,
    .hatchLinkTraining ⟨0, 0⟩ 0 false,
    .hatchViolation ⟨0, 0⟩ 0 0 0,
    .mWrite ⟨0, 0⟩ ⟨0, 0, 0⟩ 0 [],
    .mRead ⟨0, 0⟩ ⟨0, 0, 0⟩ 0 0,
    .amo ⟨0, 0⟩ ⟨0, 0, 0⟩ .add 0 0 0,
    .loadReserved ⟨0, 0⟩ ⟨0, 0, 0⟩ 0 0 0,
    .storeConditional ⟨0, 0⟩ ⟨0, 0, 0⟩ 0 0 0 0,
    .semaphoreEntryExpiry ⟨0, 0⟩ 0,
    .cpl ⟨0, 0⟩ 0 [],
    .cplSt ⟨0, 0⟩ 0 .ok,
    .resWr ⟨0, 0⟩ 0 [],
    .msgInterrupt ⟨0, 0⟩ ⟨0, 0⟩ 0 0,
    .msgQueueCompletionIrq ⟨0, 0⟩ ⟨0, 0⟩ 0,
    .msgRemoteWatchRequest ⟨0, 0⟩ ⟨0, 0⟩ 0 0 0 0 0,
    .msgRemoteWatchReply ⟨0, 0⟩ ⟨0, 0⟩ 0 0 0,
    .msgGatewayFrame ⟨0, 0⟩ ⟨0, 0⟩ okFrame 0,
    .msgControlRelay ⟨0, 0⟩ ⟨0, 0⟩ [],
    .resMsgResult ⟨0, 0⟩ ⟨0, 0⟩ 0 0 0 .ok,
    .resMsgVerdict ⟨0, 0⟩ ⟨0, 0⟩ 0 0 ⟨.ok, 0, 0⟩,
    .vtCompare ⟨0, 0⟩ ⟨0, 0⟩ 0,
    .resMsgGoingDown ⟨0, 0⟩ ⟨0, 0⟩ 0 0 0,
    .resMsgGatehouseState ⟨0, 0⟩ ⟨0, 0⟩ .degraded,
    .resMsgRepairNotice ⟨0, 0⟩ ⟨0, 0⟩ 0,
    .canFrameReceive ⟨0, 0⟩ 0 okFrame,
    .streamIngress ⟨0, 0⟩ 0 0 [],
    .streamEgressHoldExpiry ⟨0, 0⟩ 0,
    .gatewayQueueDoorbell ⟨0, 0⟩ 0 okFrame,
    .busOffRecovery ⟨0, 0⟩ 0,
    .hello ⟨0, 0⟩ 0 0 0,
    .mailbox ⟨0, 0⟩ ⟨0, 0, 0, 0⟩ [],
    .regRead ⟨0, 0⟩ ⟨0, 0, 0, 0⟩ 0 0 0,
    .regWrite ⟨0, 0⟩ ⟨0, 0, 0, 0⟩ 0 0 [],
    .dataWrite ⟨0, 0⟩ ⟨0, 0, 0, 0⟩ 0 [],
    .dataRead ⟨0, 0⟩ ⟨0, 0, 0, 0⟩ 0 0,
    .ringFrame ⟨0, 0⟩ ⟨0, 0, 0, 0⟩ 0 [],
    .peerWatch ⟨0, 0⟩ 0 0 0 0 0 0 0,
    .peerReply ⟨0, 0⟩ 0 0 0 0,
    .malformedFrame ⟨0, 0⟩ 0 .crc,
    .malformedBlockExpiry ⟨0, 0⟩ 0,
    .sessionIdleTimeout ⟨0, 0⟩ 0,
    .heartbeat ⟨0, 0⟩,
    .latchLeaseExpiry ⟨0, 0⟩,
    .controlPortRetire ⟨0, 0⟩ false,
    .latchTake ⟨0, 0⟩ okMsg 0,
    .latchRenew ⟨0, 0⟩ okMsg,
    .latchRelease ⟨0, 0⟩ okMsg,
    .latchQuery ⟨0, 0⟩ okMsg,
    .devInfo ⟨0, 0⟩ okMsg,
    .statsRead ⟨0, 0⟩ okMsg 0 false 0 0 0 0,
    .incidentRead ⟨0, 0⟩ okMsg 0 0 0,
    .accountRead ⟨0, 0⟩ okMsg 0 0,
    .winWrite ⟨0, 0⟩ okMsg 0 0 0,
    .winActivate ⟨0, 0⟩ okMsg 0 false,
    .winFrame ⟨0, 0⟩ okMsg 0 0,
    .partWrite ⟨0, 0⟩ okMsg 0 0 0,
    .taskWrite ⟨0, 0⟩ okMsg 0 0,
    .tlyCfg ⟨0, 0⟩ okMsg 0 0 0 false,
    .winEnableSet ⟨0, 0⟩ okMsg 0,
    .winEnableClear ⟨0, 0⟩ okMsg,
    .mntShadow ⟨0, 0⟩ okMsg 0 0 0,
    .mntCommit ⟨0, 0⟩ okMsg,
    .mntFb ⟨0, 0⟩ okMsg 0,
    .strAlloc ⟨0, 0⟩ okMsg 0 0,
    .strFree ⟨0, 0⟩ okMsg 0 0,
    .cacheSize ⟨0, 0⟩ okMsg 0,
    .modelLoad ⟨0, 0⟩ okMsg 0 0 0,
    .modelPin ⟨0, 0⟩ okMsg 0,
    .modelUnpin ⟨0, 0⟩ okMsg 0,
    .strPatrol ⟨0, 0⟩ okMsg false,
    .rxCfg ⟨0, 0⟩ okMsg 0 0,
    .streamCfg ⟨0, 0⟩ okMsg 0 0,
    .routeWrite ⟨0, 0⟩ okMsg 0 0,
    .routeDelete ⟨0, 0⟩ okMsg 0 0,
    .fanoutWrite ⟨0, 0⟩ okMsg 0 0 0,
    .gtwCfg ⟨0, 0⟩ okMsg 0 0,
    .slotCfg ⟨0, 0⟩ okMsg 0 0,
    .portCfg ⟨0, 0⟩ okMsg 0 0 0 0 0,
    .qbvWrite ⟨0, 0⟩ okMsg 0 0 0 0 0
  ]).all Instr.wf = true := by decide +kernel

theorem test_well_formed_3 : (show List Instr from [
    .peerFenceWrite ⟨0, 0⟩ okMsg 0 0 0,
    .peerListWrite ⟨0, 0⟩ okMsg 0 0 0,
    .vdiCreate ⟨0, 0⟩ okMsg 0 0 0 0,
    .vdiReset ⟨0, 0⟩ okMsg,
    .vdiRemove ⟨0, 0⟩ okMsg 0,
    .logStart ⟨0, 0⟩ okMsg 0 0,
    .logSwap ⟨0, 0⟩ okMsg 0,
    .quiesce ⟨0, 0⟩ okMsg 0,
    .exportImage ⟨0, 0⟩ okMsg 0 0,
    .importImage ⟨0, 0⟩ okMsg 0 0,
    .resumeVdi ⟨0, 0⟩ okMsg 0,
    .abortMigration ⟨0, 0⟩ okMsg 0,
    .releaseVdi ⟨0, 0⟩ okMsg 0,
    .ctxWrite ⟨0, 0⟩ okMsg 0 0,
    .queueWrite ⟨0, 0⟩ okMsg 0 0,
    .queueEnable ⟨0, 0⟩ okMsg 0,
    .queueSuspend ⟨0, 0⟩ okMsg 0,
    .queueResume ⟨0, 0⟩ okMsg 0,
    .queueDisable ⟨0, 0⟩ okMsg 0,
    .lateArrivalDiscard ⟨0, 0⟩ 0 0,
    .svcRead ⟨0, 0⟩ okMsg 0 0 0,
    .svcRebuild ⟨0, 0⟩ okMsg [] [],
    .portRestore ⟨0, 0⟩ okMsg false,
    .halfRestartH ⟨0, 0⟩ okMsg 0,
    .halfRestartM ⟨0, 0⟩ okMsg 0,
    .fwWrite ⟨0, 0⟩ okMsg 0 0 0,
    .fwActivate ⟨0, 0⟩ okMsg 0,
    .fwCommit ⟨0, 0⟩ okMsg,
    .fwWithdraw ⟨0, 0⟩ okMsg,
    .attest ⟨0, 0⟩ okMsg 0 0,
    .dspCfgPipe ⟨0, 0⟩ okMsg 0 0,
    .dspCfgTelltale ⟨0, 0⟩ okMsg 0 0,
    .powerReqRun ⟨0, 0⟩ okMsg,
    .powerReqPark ⟨0, 0⟩ okMsg,
    .powerReqSleep ⟨0, 0⟩ okMsg,
    .unknownOpcode ⟨0, 0⟩ okMsg 0,
    .telMbxGo ⟨0, 0⟩ 0,
    .tellerMailboxReply ⟨0, 0⟩ 0,
    .reqTailWrite ⟨0, 0⟩ 0 0,
    .registerWrite ⟨0, 0⟩ .steward .WIN_CTL 0 0 0 0,
    .render ⟨0, 0⟩ 0 render0,
    .verticalBlank ⟨0, 0⟩ 0 0,
    .telltaleCrcCompare ⟨0, 0⟩ 0 [],
    .dramReadEcc ⟨0, 0⟩ 0 0 0 false,
    .rowRemap ⟨0, 0⟩ 0 0 0 0,
    .ecsScrub ⟨0, 0⟩ 0 0 0,
    .pseudoChannelRetire ⟨0, 0⟩ 0 false,
    .stackThrottle ⟨0, 0⟩ 0 0,
    .guaranteeMiss ⟨0, 0⟩ 0 0,
    .portRequestHeldRelease ⟨0, 0⟩ 0 0 ⟨0, 0, 0, []⟩ 0 false,
    .serviceRecordWriteDone ⟨0, 0⟩ false,
    .serviceRecordLoad ⟨0, 0⟩ false false,
    .bootSlotFailure ⟨0, 0⟩ 0,
    .trialBootConfirm ⟨0, 0⟩,
    .configStoreApply ⟨0, 0⟩ [],
    .soakTimer ⟨0, 0⟩,
    .vtServoStep ⟨0, 0⟩ .lost,
    .vtDeviationIncident ⟨0, 0⟩ 0,
    .doorCall ⟨0, 0⟩ 0 0 0 okSave,
    .doorRet ⟨0, 0⟩ 0 0 0,
    .doorCreate ⟨0, 0⟩ 0 .u 0,
    .vaultSealDone ⟨0, 0⟩ 0,
    .doorDestroy ⟨0, 0⟩ 0 .u 0,
    .vaultDestroyDone ⟨0, 0⟩ 0,
    .doorSubmit ⟨0, 0⟩ 0 0,
    .doorClaim ⟨0, 0⟩ 0 0,
    .doorRelease ⟨0, 0⟩ 0 0,
    .doorKey ⟨0, 0⟩ 0 0 0,
    .vaultQuantumExpiry ⟨0, 0⟩ 0,
    .vaultException ⟨0, 0⟩ 0 0,
    .secureInterrupt ⟨0, 0⟩ 0 0 okSave,
    .vaultFilterRefusal ⟨0, 0⟩ 0 .steward,
    .pufReconstruction ⟨0, 0⟩ false,
    .debugUnlock ⟨0, 0⟩ 0,
    .fabricOutOfRange ⟨0, 0⟩ .steward 0,
    .windowEnableFrameStart ⟨0, 0⟩,
    .gatehouseResetDone ⟨0, 0⟩,
    .semaphoreEntrySteal ⟨0, 0⟩ ⟨0, 0, 0⟩ 0 0 0,
    .uncorrectableHeader ⟨0, 0⟩ 0,
    .canBusOff ⟨0, 0⟩ 0,
    .qbvListSwap ⟨0, 0⟩ 0,
    .repHeadWrite ⟨0, 0⟩ 0 0,
    .mkaFrame ⟨0, 0⟩ 0 false,
    .controlPortLinkLoss ⟨0, 0⟩ 0,
    .displayLinkChange ⟨0, 0⟩ 0 false,
    .serrHbToggle ⟨0, 0⟩
  ]).all Instr.wf = true := by decide +kernel

/-! ## Hypotheses of the statements by family, met by a state and operands -/

theorem wit_PowerAndResetBalls_1 :
    let e : Ev := ev 0
    let t : State := tick e (State.reset.setGood false)
    ((t.h0.clk.pwrgood && t.h1.clk.pwrgood) = false) ∧ (t.power ≠ 3) := by decide +kernel

theorem wit_PowerAndResetBalls_2 :
    let e : Ev := ev 0
    let t : State := tick e ({ State.reset.setGood false with power := 3 })
    ((t.h0.clk.pwrgood && t.h1.clk.pwrgood) = false) ∧ (t.power = 3) ∧ (t.h0.clk.slpN = true) := by decide +kernel

theorem wit_PowerAndResetBalls_3 :
    let e : Ev := ev 0
    let t : State := tick e (State.reset)
    (t.power ≠ 3) := by decide +kernel

theorem wit_PowerAndResetBalls_4 :
    let e : Ev := ev 0
    let t : State := tick e ({ State.reset with power := 3 })
    (t.power = 3) := by decide +kernel

theorem wit_PowerAndResetBalls_5 :
    let e : Ev := ev 1
    let t : State := tick e (State.reset)
    (t.power ≠ 1) ∧ (t.power ≠ 3) := by decide +kernel

theorem wit_PowerAndResetBalls_6 :
    let e : Ev := ev 0
    let ns : Nat := 1000
    let t : State := tick e (State.reset)
    (t.powered = true) ∧ (1000 ≤ ns) := by decide +kernel

theorem wit_PowerAndResetBalls_7 :
    let e : Ev := ev 0
    let ns : Nat := 99
    let t : State := tick e (State.reset)
    (ns < 100) := by decide +kernel

theorem wit_RimStart_1 :
    let e : Ev := ev 0
    let t : State := tick e (State.reset)
    (t.starting e.half = true) ∧ ((t.half e.half).fld F.CLK_STAT_xtal_ok ≠ 1) := by decide +kernel

theorem wit_RimStart_2 :
    let e : Ev := ev 1
    let t : State := tick e (State.reset)
    (t.starting e.half = true) ∧ ((t.half e.half).fld F.CLK_STAT_xtal_ok ≠ 1) := by decide +kernel

theorem wit_RimStart_3 :
    let e : Ev := ev 0
    let t : State := tick e (State.reset.upd 0 fun x => x.setFld F.CLK_STAT_xtal_ok 1)
    (t.starting e.half = true) ∧ ((t.half e.half).fld F.CLK_STAT_xtal_ok ≠ 0) ∧ ((t.half e.half).clk.rimUp = false) := by decide +kernel

theorem wit_ClockFailures_1 :
    let e : Ev := ev 0
    let fails : List ClkFail := [⟨.crystal, 0⟩]
    let t : State := tick e (sUp)
    (fails.filter (fun f => !(t.half e.half).inReset f.clk) = fails) ∧ (fails ≠ []) ∧ (t.powered = true) ∧ (fails.foldl (fun m f => Nat.max m (clkKind f.clk)) 0 ≠ 0) := by decide +kernel

theorem wit_ClockFailures_2 :
    let e : Ev := ev 0
    let fails : List ClkFail := [⟨.core 5, 0⟩]
    let t : State := tick e (sUp)
    (fails.filter (fun f => !(t.half e.half).inReset f.clk) = fails) ∧ (fails ≠ []) ∧ (t.powered = true) ∧ (fails.foldl (fun m f => Nat.max m (clkKind f.clk)) 0 = 0) := by decide +kernel

theorem wit_ClockFailures_3 :
    let e : Ev := ev 0
    let ppm : Nat := 1150001
    let t : State := tick e (sUp)
    ((t.half e.half).clk.rimUp = true) ∧ ((t.half e.half).fw.stewardDown = false) ∧ (ppm < 850000 ∨ 1150000 < ppm) := by decide +kernel

theorem wit_ClockFailures_4 :
    let e : Ev := ev 0
    let p : Nat := 135
    let div : Nat := 24
    let t : State := tick e (sUp.upd 0 fun x => x.setFld F.CLK_TRIM_div 3)
    ((t.half e.half).clk.computeUp = true) ∧ ((t.half e.half).fw.stewardDown = false) ∧ (p < 136) ∧ (div = 6 ∨ div = (t.half e.half).trimDiv) := by decide +kernel

theorem wit_Temperatures_1 :
    let e : Ev := ev 0
    let temps : List Int := [40, 105]
    let t : State := tick e (sUp)
    ((t.half e.half).clk.rimUp = true) ∧ ((t.half e.half).fw.stewardDown = false) ∧ (temps ≠ []) := by decide +kernel

theorem wit_Temperatures_2 :
    let e : Ev := ⟨0, 1000000000⟩
    let t : State := tick e (sUp.upd 0 fun x => (x.setFld F.CLK_TRIM_div 1).setFld F.CLK_THERM_tj_max 105)
    ((t.half e.half).clk.rimUp = true) ∧ ((t.half e.half).fw.stewardDown = false) ∧ ((t.half e.half).fld F.CLK_TRIM_div = 1 ∨ (t.half e.half).fld F.CLK_TRIM_div = 2) ∧ (105 ≤ sext8 ((t.half e.half).fld F.CLK_THERM_tj_max)) ∧ ((t.half e.half).clk.trimVt + 1000000000 ≤ (t.half e.half).vt.toNat) := by decide +kernel

theorem wit_Temperatures_3 :
    let e : Ev := ev 0
    let src : TripSrc := .junction 3
    let n : Nat := 3
    let t : State := tick e (sUp)
    ((t.half e.half).clk.rimUp = true) ∧ (src = .junction n) := by decide +kernel

theorem wit_Temperatures_4 :
    let e : Ev := ev 0
    let src : TripSrc := .stack 1
    let n : Nat := 1
    let t : State := tick e (sUp)
    ((t.half e.half).clk.rimUp = true) ∧ (src = .stack n) := by decide +kernel

theorem wit_Temperatures_5 :
    let e : Ev := ev 0
    let temps : List Int := [105]
    let stackTemps : List Int := []
    let t : State := tick e (State.reset.upd 0 fun x => { x with clk := { x.clk with tripHold := true, tripSrc := [.junction 0] } })
    ((t.half e.half).clk.tripHold = true) ∧ ((t.half e.half).clk.tripSrc.all (cooled temps stackTemps) = true) := by decide +kernel

theorem wit_Temperatures_6 :
    let e : Ev := ev 0
    let t : State := tick e (sUp)
    ((t.half e.half).clk.rimUp = true) ∧ ((t.half e.half).fw.stewardDown = false) := by decide +kernel

theorem wit_SupplyAndEmergency_1 :
    let e : Ev := ev 0
    let fault : Bool := true
    let alertHigh : Bool := true
    let t : State := tick e (sUp)
    ((t.half e.half).clk.rimUp = true) ∧ ((t.half e.half).fw.stewardDown = false) ∧ (fault = true) ∧ (alertHigh = true) := by decide +kernel

theorem wit_SupplyAndEmergency_2 :
    let e : Ev := ⟨0, 1000000000⟩
    let fault : Bool := false
    let alertHigh : Bool := true
    let v : Nat := 0
    let t : State := tick e (sUp.upd 0 fun x => { x with clk := { x.clk with supplyVt := some 0 }, fw := { x.fw with supplyFault := true } })
    ((t.half e.half).clk.rimUp = true) ∧ ((t.half e.half).fw.stewardDown = false) ∧ (fault = false) ∧ (alertHigh = true) ∧ ((t.half e.half).clk.supplyVt = some v) ∧ ((t.half e.half).fw.supplyFault = true) ∧ (v + 1000000000 ≤ (t.half e.half).vt.toNat) := by decide +kernel

theorem wit_SupplyAndEmergency_3 :
    let e : Ev := ev 0
    let t : State := tick e (sUp)
    ((t.half e.half).clk.rimUp = true) := by decide +kernel

theorem wit_SupplyAndEmergency_4 :
    let e : Ev := ⟨0, 1000000000⟩
    let v : Nat := 0
    let t : State := tick e (sUp.upd 0 fun x => { x with fw := { x.fw with emgClearVt := some 0 } })
    ((t.half e.half).fw.emgClearVt = some v) ∧ (v + 1000000000 ≤ (t.half e.half).vt.toNat) ∧ ((t.half e.half).fw.stewardDown = false) := by decide +kernel

theorem wit_WakesAndSleep_1 :
    let e : Ev := ev 0
    let t : State := tick e ({ sUp with power := 2 })
    (t.power = 2) := by decide +kernel

theorem wit_WakesAndSleep_2 :
    let e : Ev := ev 1
    let t : State := tick e ({ sUp with power := 2 })
    (t.power = 2) := by decide +kernel

theorem wit_WakesAndSleep_3 :
    let e : Ev := ev 1
    let t : State := tick e ({ State.reset.upd 0 (fun x => { x with clk := { x.clk with slpN := false } }) with power := 3 })
    (t.power = 3) ∧ (t.h0.clk.slpN = false) := by decide +kernel

theorem wit_WakesAndSleep_4 :
    let e : Ev := ev 0
    let t : State := tick e ({ sUp with power := 4 })
    (t.power = 4) := by decide +kernel

theorem wit_WakesAndSleep_5 :
    let e : Ev := ev 0
    let t : State := tick e ({ sUp with power := 5 })
    (t.power = 5) := by decide +kernel

theorem wit_WakesAndSleep_6 :
    let e : Ev := ev 0
    let t : State := tick e ({ sUp with power := 2 })
    (t.power = 2) := by decide +kernel

theorem wit_WakesAndSleep_7 :
    let e : Ev := ev 0
    let t : State := tick e ({ State.reset.upd 0 (fun x => { x with clk := { x.clk with slpN := false } }) with power := 3 })
    (t.power = 3) ∧ (t.h0.clk.slpN = false) := by decide +kernel

theorem wit_WakesAndSleep_8 :
    let e : Ev := ev 0
    let t : State := tick e ({ sUp with power := 4 })
    (t.power = 4) := by decide +kernel

theorem wit_WakesAndSleep_9 :
    let e : Ev := ev 0
    let t : State := tick e ({ State.reset with power := 5 })
    (t.power = 5) := by decide +kernel

theorem wit_HalfAndPackageResets_1 :
    let e : Ev := ev 0
    let p : Nat := 17
    let t : State := tick e (sUp)
    ((t.half e.half).clk.computeUp = true) ∧ (p < 136) ∧ (((t.half e.half).core p).resetting = false) := by decide +kernel

theorem wit_HalfAndPackageResets_3 :
    let e : Ev := ev 0
    let t : State := tick e (sUp)
    (t.powered = true) := by decide +kernel

theorem wit_HalfAndPackageResets_4 :
    let e : Ev := ev 0
    let t : State := tick e (sUp)
    (t.powered = true) := by decide +kernel

theorem wit_HalfAndPackageResets_5 :
    let e : Ev := ev 0
    let t : State := tick e (sUp)
    (t.powered = true) := by decide +kernel

theorem wit_ReadyAndRejoin_1 :
    let e : Ev := ev 0
    let t : State := tick e (sUp.upd 0 fun x => { x with clk := { x.clk with resetKind := 1, computeUp := false, ready := false } })
    ((t.half e.half).mayReady = true) ∧ (t.vtAgrees e.half = true) := by decide +kernel

theorem wit_ReadyAndRejoin_2 :
    let e : Ev := ev 0
    let vt : Nat := 0
    let t : State := tick e (sUp.upd 0 fun x => { x.setFld F.STR_GROUP_STATE_withdrawn 0xFF with clk := { x.clk with phase := 4 }, str := { x.str with models := [model5 3] } })
    (t.h0.mayRejoin vt = true) ∧ (t.h1.mayRejoin vt = true) ∧ ((t.h0.normal && t.h1.normal) = false) ∧ ((t.confFits 0 && t.confFits 1) = false) := by decide +kernel

theorem wit_ReadyAndRejoin_3 :
    let e : Ev := ev 0
    let vt : Nat := 0
    let t : State := tick e (sUp.upd 0 fun x => { x with clk := { x.clk with phase := 4 } })
    (t.h0.mayRejoin vt = true) ∧ (t.h1.mayRejoin vt = true) ∧ ((t.h0.normal && t.h1.normal) = false) ∧ ((t.confFits 0 && t.confFits 1) = true) := by decide +kernel

theorem wit_Tiles_1 :
    let e : Ev := ev 0
    let p : Nat := 3
    let r : Run := run3
    let t : State := tick e (sRun)
    (((t.half e.half).core p).run = some r) ∧ (r.computed = true) ∧ (r.tile < r.tiles) ∧ (r.fail = none) ∧ (r.endedAll r.stores = true) := by decide +kernel

theorem wit_Tiles_2 :
    let e : Ev := ev 0
    let p : Nat := 3
    let sched : List Nat := []
    let r : Run := run3
    let a : State × Run × EngRes := ((tick (ev 0) sRun).compute 0 3 run3 [])
    let t : State := tick e (sRun)
    (((t.half e.half).core p).run = some r) ∧ (a = t.compute e.half p r sched) ∧ (a.2.2 = .ok) ∧ (r.tile < r.tiles) ∧ (a.2.1.computed = true) ∧ (a.2.1.fail = none) ∧ (a.2.1.endedAll a.2.1.stores = true) := by decide +kernel

theorem wit_Tiles_3 :
    let e : Ev := ev 0
    let p : Nat := 4
    let t : State := tick e (sRun)
    (((t.half e.half).core p).run = none) := by decide +kernel

theorem wit_Tiles_4 :
    let e : Ev := ⟨0, 10000000000⟩
    let p : Nat := 3
    let r : Run := runTok
    let q : Nat := 0
    let t : State := tick e (sRunTok)
    (((t.half e.half).core p).run = some r) ∧ (r.org = .queue q) ∧ (r.fallback = false) ∧ ((t.half e.half).timeUp p r = true) ∧ (r.tileEnded = false) ∧ ((((t.half e.half).queue (qIdx q)).counts r.index).overruns < 2) := by decide +kernel

theorem wit_Tiles_5 :
    let e : Ev := ⟨0, 10000000000⟩
    let p : Nat := 3
    let r : Run := runTok
    let q : Nat := 0
    let t : State := tick e (sRunTok.upd 0 fun x => x.updQueue 0 fun k => { k with again := [⟨0, 2, 0⟩] })
    (((t.half e.half).core p).run = some r) ∧ (r.org = .queue q) ∧ (r.fallback = false) ∧ ((t.half e.half).timeUp p r = true) ∧ (r.tileEnded = false) ∧ (2 ≤ (((t.half e.half).queue (qIdx q)).counts r.index).overruns) := by decide +kernel

theorem wit_Tiles_6 :
    let e : Ev := ⟨0, 10000000000⟩
    let p : Nat := 3
    let r : Run := { runTok with org := .entry 0 }
    let n : Nat := 0
    let t : State := tick e (sUp.updCore 0 3 fun c => { c with run := some { runTok with org := .entry 0 } })
    (((t.half e.half).core p).run = some r) ∧ (r.org = .entry n) ∧ ((t.half e.half).timeUp p r = true) ∧ (r.tileEnded = false) := by decide +kernel

theorem wit_Tiles_7 :
    let e : Ev := ev 0
    let p : Nat := 3
    let row : Nat := 9
    let t : State := tick e (sUp.updCore 0 3 fun c => { c with rowMark := [(9, 1)] })
    (((t.half e.half).core p).mark row ≠ 0) ∧ (((t.half e.half).core p).run = none) := by decide +kernel

theorem wit_Tiles_8 :
    let e : Ev := ev 0
    let p : Nat := 3
    let row : Nat := 0
    let r : Run := runLoad
    let tag : Nat := 0
    let t : State := tick e (sRunLoad)
    (((t.half e.half).core p).mark row ≠ 0) ∧ (((t.half e.half).core p).run = some r) ∧ ((r.accepted.find? fun g => !r.isOver g && mToken (r.dma.getD (g % nextTag) 0) = ((t.half e.half).core p).mark row && (((t.half e.half).core p).dmaRows (r.dma.getD (g % nextTag) 0) (r.dmaTile g) true).contains row) = some tag) := by decide +kernel

theorem wit_Tiles_9 :
    let e : Ev := ev 0
    let p : Nat := 3
    let desc : Nat := 0
    let r : Run := runTok
    let tag : Nat := 0
    let t : State := tick e (sRunTok)
    (((t.half e.half).core p).run = some r) ∧ (r.headTag desc = some tag) ∧ (mToken (r.dma.getD desc 0) ≠ 0) ∧ (((t.half e.half).core p).dmaRows (r.dma.getD desc 0) (r.dmaTile tag) false ≠ []) ∧ ((((t.half e.half).core p).rowMark.any fun m => m.2 = mToken (r.dma.getD desc 0)) = false) := by decide +kernel

theorem wit_CoreDma_1 :
    let e : Ev := ev 0
    let p : Nat := 3
    let desc : Nat := 0
    let u : State := ((tick (ev 0) sRunTok).acceptDma 0 3)
    let w : State := ((((tick (ev 0) sRunTok).acceptDma 0 3).updCore 0 3 (fun c => { c with run := some { runTok with accepted := [0] } })).acceptDma 0 3)
    let r : Run := { runTok with accepted := [0] }
    let k : Run := { runTok with accepted := [0] }
    let tag : Nat := 0
    let t : State := tick e (sRunTok)
    (u = t.acceptDma e.half p) ∧ (((u.half e.half).core p).run = some r) ∧ (r.computed = true) ∧ (w = (u.updCore e.half p (fun c => { c with run := some r })).acceptDma e.half p) ∧ (((w.half e.half).core p).run = some k) ∧ (k.headTag desc = some tag) ∧ (((w.half e.half).core p).dmaGoes k tag = true) := by decide +kernel

theorem wit_CoreDma_2 :
    let e : Ev := ev 0
    let p : Nat := 3
    let desc : Nat := 0
    let u : State := ((tick (ev 0) sRunTok).acceptDma 0 3)
    let w : State := (((((tick (ev 0) sRunTok).acceptDma 0 3).computeFirst 0 3 { runTok with accepted := [0] } 0).1.updCore 0 3 (fun c => { c with run := some (((tick (ev 0) sRunTok).acceptDma 0 3).computeFirst 0 3 { runTok with accepted := [0] } 0).2.1 })).acceptDma 0 3)
    let r : Run := { runTok with accepted := [0] }
    let k : Run := { runTok with accepted := [0] }
    let tag : Nat := 0
    let a : State × Run × EngRes := (((tick (ev 0) sRunTok).acceptDma 0 3).computeFirst 0 3 { runTok with accepted := [0] } 0)
    let t : State := tick e (sRunTok)
    (u = t.acceptDma e.half p) ∧ (((u.half e.half).core p).run = some r) ∧ (a = u.computeFirst e.half p r desc) ∧ (a.2.2 = .ok) ∧ (w = (a.1.updCore e.half p (fun c => { c with run := some a.2.1 })).acceptDma e.half p) ∧ (((w.half e.half).core p).run = some k) ∧ (k.headTag desc = some tag) ∧ (((w.half e.half).core p).dmaGoes k tag = true) := by decide +kernel

theorem wit_CoreDma_3 :
    let e : Ev := ev 0
    let p : Nat := 3
    let desc : Nat := 0
    let st : Status := .outOfRange
    let r : Run := runTok
    let q : Run := { runTok with accepted := [0] }
    let tag : Nat := 0
    let k : Run := { runTok with accepted := [0] }
    let u : State := (((((tick (ev 0) sRunTok).computeFirst 0 3 runTok 0).1.updCore 0 3 (fun c => { c with run := some ((tick (ev 0) sRunTok).computeFirst 0 3 runTok 0).2.1 })).acceptDma 0 3).settleOrder 0 3 0 { runTok with accepted := [0] })
    let w : State := ((((tick (ev 0) sRunTok).computeFirst 0 3 runTok 0).1.updCore 0 3 (fun c => { c with run := some ((tick (ev 0) sRunTok).computeFirst 0 3 runTok 0).2.1 })).acceptDma 0 3)
    let a : State × Run × EngRes := ((tick (ev 0) sRunTok).computeFirst 0 3 runTok 0)
    let t : State := tick e (sRunTok)
    (((t.half e.half).core p).run = some r) ∧ (dmaFailStatus st = true) ∧ (r.heads.contains desc = true ∨ r.heads.contains (desc + nextTag) = true ∨ r.stores.contains desc = true) ∧ (a = t.computeFirst e.half p r desc) ∧ (a.2.2 = .ok) ∧ (w = (a.1.updCore e.half p (fun c => { c with run := some a.2.1 })).acceptDma e.half p) ∧ (((w.half e.half).core p).run = some q) ∧ (q.headTag desc = some tag) ∧ (u = w.settleOrder e.half p tag q) ∧ (((u.half e.half).core p).run = some k) := by decide +kernel

theorem wit_CoreDma_4 :
    let e : Ev := ev 0
    let p : Nat := 3
    let r : Run := run3
    let t : State := tick e (sRun)
    (((t.half e.half).core p).run = some r) := by decide +kernel

theorem wit_CoreDma_5 :
    let e : Ev := ev 0
    let p : Nat := 4
    let t : State := tick e (sRun)
    (((t.half e.half).core p).run = none) := by decide +kernel

theorem wit_CoreDma_6 :
    let e : Ev := ev 0
    let who : ReadKind := .appLoad 4
    let addr : Nat := 0x1000
    let hart : Nat := 4
    let t : State := tick e (sUp)
    (who = .appLoad hart) ∧ (inStr (homeHalf addr) addr 1 = false) := by decide +kernel

theorem wit_CoreDma_7 :
    let e : Ev := ev 0
    let who : ReadKind := .appLoad 4
    let addr : Nat := 0x2000000000
    let hart : Nat := 4
    let t : State := tick e (sUp)
    (who = .appLoad hart) ∧ (inStr (homeHalf addr) addr 1 = true) := by decide +kernel

theorem wit_CoreDma_8 :
    let e : Ev := ev 0
    let who : ReadKind := .rmw 0
    let addr : Nat := 0x1000
    let vdi : Nat := 0
    let t : State := tick e (sUp)
    (who = .window vdi ∨ who = .rmw vdi) ∧ (inStr (homeHalf addr) addr 1 = false) := by decide +kernel

theorem wit_CoreDma_9 :
    let e : Ev := ev 0
    let who : ReadKind := .window 0
    let addr : Nat := 0x2000000000
    let vdi : Nat := 0
    let t : State := tick e (sUp)
    (who = .window vdi ∨ who = .rmw vdi) ∧ (inStr (homeHalf addr) addr 1 = true) := by decide +kernel

theorem wit_CoreDma_10 :
    let e : Ev := ev 0
    let who : ReadKind := .hatch 4
    let addr : Nat := 0x2000000000
    let tag : Nat := 4
    let t : State := tick e (sUp)
    (who = .hatch tag) ∧ (inStr (homeHalf addr) addr 1 = true) := by decide +kernel

theorem wit_CoreDma_11 :
    let e : Ev := ev 0
    let who : ReadKind := .hatch 4
    let addr : Nat := 0x1000
    let tag : Nat := 4
    let t : State := tick e (sUp)
    (who = .hatch tag) ∧ (inStr (homeHalf addr) addr 1 = false) := by decide +kernel

theorem wit_Controllers_1 :
    let e : Ev := ev 0
    let d : Nat := 3
    let t : State := tick e (sUp)
    ((t.half e.half).clk.computeUp = true) ∧ (d < 4) ∧ ((t.half e.half).fld F.WIN_DISP_STAT_paused 0 d ≠ 1) := by decide +kernel

theorem wit_Controllers_2 :
    let e : Ev := ev 0
    let d : Nat := 1
    let t : State := tick e (sUp.upd 0 fun x => x.setFld F.WIN_DISP_STAT_paused 1 0 1)
    ((t.half e.half).fld F.WIN_DISP_STAT_paused 0 d ≠ 0) := by decide +kernel

theorem wit_Controllers_3 :
    let e : Ev := ev 0
    let t : State := tick e (sUp)
    ((t.half e.half).clk.rimUp = true) ∧ ((t.half e.half).clk.ready = true) ∧ ((t.half e.half).tally.ghReset = false) := by decide +kernel

theorem wit_Controllers_4 :
    let e : Ev := ev 0
    let t : State := tick e (sUp.upd 0 fun x => { x with tally := { x.tally with ghReset := true } })
    ((t.half e.half).tally.ghReset = true) := by decide +kernel

theorem wit_BootRows_1 :
    let e : Ev := ev 0
    let slot : Nat := 0
    let u : State := ((tick (ev 0) (sUp.upd 0 fun x => { x with ports := { x.ports with stage := 1 }, fw := { x.fw with shipped := [1] } })).slotFails 0 0)
    let t : State := tick e (sUp.upd 0 fun x => { x with ports := { x.ports with stage := 1 }, fw := { x.fw with shipped := [1] } })
    ((t.half e.half).clk.rimUp = true) ∧ ((t.half e.half).ports.stage = 1) ∧ (slot = (t.half e.half).fld F.SVC_FW_STAT_active_slot) ∧ (u = t.slotFails e.half slot) ∧ ((u.half e.half).fw.failedSlots.contains (1 - slot) = false) ∧ (u.slotOk e.half (1 - slot) = true) := by decide +kernel

theorem wit_BootRows_2 :
    let e : Ev := ev 0
    let slot : Nat := 0
    let u : State := ((tick (ev 0) (sUp.upd 0 fun x => { x with ports := { x.ports with stage := 1 }, fw := { x.fw with shipped := [] } })).slotFails 0 0)
    let t : State := tick e (sUp.upd 0 fun x => { x with ports := { x.ports with stage := 1 }, fw := { x.fw with shipped := [] } })
    ((t.half e.half).clk.rimUp = true) ∧ ((t.half e.half).ports.stage = 1) ∧ (slot = (t.half e.half).fld F.SVC_FW_STAT_active_slot) ∧ (u = t.slotFails e.half slot) ∧ ((u.half e.half).fw.failedSlots.contains (1 - slot) = false) ∧ (u.slotOk e.half (1 - slot) = false) := by decide +kernel

theorem wit_BootRows_3 :
    let e : Ev := ev 0
    let ok : Bool := true
    let t : State := tick e (sBoot 3)
    ((t.half e.half).clk.rimUp = true) ∧ ((t.half e.half).vaults.pufOk = false) ∧ (2 ≤ (t.half e.half).clk.resetKind) ∧ (ok = true) ∧ ((t.half e.half).clk.resetKind ≠ 4) := by decide +kernel

theorem wit_BootRows_4 :
    let e : Ev := ev 0
    let ok : Bool := true
    let t : State := tick e (sBoot 4)
    ((t.half e.half).clk.rimUp = true) ∧ ((t.half e.half).vaults.pufOk = false) ∧ (ok = true) ∧ ((t.half e.half).clk.resetKind = 4) := by decide +kernel

theorem wit_BootRows_5 :
    let e : Ev := ev 0
    let ok : Bool := false
    let t : State := tick e (sBoot 3)
    ((t.half e.half).clk.rimUp = true) ∧ ((t.half e.half).vaults.pufOk = false) ∧ (2 ≤ (t.half e.half).clk.resetKind) ∧ (ok = false) := by decide +kernel

theorem wit_BootRows_6 :
    let e : Ev := ev 0
    let t : State := tick e (sUp.upd 0 fun x => x.setFld F.SVC_FW_STAT_trial 1)
    ((t.half e.half).clk.ready = true) ∧ ((t.half e.half).fld F.SVC_FW_STAT_trial ≠ 0) := by decide +kernel

theorem wit_BootRows_7 :
    let e : Ev := ev 0
    let t : State := tick e (sUp.upd 1 fun x => x.setFld F.TLY_CTL_degraded 1)
    ((t.half e.half).clk.ready = true) ∧ ((t.half e.half).fw.confDue = true) ∧ ((t.half e.half).fw.stewardDown = false) ∧ ((t.half (peer e.half)).degraded = true) := by decide +kernel

theorem wit_BootRows_8 :
    let e : Ev := ev 0
    let bad : List Nat := []
    let u : State := ((((tick (ev 0) sConf).applyConf 0 []).upd 0 fun x => ({ x with fw := { x.fw with confDue := false } } : Half).effective).reconcile 0 0x05)
    let t : State := tick e (sConf)
    ((t.half e.half).clk.ready = true) ∧ ((t.half e.half).fw.confDue = true) ∧ ((t.half e.half).fw.stewardDown = false) ∧ ((t.half (peer e.half)).degraded = false) ∧ (u = ((t.applyConf e.half bad).upd e.half fun x => ({ x with fw := { x.fw with confDue := false } } : Half).effective).reconcile e.half 0x05) ∧ ((u.half e.half).clk.resetKind = 0) := by decide +kernel

theorem wit_ServiceRecordRows_1 :
    let e : Ev := ev 0
    let ok0 : Bool := true
    let t : State := tick e (sUp.upd 0 fun x => { x with ports := { x.ports with stage := 1 } })
    ((t.half e.half).clk.rimUp = true) ∧ ((t.half e.half).ports.stage = 1) ∧ ((t.half e.half).recordOk 0 ok0 = true) := by decide +kernel

theorem wit_ServiceRecordRows_2 :
    let e : Ev := ev 0
    let ok0 : Bool := false
    let ok1 : Bool := true
    let t : State := tick e (sUp.upd 0 fun x => { x with ports := { x.ports with stage := 1 }, svc := { x.svc with slotGen := [(1, x.svc.rpmbGen)] } })
    ((t.half e.half).clk.rimUp = true) ∧ ((t.half e.half).ports.stage = 1) ∧ ((t.half e.half).recordOk 0 ok0 = false) ∧ ((t.half e.half).recordOk 1 ok1 = true) := by decide +kernel

theorem wit_ServiceRecordRows_3 :
    let e : Ev := ev 0
    let ok0 : Bool := false
    let ok1 : Bool := false
    let t : State := tick e (sUp.upd 0 fun x => { x with ports := { x.ports with stage := 1 } })
    ((t.half e.half).clk.rimUp = true) ∧ ((t.half e.half).ports.stage = 1) ∧ ((t.half e.half).recordOk 0 ok0 = false) ∧ ((t.half e.half).recordOk 1 ok1 = false) := by decide +kernel

theorem wit_ServiceRecordRows_4 :
    let e : Ev := ev 0
    let ok : Bool := true
    let r : SvcRecord := .shipped
    let t : State := tick e (sUp.upd 0 fun x => { x with svc := { x.svc with writing := some .shipped } })
    ((t.half e.half).clk.rimUp = true) ∧ ((t.half e.half).fw.stewardDown = false) ∧ ((t.half e.half).svc.writing = some r) ∧ (ok = true) := by decide +kernel

theorem wit_ServiceRecordRows_5 :
    let e : Ev := ev 0
    let ok : Bool := false
    let r : SvcRecord := .shipped
    let t : State := tick e (sUp.upd 0 fun x => { x with svc := { x.svc with writing := some .shipped } })
    ((t.half e.half).clk.rimUp = true) ∧ ((t.half e.half).fw.stewardDown = false) ∧ ((t.half e.half).svc.writing = some r) ∧ (ok = false) := by decide +kernel

theorem wit_ServiceRecordRows_6 :
    let e : Ev := ⟨0, 345600000000000⟩
    let v : Nat := 0
    let t : State := tick e (sUp.upd 0 fun x => { x with svc := { x.svc with soakVt := some 0 } })
    ((t.half e.half).svc.soakVt = some v) ∧ (72 + 24 * ((t.half e.half).svc.soakMarks + 1) ≤ ((t.half e.half).vt.toNat - v) / 3600000000000) := by decide +kernel

theorem wit_VtServo_1 :
    let e : Ev := ev 0
    let ev : ServoEv := .lock 5
    let gm : Nat := 5
    let t : State := tick e (sUp)
    ((t.half e.half).clk.rimUp = true) ∧ ((t.half e.half).svc.record.portRetired = false) ∧ (ev = .lock gm) ∧ (e.half = 0) ∧ (t.vtFixed = false) := by decide +kernel

theorem wit_VtServo_2 :
    let e : Ev := ev 1
    let ev : ServoEv := .lock 5
    let gm : Nat := 5
    let t : State := tick e (sUp)
    ((t.half e.half).clk.rimUp = true) ∧ ((t.half e.half).svc.record.portRetired = false) ∧ (ev = .lock gm) ∧ (e.half ≠ 0 ∨ t.vtFixed = true) := by decide +kernel

theorem wit_VtServo_3 :
    let e : Ev := ev 0
    let ev : ServoEv := .rate 5
    let ppb : Int := 5
    let t : State := tick e (sUp.upd 0 fun x => x.setFld F.CLK_VT_STAT_servo 1)
    ((t.half e.half).clk.rimUp = true) ∧ ((t.half e.half).svc.record.portRetired = false) ∧ (ev = .rate ppb) ∧ ((t.half e.half).fld F.CLK_VT_STAT_servo = 1) := by decide +kernel

theorem wit_VtServo_4 :
    let e : Ev := ev 0
    let ev : ServoEv := .lost
    let t : State := tick e (sUp.upd 0 fun x => x.setFld F.CLK_VT_STAT_servo 1)
    ((t.half e.half).clk.rimUp = true) ∧ ((t.half e.half).svc.record.portRetired = false) ∧ (ev = .lost) ∧ ((t.half e.half).fld F.CLK_VT_STAT_servo = 1) := by decide +kernel

theorem wit_VtServo_5 :
    let e : Ev := ev 0
    let t : State := tick e (sUp.upd 0 fun x => x.setRecord fun r => { r with portRetired := true })
    ((t.half e.half).svc.record.portRetired = true) := by decide +kernel

theorem wit_VtServo_6 :
    let e : Ev := ev 0
    let devNs : Int := 1000001
    let t : State := tick e (sUp)
    ((t.half e.half).clk.rimUp = true) ∧ (1000000 < devNs) ∧ ((t.half e.half).clk.devVt = 0) := by decide +kernel

theorem wit_VtServo_7 :
    let e : Ev := ⟨0, 100000000⟩
    let devNs : Int := -1000001
    let t : State := tick e (sUp.upd 0 fun x => { x with clk := { x.clk with devVt := 1 } })
    ((t.half e.half).clk.rimUp = true) ∧ (devNs < -1000000) ∧ ((t.half e.half).clk.devVt ≠ 0) ∧ ((t.half e.half).clk.devVt + 100000000 ≤ (t.half e.half).vt.toNat + 1) := by decide +kernel

theorem wit_Doorbells_1 :
    let e : Ev := ev 0
    let q : Nat := 0
    let v : Nat := 16
    let t : State := tick e (sQ)
    (t.queueUp q = true) ∧ ((t.half (qHalf q)).qState (qIdx q) ≠ 0) ∧ (dist32 v ((t.half (qHalf q)).fld F.TEL_DB_HEAD_head (qIdx q)) ≤ qRingSize ((t.half (qHalf q)).queue (qIdx q)).record) ∧ (dist32 ((t.half (qHalf q)).fld F.TEL_DB_TAIL_tail (qIdx q)) ((t.half (qHalf q)).fld F.TEL_DB_HEAD_head (qIdx q)) ≤ dist32 v ((t.half (qHalf q)).fld F.TEL_DB_HEAD_head (qIdx q))) := by decide +kernel

theorem wit_Doorbells_2 :
    let e : Ev := ev 0
    let q : Nat := 0
    let v : Nat := 17
    let t : State := tick e (sQ)
    (t.queueUp q = true) ∧ ((t.half (qHalf q)).qState (qIdx q) ≠ 0) ∧ (qRingSize ((t.half (qHalf q)).queue (qIdx q)).record < dist32 v ((t.half (qHalf q)).fld F.TEL_DB_HEAD_head (qIdx q))) := by decide +kernel

theorem wit_Doorbells_3 :
    let e : Ev := ev 0
    let q : Nat := 0
    let v : Nat := 0
    let t : State := tick e (sQ)
    (t.queueUp q = true) ∧ ((t.half (qHalf q)).qState (qIdx q) ≠ 0) ∧ (dist32 v ((t.half (qHalf q)).fld F.TEL_DB_HEAD_head (qIdx q)) < dist32 ((t.half (qHalf q)).fld F.TEL_DB_TAIL_tail (qIdx q)) ((t.half (qHalf q)).fld F.TEL_DB_HEAD_head (qIdx q))) := by decide +kernel

theorem wit_Doorbells_4 :
    let e : Ev := ev 0
    let q : Nat := 0
    let v : Nat := 0
    let t : State := tick e (sQ)
    (t.queueUp q = true) ∧ ((t.half (qHalf q)).qState (qIdx q) ≠ 0) ∧ (dist32 v ((t.half (qHalf q)).fld F.TEL_DB_CQ_HEAD_cq_head (qIdx q)) ≤ dist32 ((t.half (qHalf q)).fld F.TEL_DB_CQ_TAIL_cq_tail (qIdx q)) ((t.half (qHalf q)).fld F.TEL_DB_CQ_HEAD_cq_head (qIdx q))) := by decide +kernel

theorem wit_Doorbells_5 :
    let e : Ev := ev 0
    let q : Nat := 0
    let v : Nat := 1
    let t : State := tick e (sQ)
    (t.queueUp q = true) ∧ ((t.half (qHalf q)).qState (qIdx q) ≠ 0) ∧ (dist32 ((t.half (qHalf q)).fld F.TEL_DB_CQ_TAIL_cq_tail (qIdx q)) ((t.half (qHalf q)).fld F.TEL_DB_CQ_HEAD_cq_head (qIdx q)) < dist32 v ((t.half (qHalf q)).fld F.TEL_DB_CQ_HEAD_cq_head (qIdx q))) := by decide +kernel

theorem wit_Waits_1 :
    let e : Ev := ev 0
    let q : Nat := 0
    let w : WaitRt := wait0
    let t : State := tick e (sWait)
    (t.waitAtHead q = none) ∧ (((t.half (qHalf q)).queue (qIdx q)).wait = some w) ∧ (w.remote = false) ∧ ((t.half (qHalf q)).qState (qIdx q) ≠ 4) ∧ (t.ctlPaused q = false) ∧ (t.vdiRuns (qVdi ((t.half (qHalf q)).queue (qIdx q)).record) = true) ∧ (t.waitMet w = true) := by decide +kernel

theorem wit_Waits_2 :
    let e : Ev := ev 0
    let q : Nat := 0
    let w : WaitRt := { wait0 with value := 7 }
    let t : State := tick e (sQ.upd 0 fun x => x.updQueue 0 fun k => { k with wait := some { wait0 with value := 7 } })
    (t.waitAtHead q = none) ∧ (((t.half (qHalf q)).queue (qIdx q)).wait = some w) ∧ (t.waitMet w = false) := by decide +kernel

theorem wit_Waits_3 :
    let e : Ev := ev 0
    let q : Nat := 0
    let a : Nat × Nat := (0, 6 + 2 ^ 64 + 0x8000 * 2 ^ 768)
    let u : State := ((tick (ev 0) (sQ.wrN 0x10000 128 (6 + 2 ^ 64 + 0x8000 * 2 ^ 768))).startWait 0 0 (6 + 2 ^ 64 + 0x8000 * 2 ^ 768))
    let t : State := tick e (sQ.wrN 0x10000 128 (6 + 2 ^ 64 + 0x8000 * 2 ^ 768))
    (t.waitAtHead q = some a) ∧ (u = t.startWait q a.1 a.2) ∧ (((u.half (qHalf q)).queue (qIdx q)).wait = none) := by decide +kernel

theorem wit_Waits_4 :
    let e : Ev := ev 0
    let q : Nat := 0
    let a : Nat × Nat := (0, waitDesc 7)
    let w : WaitRt := { wait0 with value := 7 }
    let u : State := ((tick (ev 0) (sWaitHead 7)).startWait 0 0 (waitDesc 7))
    let t : State := tick e (sWaitHead 7)
    (t.waitAtHead q = some a) ∧ (u = t.startWait q a.1 a.2) ∧ (((u.half (qHalf q)).queue (qIdx q)).wait = some w) ∧ (w.remote = true ∨ u.waitMet w = false) := by decide +kernel

theorem wit_Waits_5 :
    let e : Ev := ev 0
    let q : Nat := 0
    let a : Nat × Nat := (0, waitDesc 0)
    let w : WaitRt := wait0
    let u : State := ((tick (ev 0) (sWaitHead 0)).startWait 0 0 (waitDesc 0))
    let t : State := tick e (sWaitHead 0)
    (t.waitAtHead q = some a) ∧ (u = t.startWait q a.1 a.2) ∧ (((u.half (qHalf q)).queue (qIdx q)).wait = some w) ∧ (w.remote = false) ∧ ((u.half (qHalf q)).qState (qIdx q) ≠ 4) ∧ (t.ctlPaused q = false) ∧ (u.vdiRuns (qVdi ((u.half (qHalf q)).queue (qIdx q)).record) = true) ∧ (u.waitMet w = true) := by decide +kernel

theorem wit_Waits_6 :
    let e : Ev := ev 0
    let q : Nat := 0
    let w : WaitRt := wait0
    let t : State := tick e (sWait)
    (((t.half (qHalf q)).queue (qIdx q)).wait = some w) ∧ (w.since + qWaitMs ((t.half (qHalf q)).queue (qIdx q)).record * 1000000 ≤ (t.half (qHalf q)).vt.toNat) ∧ (t.ctlPaused q = false) ∧ ((t.half (qHalf q)).qState (qIdx q) ≠ 4) := by decide +kernel

theorem wit_Waits_7 :
    let e : Ev := ev 0
    let q : Nat := 0
    let w : WaitRt := { wait0 with remote := true }
    let t : State := tick e (sQ.upd 0 fun x => x.updQueue 0 fun k => { k with wait := some { wait0 with remote := true } })
    (((t.half (qHalf q)).queue (qIdx q)).wait = some w) ∧ (w.remote = true) ∧ (t.ctlPaused q = false) := by decide +kernel

theorem wit_Waits_8 :
    let e : Ev := ev 0
    let q : Nat := 0
    let a : Nat × Nat := (0, waitDesc 7)
    let t : State := tick e (sWaitHead 7)
    (((t.half (qHalf q)).queue (qIdx q)).wait = none) ∧ (t.waitAtHead q = some a) := by decide +kernel

theorem wit_Waits_9 :
    let e : Ev := ev 0
    let q : Nat := 0
    let gen : Nat := 0
    let idx : Nat := 0
    let w : WaitRt := { wait0 with remote := true }
    let t : State := tick e (sQ.upd 0 fun x => x.updQueue 0 fun k => { k with wait := some { wait0 with remote := true } })
    (t.ctlPaused q = false) ∧ (((t.half (qHalf q)).queue (qIdx q)).wait = some w) ∧ (w.remote = true) ∧ (gen = (t.half (qHalf q)).qGen (qIdx q)) ∧ (idx = w.index) := by decide +kernel

theorem wit_Waits_10 :
    let e : Ev := ev 0
    let q : Nat := 0
    let gen : Nat := 1
    let idx : Nat := 0
    let w : WaitRt := wait0
    let t : State := tick e (sWait)
    (t.ctlPaused q = false) ∧ (((t.half (qHalf q)).queue (qIdx q)).wait = some w) ∧ (gen ≠ (t.half (qHalf q)).qGen (qIdx q) ∨ idx ≠ w.index ∨ w.remote = false) := by decide +kernel

theorem wit_Waits_11 :
    let e : Ev := ev 0
    let q : Nat := 0
    let t : State := tick e (sQ)
    (t.ctlPaused q = false) ∧ (((t.half (qHalf q)).queue (qIdx q)).wait = none) := by decide +kernel

theorem wit_Arbiter_1 :
    let e : Ev := ev 0
    let p : Nat := 0
    let l : Nat := 0
    let q : Nat := 0
    let w : State := ((tick (ev 0) sQ).queuesOf 0).foldl (fun u k => (u.refuseInvalid 0 k).wantModels k) (tick (ev 0) sQ)
    let t : State := tick e (sQ)
    ((t.half e.half).logical p = some l) ∧ ((t.half e.half).clk.computeUp = true) ∧ (((t.half e.half).core p).free = true) ∧ (w = (t.queuesOf e.half).foldl (fun u k => (u.refuseInvalid p k).wantModels k) t) ∧ (w.draw.2.choose e.half l w.draw.1 = some q) := by decide +kernel

theorem wit_Arbiter_2 :
    let e : Ev := ev 0
    let p : Nat := 0
    let l : Nat := 0
    let w : State := ((tick (ev 0) sUp).queuesOf 0).foldl (fun u k => (u.refuseInvalid 0 k).wantModels k) (tick (ev 0) sUp)
    let t : State := tick e (sUp)
    ((t.half e.half).logical p = some l) ∧ ((t.half e.half).clk.computeUp = true) ∧ (((t.half e.half).core p).free = true) ∧ (w = (t.queuesOf e.half).foldl (fun u k => (u.refuseInvalid p k).wantModels k) t) ∧ (w.draw.2.choose e.half l w.draw.1 = none) := by decide +kernel

theorem wit_Arbiter_3 :
    let e : Ev := ev 0
    let ctx : Nat := 5
    let t : State := tick e (sUp)
    ((t.half e.half).clk.computeUp = true) ∧ (t.ctxRead e.half ctx = .ok) := ⟨by decide +kernel, sUp_ctxRead 5⟩

theorem wit_Arbiter_4 :
    let e : Ev := ev 0
    let ctx : Nat := 5
    let st : Status := .timeout
    let t : State := tick e (sRimDown)
    ((t.half e.half).clk.computeUp = true) ∧ (t.ctxRead e.half ctx = st) ∧ (st ≠ .ok) := ⟨by decide +kernel, sRimDown_ctxRead 5, by decide +kernel⟩

theorem wit_Arbiter_6 :
    let e : Ev := ev 0
    let ctx : Nat := 0
    let p : Nat := 0
    let t : State := tick e (sVictim)
    (t.victim e.half ctx = some p) := by decide +kernel

theorem wit_Arbiter_7 :
    let e : Ev := ev 0
    let part : Nat := 2
    let t : State := tick e (sUp.upd 0 fun x => (((x.setFld F.WIN_PART_CFG_kind 3 0 2).setFld F.WIN_PART_CFG_pipes 1 0 2).setFld F.DSP_PIPE_CTL_enable 1 0))
    ((t.half e.half).partKind part = 3) ∧ ((t.half e.half).clk.computeUp = true) ∧ ((t.half e.half).ownerPaused e.half part = false) ∧ ((t.half e.half).switchDue part = true) := ⟨by decide +kernel, by decide +kernel, Half.ownerPaused_running _ (by decide +kernel) _ _, by decide +kernel⟩

theorem wit_Arbiter_8 :
    let e : Ev := ev 0
    let p : Nat := 1
    let t : State := tick e (sUp.updCore 0 1 fun c => { c with switching := true, lastVdi := some 4 })
    (((t.half e.half).core p).switching = true) := by decide +kernel

theorem wit_Arbiter_9 :
    let e : Ev := ev 0
    let q : Nat := 0
    let gen : Nat := 1
    let t : State := tick e (sUp)
    (gen ≠ (t.half (qHalf q)).qGen (qIdx q)) := by decide +kernel

theorem wit_Conditions_1 :
    let e : Ev := ev 0
    let w : Work := .entry 3
    let n : Nat := 3
    let t : State := tick e (sUp)
    (w = .entry n) := by decide +kernel

theorem wit_Conditions_2 :
    let e : Ev := ev 0
    let w : Work := .queue 0
    let q : Nat := 0
    let i : Nat := 0
    let c : CondRt := cond0
    let t : State := tick e (sCond)
    (w = .queue q) ∧ (t.queueUp q = true) ∧ (t.ctlPaused q = false) ∧ ((t.half (qHalf q)).qState (qIdx q) ≠ 0) ∧ ((t.half (qHalf q)).qState (qIdx q) ≠ 4) ∧ (((t.half (qHalf q)).queue (qIdx q)).wait = none) ∧ (t.vdiRuns (qVdi ((t.half (qHalf q)).queue (qIdx q)).record) = true) ∧ ((t.half (qHalf q)).nextIndex (qIdx q) = some (i, true)) ∧ (qCond ((t.half (qHalf q)).queue (qIdx q)).record ≠ 0) ∧ (((t.half (qHalf q)).queue (qIdx q)).cond = some c) ∧ (c.met = false) ∧ (c.viaFallback = false) ∧ ((t.judgeCond (qHalf q) 0 false (t.half (qHalf q)).vt.toNat (some c)).2 = .met ∨ (t.judgeCond (qHalf q) 0 false (t.half (qHalf q)).vt.toNat (some c)).2 = .unmet) := by decide +kernel

theorem wit_Conditions_3 :
    let e : Ev := ev 0
    let w : Work := .queue 0
    let q : Nat := 0
    let i : Nat := 0
    let c : CondRt := { cond0 with cond := 2 ^ 48 + 0x1000 }
    let st : Status := .outOfRange
    let t : State := tick e (sQ.upd 0 fun x => x.updQueue 0 fun k => { k with record := k.record + 0x30000 * 2 ^ 128, cond := some { cond0 with cond := 2 ^ 48 + 0x1000 } })
    (w = .queue q) ∧ (t.queueUp q = true) ∧ (t.ctlPaused q = false) ∧ ((t.half (qHalf q)).qState (qIdx q) ≠ 0) ∧ ((t.half (qHalf q)).qState (qIdx q) ≠ 4) ∧ (((t.half (qHalf q)).queue (qIdx q)).wait = none) ∧ (t.vdiRuns (qVdi ((t.half (qHalf q)).queue (qIdx q)).record) = true) ∧ ((t.half (qHalf q)).nextIndex (qIdx q) = some (i, true)) ∧ (qCond ((t.half (qHalf q)).queue (qIdx q)).record ≠ 0) ∧ (((t.half (qHalf q)).queue (qIdx q)).cond = some c) ∧ (c.met = false) ∧ (c.viaFallback = false) ∧ ((t.judgeCond (qHalf q) 0 false (t.half (qHalf q)).vt.toNat (some c)).2 = .failed st) ∧ ((t.half (qHalf q)).cqRoom (qIdx q) = true) := by decide +kernel

theorem wit_Conditions_4 :
    let e : Ev := ev 0
    let w : Work := .queue 0
    let q : Nat := 0
    let i : Nat := 0
    let t : State := tick e (sQ.upd 0 fun x => x.updQueue 0 fun k => { k with record := k.record + 0x30000 * 2 ^ 128 })
    (w = .queue q) ∧ (t.queueUp q = true) ∧ (t.ctlPaused q = false) ∧ ((t.half (qHalf q)).qState (qIdx q) ≠ 0) ∧ ((t.half (qHalf q)).qState (qIdx q) ≠ 4) ∧ (((t.half (qHalf q)).queue (qIdx q)).wait = none) ∧ (t.vdiRuns (qVdi ((t.half (qHalf q)).queue (qIdx q)).record) = true) ∧ ((t.half (qHalf q)).nextIndex (qIdx q) = some (i, true)) ∧ (qCond ((t.half (qHalf q)).queue (qIdx q)).record ≠ 0) ∧ (((t.half (qHalf q)).queue (qIdx q)).cond = none) ∧ ((t.judgeCond (qHalf q) (qCond ((t.half (qHalf q)).queue (qIdx q)).record + i % qRingSize ((t.half (qHalf q)).queue (qIdx q)).record * 32) false (t.half (qHalf q)).vt.toNat none).2 = .met ∨ (t.judgeCond (qHalf q) (qCond ((t.half (qHalf q)).queue (qIdx q)).record + i % qRingSize ((t.half (qHalf q)).queue (qIdx q)).record * 32) false (t.half (qHalf q)).vt.toNat none).2 = .unmet) := by decide +kernel

theorem wit_Conditions_5 :
    let e : Ev := ev 0
    let w : Work := .queue 0
    let q : Nat := 0
    let i : Nat := 0
    let st : Status := .outOfRange
    let t : State := tick e ((sQ.upd 0 fun x => x.updQueue 0 fun k => { k with record := k.record + 0x30000 * 2 ^ 128 }).wrN 0x30000 32 (2 ^ 48 + 0x1000))
    (w = .queue q) ∧ (t.queueUp q = true) ∧ (t.ctlPaused q = false) ∧ ((t.half (qHalf q)).qState (qIdx q) ≠ 0) ∧ ((t.half (qHalf q)).qState (qIdx q) ≠ 4) ∧ (((t.half (qHalf q)).queue (qIdx q)).wait = none) ∧ (t.vdiRuns (qVdi ((t.half (qHalf q)).queue (qIdx q)).record) = true) ∧ ((t.half (qHalf q)).nextIndex (qIdx q) = some (i, true)) ∧ (qCond ((t.half (qHalf q)).queue (qIdx q)).record ≠ 0) ∧ (((t.half (qHalf q)).queue (qIdx q)).cond = none) ∧ ((t.judgeCond (qHalf q) (qCond ((t.half (qHalf q)).queue (qIdx q)).record + i % qRingSize ((t.half (qHalf q)).queue (qIdx q)).record * 32) false (t.half (qHalf q)).vt.toNat none).2 = .failed st) ∧ ((t.half (qHalf q)).cqRoom (qIdx q) = true) := by decide +kernel

theorem wit_Conditions_6 :
    let e : Ev := ⟨0, 10000000000⟩
    let w : Work := .queue 0
    let q : Nat := 0
    let i : Nat := 0
    let c : CondRt := halo0
    let t : State := tick e (sHaloMet)
    (w = .queue q) ∧ (((t.half (qHalf q)).queue (qIdx q)).cond = some c) ∧ ((t.half (qHalf q)).nextIndex (qIdx q) = some (i, true)) ∧ ((t.half (qHalf q)).lagOver c = true) ∧ (t.ctlPaused q = false) ∧ ((t.half (qHalf q)).qState (qIdx q) ≠ 4) ∧ (t.evalCond (qHalf q) c.cond false = .met) := by decide +kernel

theorem wit_Conditions_7 :
    let e : Ev := ⟨0, 10000000000⟩
    let w : Work := .queue 0
    let q : Nat := 0
    let i : Nat := 0
    let c : CondRt := halo0
    let t : State := tick e (sHalo)
    (w = .queue q) ∧ (((t.half (qHalf q)).queue (qIdx q)).cond = some c) ∧ ((t.half (qHalf q)).nextIndex (qIdx q) = some (i, true)) ∧ ((t.half (qHalf q)).lagOver c = true) ∧ (t.ctlPaused q = false) ∧ ((t.half (qHalf q)).qState (qIdx q) ≠ 4) ∧ (t.evalCond (qHalf q) c.cond false ≠ .met) ∧ (rFallback c.cond = 1) := by decide +kernel

theorem wit_Conditions_8 :
    let e : Ev := ⟨0, 10000000000⟩
    let w : Work := .queue 0
    let q : Nat := 0
    let i : Nat := 0
    let c : CondRt := { halo0 with cond := halo0.cond - 2 ^ 106 }
    let t : State := tick e (sHaloNo)
    (w = .queue q) ∧ (((t.half (qHalf q)).queue (qIdx q)).cond = some c) ∧ ((t.half (qHalf q)).nextIndex (qIdx q) = some (i, true)) ∧ ((t.half (qHalf q)).lagOver c = true) ∧ (t.ctlPaused q = false) ∧ ((t.half (qHalf q)).qState (qIdx q) ≠ 4) ∧ (t.evalCond (qHalf q) c.cond false ≠ .met) ∧ (rFallback c.cond ≠ 1) ∧ ((t.half (qHalf q)).cqRoom (qIdx q) = true) := by decide +kernel

theorem wit_Conditions_9 :
    let e : Ev := ⟨0, 10000000000⟩
    let w : Work := .entry 0
    let n : Nat := 0
    let c : CondRt := halo0
    let t : State := tick e ((sWin.upd 0 fun x => x.setInst 0 { Inst.none with open_ := true, start := 1, cond := some halo0 }).wrN 0x2000000000 16 haloMark)
    (w = .entry n) ∧ (((t.half e.half).inst n).cond = some c) ∧ (((t.half e.half).inst n).open_ = true) ∧ ((t.half e.half).lagOver c = true) ∧ (t.evalCond e.half c.cond true = .met) := by decide +kernel

theorem wit_Conditions_10 :
    let e : Ev := ⟨0, 10000000000⟩
    let w : Work := .entry 0
    let n : Nat := 0
    let c : CondRt := { halo0 with cond := halo0.cond - 2 ^ 106 }
    let t : State := tick e ((sWin.upd 0 fun x => x.setInst 0 { Inst.none with open_ := true, start := 1, cond := some { halo0 with cond := halo0.cond - 2 ^ 106 } }))
    (w = .entry n) ∧ (((t.half e.half).inst n).cond = some c) ∧ (((t.half e.half).inst n).open_ = true) ∧ ((t.half e.half).lagOver c = true) ∧ (t.evalCond e.half c.cond true ≠ .met) ∧ (rFallback c.cond = 0) := by decide +kernel

theorem wit_Conditions_11 :
    let e : Ev := ⟨0, 10000000000⟩
    let w : Work := .entry 0
    let n : Nat := 0
    let c : CondRt := halo0
    let t : State := tick e ((sWin.upd 0 fun x => x.setInst 0 { Inst.none with open_ := true, start := 1, cond := some halo0 }))
    (w = .entry n) ∧ (((t.half e.half).inst n).cond = some c) ∧ (((t.half e.half).inst n).open_ = true) ∧ ((t.half e.half).lagOver c = true) ∧ (t.evalCond e.half c.cond true ≠ .met) ∧ (rFallback c.cond ≠ 0) := by decide +kernel

theorem wit_WindowInstances_1 :
    let e : Ev := ev 0
    let n : Nat := 0
    let w : Nat := win0
    let p : Nat := 0
    let t : State := tick e (sWin.upd 0 fun x => { x with disp := { x.disp with cached := [wCtx win0] } })
    ((t.half e.half).armEntry n (t.half e.half).vt.toNat = some w) ∧ ((t.half e.half).clk.computeUp = true) ∧ (wKind w = 1) ∧ (wEngine w ≠ 1) ∧ ((t.half e.half).servesNext (wCore w) = some p) ∧ (((t.half e.half).core p).takes = true) ∧ (((t.half e.half).core p).loadedCtx ≠ some (wCtx w)) ∧ (t.loadStatus e.half p (wCtx w) = .ok) := by decide +kernel

theorem wit_WindowInstances_2 :
    let e : Ev := ev 0
    let n : Nat := 0
    let a : Nat := 0
    let b : Nat := 100
    let t : State := tick e (sWin)
    ((t.half e.half).win.running = true) ∧ ((t.half e.half).clk.computeUp = true) ∧ (wKind ((t.half e.half).activeEntry n) = 1) ∧ ((t.half e.half).nowInst ((t.half e.half).activeEntry n) (t.half e.half).vt.toNat = some (a, b)) ∧ (((t.half e.half).inst n).start ≠ a + 1) ∧ ((t.half e.half).startsAt a = true) := by decide +kernel

theorem wit_WindowInstances_3 :
    let e : Ev := ev 0
    let n : Nat := 0
    let a : Nat := 0
    let b : Nat := 100
    let t : State := tick e (sWin.upd 0 fun x => { x with win := { x.win with disableAt := some 0 } })
    ((t.half e.half).win.running = true) ∧ ((t.half e.half).clk.computeUp = true) ∧ (wKind ((t.half e.half).activeEntry n) = 1) ∧ ((t.half e.half).nowInst ((t.half e.half).activeEntry n) (t.half e.half).vt.toNat = some (a, b)) ∧ ((t.half e.half).startsAt a = false) := by decide +kernel

theorem wit_WindowInstances_4 :
    let e : Ev := ev 0
    let n : Nat := 0
    let a : Nat := 0
    let b : Nat := 100
    let t : State := tick e (sTrials)
    ((t.half e.half).trials = true) ∧ ((t.half e.half).clk.computeUp = true) ∧ (wKind ((t.half e.half).activeEntry n) = 1) ∧ ((t.half e.half).nowInst ((t.half e.half).activeEntry n) (t.half e.half).vt.toNat = some (a, b)) := by decide +kernel

theorem wit_WindowInstances_5 :
    let e : Ev := ⟨0, 100⟩
    let n : Nat := 0
    let c : CondRt := cond0
    let t : State := tick e (sWin.upd 0 fun x => x.setInst 0 { Inst.none with open_ := true, cond := some cond0, start := 1 })
    (((t.half e.half).inst n).start - 1 + wDuration ((t.half e.half).activeEntry n) * 100 ≤ (t.half e.half).vt.toNat) ∧ (((t.half e.half).inst n).open_ = true) ∧ (((t.half e.half).inst n).cond = some c) := by decide +kernel

theorem wit_BanksAndEnable_1 :
    let e : Ev := ev 0
    let v : Nat := 0
    let u : State := (((tick (ev 0) (sUp.upd 0 fun x => { x with win := { x.win with pendVt := some 0 } })).half 0).win.inst.filter fun i => i.2.open_).foldl (fun u i => u.endUnmet 0 i.1) (tick (ev 0) (sUp.upd 0 fun x => { x with win := { x.win with pendVt := some 0 } }))
    let w : State := ((((((tick (ev 0) (sUp.upd 0 fun x => { x with win := { x.win with pendVt := some 0 } })).half 0).win.inst.filter fun i => i.2.open_).foldl (fun u i => u.endUnmet 0 i.1) (tick (ev 0) (sUp.upd 0 fun x => { x with win := { x.win with pendVt := some 0 } }))).upd 0 fun x => x.toPending 0).saveConf 0 true)
    let t : State := tick e (sUp.upd 0 fun x => { x with win := { x.win with pendVt := some 0 } })
    ((t.half e.half).clk.computeUp = true) ∧ ((t.half e.half).tally.degradeAt = none) ∧ ((t.half e.half).win.pendVt = some v) ∧ (v ≤ (t.half e.half).vt.toNat) ∧ (u = ((t.half e.half).win.inst.filter fun i => i.2.open_).foldl (fun u i => u.endUnmet e.half i.1) t) ∧ (w = (u.upd e.half fun x => x.toPending v).saveConf e.half true) ∧ (((t.half e.half).degraded && !(w.half e.half).degraded) = false) := by decide +kernel

theorem wit_BanksAndEnable_2 :
    let e : Ev := ev 0
    let v : Nat := 0
    let u : State := (((tick (ev 0) (sUp.upd 0 fun x => { x.setFld F.TLY_CTL_degraded 1 with win := { x.win with pendVt := some 0 }, tally := { x.tally with unbacked := true } })).half 0).win.inst.filter fun i => i.2.open_).foldl (fun u i => u.endUnmet 0 i.1) (tick (ev 0) (sUp.upd 0 fun x => { x.setFld F.TLY_CTL_degraded 1 with win := { x.win with pendVt := some 0 }, tally := { x.tally with unbacked := true } }))
    let w : State := ((((((tick (ev 0) (sUp.upd 0 fun x => { x.setFld F.TLY_CTL_degraded 1 with win := { x.win with pendVt := some 0 }, tally := { x.tally with unbacked := true } })).half 0).win.inst.filter fun i => i.2.open_).foldl (fun u i => u.endUnmet 0 i.1) (tick (ev 0) (sUp.upd 0 fun x => { x.setFld F.TLY_CTL_degraded 1 with win := { x.win with pendVt := some 0 }, tally := { x.tally with unbacked := true } }))).upd 0 fun x => x.toPending 0).saveConf 0 true)
    let t : State := tick e (sUp.upd 0 fun x => { x.setFld F.TLY_CTL_degraded 1 with win := { x.win with pendVt := some 0 }, tally := { x.tally with unbacked := true } })
    ((t.half e.half).clk.computeUp = true) ∧ ((t.half e.half).tally.degradeAt = none) ∧ ((t.half e.half).win.pendVt = some v) ∧ (v ≤ (t.half e.half).vt.toNat) ∧ (u = ((t.half e.half).win.inst.filter fun i => i.2.open_).foldl (fun u i => u.endUnmet e.half i.1) t) ∧ (w = (u.upd e.half fun x => x.toPending v).saveConf e.half true) ∧ ((t.half e.half).degraded = true) ∧ ((w.half e.half).degraded = false) := by decide +kernel

theorem wit_BanksAndEnable_3 :
    let e : Ev := ev 0
    let v : Nat := 0
    let t : State := tick e (sUp.upd 0 fun x => { x with tally := { x.tally with degradeAt := some 0 } })
    ((t.half e.half).clk.computeUp = true) ∧ ((t.half e.half).tally.degradeAt = some v) ∧ (v ≤ (t.half e.half).vt.toNat) := by decide +kernel

theorem wit_BanksAndEnable_4 :
    let e : Ev := ev 0
    let v : Nat := 0
    let t : State := tick e (sUp.upd 0 fun x => { x with win := { x.win with disableAt := some 0 } })
    ((t.half e.half).win.disableAt = some v) ∧ (v ≤ (t.half e.half).vt.toNat) := by decide +kernel

theorem wit_BanksAndEnable_5 :
    let e : Ev := ev 0
    let v : Nat := 0
    let t : State := tick e (sUp.upd 0 fun x => { x with win := { x.win with enableAt := some 0 } })
    ((t.half e.half).win.enableAt = some v) ∧ ((t.half e.half).nextFrame v ≤ (t.half e.half).vt.toNat) ∧ ((t.half e.half).clk.computeUp = true) ∧ ((t.half e.half).win.disableAt = none) := by decide +kernel

theorem wit_SieveRuns_1 :
    let e : Ev := ev 0
    let w : Work := .entry 0
    let n : Nat := 0
    let t : State := tick e (sSieve)
    (w = .entry n) ∧ (((t.half e.half).inst n).open_ = true) ∧ (wEngine ((t.half e.half).activeEntry n) ≠ 0) ∧ ((t.half e.half).sieve = none) ∧ ((t.half e.half).clk.computeUp = true) ∧ (((t.half e.half).inst n).cond = none) ∧ (wCond ((t.half e.half).activeEntry n) = 0) ∧ ((t.half e.half).disp.cached.contains (wCtx ((t.half e.half).activeEntry n)) = true ∨ t.ctxRead e.half (wCtx ((t.half e.half).activeEntry n)) = .ok) ∧ (t.access e.half (t.instCmd e.half n) 128 = .ok) ∧ ((t.svCheck e.half (cVdi (t.ctx (wCtx ((t.half e.half).activeEntry n))).raw) (t.rdN (t.instCmd e.half n) 128)).1 = none) := by decide +kernel

theorem wit_SieveRuns_2 :
    let e : Ev := ev 0
    let w : Work := .entry 0
    let n : Nat := 0
    let st : Status := .badArg
    let t : State := tick e (sSieve.wrN 0x4000 128 (sieveDesc + 2 ^ 512))
    (w = .entry n) ∧ (((t.half e.half).inst n).open_ = true) ∧ (wEngine ((t.half e.half).activeEntry n) ≠ 0) ∧ ((t.half e.half).sieve = none) ∧ ((t.half e.half).clk.computeUp = true) ∧ (((t.half e.half).inst n).cond = none) ∧ (wCond ((t.half e.half).activeEntry n) = 0) ∧ ((t.half e.half).disp.cached.contains (wCtx ((t.half e.half).activeEntry n)) = true ∨ t.ctxRead e.half (wCtx ((t.half e.half).activeEntry n)) = .ok) ∧ (t.access e.half (t.instCmd e.half n) 128 = .ok) ∧ (t.svCheck e.half (cVdi (t.ctx (wCtx ((t.half e.half).activeEntry n))).raw) (t.rdN (t.instCmd e.half n) 128) = (some st, false)) ∧ (st ≠ .empty) := by decide +kernel

theorem wit_SieveRuns_3 :
    let e : Ev := ev 0
    let w : Work := .queue 0
    let q : Nat := 0
    let i : Nat := 0
    let t : State := tick e (sSieveQ)
    (w = .queue q) ∧ ((t.half (qHalf q)).sieve = none) ∧ ((t.half (qHalf q)).clk.computeUp = true) ∧ (((t.half (qHalf q)).win.inst.any fun i => i.2.open_ && wEngine ((t.half (qHalf q)).activeEntry i.1) = 1) = false) ∧ (qEngine ((t.half (qHalf q)).queue (qIdx q)).record = 1) ∧ ((t.half (qHalf q)).fld F.WIN_DISP_STAT_paused 0 (qIdx q / 2048) = 0) ∧ ((t.half (qHalf q)).disp.cached.contains (qCtx ((t.half (qHalf q)).queue (qIdx q)).record) = true) ∧ (t.ready q = true) ∧ ((t.half (qHalf q)).nextIndex (qIdx q) = some (i, true)) ∧ (t.access (qHalf q) (qRing ((t.half (qHalf q)).queue (qIdx q)).record + i % qRingSize ((t.half (qHalf q)).queue (qIdx q)).record * 128) 128 = .ok) ∧ (cWeight (t.ctx (qCtx ((t.half (qHalf q)).queue (qIdx q)).record)).raw ≠ 0) ∧ ((t.svCheck (qHalf q) (qVdi ((t.half (qHalf q)).queue (qIdx q)).record) (t.rdN (qRing ((t.half (qHalf q)).queue (qIdx q)).record + i % qRingSize ((t.half (qHalf q)).queue (qIdx q)).record * 128) 128)).1 = none) ∧ ((t.half (qHalf q)).sieveGap = none) ∧ ((t.half (qHalf q)).nextSieve = none) := by decide +kernel

theorem wit_SieveRuns_4 :
    let e : Ev := ev 0
    let r : SieveRun := sieve0
    let t : State := tick e (sUp.upd 0 fun x => { x with sieve := some sieve0 })
    ((t.half e.half).sieve = some r) ∧ (((svInputs r.desc).any fun i => t.access e.half i.1 i.2 (some r.vdi) = .dataError) = false) := by decide +kernel

theorem wit_SieveRuns_5 :
    let e : Ev := ev 0
    let r : SieveRun := sieve0
    let t : State := tick e (sUp.upd 0 fun x => { x with sieve := some sieve0 })
    ((t.half e.half).sieve = some r) ∧ (r.retried = false) := by decide +kernel

theorem wit_SieveRuns_6 :
    let e : Ev := ev 0
    let r : SieveRun := { sieve0 with retried := true }
    let t : State := tick e (sUp.upd 0 fun x => { x with sieve := some { sieve0 with retried := true } })
    ((t.half e.half).sieve = some r) ∧ (r.retried = true) := by decide +kernel

theorem wit_SieveRuns_7 :
    let e : Ev := ev 0
    let r : SieveRun := { sieve0 with desc := sieveDesc }
    let t : State := tick e (sUp.upd 0 fun x => { x with sieve := some { sieve0 with desc := sieveDesc }, mint := { x.mint with dramBad := [(0x5000 / 32, true)] } })
    ((t.half e.half).sieve = some r) ∧ (((svInputs r.desc).any fun i => t.access e.half i.1 i.2 (some r.vdi) = .dataError) = true) ∧ (r.retried = false) := by decide +kernel

theorem wit_SieveRuns_8 :
    let e : Ev := ev 0
    let r : SieveRun := { sieve0 with desc := sieveDesc, retried := true }
    let t : State := tick e (sUp.upd 0 fun x => { x with sieve := some { sieve0 with desc := sieveDesc, retried := true }, mint := { x.mint with dramBad := [(0x5000 / 32, true)] } })
    ((t.half e.half).sieve = some r) ∧ (((svInputs r.desc).any fun i => t.access e.half i.1 i.2 (some r.vdi) = .dataError) = true) ∧ (r.retried = true) := by decide +kernel

theorem wit_SieveRuns_9 :
    let e : Ev := ⟨0, 10000000000⟩
    let r : SieveRun := sieve0
    let t : State := tick e (sUp.upd 0 fun x => { x with sieve := some sieve0 })
    ((t.half e.half).sieve = some r) ∧ (svBound r.desc + 10000 < t.vtOf e.half - r.startVt) := by decide +kernel

theorem wit_StrongroomRepairs_1 :
    let e : Ev := ev 0
    let row : Nat := 1048575
    let err : Bool := false
    let t : State := tick e (sUp.upd 0 fun x => x.setFld F.STR_PATROL_enable 1)
    ((t.half e.half).clk.computeUp = true) ∧ ((t.half e.half).fld F.STR_PATROL_enable ≠ 0) ∧ (row < 1048576) ∧ ((t.half e.half).groupShut (row / 131072) = false) ∧ (err = false) ∧ (kget (fun _ => false) (t.half e.half).str.badRow row = false) := by decide +kernel

theorem wit_StrongroomRepairs_2 :
    let e : Ev := ev 0
    let row : Nat := 0
    let err : Bool := true
    let t : State := tick e (sUp.upd 0 fun x => x.setFld F.STR_PATROL_enable 1)
    ((t.half e.half).clk.computeUp = true) ∧ ((t.half e.half).fld F.STR_PATROL_enable ≠ 0) ∧ (row < 1048576) ∧ ((t.half e.half).groupShut (row / 131072) = false) ∧ (err = true ∨ kget (fun _ => false) (t.half e.half).str.badRow row = true) ∧ ((t.half e.half).gran (row / 512) ≤ 1) := by decide +kernel

theorem wit_StrongroomRepairs_3 :
    let e : Ev := ev 0
    let row : Nat := 0
    let err : Bool := true
    let t : State := tick e (sUp.upd 0 fun x => { x.setFld F.STR_PATROL_enable 1 with str := { x.str with gran := [(0, 2)] } })
    ((t.half e.half).clk.computeUp = true) ∧ ((t.half e.half).fld F.STR_PATROL_enable ≠ 0) ∧ (row < 1048576) ∧ ((t.half e.half).groupShut (row / 131072) = false) ∧ (err = true ∨ kget (fun _ => false) (t.half e.half).str.badRow row = true) ∧ (1 < (t.half e.half).gran (row / 512)) := by decide +kernel

theorem wit_StrongroomRepairs_4 :
    let e : Ev := ev 0
    let bank : Nat := 3
    let t : State := tick e (sBank)
    ((t.half e.half).clk.computeUp = true) ∧ ((t.half e.half).bankFailed bank = true) ∧ ((t.half e.half).str.move = none) := by decide +kernel

theorem wit_StrongroomRepairs_5 :
    let e : Ev := ev 0
    let bank : Nat := 3
    let mv : Move := ⟨4, 64⟩
    let t : State := tick e (sBank.upd 0 fun x => { x with str := { x.str with move := some ⟨4, 64⟩ } })
    ((t.half e.half).clk.computeUp = true) ∧ ((t.half e.half).bankFailed bank = true) ∧ ((t.half e.half).str.move = some mv) ∧ ((t.half e.half).bankOf bank ≠ some mv.logical) ∧ ((t.half e.half).str.moveWait.contains bank = false) := by decide +kernel

theorem wit_StrongroomRepairs_6 :
    let e : Ev := ev 0
    let mv : Move := ⟨3, 64⟩
    let t : State := tick e (sUp.upd 0 fun x => { x with str := { x.str with move := some ⟨3, 64⟩ } })
    ((t.half e.half).str.move = some mv) := by decide +kernel

theorem wit_StrongroomRepairs_7 :
    let e : Ev := ev 0
    let g : Nat := 0
    let t : State := tick e (sBank.upd 0 fun x => x.setRecord fun r => { r with bankState := [(64, 2), (65, 2), (66, 2), (67, 2)] })
    ((t.half e.half).clk.computeUp = true) ∧ (g < 8) ∧ ((t.half e.half).isWithdrawn g = false) ∧ (((List.range 8).any fun i => (t.half e.half).bankFailed (kget (fun l => l) (t.half e.half).svc.record.bankMap (8 * g + i))) = true) ∧ ((t.half e.half).freeBank = none) := by decide +kernel

theorem wit_StrongroomGranules_1 :
    let e : Ev := ev 0
    let g : Nat := 9
    let r : List Nat := []
    let t : State := tick e (sUp.upd 0 fun x => { x with str := { x.str with zeroQ := [9] } })
    ((t.half e.half).str.zeroQ = g :: r) := by decide +kernel

theorem wit_StrongroomGranules_2 :
    let e : Ev := ev 0
    let g : Nat := 2
    let t : State := tick e (sUp.upd 0 fun x => ({ x with str := { x.str with opening := [2] } } : Half).setFld F.STR_GROUP_STATE_shut 4)
    ((t.half e.half).str.opening.contains g = true) ∧ (bits ((t.half e.half).fld F.STR_GROUP_STATE_shut) g 1 ≠ 0) ∧ ((t.half e.half).isWithdrawn g = false) := by decide +kernel

theorem wit_StrongroomGranules_3 :
    let e : Ev := ev 0
    let unit : ShutUnit := .group 2
    let t : State := tick e (sUp)
    ((t.half e.half).unitUp unit = true) ∧ ((t.half e.half).fw.stewardDown = false) ∧ ((t.half e.half).mayShut unit = true) ∧ ((t.half e.half).closingAt (shutKey unit) = none) ∧ ((t.half e.half).shutAgain (shutKey unit) = true) := by decide +kernel

theorem wit_StrongroomGranules_4 :
    let e : Ev := ⟨0, 2001⟩
    let unit : ShutUnit := .group 2
    let at0 : Nat := 0
    let t : State := tick e (sUp.upd 0 fun x => x.closeDoor 2 0)
    ((t.half e.half).unitUp unit = true) ∧ ((t.half e.half).fw.stewardDown = false) ∧ ((t.half e.half).mayShut unit = true) ∧ ((t.half e.half).closingAt (shutKey unit) = some at0) ∧ (at0 + 2000 < t.now) := by decide +kernel

theorem wit_StrongroomGranules_5 :
    let e : Ev := ⟨0, 2000⟩
    let unit : ShutUnit := .group 2
    let g : Nat := 2
    let at0 : Nat := 0
    let t : State := tick e (sUp.upd 0 fun x => x.closeDoor 2 0)
    ((t.half e.half).unitUp unit = true) ∧ ((t.half e.half).fw.stewardDown = false) ∧ ((t.half e.half).mayShut unit = true) ∧ (unit = .group g) ∧ ((t.half e.half).closingAt (shutKey unit) = some at0) ∧ (t.now ≤ at0 + 2000) := by decide +kernel

theorem wit_StrongroomGranules_6 :
    let e : Ev := ⟨0, 2000⟩
    let unit : ShutUnit := .core 16
    let p : Nat := 16
    let at0 : Nat := 0
    let t : State := tick e (sUp.upd 0 fun x => x.closeDoor 272 0)
    ((t.half e.half).unitUp unit = true) ∧ ((t.half e.half).fw.stewardDown = false) ∧ ((t.half e.half).mayShut unit = true) ∧ (unit = .core p) ∧ ((t.half e.half).closingAt (shutKey unit) = some at0) ∧ (t.now ≤ at0 + 2000) := by decide +kernel

theorem wit_StrongroomGranules_7 :
    let e : Ev := ⟨0, 2000⟩
    let unit : ShutUnit := .chan 3
    let n : Nat := 3
    let at0 : Nat := 0
    let t : State := tick e ((sUp.upd 0 fun x => x.setRecord fun r => { r with pcRetired := 3 * 2 ^ 6 }).upd 0 fun x => x.closeDoor 1027 0)
    ((t.half e.half).unitUp unit = true) ∧ ((t.half e.half).fw.stewardDown = false) ∧ ((t.half e.half).mayShut unit = true) ∧ (unit = .chan n) ∧ ((t.half e.half).closingAt (shutKey unit) = some at0) ∧ (t.now ≤ at0 + 2000) := by decide +kernel

theorem wit_StrongroomGranules_8 :
    let e : Ev := ⟨0, 2000⟩
    let unit : ShutUnit := .group 2
    let at0 : Nat := 0
    let g : Nat := 2
    let t : State := tick e (sUp.upd 0 fun x => x.closeDoor 2 0)
    ((t.half e.half).closingAt (shutKey unit) = some at0) ∧ (at0 + 2000 ≤ t.now) ∧ ((within (t.half e.half).vt.toNat 1000000000 (kget (fun _ => []) (t.half e.half).mint.aborts (shutKey unit))).length < 2) ∧ (unit = .group g) := by decide +kernel

theorem wit_StrongroomGranules_9 :
    let e : Ev := ⟨0, 2000⟩
    let unit : ShutUnit := .core 16
    let at0 : Nat := 0
    let p : Nat := 16
    let t : State := tick e (sUp.upd 0 fun x => x.closeDoor 272 0)
    ((t.half e.half).closingAt (shutKey unit) = some at0) ∧ (at0 + 2000 ≤ t.now) ∧ ((within (t.half e.half).vt.toNat 1000000000 (kget (fun _ => []) (t.half e.half).mint.aborts (shutKey unit))).length < 2) ∧ (unit = .core p ∨ unit = .chan p) := by decide +kernel

theorem wit_StrongroomGranules_10 :
    let e : Ev := ⟨0, 2000⟩
    let unit : ShutUnit := .group 2
    let at0 : Nat := 0
    let g : Nat := 2
    let t : State := tick e (sUp.upd 0 fun x => { x.closeDoor 2 0 with mint := { (x.closeDoor 2 0).mint with aborts := [(2, [0, 0])] } })
    ((t.half e.half).closingAt (shutKey unit) = some at0) ∧ (at0 + 2000 ≤ t.now) ∧ (2 ≤ (within (t.half e.half).vt.toNat 1000000000 (kget (fun _ => []) (t.half e.half).mint.aborts (shutKey unit))).length) ∧ (unit = .group g) := by decide +kernel

theorem wit_StrongroomGranules_11 :
    let e : Ev := ⟨0, 2000⟩
    let unit : ShutUnit := .chan 3
    let at0 : Nat := 0
    let p : Nat := 3
    let t : State := tick e (sUp.upd 0 fun x => { x.closeDoor 1027 0 with mint := { (x.closeDoor 1027 0).mint with aborts := [(1027, [0, 0])] } })
    ((t.half e.half).closingAt (shutKey unit) = some at0) ∧ (at0 + 2000 ≤ t.now) ∧ (2 ≤ (within (t.half e.half).vt.toNat 1000000000 (kget (fun _ => []) (t.half e.half).mint.aborts (shutKey unit))).length) ∧ (unit = .core p ∨ unit = .chan p) := by decide +kernel

theorem wit_StrongroomGranules_12 :
    let e : Ev := ev 0
    let unit : ShutUnit := .group 2
    let who : Master := .app 3
    let n : Nat := 3
    let t : State := tick e (sUp.upd 0 fun x => x.setFld F.STR_GROUP_STATE_shut 4)
    (((t.half e.half).unitShut unit || ((t.half e.half).closingAt (shutKey unit)).isSome) = true) ∧ (who = .app n) := by decide +kernel

theorem wit_StrongroomGranules_13 :
    let e : Ev := ev 0
    let unit : ShutUnit := .group 2
    let who : Master := .dma 3 0
    let p : Nat := 3
    let i : Nat := 0
    let t : State := tick e (sUp.upd 0 fun x => x.setFld F.STR_GROUP_STATE_shut 4)
    (((t.half e.half).unitShut unit || ((t.half e.half).closingAt (shutKey unit)).isSome) = true) ∧ (who = .dma p i) := by decide +kernel

theorem wit_StrongroomGranules_14 :
    let e : Ev := ev 0
    let unit : ShutUnit := .group 2
    let who : Master := .other
    let t : State := tick e (sUp.upd 0 fun x => x.closeDoor 2 0)
    (((t.half e.half).unitShut unit || ((t.half e.half).closingAt (shutKey unit)).isSome) = true) ∧ (who = .steward ∨ who = .other) := by decide +kernel

theorem wit_StrongroomMessages_1 :
    let e : Ev := ev 0
    let m : Msg := msgDev
    let count : Nat := 2
    let group : Nat := 0
    let a : Status × Nat := (.ok, 0)
    let t : State := tick e (sMsg)
    let u : State := t.settleMsgs e.half
    (u.accepts e.half m 0x40 .vl true = true) ∧ (count ≠ 0) ∧ (count ≤ 2048) ∧ (group ≤ 7 ∨ group = 0xFF) ∧ ((u.alloc e.half { msg := m, owner := granOwner m, count := count, group := group, run := none, cache := 0 }).2 = some a) := by decide +kernel

theorem wit_StrongroomMessages_2 :
    let e : Ev := ev 0
    let m : Msg := msgDev
    let count : Nat := 2
    let group : Nat := 0
    let t : State := tick e (sMsg.upd 0 fun x => { x with str := { x.str with gran := (List.range 256).map fun k => (k, 1) } })
    let u : State := t.settleMsgs e.half
    (u.accepts e.half m 0x40 .vl true = true) ∧ (count ≠ 0) ∧ (count ≤ 2048) ∧ (group ≤ 7 ∨ group = 0xFF) ∧ ((u.alloc e.half { msg := m, owner := granOwner m, count := count, group := group, run := none, cache := 0 }).2 = none) := by decide +kernel

theorem wit_StrongroomMessages_3 :
    let e : Ev := ev 0
    let m : Msg := msg0
    let off : Nat := 0x10000
    let count : Nat := 1
    let t : State := tick e (sMsg.upd 0 fun x => { x with str := { x.str with gran := [(1, 2)] } })
    let u : State := t.settleMsgs e.half
    (u.accepts e.half m 0x41 .vl true = true) ∧ (count ≠ 0) ∧ (off % 0x10000 = 0) ∧ (off + count * 0x10000 ≤ 0x8000000) ∧ (u.inVault (strBase e.half + off) (count * 0x10000) = false) ∧ ((((List.range count).map (off / 0x10000 + ·)).all fun g => (u.half e.half).gran g = granOwner m) = true) := by decide +kernel

theorem wit_StrongroomMessages_4 :
    let e : Ev := ev 0
    let m : Msg := msg0
    let count : Nat := 16
    let i : Nat := 0
    let t : State := tick e (sMsg)
    let u : State := t.settleMsgs e.half
    (u.accepts e.half m 0x42 .l false = true) ∧ (count ≠ 0) ∧ (count ≤ 2048) ∧ ((u.half e.half).clk.computeUp = true) ∧ ((u.half e.half).str.cacheLen = 0) ∧ (u.tryAlloc e.half ownerDevice count 0xFF = .grant i) := by decide +kernel

theorem wit_StrongroomMessages_5 :
    let e : Ev := ev 0
    let m : Msg := msg0
    let count : Nat := 16
    let i : Nat := 0
    let gs : List Nat := [0]
    let t : State := tick e (sMsg.upd 0 fun x => x.setFld F.STR_GROUP_STATE_shut 0xFF)
    let u : State := t.settleMsgs e.half
    (u.accepts e.half m 0x42 .l false = true) ∧ (count ≠ 0) ∧ (count ≤ 2048) ∧ ((u.half e.half).clk.computeUp = true) ∧ ((u.half e.half).str.cacheLen = 0) ∧ (u.tryAlloc e.half ownerDevice count 0xFF = .open_ i gs) := by decide +kernel

theorem wit_StrongroomMessages_6 :
    let e : Ev := ev 0
    let m : Msg := msg0
    let count : Nat := 6
    let i : Nat := 4
    let t : State := tick e (sMsg.upd 0 fun x => { x with str := { x.str with cacheLen := 4, gran := [(0, 258), (1, 258), (2, 258), (3, 258)] } })
    let u : State := t.settleMsgs e.half
    (u.accepts e.half m 0x42 .l false = true) ∧ (count ≤ 2048) ∧ ((u.half e.half).clk.computeUp = true) ∧ ((u.half e.half).str.cacheLen ≠ 0) ∧ ((u.half e.half).str.cacheLen < count) ∧ (u.growCache e.half (count - (u.half e.half).str.cacheLen) = .grant i) := by decide +kernel

theorem wit_StrongroomMessages_7 :
    let e : Ev := ev 0
    let m : Msg := msg0
    let key : Nat := 5
    let size : Nat := 4
    let k : ModelEntry := model5 2
    let t : State := tick e (sMsg.upd 0 fun x => { x with str := { x.str with models := [model5 2] } })
    let u : State := t.settleMsgs e.half
    (u.accepts e.half m 0x43 .v true = true) ∧ (size ≠ 0) ∧ ((u.half e.half).model key m.vdi = some k) := by decide +kernel

theorem wit_StrongroomMessages_8 :
    let e : Ev := ev 0
    let m : Msg := msg0
    let key : Nat := 5
    let src : Nat := 2 ^ 63
    let size : Nat := 4
    let i : Nat := 0
    let l : List ModelEntry := []
    let t : State := tick e (sMsg.upd 0 fun x => { x with str := { x.str with cacheLen := 4 } })
    let u : State := t.settleMsgs e.half
    (u.accepts e.half m 0x43 .v true = true) ∧ (size ≠ 0) ∧ ((u.half e.half).model key m.vdi = none) ∧ ((u.srcBytes e.half m src size).1 = .ok) ∧ ((u.half e.half).modelPlace (granBytes size) (u.half e.half).str.models.length (u.half e.half).str.models = some (i, l)) := by decide +kernel

theorem wit_StrongroomMessages_9 :
    let e : Ev := ev 0
    let key : Nat := 5
    let vdi : Nat := 0
    let u : State := ((tick (ev 0) sModel).upd 0 fun x => { x with str := { x.str with models := x.str.models.map fun m => if m.key = 5 && m.vdi = 0 && m.state = 1 then { m with state := 2 } else m } })
    let t : State := tick e (sModel)
    (u = (t.upd e.half fun x => { x with str := { x.str with models := x.str.models.map fun m => if m.key = key && m.vdi = vdi && m.state = 1 then { m with state := 2 } else m } })) := by decide +kernel

theorem wit_StrongroomMessages_10 :
    let e : Ev := ev 0
    let m : Msg := msg0
    let key : Nat := 5
    let k : ModelEntry := model5 2
    let t : State := tick e (sMsg.upd 0 fun x => { x with str := { x.str with cacheLen := 4, models := [model5 2] } })
    let u : State := t.settleMsgs e.half
    (u.accepts e.half m 0x44 .v true = true) ∧ ((u.half e.half).model key m.vdi = some k) ∧ (k.state ≠ 1) ∧ ((((u.upd e.half fun x => { x with str := { x.str with models := x.str.models.map fun q => if q = k then { q with state := 3 } else q } }).half e.half).str.models.filter fun q => q.state = 3).foldl (fun n q => n + q.len) 0 ≤ (u.half e.half).str.cacheLen) := by decide +kernel

theorem wit_StrongroomMessages_11 :
    let e : Ev := ev 0
    let m : Msg := msg0
    let key : Nat := 5
    let k : ModelEntry := model5 3
    let t : State := tick e (sMsg.upd 0 fun x => { x with str := { x.str with cacheLen := 4, models := [model5 3] } })
    let u : State := t.settleMsgs e.half
    (u.accepts e.half m 0x44 .v true = true) ∧ ((u.half e.half).model key m.vdi = some k) ∧ (k.state ≠ 1) ∧ ((((u.upd e.half fun x => { x with str := { x.str with models := x.str.models.map fun q => if q = k then { q with state := 2 } else q } }).half e.half).str.models.filter fun q => q.state = 3).foldl (fun n q => n + q.len) 0 ≤ (u.half e.half).str.cacheLen) := by decide +kernel

theorem wit_StrongroomMessages_12 :
    let e : Ev := ev 0
    let m : Msg := msg0
    let key : Nat := 5
    let t : State := tick e (sMsg)
    let u : State := t.settleMsgs e.half
    (u.accepts e.half m 0x44 .v true = true) ∧ ((u.half e.half).model key m.vdi = none) := by decide +kernel

theorem wit_StrongroomMessages_13 :
    let e : Ev := ev 0
    let m : Msg := msg0
    let t : State := tick e (sMsg)
    let u : State := t.settleMsgs e.half
    (u.accepts e.half m 0x45 .l false = true) := by decide +kernel

theorem wit_IntakePackets_1 :
    let e : Ev := ev 0
    let rx : Nat := 0
    let vc : Nat := 0
    let dt : Nat := 0x2B
    let k : Nat := 0
    let t : State := tick e (sCam)
    ((t.half e.half).rxOn rx = true) ∧ ((((t.half e.half).slotsOf rx vc).find? fun k => imageType dt && decide ((t.half e.half).fld F.INT_STREAM_CFG_data_type k = dt)) = some k) := by decide +kernel

theorem wit_IntakePackets_2 :
    let e : Ev := ev 0
    let rx : Nat := 0
    let vc : Nat := 1
    let dt : Nat := 0x2B
    let t : State := tick e (sCam)
    ((t.half e.half).rxOn rx = true) ∧ ((((t.half e.half).slotsOf rx vc).find? fun k => imageType dt && decide ((t.half e.half).fld F.INT_STREAM_CFG_data_type k = dt)) = none) := by decide +kernel

theorem wit_IntakePackets_3 :
    let e : Ev := ev 0
    let hd : RxHdr := { rx := 0, corrected := true }
    let t : State := tick e (sCam)
    ((t.half e.half).rxOn hd.rx = true) := by decide +kernel

theorem wit_IntakePackets_4 :
    let e : Ev := ev 0
    let hd : RxHdr := { rx := 0, corrected := true }
    let vc : Nat := 0
    let k : Nat := 0
    let t : State := tick e (sCam)
    ((t.half e.half).rxOn hd.rx = true) ∧ ((t.half e.half).slotsOf hd.rx vc = [k]) := by decide +kernel

theorem wit_IntakePackets_5 :
    let e : Ev := ev 0
    let hd : RxHdr := { rx := 0, corrected := true }
    let t : State := tick e (sCam)
    ((t.half e.half).rxOn hd.rx = true) := by decide +kernel

theorem wit_IntakePackets_6 :
    let e : Ev := ev 0
    let hd : RxHdr := { rx := 0, corrected := true }
    let vc : Nat := 0
    let k : Nat := 0
    let t : State := tick e (sCam)
    ((t.half e.half).rxOn hd.rx = true) ∧ ((t.half e.half).slotsOf hd.rx vc = [k]) := by decide +kernel

theorem wit_IntakePackets_7 :
    let e : Ev := ev 0
    let slot : Nat := 0
    let p : Nat := 0
    let t : State := tick e (sCam.upd 0 fun x => x.updStream 0 fun t => { t with prevFs := some 0 })
    ((t.half e.half).clk.rimUp = true) ∧ ((t.half e.half).streamOn slot = true) ∧ (((t.half e.half).stream slot).timedOut = false) ∧ (((t.half e.half).stream slot).prevFs = some p) ∧ (3 * (t.half e.half).fld F.INT_STREAM_GEOM_nominal_ns slot ≤ 2 * ((t.half e.half).vt.toNat - p)) := by decide +kernel

theorem wit_IntakePackets_8 :
    let e : Ev := ev 0
    let hd : RxHdr := { rx := 0, corrected := true }
    let vc : Nat := 0
    let line : EmbLine := { data := [], crcOk := true }
    let t : State := tick e (sCam.upd 0 fun x => x.updStream 0 fun t => { t with frameOpen := true })
    ((t.half e.half).rxOn hd.rx = true) ∧ (((t.half e.half).slotsOf hd.rx vc).filter (fun k => ((t.half e.half).stream k).frameOpen) ≠ []) ∧ (line.crcOk = true) := by decide +kernel

theorem wit_IntakePackets_9 :
    let e : Ev := ev 0
    let hd : RxHdr := { rx := 0, corrected := true }
    let vc : Nat := 0
    let line : EmbLine := { data := [], crcOk := false }
    let t : State := tick e (sCam.upd 0 fun x => x.updStream 0 fun t => { t with frameOpen := true })
    ((t.half e.half).rxOn hd.rx = true) ∧ (((t.half e.half).slotsOf hd.rx vc).filter (fun k => ((t.half e.half).stream k).frameOpen) ≠ []) ∧ (line.crcOk = false) := by decide +kernel

theorem wit_IntakePackets_10 :
    let e : Ev := ev 0
    let hd : RxHdr := { rx := 0, corrected := true }
    let vc : Nat := 0
    let t : State := tick e (sCam)
    ((t.half e.half).rxOn hd.rx = true) ∧ (((t.half e.half).slotsOf hd.rx vc).filter (fun k => ((t.half e.half).stream k).frameOpen) = []) := by decide +kernel

theorem wit_IntakePackets_11 :
    let e : Ev := ev 0
    let rx : Nat := 0
    let t : State := tick e (sCam)
    ((t.half e.half).rxOn rx = true) := by decide +kernel

theorem wit_IntakeMessages_1 :
    let e : Ev := ev 0
    let m : Msg := msg0
    let rx : Nat := 7
    let cfg : Nat := 1 + 80 * 16
    let t : State := tick e (sMsg)
    let u : State := t.settleMsgs e.half
    (u.accepts e.half m 0x50 .l false = true) ∧ (rx < 8) ∧ (bits cfg 2 2 ≠ 3) ∧ (bits cfg 0 1 = 1) ∧ (80 ≤ bits cfg 4 13) ∧ (bits cfg 4 13 ≤ (if bits cfg 1 1 = 0 then 4500 else 6000)) := by decide +kernel

theorem wit_IntakeMessages_2 :
    let e : Ev := ev 0
    let m : Msg := msg0
    let rx : Nat := 7
    let cfg : Nat := 0
    let t : State := tick e (sMsg)
    let u : State := t.settleMsgs e.half
    (u.accepts e.half m 0x50 .l false = true) ∧ (rx < 8) ∧ (bits cfg 2 2 ≠ 3) ∧ (bits cfg 0 1 = 0) ∧ ((u.half e.half).secureOwned (0x100 + rx) = false) := by decide +kernel

theorem wit_IntakeMessages_3 :
    let e : Ev := ev 0
    let m : Msg := msg0
    let slot : Nat := 31
    let src : Nat := 2 ^ 63
    let l : List Nat := (List.range 7).map fun i => bits (streamCfg0 - 1) (64 * i) 64
    let t : State := tick e (sStreamOff)
    let u : State := t.settleMsgs e.half
    (u.accepts e.half m 0x51 .l false = true) ∧ (slot < 32) ∧ (l = ((List.range 7).map fun i => bits (leNat (u.srcBytes e.half m src 56).2) (64 * i) 64)) ∧ ((u.srcBytes e.half m src 56).1 = .ok) ∧ (bits (l.getD 0 0) 0 1 = 0) ∧ (streamFieldsOk l = true) ∧ ((u.half e.half).streamOn slot = false ∨ (u.half e.half).secureOwned (0x100 + slot / 4) = false) := by decide +kernel

theorem wit_IntakeMessages_4 :
    let e : Ev := ev 0
    let m : Msg := msg0
    let slot : Nat := 0
    let src : Nat := 2 ^ 63
    let l : List Nat := (List.range 7).map fun i => bits streamCfg0 (64 * i) 64
    let t : State := tick e (sStream)
    let u : State := t.settleMsgs e.half
    (u.accepts e.half m 0x51 .l false = true) ∧ (slot < 32) ∧ (l = ((List.range 7).map fun i => bits (leNat (u.srcBytes e.half m src 56).2) (64 * i) 64)) ∧ ((u.srcBytes e.half m src 56).1 = .ok) ∧ (bits (l.getD 0 0) 0 1 ≠ 0) ∧ (streamFieldsOk l = true) ∧ (u.streamOk e.half slot l = true) ∧ ((u.half e.half).streamOn slot = true) := by decide +kernel

theorem wit_IntakeMessages_5 :
    let e : Ev := ev 0
    let m : Msg := msg0
    let slot : Nat := 9
    let src : Nat := 2 ^ 63
    let l : List Nat := (List.range 7).map fun i => bits streamCfg0 (64 * i) 64
    let t : State := tick e (sStream)
    let u : State := t.settleMsgs e.half
    (u.accepts e.half m 0x51 .l false = true) ∧ (slot < 32) ∧ (l = ((List.range 7).map fun i => bits (leNat (u.srcBytes e.half m src 56).2) (64 * i) 64)) ∧ ((u.srcBytes e.half m src 56).1 = .ok) ∧ (bits (l.getD 0 0) 0 1 ≠ 0) ∧ (streamFieldsOk l = true) ∧ (u.streamOk e.half slot l = true) ∧ ((u.half e.half).streamOn slot = false) := by decide +kernel

theorem wit_DramRows_1 :
    let e : Ev := ev 0
    let pc : Nat := 63
    let bank : Nat := 47
    let row : Nat := 0
    let unc : Bool := false
    let t : State := tick e (sUp)
    ((t.half e.half).dramPlace pc bank row = true) ∧ (unc = false) := by decide +kernel

theorem wit_DramRows_2 :
    let e : Ev := ev 0
    let pc : Nat := 63
    let bank : Nat := 47
    let row : Nat := 0
    let unc : Bool := true
    let t : State := tick e (sUp)
    ((t.half e.half).dramPlace pc bank row = true) ∧ (unc = true) := by decide +kernel

theorem wit_DramRows_3 :
    let e : Ev := ev 0
    let pc : Nat := 63
    let bank : Nat := 47
    let row : Nat := 0
    let t : State := tick e (sUp)
    ((t.half e.half).dramPlace pc bank row = true) := by decide +kernel

theorem wit_DramRows_4 :
    let e : Ev := ev 0
    let pc : Nat := 1
    let bank : Nat := 2
    let row : Nat := 3
    let t : State := tick e (sUp.upd 0 fun x => { x with mint := { x.mint with due := [rowKey 1 2 3] } })
    ((t.half e.half).dramPlace pc bank row = true) ∧ ((t.half e.half).fw.stewardDown = false) ∧ ((t.half e.half).mint.due.contains (rowKey pc bank row) = true) ∧ ((t.half e.half).tableUsed (pc / 32) < 4096) := by decide +kernel

theorem wit_DramRows_5 :
    let e : Ev := ev 0
    let idx : Nat := 63
    let training : Bool := true
    let t : State := tick e (sUp)
    ((t.half e.half).clk.rimUp = true) ∧ ((t.half e.half).fw.stewardDown = false) ∧ (idx < 64) ∧ (bits ((t.half e.half).svc.record.pcRetired ||| (t.half e.half).svc.record.pcPending) idx 1 ≠ 1) ∧ (training = true) := by decide +kernel

theorem wit_DramRows_6 :
    let e : Ev := ev 0
    let idx : Nat := 0
    let training : Bool := false
    let t : State := tick e (sUp.upd 0 fun x => x.setRecord fun r => { r with remap := [(0, (List.range 512).map fun i => (i, 0))] })
    ((t.half e.half).clk.rimUp = true) ∧ ((t.half e.half).fw.stewardDown = false) ∧ (idx < 64) ∧ (bits ((t.half e.half).svc.record.pcRetired ||| (t.half e.half).svc.record.pcPending) idx 1 ≠ 1) ∧ (training = false) ∧ (4096 ≤ (t.half e.half).tableUsed (idx / 32) ∨ 512 ≤ (t.half e.half).remapped idx) := by decide +kernel

theorem wit_MintClasses_1 :
    let e : Ev := ev 0
    let m : Msg := msg0
    let cls : Nat := 15
    let t : State := tick e (sMsg)
    let u : State := t.settleMsgs e.half
    (u.accepts e.half m 0x30 .l false = true) ∧ (cls < 16) := by decide +kernel

theorem wit_MintClasses_2 :
    let e : Ev := ev 0
    let m : Msg := msg0
    let t : State := tick e (sMsg)
    let u : State := t.settleMsgs e.half
    (u.accepts e.half m 0x31 .l false = true) ∧ (((List.range 16).find? fun k => !u.classRange k ((u.half e.half).newClass k)) = none) ∧ (((List.range 16).find? fun k => !(u.half e.half).classPorts ((u.half e.half).newClass k)) = none) ∧ ((u.half e.half).newSum mcDram ≤ (u.half e.half).fld F.MNT_BUDGET_dram) ∧ ((u.half e.half).newSum mcHatch ≤ (u.half e.half).fld F.MNT_BUDGET_hatch) := by decide +kernel

theorem wit_MintClasses_3 :
    let e : Ev := ev 0
    let m : Msg := msg0
    let cfg : Nat := 8 + 64
    let t : State := tick e (sMsg)
    let u : State := t.settleMsgs e.half
    (u.accepts e.half m 0x32 .l false = true) ∧ (8 ≤ bits cfg 0 6) ∧ (bits cfg 6 6 ≠ 0) ∧ (bits cfg 6 6 < bits cfg 0 6) := by decide +kernel

theorem wit_MintClasses_4 :
    let e : Ev := ev 0
    let stack : Nat := 1
    let t : State := tick e (sUp)
    ((t.half e.half).clk.rimUp = true) ∧ (stack < 2) := by decide +kernel

theorem wit_MintClasses_5 :
    let e : Ev := ev 0
    let stack : Nat := 0
    let level : Nat := 63
    let t : State := tick e (sUp)
    ((t.half e.half).clk.rimUp = true) ∧ (stack = 0) ∧ ((t.half e.half).throttled 0 = false) ∧ ((t.half e.half).fld F.MNT_FB_CFG_threshold ≤ ((t.half e.half).setLevel 0 level).queueLevel 0) := by decide +kernel

theorem wit_MintClasses_6 :
    let e : Ev := ev 0
    let stack : Nat := 0
    let level : Nat := 0
    let t : State := tick e (sUp.upd 0 fun x => x.setFld F.MNT_FB_CFG_throttle0 1)
    ((t.half e.half).clk.rimUp = true) ∧ (stack = 0) ∧ ((t.half e.half).throttled 0 = true) ∧ (((t.half e.half).setLevel 0 level).queueLevel 0 < (t.half e.half).fld F.MNT_FB_CFG_threshold) ∧ (((t.half e.half).setLevel 0 level).queueLevel 0 ≤ (t.half e.half).fld F.MNT_FB_CFG_threshold - (t.half e.half).fld F.MNT_FB_CFG_hyst) := by decide +kernel

theorem wit_MintClasses_7 :
    let e : Ev := ev 0
    let stack : Nat := 1
    let level : Nat := 63
    let t : State := tick e (sUp)
    ((t.half e.half).clk.rimUp = true) ∧ (stack = 1) ∧ ((t.half e.half).throttled 1 = false) ∧ ((t.half e.half).fld F.MNT_FB_CFG_threshold ≤ ((t.half e.half).setLevel 1 level).queueLevel 1) := by decide +kernel

theorem wit_MintClasses_8 :
    let e : Ev := ev 0
    let stack : Nat := 1
    let level : Nat := 0
    let t : State := tick e (sUp.upd 0 fun x => x.setFld F.MNT_FB_CFG_throttle1 1)
    ((t.half e.half).clk.rimUp = true) ∧ (stack = 1) ∧ ((t.half e.half).throttled 1 = true) ∧ (((t.half e.half).setLevel 1 level).queueLevel 1 < (t.half e.half).fld F.MNT_FB_CFG_threshold) ∧ (((t.half e.half).setLevel 1 level).queueLevel 1 ≤ (t.half e.half).fld F.MNT_FB_CFG_threshold - (t.half e.half).fld F.MNT_FB_CFG_hyst) := by decide +kernel

theorem wit_MintClasses_9 :
    let e : Ev := ev 0
    let port : Nat := 130
    let cls : Nat := 15
    let y : Half := ((tick (ev 0) sHeldLong).half 0).fillBuckets (tick (ev 0) sHeldLong).now
    let t : State := tick e (sHeldLong)
    ((t.half e.half).clk.rimUp = true) ∧ (cls < 16) ∧ (y = (t.half e.half).fillBuckets t.now) ∧ (y.mint.held.any (y.overdue port cls t.now) = true) ∧ (kget (fun _ => 0) y.mint.missVt cls = 0 ∨ kget (fun _ => 0) y.mint.missVt cls - 1 + 100000000 ≤ y.vt.toNat) := by decide +kernel

theorem wit_MintClasses_10 :
    let e : Ev := ev 0
    let port : Nat := 130
    let cls : Nat := 15
    let y : Half := ((tick (ev 0) sHeldMissed).half 0).fillBuckets (tick (ev 0) sHeldMissed).now
    let t : State := tick e (sHeldMissed)
    ((t.half e.half).clk.rimUp = true) ∧ (cls < 16) ∧ (y = (t.half e.half).fillBuckets t.now) ∧ (y.mint.held.any (y.overdue port cls t.now) = true) ∧ (kget (fun _ => 0) y.mint.missVt cls ≠ 0) ∧ (y.vt.toNat < kget (fun _ => 0) y.mint.missVt cls - 1 + 100000000) := by decide +kernel

theorem wit_MintClasses_11 :
    let e : Ev := ev 0
    let port : Nat := 141
    let cls : Nat := 0
    let to_ : DramReq := { pc := 0, bank := 0, row := 0, turns := [] }
    let bytes : Nat := 0
    let t : State := tick e (sUp)
    ((t.half e.half).clk.rimUp = true) ∧ ((t.half e.half).portBacked port = true) ∧ (t.markFits e.half port cls = true) ∧ ((t.half e.half).dramUsed to_.pc to_.bank to_.row = true) ∧ (bytes = 0) := by decide +kernel

theorem wit_MintClasses_12 :
    let e : Ev := ev 0
    let port : Nat := 141
    let cls : Nat := 0
    let to_ : DramReq := { pc := 0, bank := 0, row := 0, turns := [] }
    let bytes : Nat := 64
    let y : Half := (((tick (ev 0) (sUp)).half 0).fillBuckets (tick (ev 0) (sUp)).now |>.ctlServe 0 []).sendHeld (tick (ev 0) (sUp)).now
    let t : State := tick e (sUp)
    ((t.half e.half).clk.rimUp = true) ∧ ((t.half e.half).portBacked port = true) ∧ (t.markFits e.half port cls = true) ∧ ((t.half e.half).dramUsed to_.pc to_.bank to_.row = true) ∧ (bytes ≠ 0) ∧ (y = (((t.half e.half).fillBuckets t.now).ctlServe to_.pc to_.turns).sendHeld t.now) := by decide +kernel

theorem wit_MintClasses_13 :
    let e : Ev := ev 0
    let port : Nat := 130
    let cls : Nat := 15
    let to_ : DramReq := { pc := 0, bank := 0, row := 0, turns := [] }
    let bytes : Nat := 32
    let y : Half := (((tick (ev 0) (sUp.upd 0 fun x => ((x.setFld F.MNT_CLASS_CFG_depth 64 0 15).setFld F.MNT_CLASS_EFF_dram_eff 5 0 15).setElem .MNT_CLASS_PORTS (7 * 2 ^ 130) 0 15)).half 0).fillBuckets (tick (ev 0) (sUp.upd 0 fun x => ((x.setFld F.MNT_CLASS_CFG_depth 64 0 15).setFld F.MNT_CLASS_EFF_dram_eff 5 0 15).setElem .MNT_CLASS_PORTS (7 * 2 ^ 130) 0 15)).now |>.ctlServe 0 []).sendHeld (tick (ev 0) (sUp.upd 0 fun x => ((x.setFld F.MNT_CLASS_CFG_depth 64 0 15).setFld F.MNT_CLASS_EFF_dram_eff 5 0 15).setElem .MNT_CLASS_PORTS (7 * 2 ^ 130) 0 15)).now
    let t : State := tick e (sUp.upd 0 fun x => ((x.setFld F.MNT_CLASS_CFG_depth 64 0 15).setFld F.MNT_CLASS_EFF_dram_eff 5 0 15).setElem .MNT_CLASS_PORTS (7 * 2 ^ 130) 0 15)
    ((t.half e.half).clk.rimUp = true) ∧ ((t.half e.half).portBacked port = true) ∧ (t.markFits e.half port cls = true) ∧ ((t.half e.half).dramUsed to_.pc to_.bank to_.row = true) ∧ (bytes ≠ 0) ∧ (y = (((t.half e.half).fillBuckets t.now).ctlServe to_.pc to_.turns).sendHeld t.now) ∧ ((y.mint.held.any fun q => decide (q.port = port) && decide (q.cls = cls)) = false) ∧ (y.ctlRoom to_.pc = true) ∧ (y.pays port cls (coinCost bytes) = true) := by decide +kernel

theorem wit_MintClasses_14 :
    let e : Ev := ev 0
    let port : Nat := 141
    let cls : Nat := 0
    let to_ : DramReq := { pc := 0, bank := 0, row := 0, turns := [] }
    let bytes : Nat := 32
    let y : Half := (((tick (ev 0) (sUp)).half 0).fillBuckets (tick (ev 0) (sUp)).now |>.ctlServe 0 []).sendHeld (tick (ev 0) (sUp)).now
    let t : State := tick e (sUp)
    ((t.half e.half).clk.rimUp = true) ∧ ((t.half e.half).portBacked port = true) ∧ (t.markFits e.half port cls = true) ∧ ((t.half e.half).dramUsed to_.pc to_.bank to_.row = true) ∧ (bytes ≠ 0) ∧ (y = (((t.half e.half).fillBuckets t.now).ctlServe to_.pc to_.turns).sendHeld t.now) ∧ ((y.mint.held.any fun q => decide (q.port = port) && decide (q.cls = cls)) = false) ∧ (y.ctlRoom to_.pc = true) ∧ (y.pays port cls (coinCost bytes) = false) ∧ (y.borrows cls (to_.pc / 32) = true) := by decide +kernel

theorem wit_MintClasses_15 :
    let e : Ev := ev 0
    let port : Nat := 138
    let cls : Nat := 14
    let to_ : DramReq := { pc := 0, bank := 0, row := 0, turns := [] }
    let bytes : Nat := 32
    let y : Half := (((tick (ev 0) (sUp.upd 0 fun x => x.setFld F.MNT_CLASS_CFG_borrow 0 0 14)).half 0).fillBuckets (tick (ev 0) (sUp.upd 0 fun x => x.setFld F.MNT_CLASS_CFG_borrow 0 0 14)).now |>.ctlServe 0 []).sendHeld (tick (ev 0) (sUp.upd 0 fun x => x.setFld F.MNT_CLASS_CFG_borrow 0 0 14)).now
    let t : State := tick e (sUp.upd 0 fun x => x.setFld F.MNT_CLASS_CFG_borrow 0 0 14)
    ((t.half e.half).clk.rimUp = true) ∧ ((t.half e.half).portBacked port = true) ∧ (t.markFits e.half port cls = true) ∧ ((t.half e.half).dramUsed to_.pc to_.bank to_.row = true) ∧ (bytes ≠ 0) ∧ (y = (((t.half e.half).fillBuckets t.now).ctlServe to_.pc to_.turns).sendHeld t.now) ∧ ((y.mint.held.any fun q => decide (q.port = port) && decide (q.cls = cls)) = false) ∧ (y.ctlRoom to_.pc = true) ∧ (y.pays port cls (coinCost bytes) = false) ∧ (y.borrows cls (to_.pc / 32) = false) := by decide +kernel

theorem wit_MintClasses_16 :
    let e : Ev := ev 0
    let port : Nat := 138
    let cls : Nat := 14
    let to_ : DramReq := { pc := 0, bank := 0, row := 0, turns := [] }
    let bytes : Nat := 32
    let y : Half := (((tick (ev 0) (sHeldTwo)).half 0).fillBuckets (tick (ev 0) (sHeldTwo)).now |>.ctlServe 0 []).sendHeld (tick (ev 0) (sHeldTwo)).now
    let t : State := tick e (sHeldTwo)
    ((t.half e.half).clk.rimUp = true) ∧ ((t.half e.half).portBacked port = true) ∧ (t.markFits e.half port cls = true) ∧ ((t.half e.half).dramUsed to_.pc to_.bank to_.row = true) ∧ (bytes ≠ 0) ∧ (y = (((t.half e.half).fillBuckets t.now).ctlServe to_.pc to_.turns).sendHeld t.now) ∧ ((y.mint.held.any fun q => decide (q.port = port) && decide (q.cls = cls)) = true) := by decide +kernel

theorem wit_ResultsAndVerdicts_1 :
    let e : Ev := ev 0
    let n : Nat := 0
    let st : Status := .ok
    let k : Nat := 0
    let r : Nat := 0
    let rec0 : Nat := (tick (ev 0) sDeliver).taskRec 0 0
    let a : Nat := chResult (chRec ((tick (ev 0) sDeliver).taskRec 0 0) 0)
    let b : Nat := chLedger (chRec ((tick (ev 0) sDeliver).taskRec 0 0) 0)
    let sz : Nat × Nat := chSizes ((tick (ev 0) sDeliver).taskRec 0 0) 0
    let len : Nat := (chSizes ((tick (ev 0) sDeliver).taskRec 0 0) 0).1
    let t : State := tick e (sDeliver)
    ((t.half e.half).trials = false) ∧ (((t.half e.half).inst n).last = some (st, k)) ∧ (wDelivers ((t.half e.half).activeEntry n) = true) ∧ ((((t.half e.half).inst n).rounds.find? fun q => q.1 = k) = some (k, r)) ∧ (st = .ok ∨ st = .retriedOk) ∧ (rec0 = t.taskRec e.half (wTask ((t.half e.half).activeEntry n))) ∧ (a = chResult (chRec rec0 (wChannel ((t.half e.half).activeEntry n)))) ∧ (b = chLedger (chRec rec0 (wChannel ((t.half e.half).activeEntry n)))) ∧ (sz = chSizes rec0 (wChannel ((t.half e.half).activeEntry n))) ∧ (len = (if tkKind rec0 = 1 then 64 + 48 * Nat.min (t.rdN a 4) (tkC rec0) else sz.1)) ∧ (t.access e.half a (if tkKind rec0 = 1 then 64 else len) = .ok) ∧ (t.access e.half a len = .ok) ∧ ((if sz.2 = 0 then .ok else t.access e.half b sz.2) = Status.ok) := by decide +kernel

theorem wit_ResultsAndVerdicts_2 :
    let e : Ev := ev 0
    let n : Nat := 0
    let st : Status := .ok
    let k : Nat := 0
    let r : Nat := 0
    let rec0 : Nat := (tick (ev 0) sDeliverFar).taskRec 0 0
    let a : Nat := chResult (chRec ((tick (ev 0) sDeliverFar).taskRec 0 0) 0)
    let b : Nat := chLedger (chRec ((tick (ev 0) sDeliverFar).taskRec 0 0) 0)
    let sz : Nat × Nat := chSizes ((tick (ev 0) sDeliverFar).taskRec 0 0) 0
    let len : Nat := (chSizes ((tick (ev 0) sDeliverFar).taskRec 0 0) 0).1
    let q : Status := .outOfRange
    let t : State := tick e (sDeliverFar)
    ((t.half e.half).trials = false) ∧ (((t.half e.half).inst n).last = some (st, k)) ∧ (wDelivers ((t.half e.half).activeEntry n) = true) ∧ ((((t.half e.half).inst n).rounds.find? fun q => q.1 = k) = some (k, r)) ∧ (st = .ok ∨ st = .retriedOk) ∧ (rec0 = t.taskRec e.half (wTask ((t.half e.half).activeEntry n))) ∧ (a = chResult (chRec rec0 (wChannel ((t.half e.half).activeEntry n)))) ∧ (b = chLedger (chRec rec0 (wChannel ((t.half e.half).activeEntry n)))) ∧ (sz = chSizes rec0 (wChannel ((t.half e.half).activeEntry n))) ∧ (len = (if tkKind rec0 = 1 then 64 + 48 * Nat.min (t.rdN a 4) (tkC rec0) else sz.1)) ∧ (t.access e.half a (if tkKind rec0 = 1 then 64 else len) = q) ∧ (q ≠ .ok) ∧ (q ≠ .retriedOk) := by decide +kernel

theorem wit_ResultsAndVerdicts_3 :
    let e : Ev := ev 0
    let n : Nat := 0
    let st : Status := .timeout
    let k : Nat := 0
    let r : Nat := 0
    let t : State := tick e (sDeliver.upd 0 fun x => x.setInst 0 { Inst.none with last := some (.timeout, 0), rounds := [(0, 0)] })
    ((t.half e.half).trials = false) ∧ (((t.half e.half).inst n).last = some (st, k)) ∧ (wDelivers ((t.half e.half).activeEntry n) = true) ∧ ((((t.half e.half).inst n).rounds.find? fun q => q.1 = k) = some (k, r)) ∧ (st ≠ .ok) ∧ (st ≠ .retriedOk) := by decide +kernel

theorem wit_ResultsAndVerdicts_4 :
    let e : Ev := ev 0
    let task : Nat := 0
    let round : Nat := 0
    let r : Nat := 0
    let t : State := tick e (sRound (some .ok) (some .ok))
    (r = t.fullRound e.half task round) ∧ ((t.half e.half).judges task r = true) ∧ ((((t.half e.half).task task).round r).own = none) ∧ ((((t.half e.half).task task).round r).writtenR = false) ∧ (((t.half e.half).task task).isAssay r = false) ∧ ((((((t.half e.half).task task).round r).stA.isSome && (((t.half e.half).task task).round r).stB.isSome) || absentSt (((t.half e.half).task task).round r).stA || absentSt (((t.half e.half).task task).round r).stB) = true) := by decide +kernel

theorem wit_ResultsAndVerdicts_5 :
    let e : Ev := ⟨0, 1000000000⟩
    let task : Nat := 0
    let round : Nat := 0
    let r : Nat := 0
    let t : State := tick e (sRound (some .ok) (some .ok))
    (r = t.fullRound e.half task round) ∧ ((t.half e.half).judges task r = true) ∧ ((((t.half e.half).task task).round r).own = none) ∧ ((((t.half e.half).task task).round r).writtenR = false) ∧ (((t.half e.half).task task).isAssay r = false) ∧ (t.isDue e.half task r = true) ∧ (((((t.half e.half).task task).round r).stA.isSome && (((t.half e.half).task task).round r).stB.isSome) = true) := by decide +kernel

theorem wit_ResultsAndVerdicts_6 :
    let e : Ev := ⟨0, 1000000000⟩
    let task : Nat := 0
    let round : Nat := 0
    let r : Nat := 0
    let t : State := tick e (sRound none (some .ok))
    (r = t.fullRound e.half task round) ∧ ((t.half e.half).judges task r = true) ∧ ((((t.half e.half).task task).round r).own = none) ∧ ((((t.half e.half).task task).round r).writtenR = false) ∧ (((t.half e.half).task task).isAssay r = false) ∧ (t.isDue e.half task r = true) ∧ (((((t.half e.half).task task).round r).stA.isSome && (((t.half e.half).task task).round r).stB.isSome) = false) := by decide +kernel

theorem wit_ResultsAndVerdicts_7 :
    let e : Ev := ev 0
    let task : Nat := 0
    let round : Nat := 0
    let r : Nat := 0
    let t : State := tick e (sRound none none)
    (r = t.exchRound e.half task round) ∧ ((t.half e.half).clk.rimUp = true) := by decide +kernel

theorem wit_ResultsAndVerdicts_8 :
    let e : Ev := ⟨0, 2000⟩
    let task : Nat := 0
    let round : Nat := 0
    let r : Nat := 0
    let v : Verdict := ⟨.ok, 0, 0⟩
    let t : State := tick e ((sUp.upd 0 fun x => x.updTask 0 fun k => k.setRound 0 { Round.new with own := some ⟨.ok, 0, 0⟩ }))
    (r = t.exchRound e.half task round) ∧ ((t.half e.half).tally.yielding = false) ∧ ((((t.half e.half).task task).round r).own = some v) ∧ ((((t.half e.half).task task).round r).writtenR = false) ∧ ((((t.half e.half).task task).round r).other = none) ∧ ((((t.half e.half).task task).round r).ownVt + 2000 ≤ (t.half e.half).vt.toNat) ∧ (t.tallyLink e.half = true) := by decide +kernel

theorem wit_ResultsAndVerdicts_9 :
    let e : Ev := ⟨0, 2000⟩
    let task : Nat := 0
    let round : Nat := 0
    let r : Nat := 0
    let v : Verdict := ⟨.ok, 0, 0⟩
    let t : State := tick e ((sUp.upd 0 fun x => x.updTask 0 fun k => k.setRound 0 { Round.new with own := some ⟨.ok, 0, 0⟩ }).upd 0 fun x => x.setFld F.HTC_LINK_state 0)
    (r = t.exchRound e.half task round) ∧ ((t.half e.half).tally.yielding = false) ∧ ((((t.half e.half).task task).round r).own = some v) ∧ ((((t.half e.half).task task).round r).writtenR = false) ∧ ((((t.half e.half).task task).round r).other = none) ∧ ((((t.half e.half).task task).round r).ownVt + 2000 ≤ (t.half e.half).vt.toNat) ∧ (t.tallyLink e.half = false) := by decide +kernel

theorem wit_ResultsAndVerdicts_10 :
    let e : Ev := ev 0
    let task : Nat := 0
    let round : Nat := 0
    let r : Nat := 0
    let t : State := tick e (sUp.upd 0 fun x => x.updTask 0 fun k => k.setRound 0 { Round.new with writtenR := true })
    (r = t.fullRound e.half task round) ∧ ((((t.half e.half).task task).round r).writtenR = true) ∧ ((((t.half e.half).task task).round r).stA = none) := by decide +kernel

theorem wit_ResultsAndVerdicts_11 :
    let e : Ev := ev 0
    let task : Nat := 0
    let round : Nat := 0
    let r : Nat := 0
    let t : State := tick e (sUp.upd 0 fun x => x.updTask 0 fun k => k.setRound 0 { Round.new with writtenR := true, stA := some .ok })
    (r = t.fullRound e.half task round) ∧ ((((t.half e.half).task task).round r).writtenR = true) ∧ ((((t.half e.half).task task).round r).stA.isSome = true) ∧ ((((t.half e.half).task task).round r).stB = none) := by decide +kernel

theorem wit_AssaysAndAudits_1 :
    let e : Ev := ev 0
    let task : Nat := 0
    let ch : Nat := 0
    let t : State := tick e (sTrials)
    ((t.half e.half).trialOpen task = true) ∧ (ch = e.half) := by decide +kernel

theorem wit_AssaysAndAudits_2 :
    let e : Ev := ⟨0, 10000000000000⟩
    let task : Nat := 0
    let ch : Nat := 1
    let t : State := tick e (sUp.upd 0 fun x => (x.setFld F.TLY_TASK_STATE_state 1 0).setFld F.TLY_CTL_enable 1)
    (((t.half e.half).trialOpen task && decide (ch = e.half)) = false) ∧ ((t.half e.half).taskState task = 1) ∧ (kget (fun _ => 0) ((t.half e.half).task task).assayVt ch + t.assayNs e.half task ≤ (t.half e.half).vt.toNat) ∧ (kget (fun _ => false) ((t.half e.half).task task).assayDue ch = false) ∧ ((t.half e.half).fld F.TLY_CTL_enable ≠ 0) := by decide +kernel

theorem wit_AssaysAndAudits_3 :
    let e : Ev := ev 0
    let task : Nat := 0
    let ch : Nat := 1
    let t : State := tick e (sUp.upd 0 fun x => (x.setFld F.TLY_TASK_STATE_state 3 0).setFld F.TLY_CTL_enable 1)
    (((t.half e.half).trialOpen task && decide (ch = e.half)) = false) ∧ ((t.half e.half).taskState task = 2 ∨ (t.half e.half).taskState task = 3) ∧ (kget (fun _ => false) ((t.half e.half).task task).assayDue ch = false) ∧ ((t.half e.half).fld F.TLY_CTL_enable ≠ 0) := by decide +kernel

theorem wit_AssaysAndAudits_4 :
    let e : Ev := ev 0
    let t : State := tick e (sTrials)
    ((t.half e.half).trials = true) := by decide +kernel

theorem wit_AssaysAndAudits_5 :
    let e : Ev := ev 0
    let task : Nat := 0
    let round : Nat := 0
    let r : Nat := 0
    let t : State := tick e (sAssay)
    ((t.half e.half).trials = false) ∧ (r = t.fullRound e.half task round) ∧ (tkRoundMode (t.taskRec e.half task) ≠ 1) ∧ ((t.half e.half).judges task (assayKey r) = true) ∧ ((((t.half e.half).task task).round (assayKey r)).own = none) ∧ ((((t.half e.half).task task).round (assayKey r)).writtenR = false) ∧ ((kget (fun _ => false) ((t.half e.half).task task).assayDue 0 || kget (fun _ => false) ((t.half e.half).task task).assayDue 1) = true) ∧ (([0, 1].all fun c => !(kget (fun _ => false) ((t.half e.half).task task).assayDue c) || (t.reserveStatus e.half task c).isSome) = true) := by decide +kernel

theorem wit_AssaysAndAudits_6 :
    let e : Ev := ev 0
    let task : Nat := 0
    let round : Nat := 0
    let r : Nat := 0
    let t : State := tick e (sAssayRound)
    ((t.half e.half).trials = false) ∧ (r = t.fullRound e.half task round) ∧ (tkRoundMode (t.taskRec e.half task) = 1) ∧ ((t.half e.half).judges task r = true) ∧ ((((t.half e.half).task task).round r).own = none) ∧ ((((t.half e.half).task task).round r).writtenR = false) ∧ (((t.half e.half).task task).isAssay r = true) ∧ ((((((t.half e.half).task task).round r).stA.isSome && (((t.half e.half).task task).round r).stB.isSome) || t.isDue e.half task r) = true) := by decide +kernel

theorem wit_AssaysAndAudits_7 :
    let e : Ev := ev 0
    let task : Nat := 0
    let c : Nat := 0
    let l : Nat := 3
    let rest : List (Nat × Nat) := []
    let p : Nat := 3
    let q : Nat := 16
    let t : State := tick e ((sUp.upd 0 fun x => (x.setFld F.TLY_TASK_STATE_state 3 0).updTask 0 fun k => { k with search := [(0, 3)] }))
    ((t.half e.half).taskState task = 3) ∧ ((t.half e.half).tally.ghReset = false) ∧ (((t.half e.half).task task).stand = none) ∧ (((t.half e.half).task task).search = (c, l) :: rest) ∧ (t.chanHalf e.half c = e.half) ∧ ((t.half e.half).ownCore l = some p) ∧ ((t.half e.half).groupSpare (l / 16) = some q) ∧ ((((t.half e.half).core q).auditing || ((t.half e.half).core p).auditing || (t.half e.half).spareAudits (l / 16)) = false) ∧ ((t.half e.half).spareFree (l / 16) = true) ∧ ((t.half e.half).atBoundary l = true) := by decide +kernel

theorem wit_AssaysAndAudits_8 :
    let e : Ev := ev 0
    let task : Nat := 0
    let c : Nat := 0
    let l : Nat := 3
    let rest : List (Nat × Nat) := []
    let p : Nat := 3
    let q : Nat := 16
    let t : State := tick e ((sUp.upd 0 fun x => (x.setFld F.TLY_TASK_STATE_state 3 0).updTask 0 fun k => { k with search := [(0, 3)] }).upd 0 fun x => (x.stand 0 1).updCore 0 fun c => { c with resetting := true })
    ((t.half e.half).taskState task = 3) ∧ ((t.half e.half).tally.ghReset = false) ∧ (((t.half e.half).task task).stand = none) ∧ (((t.half e.half).task task).search = (c, l) :: rest) ∧ (t.chanHalf e.half c = e.half) ∧ ((t.half e.half).ownCore l = some p) ∧ ((t.half e.half).groupSpare (l / 16) = some q) ∧ ((((t.half e.half).core q).auditing || ((t.half e.half).core p).auditing || (t.half e.half).spareAudits (l / 16)) = false) ∧ ((t.half e.half).spareFree (l / 16) = false) := by decide +kernel

theorem wit_AssaysAndAudits_9 :
    let e : Ev := ev 0
    let task : Nat := 0
    let c : Nat := 0
    let l : Nat := 3
    let rest : List (Nat × Nat) := []
    let p : Nat := 3
    let q : Nat := 16
    let t : State := tick e ((sUp.upd 0 fun x => (x.setFld F.TLY_TASK_STATE_state 3 0).updTask 0 fun k => { k with search := [(0, 3)] }).updCore 0 16 fun c => { c with auditing := true })
    ((t.half e.half).taskState task = 3) ∧ ((t.half e.half).tally.ghReset = false) ∧ (((t.half e.half).task task).stand = none) ∧ (((t.half e.half).task task).search = (c, l) :: rest) ∧ (t.chanHalf e.half c = e.half) ∧ ((t.half e.half).ownCore l = some p) ∧ ((t.half e.half).groupSpare (l / 16) = some q) ∧ ((((t.half e.half).core q).auditing || ((t.half e.half).core p).auditing || (t.half e.half).spareAudits (l / 16)) = true) := by decide +kernel

theorem wit_AssaysAndAudits_10 :
    let e : Ev := ⟨0, 10000000000000⟩
    let p : Nat := 5
    let t : State := tick e ((sUp.upd 0 fun x => x.setFld F.TLY_AUDIT_CFG_enable 1).updCore 0 5 fun c => { c with auditDue := true })
    ((t.half e.half).clk.computeUp = true) ∧ ((t.half e.half).fld F.TLY_AUDIT_CFG_enable ≠ 0) ∧ ((t.half e.half).audits = false) ∧ ((t.half e.half).auditPlaced = some p) ∧ ((t.half e.half).auditStarts p = true) := by decide +kernel

theorem wit_AssaysAndAudits_11 :
    let e : Ev := ⟨0, 10000000000000⟩
    let p : Nat := 5
    let t : State := tick e ((sUp.upd 0 fun x => x.setFld F.TLY_AUDIT_CFG_enable 1).updCore 0 5 fun c => { c with auditDue := true, resetting := true })
    ((t.half e.half).clk.computeUp = true) ∧ ((t.half e.half).fld F.TLY_AUDIT_CFG_enable ≠ 0) ∧ ((t.half e.half).audits = false) ∧ ((t.half e.half).auditPlaced = some p) ∧ ((t.half e.half).auditStarts p = false) ∧ ((t.half e.half).tally.auditVt + (t.half e.half).auditNs / 136 ≤ (t.half e.half).vt.toNat) := by decide +kernel

theorem wit_AssaysAndAudits_12 :
    let e : Ev := ⟨0, 10000000000000⟩
    let p : Nat := 0
    let t : State := tick e (sUp.upd 0 fun x => x.setFld F.TLY_AUDIT_CFG_enable 1)
    ((t.half e.half).clk.computeUp = true) ∧ ((t.half e.half).fld F.TLY_AUDIT_CFG_enable ≠ 0) ∧ ((t.half e.half).audits = false) ∧ ((t.half e.half).auditPlaced = none) ∧ ((t.half e.half).auditPick = some p) ∧ ((t.half e.half).tally.auditVt + (t.half e.half).auditNs / 136 ≤ (t.half e.half).vt.toNat) ∧ ((t.half e.half).underSearch p = false) ∧ ((t.half e.half).auditStarts p = true) := by decide +kernel

theorem wit_AssaysAndAudits_13 :
    let e : Ev := ⟨0, 10000000000000⟩
    let p : Nat := 0
    let t : State := tick e (sCrit.upd 0 fun x => x.setFld F.TLY_AUDIT_CFG_enable 1)
    ((t.half e.half).clk.computeUp = true) ∧ ((t.half e.half).fld F.TLY_AUDIT_CFG_enable ≠ 0) ∧ ((t.half e.half).audits = false) ∧ ((t.half e.half).auditPlaced = none) ∧ ((t.half e.half).auditPick = some p) ∧ ((t.half e.half).tally.auditVt + (t.half e.half).auditNs / 136 ≤ (t.half e.half).vt.toNat) ∧ ((t.half e.half).underSearch p = false) ∧ ((t.half e.half).auditStarts p = false) ∧ (((t.half e.half).core p).resetting = false) ∧ (((t.half e.half).handsOver p || (t.half e.half).clearOf p ((t.half e.half).holdsOwn p)) = true) := by decide +kernel

theorem wit_AssaysAndAudits_14 :
    let e : Ev := ⟨0, 10000000000000⟩
    let p : Nat := 0
    let t : State := tick e ((sUp.upd 0 fun x => x.setFld F.TLY_AUDIT_CFG_enable 1).updCore 0 0 fun c => { c with resetting := true })
    ((t.half e.half).clk.computeUp = true) ∧ ((t.half e.half).fld F.TLY_AUDIT_CFG_enable ≠ 0) ∧ ((t.half e.half).audits = false) ∧ ((t.half e.half).auditPlaced = none) ∧ ((t.half e.half).auditPick = some p) ∧ ((t.half e.half).tally.auditVt + (t.half e.half).auditNs / 136 ≤ (t.half e.half).vt.toNat) ∧ ((t.half e.half).underSearch p = false) ∧ ((t.half e.half).auditStarts p = false) ∧ ((!((t.half e.half).core p).resetting && ((t.half e.half).handsOver p || (t.half e.half).clearOf p ((t.half e.half).holdsOwn p))) = false) := by decide +kernel

theorem wit_AssaysAndAudits_15 :
    let e : Ev := ⟨0, 10000000000000⟩
    let p : Nat := 0
    let t : State := tick e ((sUp.upd 0 fun x => x.setFld F.TLY_AUDIT_CFG_enable 1).upd 0 fun x => x.updTask 0 fun k => { k with stand := some 0 })
    ((t.half e.half).clk.computeUp = true) ∧ ((t.half e.half).fld F.TLY_AUDIT_CFG_enable ≠ 0) ∧ ((t.half e.half).audits = false) ∧ ((t.half e.half).auditPlaced = none) ∧ ((t.half e.half).auditPick = some p) ∧ ((t.half e.half).tally.auditVt + (t.half e.half).auditNs / 136 ≤ (t.half e.half).vt.toNat) ∧ ((t.half e.half).underSearch p = true) := by decide +kernel

theorem wit_AssaysAndAudits_16 :
    let e : Ev := ev 0
    let p : Nat := 5
    let t : State := tick e ((sUp.upd 0 fun x => x.setFld F.TLY_AUDIT_CFG_enable 1 |>.setFld F.TLY_AUDIT_CFG_interval_s 60).updCore 0 5 fun c => { c with located := true })
    ((t.half e.half).clk.computeUp = true) ∧ ((t.half e.half).fld F.TLY_AUDIT_CFG_enable ≠ 0) ∧ ((t.half e.half).audits = false) ∧ ((t.half e.half).auditPlaced = none) ∧ ((t.half e.half).auditPick = some p) ∧ ((t.half e.half).vt.toNat < (t.half e.half).tally.auditVt + (t.half e.half).auditNs / 136) ∧ (((t.half e.half).core p).located = true) ∧ ((t.half e.half).underSearch p = false) ∧ ((t.half e.half).auditStarts p = true) := by decide +kernel

theorem wit_AssaysAndAudits_17 :
    let e : Ev := ev 0
    let p : Nat := 5
    let fail : Bool := false
    let t : State := tick e (sUp.updCore 0 5 fun c => { c with auditing := true })
    (((t.half e.half).core p).auditing = true) ∧ (((t.half e.half).core p).run = none) ∧ (fail = false) ∧ (((t.half e.half).core p).located = false) := by decide +kernel

theorem wit_AssaysAndAudits_18 :
    let e : Ev := ev 0
    let p : Nat := 5
    let fail : Bool := false
    let t : State := tick e (sUp.updCore 0 5 fun c => { c with auditing := true, located := true })
    (((t.half e.half).core p).auditing = true) ∧ (((t.half e.half).core p).run = none) ∧ (fail = false) ∧ (((t.half e.half).core p).located = true) := by decide +kernel

theorem wit_AssaysAndAudits_19 :
    let e : Ev := ev 0
    let p : Nat := 5
    let fail : Bool := true
    let t : State := tick e (sUp.updCore 0 5 fun c => { c with auditing := true })
    (((t.half e.half).core p).auditing = true) ∧ (((t.half e.half).core p).run = none) ∧ (fail = true) := by decide +kernel

theorem wit_AssaysAndAudits_20 :
    let e : Ev := ⟨0, 100000000000000000⟩
    let p : Nat := 5
    let u : State := ((((tick ⟨0, 100000000000000000⟩ (sUp.upd 0 fun x => x.setFld F.TLY_AUDIT_CFG_enable 1)).incident 0 0x08 5 .timeout).upd 0 fun x => x.inc F.TLY_AUDIT_STAT_overdue).updCore 0 5 fun c => { c with overdue := true })
    let t : State := tick e (sUp.upd 0 fun x => x.setFld F.TLY_AUDIT_CFG_enable 1)
    ((t.half e.half).clk.computeUp = true) ∧ ((t.half e.half).fld F.TLY_AUDIT_CFG_enable ≠ 0) ∧ (((t.half e.half).coreEntry p).2 ≠ 3) ∧ (((t.half e.half).core p).auditing = false) ∧ ((t.half e.half).auditNs < ((t.half e.half).vt.toNat - ((t.half e.half).core p).auditVt) + (t.half e.half).auditNs / 136) ∧ (u = (if 2 * (t.half e.half).auditNs < ((t.half e.half).vt.toNat - ((t.half e.half).core p).auditVt) && !((t.half e.half).core p).overdue then ((t.incident e.half 0x08 p .timeout).upd e.half fun x => x.inc F.TLY_AUDIT_STAT_overdue).updCore e.half p (fun c => { c with overdue := true }) else t)) ∧ (((t.half e.half).audits || (t.half e.half).underSearch p || ((t.half e.half).core p).resetting || (t.half e.half).auditPlaced.any (fun q => decide (q ≠ p))) = false) ∧ ((t.half e.half).auditStarts p = true) := by decide +kernel

theorem wit_AssaysAndAudits_21 :
    let e : Ev := ⟨0, 100000000000000000⟩
    let p : Nat := 0
    let u : State := ((((tick ⟨0, 100000000000000000⟩ (sCrit.upd 0 fun x => x.setFld F.TLY_AUDIT_CFG_enable 1)).incident 0 0x08 0 .timeout).upd 0 fun x => x.inc F.TLY_AUDIT_STAT_overdue).updCore 0 0 fun c => { c with overdue := true })
    let t : State := tick e (sCrit.upd 0 fun x => x.setFld F.TLY_AUDIT_CFG_enable 1)
    ((t.half e.half).clk.computeUp = true) ∧ ((t.half e.half).fld F.TLY_AUDIT_CFG_enable ≠ 0) ∧ (((t.half e.half).coreEntry p).2 ≠ 3) ∧ (((t.half e.half).core p).auditing = false) ∧ ((t.half e.half).auditNs < ((t.half e.half).vt.toNat - ((t.half e.half).core p).auditVt) + (t.half e.half).auditNs / 136) ∧ (u = (if 2 * (t.half e.half).auditNs < ((t.half e.half).vt.toNat - ((t.half e.half).core p).auditVt) && !((t.half e.half).core p).overdue then ((t.incident e.half 0x08 p .timeout).upd e.half fun x => x.inc F.TLY_AUDIT_STAT_overdue).updCore e.half p (fun c => { c with overdue := true }) else t)) ∧ (((t.half e.half).audits || (t.half e.half).underSearch p || ((t.half e.half).core p).resetting || (t.half e.half).auditPlaced.any (fun q => decide (q ≠ p))) = false) ∧ ((t.half e.half).auditStarts p = false) ∧ (((t.half e.half).handsOver p || (t.half e.half).clearOf p ((t.half e.half).holdsOwn p)) = true) := by decide +kernel

theorem wit_AssaysAndAudits_22 :
    let e : Ev := ⟨0, 100000000000000000⟩
    let p : Nat := 5
    let u : State := ((((tick ⟨0, 100000000000000000⟩ (sSlot)).incident 0 0x08 5 .timeout).upd 0 fun x => x.inc F.TLY_AUDIT_STAT_overdue).updCore 0 5 fun c => { c with overdue := true })
    let t : State := tick e (sSlot)
    ((t.half e.half).clk.computeUp = true) ∧ ((t.half e.half).fld F.TLY_AUDIT_CFG_enable ≠ 0) ∧ (((t.half e.half).coreEntry p).2 ≠ 3) ∧ (((t.half e.half).core p).auditing = false) ∧ ((t.half e.half).auditNs < ((t.half e.half).vt.toNat - ((t.half e.half).core p).auditVt) + (t.half e.half).auditNs / 136) ∧ (u = (if 2 * (t.half e.half).auditNs < ((t.half e.half).vt.toNat - ((t.half e.half).core p).auditVt) && !((t.half e.half).core p).overdue then ((t.incident e.half 0x08 p .timeout).upd e.half fun x => x.inc F.TLY_AUDIT_STAT_overdue).updCore e.half p (fun c => { c with overdue := true }) else t)) ∧ (((t.half e.half).audits || (t.half e.half).underSearch p || ((t.half e.half).core p).resetting || (t.half e.half).auditPlaced.any (fun q => decide (q ≠ p))) = false) ∧ ((t.half e.half).auditStarts p = false) ∧ (((t.half e.half).handsOver p || (t.half e.half).clearOf p ((t.half e.half).holdsOwn p)) = false) ∧ ((t.half e.half).slotTaken p = true) ∧ ((t.half e.half).auditable p = true) := by decide +kernel

theorem wit_AssaysAndAudits_23 :
    let e : Ev := ⟨0, 100000000000000000⟩
    let p : Nat := 5
    let u : State := ((((tick ⟨0, 100000000000000000⟩ (sSlot.updCore 0 5 fun c => { c with run := some run3 })).incident 0 0x08 5 .timeout).upd 0 fun x => x.inc F.TLY_AUDIT_STAT_overdue).updCore 0 5 fun c => { c with overdue := true })
    let t : State := tick e (sSlot.updCore 0 5 fun c => { c with run := some run3 })
    ((t.half e.half).clk.computeUp = true) ∧ ((t.half e.half).fld F.TLY_AUDIT_CFG_enable ≠ 0) ∧ (((t.half e.half).coreEntry p).2 ≠ 3) ∧ (((t.half e.half).core p).auditing = false) ∧ ((t.half e.half).auditNs < ((t.half e.half).vt.toNat - ((t.half e.half).core p).auditVt) + (t.half e.half).auditNs / 136) ∧ (u = (if 2 * (t.half e.half).auditNs < ((t.half e.half).vt.toNat - ((t.half e.half).core p).auditVt) && !((t.half e.half).core p).overdue then ((t.incident e.half 0x08 p .timeout).upd e.half fun x => x.inc F.TLY_AUDIT_STAT_overdue).updCore e.half p (fun c => { c with overdue := true }) else t)) ∧ (((t.half e.half).audits || (t.half e.half).underSearch p || ((t.half e.half).core p).resetting || (t.half e.half).auditPlaced.any (fun q => decide (q ≠ p))) = false) ∧ ((t.half e.half).auditStarts p = false) ∧ (((t.half e.half).handsOver p || (t.half e.half).clearOf p ((t.half e.half).holdsOwn p)) = false) ∧ ((t.half e.half).slotTaken p = true) ∧ ((t.half e.half).auditable p = false) := by decide +kernel

theorem wit_AssaysAndAudits_24 :
    let e : Ev := ⟨0, 100000000000000000⟩
    let p : Nat := 5
    let u : State := ((((tick ⟨0, 100000000000000000⟩ (sSlot.upd 0 fun x => { x with win := { x.win with bank0 := [(0, slot5 - 2 ^ 24 - 2 ^ 136)] }, tally := { x.tally with standIn := [(0, 4)] } })).incident 0 0x08 5 .timeout).upd 0 fun x => x.inc F.TLY_AUDIT_STAT_overdue).updCore 0 5 fun c => { c with overdue := true })
    let t : State := tick e (sSlot.upd 0 fun x => { x with win := { x.win with bank0 := [(0, slot5 - 2 ^ 24 - 2 ^ 136)] }, tally := { x.tally with standIn := [(0, 4)] } })
    ((t.half e.half).clk.computeUp = true) ∧ ((t.half e.half).fld F.TLY_AUDIT_CFG_enable ≠ 0) ∧ (((t.half e.half).coreEntry p).2 ≠ 3) ∧ (((t.half e.half).core p).auditing = false) ∧ ((t.half e.half).auditNs < ((t.half e.half).vt.toNat - ((t.half e.half).core p).auditVt) + (t.half e.half).auditNs / 136) ∧ (u = (if 2 * (t.half e.half).auditNs < ((t.half e.half).vt.toNat - ((t.half e.half).core p).auditVt) && !((t.half e.half).core p).overdue then ((t.incident e.half 0x08 p .timeout).upd e.half fun x => x.inc F.TLY_AUDIT_STAT_overdue).updCore e.half p (fun c => { c with overdue := true }) else t)) ∧ (((t.half e.half).audits || (t.half e.half).underSearch p || ((t.half e.half).core p).resetting || (t.half e.half).auditPlaced.any (fun q => decide (q ≠ p))) = false) ∧ ((t.half e.half).auditStarts p = false) ∧ (((t.half e.half).handsOver p || (t.half e.half).clearOf p ((t.half e.half).holdsOwn p)) = false) ∧ ((t.half e.half).slotTaken p = false) := by decide +kernel

theorem wit_AssaysAndAudits_25 :
    let e : Ev := ⟨0, 100000000000000000⟩
    let p : Nat := 5
    let u : State := ((((tick ⟨0, 100000000000000000⟩ ((sUp.upd 0 fun x => x.setFld F.TLY_AUDIT_CFG_enable 1).updCore 0 5 fun c => { c with resetting := true })).incident 0 0x08 5 .timeout).upd 0 fun x => x.inc F.TLY_AUDIT_STAT_overdue).updCore 0 5 fun c => { c with overdue := true })
    let t : State := tick e ((sUp.upd 0 fun x => x.setFld F.TLY_AUDIT_CFG_enable 1).updCore 0 5 fun c => { c with resetting := true })
    ((t.half e.half).clk.computeUp = true) ∧ ((t.half e.half).fld F.TLY_AUDIT_CFG_enable ≠ 0) ∧ (((t.half e.half).coreEntry p).2 ≠ 3) ∧ (((t.half e.half).core p).auditing = false) ∧ ((t.half e.half).auditNs < ((t.half e.half).vt.toNat - ((t.half e.half).core p).auditVt) + (t.half e.half).auditNs / 136) ∧ (u = (if 2 * (t.half e.half).auditNs < ((t.half e.half).vt.toNat - ((t.half e.half).core p).auditVt) && !((t.half e.half).core p).overdue then ((t.incident e.half 0x08 p .timeout).upd e.half fun x => x.inc F.TLY_AUDIT_STAT_overdue).updCore e.half p (fun c => { c with overdue := true }) else t)) ∧ (((t.half e.half).audits || (t.half e.half).underSearch p || ((t.half e.half).core p).resetting || (t.half e.half).auditPlaced.any (fun q => decide (q ≠ p))) = true) := by decide +kernel

theorem wit_AssaysAndAudits_26 :
    let e : Ev := ev 0
    let p : Nat := 5
    let block : Nat := 2
    let t : State := tick e (sUp.updCore 0 5 fun c => { c with retireDue := some 2 })
    ((t.half e.half).atBoundary (((t.half e.half).indexOf p).getD 0xFF) = true) ∧ (((t.half e.half).core p).retireDue = some block) := by decide +kernel

theorem wit_AssaysAndAudits_27 :
    let e : Ev := ev 0
    let p : Nat := 5
    let t : State := tick e (sUp.upd 0 fun x => x.stand 0 6)
    ((t.half e.half).atBoundary (((t.half e.half).indexOf p).getD 0xFF) = true) ∧ (((t.half e.half).core p).retireDue = none) ∧ ((t.half e.half).stoodIn p = true) ∧ ((t.half e.half).dutyReturns p = true) := by decide +kernel

theorem wit_AssaysAndAudits_28 :
    let e : Ev := ev 0
    let p : Nat := 0
    let u : State := ((tick (ev 0) (sCrit.updCore 0 0 fun c => { c with auditDue := true })).upd 0 fun x => x.stand 0 1)
    let t : State := tick e ((sCrit.updCore 0 0 fun c => { c with auditDue := true }))
    ((t.half e.half).atBoundary (((t.half e.half).indexOf p).getD 0xFF) = true) ∧ (((t.half e.half).core p).retireDue = none) ∧ ((t.half e.half).stoodIn p = false) ∧ (((t.half e.half).core p).auditDue = true) ∧ ((t.half e.half).handsOver p = true) ∧ (u = (t.upd e.half fun x => x.stand (p / 17) (p + 1))) ∧ ((u.half e.half).auditStarts p = true) := by decide +kernel

theorem wit_AssaysAndAudits_29 :
    let e : Ev := ev 0
    let p : Nat := 0
    let u : State := ((tick (ev 0) (sCrit.updCore 0 0 fun c => { c with auditDue := true, run := some run3 })).upd 0 fun x => x.stand 0 1)
    let t : State := tick e ((sCrit.updCore 0 0 fun c => { c with auditDue := true, run := some run3 }))
    ((t.half e.half).atBoundary (((t.half e.half).indexOf p).getD 0xFF) = true) ∧ (((t.half e.half).core p).retireDue = none) ∧ ((t.half e.half).stoodIn p = false) ∧ (((t.half e.half).core p).auditDue = true) ∧ ((t.half e.half).handsOver p = true) ∧ (u = (t.upd e.half fun x => x.stand (p / 17) (p + 1))) ∧ ((u.half e.half).auditStarts p = false) := by decide +kernel

theorem wit_LossOfTheOtherHalf_1 :
    let e : Ev := ev 0
    let cause : LossCause := .linkLoss
    let t : State := tick e (sUp.upd 0 fun x => x.setFld F.HTC_LINK_state 0)
    (t.lost e.half cause = true) ∧ ((t.half e.half).clk.ready = true) ∧ ((t.half e.half).tally.yielding = false) ∧ (cause = .linkLoss) := by decide +kernel

theorem wit_LossOfTheOtherHalf_2 :
    let e : Ev := ev 0
    let cause : LossCause := .computeDown
    let t : State := tick e (sUp.upd 1 fun x => { x with clk := { x.clk with computeUp := false } })
    (t.lost e.half cause = true) ∧ ((t.half e.half).clk.ready = true) ∧ ((t.half e.half).tally.yielding = false) ∧ (cause = .goingDown ∨ cause = .computeDown) := by decide +kernel

theorem wit_LossOfTheOtherHalf_3 :
    let e : Ev := ev 0
    let cause : LossCause := .vtAlarm
    let t : State := tick e (sUp.upd 0 fun x => x.setFld F.HTC_VT_DIFF_alarm 1 |>.setFld F.CLK_VT_STAT_servo 1)
    (t.lost e.half cause = true) ∧ ((t.half e.half).clk.ready = true) ∧ ((t.half e.half).tally.yielding = false) ∧ (cause = .vtAlarm) ∧ ((t.half e.half).yieldsOnAlarm e.half = false) := by decide +kernel

theorem wit_LossOfTheOtherHalf_4 :
    let e : Ev := ev 1
    let cause : LossCause := .vtAlarm
    let t : State := tick e (sUp.upd 1 fun x => (x.setFld F.HTC_VT_DIFF_alarm 1).setFld F.CLK_VT_STAT_servo 1)
    (t.lost e.half cause = true) ∧ ((t.half e.half).clk.ready = true) ∧ ((t.half e.half).tally.yielding = false) ∧ (cause = .vtAlarm) ∧ ((t.half e.half).yieldsOnAlarm e.half = true) := by decide +kernel

theorem wit_LossOfTheOtherHalf_5 :
    let e : Ev := ⟨1, 3000000⟩
    let v : Nat := 0
    let t : State := tick e (sUp.upd 1 fun x => { x with tally := { x.tally with lossVt := some 0 } })
    ((t.half e.half).tally.lossVt = some v) ∧ (v + 3000000 ≤ (t.half e.half).vt.toNat) := by decide +kernel

theorem wit_LossOfTheOtherHalf_6 :
    let e : Ev := ev 1
    let t : State := tick e (sUp.upd 1 fun x => { x with tally := { x.tally with yielding := true } })
    ((t.half e.half).tally.yielding = true) ∧ ((t.half e.half).clk.resetKind = 0) := by decide +kernel

theorem wit_GatewayFrames_1 :
    let e : Ev := ev 0
    let bus : Nat := 3
    let t : State := tick e (sUp)
    (busHalf bus = e.half) ∧ (kget (fun _ => false) (t.half e.half).gtw.busOff bus = false) := by decide +kernel

theorem wit_GatewayFrames_2 :
    let e : Ev := ev 0
    let bus : Nat := 3
    let f : Frame := ⟨0, 0x123, [], 0⟩
    let u : State := ((tick (ev 0) sGate).payLookup 0 (frameKey 3 0 ⟨0, 0x123, [], 0⟩))
    let t : State := tick e (sGate)
    (busHalf bus = e.half) ∧ (kget (fun _ => false) (t.half e.half).gtw.busOff bus = false) ∧ ((t.half e.half).clk.rimUp = true) ∧ ((t.half e.half).fld F.GTW_CTL_enable ≠ 0) ∧ (u = t.payLookup e.half (frameKey bus 0 f)) ∧ ((u.half e.half).lookup (frameKey bus 0 f) = none) := by decide +kernel

theorem wit_GatewayFrames_3 :
    let e : Ev := ev 0
    let bus : Nat := 3
    let f : Frame := ⟨0, 0x123, [], 0⟩
    let u : State := ((tick (ev 0) sRoute).payLookup 0 (frameKey 3 0 ⟨0, 0x123, [], 0⟩))
    let r : Nat := route3
    let t : State := tick e (sRoute)
    (busHalf bus = e.half) ∧ (kget (fun _ => false) (t.half e.half).gtw.busOff bus = false) ∧ ((t.half e.half).clk.rimUp = true) ∧ ((t.half e.half).fld F.GTW_CTL_enable ≠ 0) ∧ (u = t.payLookup e.half (frameKey bus 0 f)) ∧ ((u.half e.half).lookup (frameKey bus 0 f) = some r) := by decide +kernel

theorem wit_GatewayFrames_4 :
    let e : Ev := ev 0
    let slot : Nat := 2
    let t : State := tick e (sGate.upd 0 fun x => x.setFld F.TEL_DP_CTL_enable 1 0)
    ((t.half e.half).clk.rimUp = true) ∧ ((t.half e.half).fld F.GTW_CTL_enable ≠ 0) ∧ ((t.half e.half).slot_ slot ≠ 0) ∧ (slEgress ((t.half e.half).slot_ slot) = 0) ∧ ((t.half e.half).portOn (slPort ((t.half e.half).slot_ slot)) = true) := by decide +kernel

theorem wit_GatewayFrames_5 :
    let e : Ev := ev 0
    let slot : Nat := 0
    let t : State := tick e (sUp)
    ((t.half e.half).clk.rimUp = true) ∧ ((t.half e.half).packDue slot = true) := by decide +kernel

theorem wit_GatewayFrames_6 :
    let e : Ev := ev 0
    let slot : Nat := 2
    let a : AcfOut := acf0
    let l : List AcfOut := []
    let t : State := tick e (sPacked.upd 0 fun x => x.setFld F.TEL_DP_CTL_enable 1 0)
    ((t.half e.half).clk.rimUp = true) ∧ ((t.half e.half).packDue slot = true) ∧ (kget (fun _ => []) (t.half e.half).gtw.packing slot = a :: l) ∧ ((t.half e.half).portOn (slPort ((t.half e.half).slot_ slot)) = true) ∧ ((t.half e.half).gateBars (slPort ((t.half e.half).slot_ slot)) (slPcp ((t.half e.half).slot_ slot)) ((a :: l).foldl (fun k b => k + b.bytes) 34) = false) := by decide +kernel

theorem wit_GatewayFrames_7 :
    let e : Ev := ev 0
    let slot : Nat := 2
    let a : AcfOut := acf0
    let l : List AcfOut := []
    let t : State := tick e (sPacked)
    ((t.half e.half).clk.rimUp = true) ∧ ((t.half e.half).packDue slot = true) ∧ (kget (fun _ => []) (t.half e.half).gtw.packing slot = a :: l) ∧ ((t.half e.half).portOn (slPort ((t.half e.half).slot_ slot)) = false) := by decide +kernel

theorem wit_GatewayFrames_8 :
    let e : Ev := ev 0
    let slot : Nat := 2
    let a : AcfOut := acf0
    let l : List AcfOut := []
    let t : State := tick e (sPacked.upd 0 fun x => { (x.setFld F.TEL_DP_CTL_enable 1 0).setFld F.TEL_DP_CTL_qbv_en 1 0 with ports := { x.ports with qbvOper := [(0, [1000, 0, 255 + 10 * 256, 2 ^ 20])] } })
    ((t.half e.half).clk.rimUp = true) ∧ ((t.half e.half).packDue slot = true) ∧ (kget (fun _ => []) (t.half e.half).gtw.packing slot = a :: l) ∧ ((t.half e.half).portOn (slPort ((t.half e.half).slot_ slot)) = true) ∧ ((t.half e.half).gateBars (slPort ((t.half e.half).slot_ slot)) (slPcp ((t.half e.half).slot_ slot)) ((a :: l).foldl (fun k b => k + b.bytes) 34) = true) := by decide +kernel

theorem wit_GatewayFrames_9 :
    let e : Ev := ev 0
    let slot : Nat := 2
    let t : State := tick e (sPacked.upd 0 fun x => { x with gtw := { x.gtw with packVt := [(2, 1)] } })
    ((t.half e.half).clk.rimUp = true) ∧ ((t.half e.half).packDue slot = false) := by decide +kernel

theorem wit_GatewayFrames_10 :
    let e : Ev := ev 0
    let gq : Nat := 15
    let t : State := tick e (sGate)
    (gq < 16) ∧ (kget (fun _ => 0) (t.half e.half).gtw.queueOwner gq ≠ 0) := by decide +kernel

theorem wit_GatewayFrames_11 :
    let e : Ev := ev 0
    let ctrl : Nat := 15
    let t : State := tick e (sUp)
    (ctrl < 16) ∧ ((t.half (busHalf ctrl)).clk.rimUp = true) := by decide +kernel

theorem wit_GatewayFrames_12 :
    let e : Ev := ev 0
    let ctrl : Nat := 0
    let t : State := tick e (sUp)
    (ctrl < 16) ∧ ((t.half (busHalf ctrl)).clk.rimUp = true) := by decide +kernel

theorem wit_GatewayMessages_1 :
    let e : Ev := ev 0
    let m : Msg := msg0
    let count : Nat := 1
    let src : Nat := 2 ^ 63
    let l : List Byte := leBytes 16 (1 + 0x1FFF * 2 ^ 112)
    let t : State := tick e (sStaged (1 + 0x1FFF * 2 ^ 112))
    let u : State := t.settleMsgs e.half
    (u.accepts e.half m 0x60 .l false = true) ∧ (count ≠ 0) ∧ (count ≤ 4096) ∧ (u.srcBytes e.half m src (16 * count) = (.ok, l)) ∧ ((u.putRoutes e.half (entries16 l)).2 = none) := by decide +kernel

theorem wit_GatewayMessages_2 :
    let e : Ev := ev 0
    let m : Msg := msg0
    let count : Nat := 1
    let src : Nat := 2 ^ 63
    let l : List Byte := leBytes 16 (1 + 3 * 2 ^ 11 + 0x1FFF * 2 ^ 112)
    let r : Nat × Status := (0, .badArg)
    let t : State := tick e (sStaged (1 + 3 * 2 ^ 11 + 0x1FFF * 2 ^ 112))
    let u : State := t.settleMsgs e.half
    (u.accepts e.half m 0x60 .l false = true) ∧ (count ≠ 0) ∧ (count ≤ 4096) ∧ (u.srcBytes e.half m src (16 * count) = (.ok, l)) ∧ ((u.putRoutes e.half (entries16 l)).2 = some r) := by decide +kernel

theorem wit_GatewayMessages_3 :
    let e : Ev := ev 0
    let m : Msg := msg0
    let count : Nat := 1
    let src : Nat := 2 ^ 63
    let l : List Byte := leBytes 16 0
    let t : State := tick e (sMsg)
    let u : State := t.settleMsgs e.half
    (u.accepts e.half m 0x61 .l false = true) ∧ (count ≠ 0) ∧ (count ≤ 4096) ∧ (u.srcBytes e.half m src (16 * count) = (.ok, l)) := by decide +kernel

theorem wit_GatewayMessages_4 :
    let e : Ev := ev 0
    let m : Msg := msg0
    let first : Nat := 4095
    let count : Nat := 1
    let src : Nat := 2 ^ 63
    let l : List Byte := leBytes 8 0
    let t : State := tick e (sMsg)
    let u : State := t.settleMsgs e.half
    (u.accepts e.half m 0x62 .l false = true) ∧ (count ≠ 0) ∧ (first + count ≤ 4096) ∧ (u.srcBytes e.half m src (8 * count) = (.ok, l)) ∧ (((entriesOf 8 count l).any fun w => badNext (w * 2 ^ 64)) = false) := by decide +kernel

theorem wit_GatewayMessages_5 :
    let e : Ev := ev 0
    let m : Msg := msg0
    let ctl : Nat := 0x10001
    let ovf : Nat := 0
    let t : State := tick e (sMsg)
    let u : State := t.settleMsgs e.half
    (u.accepts e.half m 0x63 .l false = true) ∧ (bits ovf 0 48 % 64 = 0) ∧ (bits ovf 48 5 ≤ 20) ∧ (((u.half e.half).gtwControl ctl ovf).fld F.GTW_CTL_seed = (u.half e.half).fld F.GTW_CTL_seed) ∧ (((u.half e.half).gtwControl ctl ovf).ovfCount = (u.half e.half).ovfCount) := by decide +kernel

theorem wit_GatewayMessages_6 :
    let e : Ev := ev 0
    let m : Msg := msg0
    let ctl : Nat := 0x20001
    let ovf : Nat := 0
    let w : State × Option (Nat × Status) := (let u := (tick (ev 0) sMsg).settleMsgs 0; (u.setHalf 0 { (u.half 0).gtwControl 0x20001 0 with gtw := { ((u.half 0).gtwControl 0x20001 0).gtw with hw := [], ovf := [] } }).putRoutes 0 [])
    let t : State := tick e (sMsg)
    let u : State := t.settleMsgs e.half
    (u.accepts e.half m 0x63 .l false = true) ∧ (bits ovf 0 48 % 64 = 0) ∧ (bits ovf 48 5 ≤ 20) ∧ (((u.half e.half).gtwControl ctl ovf).fld F.GTW_CTL_seed ≠ (u.half e.half).fld F.GTW_CTL_seed ∨ ((u.half e.half).gtwControl ctl ovf).ovfCount ≠ (u.half e.half).ovfCount) ∧ (w = (u.setHalf e.half { (u.half e.half).gtwControl ctl ovf with gtw := { ((u.half e.half).gtwControl ctl ovf).gtw with hw := [], ovf := [] } }).putRoutes e.half (((u.half e.half).gtw.hw ++ (u.half e.half).gtw.ovf).map (·.2))) ∧ (w.2 = none) := by decide +kernel

theorem wit_GatewayMessages_7 :
    let e : Ev := ev 0
    let m : Msg := msg0
    let ctl : Nat := 0x20001
    let ovf : Nat := 0
    let w : State × Option (Nat × Status) := (let u := (tick (ev 0) sFullRoutes).settleMsgs 0; (u.setHalf 0 { (u.half 0).gtwControl 0x20001 0 with gtw := { ((u.half 0).gtwControl 0x20001 0).gtw with hw := [], ovf := [] } }).putRoutes 0 [3 * 2 ^ 11 + 2 ^ 13])
    let r : Nat × Status := (0, .badArg)
    let t : State := tick e (sFullRoutes)
    let u : State := t.settleMsgs e.half
    (u.accepts e.half m 0x63 .l false = true) ∧ (bits ovf 0 48 % 64 = 0) ∧ (bits ovf 48 5 ≤ 20) ∧ (((u.half e.half).gtwControl ctl ovf).fld F.GTW_CTL_seed ≠ (u.half e.half).fld F.GTW_CTL_seed ∨ ((u.half e.half).gtwControl ctl ovf).ovfCount ≠ (u.half e.half).ovfCount) ∧ (w = (u.setHalf e.half { (u.half e.half).gtwControl ctl ovf with gtw := { ((u.half e.half).gtwControl ctl ovf).gtw with hw := [], ovf := [] } }).putRoutes e.half (((u.half e.half).gtw.hw ++ (u.half e.half).gtw.ovf).map (·.2))) ∧ (w.2 = some r) := by decide +kernel

theorem wit_GatewayMessages_8 :
    let e : Ev := ev 0
    let m : Msg := msg0
    let slot : Nat := 31
    let src : Nat := 2 ^ 63
    let l : List Byte := leBytes 32 0
    let t : State := tick e (sMsg)
    let u : State := t.settleMsgs e.half
    (u.accepts e.half m 0x64 .l false = true) ∧ (slot < 32) ∧ (u.srcBytes e.half m src 32 = (.ok, l)) ∧ (slHold (leNat l) ≤ 100) ∧ (slPort (leNat l) ≤ 3) ∧ (slPort (leNat l) / 2 = e.half) ∧ (slVlan (leNat l) ≤ 4095) ∧ (slPcp (leNat l) ≤ 7) := by decide +kernel

theorem wit_GatewayMessages_9 :
    let e : Ev := ev 0
    let m : Msg := msg0
    let pfx4 : Nat := 32
    let pfx6 : Nat := 128
    let t : State := tick e (sMsg)
    let u : State := t.settleMsgs e.half
    (u.accepts e.half m 0x70 .l false = true) ∧ (pfx4 ≤ 32) ∧ (pfx6 ≤ 128) := by decide +kernel

theorem wit_GatewayMessages_10 :
    let e : Ev := ev 0
    let m : Msg := msg0
    let port : Nat := 1
    let count : Nat := 1
    let cycle : Nat := 1000
    let src : Nat := 2 ^ 63
    let l : List Byte := leBytes 8 256000
    let es : List Nat := [256000]
    let t : State := tick e (sStaged 256000)
    let u : State := t.settleMsgs e.half
    (u.accepts e.half m 0x71 .l false = true) ∧ (count ≠ 0) ∧ (count ≤ 256) ∧ (port ≤ 3) ∧ (port / 2 = e.half) ∧ (1000 ≤ cycle) ∧ (cycle ≤ 1000000000) ∧ (u.srcBytes e.half m src (8 * count) = (.ok, l)) ∧ (es = (entriesOf 8 count l).map (fun w => w % 2 ^ 32)) ∧ ((es.any fun w => w / 256 = 0) = false) ∧ (es.foldl (fun n w => n + w / 256) 0 ≤ cycle) := by decide +kernel

theorem wit_GatewayMessages_11 :
    let e : Ev := ev 0
    let m : Msg := msg0
    let first : Nat := 1023
    let count : Nat := 1
    let src : Nat := 2 ^ 63
    let l : List Byte := leBytes 16 0
    let t : State := tick e (sMsg)
    let u : State := t.settleMsgs e.half
    (u.accepts e.half m 0x72 .l false = true) ∧ (count ≠ 0) ∧ (first + count ≤ 1024) ∧ (u.srcBytes e.half m src (16 * count) = (.ok, l)) := by decide +kernel

theorem wit_GatewayMessages_12 :
    let e : Ev := ev 0
    let m : Msg := msg0
    let first : Nat := 255
    let count : Nat := 1
    let src : Nat := 2 ^ 63
    let l : List Byte := leBytes 32 0
    let t : State := tick e (sMsg)
    let u : State := t.settleMsgs e.half
    (u.accepts e.half m 0x73 .l false = true) ∧ (count ≠ 0) ∧ (first + count ≤ 256) ∧ (u.srcBytes e.half m src (32 * count) = (.ok, l)) := by decide +kernel

theorem wit_HatchLink_1 :
    let e : Ev := ev 0
    let module : Nat := 1
    let ok : Bool := true
    let corrected : Bool := false
    let seq : Nat := 4095
    let t : State := tick e (sFlit)
    ((t.half e.half).clk.rimUp = true) ∧ ((t.half e.half).linkOn = true) ∧ (bits ((t.half e.half).fld F.HTC_LINK_modules_up) module 1 ≠ 0) ∧ (kget (fun _ => 0) (t.half e.half).hatch.rxSeq module = seq % 4096 + 1 ∨ kget (fun _ => 0) (t.half e.half).hatch.rxSeq module = 0) ∧ (ok = true) ∧ (corrected = false) := by decide +kernel

theorem wit_HatchLink_2 :
    let e : Ev := ev 0
    let module : Nat := 1
    let ok : Bool := true
    let corrected : Bool := true
    let seq : Nat := 4095
    let t : State := tick e (sFlit)
    ((t.half e.half).clk.rimUp = true) ∧ ((t.half e.half).linkOn = true) ∧ (bits ((t.half e.half).fld F.HTC_LINK_modules_up) module 1 ≠ 0) ∧ (kget (fun _ => 0) (t.half e.half).hatch.rxSeq module = seq % 4096 + 1 ∨ kget (fun _ => 0) (t.half e.half).hatch.rxSeq module = 0) ∧ (ok = true) ∧ (corrected = true) := by decide +kernel

theorem wit_HatchLink_3 :
    let e : Ev := ev 0
    let module : Nat := 1
    let ok : Bool := true
    let corrected : Bool := false
    let seq : Nat := 0
    let n : Nat := 4095
    let t : State := tick e (sFlit)
    ((t.half e.half).clk.rimUp = true) ∧ ((t.half e.half).linkOn = true) ∧ (bits ((t.half e.half).fld F.HTC_LINK_modules_up) module 1 ≠ 0) ∧ (kget (fun _ => 0) (t.half e.half).hatch.rxSeq module = n + 1) ∧ (n ≠ seq % 4096) ∧ (ok = true) ∧ (corrected = false) ∧ (kget (fun _ => false) (t.half e.half).hatch.replaying module = false) := by decide +kernel

theorem wit_HatchLink_4 :
    let e : Ev := ev 0
    let module : Nat := 1
    let ok : Bool := false
    let n : Nat := 4095
    let t : State := tick e (sFlit)
    ((t.half e.half).clk.rimUp = true) ∧ ((t.half e.half).linkOn = true) ∧ (bits ((t.half e.half).fld F.HTC_LINK_modules_up) module 1 ≠ 0) ∧ (kget (fun _ => 0) (t.half e.half).hatch.rxSeq module = n + 1) ∧ (ok = false) ∧ (kget (fun _ => false) (t.half e.half).hatch.replaying module = false) := by decide +kernel

theorem wit_HatchLink_5 :
    let e : Ev := ev 0
    let module : Nat := 1
    let lane : Nat := 2
    let l : List Nat := []
    let t : State := tick e (sUp.upd 0 fun x => { x with hatch := { x.hatch with trainFailed := true } })
    ((t.half e.half).clk.rimUp = true) ∧ (16 ≤ (within (t.half e.half).vt.toNat 1000000000 (kget (fun _ => []) (t.half e.half).hatch.laneReplays (module * 64 + lane))).length ∨ (t.half e.half).hatch.trainFailed = true) ∧ (bits (t.half e.half).svc.record.modules (2 * module) 2 ≠ 2) ∧ (l = kget (fun _ => []) (t.half e.half).svc.record.laneFix module) ∧ (lane ∉ l) ∧ (l.length < 4) := by decide +kernel

theorem wit_HatchLink_6 :
    let e : Ev := ev 0
    let module : Nat := 1
    let lane : Nat := 2
    let l : List Nat := [3, 4, 5, 6]
    let t : State := tick e (sUp.upd 0 fun x => { x.setRecord (fun r => { r with laneFix := [(1, [3, 4, 5, 6])] }) with hatch := { x.hatch with laneReplays := [(66, List.replicate 16 0)] } })
    ((t.half e.half).clk.rimUp = true) ∧ (16 ≤ (within (t.half e.half).vt.toNat 1000000000 (kget (fun _ => []) (t.half e.half).hatch.laneReplays (module * 64 + lane))).length ∨ (t.half e.half).hatch.trainFailed = true) ∧ (bits (t.half e.half).svc.record.modules (2 * module) 2 ≠ 2) ∧ (l = kget (fun _ => []) (t.half e.half).svc.record.laneFix module) ∧ (lane ∉ l) ∧ (4 ≤ l.length) := by decide +kernel

theorem wit_HatchLink_7 :
    let e : Ev := ev 0
    let t : State := tick e (sUp)
    ((t.half e.half).clk.rimUp = true) := by decide +kernel

theorem wit_HatchLink_8 :
    let e : Ev := ev 0
    let t : State := tick e (sUp)
    ((t.half e.half).clk.rimUp = true) ∧ ((t.half e.half).linkOn = true) := by decide +kernel

theorem wit_HatchLink_9 :
    let e : Ev := ev 0
    let peerRelease : Nat := 1
    let ok : Bool := true
    let u : State := (tick (ev 0) (sUp.upd 0 fun x => x.setFld F.HTC_LINK_state 0)).uniteHatch
    let t : State := tick e (sUp.upd 0 fun x => x.setFld F.HTC_LINK_state 0)
    ((t.half e.half).clk.rimUp = true) ∧ ((t.half e.half).linkOn = false) ∧ (u = t.uniteHatch) ∧ (ok = true) ∧ ((u.half (peer e.half)).clk.rimUp = true) ∧ ((u.half e.half).modulesUp ≠ 0) ∧ (oneApart ((u.half e.half).fld F.SVC_FW_STAT_release) peerRelease = true) := by decide +kernel

theorem wit_HatchLink_10 :
    let e : Ev := ev 0
    let peerRelease : Nat := 7
    let ok : Bool := true
    let u : State := (tick (ev 0) (sUp.upd 0 fun x => x.setFld F.HTC_LINK_state 0)).uniteHatch
    let t : State := tick e (sUp.upd 0 fun x => x.setFld F.HTC_LINK_state 0)
    ((t.half e.half).clk.rimUp = true) ∧ ((t.half e.half).linkOn = false) ∧ (u = t.uniteHatch) ∧ (ok = true) ∧ ((u.half (peer e.half)).clk.rimUp = true) ∧ ((u.half e.half).modulesUp ≠ 0) ∧ (oneApart ((u.half e.half).fld F.SVC_FW_STAT_release) peerRelease = false) ∧ ((u.half e.half).clk.ready = true) := by decide +kernel

theorem wit_HatchLink_11 :
    let e : Ev := ev 0
    let peerRelease : Nat := 7
    let ok : Bool := true
    let u : State := (tick (ev 0) (sUp.upd 0 fun x => { x.setFld F.HTC_LINK_state 0 with clk := { x.clk with ready := false } })).uniteHatch
    let t : State := tick e (sUp.upd 0 fun x => { x.setFld F.HTC_LINK_state 0 with clk := { x.clk with ready := false } })
    ((t.half e.half).clk.rimUp = true) ∧ ((t.half e.half).linkOn = false) ∧ (u = t.uniteHatch) ∧ (ok = true) ∧ ((u.half (peer e.half)).clk.rimUp = true) ∧ ((u.half e.half).modulesUp ≠ 0) ∧ (oneApart ((u.half e.half).fld F.SVC_FW_STAT_release) peerRelease = false) ∧ ((u.half e.half).clk.ready = false) := by decide +kernel

theorem wit_HatchLink_12 :
    let e : Ev := ev 0
    let ok : Bool := false
    let u : State := (tick (ev 0) (sUp.upd 0 fun x => x.setFld F.HTC_LINK_state 0)).uniteHatch
    let t : State := tick e (sUp.upd 0 fun x => x.setFld F.HTC_LINK_state 0)
    ((t.half e.half).clk.rimUp = true) ∧ ((t.half e.half).linkOn = false) ∧ (u = t.uniteHatch) ∧ (ok = false ∨ (u.half (peer e.half)).clk.rimUp = false ∨ (u.half e.half).modulesUp = 0) ∧ ((u.half e.half).fld F.CLK_RESET_CAUSE_cause ≠ 0x11 ∨ (u.half e.half).clk.ready = true) := by decide +kernel

theorem wit_HatchLink_13 :
    let e : Ev := ev 0
    let ok : Bool := false
    let u : State := (tick (ev 0) (sUp.upd 0 fun x => { (x.setFld F.HTC_LINK_state 0).setFld F.CLK_RESET_CAUSE_cause 0x11 with clk := { x.clk with ready := false } })).uniteHatch
    let t : State := tick e (sUp.upd 0 fun x => { (x.setFld F.HTC_LINK_state 0).setFld F.CLK_RESET_CAUSE_cause 0x11 with clk := { x.clk with ready := false } })
    ((t.half e.half).clk.rimUp = true) ∧ ((t.half e.half).linkOn = false) ∧ (u = t.uniteHatch) ∧ (ok = false ∨ (u.half (peer e.half)).clk.rimUp = false ∨ (u.half e.half).modulesUp = 0) ∧ ((u.half e.half).fld F.CLK_RESET_CAUSE_cause = 0x11) ∧ ((u.half e.half).clk.ready = false) := by decide +kernel

theorem wit_HatchLink_14 :
    let e : Ev := ev 0
    let code : Nat := 6
    let t : State := tick e (sUp)
    ((t.half e.half).clk.rimUp = true) ∧ ((t.half e.half).linkOn = true) ∧ (1 ≤ code) ∧ (code ≤ 6) := by decide +kernel

theorem wit_HatchRequests_1 :
    let e : Ev := ev 0
    let k : Pkt := ⟨0, 0, 0⟩
    let addr : Nat := 0x1FFFFF
    let data : List Byte := [5]
    let r : HatchIn := { type := 1, pkt := ⟨0, 0, 0⟩, hart := 0, addr := 0x1FFFFF, len := 1, op := .swap, data := [5], val := 0 }
    let w : State := ((((tick (ev 0) (sUp))).drain 0).upd (peer 0) fun x => x.fillBuckets ((tick (ev 0) (sUp))).now).drainOut 0
    let v : State := ((((((tick (ev 0) (sUp))).drain 0).upd (peer 0) fun x => x.fillBuckets ((tick (ev 0) (sUp))).now).drainOut 0).upd (peer 0) fun x => x.payBridge 0 1)
    let t : State := tick e (sUp)
    (t.takes e.half false = true) ∧ (badSpan addr data.length = false) ∧ (r = { type := 1, pkt := k, hart := 0, addr := addr, len := data.length, op := .swap, data := data, val := 0 }) ∧ (w = ((t.drain e.half).upd (peer e.half) fun x => x.fillBuckets t.now).drainOut e.half) ∧ (w.bridgeHolds e.half r = false) ∧ ((w.half e.half).creditOk r = true) ∧ (v = w.upd (peer e.half) (fun x => x.payBridge k.mark data.length)) ∧ (v.admits e.half r = true) := by decide +kernel

theorem wit_HatchRequests_2 :
    let e : Ev := ev 0
    let k : Pkt := ⟨14, 0, 0⟩
    let addr : Nat := 0x1FFFFF
    let data : List Byte := [5]
    let r : HatchIn := { type := 1, pkt := ⟨14, 0, 0⟩, hart := 0, addr := 0x1FFFFF, len := 1, op := .swap, data := [5], val := 0 }
    let w : State := ((((tick (ev 0) (sUp.upd 0 fun x => x.setFld F.MNT_CLASS_CFG_borrow 0 0 14))).drain 0).upd (peer 0) fun x => x.fillBuckets ((tick (ev 0) (sUp.upd 0 fun x => x.setFld F.MNT_CLASS_CFG_borrow 0 0 14))).now).drainOut 0
    let v : State := ((((((tick (ev 0) (sUp.upd 0 fun x => x.setFld F.MNT_CLASS_CFG_borrow 0 0 14))).drain 0).upd (peer 0) fun x => x.fillBuckets ((tick (ev 0) (sUp.upd 0 fun x => x.setFld F.MNT_CLASS_CFG_borrow 0 0 14))).now).drainOut 0).upd (peer 0) fun x => x.payBridge 14 1)
    let t : State := tick e (sUp.upd 0 fun x => x.setFld F.MNT_CLASS_CFG_borrow 0 0 14)
    (t.takes e.half false = true) ∧ (badSpan addr data.length = false) ∧ (r = { type := 1, pkt := k, hart := 0, addr := addr, len := data.length, op := .swap, data := data, val := 0 }) ∧ (w = ((t.drain e.half).upd (peer e.half) fun x => x.fillBuckets t.now).drainOut e.half) ∧ (w.bridgeHolds e.half r = false) ∧ ((w.half e.half).creditOk r = true) ∧ (v = w.upd (peer e.half) (fun x => x.payBridge k.mark data.length)) ∧ (v.admits e.half r = false) := by decide +kernel

theorem wit_HatchRequests_3 :
    let e : Ev := ev 0
    let k : Pkt := ⟨14, 0, 0⟩
    let addr : Nat := 0x1FFFFF
    let data : List Byte := [5]
    let r : HatchIn := { type := 1, pkt := ⟨14, 0, 0⟩, hart := 0, addr := 0x1FFFFF, len := 1, op := .swap, data := [5], val := 0 }
    let w : State := ((((tick (ev 0) (sUp.upd 1 fun x => x.setFld F.MNT_CLASS_CFG_borrow 0 0 14))).drain 0).upd (peer 0) fun x => x.fillBuckets ((tick (ev 0) (sUp.upd 1 fun x => x.setFld F.MNT_CLASS_CFG_borrow 0 0 14))).now).drainOut 0
    let t : State := tick e (sUp.upd 1 fun x => x.setFld F.MNT_CLASS_CFG_borrow 0 0 14)
    (t.takes e.half false = true) ∧ (badSpan addr data.length = false) ∧ (r = { type := 1, pkt := k, hart := 0, addr := addr, len := data.length, op := .swap, data := data, val := 0 }) ∧ (w = ((t.drain e.half).upd (peer e.half) fun x => x.fillBuckets t.now).drainOut e.half) ∧ (w.bridgeHolds e.half r = true) := by decide +kernel

theorem wit_HatchRequests_4 :
    let e : Ev := ev 0
    let addr : Nat := 0xFF
    let data : List Byte := [5, 6]
    let t : State := tick e (sUp)
    (t.takes e.half false = true) ∧ (badSpan addr data.length = true) := by decide +kernel

theorem wit_HatchRequests_5 :
    let e : Ev := ev 0
    let k : Pkt := ⟨0, 0, 0⟩
    let addr : Nat := 0
    let len : Nat := 256
    let i : State := ((tick (ev 0) (sUp)).issued 0 ⟨0, 0, 0⟩ 256)
    let r : HatchIn := { type := 2, pkt := ⟨0, 0, 0⟩, hart := 0, addr := 0, len := 256, op := .swap, data := [], val := 0 }
    let w : State := (((((tick (ev 0) (sUp)).issued 0 ⟨0, 0, 0⟩ 256)).drain 0).upd (peer 0) fun x => x.fillBuckets (((tick (ev 0) (sUp)).issued 0 ⟨0, 0, 0⟩ 256)).now).drainOut 0
    let v : State := (((((((tick (ev 0) (sUp)).issued 0 ⟨0, 0, 0⟩ 256)).drain 0).upd (peer 0) fun x => x.fillBuckets (((tick (ev 0) (sUp)).issued 0 ⟨0, 0, 0⟩ 256)).now).drainOut 0).upd (peer 0) fun x => x.payBridge 0 256)
    let t : State := tick e (sUp)
    (t.takes e.half false = true) ∧ (badSpan addr len = false) ∧ (i = t.issued e.half k len) ∧ (r = { type := 2, pkt := k, hart := 0, addr := addr, len := len, op := .swap, data := [], val := 0 }) ∧ (w = ((i.drain e.half).upd (peer e.half) fun x => x.fillBuckets i.now).drainOut e.half) ∧ (w.bridgeHolds e.half r = false) ∧ ((w.half e.half).creditOk r = true) ∧ (v = w.upd (peer e.half) (fun x => x.payBridge k.mark len)) ∧ (v.admits e.half r = true) := by decide +kernel

theorem wit_HatchRequests_6 :
    let e : Ev := ev 0
    let k : Pkt := ⟨14, 0, 0⟩
    let addr : Nat := 0
    let len : Nat := 256
    let i : State := ((tick (ev 0) (sUp.upd 0 fun x => x.setFld F.MNT_CLASS_CFG_borrow 0 0 14)).issued 0 ⟨14, 0, 0⟩ 256)
    let r : HatchIn := { type := 2, pkt := ⟨14, 0, 0⟩, hart := 0, addr := 0, len := 256, op := .swap, data := [], val := 0 }
    let w : State := (((((tick (ev 0) (sUp.upd 0 fun x => x.setFld F.MNT_CLASS_CFG_borrow 0 0 14)).issued 0 ⟨14, 0, 0⟩ 256)).drain 0).upd (peer 0) fun x => x.fillBuckets (((tick (ev 0) (sUp.upd 0 fun x => x.setFld F.MNT_CLASS_CFG_borrow 0 0 14)).issued 0 ⟨14, 0, 0⟩ 256)).now).drainOut 0
    let v : State := (((((((tick (ev 0) (sUp.upd 0 fun x => x.setFld F.MNT_CLASS_CFG_borrow 0 0 14)).issued 0 ⟨14, 0, 0⟩ 256)).drain 0).upd (peer 0) fun x => x.fillBuckets (((tick (ev 0) (sUp.upd 0 fun x => x.setFld F.MNT_CLASS_CFG_borrow 0 0 14)).issued 0 ⟨14, 0, 0⟩ 256)).now).drainOut 0).upd (peer 0) fun x => x.payBridge 14 256)
    let t : State := tick e (sUp.upd 0 fun x => x.setFld F.MNT_CLASS_CFG_borrow 0 0 14)
    (t.takes e.half false = true) ∧ (badSpan addr len = false) ∧ (i = t.issued e.half k len) ∧ (r = { type := 2, pkt := k, hart := 0, addr := addr, len := len, op := .swap, data := [], val := 0 }) ∧ (w = ((i.drain e.half).upd (peer e.half) fun x => x.fillBuckets i.now).drainOut e.half) ∧ (w.bridgeHolds e.half r = false) ∧ ((w.half e.half).creditOk r = true) ∧ (v = w.upd (peer e.half) (fun x => x.payBridge k.mark len)) ∧ (v.admits e.half r = false) := by decide +kernel

theorem wit_HatchRequests_7 :
    let e : Ev := ev 0
    let k : Pkt := ⟨14, 0, 0⟩
    let addr : Nat := 0
    let len : Nat := 256
    let i : State := ((tick (ev 0) (sUp.upd 1 fun x => x.setFld F.MNT_CLASS_CFG_borrow 0 0 14)).issued 0 ⟨14, 0, 0⟩ 256)
    let r : HatchIn := { type := 2, pkt := ⟨14, 0, 0⟩, hart := 0, addr := 0, len := 256, op := .swap, data := [], val := 0 }
    let w : State := (((((tick (ev 0) (sUp.upd 1 fun x => x.setFld F.MNT_CLASS_CFG_borrow 0 0 14)).issued 0 ⟨14, 0, 0⟩ 256)).drain 0).upd (peer 0) fun x => x.fillBuckets (((tick (ev 0) (sUp.upd 1 fun x => x.setFld F.MNT_CLASS_CFG_borrow 0 0 14)).issued 0 ⟨14, 0, 0⟩ 256)).now).drainOut 0
    let t : State := tick e (sUp.upd 1 fun x => x.setFld F.MNT_CLASS_CFG_borrow 0 0 14)
    (t.takes e.half false = true) ∧ (badSpan addr len = false) ∧ (i = t.issued e.half k len) ∧ (r = { type := 2, pkt := k, hart := 0, addr := addr, len := len, op := .swap, data := [], val := 0 }) ∧ (w = ((i.drain e.half).upd (peer e.half) fun x => x.fillBuckets i.now).drainOut e.half) ∧ (w.bridgeHolds e.half r = true) := by decide +kernel

theorem wit_HatchRequests_8 :
    let e : Ev := ev 0
    let k : Pkt := ⟨14, 0, 0⟩
    let addr : Nat := 0
    let len : Nat := 256
    let i : State := ((tick (ev 0) ((sUp.upd 0 fun x => x.setFld F.MNT_CLASS_CFG_borrow 0 0 14).upd 0 fun x => { x with hatch := { x.hatch with inbox := List.replicate 16 { type := 2, pkt := ⟨14, 0, 0⟩, hart := 0, addr := 0, len := 256, op := .swap, data := [], val := 0 } } })).issued 0 ⟨14, 0, 0⟩ 256)
    let r : HatchIn := { type := 2, pkt := ⟨14, 0, 0⟩, hart := 0, addr := 0, len := 256, op := .swap, data := [], val := 0 }
    let w : State := (((((tick (ev 0) ((sUp.upd 0 fun x => x.setFld F.MNT_CLASS_CFG_borrow 0 0 14).upd 0 fun x => { x with hatch := { x.hatch with inbox := List.replicate 16 { type := 2, pkt := ⟨14, 0, 0⟩, hart := 0, addr := 0, len := 256, op := .swap, data := [], val := 0 } } })).issued 0 ⟨14, 0, 0⟩ 256)).drain 0).upd (peer 0) fun x => x.fillBuckets (((tick (ev 0) ((sUp.upd 0 fun x => x.setFld F.MNT_CLASS_CFG_borrow 0 0 14).upd 0 fun x => { x with hatch := { x.hatch with inbox := List.replicate 16 { type := 2, pkt := ⟨14, 0, 0⟩, hart := 0, addr := 0, len := 256, op := .swap, data := [], val := 0 } } })).issued 0 ⟨14, 0, 0⟩ 256)).now).drainOut 0
    let t : State := tick e ((sUp.upd 0 fun x => x.setFld F.MNT_CLASS_CFG_borrow 0 0 14).upd 0 fun x => { x with hatch := { x.hatch with inbox := List.replicate 16 { type := 2, pkt := ⟨14, 0, 0⟩, hart := 0, addr := 0, len := 256, op := .swap, data := [], val := 0 } } })
    (t.takes e.half false = true) ∧ (badSpan addr len = false) ∧ (i = t.issued e.half k len) ∧ (r = { type := 2, pkt := k, hart := 0, addr := addr, len := len, op := .swap, data := [], val := 0 }) ∧ (w = ((i.drain e.half).upd (peer e.half) fun x => x.fillBuckets i.now).drainOut e.half) ∧ (w.bridgeHolds e.half r = false) ∧ ((w.half e.half).creditOk r = false) := by decide +kernel

theorem wit_HatchRequests_9 :
    let e : Ev := ev 0
    let addr : Nat := 0
    let len : Nat := 257
    let t : State := tick e (sUp)
    (t.takes e.half false = true) ∧ (badSpan addr len = true) := by decide +kernel

theorem wit_HatchRequests_10 :
    let e : Ev := ev 0
    let k : Pkt := ⟨0, 0, 0⟩
    let op : AmoOp := .add
    let addr : Nat := 0x10000009
    let width : Nat := 4
    let val : Nat := 1
    let i : State := ((tick (ev 0) (sUp)).issued 0 ⟨0, 0, 0⟩ 4)
    let r : HatchIn := { type := 3, pkt := ⟨0, 0, 0⟩, hart := 0, addr := 0x10000009, len := 4, op := .add, data := [], val := 1 }
    let w : State := (((((tick (ev 0) (sUp)).issued 0 ⟨0, 0, 0⟩ 4)).drain 0).upd (peer 0) fun x => x.fillBuckets (((tick (ev 0) (sUp)).issued 0 ⟨0, 0, 0⟩ 4)).now).drainOut 0
    let v : State := (((((((tick (ev 0) (sUp)).issued 0 ⟨0, 0, 0⟩ 4)).drain 0).upd (peer 0) fun x => x.fillBuckets (((tick (ev 0) (sUp)).issued 0 ⟨0, 0, 0⟩ 4)).now).drainOut 0).upd (peer 0) fun x => x.payBridge 0 4)
    let u : State := ((((((((tick (ev 0) (sUp)).issued 0 ⟨0, 0, 0⟩ 4)).drain 0).upd (peer 0) fun x => x.fillBuckets (((tick (ev 0) (sUp)).issued 0 ⟨0, 0, 0⟩ 4)).now).drainOut 0).upd (peer 0) fun x => x.payBridge 0 4)).pay 0 136 0 true 0x10000009 4
    let t : State := tick e (sUp)
    (t.takes e.half false = true) ∧ (width = 4 ∨ width = 8) ∧ (i = t.issued e.half k width) ∧ (r = { type := 3, pkt := k, hart := 0, addr := addr, len := width, op := op, data := [], val := val }) ∧ (w = ((i.drain e.half).upd (peer e.half) fun x => x.fillBuckets i.now).drainOut e.half) ∧ (w.bridgeHolds e.half r = false) ∧ ((w.half e.half).creditOk r = true) ∧ (v = w.upd (peer e.half) (fun x => x.payBridge k.mark width)) ∧ (v.admits e.half r = true) ∧ (u = v.pay e.half 136 k.mark true addr width) ∧ (u.access e.half (wordAt addr width) width = .ok) := by decide +kernel

theorem wit_HatchRequests_11 :
    let e : Ev := ev 0
    let k : Pkt := ⟨14, 0, 0⟩
    let op : AmoOp := .add
    let addr : Nat := 0x10000009
    let width : Nat := 4
    let val : Nat := 1
    let i : State := ((tick (ev 0) (sUp.upd 0 fun x => x.setFld F.MNT_CLASS_CFG_borrow 0 0 14)).issued 0 ⟨14, 0, 0⟩ 4)
    let r : HatchIn := { type := 3, pkt := ⟨14, 0, 0⟩, hart := 0, addr := 0x10000009, len := 4, op := .add, data := [], val := 1 }
    let w : State := (((((tick (ev 0) (sUp.upd 0 fun x => x.setFld F.MNT_CLASS_CFG_borrow 0 0 14)).issued 0 ⟨14, 0, 0⟩ 4)).drain 0).upd (peer 0) fun x => x.fillBuckets (((tick (ev 0) (sUp.upd 0 fun x => x.setFld F.MNT_CLASS_CFG_borrow 0 0 14)).issued 0 ⟨14, 0, 0⟩ 4)).now).drainOut 0
    let v : State := (((((((tick (ev 0) (sUp.upd 0 fun x => x.setFld F.MNT_CLASS_CFG_borrow 0 0 14)).issued 0 ⟨14, 0, 0⟩ 4)).drain 0).upd (peer 0) fun x => x.fillBuckets (((tick (ev 0) (sUp.upd 0 fun x => x.setFld F.MNT_CLASS_CFG_borrow 0 0 14)).issued 0 ⟨14, 0, 0⟩ 4)).now).drainOut 0).upd (peer 0) fun x => x.payBridge 14 4)
    let t : State := tick e (sUp.upd 0 fun x => x.setFld F.MNT_CLASS_CFG_borrow 0 0 14)
    (t.takes e.half false = true) ∧ (width = 4 ∨ width = 8) ∧ (i = t.issued e.half k width) ∧ (r = { type := 3, pkt := k, hart := 0, addr := addr, len := width, op := op, data := [], val := val }) ∧ (w = ((i.drain e.half).upd (peer e.half) fun x => x.fillBuckets i.now).drainOut e.half) ∧ (w.bridgeHolds e.half r = false) ∧ ((w.half e.half).creditOk r = true) ∧ (v = w.upd (peer e.half) (fun x => x.payBridge k.mark width)) ∧ (v.admits e.half r = false) := by decide +kernel

theorem wit_HatchRequests_12 :
    let e : Ev := ev 0
    let k : Pkt := ⟨14, 0, 0⟩
    let op : AmoOp := .add
    let addr : Nat := 0x10000009
    let width : Nat := 4
    let val : Nat := 1
    let i : State := ((tick (ev 0) (sUp.upd 1 fun x => x.setFld F.MNT_CLASS_CFG_borrow 0 0 14)).issued 0 ⟨14, 0, 0⟩ 4)
    let r : HatchIn := { type := 3, pkt := ⟨14, 0, 0⟩, hart := 0, addr := 0x10000009, len := 4, op := .add, data := [], val := 1 }
    let w : State := (((((tick (ev 0) (sUp.upd 1 fun x => x.setFld F.MNT_CLASS_CFG_borrow 0 0 14)).issued 0 ⟨14, 0, 0⟩ 4)).drain 0).upd (peer 0) fun x => x.fillBuckets (((tick (ev 0) (sUp.upd 1 fun x => x.setFld F.MNT_CLASS_CFG_borrow 0 0 14)).issued 0 ⟨14, 0, 0⟩ 4)).now).drainOut 0
    let t : State := tick e (sUp.upd 1 fun x => x.setFld F.MNT_CLASS_CFG_borrow 0 0 14)
    (t.takes e.half false = true) ∧ (width = 4 ∨ width = 8) ∧ (i = t.issued e.half k width) ∧ (r = { type := 3, pkt := k, hart := 0, addr := addr, len := width, op := op, data := [], val := val }) ∧ (w = ((i.drain e.half).upd (peer e.half) fun x => x.fillBuckets i.now).drainOut e.half) ∧ (w.bridgeHolds e.half r = true) := by decide +kernel

theorem wit_HatchRequests_13 :
    let e : Ev := ev 0
    let k : Pkt := ⟨14, 0, 0⟩
    let op : AmoOp := .add
    let addr : Nat := 0x10000009
    let width : Nat := 4
    let val : Nat := 1
    let i : State := ((tick (ev 0) ((sUp.upd 0 fun x => x.setFld F.MNT_CLASS_CFG_borrow 0 0 14).upd 0 fun x => { x with hatch := { x.hatch with inbox := List.replicate 16 { type := 3, pkt := ⟨14, 0, 0⟩, hart := 0, addr := 0x10000009, len := 4, op := .add, data := [], val := 1 } } })).issued 0 ⟨14, 0, 0⟩ 4)
    let r : HatchIn := { type := 3, pkt := ⟨14, 0, 0⟩, hart := 0, addr := 0x10000009, len := 4, op := .add, data := [], val := 1 }
    let w : State := (((((tick (ev 0) ((sUp.upd 0 fun x => x.setFld F.MNT_CLASS_CFG_borrow 0 0 14).upd 0 fun x => { x with hatch := { x.hatch with inbox := List.replicate 16 { type := 3, pkt := ⟨14, 0, 0⟩, hart := 0, addr := 0x10000009, len := 4, op := .add, data := [], val := 1 } } })).issued 0 ⟨14, 0, 0⟩ 4)).drain 0).upd (peer 0) fun x => x.fillBuckets (((tick (ev 0) ((sUp.upd 0 fun x => x.setFld F.MNT_CLASS_CFG_borrow 0 0 14).upd 0 fun x => { x with hatch := { x.hatch with inbox := List.replicate 16 { type := 3, pkt := ⟨14, 0, 0⟩, hart := 0, addr := 0x10000009, len := 4, op := .add, data := [], val := 1 } } })).issued 0 ⟨14, 0, 0⟩ 4)).now).drainOut 0
    let t : State := tick e ((sUp.upd 0 fun x => x.setFld F.MNT_CLASS_CFG_borrow 0 0 14).upd 0 fun x => { x with hatch := { x.hatch with inbox := List.replicate 16 { type := 3, pkt := ⟨14, 0, 0⟩, hart := 0, addr := 0x10000009, len := 4, op := .add, data := [], val := 1 } } })
    (t.takes e.half false = true) ∧ (width = 4 ∨ width = 8) ∧ (i = t.issued e.half k width) ∧ (r = { type := 3, pkt := k, hart := 0, addr := addr, len := width, op := op, data := [], val := val }) ∧ (w = ((i.drain e.half).upd (peer e.half) fun x => x.fillBuckets i.now).drainOut e.half) ∧ (w.bridgeHolds e.half r = false) ∧ ((w.half e.half).creditOk r = false) := by decide +kernel

theorem wit_HatchRequests_14 :
    let e : Ev := ev 0
    let width : Nat := 2
    let t : State := tick e (sUp)
    (t.takes e.half false = true) ∧ (width ≠ 4) ∧ (width ≠ 8) := by decide +kernel

theorem wit_HatchRequests_15 :
    let e : Ev := ev 0
    let tag : Nat := 9
    let data : List Byte := [1, 2, 3, 4]
    let t : State := tick e (sTag)
    (t.takes e.half false = true) ∧ (kget (fun _ => 0) (t.half e.half).hatch.outstanding tag = data.length + 1) := by decide +kernel

theorem wit_HatchRequests_16 :
    let e : Ev := ev 0
    let tag : Nat := 8
    let t : State := tick e (sTag)
    (t.takes e.half false = true) ∧ (kget (fun _ => 0) (t.half e.half).hatch.outstanding tag = 0) := by decide +kernel

theorem wit_HatchRequests_17 :
    let e : Ev := ev 0
    let tag : Nat := 9
    let data : List Byte := [1]
    let n : Nat := 4
    let t : State := tick e (sTag)
    (t.takes e.half false = true) ∧ (kget (fun _ => 0) (t.half e.half).hatch.outstanding tag = n + 1) ∧ (n ≠ data.length) := by decide +kernel

theorem wit_HatchRequests_18 :
    let e : Ev := ev 0
    let tag : Nat := 9
    let st : Status := .timeout
    let n : Nat := 4
    let t : State := tick e (sTag)
    (t.takes e.half false = true) ∧ (kget (fun _ => 0) (t.half e.half).hatch.outstanding tag = n + 1) ∧ (st = .ok ∨ kget (fun _ => 0) (t.half e.half).hatch.askers tag - 1 < 133 ∨ 135 < kget (fun _ => 0) (t.half e.half).hatch.askers tag - 1) := by decide +kernel

theorem wit_HatchRequests_19 :
    let e : Ev := ev 0
    let tag : Nat := 9
    let st : Status := .timeout
    let n : Nat := 4
    let t : State := tick e (sTag.upd 0 fun x => { x with hatch := { x.hatch with askers := [(9, 134)] } })
    (t.takes e.half false = true) ∧ (kget (fun _ => 0) (t.half e.half).hatch.outstanding tag = n + 1) ∧ (st ≠ .ok) ∧ (133 ≤ kget (fun _ => 0) (t.half e.half).hatch.askers tag - 1) ∧ (kget (fun _ => 0) (t.half e.half).hatch.askers tag - 1 ≤ 135) ∧ ((∀ i < 12, ((t.half e.half).hart i).vault = none)) := by decide +kernel

theorem wit_HatchRequests_20 :
    let e : Ev := ev 0
    let tag : Nat := 8
    let t : State := tick e (sTag)
    (t.takes e.half false = true) ∧ (kget (fun _ => 0) (t.half e.half).hatch.outstanding tag = 0) := by decide +kernel

theorem wit_HatchRequests_21 :
    let e : Ev := ev 0
    let addr : Nat := 0x10000000
    let data : List Byte := [5]
    let t : State := tick e (sUp)
    (t.takes e.half true = true) ∧ (badSpan addr data.length = false) ∧ (t.present addr = true) := by decide +kernel

theorem wit_HatchRequests_22 :
    let e : Ev := ev 0
    let addr : Nat := 2 ^ 47
    let data : List Byte := [5]
    let t : State := tick e (sUp)
    (t.takes e.half true = true) ∧ (badSpan addr data.length = false) ∧ (t.present addr = false) := by decide +kernel

theorem wit_Semaphores_1 :
    let e : Ev := ev 0
    let k : Pkt := ⟨0, 0, 0⟩
    let hart : Nat := 1
    let addr : Nat := 0x10000009
    let width : Nat := 8
    let i : State := ((tick (ev 0) (sUp)).issued 0 ⟨0, 0, 0⟩ 8)
    let r : HatchIn := { type := 4, pkt := ⟨0, 0, 0⟩, hart := 1, addr := 0x10000009, len := 8, op := .swap, data := [], val := 0 }
    let w : State := (((((tick (ev 0) (sUp)).issued 0 ⟨0, 0, 0⟩ 8)).drain 0).upd (peer 0) fun x => x.fillBuckets (((tick (ev 0) (sUp)).issued 0 ⟨0, 0, 0⟩ 8)).now).drainOut 0
    let v : State := (((((((tick (ev 0) (sUp)).issued 0 ⟨0, 0, 0⟩ 8)).drain 0).upd (peer 0) fun x => x.fillBuckets (((tick (ev 0) (sUp)).issued 0 ⟨0, 0, 0⟩ 8)).now).drainOut 0).upd (peer 0) fun x => x.payBridge 0 8)
    let u : State := ((((((((((tick (ev 0) (sUp)).issued 0 ⟨0, 0, 0⟩ 8)).drain 0).upd (peer 0) fun x => x.fillBuckets (((tick (ev 0) (sUp)).issued 0 ⟨0, 0, 0⟩ 8)).now).drainOut 0).upd (peer 0) fun x => x.payBridge 0 8)).pay 0 136 0 true 0x10000009 8).upd 0 fun x => x.expireSem 0)
    let t : State := tick e (sUp)
    (t.takes e.half false = true) ∧ (width = 4 ∨ width = 8) ∧ (i = t.issued e.half k width) ∧ (r = { type := 4, pkt := k, hart := hart, addr := addr, len := width, op := .swap, data := [], val := 0 }) ∧ (w = ((i.drain e.half).upd (peer e.half) fun x => x.fillBuckets i.now).drainOut e.half) ∧ (w.bridgeHolds e.half r = false) ∧ ((w.half e.half).creditOk r = true) ∧ (v = w.upd (peer e.half) (fun x => x.payBridge k.mark width)) ∧ (v.admits e.half r = true) ∧ ((v.pay e.half 136 k.mark true addr width).access e.half (wordAt addr width) width = .ok) ∧ (u = (v.pay e.half 136 k.mark true addr width).upd e.half (fun x => x.expireSem (semIdx (wordAt addr width)))) ∧ ((u.half e.half).semBusy hart (wordAt addr width) = none) := by decide +kernel

theorem wit_Semaphores_2 :
    let e : Ev := ev 0
    let k : Pkt := ⟨0, 0, 0⟩
    let hart : Nat := 1
    let addr : Nat := 0x10000009
    let width : Nat := 8
    let i : State := ((tick (ev 0) (sSem)).issued 0 ⟨0, 0, 0⟩ 8)
    let r : HatchIn := { type := 4, pkt := ⟨0, 0, 0⟩, hart := 1, addr := 0x10000009, len := 8, op := .swap, data := [], val := 0 }
    let w : State := (((((tick (ev 0) (sSem)).issued 0 ⟨0, 0, 0⟩ 8)).drain 0).upd (peer 0) fun x => x.fillBuckets (((tick (ev 0) (sSem)).issued 0 ⟨0, 0, 0⟩ 8)).now).drainOut 0
    let v : State := (((((((tick (ev 0) (sSem)).issued 0 ⟨0, 0, 0⟩ 8)).drain 0).upd (peer 0) fun x => x.fillBuckets (((tick (ev 0) (sSem)).issued 0 ⟨0, 0, 0⟩ 8)).now).drainOut 0).upd (peer 0) fun x => x.payBridge 0 8)
    let u : State := ((((((((((tick (ev 0) (sSem)).issued 0 ⟨0, 0, 0⟩ 8)).drain 0).upd (peer 0) fun x => x.fillBuckets (((tick (ev 0) (sSem)).issued 0 ⟨0, 0, 0⟩ 8)).now).drainOut 0).upd (peer 0) fun x => x.payBridge 0 8)).pay 0 136 0 true 0x10000009 8).upd 0 fun x => x.expireSem 0)
    let b : Sem := sem0
    let t : State := tick e (sSem)
    (t.takes e.half false = true) ∧ (width = 4 ∨ width = 8) ∧ (i = t.issued e.half k width) ∧ (r = { type := 4, pkt := k, hart := hart, addr := addr, len := width, op := .swap, data := [], val := 0 }) ∧ (w = ((i.drain e.half).upd (peer e.half) fun x => x.fillBuckets i.now).drainOut e.half) ∧ (w.bridgeHolds e.half r = false) ∧ ((w.half e.half).creditOk r = true) ∧ (v = w.upd (peer e.half) (fun x => x.payBridge k.mark width)) ∧ (v.admits e.half r = true) ∧ ((v.pay e.half 136 k.mark true addr width).access e.half (wordAt addr width) width = .ok) ∧ (u = (v.pay e.half 136 k.mark true addr width).upd e.half (fun x => x.expireSem (semIdx (wordAt addr width)))) ∧ ((u.half e.half).semBusy hart (wordAt addr width) = some b) ∧ (u.vtOf e.half < b.takenVt + 1000) := by decide +kernel

theorem wit_Semaphores_3 :
    let e : Ev := ev 0
    let k : Pkt := ⟨0, 0, 0⟩
    let hart : Nat := 1
    let addr : Nat := 0x10000009
    let width : Nat := 8
    let i : State := ((tick (ev 0) (sSem.upd 0 fun x => { x with vt := 1000 })).issued 0 ⟨0, 0, 0⟩ 8)
    let r : HatchIn := { type := 4, pkt := ⟨0, 0, 0⟩, hart := 1, addr := 0x10000009, len := 8, op := .swap, data := [], val := 0 }
    let w : State := (((((tick (ev 0) (sSem.upd 0 fun x => { x with vt := 1000 })).issued 0 ⟨0, 0, 0⟩ 8)).drain 0).upd (peer 0) fun x => x.fillBuckets (((tick (ev 0) (sSem.upd 0 fun x => { x with vt := 1000 })).issued 0 ⟨0, 0, 0⟩ 8)).now).drainOut 0
    let v : State := (((((((tick (ev 0) (sSem.upd 0 fun x => { x with vt := 1000 })).issued 0 ⟨0, 0, 0⟩ 8)).drain 0).upd (peer 0) fun x => x.fillBuckets (((tick (ev 0) (sSem.upd 0 fun x => { x with vt := 1000 })).issued 0 ⟨0, 0, 0⟩ 8)).now).drainOut 0).upd (peer 0) fun x => x.payBridge 0 8)
    let u : State := ((((((((((tick (ev 0) (sSem.upd 0 fun x => { x with vt := 1000 })).issued 0 ⟨0, 0, 0⟩ 8)).drain 0).upd (peer 0) fun x => x.fillBuckets (((tick (ev 0) (sSem.upd 0 fun x => { x with vt := 1000 })).issued 0 ⟨0, 0, 0⟩ 8)).now).drainOut 0).upd (peer 0) fun x => x.payBridge 0 8)).pay 0 136 0 true 0x10000009 8).upd 0 fun x => x.expireSem 0)
    let b : Sem := sem0
    let t : State := tick e (sSem.upd 0 fun x => { x with vt := 1000 })
    (t.takes e.half false = true) ∧ (width = 4 ∨ width = 8) ∧ (i = t.issued e.half k width) ∧ (r = { type := 4, pkt := k, hart := hart, addr := addr, len := width, op := .swap, data := [], val := 0 }) ∧ (w = ((i.drain e.half).upd (peer e.half) fun x => x.fillBuckets i.now).drainOut e.half) ∧ (w.bridgeHolds e.half r = false) ∧ ((w.half e.half).creditOk r = true) ∧ (v = w.upd (peer e.half) (fun x => x.payBridge k.mark width)) ∧ (v.admits e.half r = true) ∧ ((v.pay e.half 136 k.mark true addr width).access e.half (wordAt addr width) width = .ok) ∧ (u = (v.pay e.half 136 k.mark true addr width).upd e.half (fun x => x.expireSem (semIdx (wordAt addr width)))) ∧ ((u.half e.half).semBusy hart (wordAt addr width) = some b) ∧ (b.takenVt + 1000 ≤ u.vtOf e.half) := by decide +kernel

theorem wit_Semaphores_4 :
    let e : Ev := ⟨0, 1000⟩
    let k : Pkt := ⟨0, 0, 0⟩
    let hart : Nat := 1
    let addr : Nat := 0x10000009
    let width : Nat := 8
    let w : LrWait := lr0
    let u : State := (tick ⟨0, 1000⟩ sSem).upd 0 fun x => ({ x with hatch := { x.hatch with lrWait := x.hatch.lrWait.erase lr0 } } : Half).expireSem 0
    let b : Sem := sem0
    let t : State := tick e (sSem)
    (t.takes e.half false = true) ∧ (w = ⟨k, hart, wordAt addr width, width⟩) ∧ (w ∈ (t.half e.half).hatch.lrWait) ∧ (u = t.upd e.half (fun x => ({ x with hatch := { x.hatch with lrWait := x.hatch.lrWait.erase w } } : Half).expireSem (semIdx w.addr))) ∧ ((u.half e.half).semBusy hart w.addr = some b) ∧ (b.takenVt + 1000 ≤ u.vtOf e.half) := by decide +kernel

theorem wit_Semaphores_5 :
    let e : Ev := ev 0
    let k : Pkt := ⟨0, 0, 0⟩
    let hart : Nat := 2
    let addr : Nat := 0x10000009
    let width : Nat := 8
    let val : Nat := 3
    let i : State := ((tick (ev 0) (sSem)).issued 0 ⟨0, 0, 0⟩ 8)
    let r : HatchIn := { type := 5, pkt := ⟨0, 0, 0⟩, hart := 2, addr := 0x10000009, len := 8, op := .swap, data := [], val := 3 }
    let w : State := (((((tick (ev 0) (sSem)).issued 0 ⟨0, 0, 0⟩ 8)).drain 0).upd (peer 0) fun x => x.fillBuckets (((tick (ev 0) (sSem)).issued 0 ⟨0, 0, 0⟩ 8)).now).drainOut 0
    let v : State := (((((((tick (ev 0) (sSem)).issued 0 ⟨0, 0, 0⟩ 8)).drain 0).upd (peer 0) fun x => x.fillBuckets (((tick (ev 0) (sSem)).issued 0 ⟨0, 0, 0⟩ 8)).now).drainOut 0).upd (peer 0) fun x => x.payBridge 0 8)
    let u : State := ((((((((((tick (ev 0) (sSem)).issued 0 ⟨0, 0, 0⟩ 8)).drain 0).upd (peer 0) fun x => x.fillBuckets (((tick (ev 0) (sSem)).issued 0 ⟨0, 0, 0⟩ 8)).now).drainOut 0).upd (peer 0) fun x => x.payBridge 0 8)).pay 0 136 0 true 0x10000009 8).upd 0 fun x => x.expireSem 0)
    let b : Sem := sem0
    let t : State := tick e (sSem)
    (t.takes e.half false = true) ∧ (width = 4 ∨ width = 8) ∧ (i = t.issued e.half k width) ∧ (r = { type := 5, pkt := k, hart := hart, addr := addr, len := width, op := .swap, data := [], val := val }) ∧ (w = ((i.drain e.half).upd (peer e.half) fun x => x.fillBuckets i.now).drainOut e.half) ∧ (w.bridgeHolds e.half r = false) ∧ ((w.half e.half).creditOk r = true) ∧ (v = w.upd (peer e.half) (fun x => x.payBridge k.mark width)) ∧ (v.admits e.half r = true) ∧ ((v.pay e.half 136 k.mark true addr width).access e.half (wordAt addr width) width = .ok) ∧ (u = (v.pay e.half 136 k.mark true addr width).upd e.half (fun x => x.expireSem (semIdx (wordAt addr width)))) ∧ ((u.half e.half).sem (semIdx (wordAt addr width)) = some b) ∧ (b.hart = hart) ∧ (b.granule = wordAt addr width / 64) := by decide +kernel

theorem wit_Semaphores_6 :
    let e : Ev := ev 0
    let k : Pkt := ⟨0, 0, 0⟩
    let hart : Nat := 2
    let addr : Nat := 0x10000009
    let width : Nat := 8
    let val : Nat := 3
    let i : State := ((tick (ev 0) (sUp)).issued 0 ⟨0, 0, 0⟩ 8)
    let r : HatchIn := { type := 5, pkt := ⟨0, 0, 0⟩, hart := 2, addr := 0x10000009, len := 8, op := .swap, data := [], val := 3 }
    let w : State := (((((tick (ev 0) (sUp)).issued 0 ⟨0, 0, 0⟩ 8)).drain 0).upd (peer 0) fun x => x.fillBuckets (((tick (ev 0) (sUp)).issued 0 ⟨0, 0, 0⟩ 8)).now).drainOut 0
    let v : State := (((((((tick (ev 0) (sUp)).issued 0 ⟨0, 0, 0⟩ 8)).drain 0).upd (peer 0) fun x => x.fillBuckets (((tick (ev 0) (sUp)).issued 0 ⟨0, 0, 0⟩ 8)).now).drainOut 0).upd (peer 0) fun x => x.payBridge 0 8)
    let u : State := ((((((((((tick (ev 0) (sUp)).issued 0 ⟨0, 0, 0⟩ 8)).drain 0).upd (peer 0) fun x => x.fillBuckets (((tick (ev 0) (sUp)).issued 0 ⟨0, 0, 0⟩ 8)).now).drainOut 0).upd (peer 0) fun x => x.payBridge 0 8)).pay 0 136 0 true 0x10000009 8).upd 0 fun x => x.expireSem 0)
    let t : State := tick e (sUp)
    (t.takes e.half false = true) ∧ (width = 4 ∨ width = 8) ∧ (i = t.issued e.half k width) ∧ (r = { type := 5, pkt := k, hart := hart, addr := addr, len := width, op := .swap, data := [], val := val }) ∧ (w = ((i.drain e.half).upd (peer e.half) fun x => x.fillBuckets i.now).drainOut e.half) ∧ (w.bridgeHolds e.half r = false) ∧ ((w.half e.half).creditOk r = true) ∧ (v = w.upd (peer e.half) (fun x => x.payBridge k.mark width)) ∧ (v.admits e.half r = true) ∧ ((v.pay e.half 136 k.mark true addr width).access e.half (wordAt addr width) width = .ok) ∧ (u = (v.pay e.half 136 k.mark true addr width).upd e.half (fun x => x.expireSem (semIdx (wordAt addr width)))) ∧ ((u.half e.half).sem (semIdx (wordAt addr width)) = none) := by decide +kernel

theorem wit_Semaphores_7 :
    let e : Ev := ev 0
    let k : Pkt := ⟨0, 0, 0⟩
    let hart : Nat := 1
    let addr : Nat := 0x10000009
    let width : Nat := 8
    let val : Nat := 3
    let i : State := ((tick (ev 0) (sSem)).issued 0 ⟨0, 0, 0⟩ 8)
    let r : HatchIn := { type := 5, pkt := ⟨0, 0, 0⟩, hart := 1, addr := 0x10000009, len := 8, op := .swap, data := [], val := 3 }
    let w : State := (((((tick (ev 0) (sSem)).issued 0 ⟨0, 0, 0⟩ 8)).drain 0).upd (peer 0) fun x => x.fillBuckets (((tick (ev 0) (sSem)).issued 0 ⟨0, 0, 0⟩ 8)).now).drainOut 0
    let v : State := (((((((tick (ev 0) (sSem)).issued 0 ⟨0, 0, 0⟩ 8)).drain 0).upd (peer 0) fun x => x.fillBuckets (((tick (ev 0) (sSem)).issued 0 ⟨0, 0, 0⟩ 8)).now).drainOut 0).upd (peer 0) fun x => x.payBridge 0 8)
    let u : State := ((((((((((tick (ev 0) (sSem)).issued 0 ⟨0, 0, 0⟩ 8)).drain 0).upd (peer 0) fun x => x.fillBuckets (((tick (ev 0) (sSem)).issued 0 ⟨0, 0, 0⟩ 8)).now).drainOut 0).upd (peer 0) fun x => x.payBridge 0 8)).pay 0 136 0 true 0x10000009 8).upd 0 fun x => x.expireSem 0)
    let b : Sem := sem0
    let t : State := tick e (sSem)
    (t.takes e.half false = true) ∧ (width = 4 ∨ width = 8) ∧ (i = t.issued e.half k width) ∧ (r = { type := 5, pkt := k, hart := hart, addr := addr, len := width, op := .swap, data := [], val := val }) ∧ (w = ((i.drain e.half).upd (peer e.half) fun x => x.fillBuckets i.now).drainOut e.half) ∧ (w.bridgeHolds e.half r = false) ∧ ((w.half e.half).creditOk r = true) ∧ (v = w.upd (peer e.half) (fun x => x.payBridge k.mark width)) ∧ (v.admits e.half r = true) ∧ ((v.pay e.half 136 k.mark true addr width).access e.half (wordAt addr width) width = .ok) ∧ (u = (v.pay e.half 136 k.mark true addr width).upd e.half (fun x => x.expireSem (semIdx (wordAt addr width)))) ∧ ((u.half e.half).sem (semIdx (wordAt addr width)) = some b) ∧ (b.hart ≠ hart ∨ b.granule ≠ wordAt addr width / 64) := by decide +kernel

theorem wit_Semaphores_8 :
    let e : Ev := ev 0
    let t : State := tick e (sUp)
    ((t.half e.half).clk.rimUp = true) := by decide +kernel

theorem wit_HatchMessages_1 :
    let e : Ev := ev 0
    let x : MsgH := ⟨0, 0⟩
    let t : State := tick e (sUp)
    (t.takes e.half false = true) ∧ (x.seq = kget (fun _ => 0) (t.half e.half).hatch.kindSeq 0x01) ∧ (x.ver = (t.half e.half).fld F.HTC_LINK_protocol) := by decide +kernel

theorem wit_HatchMessages_2 :
    let e : Ev := ev 0
    let x : MsgH := ⟨1, 0⟩
    let t : State := tick e (sUp)
    (t.takes e.half false = true) ∧ (x.seq ≠ kget (fun _ => 0) (t.half e.half).hatch.kindSeq 0x01) := by decide +kernel

theorem wit_HatchMessages_3 :
    let e : Ev := ev 0
    let x : MsgH := ⟨0, 1⟩
    let t : State := tick e (sUp)
    (t.takes e.half false = true) ∧ (x.seq = kget (fun _ => 0) (t.half e.half).hatch.kindSeq 0x01) ∧ (x.ver ≠ (t.half e.half).fld F.HTC_LINK_protocol) := by decide +kernel

theorem wit_HatchMessages_4 :
    let e : Ev := ev 0
    let x : MsgH := ⟨0, 0⟩
    let t : State := tick e (sUp)
    (t.takes e.half false = true) ∧ (x.seq = kget (fun _ => 0) (t.half e.half).hatch.kindSeq 0x02) ∧ (x.ver = (t.half e.half).fld F.HTC_LINK_protocol) := by decide +kernel

theorem wit_HatchMessages_5 :
    let e : Ev := ev 0
    let x : MsgH := ⟨0, 0⟩
    let t : State := tick e (sUp)
    (t.takes e.half false = true) ∧ (x.seq = kget (fun _ => 0) (t.half e.half).hatch.kindSeq 0x03) ∧ (x.ver = (t.half e.half).fld F.HTC_LINK_protocol) ∧ (((t.counted e.half 0x03 x).half e.half).clk.computeUp = true) := by decide +kernel

theorem wit_HatchMessages_6 :
    let e : Ev := ev 0
    let x : MsgH := ⟨0, 0⟩
    let q : Nat := 8191
    let t : State := tick e (sUp)
    (t.takes e.half false = true) ∧ (x.seq = kget (fun _ => 0) (t.half e.half).hatch.kindSeq 0x04) ∧ (x.ver = (t.half e.half).fld F.HTC_LINK_protocol) ∧ (qHalf q = e.half) := by decide +kernel

theorem wit_HatchMessages_7 :
    let e : Ev := ev 1
    let x : MsgH := ⟨0, 0⟩
    let dst : Nat := 15
    let t : State := tick e (sUp)
    (t.takes e.half false = true) ∧ (x.seq = kget (fun _ => 0) (t.half e.half).hatch.kindSeq 0x05) ∧ (x.ver = (t.half e.half).fld F.HTC_LINK_protocol) ∧ (dst < 16) ∧ (busHalf dst = e.half) := by decide +kernel

theorem wit_HatchMessages_8 :
    let e : Ev := ev 0
    let x : MsgH := ⟨0, 0⟩
    let t : State := tick e (sUp)
    (t.takes e.half false = true) ∧ (x.seq = kget (fun _ => 0) (t.half e.half).hatch.kindSeq 0x06) ∧ (x.ver = (t.half e.half).fld F.HTC_LINK_protocol) := by decide +kernel

theorem wit_HatchMessages_9 :
    let e : Ev := ev 0
    let x : MsgH := ⟨0, 0⟩
    let t : State := tick e (sUp)
    (t.takes e.half true = true) ∧ (x.seq = kget (fun _ => 0) (t.half e.half).hatch.kindSeq 0x40) ∧ (x.ver = (t.half e.half).fld F.HTC_LINK_protocol) := by decide +kernel

theorem wit_HatchMessages_10 :
    let e : Ev := ev 0
    let x : MsgH := ⟨0, 0⟩
    let t : State := tick e (sUp)
    (t.takes e.half true = true) ∧ (x.seq = kget (fun _ => 0) (t.half e.half).hatch.kindSeq 0x41) ∧ (x.ver = (t.half e.half).fld F.HTC_LINK_protocol) := by decide +kernel

theorem wit_HatchMessages_11 :
    let e : Ev := ev 0
    let x : MsgH := ⟨0, 0⟩
    let t : State := tick e (sUp)
    (t.takes e.half true = true) ∧ (x.seq = kget (fun _ => 0) (t.half e.half).hatch.kindSeq 0x42) ∧ (x.ver = (t.half e.half).fld F.HTC_LINK_protocol) := by decide +kernel

theorem wit_HatchMessages_12 :
    let e : Ev := ev 0
    let x : MsgH := ⟨0, 0⟩
    let t : State := tick e (sUp)
    (t.takes e.half true = true) ∧ (x.seq = kget (fun _ => 0) (t.half e.half).hatch.kindSeq 0x43) ∧ (x.ver = (t.half e.half).fld F.HTC_LINK_protocol) := by decide +kernel

theorem wit_HatchMessages_13 :
    let e : Ev := ev 0
    let x : MsgH := ⟨0, 0⟩
    let t : State := tick e (sUp)
    (t.takes e.half true = true) ∧ (x.seq = kget (fun _ => 0) (t.half e.half).hatch.kindSeq 0x44) ∧ (x.ver = (t.half e.half).fld F.HTC_LINK_protocol) := by decide +kernel

theorem wit_HatchMessages_14 :
    let e : Ev := ev 0
    let x : MsgH := ⟨0, 0⟩
    let t : State := tick e (sUp)
    (t.takes e.half true = true) ∧ (x.seq = kget (fun _ => 0) (t.half e.half).hatch.kindSeq 0x45) ∧ (x.ver = (t.half e.half).fld F.HTC_LINK_protocol) := by decide +kernel

theorem wit_Frames_1 :
    let e : Ev := ev 0
    let partner : Nat := 2
    let seq : Nat := 0
    let t : State := tick e (sMsg)
    (t.deaf e.half partner = false) ∧ (t.insecure e.half partner = false) ∧ ((t.half e.half).fw.stewardDown = false) ∧ (seq = 0) ∧ ((t.half e.half).session partner ≠ none ∨ (t.half e.half).ports.sessions.length < 8) := by decide +kernel

theorem wit_Frames_2 :
    let e : Ev := ev 0
    let partner : Nat := 2
    let t : State := tick e (sMsg.upd 0 fun x => { x with fw := { x.fw with stewardDown := true } })
    (t.deaf e.half partner = false) ∧ (t.insecure e.half partner = false) ∧ ((t.half e.half).fw.stewardDown = true) ∧ (((t.half e.half).ports.rxq.filter fun r => !isTeller r.2).length < 256) := by decide +kernel

theorem wit_Frames_3 :
    let e : Ev := ev 0
    let hd : FrameHdr := ⟨1, 1, 0, 0⟩
    let msgs : List MsgHead := [⟨0x10, 0⟩]
    let k : Session := session1
    let q : Session := session1
    let t : State := tick e (sMsg)
    (t.deaf e.half hd.partner = false) ∧ (t.insecure e.half hd.partner = false) ∧ ((t.half e.half).fw.stewardDown = false) ∧ ((t.half e.half).session hd.partner = some k) ∧ (k.expect = hd.seq % 2 ^ 32) ∧ (t.portOf hd.half = e.half) ∧ (t.relayCut e.half hd.half = false) ∧ (msgs ≠ []) ∧ (msgs.length ≤ 16) ∧ (((t.touched e.half hd k).half e.half).session hd.partner = some q) ∧ (q.queued.length + msgs.length ≤ 64) := by decide +kernel

theorem wit_Frames_4 :
    let e : Ev := ev 0
    let hd : FrameHdr := ⟨1, 1, 0, 0⟩
    let t : State := tick e (sMsg.upd 0 fun x => { x with fw := { x.fw with stewardDown := true } })
    (t.deaf e.half hd.partner = false) ∧ (t.insecure e.half hd.partner = false) ∧ ((t.half e.half).fw.stewardDown = true) ∧ (((t.half e.half).ports.rxq.filter fun r => !isTeller r.2).length < 256) := by decide +kernel

theorem wit_Frames_5 :
    let e : Ev := ev 0
    let hd : FrameHdr := ⟨1, 1, 0, 0⟩
    let vdi : Nat := 0
    let count : Nat := 128
    let k : Session := session1
    let t : State := tick e (sMsg)
    (t.deaf e.half hd.partner = false) ∧ (t.insecure e.half hd.partner = false) ∧ ((t.half e.half).fw.stewardDown = false) ∧ ((t.half e.half).session hd.partner = some k) ∧ (k.expect = hd.seq % 2 ^ 32) ∧ (t.portOf hd.half = e.half) ∧ (t.relayCut e.half hd.half = false) ∧ ((t.touched e.half hd k).regRefusal e.half hd vdi count = none) := by decide +kernel

theorem wit_Frames_6 :
    let e : Ev := ev 0
    let hd : FrameHdr := ⟨1, 1, 0, 0⟩
    let t : State := tick e (sMsg.upd 0 fun x => { x with fw := { x.fw with stewardDown := true } })
    (t.deaf e.half hd.partner = false) ∧ (t.insecure e.half hd.partner = false) ∧ ((t.half e.half).fw.stewardDown = true) ∧ (((t.half e.half).ports.rxq.filter fun r => !isTeller r.2).length < 256) := by decide +kernel

theorem wit_Frames_7 :
    let e : Ev := ev 0
    let hd : FrameHdr := ⟨1, 1, 0, 0⟩
    let vdi : Nat := 0
    let vals : List Nat := [0]
    let k : Session := session1
    let t : State := tick e (sMsg)
    (t.deaf e.half hd.partner = false) ∧ (t.insecure e.half hd.partner = false) ∧ ((t.half e.half).fw.stewardDown = false) ∧ ((t.half e.half).session hd.partner = some k) ∧ (k.expect = hd.seq % 2 ^ 32) ∧ (t.portOf hd.half = e.half) ∧ (t.relayCut e.half hd.half = false) ∧ ((t.touched e.half hd k).regRefusal e.half hd vdi vals.length = none) := by decide +kernel

theorem wit_Frames_8 :
    let e : Ev := ev 0
    let hd : FrameHdr := ⟨1, 1, 0, 0⟩
    let t : State := tick e (sMsg.upd 0 fun x => { x with fw := { x.fw with stewardDown := true } })
    (t.deaf e.half hd.partner = false) ∧ (t.insecure e.half hd.partner = false) ∧ ((t.half e.half).fw.stewardDown = true) ∧ (((t.half e.half).ports.rxq.filter fun r => !isTeller r.2).length < 256) := by decide +kernel

theorem wit_Frames_9 :
    let e : Ev := ev 0
    let hd : FrameHdr := ⟨1, 1, 0, 0⟩
    let off : Nat := 0x1FFFF
    let data : List Byte := [7]
    let k : Session := session1
    let t : State := tick e (sMsg)
    (t.deaf e.half hd.partner = false) ∧ (t.insecure e.half hd.partner = false) ∧ ((t.half e.half).fw.stewardDown = false) ∧ ((t.half e.half).session hd.partner = some k) ∧ (k.expect = hd.seq % 2 ^ 32) ∧ (t.portOf hd.half = e.half) ∧ (t.relayCut e.half hd.half = false) ∧ (1 ≤ data.length) ∧ (data.length ≤ 1016) ∧ (off + data.length ≤ 0x20000) := by decide +kernel

theorem wit_Frames_10 :
    let e : Ev := ev 0
    let hd : FrameHdr := ⟨1, 1, 0, 0⟩
    let t : State := tick e (sMsg.upd 0 fun x => { x with fw := { x.fw with stewardDown := true } })
    (t.deaf e.half hd.partner = false) ∧ (t.insecure e.half hd.partner = false) ∧ ((t.half e.half).fw.stewardDown = true) ∧ (((t.half e.half).ports.rxq.filter fun r => !isTeller r.2).length < 256) := by decide +kernel

theorem wit_Frames_11 :
    let e : Ev := ev 0
    let hd : FrameHdr := ⟨1, 1, 0, 0⟩
    let off : Nat := 0
    let len : Nat := 1016
    let k : Session := session1
    let t : State := tick e (sMsg)
    (t.deaf e.half hd.partner = false) ∧ (t.insecure e.half hd.partner = false) ∧ ((t.half e.half).fw.stewardDown = false) ∧ ((t.half e.half).session hd.partner = some k) ∧ (k.expect = hd.seq % 2 ^ 32) ∧ (t.portOf hd.half = e.half) ∧ (t.relayCut e.half hd.half = false) ∧ (1 ≤ len) ∧ (len ≤ 1016) ∧ (off + len ≤ 0x20000) := by decide +kernel

theorem wit_Frames_12 :
    let e : Ev := ev 0
    let hd : FrameHdr := ⟨1, 1, 0, 0⟩
    let t : State := tick e (sMsg.upd 0 fun x => { x with fw := { x.fw with stewardDown := true } })
    (t.deaf e.half hd.partner = false) ∧ (t.insecure e.half hd.partner = false) ∧ ((t.half e.half).fw.stewardDown = true) ∧ (((t.half e.half).ports.rxq.filter fun r => !isTeller r.2).length < 256) := by decide +kernel

theorem wit_Frames_13 :
    let e : Ev := ev 0
    let hd : FrameHdr := ⟨1, 1, 0, 0⟩
    let index : Nat := 0
    let slots : List Nat := [0]
    let k : Session := session1
    let u : State := (tick (ev 0) sMsg).touched 0 ⟨1, 1, 0, 0⟩ session1
    let r : Ring := ((((tick (ev 0) sMsg).touched 0 ⟨1, 1, 0, 0⟩ session1).half 0).ring 0).request 0 [0]
    let t : State := tick e (sMsg)
    (t.deaf e.half hd.partner = false) ∧ (t.insecure e.half hd.partner = false) ∧ ((t.half e.half).fw.stewardDown = false) ∧ ((t.half e.half).session hd.partner = some k) ∧ (k.expect = hd.seq % 2 ^ 32) ∧ (t.portOf hd.half = e.half) ∧ (t.relayCut e.half hd.half = false) ∧ (slots ≠ []) ∧ (slots.length ≤ 15) ∧ (u = t.touched e.half hd k) ∧ (r = ((u.half hd.half).ring 0).request index slots) := by decide +kernel

theorem wit_Frames_14 :
    let e : Ev := ev 0
    let hd : FrameHdr := ⟨1, 1, 0, 0⟩
    let t : State := tick e (sMsg.upd 0 fun x => { x with fw := { x.fw with stewardDown := true } })
    (t.deaf e.half hd.partner = false) ∧ (t.insecure e.half hd.partner = false) ∧ ((t.half e.half).fw.stewardDown = true) ∧ (((t.half e.half).ports.rxq.filter fun r => !isTeller r.2).length < 256) := by decide +kernel

theorem wit_PortEvents_1 :
    let e : Ev := ev 0
    let partner : Nat := 1
    let l : List Nat := [0]
    let t : State := tick e (sMsg)
    (t.deaf e.half partner = false) ∧ (t.insecure e.half partner = false) ∧ (l = t.now :: within t.now 1000000000 (kget (fun _ => []) (t.half e.half).ports.badVts partner)) ∧ (l.length < 64) := by decide +kernel

theorem wit_PortEvents_2 :
    let e : Ev := ev 0
    let partner : Nat := 1
    let t : State := tick e (sMsg.upd 0 fun x => { x with ports := { x.ports with badVts := [(1, List.replicate 63 0)] } })
    (t.deaf e.half partner = false) ∧ (t.insecure e.half partner = false) ∧ (64 ≤ (t.now :: within t.now 1000000000 (kget (fun _ => []) (t.half e.half).ports.badVts partner)).length) := by decide +kernel

theorem wit_PortEvents_3 :
    let e : Ev := ev 0
    let partner : Nat := 1
    let t : State := tick e (sMsg.upd 0 fun x => x.setFld F.SVC_LIFECYCLE_state 1)
    (t.deaf e.half partner = false) ∧ (t.insecure e.half partner = true) := by decide +kernel

theorem wit_PortEvents_4 :
    let e : Ev := ⟨0, 9⟩
    let partner : Nat := 3
    let n : Nat := 9
    let t : State := tick e (sUp.upd 0 fun x => { x with ports := { x.ports with blocked := [(3, 10)] } })
    (kget (fun _ => 0) (t.half e.half).ports.blocked partner = n + 1) ∧ (n ≤ t.now) := by decide +kernel

theorem wit_PortEvents_5 :
    let e : Ev := ⟨0, 1000000000⟩
    let partner : Nat := 1
    let k : Session := session1
    let t : State := tick e (sMsg)
    ((t.half e.half).session partner = some k) ∧ (k.lastVt + 1000000000 ≤ t.now) := by decide +kernel

theorem wit_PortEvents_6 :
    let e : Ev := ev 0
    let n : Nat := 1
    let t : State := tick e (sMsg)
    ((t.half e.half).portUp = true) ∧ (t.latchLive = true) ∧ ((t.half e.half).ports.sessions ≠ []) ∧ (n = ((t.half e.half).ports.hbCount + 1) % 2 ^ 32) := by decide +kernel

theorem wit_PortEvents_7 :
    let e : Ev := ev 0
    let n : Nat := 1
    let t : State := tick e (sFree)
    ((t.half e.half).portUp = true) ∧ (n = ((t.half e.half).ports.hbCount + 1) % 2 ^ 32) ∧ (t.latchLive = false) ∧ ((t.half e.half).ports.sessions ≠ []) := by decide +kernel

theorem wit_PortEvents_8 :
    let e : Ev := ev 0
    let n : Nat := 1
    let t : State := tick e (sMsg.upd 0 fun x => { x with ports := { x.ports with sessions := [] } })
    ((t.half e.half).portUp = true) ∧ (n = ((t.half e.half).ports.hbCount + 1) % 2 ^ 32) ∧ (t.latchLive = true) ∧ ((t.half e.half).ports.sessions = []) := by decide +kernel

theorem wit_PortEvents_9 :
    let e : Ev := ⟨0, 100000000⟩
    let p : Nat := 1
    let t : State := tick e (sMsg)
    (t.latch.holder = some p) ∧ (t.latchLive = false) := by decide +kernel

theorem wit_PortEvents_10 :
    let e : Ev := ev 0
    let ms : Nat := 1001
    let t : State := tick e (sUp)
    ((t.half e.half).portUp = true) ∧ (1000 < ms) := by decide +kernel

theorem wit_PortEvents_11 :
    let e : Ev := ev 0
    let selfTestFail : Bool := false
    let t : State := tick e (sUp.upd 0 fun x => { x with ports := { x.ports with linkLoss := [0, 0, 0] } })
    ((t.half e.half).portUp = true) ∧ (selfTestFail = true ∨ 3 ≤ (within t.now 600000000000 (t.half e.half).ports.linkLoss).length) := by decide +kernel

theorem wit_PortEvents_12 :
    let e : Ev := ev 0
    let ok : Bool := true
    let t : State := tick e (sUp.upd 0 fun x => x.setFld F.SVC_LIFECYCLE_state 1)
    ((t.half e.half).portUp = true) ∧ ((t.half e.half).fld F.SVC_LIFECYCLE_state = 1) ∧ (ok = true) := by decide +kernel

theorem wit_StewardTellerPeers_1 :
    let e : Ev := ev 0
    let l : List Nat := [0]
    let t : State := tick e (sUp)
    ((t.half e.half).clk.rimUp = true) ∧ ((t.half e.half).fw.stewardDown = false) ∧ (l = (t.half e.half).vt.toNat :: within (t.half e.half).vt.toNat 1000000000 (t.half e.half).fw.stewardVts) ∧ (l.length < 3) := by decide +kernel

theorem wit_StewardTellerPeers_2 :
    let e : Ev := ev 0
    let t : State := tick e (sUp.upd 0 fun x => { x with fw := { x.fw with stewardVts := [0, 0] } })
    ((t.half e.half).clk.rimUp = true) ∧ ((t.half e.half).fw.stewardDown = false) ∧ (3 ≤ ((t.half e.half).vt.toNat :: within (t.half e.half).vt.toNat 1000000000 (t.half e.half).fw.stewardVts).length) := by decide +kernel

theorem wit_StewardTellerPeers_3 :
    let e : Ev := ev 0
    let t : State := tick e (sUp.upd 0 fun x => { x with fw := { x.fw with stewardDown := true } })
    ((t.half e.half).clk.rimUp = true) ∧ ((t.half e.half).fw.stewardDown = true) := by decide +kernel

theorem wit_StewardTellerPeers_4 :
    let e : Ev := ev 0
    let vdi : Nat := 0
    let t : State := tick e (sMsg)
    ((t.vdi vdi).exists_ = true) ∧ ((t.half (t.hostOf vdi)).clk.rimUp = true) ∧ ((t.half (t.hostOf vdi)).fw.stewardDown = false) := by decide +kernel

theorem wit_StewardTellerPeers_5 :
    let e : Ev := ev 0
    let vdi : Nat := 0
    let w : Nat := 5
    let t : State := tick e (sMsg.upd 0 fun x => { x.setFld F.TEL_MBX_STAT_irq_en 1 0 with ports := { x.ports with tellerReply := [(0, 6)] } })
    (kget (fun _ => 0) (t.half e.half).ports.tellerReply vdi = w + 1) ∧ ((t.half e.half).serves = true) ∧ ((t.half e.half).fld F.TEL_MBX_STAT_irq_en vdi = 1) := by decide +kernel

theorem wit_StewardTellerPeers_6 :
    let e : Ev := ev 0
    let vdi : Nat := 0
    let w : Nat := 5
    let t : State := tick e (sMsg.upd 0 fun x => { x with ports := { x.ports with tellerReply := [(0, 6)] } })
    (kget (fun _ => 0) (t.half e.half).ports.tellerReply vdi = w + 1) ∧ ((t.half e.half).serves = true) ∧ ((t.half e.half).fld F.TEL_MBX_STAT_irq_en vdi ≠ 1) := by decide +kernel

theorem wit_StewardTellerPeers_7 :
    let e : Ev := ev 0
    let pair : Nat := 7
    let tail : Nat := 128
    let t : State := tick e (sUp)
    ((t.half e.half).clk.rimUp = true) ∧ (pair < 8) ∧ ((tail + 2 ^ 32 - ((t.half e.half).ring pair).reqHead) % 2 ^ 32 ≤ 128) := by decide +kernel

theorem wit_StewardTellerPeers_8 :
    let e : Ev := ev 0
    let pair : Nat := 7
    let t : State := tick e (sUp)
    ((t.half e.half).clk.rimUp = true) ∧ (pair < 8) := by decide +kernel

theorem wit_StewardTellerPeers_9 :
    let e : Ev := ev 0
    let src : Nat := 4
    let addr : Nat := 0x8000
    let t : State := tick e (sPeer)
    ((t.half e.half).clk.rimUp = true) ∧ ((t.half e.half).peerListed src = true) ∧ (t.watchable addr = true) := by decide +kernel

theorem wit_StewardTellerPeers_10 :
    let e : Ev := ev 0
    let src : Nat := 4
    let addr : Nat := 0x3000000000
    let t : State := tick e (sPeer)
    ((t.half e.half).clk.rimUp = true) ∧ ((t.half e.half).peerListed src = true) ∧ (t.watchable addr = false) := by decide +kernel

theorem wit_StewardTellerPeers_11 :
    let e : Ev := ev 0
    let src : Nat := 5
    let t : State := tick e (sPeer)
    ((t.half e.half).clk.rimUp = true) ∧ ((t.half e.half).peerListed src = false) := by decide +kernel

theorem wit_StewardTellerPeers_12 :
    let e : Ev := ev 0
    let src : Nat := 4
    let t : State := tick e (sPeer)
    ((t.half e.half).clk.rimUp = true) ∧ ((t.half e.half).peerListed src = true) := by decide +kernel

theorem wit_StewardTellerPeers_13 :
    let e : Ev := ev 0
    let src : Nat := 5
    let t : State := tick e (sPeer)
    ((t.half e.half).clk.rimUp = true) ∧ ((t.half e.half).peerListed src = false) := by decide +kernel

theorem wit_StewardTellerPeers_14 :
    let e : Ev := ev 0
    let port : Nat := 1
    let l : List Nat := [1000, 0, 256000]
    let t : State := tick e (sUp.upd 0 fun x => { x with ports := { x.ports with qbvAdmin := [(1, [1000, 0, 256000])] } })
    ((t.half e.half).clk.rimUp = true) ∧ (l = kget (fun _ => []) (t.half e.half).ports.qbvAdmin port) ∧ (l ≠ []) ∧ (l.getD 1 0 ≤ (t.half e.half).vt.toNat) := by decide +kernel

theorem wit_StewardTellerPeers_15 :
    let e : Ev := ev 0
    let who : Master := .steward
    let reg : Reg := .WIN_CTL
    let t : State := tick e (sUp)
    ((t.half e.half).clk.rimUp = true) ∧ (reg = .WIN_CTL) ∧ (who = .steward) := by decide +kernel

theorem wit_StewardTellerPeers_16 :
    let e : Ev := ev 0
    let who : Master := .steward
    let reg : Reg := .INT_STREAM_CFG
    let t : State := tick e (sUp)
    ((t.half e.half).clk.rimUp = true) ∧ (reg = .INT_STREAM_CFG) ∧ (who = .steward) := by decide +kernel

theorem wit_StewardTellerPeers_17 :
    let e : Ev := ev 0
    let who : Master := .app 0
    let reg : Reg := .GTW_CTL
    let n : Nat := 0
    let src : Nat := 0x0B
    let t : State := tick e (sUp)
    ((t.half e.half).clk.rimUp = true) ∧ (reg = .GTW_CTL) ∧ (who = .app n) ∧ (windowSource .GTW_CTL = some src) := by decide +kernel

theorem wit_StewardTellerPeers_18 :
    let e : Ev := ev 0
    let reg : Reg := .TEL_DB_TAIL
    let t : State := tick e (sUp)
    ((t.half e.half).clk.rimUp = true) ∧ (reg = .TEL_DB_TAIL) := by decide +kernel

theorem wit_StewardTellerPeers_19 :
    let e : Ev := ev 0
    let who : Master := .steward
    let reg : Reg := .WIN_PART_CFG
    let t : State := tick e (sUp)
    ((t.half e.half).clk.rimUp = true) ∧ (reg = .WIN_PART_CFG ∨ reg = .WIN_PART_CORES) ∧ (who = .steward) := by decide +kernel

theorem wit_StewardTellerPeers_20 :
    let e : Ev := ev 0
    let reg : Reg := .TEL_DB_CQ_HEAD
    let t : State := tick e (sUp)
    ((t.half e.half).clk.rimUp = true) ∧ (reg = .TEL_DB_CQ_HEAD) := by decide +kernel

theorem wit_StewardTellerPeers_21 :
    let e : Ev := ev 0
    let reg : Reg := .TEL_DB_STATE
    let unit : Nat := 0
    let t : State := tick e (sQ)
    ((t.half e.half).clk.rimUp = true) ∧ (reg = .TEL_DB_STATE) ∧ (t.queueUp (e.half * 8192 + unit) = true) ∧ ((t.half e.half).qState unit ≠ 0) := by decide +kernel

theorem wit_StewardTellerPeers_22 :
    let e : Ev := ev 0
    let reg : Reg := .TEL_MBX_GO
    let val : Nat := 1
    let t : State := tick e (sUp)
    ((t.half e.half).clk.rimUp = true) ∧ (reg = .TEL_MBX_GO) ∧ (val % 2 = 1) := by decide +kernel

theorem wit_LatchAndReads_1 :
    let e : Ev := ev 0
    let m : Msg := msg0
    let t : State := tick e (sFree)
    let u : State := t.settleMsgs e.half
    (u.accepts e.half m 0x01 .any false = true) ∧ (u.endLease.latch.holder = none) := by decide +kernel

theorem wit_LatchAndReads_2 :
    let e : Ev := ev 0
    let m : Msg := msg0
    let p : Nat := 1
    let t : State := tick e (sMsg)
    let u : State := t.settleMsgs e.half
    (u.accepts e.half m 0x01 .any false = true) ∧ (u.endLease.latch.holder = some p) := by decide +kernel

theorem wit_LatchAndReads_3 :
    let e : Ev := ev 0
    let m : Msg := msg0
    let t : State := tick e (sMsg)
    let u : State := t.settleMsgs e.half
    (u.accepts e.half m 0x02 .l false = true) ∧ (u.arrival e.half m / 1000000 < u.latch.expires / 1000000) := by decide +kernel

theorem wit_LatchAndReads_4 :
    let e : Ev := ev 0
    let m : Msg := msg0
    let t : State := tick e ({ sMsg with latch := { sMsg.latch with expires := 1 } })
    let u : State := t.settleMsgs e.half
    (u.accepts e.half m 0x02 .l false = true) ∧ (u.latch.expires / 1000000 ≤ u.arrival e.half m / 1000000) := by decide +kernel

theorem wit_LatchAndReads_5 :
    let e : Ev := ev 0
    let m : Msg := msg0
    let t : State := tick e (sMsg)
    let u : State := t.settleMsgs e.half
    (u.accepts e.half m 0x03 .l false = true) := by decide +kernel

theorem wit_LatchAndReads_6 :
    let e : Ev := ev 0
    let m : Msg := msg0
    let p : Nat := 1
    let t : State := tick e (sMsg)
    let u : State := t.settleMsgs e.half
    (u.accepts e.half m 0x04 .a false = true) ∧ (u.latchLive = true) ∧ (u.latch.holder = some p) := by decide +kernel

theorem wit_LatchAndReads_7 :
    let e : Ev := ev 0
    let m : Msg := msg0
    let t : State := tick e (sFree)
    let u : State := t.settleMsgs e.half
    (u.accepts e.half m 0x04 .a false = true) ∧ (u.latchLive = false) := by decide +kernel

theorem wit_LatchAndReads_8 :
    let e : Ev := ev 0
    let m : Msg := msg0
    let t : State := tick e (sMsg)
    let u : State := t.settleMsgs e.half
    (u.accepts e.half m 0x10 .a false = true) := by decide +kernel

theorem wit_LatchAndReads_9 :
    let e : Ev := ev 0
    let m : Msg := msg0
    let block : Nat := 2
    let clear : Bool := true
    let unit : Nat := 0
    let reg : Nat := 0
    let index : Nat := 0
    let count : Nat := 1
    let w : State := (tick (ev 0) sMsg).settleMsgs 0
    let l : List (Reg × Nat × Nat × Nat) := ((statsWords 2 0 0 0 1).getD [])
    let t : State := tick e (sMsg)
    let u : State := t.settleMsgs e.half
    (u.accepts e.half m 0x11 (if clear then .l else .a) false = true) ∧ (count ≠ 0) ∧ (count ≤ 6) ∧ (statsWords block unit reg index count = some l) ∧ (w = (if block = 3 then u.moveOn e.half else u)) := by decide +kernel

theorem wit_LatchAndReads_10 :
    let e : Ev := ev 0
    let m : Msg := msg0
    let clear : Bool := false
    let count : Nat := 0
    let t : State := tick e (sMsg)
    let u : State := t.settleMsgs e.half
    (u.accepts e.half m 0x11 (if clear then .l else .a) false = true) ∧ (count = 0) := by decide +kernel

theorem wit_LatchAndReads_11 :
    let e : Ev := ev 0
    let m : Msg := msg0
    let block : Nat := 1
    let clear : Bool := false
    let unit : Nat := 0
    let reg : Nat := 0
    let index : Nat := 0
    let count : Nat := 1
    let t : State := tick e (sMsg)
    let u : State := t.settleMsgs e.half
    (u.accepts e.half m 0x11 (if clear then .l else .a) false = true) ∧ (count ≠ 0) ∧ (6 < count ∨ statsWords block unit reg index count = none) := by decide +kernel

theorem wit_LatchAndReads_12 :
    let e : Ev := ev 0
    let m : Msg := msg0
    let first : Nat := 0
    let count : Nat := 1
    let dst : Nat := 2 ^ 63
    let l : List Incident := []
    let w : State := (tick (ev 0) sMsg).settleMsgs 0
    let t : State := tick e (sMsg)
    let u : State := t.settleMsgs e.half
    (u.accepts e.half m 0x12 .a false = true) ∧ (count ≠ 0) ∧ (count ≤ 4096) ∧ (l = incidentsFrom first count (u.half e.half).incidents.reverse) ∧ ((u.dstBytes e.half m dst (leBytes (32 * count) 0)).1 = .ok) ∧ (u.dstBytes e.half m dst (l.flatMap Incident.bytes) = (.ok, w)) := by decide +kernel

theorem wit_LatchAndReads_13 :
    let e : Ev := ev 0
    let m : Msg := msg0
    let ctx : Nat := 15
    let dst : Nat := 2 ^ 63
    let n : Nat := 32
    let w : State := (((tick (ev 0) sOwn).settleMsgs 0).dstBytes 0 msg0 (2 ^ 63) (leBytes 32 (sOwn.ctx 15).raw)).2
    let t : State := tick e (sOwn)
    let u : State := t.settleMsgs e.half
    (u.accepts e.half m 0x13 .v false = true) ∧ ((u.vdi m.vdi).ownsCtx ctx = true) ∧ (n = (if isL ctx then 128 else 32)) ∧ (u.dstBytes e.half m dst (leBytes n (u.ctx ctx).raw) = (.ok, w)) := by decide +kernel

theorem wit_LatchAndReads_14 :
    let e : Ev := ev 0
    let m : Msg := msg0
    let ctx : Nat := 16
    let t : State := tick e (sOwn)
    let u : State := t.settleMsgs e.half
    (u.accepts e.half m 0x13 .v false = true) ∧ ((u.vdi m.vdi).ownsCtx ctx = false) := by decide +kernel

theorem wit_WindowMessages_1 :
    let e : Ev := ev 0
    let m : Msg := msg0
    let first : Nat := 4095
    let count : Nat := 1
    let src : Nat := 2 ^ 63
    let l : List Byte := leBytes 64 0
    let t : State := tick e (sMsg)
    let u : State := t.settleMsgs e.half
    (u.accepts e.half m 0x20 .l false = true) ∧ (count ≠ 0) ∧ (count ≤ 2048) ∧ (first + count ≤ 4096) ∧ (u.srcBytes e.half m src (64 * count) = (.ok, l)) := by decide +kernel

theorem wit_WindowMessages_2 :
    let e : Ev := ev 0
    let m : Msg := msg0
    let first : Nat := 4096
    let count : Nat := 1
    let t : State := tick e (sMsg)
    let u : State := t.settleMsgs e.half
    (u.accepts e.half m 0x20 .l false = true) ∧ (count ≠ 0) ∧ (2048 < count ∨ 4096 < first + count) := by decide +kernel

theorem wit_WindowMessages_3 :
    let e : Ev := ev 0
    let m : Msg := msg0
    let vt : Nat := 1000000
    let standby : Bool := false
    let t : State := tick e (sFrame)
    let u : State := t.settleMsgs e.half
    (u.accepts e.half m 0x21 .l false = true) ∧ (u.checkBank e.half vt standby = none) ∧ (u.checkTasks e.half standby = none) ∧ (u.checkImages e.half = none) ∧ (standby = false) := by decide +kernel

theorem wit_WindowMessages_4 :
    let e : Ev := ev 0
    let m : Msg := msg0
    let vt : Nat := 0
    let standby : Bool := true
    let t : State := tick e (sFrame)
    let u : State := t.settleMsgs e.half
    (u.accepts e.half m 0x21 .l false = true) ∧ (u.checkBank e.half vt standby = none) ∧ (u.checkTasks e.half standby = none) ∧ (u.checkImages e.half = none) ∧ (standby = true) ∧ ((u.half e.half).degraded = false) := by decide +kernel

theorem wit_WindowMessages_5 :
    let e : Ev := ev 0
    let m : Msg := msg0
    let vt : Nat := 0
    let standby : Bool := true
    let t : State := tick e (sFrame.upd 0 fun x => { x.setFld F.TLY_CTL_degraded 1 with tally := { x.tally with noStandby := true } })
    let u : State := t.settleMsgs e.half
    (u.accepts e.half m 0x21 .l false = true) ∧ (u.checkBank e.half vt standby = none) ∧ (u.checkTasks e.half standby = none) ∧ (u.checkImages e.half = none) ∧ (standby = true) ∧ ((u.half e.half).degraded = true) ∧ ((u.half e.half).tally.noStandby = true) := by decide +kernel

theorem wit_WindowMessages_6 :
    let e : Ev := ev 0
    let m : Msg := msg0
    let vt : Nat := 0
    let standby : Bool := true
    let st : Status := .badArg
    let i : Nat := 4
    let t : State := tick e (sFrame.upd 0 fun x => { x with win := { x.win with bank0 := [(4, 3 * 2 ^ 24)], bank1 := [(4, 3 * 2 ^ 24)] } })
    let u : State := t.settleMsgs e.half
    (u.accepts e.half m 0x21 .l false = true) ∧ (u.checkBank e.half vt standby = some (st, some i)) := by decide +kernel

theorem wit_WindowMessages_7 :
    let e : Ev := ev 0
    let m : Msg := msg0
    let vt : Nat := 0
    let standby : Bool := false
    let st : Status := .badArg
    let t : State := tick e (sMsg)
    let u : State := t.settleMsgs e.half
    (u.accepts e.half m 0x21 .l false = true) ∧ (u.checkBank e.half vt standby = some (st, none)) := by decide +kernel

theorem wit_WindowMessages_8 :
    let e : Ev := ev 0
    let m : Msg := msg0
    let length : Nat := 10000000
    let t : State := tick e (sMsg)
    let u : State := t.settleMsgs e.half
    (u.accepts e.half m 0x22 .l false = true) ∧ (1000 ≤ length) ∧ (length ≤ 10000000) := by decide +kernel

theorem wit_WindowMessages_9 :
    let e : Ev := ev 0
    let m : Msg := msg0
    let length : Nat := 999
    let t : State := tick e (sMsg)
    let u : State := t.settleMsgs e.half
    (u.accepts e.half m 0x22 .l false = true) ∧ (length ≠ 0) ∧ (length < 1000 ∨ 10000000 < length) := by decide +kernel

theorem wit_WindowMessages_10 :
    let e : Ev := ev 0
    let m : Msg := msg0
    let length : Nat := 0
    let t : State := tick e (sMsg)
    let u : State := t.settleMsgs e.half
    (u.accepts e.half m 0x22 .l false = true) ∧ (length = 0) := by decide +kernel

theorem wit_WindowMessages_11 :
    let e : Ev := ev 0
    let m : Msg := msg0
    let part : Nat := 15
    let cfg : Nat := 3 + 5 * 4 + 2 ^ 16
    let cores : Nat := 6
    let t : State := tick e (sMsg)
    let u : State := t.settleMsgs e.half
    (u.accepts e.half m 0x23 .l false = true) ∧ (1 ≤ part) ∧ (part < 16) ∧ (bits cfg 0 2 = 0 ∨ bits cfg 0 2 = 2 ∨ (bits cfg 0 2 = 3 ∧ bits cfg 16 16 ≠ 0 ∧ (u.half e.half).graphicsClash part cores = false)) ∧ (5 ≤ bits cfg 2 8) ∧ (bits cfg 2 8 ≤ 200) ∧ (u.partBusy e.half part = false) := by decide +kernel

theorem wit_WindowMessages_12 :
    let e : Ev := ev 0
    let m : Msg := msg0
    let part : Nat := 0
    let cfg : Nat := 200 * 4
    let t : State := tick e (sMsg)
    let u : State := t.settleMsgs e.half
    (u.accepts e.half m 0x23 .l false = true) ∧ (part = 0) ∧ (5 ≤ bits cfg 2 8) ∧ (bits cfg 2 8 ≤ 200) ∧ (u.partBusy e.half part = false) := by decide +kernel

theorem wit_WindowMessages_13 :
    let e : Ev := ev 0
    let m : Msg := msg0
    let part : Nat := 16
    let cfg : Nat := 20
    let t : State := tick e (sMsg)
    let u : State := t.settleMsgs e.half
    (u.accepts e.half m 0x23 .l false = true) ∧ (16 ≤ part ∨ (part ≠ 0 ∧ bits cfg 0 2 = 1) ∨ bits cfg 2 8 < 5 ∨ 200 < bits cfg 2 8 ∨ u.partBusy e.half part = true) := by decide +kernel

theorem wit_WindowMessages_14 :
    let e : Ev := ev 0
    let m : Msg := msg0
    let task : Nat := 4095
    let src : Nat := 2 ^ 63
    let l : List Byte := leBytes 256 0
    let t : State := tick e (sMsg)
    let u : State := t.settleMsgs e.half
    (u.accepts e.half m 0x24 .l false = true) ∧ (task < 4096) ∧ (u.srcBytes e.half m src 256 = (.ok, l)) := by decide +kernel

theorem wit_WindowMessages_15 :
    let e : Ev := ev 0
    let m : Msg := msg0
    let task : Nat := 4096
    let t : State := tick e (sMsg)
    let u : State := t.settleMsgs e.half
    (u.accepts e.half m 0x24 .l false = true) ∧ (4096 ≤ task) := by decide +kernel

theorem wit_WindowMessages_16 :
    let e : Ev := ev 0
    let m : Msg := msg0
    let base : Nat := 256
    let staging : Nat := 2048 * 2 ^ 32
    let audit : Nat := 60
    let t : State := tick e (sMsg)
    let u : State := t.settleMsgs e.half
    (u.accepts e.half m 0x25 .l false = true) ∧ (bits base 0 48 % 256 = 0) ∧ (bits staging 0 27 % 0x10000 = 0) ∧ (bits staging 0 27 / 0x10000 + bits staging 32 12 ≤ 2048) ∧ (1 ≤ bits audit 0 6) ∧ (bits audit 0 6 ≤ 60) := by decide +kernel

theorem wit_WindowMessages_17 :
    let e : Ev := ev 0
    let m : Msg := msg0
    let base : Nat := 0
    let staging : Nat := 0
    let audit : Nat := 0
    let t : State := tick e (sMsg)
    let u : State := t.settleMsgs e.half
    (u.accepts e.half m 0x25 .l false = true) ∧ (bits base 0 48 % 256 ≠ 0 ∨ bits staging 0 27 % 0x10000 ≠ 0 ∨ 2048 < bits staging 0 27 / 0x10000 + bits staging 32 12 ∨ bits audit 0 6 = 0 ∨ 60 < bits audit 0 6) := by decide +kernel

theorem wit_WindowMessages_18 :
    let e : Ev := ev 0
    let m : Msg := msg0
    let vt : Nat := 100000
    let t : State := tick e (sMsg)
    let u : State := t.settleMsgs e.half
    (u.accepts e.half m 0x26 .l false = true) ∧ ((u.half e.half).vt.toNat + 100000 ≤ vt) := by decide +kernel

theorem wit_WindowMessages_19 :
    let e : Ev := ev 0
    let m : Msg := msg0
    let vt : Nat := 99999
    let t : State := tick e (sMsg)
    let u : State := t.settleMsgs e.half
    (u.accepts e.half m 0x26 .l false = true) ∧ (vt < (u.half e.half).vt.toNat + 100000) := by decide +kernel

theorem wit_WindowMessages_20 :
    let e : Ev := ev 0
    let m : Msg := msg0
    let t : State := tick e (sMsg)
    let u : State := t.settleMsgs e.half
    (u.accepts e.half m 0x26 .l false = true) := by decide +kernel

theorem wit_VdiMessages_1 :
    let e : Ev := ev 0
    let m : Msg := msg0
    let vdi : Nat := 255
    let profile : Nat := 1
    let mark : Nat := 14
    let src : Nat := 2 ^ 63
    let l : List Byte := leBytes 160 0
    let t : State := tick e (sMsg)
    let u : State := t.settleMsgs e.half
    (u.accepts e.half m 0x80 .l false = true) ∧ (u.srcBytes e.half m src 160 = (.ok, l)) ∧ (u.createCheck e.half vdi profile mark (leNat l) = none) := by decide +kernel

theorem wit_VdiMessages_2 :
    let e : Ev := ev 0
    let m : Msg := msg0
    let vdi : Nat := 255
    let profile : Nat := 2
    let mark : Nat := 14
    let src : Nat := 2 ^ 63
    let l : List Byte := leBytes 160 0
    let st : Status := .badArg
    let t : State := tick e (sMsg)
    let u : State := t.settleMsgs e.half
    (u.accepts e.half m 0x80 .l false = true) ∧ (u.srcBytes e.half m src 160 = (.ok, l)) ∧ (u.createCheck e.half vdi profile mark (leNat l) = some st) := by decide +kernel

theorem wit_VdiMessages_3 :
    let e : Ev := ev 0
    let m : Msg := msg0
    let t : State := tick e (sMsg)
    let u : State := t.settleMsgs e.half
    (u.accepts e.half m 0x81 .v false = true) ∧ (u.hostOf m.vdi = e.half) ∧ ((u.half e.half).fld F.TEL_STATE_state m.vdi ≠ 2) ∧ ((u.half e.half).fld F.TEL_STATE_state m.vdi ≠ 3) ∧ (u.vdiNamed m.vdi = false) := by decide +kernel

theorem wit_VdiMessages_4 :
    let e : Ev := ev 0
    let m : Msg := msg0
    let t : State := tick e ({ sMsg with h0 := { sMsg.h0 with win := { sMsg.h0.win with bank0 := [(0, win0)] } }, vdis := [(0, { Vdi.absent with exists_ := true, cfg := vdiCfg0 + 16 * 2 ^ 128 })] })
    let u : State := t.settleMsgs e.half
    (u.accepts e.half m 0x81 .v false = true) ∧ (u.hostOf m.vdi ≠ e.half ∨ u.vdiNamed m.vdi = true) := by decide +kernel

theorem wit_VdiMessages_5 :
    let e : Ev := ev 0
    let m : Msg := msg0
    let vdi : Nat := 0
    let t : State := tick e (sMsg)
    let u : State := t.settleMsgs e.half
    (u.accepts e.half m 0x82 .l false = true) ∧ ((u.vdi vdi).exists_ = true) ∧ (u.hostOf vdi = e.half) ∧ ((u.half e.half).fld F.TEL_STATE_state vdi ≠ 2) ∧ ((u.half e.half).fld F.TEL_STATE_state vdi ≠ 3) ∧ (u.vdiNamed vdi = false) ∧ ((u.half e.half).boundVault vdi = false) := by decide +kernel

theorem wit_VdiMessages_6 :
    let e : Ev := ev 0
    let m : Msg := msg0
    let vdi : Nat := 1
    let t : State := tick e (sMsg)
    let u : State := t.settleMsgs e.half
    (u.accepts e.half m 0x82 .l false = true) ∧ ((u.vdi vdi).exists_ = false) := by decide +kernel

theorem wit_VdiMessages_7 :
    let e : Ev := ev 0
    let m : Msg := msg0
    let ctx : Nat := 3
    let src : Nat := 2 ^ 63
    let l : List Byte := leBytes 32 (2 ^ 8 + 2 ^ 32 + 0x10000000 * 2 ^ 64)
    let set : List (Nat × Nat) := []
    let t : State := tick e (sStagedOwn (2 ^ 8 + 2 ^ 32 + 0x10000000 * 2 ^ 64))
    let u : State := t.settleMsgs e.half
    (u.accepts e.half m 0x84 .v false = true) ∧ ((u.vdi m.vdi).ownsCtx ctx = true) ∧ (u.srcBytes e.half m src 32 = (.ok, l)) ∧ (cVdi (leNat l) = m.vdi) ∧ (cWeight (leNat l) ≠ 0) ∧ (cMark (leNat l) ≠ 15) ∧ (u.inWindows m.vdi (cHandleSet (leNat l)) 1024 = true) ∧ (u.access e.half (cHandleSet (leNat l)) 1024 = .ok) ∧ (set = handleSet (u.rdBytes (cHandleSet (leNat l)) 1024)) ∧ (u.ctxCheck e.half m.vdi (leNat l) set = none) := by decide +kernel

theorem wit_VdiMessages_8 :
    let e : Ev := ev 0
    let m : Msg := msg0
    let ctx : Nat := 16
    let t : State := tick e (sOwn)
    let u : State := t.settleMsgs e.half
    (u.accepts e.half m 0x84 .v false = true) ∧ ((u.vdi m.vdi).ownsCtx ctx = false) := by decide +kernel

theorem wit_VdiMessages_9 :
    let e : Ev := ev 0
    let m : Msg := msg0
    let ctx : Nat := 3
    let src : Nat := 2 ^ 63
    let l : List Byte := leBytes 32 0
    let t : State := tick e (sStagedOwn 0)
    let u : State := t.settleMsgs e.half
    (u.accepts e.half m 0x84 .v false = true) ∧ ((u.vdi m.vdi).ownsCtx ctx = true) ∧ (u.srcBytes e.half m src 32 = (.ok, l)) ∧ (cVdi (leNat l) = m.vdi) ∧ (cWeight (leNat l) = 0 ∨ cMark (leNat l) = 15) := by decide +kernel

theorem wit_VdiMessages_10 :
    let e : Ev := ev 0
    let m : Msg := msg0
    let q : Nat := 63
    let src : Nat := 2 ^ 63
    let l : List Byte := leBytes 32 (0x10000 + 0x20000 * 2 ^ 64 + 2 ^ 224)
    let r : Nat := (0x10000 + 0x20000 * 2 ^ 64 + 2 ^ 224)
    let t : State := tick e (sStagedOwn (0x10000 + 0x20000 * 2 ^ 64 + 2 ^ 224))
    let u : State := t.settleMsgs e.half
    (u.accepts e.half m 0x85 .v true = true) ∧ ((u.vdi m.vdi).ownsQueue q = true) ∧ (qHalf q = e.half) ∧ ((u.half e.half).qState (qIdx q) = 0) ∧ (u.srcBytes e.half m src 32 = (.ok, l)) ∧ (r = setBits (leNat l) 240 16 0) ∧ (u.queueCheck m.vdi r = none) := by decide +kernel

theorem wit_VdiMessages_11 :
    let e : Ev := ev 0
    let m : Msg := msg0
    let q : Nat := 64
    let t : State := tick e (sOwn)
    let u : State := t.settleMsgs e.half
    (u.accepts e.half m 0x85 .v true = true) ∧ ((u.vdi m.vdi).ownsQueue q = false) := by decide +kernel

theorem wit_VdiMessages_12 :
    let e : Ev := ev 0
    let m : Msg := msg0
    let q : Nat := 5
    let t : State := tick e (sOwnQ 4)
    let u : State := t.settleMsgs e.half
    (u.accepts e.half m 0x85 .v true = true) ∧ ((u.vdi m.vdi).ownsQueue q = true) ∧ (qHalf q ≠ e.half ∨ (u.half e.half).qState (qIdx q) ≠ 0) := by decide +kernel

theorem wit_VdiMessages_13 :
    let e : Ev := ev 0
    let m : Msg := msg0
    let q : Nat := 5
    let t : State := tick e (sOwnQ 0)
    let u : State := t.settleMsgs e.half
    (u.accepts e.half m 0x86 .v true = true) ∧ ((u.half e.half).fld F.TEL_STATE_state m.vdi ≠ 2) ∧ ((u.half e.half).fld F.TEL_STATE_state m.vdi ≠ 3) ∧ ((u.vdi m.vdi).ownsQueue q = true) ∧ (qHalf q = e.half) ∧ ((u.half e.half).qState (qIdx q) = 0) ∧ (((u.half e.half).queue (qIdx q)).record ≠ 0) := by decide +kernel

theorem wit_VdiMessages_14 :
    let e : Ev := ev 0
    let m : Msg := msg0
    let q : Nat := 5
    let t : State := tick e (sOwnQ 4)
    let u : State := t.settleMsgs e.half
    (u.accepts e.half m 0x86 .v true = true) ∧ ((u.vdi m.vdi).ownsQueue q = true) ∧ (qHalf q = e.half) ∧ ((u.half e.half).qState (qIdx q) ≠ 0) := by decide +kernel

theorem wit_VdiMessages_15 :
    let e : Ev := ev 0
    let m : Msg := msg0
    let q : Nat := 8197
    let t : State := tick e (sFar)
    let u : State := t.settleMsgs e.half
    (u.accepts e.half m 0x86 .v true = true) ∧ ((u.vdi m.vdi).ownsQueue q = true) ∧ (qHalf q ≠ e.half) := by decide +kernel

theorem wit_VdiMessages_16 :
    let e : Ev := ev 0
    let m : Msg := msg0
    let q : Nat := 5
    let t : State := tick e (sOwnQ 3)
    let u : State := t.settleMsgs e.half
    (u.accepts e.half m 0x86 .v true = true) ∧ ((u.half e.half).fld F.TEL_STATE_state m.vdi ≠ 2) ∧ ((u.half e.half).fld F.TEL_STATE_state m.vdi ≠ 3) ∧ ((u.vdi m.vdi).ownsQueue q = true) ∧ (qHalf q = e.half) ∧ (1 ≤ (u.half e.half).qState (qIdx q)) ∧ ((u.half e.half).qState (qIdx q) ≤ 3) := by decide +kernel

theorem wit_VdiMessages_17 :
    let e : Ev := ev 0
    let m : Msg := msg0
    let q : Nat := 5
    let t : State := tick e (sOwnQ 4)
    let u : State := t.settleMsgs e.half
    (u.accepts e.half m 0x86 .v true = true) ∧ ((u.vdi m.vdi).ownsQueue q = true) ∧ (qHalf q = e.half) ∧ ((u.half e.half).qState (qIdx q) = 0 ∨ 4 ≤ (u.half e.half).qState (qIdx q)) := by decide +kernel

theorem wit_VdiMessages_18 :
    let e : Ev := ev 0
    let m : Msg := msg0
    let q : Nat := 8197
    let t : State := tick e (sFar)
    let u : State := t.settleMsgs e.half
    (u.accepts e.half m 0x86 .v true = true) ∧ ((u.vdi m.vdi).ownsQueue q = true) ∧ (qHalf q ≠ e.half) := by decide +kernel

theorem wit_VdiMessages_19 :
    let e : Ev := ev 0
    let m : Msg := msg0
    let q : Nat := 5
    let t : State := tick e (sOwnQ 4)
    let u : State := t.settleMsgs e.half
    (u.accepts e.half m 0x86 .v true = true) ∧ ((u.half e.half).fld F.TEL_STATE_state m.vdi ≠ 2) ∧ ((u.half e.half).fld F.TEL_STATE_state m.vdi ≠ 3) ∧ ((u.vdi m.vdi).ownsQueue q = true) ∧ (qHalf q = e.half) ∧ ((u.half e.half).qState (qIdx q) = 4) := by decide +kernel

theorem wit_VdiMessages_20 :
    let e : Ev := ev 0
    let m : Msg := msg0
    let q : Nat := 5
    let t : State := tick e (sOwnQ 3)
    let u : State := t.settleMsgs e.half
    (u.accepts e.half m 0x86 .v true = true) ∧ ((u.vdi m.vdi).ownsQueue q = true) ∧ (qHalf q = e.half) ∧ ((u.half e.half).qState (qIdx q) ≠ 4) := by decide +kernel

theorem wit_VdiMessages_21 :
    let e : Ev := ev 0
    let m : Msg := msg0
    let q : Nat := 8197
    let t : State := tick e (sFar)
    let u : State := t.settleMsgs e.half
    (u.accepts e.half m 0x86 .v true = true) ∧ ((u.vdi m.vdi).ownsQueue q = true) ∧ (qHalf q ≠ e.half) := by decide +kernel

theorem wit_VdiMessages_22 :
    let e : Ev := ev 0
    let m : Msg := msg0
    let q : Nat := 5
    let t : State := tick e (sOwnQ 4)
    let u : State := t.settleMsgs e.half
    (u.accepts e.half m 0x86 .v true = true) ∧ ((u.vdi m.vdi).ownsQueue q = true) ∧ (qHalf q = e.half) ∧ ((u.half e.half).qState (qIdx q) ≠ 0) := by decide +kernel

theorem wit_VdiMessages_23 :
    let e : Ev := ev 0
    let m : Msg := msg0
    let q : Nat := 8197
    let t : State := tick e (sFar)
    let u : State := t.settleMsgs e.half
    (u.accepts e.half m 0x86 .v true = true) ∧ ((u.vdi m.vdi).ownsQueue q = true) ∧ (qHalf q ≠ e.half) := by decide +kernel

theorem wit_Migration_1 :
    let e : Ev := ev 0
    let m : Msg := msg0
    let vdi : Nat := 0
    let src : Nat := 2 ^ 63
    let l : List Byte := leBytes 16 (2 ^ 32 + 2 ^ 33 * 2 ^ 64)
    let a : Nat := 2 ^ 32
    let b : Nat := 2 ^ 33
    let t : State := tick e (sStagedOwn (2 ^ 32 + 2 ^ 33 * 2 ^ 64))
    let u : State := t.settleMsgs e.half
    (u.accepts e.half m 0x83 .l false = true) ∧ (u.stepOk e.half vdi [0] = true) ∧ ((u.half e.half).fld F.TEL_STATE_state vdi = 0) ∧ (u.srcBytes e.half m src 16 = (.ok, l)) ∧ (a = leNat l % 2 ^ 64) ∧ (b = leNat l / 2 ^ 64) ∧ (u.reaches a (u.vdi vdi).bitmapSize = true) ∧ (u.reaches b (u.vdi vdi).bitmapSize = true) ∧ ((u.vdi vdi).outOfWindows a (u.vdi vdi).bitmapSize = true) ∧ ((u.vdi vdi).outOfWindows b (u.vdi vdi).bitmapSize = true) := by decide +kernel

theorem wit_Migration_2 :
    let e : Ev := ev 0
    let m : Msg := msg0
    let vdi : Nat := 0
    let t : State := tick e (sPhase 1)
    let u : State := t.settleMsgs e.half
    (u.accepts e.half m 0x83 .l false = true) ∧ (u.stepOk e.half vdi [1, 2] = true) := by decide +kernel

theorem wit_Migration_3 :
    let e : Ev := ev 0
    let m : Msg := msg0
    let vdi : Nat := 0
    let t : State := tick e (sPhase 3)
    let u : State := t.settleMsgs e.half
    (u.accepts e.half m 0x83 .l false = true) ∧ (u.stepOk e.half vdi [1, 2] = false) := by decide +kernel

theorem wit_Migration_4 :
    let e : Ev := ev 0
    let m : Msg := msg0
    let vdi : Nat := 0
    let t : State := tick e (sPhase 2)
    let u : State := t.settleMsgs e.half
    (u.accepts e.half m 0x83 .l true = true) ∧ (u.stepOk e.half vdi [1, 2] = true) := by decide +kernel

theorem wit_Migration_5 :
    let e : Ev := ev 0
    let m : Msg := msg0
    let vdi : Nat := 0
    let t : State := tick e (sPhase 0)
    let u : State := t.settleMsgs e.half
    (u.accepts e.half m 0x83 .l true = true) ∧ (u.stepOk e.half vdi [1, 2] = false) := by decide +kernel

theorem wit_Migration_6 :
    let e : Ev := ev 0
    let m : Msg := msg0
    let vdi : Nat := 0
    let src : Nat := 2 ^ 63
    let l : List Byte := leBytes 16 (0x10000000 + 2 ^ 30 * 2 ^ 64)
    let a : Nat := 0x10000000
    let t : State := tick e (sExport)
    let u : State := t.settleMsgs e.half
    (u.accepts e.half m 0x83 .l true = true) ∧ (u.stepOk e.half vdi [3] = true) ∧ (u.srcBytes e.half m src 16 = (.ok, l)) ∧ (a = leNat l % 2 ^ 64) ∧ ((u.image vdi).length ≤ leNat l / 2 ^ 64) ∧ (u.imageReads e.half vdi = none) ∧ (u.access e.half a (u.image vdi).length = .ok) := by decide +kernel

theorem wit_Migration_7 :
    let e : Ev := ev 0
    let m : Msg := msg0
    let vdi : Nat := 0
    let src : Nat := 2 ^ 63
    let l : List Byte := leBytes 16 0x10000000
    let t : State := tick e ({ sPhase 3 with h0 := (sStaged 0x10000000).h0 })
    let u : State := t.settleMsgs e.half
    (u.accepts e.half m 0x83 .l true = true) ∧ (u.stepOk e.half vdi [3] = true) ∧ (u.srcBytes e.half m src 16 = (.ok, l)) ∧ (leNat l / 2 ^ 64 < (u.image vdi).length) := by decide +kernel

theorem wit_Migration_8 :
    let e : Ev := ev 0
    let m : Msg := msg0
    let vdi : Nat := 0
    let src : Nat := 2 ^ 63
    let l : List Byte := leBytes 16 (0x10000000 + 2 ^ 30 * 2 ^ 64)
    let g : Nat := strBase 0
    let st : Status := .bankShut
    let t : State := tick e (sExport.upd 0 fun x => { x.setFld F.STR_GROUP_STATE_shut 1 with str := { x.str with gran := [(0, 2)] } })
    let u : State := t.settleMsgs e.half
    (u.accepts e.half m 0x83 .l true = true) ∧ (u.stepOk e.half vdi [3] = true) ∧ (u.srcBytes e.half m src 16 = (.ok, l)) ∧ ((u.image vdi).length ≤ leNat l / 2 ^ 64) ∧ (u.imageReads e.half vdi = some (g, st)) ∧ (st ≠ .dataError) := by decide +kernel

theorem wit_Migration_9 :
    let e : Ev := ev 0
    let m : Msg := msg0
    let vdi : Nat := 0
    let t : State := tick e (sPhase 2)
    let u : State := t.settleMsgs e.half
    (u.accepts e.half m 0x83 .l true = true) ∧ (u.stepOk e.half vdi [3] = false) := by decide +kernel

theorem wit_Migration_11 :
    let e : Ev := ev 0
    let m : Msg := msg0
    let vdi : Nat := 0
    let t : State := tick e (sPhase 5)
    let u : State := t.settleMsgs e.half
    (u.accepts e.half m 0x83 .l true = true) ∧ (u.stepOk e.half vdi [5] = true) := by decide +kernel

theorem wit_Migration_12 :
    let e : Ev := ev 0
    let m : Msg := msg0
    let vdi : Nat := 0
    let t : State := tick e (sPhase 4)
    let u : State := t.settleMsgs e.half
    (u.accepts e.half m 0x83 .l true = true) ∧ (u.stepOk e.half vdi [5] = false) := by decide +kernel

theorem wit_Migration_13 :
    let e : Ev := ev 0
    let m : Msg := msg0
    let vdi : Nat := 0
    let t : State := tick e (sPhase 4)
    let u : State := t.settleMsgs e.half
    (u.accepts e.half m 0x83 .l false = true) ∧ ((u.vdi vdi).exists_ = true) ∧ ((u.vdi vdi).half = e.half) ∧ ((u.vdi vdi).migStep ≠ 0) ∧ ((u.vdi vdi).migStep ≠ 5) := by decide +kernel

theorem wit_Migration_14 :
    let e : Ev := ev 0
    let m : Msg := msg0
    let vdi : Nat := 0
    let t : State := tick e (sPhase 5)
    let u : State := t.settleMsgs e.half
    (u.accepts e.half m 0x83 .l false = true) ∧ ((u.vdi vdi).exists_ = true) ∧ ((u.vdi vdi).half = e.half) ∧ ((u.vdi vdi).migStep = 5) := by decide +kernel

theorem wit_Migration_15 :
    let e : Ev := ev 0
    let m : Msg := msg0
    let vdi : Nat := 0
    let t : State := tick e (sPhase 4)
    let u : State := t.settleMsgs e.half
    (u.accepts e.half m 0x83 .l false = true) ∧ (u.stepOk e.half vdi [4] = true) := by decide +kernel

theorem wit_Migration_16 :
    let e : Ev := ev 0
    let m : Msg := msg0
    let vdi : Nat := 0
    let t : State := tick e (sPhase 3)
    let u : State := t.settleMsgs e.half
    (u.accepts e.half m 0x83 .l false = true) ∧ (u.stepOk e.half vdi [4] = false) := by decide +kernel

theorem wit_ServiceMessages_2 :
    let e : Ev := ev 0
    let m : Msg := msg0
    let bytes : Nat := 0
    let t : State := tick e (sMsg)
    let u : State := t.settleMsgs e.half
    (u.accepts e.half m 0x90 .a false = true) ∧ (bytes = 0) := by decide +kernel

theorem wit_ServiceMessages_3 :
    let e : Ev := ev 0
    let m : Msg := msg0
    let off : Nat := 71472
    let bytes : Nat := 1
    let t : State := tick e (sMsg)
    let u : State := t.settleMsgs e.half
    (u.accepts e.half m 0x90 .a false = true) ∧ (bytes ≠ 0) ∧ (71472 < off + bytes) := by decide +kernel

theorem wit_ServiceMessages_5 :
    let e : Ev := ev 0
    let m : Msg := msg0
    let t : State := tick e (sMsg.upd 0 fun x => x.setFld F.SVC_REC_STAT_held 1)
    let u : State := t.settleMsgs e.half
    (u.accepts e.half m 0x91 .l false = true) ∧ ((u.half e.half).fld F.SVC_REC_STAT_held ≠ 0) := by decide +kernel

theorem wit_ServiceMessages_6 :
    let e : Ev := ev 0
    let m : Msg := msg0
    let t : State := tick e (sMsg)
    let u : State := t.settleMsgs e.half
    (u.accepts e.half m 0x91 .l false = true) ∧ ((u.half e.half).fld F.SVC_REC_STAT_held = 0) := by decide +kernel

theorem wit_ServiceMessages_7 :
    let e : Ev := ev 0
    let m : Msg := msg0
    let passes : Bool := true
    let t : State := tick e (sRetired)
    let u : State := t.settleMsgs e.half
    (u.accepts e.half m 0x92 .l false = true) ∧ (passes = true) ∧ ((u.half e.half).svc.record.portRetired = true) := by decide +kernel

theorem wit_ServiceMessages_8 :
    let e : Ev := ev 0
    let m : Msg := msg0
    let passes : Bool := true
    let t : State := tick e (sMsg)
    let u : State := t.settleMsgs e.half
    (u.accepts e.half m 0x92 .l false = true) ∧ (passes = true) ∧ ((u.half e.half).svc.record.portRetired = false) := by decide +kernel

theorem wit_ServiceMessages_9 :
    let e : Ev := ev 0
    let m : Msg := msg0
    let passes : Bool := false
    let t : State := tick e (sMsg)
    let u : State := t.settleMsgs e.half
    (u.accepts e.half m 0x92 .l false = true) ∧ (passes = false) := by decide +kernel

theorem wit_ServiceMessages_10 :
    let e : Ev := ev 0
    let m : Msg := msg0
    let half : Nat := 1
    let t : State := tick e (sMsg)
    let u : State := t.settleMsgs e.half
    (u.accepts e.half m 0x93 .l false = true) ∧ (half < 2) ∧ ((u.half (peer half)).normal = true) := by decide +kernel

theorem wit_ServiceMessages_11 :
    let e : Ev := ev 0
    let m : Msg := msg0
    let half : Nat := 2
    let t : State := tick e (sMsg)
    let u : State := t.settleMsgs e.half
    (u.accepts e.half m 0x93 .l false = true) ∧ (2 ≤ half ∨ (u.half (peer half)).normal = false) := by decide +kernel

theorem wit_ServiceMessages_12 :
    let e : Ev := ev 0
    let m : Msg := msg0
    let half : Nat := 0
    let t : State := tick e (sMsg)
    let u : State := t.settleMsgs e.half
    (u.accepts e.half m 0x93 .l false = true) ∧ (half < 2) ∧ ((u.half (peer half)).normal = true) := by decide +kernel

theorem wit_ServiceMessages_13 :
    let e : Ev := ev 0
    let m : Msg := msg0
    let half : Nat := 2
    let t : State := tick e (sMsg)
    let u : State := t.settleMsgs e.half
    (u.accepts e.half m 0x93 .l false = true) ∧ (2 ≤ half ∨ (u.half (peer half)).normal = false) := by decide +kernel

theorem wit_ServiceMessages_14 :
    let e : Ev := ev 0
    let m : Msg := msg0
    let t : State := tick e (sMsg)
    let u : State := t.settleMsgs e.half
    (u.accepts e.half m 0xA0 .a false = true) ∧ ((∀ v, m.org = .teller v → u.inWindows v dst 0x10000 = true)) := by exact ⟨by decide +kernel, by intro v h; cases h⟩

theorem wit_ServiceMessages_15 :
    let e : Ev := ev 0
    let m : Msg := { org := .teller 0, tag := 7, gen := 0, vdi := 0 }
    let dst : Nat := 2 ^ 32
    let v : Nat := 0
    let t : State := tick e (sMsg)
    let u : State := t.settleMsgs e.half
    (u.accepts e.half m 0xA0 .a false = true) ∧ (m.org = .teller v) ∧ (u.inWindows v dst 0x10000 = false) := by decide +kernel

theorem wit_ServiceMessages_16 :
    let e : Ev := ev 0
    let m : Msg := msg0
    let t : State := tick e (sMsg)
    let u : State := t.settleMsgs e.half
    (u.accepts e.half m 0xC0 .l false = true) := by decide +kernel

theorem wit_ServiceMessages_17 :
    let e : Ev := ev 0
    let m : Msg := msg0
    let t : State := tick e (sMsg)
    let u : State := t.settleMsgs e.half
    (u.accepts e.half m 0xC0 .l false = true) ∧ (u.power ≠ 2) ∧ (u.power ≠ 4) ∧ (u.mayStop = true) ∧ (u.ownedBlock = none) := by decide +kernel

theorem wit_ServiceMessages_18 :
    let e : Ev := ev 0
    let m : Msg := msg0
    let t : State := tick e ({ sMsg with power := 4 })
    let u : State := t.settleMsgs e.half
    (u.accepts e.half m 0xC0 .l false = true) ∧ (u.power = 2 ∨ u.power = 4) := by decide +kernel

theorem wit_ServiceMessages_19 :
    let e : Ev := ev 0
    let m : Msg := msg0
    let t : State := tick e (sMsg.upd 1 fun x => x.setFld F.TLY_TASK_STATE_state 1 0)
    let u : State := t.settleMsgs e.half
    (u.accepts e.half m 0xC0 .l false = true) ∧ (u.power ≠ 2) ∧ (u.power ≠ 4) ∧ (u.mayStop = false) := by decide +kernel

theorem wit_ServiceMessages_20 :
    let e : Ev := ev 0
    let m : Msg := msg0
    let b : Nat × Nat := (0, 0x102)
    let t : State := tick e (sMsg.upd 0 fun x => { x with vaults := { x.vaults with claims := [(0x102, 5)] } })
    let u : State := t.settleMsgs e.half
    (u.accepts e.half m 0xC0 .l false = true) ∧ (u.power ≠ 2) ∧ (u.power ≠ 4) ∧ (u.mayStop = true) ∧ (u.ownedBlock = some b) := by decide +kernel

theorem wit_ServiceMessages_21 :
    let e : Ev := ev 0
    let m : Msg := msg0
    let t : State := tick e (sMsg)
    let u : State := t.settleMsgs e.half
    (u.accepts e.half m 0xC0 .l false = true) ∧ (u.power ≠ 3) ∧ (u.power ≠ 5) ∧ (u.mayStop = true) ∧ (u.ownedBlock = none) := by decide +kernel

theorem wit_ServiceMessages_22 :
    let e : Ev := ev 0
    let m : Msg := msg0
    let t : State := tick e ({ sMsg with power := 5 })
    let u : State := t.settleMsgs e.half
    (u.accepts e.half m 0xC0 .l false = true) ∧ (u.power = 3 ∨ u.power = 5) := by decide +kernel

theorem wit_ServiceMessages_23 :
    let e : Ev := ev 0
    let m : Msg := msg0
    let t : State := tick e (sMsg.upd 1 fun x => x.setFld F.TLY_TASK_STATE_state 1 0)
    let u : State := t.settleMsgs e.half
    (u.accepts e.half m 0xC0 .l false = true) ∧ (u.power ≠ 3) ∧ (u.power ≠ 5) ∧ (u.mayStop = false) := by decide +kernel

theorem wit_ServiceMessages_24 :
    let e : Ev := ev 0
    let m : Msg := msg0
    let b : Nat × Nat := (0, 0x102)
    let t : State := tick e (sMsg.upd 0 fun x => { x with vaults := { x.vaults with claims := [(0x102, 5)] } })
    let u : State := t.settleMsgs e.half
    (u.accepts e.half m 0xC0 .l false = true) ∧ (u.power ≠ 3) ∧ (u.power ≠ 5) ∧ (u.mayStop = true) ∧ (u.ownedBlock = some b) := by decide +kernel

theorem wit_ServiceMessages_25 :
    let e : Ev := ev 0
    let m : Msg := msg0
    let opcode : Nat := 0x14
    let t : State := tick e (sMsg)
    let u : State := t.settleMsgs e.half
    (u.accepts e.half m opcode .a false = true) ∧ (listedOps.contains opcode = false) := by decide +kernel

theorem wit_FirmwareMessages_1 :
    let e : Ev := ev 0
    let m : Msg := msg0
    let off : Nat := 8
    let bytes : Nat := 1
    let src : Nat := 2 ^ 63
    let l : List Byte := [0]
    let c : List Host.Cell := []
    let t : State := tick e (sMsg)
    let u : State := t.settleMsgs e.half
    (u.accepts e.half m 0x94 .l false = true) ∧ (bytes ≠ 0) ∧ (bytes ≤ 131072) ∧ (off + bytes ≤ 0x4000000) ∧ (u.srcBytes e.half m src bytes = (.ok, l)) ∧ (c = cellsWrite ((u.half e.half).slot (u.half e.half).otherSlot) off l) ∧ (pkgLength c ≤ off ∨ off + bytes < pkgLength c) := by decide +kernel

theorem wit_FirmwareMessages_2 :
    let e : Ev := ev 0
    let m : Msg := msg0
    let bytes : Nat := 0
    let t : State := tick e (sMsg)
    let u : State := t.settleMsgs e.half
    (u.accepts e.half m 0x94 .l false = true) ∧ (bytes = 0) := by decide +kernel

theorem wit_FirmwareMessages_3 :
    let e : Ev := ev 0
    let m : Msg := msg0
    let bytes : Nat := 131073
    let t : State := tick e (sMsg)
    let u : State := t.settleMsgs e.half
    (u.accepts e.half m 0x94 .l false = true) ∧ (131072 < bytes) := by decide +kernel

theorem wit_FirmwareMessages_4 :
    let e : Ev := ev 0
    let m : Msg := msg0
    let off : Nat := 0x4000000
    let bytes : Nat := 1
    let t : State := tick e (sMsg)
    let u : State := t.settleMsgs e.half
    (u.accepts e.half m 0x94 .l false = true) ∧ (bytes ≠ 0) ∧ (bytes ≤ 131072) ∧ (0x4000000 < off + bytes) := by decide +kernel

theorem wit_FirmwareMessages_5 :
    let e : Ev := ev 0
    let m : Msg := msg0
    let off : Nat := 8
    let bytes : Nat := 1
    let src : Nat := 2 ^ 63
    let l : List Byte := [9]
    let c : List Host.Cell := [(8, 9)]
    let t : State := tick e (sStaged 9)
    let u : State := t.settleMsgs e.half
    (u.accepts e.half m 0x94 .l false = true) ∧ (bytes ≠ 0) ∧ (bytes ≤ 131072) ∧ (off + bytes ≤ 0x4000000) ∧ (u.srcBytes e.half m src bytes = (.ok, l)) ∧ (c = cellsWrite ((u.half e.half).slot (u.half e.half).otherSlot) off l) ∧ (off < pkgLength c) ∧ (pkgLength c ≤ off + bytes) := by decide +kernel

theorem wit_FirmwareMessages_6 :
    let e : Ev := ev 0
    let m : Msg := msg0
    let t : State := tick e (sMsg)
    let u : State := t.settleMsgs e.half
    (u.accepts e.half m 0x95 .l false = true) := by decide +kernel

theorem wit_FirmwareMessages_7 :
    let e : Ev := ev 0
    let m : Msg := msg0
    let n : Nat := (sMsg.half 0).fld F.SVC_FW_STAT_release
    let t : State := tick e (sMsg.upd 0 fun x => x.setFld F.HTC_LINK_peer_release (x.fld F.SVC_FW_STAT_release))
    let u : State := t.settleMsgs e.half
    (u.accepts e.half m 0x96 .l false = true) ∧ (n = (u.half e.half).fld F.SVC_FW_STAT_release) ∧ (n = u.peerRelease e.half) := by decide +kernel

theorem wit_FirmwareMessages_8 :
    let e : Ev := ev 0
    let m : Msg := msg0
    let t : State := tick e (sMsg.upd 0 fun x => (x.setFld F.SVC_FW_STAT_release 1).setFld F.HTC_LINK_peer_release 2)
    let u : State := t.settleMsgs e.half
    (u.accepts e.half m 0x96 .l false = true) ∧ ((u.half e.half).fld F.SVC_FW_STAT_release ≠ u.peerRelease e.half) := by decide +kernel

theorem wit_FirmwareMessages_9 :
    let e : Ev := ev 0
    let m : Msg := msg0
    let t : State := tick e (sMsg.upd 0 fun x => x.setFld F.SVC_FW_ACT_deferred 1)
    let u : State := t.settleMsgs e.half
    (u.accepts e.half m 0x97 .l false = true) ∧ ((u.half e.half).fld F.SVC_FW_ACT_deferred ≠ 0) := by decide +kernel

theorem wit_FirmwareMessages_10 :
    let e : Ev := ev 0
    let m : Msg := msg0
    let t : State := tick e (sMsg)
    let u : State := t.settleMsgs e.half
    (u.accepts e.half m 0x97 .l false = true) ∧ ((u.half e.half).fld F.SVC_FW_ACT_deferred = 0) := by decide +kernel

theorem wit_Displays_1 :
    let e : Ev := ev 0
    let m : Msg := msg0
    let pipe : Nat := 1
    let src : Nat := 2 ^ 63
    let l : List Byte := leBytes 128 0
    let w : List Nat := List.replicate 16 0
    let t : State := tick e (sMsg)
    let u : State := t.settleMsgs e.half
    (u.accepts e.half m 0xB0 .l false = true) ∧ (pipeHere e.half pipe = true) ∧ (u.srcBytes e.half m src 128 = (.ok, l)) ∧ (w = words64 l 16) ∧ (pipeCfgOk w = true) ∧ (bits (w.getD 0 0) 0 1 ≠ 0 ∨ (u.half e.half).secureOwned (0x200 + pipe % 2) = false) := by decide +kernel

theorem wit_Displays_2 :
    let e : Ev := ev 0
    let m : Msg := msg0
    let pipe : Nat := 2
    let t : State := tick e (sMsg)
    let u : State := t.settleMsgs e.half
    (u.accepts e.half m 0xB0 .l false = true) ∧ (pipeHere e.half pipe = false) := by decide +kernel

theorem wit_Displays_3 :
    let e : Ev := ev 0
    let m : Msg := msg0
    let pipe : Nat := 1
    let src : Nat := 2 ^ 63
    let l : List Byte := leBytes 128 (3841 * 2 ^ 64)
    let t : State := tick e (sMsg.upd 0 fun x => x.setSession 1 (some { session1 with staging := cellsWrite [] 0 (leBytes 128 (3841 * 2 ^ 64)) }))
    let u : State := t.settleMsgs e.half
    (u.accepts e.half m 0xB0 .l false = true) ∧ (pipeHere e.half pipe = true) ∧ (u.srcBytes e.half m src 128 = (.ok, l)) ∧ (pipeCfgOk (words64 l 16) = false) := by decide +kernel

theorem wit_Displays_4 :
    let e : Ev := ev 0
    let m : Msg := msg0
    let pipe : Nat := 1
    let src : Nat := 2 ^ 63
    let l : List Byte := leBytes 128 0
    let t : State := tick e (sMsg.upd 0 fun x => { x with vaults := { x.vaults with claims := [(0x201, 5)] } })
    let u : State := t.settleMsgs e.half
    (u.accepts e.half m 0xB0 .l false = true) ∧ (pipeHere e.half pipe = true) ∧ (u.srcBytes e.half m src 128 = (.ok, l)) ∧ (pipeCfgOk (words64 l 16) = true) ∧ (bits ((words64 l 16).getD 0 0) 0 1 = 0) ∧ ((u.half e.half).secureOwned (0x200 + pipe % 2) = true) := by decide +kernel

theorem wit_Displays_5 :
    let e : Ev := ev 0
    let m : Msg := msg0
    let pipe : Nat := 1
    let src : Nat := 2 ^ 63
    let l : List Byte := leBytes 8 0
    let t : State := tick e (sMsg)
    let u : State := t.settleMsgs e.half
    (u.accepts e.half m 0xB0 .l false = true) ∧ (pipeHere e.half pipe = true) ∧ (u.srcBytes e.half m src 8 = (.ok, l)) := by decide +kernel

theorem wit_Displays_6 :
    let e : Ev := ev 0
    let m : Msg := msg0
    let pipe : Nat := 2
    let t : State := tick e (sMsg)
    let u : State := t.settleMsgs e.half
    (u.accepts e.half m 0xB0 .l false = true) ∧ (pipeHere e.half pipe = false) := by decide +kernel

theorem wit_Displays_7 :
    let e : Ev := ev 0
    let q : Nat := 0
    let c : Nat := 0
    let g : Nat := 1
    let i : Nat := 0
    let head : Bool := true
    let a : Nat := 0x10010000
    let st : Status := .timeout
    let t : State := tick e (sRender.upd 0 fun x => { x with clk := { x.clk with rimUp := false } })
    (c = qCtx ((t.half (qHalf q)).queue (qIdx q)).record) ∧ (g = cPart (t.ctx c).raw) ∧ ((t.half (qHalf q)).nextIndex (qIdx q) = some (i, head)) ∧ (t.gfxPosted q = true) ∧ (t.gfxChosen (qHalf q) g = some q) ∧ (a = qRing ((t.half (qHalf q)).queue (qIdx q)).record + i % qRingSize ((t.half (qHalf q)).queue (qIdx q)).record * 128) ∧ (t.access (qHalf q) a 128 = st) ∧ (st ≠ .ok) := by decide +kernel

theorem wit_Displays_8 :
    let e : Ev := ev 0
    let q : Nat := 0
    let run : RenderRun := render0
    let c : Nat := 0
    let g : Nat := 1
    let i : Nat := 0
    let head : Bool := true
    let a : Nat := 0x10010000
    let p : Nat := 0
    let ps : List Nat := []
    let t : State := tick e (sRender)
    (c = qCtx ((t.half (qHalf q)).queue (qIdx q)).record) ∧ (g = cPart (t.ctx c).raw) ∧ (t.gfxPosted q = true) ∧ (t.gfxChosen (qHalf q) g = some q) ∧ ((t.half (qHalf q)).nextIndex (qIdx q) = some (i, head)) ∧ (a = qRing ((t.half (qHalf q)).queue (qIdx q)).record + i % qRingSize ((t.half (qHalf q)).queue (qIdx q)).record * 128) ∧ (t.access (qHalf q) a 128 = .ok) ∧ (cWeight (t.ctx c).raw ≠ 0) ∧ (t.raCheck (qVdi ((t.half (qHalf q)).queue (qIdx q)).record) (t.rdN a 128) (t.attsIn (qVdi ((t.half (qHalf q)).queue (qIdx q)).record) { w := raWidth (t.rdN a 128), h := raHeight (t.rdN a 128) } run) = none) ∧ ((t.half (qHalf q)).gfxOpen g = p :: ps) := by decide +kernel

theorem wit_Displays_9 :
    let e : Ev := ev 0
    let q : Nat := 0
    let run : RenderRun := render0
    let c : Nat := 0
    let g : Nat := 1
    let i : Nat := 0
    let head : Bool := true
    let a : Nat := 0x10010000
    let t : State := tick e (sRender.updCore 0 0 fun k => { k with graphics := false })
    (c = qCtx ((t.half (qHalf q)).queue (qIdx q)).record) ∧ (g = cPart (t.ctx c).raw) ∧ (t.gfxPosted q = true) ∧ (t.gfxChosen (qHalf q) g = some q) ∧ ((t.half (qHalf q)).nextIndex (qIdx q) = some (i, head)) ∧ (a = qRing ((t.half (qHalf q)).queue (qIdx q)).record + i % qRingSize ((t.half (qHalf q)).queue (qIdx q)).record * 128) ∧ (t.access (qHalf q) a 128 = .ok) ∧ (cWeight (t.ctx c).raw ≠ 0) ∧ (t.raCheck (qVdi ((t.half (qHalf q)).queue (qIdx q)).record) (t.rdN a 128) (t.attsIn (qVdi ((t.half (qHalf q)).queue (qIdx q)).record) { w := raWidth (t.rdN a 128), h := raHeight (t.rdN a 128) } run) = none) ∧ ((t.half (qHalf q)).gfxOpen g = []) := by decide +kernel

theorem wit_Displays_10 :
    let e : Ev := ev 0
    let q : Nat := 0
    let run : RenderRun := render0
    let c : Nat := 0
    let g : Nat := 1
    let i : Nat := 0
    let head : Bool := true
    let a : Nat := 0x10010000
    let st : Status := .badArg
    let t : State := tick e (sRender.wrN 0x10010000 128 (renderDesc + 1))
    (c = qCtx ((t.half (qHalf q)).queue (qIdx q)).record) ∧ (g = cPart (t.ctx c).raw) ∧ (t.gfxPosted q = true) ∧ (t.gfxChosen (qHalf q) g = some q) ∧ ((t.half (qHalf q)).nextIndex (qIdx q) = some (i, head)) ∧ (a = qRing ((t.half (qHalf q)).queue (qIdx q)).record + i % qRingSize ((t.half (qHalf q)).queue (qIdx q)).record * 128) ∧ (t.access (qHalf q) a 128 = .ok) ∧ (cWeight (t.ctx c).raw ≠ 0) ∧ (t.raCheck (qVdi ((t.half (qHalf q)).queue (qIdx q)).record) (t.rdN a 128) (t.attsIn (qVdi ((t.half (qHalf q)).queue (qIdx q)).record) { w := raWidth (t.rdN a 128), h := raHeight (t.rdN a 128) } run) = some st) := by decide +kernel

theorem wit_Displays_11 :
    let e : Ev := ev 0
    let pipe : Nat := 1
    let u : State := (tick (ev 0) sPipe).applyPipe 0 1
    let t : State := tick e (sPipe)
    ((t.half e.half).clk.rimUp = true) ∧ ((t.half e.half).fld F.DSP_PIPE_VT_next_s (pipe % 2) ≤ (t.half e.half).vt.toNat) ∧ ((t.half e.half).fld F.DSP_PIPE_CTL_enable (pipe % 2) ≠ 0) ∧ (u = t.applyPipe e.half (pipe % 2)) ∧ ((u.half e.half).fld F.DSP_PIPE_CTL_enable (pipe % 2) ≠ 0) ∧ ((u.half e.half).fld F.DSP_PIPE_CTL_tt_only (pipe % 2) ≠ 1) ∧ ((u.half e.half).fld F.DSP_PIPE_CTL_blanked (pipe % 2) ≠ 1) := by decide +kernel

theorem wit_Displays_12 :
    let e : Ev := ev 0
    let pipe : Nat := 1
    let u : State := (tick (ev 0) (sPipe.upd 0 fun x => x.setFld F.DSP_PIPE_CTL_tt_only 1 1)).applyPipe 0 1
    let t : State := tick e (sPipe.upd 0 fun x => x.setFld F.DSP_PIPE_CTL_tt_only 1 1)
    ((t.half e.half).clk.rimUp = true) ∧ ((t.half e.half).fld F.DSP_PIPE_VT_next_s (pipe % 2) ≤ (t.half e.half).vt.toNat) ∧ ((t.half e.half).fld F.DSP_PIPE_CTL_enable (pipe % 2) ≠ 0) ∧ (u = t.applyPipe e.half (pipe % 2)) ∧ ((u.half e.half).fld F.DSP_PIPE_CTL_enable (pipe % 2) ≠ 0) ∧ ((u.half e.half).fld F.DSP_PIPE_CTL_tt_only (pipe % 2) = 1 ∨ (u.half e.half).fld F.DSP_PIPE_CTL_blanked (pipe % 2) = 1) := by decide +kernel

theorem wit_Displays_13 :
    let e : Ev := ev 0
    let pipe : Nat := 1
    let u : State := (tick (ev 0) (sPipe.upd 0 fun x => x.setPipe 1 { x.pipe 1 with pending := some (List.replicate 16 0) })).applyPipe 0 1
    let t : State := tick e (sPipe.upd 0 fun x => x.setPipe 1 { x.pipe 1 with pending := some (List.replicate 16 0) })
    ((t.half e.half).clk.rimUp = true) ∧ ((t.half e.half).fld F.DSP_PIPE_VT_next_s (pipe % 2) ≤ (t.half e.half).vt.toNat) ∧ ((t.half e.half).fld F.DSP_PIPE_CTL_enable (pipe % 2) ≠ 0) ∧ (u = t.applyPipe e.half (pipe % 2)) ∧ ((u.half e.half).fld F.DSP_PIPE_CTL_enable (pipe % 2) = 0) := by decide +kernel

theorem wit_Displays_14 :
    let e : Ev := ev 0
    let pipe : Nat := 1
    let t : State := tick e (sPipe)
    ((t.half e.half).clk.rimUp = true) ∧ ((t.half e.half).tally.ghReset = false) ∧ ((t.half e.half).fld F.DSP_PIPE_CTL_enable (pipe % 2) ≠ 0) ∧ (((t.half e.half).pipe (pipe % 2)).linkUp = true) := by decide +kernel

theorem wit_Displays_15 :
    let e : Ev := ev 0
    let pipe : Nat := 1
    let t : State := tick e (sPipe.upd 0 fun x => { x.setPipe 1 { x.pipe 1 with linkUp := false } with vt := 16700000 })
    ((t.half e.half).clk.rimUp = true) ∧ ((t.half e.half).tally.ghReset = false) ∧ ((t.half e.half).fld F.DSP_PIPE_CTL_enable (pipe % 2) ≠ 0) ∧ (((t.half e.half).pipe (pipe % 2)).linkUp = false) ∧ (((t.half e.half).pipe (pipe % 2)).linkDownVt + 16700000 ≤ (t.half e.half).vt.toNat) := by decide +kernel

theorem wit_Displays_16 :
    let e : Ev := ev 0
    let t : State := tick e (sUp)
    ((t.half e.half).clk.rimUp = true) := by decide +kernel

theorem wit_Doors_1 :
    let e : Ev := ev 0
    let hart : Nat := 11
    let vault : Nat := 63
    let entry : Nat := 0
    let raw : Nat := vaultRaw 2
    let pc : Nat := 0x10000040
    let t : State := tick e (sVault)
    (t.runsHart e.half hart = true) ∧ ((t.half e.half).normalWorld hart = true) ∧ (vault < 64) ∧ (raw = ((t.half e.half).vault vault).raw) ∧ (vtState raw = 2) ∧ (t.door raw entry = some pc) ∧ (bits (vtHarts raw) hart 1 = 0) ∧ (vtHarts raw ≠ 0xFFF) := by decide +kernel

theorem wit_Doors_2 :
    let e : Ev := ev 0
    let hart : Nat := 2
    let t : State := tick e (sVault)
    (t.runsHart e.half hart = true) ∧ ((t.half e.half).normalWorld hart = false) := by decide +kernel

theorem wit_Doors_3 :
    let e : Ev := ev 0
    let hart : Nat := 11
    let vault : Nat := 62
    let entry : Nat := 0
    let t : State := tick e (sVault)
    (t.runsHart e.half hart = true) ∧ ((t.half e.half).normalWorld hart = true) ∧ (64 ≤ vault ∨ vtState ((t.half e.half).vault vault).raw ≠ 2 ∨ t.door ((t.half e.half).vault vault).raw entry = none) := by decide +kernel

theorem wit_Doors_4 :
    let e : Ev := ev 0
    let hart : Nat := 11
    let vault : Nat := 63
    let entry : Nat := 0
    let raw : Nat := vaultRaw 2 + 0xFFF * 2 ^ 64
    let pc : Nat := 0x10000040
    let t : State := tick e (sVault.upd 0 fun x => x.setVault 63 { x.vault 63 with raw := vaultRaw 2 + 0xFFF * 2 ^ 64 })
    (t.runsHart e.half hart = true) ∧ ((t.half e.half).normalWorld hart = true) ∧ (vault < 64) ∧ (raw = ((t.half e.half).vault vault).raw) ∧ (vtState raw = 2) ∧ (t.door raw entry = some pc) ∧ (bits (vtHarts raw) hart 1 = 1 ∨ vtHarts raw = 0xFFF) := by decide +kernel

theorem wit_Doors_5 :
    let e : Ev := ev 0
    let hart : Nat := 2
    let t : State := tick e (sVault)
    (t.runsHart e.half hart = true) ∧ ((t.half e.half).normalWorld hart = false) := by decide +kernel

theorem wit_Doors_6 :
    let e : Ev := ev 0
    let hart : Nat := 3
    let t : State := tick e (sVault)
    (t.runsHart e.half hart = true) ∧ ((t.half e.half).normalWorld hart = true) := by decide +kernel

theorem wit_Doors_7 :
    let e : Ev := ev 0
    let hart : Nat := 0
    let mode : Priv := .hs
    let t : State := tick e (sVault)
    (t.runsHart e.half hart = true) ∧ ((t.half e.half).normalWorld hart = true) ∧ (Priv.mayBuild mode = true) ∧ ((t.half e.half).tally.ghReset = false) := by decide +kernel

theorem wit_Doors_8 :
    let e : Ev := ev 0
    let hart : Nat := 0
    let mode : Priv := .hs
    let t : State := tick e (sVault.upd 0 fun x => { x with tally := { x.tally with ghReset := true } })
    (t.runsHart e.half hart = true) ∧ ((t.half e.half).normalWorld hart = true) ∧ (Priv.mayBuild mode = true) ∧ ((t.half e.half).tally.ghReset = true) := by decide +kernel

theorem wit_Doors_9 :
    let e : Ev := ev 0
    let hart : Nat := 0
    let mode : Priv := .s
    let t : State := tick e (sVault)
    (t.runsHart e.half hart = true) ∧ ((t.half e.half).normalWorld hart = false ∨ Priv.mayBuild mode = false) := by decide +kernel

theorem wit_Doors_10 :
    let e : Ev := ev 0
    let vault : Nat := 62
    let t : State := tick e (sVault)
    (vtState ((t.half e.half).vault vault).raw = 1) ∧ ((t.half e.half).tally.ghReset = false) := by decide +kernel

theorem wit_Doors_11 :
    let e : Ev := ev 0
    let vault : Nat := 63
    let t : State := tick e (sVault)
    (vtState ((t.half e.half).vault vault).raw ≠ 1 ∨ (t.half e.half).tally.ghReset = true) := by decide +kernel

theorem wit_Doors_12 :
    let e : Ev := ev 0
    let hart : Nat := 0
    let mode : Priv := .m
    let t : State := tick e (sVault)
    (t.runsHart e.half hart = true) ∧ (((t.half e.half).hart hart).vault = none) ∧ (Priv.mayBuild mode = true) ∧ ((t.half e.half).tally.ghReset = false) := by decide +kernel

theorem wit_Doors_13 :
    let e : Ev := ev 0
    let hart : Nat := 2
    let vault : Nat := 63
    let t : State := tick e (sVault)
    (t.runsHart e.half hart = true) ∧ (((t.half e.half).hart hart).vault = some vault) ∧ ((t.half e.half).tally.ghReset = false) := by decide +kernel

theorem wit_Doors_14 :
    let e : Ev := ev 0
    let hart : Nat := 2
    let vault : Nat := 62
    let n : Nat := 63
    let t : State := tick e (sVault)
    (t.runsHart e.half hart = true) ∧ (((t.half e.half).hart hart).vault = some n) ∧ (n ≠ vault) := by decide +kernel

theorem wit_Doors_15 :
    let e : Ev := ev 0
    let hart : Nat := 0
    let mode : Priv := .u
    let t : State := tick e (sVault)
    (t.runsHart e.half hart = true) ∧ (((t.half e.half).hart hart).vault = none) ∧ (Priv.mayBuild mode = false) := by decide +kernel

theorem wit_Doors_16 :
    let e : Ev := ev 0
    let hart : Nat := 0
    let mode : Priv := .m
    let t : State := tick e (sVault.upd 0 fun x => { x with tally := { x.tally with ghReset := true } })
    (t.runsHart e.half hart = true) ∧ (((t.half e.half).hart hart).vault = none) ∧ (Priv.mayBuild mode = true) ∧ ((t.half e.half).tally.ghReset = true) := by decide +kernel

theorem wit_Doors_17 :
    let e : Ev := ev 0
    let vault : Nat := 61
    let t : State := tick e (sVault)
    (vtState ((t.half e.half).vault vault).raw = 3) := by decide +kernel

theorem wit_Doors_18 :
    let e : Ev := ev 0
    let vault : Nat := 63
    let t : State := tick e (sVault)
    (vtState ((t.half e.half).vault vault).raw ≠ 3) := by decide +kernel

theorem wit_Doors_19 :
    let e : Ev := ev 0
    let hart : Nat := 2
    let n : Nat := 63
    let t : State := tick e (sVault)
    (t.runsHart e.half hart = true) ∧ (((t.half e.half).hart hart).vault = some n) ∧ (vtPriv ((t.half e.half).vault n).raw 3 = true) ∧ ((t.half e.half).tally.ghReset = false) := by decide +kernel

theorem wit_Doors_20 :
    let e : Ev := ev 0
    let hart : Nat := 3
    let t : State := tick e (sVault)
    (t.runsHart e.half hart = true) ∧ (((t.half e.half).hart hart).vault = none) ∧ ((t.half e.half).lifecycle = 0) ∧ ((t.half e.half).tally.ghReset = false) := by decide +kernel

theorem wit_Doors_21 :
    let e : Ev := ev 0
    let hart : Nat := 2
    let n : Nat := 63
    let t : State := tick e (sVault.upd 0 fun x => { x with tally := { x.tally with ghReset := true } })
    (t.runsHart e.half hart = true) ∧ (((t.half e.half).hart hart).vault = some n) ∧ (vtPriv ((t.half e.half).vault n).raw 3 = true) ∧ ((t.half e.half).tally.ghReset = true) := by decide +kernel

theorem wit_Doors_22 :
    let e : Ev := ev 0
    let hart : Nat := 3
    let t : State := tick e (sVault.upd 0 fun x => x.setFld F.SVC_LIFECYCLE_state 1)
    (t.runsHart e.half hart = true) ∧ (((t.half e.half).hart hart).vault = none) ∧ ((t.half e.half).lifecycle ≠ 0) := by decide +kernel

theorem wit_Doors_23 :
    let e : Ev := ev 0
    let hart : Nat := 2
    let t : State := tick e (sVault)
    (t.runsHart e.half hart = true) ∧ ((t.half e.half).mayClaim hart = true) ∧ ((t.half e.half).tally.ghReset = false) := by decide +kernel

theorem wit_Doors_24 :
    let e : Ev := ev 0
    let hart : Nat := 2
    let t : State := tick e (sVault.upd 0 fun x => { x with tally := { x.tally with ghReset := true } })
    (t.runsHart e.half hart = true) ∧ ((t.half e.half).mayClaim hart = true) ∧ ((t.half e.half).tally.ghReset = true) := by decide +kernel

theorem wit_Doors_25 :
    let e : Ev := ev 0
    let hart : Nat := 3
    let t : State := tick e (sVault)
    (t.runsHart e.half hart = true) ∧ ((t.half e.half).mayClaim hart = false) := by decide +kernel

theorem wit_Doors_26 :
    let e : Ev := ev 0
    let hart : Nat := 2
    let t : State := tick e (sVault)
    (t.runsHart e.half hart = true) ∧ ((t.half e.half).mayClaim hart = true) ∧ ((t.half e.half).tally.ghReset = false) := by decide +kernel

theorem wit_Doors_27 :
    let e : Ev := ev 0
    let hart : Nat := 2
    let t : State := tick e (sVault.upd 0 fun x => { x with tally := { x.tally with ghReset := true } })
    (t.runsHart e.half hart = true) ∧ ((t.half e.half).mayClaim hart = true) ∧ ((t.half e.half).tally.ghReset = true) := by decide +kernel

theorem wit_Doors_28 :
    let e : Ev := ev 0
    let hart : Nat := 3
    let t : State := tick e (sVault)
    (t.runsHart e.half hart = true) ∧ ((t.half e.half).mayClaim hart = false) := by decide +kernel

theorem wit_Doors_29 :
    let e : Ev := ev 0
    let hart : Nat := 2
    let t : State := tick e (sVault)
    (t.runsHart e.half hart = true) ∧ ((t.half e.half).normalWorld hart = false) ∧ ((t.half e.half).tally.ghReset = false) := by decide +kernel

theorem wit_Doors_30 :
    let e : Ev := ev 0
    let hart : Nat := 2
    let t : State := tick e (sVault.upd 0 fun x => { x with tally := { x.tally with ghReset := true } })
    (t.runsHart e.half hart = true) ∧ ((t.half e.half).normalWorld hart = false) ∧ ((t.half e.half).tally.ghReset = true) := by decide +kernel

theorem wit_Doors_31 :
    let e : Ev := ev 0
    let hart : Nat := 3
    let t : State := tick e (sVault)
    (t.runsHart e.half hart = true) ∧ ((t.half e.half).normalWorld hart = true) := by decide +kernel

theorem wit_Doors_32 :
    let e : Ev := ev 0
    let t : State := tick e ({ sUp with es := true })
    (t.es = true) ∧ ((t.half e.half).clk.rimUp = true) ∧ ((t.half e.half).tally.ghReset = false) := by decide +kernel

theorem wit_Doors_33 :
    let e : Ev := ev 0
    let t : State := tick e ({ (sVault.upd 0 fun x => { x with tally := { x.tally with ghReset := true } }) with es := true })
    (t.es = true) ∧ ((t.half e.half).clk.rimUp = true) ∧ ((t.half e.half).tally.ghReset = true) := by decide +kernel

theorem wit_Doors_34 :
    let e : Ev := ev 0
    let t : State := tick e ({ sUp with es := false })
    (t.es = false) := by decide +kernel

theorem wit_VaultEvents_1 :
    let e : Ev := ⟨0, 5000⟩
    let hart : Nat := 2
    let n : Nat := 63
    let t : State := tick e (sVault)
    (((t.half e.half).hart hart).vault = some n) ∧ (((t.half e.half).hart hart).sinceVt + vtQuantum ((t.half e.half).vault n).raw * 1000 ≤ (t.half e.half).vt.toNat) := by decide +kernel

theorem wit_VaultEvents_2 :
    let e : Ev := ev 0
    let hart : Nat := 2
    let n : Nat := 63
    let t : State := tick e (sVault)
    (((t.half e.half).hart hart).vault = some n) ∧ ((t.half e.half).vt.toNat < ((t.half e.half).hart hart).sinceVt + vtQuantum ((t.half e.half).vault n).raw * 1000) := by decide +kernel

theorem wit_VaultEvents_3 :
    let e : Ev := ev 0
    let hart : Nat := 2
    let n : Nat := 63
    let t : State := tick e (sVault)
    (((t.half e.half).hart hart).vault = some n) := by decide +kernel

theorem wit_VaultEvents_4 :
    let e : Ev := ev 0
    let hart : Nat := 3
    let t : State := tick e (sVault)
    (((t.half e.half).hart hart).vault = none) := by decide +kernel

theorem wit_VaultEvents_5 :
    let e : Ev := ev 0
    let hart : Nat := 11
    let ident : Nat := 3
    let t : State := tick e (sVault)
    (t.runsHart e.half hart = true) ∧ (kget (fun _ => 0) (t.half e.half).vaults.idents ident = 0) ∧ (((t.half e.half).hart hart).vault.isNone = true) := by decide +kernel

theorem wit_VaultEvents_6 :
    let e : Ev := ev 0
    let hart : Nat := 2
    let t : State := tick e (sVault)
    (t.runsHart e.half hart = true) ∧ (((t.half e.half).hart hart).vault.isNone = false) := by decide +kernel

theorem wit_VaultEvents_7 :
    let e : Ev := ev 0
    let hart : Nat := 11
    let ident : Nat := 7
    let t : State := tick e (sVault)
    (t.runsHart e.half hart = true) ∧ (kget (fun _ => 0) (t.half e.half).vaults.idents ident ≠ 0) ∧ (((t.half e.half).hart hart).vault.isNone = true) := by decide +kernel

theorem wit_VaultEvents_8 :
    let e : Ev := ev 0
    let vault : Nat := 63
    let who : Master := .app 4
    let n : Nat := 4
    let t : State := tick e (sVault)
    (vtState ((t.half e.half).vault vault).raw ≠ 0) ∧ (who = .app n) := by decide +kernel

theorem wit_VaultEvents_9 :
    let e : Ev := ev 0
    let vault : Nat := 63
    let who : Master := .dma 3 0
    let p : Nat := 3
    let i : Nat := 0
    let t : State := tick e (sVault)
    (vtState ((t.half e.half).vault vault).raw ≠ 0) ∧ (who = .dma p i) := by decide +kernel

theorem wit_VaultEvents_10 :
    let e : Ev := ev 0
    let vault : Nat := 63
    let who : Master := .other
    let t : State := tick e (sVault)
    (vtState ((t.half e.half).vault vault).raw ≠ 0) ∧ (who = .steward ∨ who = .other) := by decide +kernel

theorem wit_VaultEvents_11 :
    let e : Ev := ev 0
    let vault : Nat := 0
    let t : State := tick e (sVault)
    (vtState ((t.half e.half).vault vault).raw = 0) := by decide +kernel

theorem wit_VaultEvents_12 :
    let e : Ev := ev 0
    let who : Master := .app 4
    let addr : Nat := 2 ^ 47
    let n : Nat := 4
    let t : State := tick e (sUp)
    (who = .app n) ∧ (t.present addr = false) := by decide +kernel

theorem wit_VaultEvents_13 :
    let e : Ev := ev 0
    let who : Master := .app 4
    let addr : Nat := 0x2000000000
    let n : Nat := 4
    let t : State := tick e (sUp.upd 0 fun x => { x with clk := { x.clk with computeUp := false } })
    (who = .app n) ∧ (t.present addr = true) ∧ (t.appRefused e.half addr = true) := by decide +kernel

theorem wit_VaultEvents_14 :
    let e : Ev := ev 0
    let who : Master := .other
    let addr : Nat := 2 ^ 47
    let t : State := tick e (sUp)
    (who = .steward ∨ who = .other) ∧ (t.present addr = false) := by decide +kernel

theorem wit_VaultEvents_15 :
    let e : Ev := ev 0
    let who : Master := .dma 3 0
    let addr : Nat := 2 ^ 47
    let p : Nat := 3
    let i : Nat := 0
    let t : State := tick e (sUp)
    (who = .dma p i) ∧ (t.reaches addr 1 = false) := by decide +kernel

theorem wit_VaultEvents_16 :
    let e : Ev := ev 0
    let t : State := tick e (sUp.upd 0 fun x => (x.setFld F.TLY_CTL_enable 1).setFld F.WIN_CTL_enable 1)
    ((t.half e.half).fld F.TLY_CTL_enable = 1) ∧ ((t.half e.half).carries = true) := by decide +kernel

/-! ## Hypotheses of the general statements -/

theorem wit_StepRunsTheFront :
    ({ sUp with pending := [.heartbeat (ev 0), .serrHbToggle (ev 1)] } : State).pending = .heartbeat (ev 0) :: [.serrHbToggle (ev 1)] ∧
    State.reset.pending = [] := by decide

theorem wit_StepKeepsInvariant : State.reset.inv ∧ step State.reset = .next State.reset := ⟨rfl, rfl⟩

theorem wit_RunsNeverStop : State.reset.inv := rfl

theorem wit_ResetState : 15 < 16 := by decide

theorem wit_StoresWriteTheirBytesAlone_1 : sUp.access 0 0x10000000 (leBytes 4 7).length none = .ok := by decide +kernel

theorem wit_StoresWriteTheirBytesAlone_2 :
    let t : State := tick (ev 0) sUp
    t.takes 0 true = true ∧ badSpan 0x10000000 (leBytes 4 7).length = false ∧ t.present 0x10000000 = true ∧
      t.access 0 0x10000000 (leBytes 4 7).length = .ok := by decide +kernel

theorem wit_MessagesTurnedAway_1 :
    let m : Msg := { msg0 with gen := 9 }
    let u : State := (tick (ev 0) sMsg).settleMsgs 0
    request (.latchRenew (ev 0) m) = some (m, 0x02, .l, false) ∧ (u.half 0).serves = true ∧ u.turn 0 m 0x02 = true ∧
      u.refusal 0 m 0x02 .l false = some .staleGen := by decide +kernel

theorem wit_MessagesTurnedAway_2 :
    let u : State := (tick (ev 0) State.reset).settleMsgs 0
    request (.latchRenew (ev 0) msg0) = some (msg0, 0x02, .l, false) ∧ ((u.half 0).serves && u.turn 0 msg0 0x02) = false := by decide +kernel

theorem wit_OneHalfCommands : onOneHalf (.heartbeat (ev 1)) = true ∧ ∃ t, exec (.heartbeat (ev 1)) sMsg = .next t := ⟨rfl, _, rfl⟩

theorem wit_CoresAtShipment : 7 < 8 ∧ 15 < 16 := by decide

theorem wit_TileLimit_2 :
    ((tick (ev 0) sMsg).settleMsgs 0).accepts 0 msg0 0x23 .l false = true ∧ bits (2 + 4 * 4) 2 8 < 5 ∧ 200 < bits (2 + 4 * 201) 2 8 := by decide +kernel

theorem wit_TileLimit_3 :
    let u : State := (tick (ev 0) sMsg).settleMsgs 0
    u.accepts 0 msg0 0x23 .l false = true ∧ bits (2 + 4 * 200) 0 2 = 2 ∧ u.partBusy 0 15 = false ∧ 5 ≤ bits (2 + 4 * 5) 2 8 ∧
      bits (2 + 4 * 200) 2 8 ≤ 200 := by decide +kernel

/-- Messages from the Teller pages of VDI 0 and VDI 1. -/
def fromPage (v : Nat) : Msg := { org := .teller v, tag := 1, gen := 0, vdi := 0 }

theorem wit_GenerationsAndPaths_1 :
    let m : Msg := { fromPage 0 with gen := 5 }
    let u : State := (tick (ev 0) sMsg).settleMsgs 0
    request (.vdiReset (ev 0) m) = some (m, 0x81, .v, false) ∧ (u.half 0).serves = true ∧ u.turn 0 m 0x81 = true ∧ (u.half 0).ports.stage ≠ 0 ∧
      u.viaRing 0 m = false ∧ m.org = .teller m.vdi ∧ (u.vdi m.vdi).exists_ = true ∧ m.gen ≠ (u.vdi m.vdi).gen := by decide +kernel

theorem wit_GenerationsAndPaths_2 :
    let u : State := (tick (ev 0) sMsg).settleMsgs 0
    (u.half 0).serves = true ∧ u.turn 0 msg0 0xEE = true ∧ listedOps.contains 0xEE = false := by decide +kernel

theorem wit_GenerationsAndPaths_3 :
    let m : Msg := fromPage 0
    let u : State := (tick (ev 0) sMsg).settleMsgs 0
    request (.latchRelease (ev 0) m) = some (m, 0x03, .l, false) ∧ (u.half 0).serves = true ∧ u.turn 0 m 0x03 = true ∧
      (u.half 0).ports.stage ≠ 0 := by decide +kernel

theorem wit_GenerationsAndPaths_4 :
    let m : Msg := fromPage 1
    let u : State := (tick (ev 0) { sMsg with vdis := sMsg.vdis ++ [(1, { Vdi.absent with exists_ := true, cfg := vdiCfg0 })] }).settleMsgs 0
    request (.vdiReset (ev 0) m) = some (m, 0x81, .v, false) ∧ (u.half 0).serves = true ∧ u.turn 0 m 0x81 = true ∧
      (u.half 0).ports.stage ≠ 0 ∧ m.vdi ≠ 1 := by decide +kernel

/-! ## Hypotheses that a published function stands in: SVC_READ and IMPORT -/

set_option maxRecDepth 100000 in
theorem wit_ServiceMessages_1 :
    let u : State := (tick (ev 0) sMsg).settleMsgs 0
    u.accepts 0 msg0 0x90 .a false = true ∧ (1 ≠ 0) ∧ 71471 + 1 ≤ 71472 ∧ (u.half 0).fld F.SVC_REC_STAT_held ≠ 1 ∧
      ∃ w : State, u.dstBytes 0 msg0 (2 ^ 63) ((((u.half 0).recordBytes 0).drop 71471).take 1) = (.ok, w) := by
  refine ⟨by decide +kernel, by decide, by decide, by decide +kernel, ?_⟩
  have short : ∀ l : List Byte, l.length ≤ 1 → (((tick (ev 0) sMsg).settleMsgs 0).dstBytes 0 msg0 (2 ^ 63) l).1 = .ok := by
    intro l h
    match l, h with
    | [], _ => rfl
    | [_], _ => rfl
  exact ⟨_, Prod.ext (short _ (by simp)) rfl⟩

/-- No valid record is in force on half 0. -/
def sNoRecord : State := sMsg.upd 0 fun x => x.setFld F.SVC_REC_STAT_held 1

set_option maxRecDepth 100000 in
theorem wit_ServiceMessages_4 :
    let u : State := (tick (ev 0) sNoRecord).settleMsgs 0
    u.accepts 0 msg0 0x90 .a false = true ∧ (1 ≠ 0) ∧ 71471 + 1 ≤ 71472 ∧ (u.half 0).fld F.SVC_REC_STAT_held = 1 ∧
      ∃ w : State, u.draw.2.dstBytes 0 msg0 (2 ^ 63) (leBytes 1 u.draw.1) = (.ok, w) := by
  refine ⟨by decide +kernel, by decide, by decide, by decide +kernel, ?_⟩
  have short : ∀ l : List Byte, l.length = 1 → (((tick (ev 0) sNoRecord).settleMsgs 0).draw.2.dstBytes 0 msg0 (2 ^ 63) l).1 = .ok := by
    intro l h
    match l, h with
    | [_], _ => rfl
  exact ⟨_, Prod.ext (short _ rfl) rfl⟩

/-- The bytes after the header of an image of a VDI of half 0 without queues, contexts, granules or windows. -/
def imageBody : List Byte := leBytes 160 0

/-- Such an image of VDI 5, generation 3. -/
def image5 : List Byte :=
  leBytes 4 0x56444D49 ++ leBytes 2 1 ++ leBytes 1 5 ++ leBytes 1 0 ++ leBytes 2 0 ++ leBytes 2 3 ++ leBytes 4 224 ++ leBytes 16 0 ++
    leBytes 32 (Config.sha512 imageBody) ++ imageBody

/-- The Latch holder has staged its address, 0x10000000, and extent, and the image lies there. -/
def sImport : State := { sStaged (0x10000000 + 224 * 2 ^ 64) with mem := cellsWrite [] 0x10000000 image5 }

theorem kget_cellsWrite (l : List Byte) : ∀ (m : List Host.Cell) (a j : Nat),
    kget memD (cellsWrite m a l) j = if a ≤ j ∧ j < a + l.length then l.getD (j - a) 0 else kget memD m j := by
  induction l with
  | nil => intro m a j; simp only [cellsWrite, List.length_nil, Nat.add_zero]; rw [if_neg (by omega)]
  | cons b r ih =>
    intro m a j
    simp only [cellsWrite, ih, kget_kput, List.length_cons]
    by_cases h : j = a
    · subst h; simp
    · simp only [h, if_false]
      by_cases h2 : a + 1 ≤ j ∧ j < a + 1 + r.length
      · rw [if_pos h2, if_pos (by omega)]
        obtain ⟨k, hk⟩ : ∃ k, j - a = k + 1 := ⟨j - a - 1, by omega⟩
        rw [hk]; simp; congr 2; omega
      · rw [if_neg h2, if_neg (by omega)]

theorem length_leBytes (n : Nat) : ∀ v, (leBytes n v).length = n := by
  induction n with
  | zero => intro v; rfl
  | succ n ih => intro v; simp [leBytes, ih]

theorem leNat_leBytes (n : Nat) : ∀ v, leNat (leBytes n v) = v % 2 ^ (8 * n) := by
  induction n with
  | zero => intro v; simp [leBytes, leNat, Nat.mod_one]
  | succ n ih =>
    intro v
    simp only [leBytes, leNat, ih]
    rw [show 8 * (n + 1) = 8 + 8 * n by omega, Nat.pow_add, Nat.mod_mul]
    simp [BitVec.toNat_ofNat]

set_option maxRecDepth 100000 in
theorem read_image (k n : Nat) (h : k + n ≤ 224) :
    ((tick (ev 0) sImport).settleMsgs 0).rdBytes (0x10000000 + k) n = (image5.drop k).take n := by
  have hm : ((tick (ev 0) sImport).settleMsgs 0).mem = cellsWrite [] 0x10000000 image5 := rfl
  have hl : image5.length = 224 := by decide +kernel
  apply List.ext_getElem
  · simp [State.rdBytes, cellsRead, hl]; omega
  · intro i h1 h2
    simp [State.rdBytes, cellsRead] at h1
    simp only [State.rdBytes, cellsRead, hm, List.getElem_map, List.getElem_range, kget_cellsWrite, hl, List.getElem_take, List.getElem_drop]
    rw [if_pos (by omega), show 0x10000000 + k + i - 0x10000000 = k + i by omega, List.getD_eq_getElem _ _ (by omega)]

theorem import_image : (((tick (ev 0) sImport).settleMsgs 0).importVdi 0 5 image5).2 = .ok := by
  unfold State.importVdi
  have h1 : piece image5 32 32 = Config.sha512 imageBody % 2 ^ 256 := leNat_leBytes 32 _
  have hb : (image5.drop 64).take (224 - 64) = imageBody := by decide +kernel
  have h2 : piece image5 12 4 = 224 := by decide +kernel
  simp only [h1, h2, hb, ne_eq, not_true_eq_false, decide_false]
  decide +kernel

set_option maxRecDepth 100000 in
theorem wit_Migration_10 :
    let u : State := (tick (ev 0) sImport).settleMsgs 0
    u.accepts 0 msg0 0x83 .l false = true ∧ (5 ≤ 255) ∧ (u.vdi 5).exists_ = false ∧ (u.half 0).clk.computeUp = true ∧
      u.srcBytes 0 msg0 (2 ^ 63) 16 = (.ok, leBytes 16 (0x10000000 + 224 * 2 ^ 64)) ∧
      leNat (leBytes 16 (0x10000000 + 224 * 2 ^ 64)) % 2 ^ 64 = 0x10000000 ∧
      Nat.min (Nat.min (leNat (leBytes 16 (0x10000000 + 224 * 2 ^ 64)) / 2 ^ 64) (2 ^ 32)) (Nat.max 64 (u.rdN (0x10000000 + 12) 4)) = 224 ∧
      u.access 0 0x10000000 64 = .ok ∧ u.access 0 0x10000000 224 = .ok ∧ ∃ w : State, u.importVdi 0 5 (u.rdBytes 0x10000000 224) = (w, .ok) := by
  refine ⟨by decide +kernel, by decide, by decide +kernel, by decide +kernel, by decide +kernel, by decide +kernel, ?_, by decide +kernel, by decide +kernel, ?_⟩
  · have : ((tick (ev 0) sImport).settleMsgs 0).rdN (0x10000000 + 12) 4 = 224 := by
      rw [State.rdN, read_image 12 4 (by omega)]; decide +kernel
    rw [this]; decide +kernel
  · have h := read_image 0 224 (by omega)
    simp only [Nat.add_zero] at h
    rw [h, show (image5.drop 0).take 224 = image5 from List.take_of_length_le (by decide +kernel)]
    exact ⟨_, Prod.ext rfl import_image⟩

/-! ## Single steps and worked examples of the manual -/

/-- R57: "0x76 is 2^-9, 0x7F is 1.0 and 0x85 is 64. A bound of 0.0059 is written as 0x78". -/
theorem test_ledger_byte : ledBound 0x76 = some (.pow2 1 (-9)) ∧ ledBound 0x7F = some (.pow2 1 0) ∧ ledBound 0x85 = some (.pow2 1 6) ∧
    ledEncode ⟨59, 10000⟩ = 0x78 := by decide +kernel

/-- The layer of chapter 02: L = 5.9094e-3 is written 0x78, and 1.4651e-3 is written 0x76. -/
theorem test_ledger_layer : ledEncode ⟨59094, 10000000⟩ = 0x78 ∧ ledEncode ⟨14651, 10000000⟩ = 0x76 := by decide +kernel

/-- R36, R37: 1.0 in E4M3 is 0x38, its largest finite value 448 is 0x7E, and 0x7F is NaN. -/
theorem test_e4m3 : (decodeFloat 3 0x38) = .fin false 8 (-3) ∧ (decodeFloat 3 0x7E) = .fin false 14 5 ∧ decodeFloat 3 0x7F = .nan := by decide +kernel

/-- Chapter 01: physical core 34 (17 * 2 + 0) carries logical index 32. -/
theorem test_core_example : (State.reset.half 1).logical 34 = some 32 := by decide +kernel

/-- R392: "in block 0x09 MNT_CLASS_CFG is reg 0 and MNT_MISS is reg 6"; WIN_PART_CORES[3] in block 0x06 reads with count 2. -/
theorem test_stats_numbering : (blockRegs 9)[0]? = some .MNT_CLASS_CFG ∧ (blockRegs 9)[6]? = some .MNT_MISS ∧
    (statsWords 9 0 6 5 1).isSome = true ∧ (statsWords 9 0 6 16 1).isSome = false := by decide +kernel

/-- The published check value of CRC-32C over "123456789" (entry 14). -/
theorem test_crc32c : crc32c 0xFFFFFFFF [0x31, 0x32, 0x33, 0x34, 0x35, 0x36, 0x37, 0x38, 0x39] = 0xE3069283 := by decide +kernel

/-- R513: the falling edge of PWRGOOD leaves the package without power. -/
theorem test_power_fall : (match step { sUp with pending := [.powerGoodFall (ev 0)] } with | .next t => some t.power | _ => none) = some 1 := by decide +kernel

/-- R232: a tail beyond the ring changes nothing but is recorded. -/
theorem test_tail_beyond : (match exec (.telDbTailWrite (ev 0) 0 (2 ^ 31)) sQ with
    | .next t => some ((t.half 0).fld F.TEL_DB_TAIL_tail 0 0, (t.half 0).incidents.length) | _ => none) = some (1, 1) := by decide +kernel

/-- R386: a free Latch goes to its taker with the next generation for 100 ms. -/
theorem test_latch_take : (match exec (.latchTake (ev 0) msgDev 77) sFree with
    | .next t => some (t.latch.holder, t.latch.gen, t.latch.expires) | _ => none) = some (some 77, 1, 100000000) := by decide +kernel

/-- R473, R28: an access outside the map reaches no memory and leaves one record in the issuing half's ring. -/
theorem test_out_of_map : (match exec (.fabricOutOfRange (ev 0) (.app 4) (2 ^ 47)) sUp with
    | .next t => some (t.mem, (t.half 0).incidents.length, (t.half 1).incidents.length) | _ => none) = some ([], 1, 0) := by decide +kernel

/-- A word of the table spells no command, so nothing is put in front of the queue (entry 17). -/
theorem test_table_word : decodeTableWord 0 0 = none ∧ State.reset.withFetchWord 0 0 = State.reset := ⟨rfl, rfl⟩

end Sys2Proof.Tests
end

section
/-! The core map at shipment (R19), read from any half whose record lists no exception and whose spares stand in for no core. -/
namespace Sys2Proof.Machine

/-! ## A search over the 17 cores of a group -/

theorem find?_group_eq_some {b k : Nat} {p : Nat → Bool} (hk : k < 17) (hp : p (b + k) = true) (hlt : ∀ j < k, p (b + j) = false) :
    ((List.range 17).map (b + ·)).find? p = some (b + k) := by
  have hfind : (List.range 17).find? (p ∘ (b + ·)) = some k :=
    List.find?_range_eq_some.2 ⟨hp, List.mem_range.2 hk, fun j hj => by simp [hlt j hj]⟩
  rw [List.find?_map, hfind, Option.map_some]

/-! ## A half as shipped -/

/-- The service record lists no core away from its place of R19, and no spare stands in for a core (R281). -/
structure Half.CoresShipped (x : Half) : Prop where
  coreMap : x.svc.record.coreMap = []
  standIn : x.tally.standIn = []

theorem coresShipped_reset (h : Nat) : (State.reset.half h).CoresShipped := by
  have hhalf : State.reset.half h = Half.reset := ite_self _
  rw [hhalf]
  exact ⟨rfl, rfl⟩

namespace Half.CoresShipped

variable {x : Half} {g k : Nat} (hx : x.CoresShipped)
include hx

theorem coreEntry_spare : x.coreEntry (17 * g + 16) = (0xFF, 1) := by
  have hmod : (17 * g + 16) % 17 = 16 := by omega
  rw [Half.coreEntry, hx.coreMap, kget_nil, if_pos hmod]

theorem coreEntry_core (hk : k < 16) : x.coreEntry (17 * g + k) = (16 * g + k, 0) := by
  have hmod : (17 * g + k) % 17 = k := by omega
  have hdiv : (17 * g + k) / 17 = g := by omega
  rw [Half.coreEntry, hx.coreMap, kget_nil, hmod, hdiv, if_neg (by omega), Nat.mul_comm]

theorem logical_spare : x.logical (17 * g + 16) = none := by
  simp [Half.logical, hx.coreEntry_spare, hx.standIn]

theorem logical_core (hk : k < 16) : x.logical (17 * g + k) = some (16 * g + k) := by
  simp [Half.logical, hx.coreEntry_core hk, hx.standIn]

/-- The 16 cores before it are active, so the last core of a group is the one found as its spare. -/
theorem groupSpare_eq : x.groupSpare g = some (17 * g + 16) :=
  find?_group_eq_some (by omega) (by simp [hx.coreEntry_spare]) fun j hj => by simp [hx.coreEntry_core hj]

/-- Cores of a group carry distinct indices, so the search for an index passes over every core before its own. -/
theorem physical_eq (hk : k < 16) : x.physical (16 * g + k) = some (17 * g + k) := by
  have hgroup : (16 * g + k) / 16 * 17 = 17 * g := by omega
  rw [Half.physical, hgroup]
  refine find?_group_eq_some (by omega) (by simp [hx.logical_core hk]) fun j hj => ?_
  have hother : x.logical (17 * g + j) = some (16 * g + j) := hx.logical_core (by omega)
  simp [hother, Nat.ne_of_lt hj]

end Half.CoresShipped

/-- Settles O9: reset leaves the core map and the stand-ins of each half as shipped, and the map of R19 is read from there. -/
theorem coresAtShipment : Obligations.CoresAtShipment := by
  intro h g _
  have hx : (State.reset.half h).CoresShipped := coresShipped_reset h
  refine ⟨hx.groupSpare_eq, hx.logical_spare, fun k hk => ?_⟩
  have hcore : (17 * g + k) / 17 = g := by omega
  have hspare : (17 * g + 16) / 17 = g := by omega
  exact ⟨hcore, hspare, hx.logical_core hk, hx.physical_eq hk⟩

end Sys2Proof.Machine
end

section
/-! The tile limit of a partition (R93): its value at reset, and the PART_WRITE that is refused and the one that is stored. -/
namespace Sys2Proof.Machine

/-! ## Registers that nothing has written -/

theorem regKey_div_reg (r : Reg) (u i w : Nat) : regKey r u i w / 2 ^ 32 = regNum r := by
  unfold regKey
  omega

theorem regKey_index (r : Reg) (u w : Nat) {i : Nat} (hi : i < 2 ^ 12) : regKey r u i w / 2 ^ 4 % 2 ^ 12 = i := by
  unfold regKey
  omega

theorem regKey_word (r : Reg) (u i : Nat) {w : Nat} (hw : w < 2 ^ 4) : regKey r u i w % 2 ^ 4 = w := by
  unfold regKey
  omega

/-- Stated of any key, so that the key of a register stays a variable while the definition is unfolded. -/
theorem regDefault_eq {key i : Nat} {r : Reg} (hreg : allRegs[key / 2 ^ 32]? = some r) (hindex : key / 2 ^ 4 % 2 ^ 12 = i) (hword : key % 2 ^ 4 = 0) :
    regDefault key = BitVec.ofNat 64 (regResetAt r i) := by
  simp only [regDefault, hreg, hindex, hword, Nat.mul_zero, Nat.shiftRight_zero]

theorem regDefault_regKey (r : Reg) (u : Nat) {i : Nat} (hi : i < 2 ^ 12) : regDefault (regKey r u i 0) = BitVec.ofNat 64 (regResetAt r i) := by
  have hreg : allRegs[regKey r u i 0 / 2 ^ 32]? = some r := by rw [regKey_div_reg, allRegs_regNum]
  exact regDefault_eq hreg (regKey_index r u 0 hi) (regKey_word r u i (by decide))

theorem word_of_regs_nil {x : Half} (hx : x.regs = []) (r : Reg) (u : Nat) {i : Nat} (hi : i < 2 ^ 12) : x.word r u i 0 = regResetAt r i % 2 ^ 64 := by
  rw [Half.word, hx, kget_nil, regDefault_regKey r u hi, BitVec.toNat_ofNat]

/-- The reset value of a partition's WIN_PART_CFG: partition 0 is critical, of criticality 15 (R254), and every other field is the same for all. -/
theorem regResetAt_partCfg (p : Nat) :
    regResetAt .WIN_PART_CFG p = (if p = 0 then 0xF else 0) * 2 ^ (2 + 8) + 50 * 2 ^ 2 + (if p = 0 then 1 else 0) := by
  have hkind : F.WIN_PART_CFG_kind.resetAt p = if p = 0 then 1 else 0 := rfl
  have hlimit : F.WIN_PART_CFG_tile_limit_us.resetAt p = 50 := rfl
  have hcrit : F.WIN_PART_CFG_criticality.resetAt p = if p = 0 then 0xF else 0 := rfl
  have hpipes : F.WIN_PART_CFG_pipes.resetAt p = 0 := rfl
  have hbudget : F.WIN_PART_CFG_render_budget_us.resetAt p = 0 := rfl
  simp only [regResetAt, regFields, List.foldl_cons, List.foldl_nil, hkind, hlimit, hcrit, hpipes, hbudget]
  simp only [F.WIN_PART_CFG_kind, F.WIN_PART_CFG_tile_limit_us, F.WIN_PART_CFG_criticality]
  omega

theorem tileLimit_of_regs_nil {x : Half} (hx : x.regs = []) (u : Nat) {p : Nat} (hp : p < 2 ^ 12) : x.fld F.WIN_PART_CFG_tile_limit_us u p = 50 := by
  have hword : x.word .WIN_PART_CFG u p 0 = regResetAt .WIN_PART_CFG p % 2 ^ 64 := word_of_regs_nil hx _ _ hp
  calc x.fld F.WIN_PART_CFG_tile_limit_us u p = bits (x.word .WIN_PART_CFG u p 0) 2 8 := rfl
    _ = bits (regResetAt .WIN_PART_CFG p) 2 8 := by rw [hword, bits_mod _ _ _ _ (by decide)]
    _ = 50 := by rw [regResetAt_partCfg, bits_of_split _ _ _ _ _ (by split <;> decide) (by decide)]

/-! ## The checks of a partition record -/

section
variable {s : State} {h part cfg cores : Nat}

theorem partBad_of_tileLimit (hlim : bits cfg 2 8 < 5 ∨ 200 < bits cfg 2 8) : s.partBad h part cfg cores = true := by
  rcases hlim with hlow | hhigh
  · simp [State.partBad, hlow]
  · simp [State.partBad, hhigh]

theorem partBad_eq_false (hpos : 1 ≤ part) (hpart : part < 16) (hkind : bits cfg 0 2 = 0 ∨ bits cfg 0 2 = 2) (hidle : s.partBusy h part = false)
    (hlow : 5 ≤ bits cfg 2 8) (hhigh : bits cfg 2 8 ≤ 200) : s.partBad h part cfg cores = false := by
  have hpart0 : part ≠ 0 := by omega
  rcases hkind with hunused | hshared
  · simp [State.partBad, hpart0, hpart, hunused, hidle, hlow, hhigh]
  · simp [State.partBad, hpart0, hpart, hshared, hidle, hlow, hhigh]

end

/-! ## PART_WRITE -/

/-- The record that an accepted PART_WRITE leaves in its half (R219). -/
def Half.writePart (x : Half) (part cfg cores : Nat) : Half :=
  (x.setWord .WIN_PART_CFG 0 part 0 (setBits (cfg % 2 ^ 32) 0 2 (if part = 0 then 1 else bits cfg 0 2))).setElem .WIN_PART_CORES (cores % 2 ^ 128) 0 part

theorem tileLimit_writePart (x : Half) (part cfg cores : Nat) : (x.writePart part cfg cores).fld F.WIN_PART_CFG_tile_limit_us 0 part = bits cfg 2 8 := by
  have hreg : Reg.WIN_PART_CORES ≠ F.WIN_PART_CFG_tile_limit_us.reg := by decide
  rw [Half.writePart, fld_setElem_reg _ hreg]
  change bits (Half.word _ .WIN_PART_CFG 0 part 0) 2 8 = bits cfg 2 8
  rw [word_setWord_same, bits_mod _ _ _ _ (by decide), bits_setBits_other _ _ _ _ _ _ (by decide), bits_mod _ _ _ _ (by decide)]

/-- What PART_WRITE does once its message is taken: the refusal with BAD_ARG, or the new record. -/
def State.partWriteBody (s : State) (h part cfg cores : Nat) : State × Status × Nat :=
  if s.partBad h part cfg cores then (s, .badArg, 0) else (s.upd h fun x => x.writePart part cfg cores, .ok, 0)

theorem exec_partWrite (e : Ev) (m : Msg) (part cfg cores : Nat) (s : State) :
    exec (.partWrite e m part cfg cores) s = .next ((tick e s).mboxL e.half m 0x23 fun t => t.partWriteBody e.half part cfg cores) := rfl

section
variable {e : Ev} {m : Msg} {part cfg cores : Nat} {s : State} (ha : ((tick e s).settleMsgs e.half).accepts e.half m 0x23 .l false = true)
include ha

theorem exec_partWrite_refused (hbad : ((tick e s).settleMsgs e.half).partBad e.half part cfg cores = true) :
    exec (.partWrite e m part cfg cores) s = .next (((tick e s).settleMsgs e.half).reply e.half m 0x23 .badArg 0) := by
  rw [exec_partWrite, mboxL_accepted ha]
  simp [State.partWriteBody, hbad]

theorem exec_partWrite_stored (hgood : ((tick e s).settleMsgs e.half).partBad e.half part cfg cores = false) :
    exec (.partWrite e m part cfg cores) s =
      .next (((((tick e s).settleMsgs e.half).upd e.half fun x => x.writePart part cfg cores).saveConf e.half false).reply e.half m 0x23 .ok 0) := by
  rw [exec_partWrite, mboxL_accepted ha]
  simp [State.partWriteBody, hgood]

end

/-- Settles O10: the limit at reset is the register's own reset value; PART_WRITE fails the check of R93, or passes every check and keeps the limit given. -/
theorem tileLimit : Obligations.TileLimit := by
  refine ⟨fun h p hp => ?_, ?_, ?_⟩
  · have hhalf : State.reset.half h = Half.reset := ite_self _
    rw [hhalf]
    exact tileLimit_of_regs_nil rfl 0 (by omega)
  · rintro e m part cfg cores s _ rfl ha hlim
    exact exec_partWrite_refused ha (partBad_of_tileLimit hlim)
  · rintro e m part cfg cores s _ rfl ha hpos hpart hkind hidle hlow hhigh
    have hgood := partBad_eq_false (cores := cores) hpos hpart hkind hidle hlow hhigh
    refine ⟨_, exec_partWrite_stored ha hgood, ?_⟩
    rw [half_upd_same]
    exact tileLimit_writePart _ part cfg cores

end Sys2Proof.Machine
end

section
/-! Mailbox messages that no body sees: an old generation, an opcode that is not listed, and a scope that the path does not allow (R388, R390). -/
namespace Sys2Proof.Machine

variable {s : State} {h v op : Nat} {m : Msg} {sc : Scope} {compute : Bool} {st : Status}

/-! ## A message command and its mailbox step -/

/-- A configuration message is a mailbox step whose body also stores the configuration (R454). -/
theorem next_mboxL_eq_next_mboxW (body : State → State × Status × Nat) :
    ∃ body', (.next (s.mboxL h m op body) : Host.Outcome State Fault Refusal) = .next (s.mboxW h m op .l false body') :=
  ⟨_, by rw [State.mboxL, State.mbox]⟩

/-- Every command that is a message runs one mailbox step with the message, opcode and scope that `request` gives; only the body is its own. -/
theorem exec_eq_mboxW_of_request {i : Instr} (hreq : request i = some (m, op, sc, compute)) (s : State) :
    ∃ body, exec i s = .next ((tick i.ev s).mboxW i.ev.half m op sc compute body) := by
  cases i with
  | unknownOpcode e m' opcode =>
    by_cases hlisted : listedOps.contains opcode = true
    · rw [request, if_pos hlisted] at hreq
      cases hreq
    · rw [request, if_neg hlisted] at hreq
      cases hreq
      exact ⟨_, if_neg hlisted⟩
  | winFrame | partWrite | taskWrite | tlyCfg | winEnableSet | winEnableClear | mntCommit | mntFb | strPatrol | rxCfg | streamCfg | routeDelete
  | fanoutWrite | gtwCfg | slotCfg | portCfg | qbvWrite | peerFenceWrite | peerListWrite | vdiCreate | importImage | dspCfgPipe | dspCfgTelltale =>
    cases hreq
    exact next_mboxL_eq_next_mboxW _
  | _ => cases hreq <;> exact ⟨_, rfl⟩

theorem exec_eq_reply_of_refusal {i : Instr} (hreq : request i = some (m, op, sc, compute))
    (hserves : (((tick i.ev s).settleMsgs i.ev.half).half i.ev.half).serves = true)
    (hturn : ((tick i.ev s).settleMsgs i.ev.half).turn i.ev.half m op = true)
    (hrefusal : ((tick i.ev s).settleMsgs i.ev.half).refusal i.ev.half m op sc compute = some st) :
    exec i s = .next (((tick i.ev s).settleMsgs i.ev.half).reply i.ev.half m op st 0) := by
  obtain ⟨body, hexec⟩ := exec_eq_mboxW_of_request hreq s
  rw [hexec, mboxW_refused hserves hturn hrefusal]

/-! ## Scopes -/

theorem holds_of_teller (horg : m.org = .teller v) : s.holds h m = false := by
  simp [State.holds, horg]

theorem viaRing_of_teller (horg : m.org = .teller v) : s.viaRing h m = false := by
  simp [State.viaRing, horg]

theorem scopeL_of_teller (horg : m.org = .teller v) : s.scopeL h m = some .notOwner := by
  simp [State.scopeL, horg]

theorem scopeV_of_foreign_teller (horg : m.org = .teller v) (hvdi : m.vdi ≠ v) : s.scopeV h m = some .notOwner := by
  simp [State.scopeV, horg, hvdi]

/-- A sender that scope V allows comes to the checks of the VDI itself. -/
theorem scopeV_of_allowed (hsender : s.holds h m = true ∨ m.org = .teller m.vdi) :
    s.scopeV h m =
      if !(s.vdi m.vdi).exists_ then some .badArg else if m.gen ≠ (s.vdi m.vdi).gen then some .staleGen else none := by
  rcases horg : m.org with p | w | k
  case teller =>
    have hown : m.vdi = w := by
      rcases hsender with hholds | hpage
      · rw [holds_of_teller horg] at hholds
        cases hholds
      · rw [horg] at hpage
        exact (Origin.teller.inj hpage).symm
    simp [State.scopeV, horg, hown]
  all_goals
    have hholds : s.holds h m = true := by simpa [horg] using hsender
    simp [State.scopeV, horg, hholds]

theorem scopeV_staleGen (hsender : s.holds h m = true ∨ m.org = .teller m.vdi) (hexists : (s.vdi m.vdi).exists_ = true)
    (hgen : m.gen ≠ (s.vdi m.vdi).gen) : s.scopeV h m = some .staleGen := by
  simp [scopeV_of_allowed hsender, hexists, hgen]

/-! ## Refusals -/

/-- A booted half refuses for its scope what no service ring carried. -/
theorem refusal_of_scopeL (hstage : (s.half h).ports.stage ≠ 0) (hring : s.viaRing h m = false) (hscope : s.scopeL h m = some st) :
    s.refusal h m op .l compute = some st := by
  simp [State.refusal, hstage, hring, hscope]

theorem refusal_of_scopeV (hstage : (s.half h).ports.stage ≠ 0) (hring : s.viaRing h m = false) (hscope : s.scopeV h m = some st) :
    s.refusal h m op .v compute = some st := by
  simp [State.refusal, hstage, hring, hscope]

/-- Scope A without need of the compute domain is refused by the boot stage alone. -/
theorem refusal_scopeA :
    s.refusal h m op .a false =
      if (s.half h).ports.stage = 0 && op ≠ 0x10 && op ≠ 0x94 && op ≠ 0x95 then some .badArg else none := by
  simp [State.refusal]

theorem refusal_scopeA_eq_none_or_badArg : s.refusal h m op .a false = none ∨ s.refusal h m op .a false = some .badArg := by
  rw [refusal_scopeA]
  exact (ite_eq_or_eq _ _ _).symm

/-! ## Opcodes that are not listed -/

/-- The body answers BAD_ARG, and so does the one refusal there can be before it. -/
theorem exec_unknownOpcode_badArg {e : Ev} (hserves : (((tick e s).settleMsgs e.half).half e.half).serves = true)
    (hturn : ((tick e s).settleMsgs e.half).turn e.half m op = true) (hlisted : listedOps.contains op = false) :
    exec (.unknownOpcode e m op) s = .next (((tick e s).settleMsgs e.half).reply e.half m op .badArg 0) := by
  have hnot : ¬ listedOps.contains op = true := ne_true_of_eq_false hlisted
  rcases refusal_scopeA_eq_none_or_badArg (s := (tick e s).settleMsgs e.half) (h := e.half) (m := m) (op := op) with hnone | hbad
  · have haccepts : ((tick e s).settleMsgs e.half).accepts e.half m op .a false = true := by
      simp [State.accepts, hserves, hturn, hnone]
    have hexec : exec (.unknownOpcode e m op) s = .next ((tick e s).mbox e.half m op .a false fun t => (t, .badArg, 0)) := if_neg hnot
    rw [hexec, mbox_accepted haccepts]
  · exact exec_eq_reply_of_refusal (i := .unknownOpcode e m op) (if_neg hnot) hserves hturn hbad

/-- Settles O11: each refusal is the one that the scope gives, and a refused message has its reply as its only effect. -/
theorem generationsAndPaths : Obligations.GenerationsAndPaths := by
  refine ⟨?_, ?_, ?_, ?_⟩
  · rintro i m op k s _ hreq rfl hserves hturn hstage hring hsender hexists hgen
    exact exec_eq_reply_of_refusal hreq hserves hturn (refusal_of_scopeV hstage hring (scopeV_staleGen hsender hexists hgen))
  · rintro e m op s _ rfl hserves hturn hlisted
    exact exec_unknownOpcode_badArg hserves hturn hlisted
  · rintro i m op v k s _ hreq rfl hserves hturn hstage horg
    exact exec_eq_reply_of_refusal hreq hserves hturn (refusal_of_scopeL hstage (viaRing_of_teller horg) (scopeL_of_teller horg))
  · rintro i m op v k s _ hreq rfl hserves hturn hstage horg hvdi
    exact exec_eq_reply_of_refusal hreq hserves hturn (refusal_of_scopeV hstage (viaRing_of_teller horg) (scopeV_of_foreign_teller horg hvdi))

end Sys2Proof.Machine
end

section
/-! What holds of every command and so of every run: a next state, the queue, the ordering code, the elapsed time and the memory's form. -/
namespace Sys2Proof.Machine

/-- The meaning of every command keeps, from the state with its time added, what `Same` names. -/
theorem runs_exec : ∀ (i : Instr) (s : State), Runs (tick i.ev s) (exec i s)
  | .powerGoodRise e, s => .execPowerGoodRise e s
  | .powerGoodFall e, s => .execPowerGoodFall e s
  | .pwrgoodMismatchTimeout e, s => .execPwrgoodMismatchTimeout e s
  | .resetNLow e ns, s => .execResetNLow e ns s
  | .resetNRelease e, s => .execResetNRelease e s
  | .crystalJudgedStable e, s => .execCrystalJudgedStable e s
  | .crystalStartTimeout e, s => .execCrystalStartTimeout e s
  | .pllJudgedLocked e, s => .execPllJudgedLocked e s
  | .clockMonitorFailure e fails, s => .execClockMonitorFailure e fails s
  | .rcOscillatorCheck e ppm, s => .execRcOscillatorCheck e ppm s
  | .coreDividerChange e p div, s => .execCoreDividerChange e p div s
  | .thermalSensorPoll e temps, s => .execThermalSensorPoll e temps s
  | .trimStepTimer e, s => .execTrimStepTimer e s
  | .thermalTrip e src, s => .execThermalTrip e src s
  | .tripCooldownRelease e temps stackTemps, s => .execTripCooldownRelease e temps stackTemps s
  | .dramTemperaturePoll e t0 t1, s => .execDramTemperaturePoll e t0 t1 s
  | .pmbusPoll e fault alertHigh, s => .execPmbusPoll e fault alertHigh s
  | .vrAlertNLow e, s => .execVrAlertNLow e s
  | .emergencyClear e, s => .execEmergencyClear e s
  | .canRouteWake e ctrl, s => .execCanRouteWake e ctrl s
  | .tc10Wake e, s => .execTc10Wake e s
  | .wakeInputBall e ball, s => .execWakeInputBall e ball s
  | .parkEntryComplete e, s => .execParkEntryComplete e s
  | .sleepEntryComplete e, s => .execSleepEntryComplete e s
  | .coreReset e p cause, s => .execCoreReset e p cause s
  | .coreResetDone e p, s => .execCoreResetDone e p s
  | .halfComputeRestart e reason fwStopped, s => .execHalfComputeRestart e reason fwStopped s
  | .halfRimRestart e reason fwStopped, s => .execHalfRimRestart e reason fwStopped s
  | .packageWarmReset e reason fwStopped, s => .execPackageWarmReset e reason fwStopped s
  | .gatehouseReady e, s => .execGatehouseReady e s
  | .rejoinActivation e vt, s => .execRejoinActivation e vt s
  | .telDbTailWrite e q v, s => .execTelDbTailWrite e q v s
  | .telDbCqHeadWrite e q v, s => .execTelDbCqHeadWrite e q v s
  | .coreFreeDispatch e p, s => .execCoreFreeDispatch e p s
  | .contextFetchDone e ctx, s => .execContextFetchDone e ctx s
  | .contextWriteBack e ctx, s => .execContextWriteBack e ctx s
  | .tileEnd e p sched, s => .execTileEnd e p sched s
  | .tileWatchdogFire e p, s => .execTileWatchdogFire e p s
  | .dmaDescriptorEnd e p desc, s => .execDmaDescriptorEnd e p desc s
  | .dmaDescriptorFailure e p desc st, s => .execDmaDescriptorFailure e p desc st s
  | .detectedMemoryError e p mem off, s => .execDetectedMemoryError e p mem off s
  | .nonTileReadError e who addr, s => .execNonTileReadError e who addr s
  | .rowWriteLands e p row, s => .execRowWriteLands e p row s
  | .tokenBarrierPass e p desc, s => .execTokenBarrierPass e p desc s
  | .preemptionRequest e ctx, s => .execPreemptionRequest e ctx s
  | .graphicsSwitchRequest e part, s => .execGraphicsSwitchRequest e part s
  | .modeSwitchDone e p, s => .execModeSwitchDone e p s
  | .waitLocalEvaluation e q, s => .execWaitLocalEvaluation e q s
  | .waitLimitExpiry e q, s => .execWaitLimitExpiry e q s
  | .remoteWatchRepeat e q, s => .execRemoteWatchRepeat e q s
  | .remoteWatchReply e q gen idx, s => .execRemoteWatchReply e q gen idx s
  | .rowConditionEvaluation e w, s => .execRowConditionEvaluation e w s
  | .lagLimitExpiry e w, s => .execLagLimitExpiry e w s
  | .windowPreArm e n, s => .execWindowPreArm e n s
  | .windowInstanceStart e n, s => .execWindowInstanceStart e n s
  | .windowInstanceEndUnmet e n, s => .execWindowInstanceEndUnmet e n s
  | .bankActivationVt e, s => .execBankActivationVt e s
  | .majorFrameEndDisable e, s => .execMajorFrameEndDisable e s
  | .dispatchWatchdog e d, s => .execDispatchWatchdog e d s
  | .dispatchRestartDone e d, s => .execDispatchRestartDone e d s
  | .stewardWatchdog e, s => .execStewardWatchdog e s
  | .stewardRestartDone e, s => .execStewardRestartDone e s
  | .lockstepMismatch e, s => .execLockstepMismatch e s
  | .sieveCommandStart e w, s => .execSieveCommandStart e w s
  | .sieveCommandEnd e, s => .execSieveCommandEnd e s
  | .sieveDataError e, s => .execSieveDataError e s
  | .sieveWatchdog e, s => .execSieveWatchdog e s
  | .patrolRowRead e row err, s => .execPatrolRowRead e row err s
  | .strongroomBankRetire e bank, s => .execStrongroomBankRetire e bank s
  | .bankMoveDone e badRows, s => .execBankMoveDone e badRows s
  | .groupWithdrawal e g, s => .execGroupWithdrawal e g s
  | .granuleZeroed e, s => .execGranuleZeroed e s
  | .shutterClose e unit, s => .execShutterClose e unit s
  | .shutterDrainTimeout e unit, s => .execShutterDrainTimeout e unit s
  | .shutDoorRefusal e unit who, s => .execShutDoorRefusal e unit who s
  | .groupReopenDone e g, s => .execGroupReopenDone e g s
  | .modelLoadDone e key vdi, s => .execModelLoadDone e key vdi s
  | .longPacket e rx vc dt px crcOk corrected, s => .execLongPacket e rx vc dt px crcOk corrected s
  | .frameStart e rx vc frameNo, s => .execFrameStart e rx vc frameNo s
  | .frameEnd e rx vc, s => .execFrameEnd e rx vc s
  | .frameCloseTimeout e slot, s => .execFrameCloseTimeout e slot s
  | .embeddedDataLine e rx vc data, s => .execEmbeddedDataLine e rx vc data s
  | .channelResultDelivered e n, s => .execChannelResultDelivered e n s
  | .roundDueTime e task round, s => .execRoundDueTime e task round s
  | .tallyJudgement e task round, s => .execTallyJudgement e task round s
  | .verdictExchange e task round v, s => .execVerdictExchange e task round v s
  | .verdictExchangeTimeout e task round, s => .execVerdictExchangeTimeout e task round s
  | .lateResultDiscard e task round, s => .execLateResultDiscard e task round s
  | .locatingSearchStep e task, s => .execLocatingSearchStep e task s
  | .assayDue e task ch, s => .execAssayDue e task ch s
  | .assayVerdict e task round, s => .execAssayVerdict e task round s
  | .auditDue e, s => .execAuditDue e s
  | .auditDone e p fail block, s => .execAuditDone e p fail block s
  | .auditOverdue e p, s => .execAuditOverdue e p s
  | .dutyHandover e p, s => .execDutyHandover e p s
  | .degradedEntry e cause, s => .execDegradedEntry e cause s
  | .serrHbCheck e toggling, s => .execSerrHbCheck e toggling s
  | .yieldHalf e, s => .execYieldHalf e s
  | .flitReceive e module ok corrected seq lane, s => .execFlitReceive e module ok corrected seq lane s
  | .hatchLaneRepair e module lane, s => .execHatchLaneRepair e module lane s
  | .hatchModuleFailover e module, s => .execHatchModuleFailover e module s
  | .hatchLinkLoss e, s => .execHatchLinkLoss e s
  | .hatchLinkTraining e peerRelease ok, s => .execHatchLinkTraining e peerRelease ok s
  | .hatchViolation e code type tag, s => .execHatchViolation e code type tag s
  | .mWrite e k addr data, s => .execMWrite e k addr data s
  | .mRead e k addr len, s => .execMRead e k addr len s
  | .amo e k op addr width val, s => .execAmo e k op addr width val s
  | .loadReserved e k hart addr width, s => .execLoadReserved e k hart addr width s
  | .storeConditional e k hart addr width val, s => .execStoreConditional e k hart addr width val s
  | .semaphoreEntryExpiry e idx, s => .execSemaphoreEntryExpiry e idx s
  | .cpl e tag data, s => .execCpl e tag data s
  | .cplSt e tag st, s => .execCplSt e tag st s
  | .resWr e addr data, s => .execResWr e addr data s
  | .msgInterrupt e x hart ident, s => .execMsgInterrupt e x hart ident s
  | .msgQueueCompletionIrq e x q, s => .execMsgQueueCompletionIrq e x q s
  | .msgRemoteWatchRequest e x q gen idx addr val, s => .execMsgRemoteWatchRequest e x q gen idx addr val s
  | .msgRemoteWatchReply e x q gen idx, s => .execMsgRemoteWatchReply e x q gen idx s
  | .msgGatewayFrame e x f dst, s => .execMsgGatewayFrame e x f dst s
  | .msgControlRelay e x frag, s => .execMsgControlRelay e x frag s
  | .resMsgResult e x task ch round st, s => .execResMsgResult e x task ch round st s
  | .resMsgVerdict e x task round v, s => .execResMsgVerdict e x task round v s
  | .vtCompare e x peerVt, s => .execVtCompare e x peerVt s
  | .resMsgGoingDown e x kind reason vt, s => .execResMsgGoingDown e x kind reason vt s
  | .resMsgGatehouseState e x st, s => .execResMsgGatehouseState e x st s
  | .resMsgRepairNotice e x release, s => .execResMsgRepairNotice e x release s
  | .canFrameReceive e bus f, s => .execCanFrameReceive e bus f s
  | .streamIngress e slot seqNum msgs, s => .execStreamIngress e slot seqNum msgs s
  | .streamEgressHoldExpiry e slot, s => .execStreamEgressHoldExpiry e slot s
  | .gatewayQueueDoorbell e gq f, s => .execGatewayQueueDoorbell e gq f s
  | .busOffRecovery e ctrl, s => .execBusOffRecovery e ctrl s
  | .hello e partner seq pid, s => .execHello e partner seq pid s
  | .mailbox e hd msgs, s => .execMailbox e hd msgs s
  | .regRead e hd vdi off count, s => .execRegRead e hd vdi off count s
  | .regWrite e hd vdi off vals, s => .execRegWrite e hd vdi off vals s
  | .dataWrite e hd off data, s => .execDataWrite e hd off data s
  | .dataRead e hd off len, s => .execDataRead e hd off len s
  | .ringFrame e hd index slots, s => .execRingFrame e hd index slots s
  | .peerWatch e src q gen idx addr val rpeer, s => .execPeerWatch e src q gen idx addr val rpeer s
  | .peerReply e src q gen idx, s => .execPeerReply e src q gen idx s
  | .malformedFrame e partner kind, s => .execMalformedFrame e partner kind s
  | .malformedBlockExpiry e partner, s => .execMalformedBlockExpiry e partner s
  | .sessionIdleTimeout e partner, s => .execSessionIdleTimeout e partner s
  | .heartbeat e, s => .execHeartbeat e s
  | .latchLeaseExpiry e, s => .execLatchLeaseExpiry e s
  | .controlPortRetire e selfTestFail, s => .execControlPortRetire e selfTestFail s
  | .latchTake e m pid, s => .execLatchTake e m pid s
  | .latchRenew e m, s => .execLatchRenew e m s
  | .latchRelease e m, s => .execLatchRelease e m s
  | .latchQuery e m, s => .execLatchQuery e m s
  | .devInfo e m, s => .execDevInfo e m s
  | .statsRead e m block clear unit reg index count, s => .execStatsRead e m block clear unit reg index count s
  | .incidentRead e m first count dst, s => .execIncidentRead e m first count dst s
  | .accountRead e m ctx dst, s => .execAccountRead e m ctx dst s
  | .winWrite e m first count src, s => .execWinWrite e m first count src s
  | .winActivate e m vt standby, s => .execWinActivate e m vt standby s
  | .winFrame e m length phase, s => .execWinFrame e m length phase s
  | .partWrite e m part cfg cores, s => .execPartWrite e m part cfg cores s
  | .taskWrite e m task src, s => .execTaskWrite e m task src s
  | .tlyCfg e m base staging audit enable, s => .execTlyCfg e m base staging audit enable s
  | .winEnableSet e m vt, s => .execWinEnableSet e m vt s
  | .winEnableClear e m, s => .execWinEnableClear e m s
  | .mntShadow e m cls cfg ports, s => .execMntShadow e m cls cfg ports s
  | .mntCommit e m, s => .execMntCommit e m s
  | .mntFb e m cfg, s => .execMntFb e m cfg s
  | .strAlloc e m count group, s => .execStrAlloc e m count group s
  | .strFree e m off count, s => .execStrFree e m off count s
  | .cacheSize e m count, s => .execCacheSize e m count s
  | .modelLoad e m key src size, s => .execModelLoad e m key src size s
  | .modelPin e m key, s => .execModelPin e m key s
  | .modelUnpin e m key, s => .execModelUnpin e m key s
  | .strPatrol e m enable, s => .execStrPatrol e m enable s
  | .rxCfg e m rx cfg, s => .execRxCfg e m rx cfg s
  | .streamCfg e m slot src, s => .execStreamCfg e m slot src s
  | .routeWrite e m count src, s => .execRouteWrite e m count src s
  | .routeDelete e m count src, s => .execRouteDelete e m count src s
  | .fanoutWrite e m first count src, s => .execFanoutWrite e m first count src s
  | .gtwCfg e m ctl ovf, s => .execGtwCfg e m ctl ovf s
  | .slotCfg e m slot src, s => .execSlotCfg e m slot src s
  | .portCfg e m udp ip4 pfx4 pfx6 ip6, s => .execPortCfg e m udp ip4 pfx4 pfx6 ip6 s
  | .qbvWrite e m port count cycle base src, s => .execQbvWrite e m port count cycle base src s
  | .peerFenceWrite e m first count src, s => .execPeerFenceWrite e m first count src s
  | .peerListWrite e m first count src, s => .execPeerListWrite e m first count src s
  | .vdiCreate e m vdi profile mark src, s => .execVdiCreate e m vdi profile mark src s
  | .vdiReset e m, s => .execVdiReset e m s
  | .vdiRemove e m vdi, s => .execVdiRemove e m vdi s
  | .logStart e m vdi src, s => .execLogStart e m vdi src s
  | .logSwap e m vdi, s => .execLogSwap e m vdi s
  | .quiesce e m vdi, s => .execQuiesce e m vdi s
  | .exportImage e m vdi src, s => .execExportImage e m vdi src s
  | .importImage e m vdi src, s => .execImportImage e m vdi src s
  | .resumeVdi e m vdi, s => .execResumeVdi e m vdi s
  | .abortMigration e m vdi, s => .execAbortMigration e m vdi s
  | .releaseVdi e m vdi, s => .execReleaseVdi e m vdi s
  | .ctxWrite e m ctx src, s => .execCtxWrite e m ctx src s
  | .queueWrite e m q src, s => .execQueueWrite e m q src s
  | .queueEnable e m q, s => .execQueueEnable e m q s
  | .queueSuspend e m q, s => .execQueueSuspend e m q s
  | .queueResume e m q, s => .execQueueResume e m q s
  | .queueDisable e m q, s => .execQueueDisable e m q s
  | .lateArrivalDiscard e q gen, s => .execLateArrivalDiscard e q gen s
  | .svcRead e m off bytes dst, s => .execSvcRead e m off bytes dst s
  | .svcRebuild e m badCores badBanks, s => .execSvcRebuild e m badCores badBanks s
  | .portRestore e m passes, s => .execPortRestore e m passes s
  | .halfRestartH e m half, s => .execHalfRestartH e m half s
  | .halfRestartM e m half, s => .execHalfRestartM e m half s
  | .fwWrite e m off bytes src, s => .execFwWrite e m off bytes src s
  | .fwActivate e m mask, s => .execFwActivate e m mask s
  | .fwCommit e m, s => .execFwCommit e m s
  | .fwWithdraw e m, s => .execFwWithdraw e m s
  | .attest e m nonce dst, s => .execAttest e m nonce dst s
  | .dspCfgPipe e m pipe src, s => .execDspCfgPipe e m pipe src s
  | .dspCfgTelltale e m pipe src, s => .execDspCfgTelltale e m pipe src s
  | .powerReqRun e m, s => .execPowerReqRun e m s
  | .powerReqPark e m, s => .execPowerReqPark e m s
  | .powerReqSleep e m, s => .execPowerReqSleep e m s
  | .unknownOpcode e m opcode, s => .execUnknownOpcode e m opcode s
  | .telMbxGo e vdi, s => .execTelMbxGo e vdi s
  | .tellerMailboxReply e vdi, s => .execTellerMailboxReply e vdi s
  | .reqTailWrite e pair tail, s => .execReqTailWrite e pair tail s
  | .registerWrite e who reg unit index word val, s => .execRegisterWrite e who reg unit index word val s
  | .render e q run, s => .execRender e q run s
  | .verticalBlank e pipe nextS, s => .execVerticalBlank e pipe nextS s
  | .telltaleCrcCompare e pipe crcs, s => .execTelltaleCrcCompare e pipe crcs s
  | .dramReadEcc e pc bank row unc, s => .execDramReadEcc e pc bank row unc s
  | .rowRemap e pc bank row lost, s => .execRowRemap e pc bank row lost s
  | .ecsScrub e pc bank row, s => .execEcsScrub e pc bank row s
  | .pseudoChannelRetire e idx training, s => .execPseudoChannelRetire e idx training s
  | .stackThrottle e stack level, s => .execStackThrottle e stack level s
  | .guaranteeMiss e port cls, s => .execGuaranteeMiss e port cls s
  | .portRequestHeldRelease e port cls stack bytes write, s => .execPortRequestHeldRelease e port cls stack bytes write s
  | .serviceRecordWriteDone e ok, s => .execServiceRecordWriteDone e ok s
  | .serviceRecordLoad e ok0 ok1, s => .execServiceRecordLoad e ok0 ok1 s
  | .bootSlotFailure e slot, s => .execBootSlotFailure e slot s
  | .trialBootConfirm e, s => .execTrialBootConfirm e s
  | .configStoreApply e bad, s => .execConfigStoreApply e bad s
  | .soakTimer e, s => .execSoakTimer e s
  | .vtServoStep e ev, s => .execVtServoStep e ev s
  | .vtDeviationIncident e devNs, s => .execVtDeviationIncident e devNs s
  | .doorCall e hart vault entry save, s => .execDoorCall e hart vault entry save s
  | .doorRet e hart a0 a1, s => .execDoorRet e hart a0 a1 s
  | .doorCreate e hart mode addr, s => .execDoorCreate e hart mode addr s
  | .vaultSealDone e vault, s => .execVaultSealDone e vault s
  | .doorDestroy e hart mode vault, s => .execDoorDestroy e hart mode vault s
  | .vaultDestroyDone e vault, s => .execVaultDestroyDone e vault s
  | .doorSubmit e hart addr, s => .execDoorSubmit e hart addr s
  | .doorClaim e hart code, s => .execDoorClaim e hart code s
  | .doorRelease e hart code, s => .execDoorRelease e hart code s
  | .doorKey e hart addr label, s => .execDoorKey e hart addr label s
  | .vaultQuantumExpiry e hart, s => .execVaultQuantumExpiry e hart s
  | .vaultException e hart cause, s => .execVaultException e hart cause s
  | .secureInterrupt e hart ident save, s => .execSecureInterrupt e hart ident save s
  | .vaultFilterRefusal e vault who, s => .execVaultFilterRefusal e vault who s
  | .pufReconstruction e ok, s => .execPufReconstruction e ok s
  | .debugUnlock e record, s => .execDebugUnlock e record s
  | .fabricOutOfRange e who addr, s => .execFabricOutOfRange e who addr s
  | .windowEnableFrameStart e, s => .execWindowEnableFrameStart e s
  | .gatehouseResetDone e, s => .execGatehouseResetDone e s
  | .semaphoreEntrySteal e k hart addr width, s => .execSemaphoreEntrySteal e k hart addr width s
  | .uncorrectableHeader e rx, s => .execUncorrectableHeader e rx s
  | .canBusOff e ctrl, s => .execCanBusOff e ctrl s
  | .qbvListSwap e port, s => .execQbvListSwap e port s
  | .repHeadWrite e pair head, s => .execRepHeadWrite e pair head s
  | .mkaFrame e partner ok, s => .execMkaFrame e partner ok s
  | .controlPortLinkLoss e ms, s => .execControlPortLinkLoss e ms s
  | .displayLinkChange e pipe up, s => .execDisplayLinkChange e pipe up s
  | .serrHbToggle e, s => .execSerrHbToggle e s

/-- Settles O2: what `Same` keeps is kept from the state with the command's time added, and that state differs from the first in the time alone. -/
theorem everyCommandAnswers : Obligations.EveryCommandAnswers := by
  intro i s
  obtain ⟨t, hexec, hsame⟩ := runs_exec i s
  exact ⟨t, hexec, hsame.pending.trans (tick_pending s i.ev), hsame.es.trans (tick_es s i.ev), hsame.now.trans (tick_now _ _)⟩

theorem exec_keeps_inv {i : Instr} {s t : State} (hinv : s.inv) (hexec : exec i s = .next t) : t.inv := by
  obtain ⟨t', hexec', hsame⟩ := runs_exec i s
  obtain rfl : t' = t := Host.Outcome.next.inj (hexec'.symm.trans hexec)
  exact hsame.mem (by rwa [tick_mem])

/-! ## Steps -/

theorem step_of_pending_cons {c : Instr} {r : List Instr} {s : State} (hpending : s.pending = c :: r) : step s = exec c { s with pending := r } := by
  rw [step, hpending]

theorem step_of_pending_nil {s : State} (hpending : s.pending = []) : step s = .next s := by
  rw [step, hpending]

/-- Settles O1. -/
theorem stepRunsTheFront : Obligations.StepRunsTheFront :=
  ⟨fun _ _ _ => step_of_pending_cons, fun _ => step_of_pending_nil⟩

/-- A step always answers, with one command fewer in the queue, and keeps the invariant and the ordering code. -/
theorem step_answers {s : State} (hinv : s.inv) : ∃ t, step s = .next t ∧ t.inv ∧ t.es = s.es ∧ t.pending = s.pending.drop 1 := by
  cases hpending : s.pending with
  | nil => exact ⟨s, step_of_pending_nil hpending, hinv, rfl, hpending⟩
  | cons c r =>
    obtain ⟨t, hexec, hrest, hes, -⟩ := everyCommandAnswers c { s with pending := r }
    exact ⟨t, (step_of_pending_cons hpending).trans hexec, exec_keeps_inv (s := { s with pending := r }) hinv hexec, hes, hrest⟩

/-- Settles O3. -/
theorem stepKeepsInvariant : Obligations.StepKeepsInvariant := by
  intro s t hinv hstep
  obtain ⟨t', hstep', hinv', -⟩ := step_answers hinv
  obtain rfl : t' = t := Host.Outcome.next.inj (hstep'.symm.trans hstep)
  exact hinv'

theorem runs_succ_of_step {n : Nat} {s t : State} (hstep : step s = .next t) : runs (n + 1) s = runs n t := by
  rw [runs, hstep]

/-- Settles O4, by induction on the number of steps. -/
theorem runsNeverStop : Obligations.RunsNeverStop := by
  intro n
  induction n with
  | zero => exact fun s hinv => ⟨s, rfl, hinv, rfl, rfl⟩
  | succ n ih =>
    intro s hinv
    obtain ⟨t, hstep, ht, hes, hpending⟩ := step_answers hinv
    obtain ⟨u, hruns, hu, hues, hupending⟩ := ih t ht
    refine ⟨u, (runs_succ_of_step hstep).trans hruns, hu, hues.trans hes, ?_⟩
    rw [hupending, hpending, List.drop_drop, Nat.add_comm]

end Sys2Proof.Machine
end

section
/-! The messages that are turned away (R389, R390, R444). -/
namespace Sys2Proof.Machine

/-- Settles O7: a message command is one mailbox step, which answers a refusal with its status alone and leaves a message that has to wait. -/
theorem messagesTurnedAway : Obligations.MessagesTurnedAway := by
  constructor
  · rintro i m op sc k st s _ hreq rfl hserves hturn hrefusal
    exact exec_eq_reply_of_refusal hreq hserves hturn hrefusal
  · rintro i m op sc k s _ hreq rfl hwaits
    obtain ⟨body, hexec⟩ := exec_eq_mboxW_of_request hreq s
    rw [hexec, mboxW_waits hwaits]

end Sys2Proof.Machine
end

section
/-! The state after reset, register by register. -/
namespace Sys2Proof.Machine

theorem half_reset (h : Nat) : State.reset.half h = Half.reset := ite_self _

/-- A field that nothing has written reads its register's reset value. -/
theorem fld_of_regs_nil {x : Half} (hx : x.regs = []) {f : Fld} (hf : f.lo + f.width ≤ 64) (u : Nat) {i : Nat} (hi : i < 2 ^ 12) :
    x.fld f u i = bits (regResetAt f.reg i) f.lo f.width := by
  rw [Half.fld, if_pos hf, word_of_regs_nil hx _ _ hi, bits_mod _ _ _ _ hf]

theorem fld_half_reset {f : Fld} (hf : f.lo + f.width ≤ 64) : Half.reset.fld f = bits (regResetAt f.reg 0) f.lo f.width :=
  fld_of_regs_nil rfl hf 0 (by decide)

/-- Partition 0 is the critical one, and no other is of a kind (R254). -/
theorem partKind_reset {p : Nat} (hp : p < 2 ^ 12) : Half.reset.fld F.WIN_PART_CFG_kind 0 p = if p = 0 then 1 else 0 := by
  rw [fld_of_regs_nil rfl (by decide) 0 hp]
  change bits (regResetAt .WIN_PART_CFG p) 0 2 = _
  rw [regResetAt_partCfg]
  split <;> rfl

/-- Settles O5. -/
theorem resetState : Obligations.ResetState := by
  refine ⟨rfl, rfl, rfl, rfl, rfl, fun h => ?_⟩
  rw [half_reset]
  refine ⟨rfl, ?_, ?_, ?_, ?_, ?_, fun p hp => partKind_reset (by omega)⟩
  all_goals rw [fld_half_reset (by decide)]; rfl

end Sys2Proof.Machine
end

section
/-! A store to accessible memory, byte by byte, and the result write that does the same across the Hatch (R25, R29, R354). -/
namespace Sys2Proof.Machine

/-- Byte `j` after a write of the bytes `l` from address `a`. -/
theorem kget_cellsWrite (l : List Byte) (m : List Host.Cell) (a j : Nat) :
    kget memD (cellsWrite m a l) j = if a ≤ j ∧ j < a + l.length then l.getD (j - a) 0 else kget memD m j := by
  induction l generalizing m a with
  | nil =>
    have hempty : ¬ (a ≤ j ∧ j < a + 0) := by omega
    rw [cellsWrite, List.length_nil, if_neg hempty]
  | cons b r ih =>
    rw [cellsWrite, ih, List.length_cons, kget_kput]
    rcases Nat.lt_trichotomy j a with hlt | rfl | hgt
    · rw [if_neg (by omega), if_neg (by omega), if_neg (by omega)]
    · rw [if_neg (by omega), if_pos rfl, if_pos (by omega), Nat.sub_self, List.getD_cons_zero]
    · obtain ⟨d, rfl⟩ := Nat.exists_eq_add_of_lt hgt
      rw [if_neg (by omega : a + d + 1 ≠ a), show a + d + 1 - (a + 1) = d by omega, show a + d + 1 - a = d + 1 by omega, List.getD_cons_succ]
      exact if_congr (by omega) rfl rfl

theorem rdBytes_one (s : State) (j : Nat) : s.rdBytes j 1 = [kget memD s.mem j] := rfl

theorem wrBytes_mem (s : State) (a : Nat) (l : List Byte) : (s.wrBytes a l).mem = cellsWrite s.mem a l := by
  rw [State.wrBytes, clearSems_mem]

theorem rdBytes_wrBytes (s : State) (a j : Nat) (l : List Byte) :
    (s.wrBytes a l).rdBytes j 1 = if a ≤ j ∧ j < a + l.length then [l.getD (j - a) 0] else s.rdBytes j 1 := by
  rw [rdBytes_one, rdBytes_one, wrBytes_mem, kget_cellsWrite]
  split <;> rfl

/-- Where the fabric accepts the whole range, a store is a write of its bytes. -/
theorem store_of_access_ok {s : State} {h a : Nat} {l : List Byte} {v : Option Nat} (hok : s.access h a l.length v = .ok) : s.store h a l v = s.wrBytes a l := by
  rw [State.store, hok]

/-- A result write on a link that takes results, within a span and to present memory, is a store (R350, R354). -/
theorem exec_resWr_stores {e : Ev} {a : Nat} {l : List Byte} {s : State} (htakes : (tick e s).takes e.half true = true)
    (hspan : badSpan a l.length = false) (hpresent : (tick e s).present a = true) :
    exec (.resWr e a l) s = .next ((tick e s).store e.half a l) := by
  simp [exec, execResWr, htakes, hspan, hpresent]

/-- Settles O6: an accepted store writes its bytes into the memory, byte by byte, and a result write is such a store. -/
theorem storesWriteTheirBytesAlone : Obligations.StoresWriteTheirBytesAlone := by
  constructor
  · intro s h a j l v hok
    rw [store_of_access_ok hok, rdBytes_wrBytes]
  · rintro e a j l s _ rfl htakes hspan hpresent hok
    have hstore : (tick e s).store e.half a l = (tick e s).wrBytes a l := store_of_access_ok hok
    have hexec := exec_resWr_stores htakes hspan hpresent
    refine ⟨(tick e s).wrBytes a l, hexec.trans (congrArg _ hstore), by simp, by simp, by simp, ?_⟩
    rw [rdBytes_wrBytes, rdBytes_one, rdBytes_one, tick_mem]

end Sys2Proof.Machine
end

section
/-! Accepted messages by what their bodies answer: one rule for each way that a message command is written (R387, R389, R454). -/
namespace Sys2Proof.Machine

variable {s t u : State} {h op pay : Nat} {m : Msg} {sc : Scope} {compute : Bool} {st : Status}

section
variable (hu : u = s.settleMsgs h) (haccepts : u.accepts h m op sc compute = true)
include hu haccepts

/-- A body that answers a status has its effect, and the reply follows. -/
theorem next_mboxW_replies {body : State → State × Option (Status × Nat)} (hbody : body u = (t, some (st, pay))) :
    (.next (s.mboxW h m op sc compute body) : Host.Outcome State Fault Refusal) = .next (t.reply h m op st pay) := by
  subst hu
  rw [mboxW_accepted haccepts, hbody]

/-- A body that answers none has its effect, and the reply comes later. -/
theorem next_mboxW_later {body : State → State × Option (Status × Nat)} (hbody : body u = (t, none)) :
    (.next (s.mboxW h m op sc compute body) : Host.Outcome State Fault Refusal) = .next t := by
  subst hu
  rw [mboxW_accepted haccepts, hbody]

theorem next_mbox_replies {body : State → State × Status × Nat} (hbody : body u = (t, st, pay)) :
    (.next (s.mbox h m op sc compute body) : Host.Outcome State Fault Refusal) = .next (t.reply h m op st pay) := by
  subst hu
  rw [mbox_accepted haccepts, hbody]

end

section
variable (hu : u = s.settleMsgs h) (haccepts : u.accepts h m op .l false = true) {body : State → State × Status × Nat}
include hu haccepts

/-- A configuration that succeeds is stored before its reply (R454). -/
theorem next_mboxL_stores (hbody : body u = (t, .ok, pay)) :
    (.next (s.mboxL h m op body) : Host.Outcome State Fault Refusal) = .next ((t.saveConf h false).reply h m op .ok pay) := by
  subst hu
  rw [mboxL_accepted haccepts, hbody, if_pos rfl]

theorem next_mboxL_refuses (hbody : body u = (t, st, pay)) (hst : st ≠ .ok) :
    (.next (s.mboxL h m op body) : Host.Outcome State Fault Refusal) = .next (t.reply h m op st pay) := by
  subst hu
  rw [mboxL_accepted haccepts, hbody, if_neg hst]

end

/-- A message whose source record reads goes on with the record. -/
theorem withSrc_read {src n : Nat} {l : List Byte} (hread : s.srcBytes h m src n = (.ok, l)) (k : List Byte → State × Status × Nat) :
    s.withSrc h m src n k = k l := by
  simp only [State.withSrc, hread]

/-- A message whose destination takes its bytes answers with them written. -/
theorem withDst_written {dst : Nat} {l : List Byte} (hwritten : s.dstBytes h m dst l = (.ok, t)) (pay : Nat) :
    s.withDst h m dst l pay = (t, .ok, pay) := by
  simp only [State.withDst, hwritten]

end Sys2Proof.Machine
end

section
/-! PWRGOOD and RESET_N: what each edge does to the halves (R513, R514, R515, R517). -/
set_option Elab.async false
namespace Sys2Proof.Machine
/-- Settles O12: each edge and judgement by its command's meaning, under the power state that its row names. -/
theorem powerAndResetBalls : Obligations.PowerAndResetBalls := by
  refine ⟨?_, ?_, ?_, ?_, ?_, ?_, ?_, ?_⟩
  · rintro e s t ht hpwrgood hpower
    simp [exec, execPowerGoodRise, ← ht, hpwrgood, hpower]
  · rintro e s t ht hpwrgood hpower hslpN
    simp [exec, execPowerGoodRise, ← ht, hpwrgood, hpower, hslpN]
  · rintro e s t ht hpower
    simp [exec, execPowerGoodFall, ← ht, hpower]
  · rintro e s t ht hpower
    simp [exec, execPowerGoodFall, ← ht, hpower]
  · rintro e s t ht hpower hnotSleep
    simp [exec, execPwrgoodMismatchTimeout, ← ht, hpower, hnotSleep]
  · rintro e ns s t ht hpowered hpulse
    have hlong : ¬ ns < 100 ∧ ¬ ns < 1000 := by omega
    simp [exec, execResetNLow, ← ht, hpowered, hlong]
  · rintro e ns s t ht hns
    simp [exec, execResetNLow, ← ht, hns]
  · rintro e s t ht
    simp [exec, execResetNRelease, ← ht]
end Sys2Proof.Machine
end

section
/-! Crystal and PLL at a rim start (R492, R503, R452). -/
set_option Elab.async false
namespace Sys2Proof.Machine
/-- Settles O13: each judgement of a rim start by its command's meaning. -/
theorem rimStart : Obligations.RimStart := by
  refine ⟨?_, ?_, ?_⟩
  · rintro e s t ht hstarting hxtalOk
    simp [exec, execCrystalJudgedStable, ← ht, hstarting, hxtalOk]
  · rintro e s t ht hstarting hxtalOk
    simp [exec, execCrystalStartTimeout, ← ht, hstarting, hxtalOk]
  · rintro e s t ht hstarting hxtalOk hrimUp
    simp [exec, execPllJudgedLocked, ← ht, hstarting, hxtalOk, hrimUp]
end Sys2Proof.Machine
end

section
/-! Clock monitor, RC oscillator and core dividers (R494, R495, R496, R497). -/
set_option Elab.async false
namespace Sys2Proof.Machine
/-- Settles O14: each failure by its command's meaning; of a divider change, the core's duty decides. -/
theorem clockFailures : Obligations.ClockFailures := by
  refine ⟨?_, ?_, ?_, ?_⟩
  · rintro e fails s t ht hinReset hfails hpowered hclk
    simp [exec, execClockMonitorFailure, ← ht, hinReset, hfails, hpowered, hclk]
  · rintro e fails s t ht hinReset hfails hpowered hclk
    simp [exec, execClockMonitorFailure, ← ht, hinReset, hfails, hpowered, hclk]
  · rintro e ppm s t ht hrimUp hstewardDown hppm
    have hout : 850000 ≤ ppm → ¬ ppm ≤ 1150000 := by omega
    simp +contextual [exec, execRcOscillatorCheck, ← ht, hrimUp, hstewardDown, hout]
  · rintro e p div s t ht hcomputeUp hstewardDown hp hdiv
    rcases hdiv with rfl | rfl <;> simp [exec, execCoreDividerChange, ← ht, hcomputeUp, hstewardDown, hp.not_ge]
end Sys2Proof.Machine
end

section
/-! Sensor polls, TRIM steps and TRIPs (R501, R502, R327). -/
set_option Elab.async false
namespace Sys2Proof.Machine
/-- Settles O15: each poll, step and TRIP by its command's meaning under its row's thresholds. -/
theorem temperatures : Obligations.Temperatures := by
  refine ⟨?_, ?_, ?_, ?_, ?_, ?_⟩
  · rintro e temps s t ht hrimUp hstewardDown htemps
    simp [exec, execThermalSensorPoll, ← ht, hrimUp, hstewardDown, htemps]
  · rintro e s t ht hrimUp hstewardDown hdiv hhot htrimVt
    have hdivs : (t.half e.half).fld F.CLK_TRIM_div ≠ 0 ∧ (t.half e.half).fld F.CLK_TRIM_div ≠ 3 := by omega
    simp [exec, execTrimStepTimer, ← ht, hrimUp, hstewardDown, hdivs, hhot.not_gt, htrimVt.not_gt]
  · rintro e src n s t ht hrimUp rfl
    simp [exec, execThermalTrip, ← ht, hrimUp]
  · rintro e src n s t ht hrimUp rfl
    simp [exec, execThermalTrip, ← ht, hrimUp]
  · rintro e temps stackTemps s t ht htripHold hall
    simp [exec, execTripCooldownRelease, ← ht, htripHold, hall]
  · rintro e t0 t1 s t ht hrimUp hstewardDown
    simp [exec, execDramTemperaturePoll, ← ht, hrimUp, hstewardDown]
end Sys2Proof.Machine
end

section
/-! Supply alert and emergencies (R516, R466, R498). -/
set_option Elab.async false
namespace Sys2Proof.Machine
/-- Settles O16: each row by its command's meaning; a deadline that has passed is one that the guard no longer exceeds. -/
theorem supplyAndEmergency : Obligations.SupplyAndEmergency := by
  refine ⟨?_, ?_, ?_, ?_⟩
  · rintro e fault alertHigh s t ht hrimUp hstewardDown rfl rfl
    simp [exec, execPmbusPoll, ← ht, hrimUp, hstewardDown]
  · rintro e fault alertHigh v s t ht hrimUp hstewardDown rfl rfl hsupplyVt hsupplyFault hv
    simp [exec, execPmbusPoll, ← ht, hrimUp, hstewardDown, hsupplyVt, hsupplyFault, hv]
  · rintro e s t ht hrimUp
    simp [exec, execVrAlertNLow, ← ht, hrimUp]
  · rintro e v s t ht hemgClearVt hv hstewardDown
    simp [exec, execEmergencyClear, ← ht, hemgClearVt, hv.not_gt, hstewardDown]
end Sys2Proof.Machine
end

section
/-! Wake sources end PARK; PARK and SLEEP are entered (R499, R500, R515). -/
set_option Elab.async false
namespace Sys2Proof.Machine

/-! A wake source (R500) -/

theorem wakeUp_of_park {s : State} (hpark : s.power = 2) (src unit : Nat) (fromSleep : Bool) :
    s.wakeUp src unit fromSleep = ((s.noteWake src unit).leave).emit (.wake src unit) := by
  simp [State.wakeUp, hpark]

theorem wakeUp_of_sleep {s : State} (hsleep : s.power = 3) (hslpN : s.h0.clk.slpN = false) (src unit : Nat) :
    s.wakeUp src unit true = ((s.noteWake src unit).leave).emit (.wake src unit) := by
  simp [State.wakeUp, hsleep, hslpN]

theorem wakeUp_of_parkEntry {s : State} (hentry : s.power = 4) (src unit : Nat) (fromSleep : Bool) :
    s.wakeUp src unit fromSleep = { s with wakeLatched := some (src, unit) } := by
  simp [State.wakeUp, hentry]

theorem wakeUp_of_sleepEntry {s : State} (hentry : s.power = 5) (src unit : Nat) :
    s.wakeUp src unit true = { s with wakeLatched := some (src, unit) } := by
  simp [State.wakeUp, hentry]

/-- Settles O17: every source calls `State.wakeUp`, which has one rule for each power state. -/
theorem wakesAndSleep : Obligations.WakesAndSleep := by
  refine ⟨?_, ?_, ?_, ?_, ?_, ?_, ?_, ?_, ?_⟩
  · rintro e ctrl s t ht hpower
    simp [exec, execCanRouteWake, ← ht, wakeUp_of_park hpower]
  · rintro e s t ht hpower
    simp [exec, execTc10Wake, ← ht, wakeUp_of_park hpower]
  · rintro e s t ht hpower hslpN
    simp [exec, execTc10Wake, ← ht, wakeUp_of_sleep hpower hslpN]
  · rintro e ctrl s t ht hpower
    simp [exec, execCanRouteWake, ← ht, wakeUp_of_parkEntry hpower]
  · rintro e s t ht hpower
    simp [exec, execTc10Wake, ← ht, wakeUp_of_sleepEntry hpower]
  · rintro e ball s t ht hpower
    simp [exec, execWakeInputBall, ← ht, wakeUp_of_park hpower]
  · rintro e ball s t ht hpower hslpN
    simp [exec, execWakeInputBall, ← ht, wakeUp_of_sleep hpower hslpN]
  · rintro e s t ht hpower
    simp [exec, execParkEntryComplete, ← ht, hpower]
  · rintro e s t ht hpower
    simp [exec, execSleepEntryComplete, ← ht, hpower]
end Sys2Proof.Machine
end

section
/-! Core reset, H, M and K (R99, R311, R313, R504). -/
set_option Elab.async false
namespace Sys2Proof.Machine
/-- Settles O18: each reset by its command's meaning, under the state of the core or of the package. -/
theorem halfAndPackageResets : Obligations.HalfAndPackageResets := by
  refine ⟨?_, ?_, ?_, ?_, ?_⟩
  · rintro e p cause s t ht hcomputeUp hp hresetting
    simp [exec, execCoreReset, ← ht, hcomputeUp, hp.not_ge, hresetting]
  · rintro e p s t ht
    simp [exec, execCoreResetDone, ← ht]
  · rintro e reason fwStopped s t ht hpowered
    simp [exec, execHalfComputeRestart, ← ht, hpowered]
  · rintro e reason fwStopped s t ht hpowered
    simp [exec, execHalfRimRestart, ← ht, hpowered]
  · rintro e reason fwStopped s t ht hpowered
    simp [exec, execPackageWarmReset, ← ht, hpowered]
end Sys2Proof.Machine
end

section
/-! Gatehouse ready and rejoin (R290, R518). -/
set_option Elab.async false
namespace Sys2Proof.Machine
/-- Settles O19: each row by its command's meaning, the conditions of both halves taken from the row. -/
theorem readyAndRejoin : Obligations.ReadyAndRejoin := by
  refine ⟨?_, ?_, ?_⟩
  · rintro e s t ht hmayReady hvtAgrees
    simp [exec, execGatehouseReady, ← ht, hmayReady, hvtAgrees]
  · rintro e vt s t ht hmayRejoin hmayRejoinOther hnormal hconfFits
    simp only [Bool.and_eq_false_iff] at hconfFits
    rcases hconfFits with h0 | h1
    · simp [exec, execRejoinActivation, ← ht, hmayRejoin, hmayRejoinOther, hnormal, h0]
    · simp [exec, execRejoinActivation, ← ht, hmayRejoin, hmayRejoinOther, hnormal, h1]
  · rintro e vt s t ht hmayRejoin hmayRejoinOther hnormal hconfFits
    obtain ⟨h0, h1⟩ := (Bool.and_eq_true _ _).mp hconfFits
    simp [exec, execRejoinActivation, ← ht, hmayRejoin, hmayRejoinOther, hnormal, h0, h1]
end Sys2Proof.Machine
end

section
/-! Tiles of a command on a core (R91, R94, R95, R96, R98, R112, R114). -/
set_option Elab.async false
namespace Sys2Proof.Machine

/-- A tile that has computed needs nothing more of the engines. -/
theorem compute_of_computed {r : Run} (hcomputed : r.computed = true) (s : State) (h p : Nat) (sched : List Nat) :
    s.compute h p r sched = (s, r, .ok) := by
  simp [State.compute, hcomputed]

/-! A tile past its limit (R94, R95) -/

section
variable {s : State} {h p q : Nat} {r : Run} (horg : r.org = .queue q) (hfallback : r.fallback = false)
include horg hfallback

theorem overrun_requeues (hfew : (((s.half h).queue (qIdx q)).counts r.index).overruns < 2) :
    s.overrun h p r = (s.incident h 0x01 p .preempted (causeDetail 2 ((((s.half h).queue (qIdx q)).counts r.index).overruns + 1))).requeueCore h p r 2 1 0 := by
  have hthird : ¬ 3 ≤ (((s.half h).queue (qIdx q)).counts r.index).overruns + 1 := by omega
  simp only [State.overrun, horg, hfallback, hthird, Bool.false_eq_true, if_false]

theorem overrun_ends (hthird : 2 ≤ (((s.half h).queue (qIdx q)).counts r.index).overruns) :
    s.overrun h p r = (s.incident h 0x01 p .preempted (causeDetail 2 ((((s.half h).queue (qIdx q)).counts r.index).overruns + 1))).finishCore h p r .timeout
      (causeDetail 2 ((((s.half h).queue (qIdx q)).counts r.index).overruns + 1)) := by
  have hthree : 3 ≤ (((s.half h).queue (qIdx q)).counts r.index).overruns + 1 := by omega
  simp only [State.overrun, horg, hfallback, hthree, Bool.false_eq_true, if_false, if_true]

end

theorem overrun_of_entry {r : Run} {n : Nat} (horg : r.org = .entry n) (s : State) (h p : Nat) :
    s.overrun h p r = (s.zeroUndone h p r.dropTile).finishCore h p r .timeout (causeDetail 2 1) := by
  rw [State.overrun, horg]

/-- Settles O20: a tile's end by what the engines have done, and an overrun by its command's origin and count. -/
theorem tiles : Obligations.Tiles := by
  refine ⟨?_, ?_, ?_, ?_, ?_, ?_, ?_, ?_, ?_⟩
  · rintro e p sched r s t ht hrun hcomputed htile hfail hstores
    simp [exec, execTileEnd, ← ht, hrun, compute_of_computed hcomputed, hcomputed, htile, hfail, hstores]
  · rintro e p sched r a s t ht hrun ha hcomputes htile hcomputed hfail hstores
    simp [exec, execTileEnd, ← ht, hrun, ← ha, hcomputes, htile.not_ge, hcomputed, hfail, hstores]
  · rintro e p sched s t ht hrun
    simp [exec, execTileEnd, ← ht, hrun]
  · rintro e p r q s t ht hrun horg hfallback htimeUp htileEnded hoverruns
    simp [exec, execTileWatchdogFire, ← ht, hrun, htimeUp, htileEnded, overrun_requeues horg hfallback hoverruns]
  · rintro e p r q s t ht hrun horg hfallback htimeUp htileEnded hthird
    simp [exec, execTileWatchdogFire, ← ht, hrun, htimeUp, htileEnded, overrun_ends horg hfallback hthird]
  · rintro e p r n s t ht hrun horg htimeUp htileEnded
    simp [exec, execTileWatchdogFire, ← ht, hrun, htimeUp, htileEnded, overrun_of_entry horg]
  · rintro e p row s t ht hmark hrun
    simp [exec, execRowWriteLands, ← ht, hmark, hrun]
  · rintro e p row r tag s t ht hmark hrun hmarker
    simp only [exec, execRowWriteLands, ← ht, hmark, hrun, hmarker, if_false]
  · rintro e p desc r tag s t ht hrun hheadTag htoken hdmaRows hrowMark
    simp [-List.getD_eq_getElem?_getD, exec, execTokenBarrierPass, ← ht, hrun, hheadTag, htoken, hdmaRows, hrowMark]
end Sys2Proof.Machine
end

section
/-! Core DMA descriptors and detected errors (R91, R92, R119, R120). -/
set_option Elab.async false
namespace Sys2Proof.Machine

theorem computeFirst_of_computed {r : Run} (hcomputed : r.computed = true) (s : State) (h p i : Nat) : s.computeFirst h p r i = (s, r, .ok) := by
  unfold State.computeFirst
  split
  · rfl
  split
  · exact compute_of_computed hcomputed s h p []
  · simp [hcomputed]

/-- A head that waits on nothing ends once its channel has accepted it (R91). -/
theorem endHead_of_dmaGoes {s w : State} {h p i tag : Nat} {k : Run} (hw : w = s.acceptDma h p) (hrun : ((w.half h).core p).run = some k)
    (hhead : k.headTag i = some tag) (hgoes : ((w.half h).core p).dmaGoes k tag = true) : s.endHead h p i = w.endDma h p tag k := by
  simp only [State.endHead, ← hw, hrun, hhead, hgoes, if_true]

/-- The row that a failed descriptor reaches is a free value, and the rows before it have moved (R92). -/
theorem failHead_of_headTag {w u : State} {h p i tag : Nat} {q k : Run} {st : Status} (hrun : ((w.half h).core p).run = some q)
    (hhead : q.headTag i = some tag) (hu : u = w.settleOrder h p tag q) (hrun' : ((u.half h).core p).run = some k) :
    w.failHead h p i st =
      let m := u.draw.2.moveOf h p k tag (u.draw.1 % Nat.max (mRows (k.dma.getD i 0)) 1)
      ((({ m.s with freeCtr := m.ctr } : State).countMove h p ((m.s.half h).coreUnit p) (k.dma.getD i 0) m.moved).dmaFailed h p k tag st).settleFail h p := by
  simp only [State.failHead, hrun, hhead, ← hu, hrun']

/-- A descriptor that its command still has to move fails once the engines have done what it needs. -/
theorem failDma_of_ok {s : State} {h p i : Nat} {r : Run} {st : Status} {a : State × Run × EngRes} (hrun : ((s.half h).core p).run = some r)
    (hst : dmaFailStatus st = true) (hown : r.heads.contains i = true ∨ r.heads.contains (i + nextTag) = true ∨ r.stores.contains i = true)
    (ha : a = s.computeFirst h p r i) (hok : a.2.2 = .ok) :
    s.failDma h p i st = ((a.1.updCore h p fun c => { c with run := some a.2.1 }).acceptDma h p).failHead h p i st := by
  rcases hown with hhead | hnext | hstore
  · simp only [State.failDma, hrun, hst, hhead, ← ha, hok, Bool.not_true, Bool.false_and, Bool.or_self, Bool.false_eq_true, if_false]
  · simp only [State.failDma, hrun, hst, hnext, ← ha, hok, Bool.not_true, Bool.and_false, Bool.false_and, Bool.or_self, Bool.false_eq_true, if_false]
  · simp only [State.failDma, hrun, hst, hstore, ← ha, hok, Bool.not_true, Bool.and_false, Bool.or_self, Bool.false_eq_true, if_false]

/-- Settles O21: a descriptor once the engines have done what it needs, and an error by the kind of its reader. -/
theorem coreDma : Obligations.CoreDma := by
  refine ⟨?_, ?_, ?_, ?_, ?_, ?_, ?_, ?_, ?_, ?_, ?_⟩
  · rintro e p desc u w r k tag s t ht hu hrun hcomputed hw hrunW hheadTag hdmaGoes
    simp [exec, execDmaDescriptorEnd, ← ht, ← hu, hrun, computeFirst_of_computed hcomputed, endHead_of_dmaGoes hw hrunW hheadTag hdmaGoes]
  · rintro e p desc u w r k tag a s t ht hu hrun ha hcomputed hw hrunW hheadTag hdmaGoes
    simp [exec, execDmaDescriptorEnd, ← ht, ← hu, hrun, ← ha, hcomputed, endHead_of_dmaGoes hw hrunW hheadTag hdmaGoes]
  · rintro e p desc st r q tag k u w a s t ht hrun hdmaFailStatus hopen ha hcomputed hw hrunW hheadTag hu hrunU
    have hfail := failDma_of_ok hrun hdmaFailStatus hopen ha hcomputed
    rw [← hw, failHead_of_headTag hrunW hheadTag hu hrunU] at hfail
    simp only [exec, execDmaDescriptorFailure, ← ht, hfail]
  · rintro e p mem off r s t ht hrun
    simp [exec, execDetectedMemoryError, ← ht, hrun]
  · rintro e p mem off s t ht hrun
    simp [exec, execDetectedMemoryError, ← ht, hrun]
  · rintro e who addr hart s t ht rfl hinStr
    simp [exec, execNonTileReadError, ← ht, hinStr]
  · rintro e who addr hart s t ht rfl hinStr
    simp [exec, execNonTileReadError, ← ht, hinStr]
  · rintro e who addr vdi s t ht hwho hinStr
    rcases hwho with rfl | rfl <;> simp [exec, execNonTileReadError, ← ht, hinStr]
  · rintro e who addr vdi s t ht hwho hinStr
    rcases hwho with rfl | rfl <;> simp [exec, execNonTileReadError, ← ht, hinStr]
  · rintro e who addr tag s t ht rfl hinStr
    simp [exec, execNonTileReadError, ← ht, hinStr]
  · rintro e who addr tag s t ht rfl hinStr
    simp [exec, execNonTileReadError, ← ht, hinStr]
end Sys2Proof.Machine
end

section
/-! Dispatch controllers, Gatehouse controller (R444, R253, R274). -/
set_option Elab.async false
namespace Sys2Proof.Machine
/-- Settles O22: each row by its command's meaning; the third within a second is told from the earlier ones by the count. -/
theorem controllers : Obligations.Controllers := by
  refine ⟨?_, ?_, ?_, ?_⟩
  · rintro e d s t ht hcomputeUp hd hpaused
    simp [exec, execDispatchWatchdog, ← ht, hcomputeUp, hd.not_ge, hpaused, apply_ite Host.Outcome.next]
  · rintro e d s t ht hpaused
    simp [exec, execDispatchRestartDone, ← ht, hpaused]
  · rintro e s t ht hrimUp hready hghReset
    simp [exec, execLockstepMismatch, ← ht, hrimUp, hready, hghReset, apply_ite Host.Outcome.next]
  · rintro e s t ht hghReset
    simp [exec, execGatehouseResetDone, ← ht, hghReset]
end Sys2Proof.Machine
end

section
/-! Boot slots, the PUF, the trial and the configuration store (R453, R482, R454). -/
set_option Elab.async false
namespace Sys2Proof.Machine

/-- The slot tried after one that failed starts where it has not failed and its package is valid (R453). -/
theorem tryOther_starts {s u : State} {h slot : Nat} (hu : u = s.slotFails h slot) (hfresh : (u.half h).fw.failedSlots.contains (1 - slot) = false)
    (hok : u.slotOk h (1 - slot) = true) : s.tryOther h slot = u.startSlot h (1 - slot) (decide (1 - slot ≠ (u.half h).fw.activeSlot)) := by
  simp only [State.tryOther, ← hu, hfresh, hok, Bool.false_eq_true, if_false, if_true]

theorem tryOther_fails {s u : State} {h slot : Nat} (hu : u = s.slotFails h slot) (hfresh : (u.half h).fw.failedSlots.contains (1 - slot) = false)
    (hbad : u.slotOk h (1 - slot) = false) : s.tryOther h slot = u.slotFails h (1 - slot) := by
  simp only [State.tryOther, ← hu, hfresh, hbad, Bool.false_eq_true, if_false]

/-- Settles O23: each boot stage by its command's meaning. -/
theorem bootRows : Obligations.BootRows := by
  refine ⟨?_, ?_, ?_, ?_, ?_, ?_, ?_, ?_⟩
  · rintro e slot u s t ht hrimUp hstage hslot hu hotherSlot hslotOk
    simp [exec, execBootSlotFailure, ← ht, hrimUp, hstage, ← hslot, tryOther_starts hu hotherSlot hslotOk]
  · rintro e slot u s t ht hrimUp hstage hslot hu hotherSlot hslotOk
    simp [exec, execBootSlotFailure, ← ht, hrimUp, hstage, ← hslot, tryOther_fails hu hotherSlot hslotOk]
  · rintro e ok s t ht hrimUp hpufOk hkind rfl hresetKind
    simp [exec, execPufReconstruction, ← ht, hrimUp, hpufOk, hkind.not_gt, hresetKind]
  · rintro e ok s t ht hrimUp hpufOk rfl hresetKind
    simp [exec, execPufReconstruction, ← ht, hrimUp, hpufOk, hresetKind]
  · rintro e ok s t ht hrimUp hpufOk hkind rfl
    simp [exec, execPufReconstruction, ← ht, hrimUp, hpufOk, hkind.not_gt]
  · rintro e s t ht hready htrial
    simp [exec, execTrialBootConfirm, ← ht, hready, htrial]
  · rintro e bad s t ht hready hconfDue hstewardDown hdegraded
    simp [exec, execConfigStoreApply, ← ht, hready, hconfDue, hstewardDown, hdegraded]
  · rintro e bad u s t ht hready hconfDue hstewardDown hdegraded hu hresetKind
    simp [exec, execConfigStoreApply, ← ht, hready, hconfDue, hstewardDown, hdegraded, ← hu, hresetKind]
end Sys2Proof.Machine
end

section
/-! The service record at boot and when written; the soak (R299, R300, R319). -/
set_option Elab.async false
namespace Sys2Proof.Machine
/-- Settles O24: each stage by its command's meaning, slot 0 before slot 1. -/
theorem serviceRecordRows : Obligations.ServiceRecordRows := by
  refine ⟨?_, ?_, ?_, ?_, ?_, ?_⟩
  · rintro e ok0 ok1 s t ht hrimUp hstage hrecordOk
    simp [exec, execServiceRecordLoad, ← ht, hrimUp, hstage, hrecordOk]
  · rintro e ok0 ok1 s t ht hrimUp hstage hrecordOk hrecordOther
    simp [exec, execServiceRecordLoad, ← ht, hrimUp, hstage, hrecordOk, hrecordOther]
  · rintro e ok0 ok1 s t ht hrimUp hstage hrecordOk hrecordOther
    simp [exec, execServiceRecordLoad, ← ht, hrimUp, hstage, hrecordOk, hrecordOther]
  · rintro e ok r s t ht hrimUp hstewardDown hwriting rfl
    simp [exec, execServiceRecordWriteDone, ← ht, hrimUp, hstewardDown, hwriting]
  · rintro e ok r s t ht hrimUp hstewardDown hwriting rfl
    simp [exec, execServiceRecordWriteDone, ← ht, hrimUp, hstewardDown, hwriting]
  · rintro e v s t ht hsoakVt hsoakMarks
    simp [exec, execSoakTimer, ← ht, hsoakVt, hsoakMarks.not_gt]
end Sys2Proof.Machine
end

section
/-! The VT servo (R503). -/
set_option Elab.async false
namespace Sys2Proof.Machine
/-- Settles O25: each servo event by its command's meaning; the deviation by its sign and by the time of the last record. -/
theorem vtServo : Obligations.VtServo := by
  refine ⟨?_, ?_, ?_, ?_, ?_, ?_, ?_⟩
  · rintro e ev gm s t ht hrimUp hportRetired rfl hhalf hvtFixed
    rw [hhalf] at hrimUp hportRetired
    simp [exec, execVtServoStep, ← ht, hrimUp, hportRetired, hhalf, hvtFixed]
  · rintro e ev gm s t ht hrimUp hportRetired rfl hmoved
    have hlater : e.half = 0 → ¬ t.vtFixed = false := by
      rcases hmoved with hother | hfixed
      · exact fun hzero => absurd hzero hother
      · simp [hfixed]
    simp +contextual [exec, execVtServoStep, ← ht, hrimUp, hportRetired, hlater]
  · rintro e ev ppb s t ht hrimUp hportRetired rfl hservo
    simp [exec, execVtServoStep, ← ht, hrimUp, hportRetired, hservo]
  · rintro e ev s t ht hrimUp hportRetired rfl hservo
    simp [exec, execVtServoStep, ← ht, hrimUp, hportRetired, hservo]
  · rintro e ev s t ht hportRetired
    simp [exec, execVtServoStep, ← ht, hportRetired]
  · rintro e devNs s t ht hrimUp hdev hdevVt
    have hpos : ¬ devNs < 0 := by omega
    simp [exec, execVtDeviationIncident, ← ht, hrimUp, hdev.not_ge, hdevVt, hpos]
  · rintro e devNs s t ht hrimUp hdevNs hdevVt hrecent
    have hneg : devNs < 0 := by omega
    simp [exec, execVtDeviationIncident, ← ht, hrimUp, hdevNs.not_ge, hdevVt, hrecent.not_gt, hneg]
end Sys2Proof.Machine
end

section
/-! Doorbell writes of a queue (R231, R232). -/
set_option Elab.async false
namespace Sys2Proof.Machine

/-! A doorbell of a queue that is up and not disabled (R231, R232) -/

section
variable {s : State} {q v : Nat} (hup : s.queueUp q = true) (hstate : (s.half (qHalf q)).qState (qIdx q) ≠ 0)
include hup hstate

theorem dbTail_within
    (hring : dist32 v ((s.half (qHalf q)).fld F.TEL_DB_HEAD_head (qIdx q)) ≤ qRingSize ((s.half (qHalf q)).queue (qIdx q)).record)
    (hahead : dist32 ((s.half (qHalf q)).fld F.TEL_DB_TAIL_tail (qIdx q)) ((s.half (qHalf q)).fld F.TEL_DB_HEAD_head (qIdx q)) ≤
      dist32 v ((s.half (qHalf q)).fld F.TEL_DB_HEAD_head (qIdx q))) :
    s.dbTail q v = (s.upd (qHalf q) fun x => x.setFld F.TEL_DB_TAIL_tail v (qIdx q)).noteReady q := by
  simp [State.dbTail, hup, hstate, hring.not_gt, hahead.not_gt]

theorem dbTail_beyond
    (hring : qRingSize ((s.half (qHalf q)).queue (qIdx q)).record < dist32 v ((s.half (qHalf q)).fld F.TEL_DB_HEAD_head (qIdx q))) :
    s.dbTail q v = doorbellIncident s q := by
  simp [State.dbTail, hup, hstate, hring]

theorem dbTail_behind
    (hbehind : dist32 v ((s.half (qHalf q)).fld F.TEL_DB_HEAD_head (qIdx q)) <
      dist32 ((s.half (qHalf q)).fld F.TEL_DB_TAIL_tail (qIdx q)) ((s.half (qHalf q)).fld F.TEL_DB_HEAD_head (qIdx q))) :
    s.dbTail q v = doorbellIncident s q := by
  simp [State.dbTail, hup, hstate, hbehind]

theorem dbCqHead_within
    (hwritten : dist32 v ((s.half (qHalf q)).fld F.TEL_DB_CQ_HEAD_cq_head (qIdx q)) ≤
      dist32 ((s.half (qHalf q)).fld F.TEL_DB_CQ_TAIL_cq_tail (qIdx q)) ((s.half (qHalf q)).fld F.TEL_DB_CQ_HEAD_cq_head (qIdx q))) :
    s.dbCqHead q v = (s.upd (qHalf q) fun x => x.setFld F.TEL_DB_CQ_HEAD_cq_head v (qIdx q)).noteReady q := by
  simp [State.dbCqHead, hup, hstate, hwritten.not_gt]

theorem dbCqHead_beyond
    (hbeyond : dist32 ((s.half (qHalf q)).fld F.TEL_DB_CQ_TAIL_cq_tail (qIdx q)) ((s.half (qHalf q)).fld F.TEL_DB_CQ_HEAD_cq_head (qIdx q)) <
      dist32 v ((s.half (qHalf q)).fld F.TEL_DB_CQ_HEAD_cq_head (qIdx q))) :
    s.dbCqHead q v = doorbellIncident s q := by
  simp [State.dbCqHead, hup, hstate, hbeyond]

end

/-- Settles O26: each doorbell by one rule for each place that its index can have in the ring. -/
theorem doorbells : Obligations.Doorbells := by
  refine ⟨?_, ?_, ?_, ?_, ?_⟩
  -- telDbTailWrite
  · rintro e q v s _ rfl hup hstate hring hahead
    exact congrArg _ (dbTail_within hup hstate hring hahead)
  · rintro e q v s _ rfl hup hstate hring
    exact congrArg _ (dbTail_beyond hup hstate hring)
  · rintro e q v s _ rfl hup hstate hbehind
    exact congrArg _ (dbTail_behind hup hstate hbehind)
  -- telDbCqHeadWrite
  · rintro e q v s _ rfl hup hstate hwritten
    exact congrArg _ (dbCqHead_within hup hstate hwritten)
  · rintro e q v s _ rfl hup hstate hbeyond
    exact congrArg _ (dbCqHead_beyond hup hstate hbeyond)
end Sys2Proof.Machine
end

section
/-! WAIT at the head of a queue (R236, R237, R239). -/
set_option Elab.async false
namespace Sys2Proof.Machine

/-! A reply to a remote watch (R239) -/

section
variable {s : State} {q gen idx : Nat} (hctl : s.ctlPaused q = false)
include hctl

theorem watchReply_current {w : WaitRt} (hwait : ((s.half (qHalf q)).queue (qIdx q)).wait = some w) (hremote : w.remote = true)
    (hgen : gen = (s.half (qHalf q)).qGen (qIdx q)) (hidx : idx = w.index) : s.watchReply q gen idx = s.endWait q w .ok 0 := by
  simp [State.watchReply, hctl, hwait, hremote, hgen, hidx]

theorem watchReply_stale {w : WaitRt} (hwait : ((s.half (qHalf q)).queue (qIdx q)).wait = some w)
    (hstale : gen ≠ (s.half (qHalf q)).qGen (qIdx q) ∨ idx ≠ w.index ∨ w.remote = false) :
    s.watchReply q gen idx = s.upd (qHalf q) fun x => x.inc F.WIN_STALE_GEN_stale_gen := by
  rcases hstale with hgen | hidx | hremote
  · simp [State.watchReply, hctl, hwait, hgen]
  · simp [State.watchReply, hctl, hwait, hidx]
  · simp [State.watchReply, hctl, hwait, hremote]

theorem watchReply_none (hwait : ((s.half (qHalf q)).queue (qIdx q)).wait = none) :
    s.watchReply q gen idx = s.upd (qHalf q) fun x => x.inc F.WIN_STALE_GEN_stale_gen := by
  simp [State.watchReply, hctl, hwait]

end

/-- Settles O27: each row by its command's meaning, with one rule for each case of a reply and of a WAIT at the head. -/
theorem waits : Obligations.Waits := by
  refine ⟨?_, ?_, ?_, ?_, ?_, ?_, ?_, ?_, ?_, ?_, ?_⟩
  · rintro e q w s t ht hwaitAtHead hwait hremote hqState hctlPaused hrecord hwaitMet
    simp [exec, execWaitLocalEvaluation, ← ht, hwaitAtHead, hwait, hremote, hqState, hctlPaused, hrecord, hwaitMet]
  · rintro e q w s t ht hwaitAtHead hwait hwaitMet
    simp [exec, execWaitLocalEvaluation, ← ht, hwaitAtHead, hwait, hwaitMet]
  · rintro e q a u s t ht hwaitAtHead hu hwait
    simp [exec, execWaitLocalEvaluation, ← ht, hwaitAtHead, ← hu, hwait]
  · rintro e q a w u s t ht hwaitAtHead hu hwait hremote
    rcases hremote with hremote | hunmet
    · simp [exec, execWaitLocalEvaluation, ← ht, hwaitAtHead, ← hu, hwait, hremote]
    · simp [exec, execWaitLocalEvaluation, ← ht, hwaitAtHead, ← hu, hwait, hunmet]
  · rintro e q a w u s t ht hwaitAtHead hu hwait hremote hqState hctlPaused hrecord hwaitMet
    simp [exec, execWaitLocalEvaluation, ← ht, hwaitAtHead, ← hu, hwait, hremote, hqState, hctlPaused, hrecord, hwaitMet]
  · rintro e q w s t ht hwait hrecord hctlPaused hqState
    simp [exec, execWaitLimitExpiry, ← ht, hwait, hrecord, hctlPaused, hqState]
  · rintro e q w s t ht hwait hremote hctlPaused
    simp [exec, execRemoteWatchRepeat, ← ht, hwait, hremote, hctlPaused]
  · rintro e q a s t ht hwait hwaitAtHead
    simp [exec, execRemoteWatchRepeat, ← ht, hwait, hwaitAtHead]
  · rintro e q gen idx w s t ht hctlPaused hwait hremote hgen hidx
    simp [exec, execRemoteWatchReply, ← ht, watchReply_current hctlPaused hwait hremote hgen hidx]
  · rintro e q gen idx w s t ht hctlPaused hwait hgen
    simp [exec, execRemoteWatchReply, ← ht, watchReply_stale hctlPaused hwait hgen]
  · rintro e q gen idx s t ht hctlPaused hwait
    simp [exec, execRemoteWatchReply, ← ht, watchReply_none hctlPaused hwait]
end Sys2Proof.Machine
end

section
/-! The arbiter, the context cache and mode switches (R98, R244, R245, R247, R251, R411, R527). -/
set_option Elab.async false
namespace Sys2Proof.Machine
/-- Settles O28: each row by its command's meaning, on the state that the choice leaves. -/
theorem arbiter : Obligations.Arbiter := by
  refine ⟨?_, ?_, ?_, ?_, ?_, ?_, ?_, ?_, ?_⟩
  · rintro e p l q w s t ht hlogical hcomputeUp hfree hw hdraw
    simp [exec, execCoreFreeDispatch, ← ht, hlogical, hcomputeUp, hfree, ← hw, hdraw]
  · rintro e p l w s t ht hlogical hcomputeUp hfree hw hdraw
    simp [exec, execCoreFreeDispatch, ← ht, hlogical, hcomputeUp, hfree, ← hw, hdraw]
  · rintro e ctx s t ht hcomputeUp hctxRead
    simp [exec, execContextFetchDone, ← ht, hcomputeUp, hctxRead]
  · rintro e ctx st s t ht hcomputeUp hctxRead hst
    simp [exec, execContextFetchDone, ← ht, hcomputeUp, hctxRead, hst]
  · rintro e ctx s t ht
    simp [exec, execContextWriteBack, ← ht]
  · rintro e ctx p s t ht hvictim
    simp [exec, execPreemptionRequest, ← ht, hvictim]
  · rintro e part s t ht hpartKind hcomputeUp hownerPaused hswitchDue
    simp [exec, execGraphicsSwitchRequest, ← ht, hpartKind, hcomputeUp, hownerPaused, hswitchDue]
  · rintro e p s t ht hswitching
    simp [exec, execModeSwitchDone, ← ht, hswitching]
  · rintro e q gen s t ht hgen
    simp [exec, execLateArrivalDiscard, ← ht, hgen]
end Sys2Proof.Machine
end

section
/-! Row conditions and the lag limit (R203, R204, R206). -/
set_option Elab.async false
namespace Sys2Proof.Machine

/-- A condition that failed completes its command where the completion ring has room for the record (R203, R232). -/
theorem failCondition_of_cqRoom {s : State} {q : Nat} (hroom : (s.half (qHalf q)).cqRoom (qIdx q) = true) (i : Nat) (st : Status) :
    s.failCondition q i st = ((((s.queueCondErrs q i).failQueue q i).completeHead q (s.queueDesc q i) st 0 true).noteReady q).noteIdle (qHalf q)
      (qCtx ((s.half (qHalf q)).queue (qIdx q)).record) := by
  simp [State.failCondition, hroom]

/-- Settles O29: each row by the verdict on its condition. -/
theorem conditions : Obligations.Conditions := by
  refine ⟨?_, ?_, ?_, ?_, ?_, ?_, ?_, ?_, ?_, ?_, ?_⟩
  · rintro e w n s t ht rfl
    simp [exec, execRowConditionEvaluation, ← ht]
  · rintro e w q i c s t ht rfl hqueueUp hctlPaused hqState hnotPaused hwait hrecord hnextIndex hcondSet hcond hmet hviaFallback hverdict
    rcases hverdict with hverdict | hverdict <;>
      simp [exec, execRowConditionEvaluation, ← ht, hqueueUp, hctlPaused, hqState, hnotPaused, hwait, hrecord, hnextIndex, hcondSet, hcond, hmet,
        hviaFallback, hverdict]
  · rintro e w q i c st s t ht rfl hqueueUp hctlPaused hqState hnotPaused hwait hrecord hnextIndex hcondSet hcond hmet hviaFallback hfailed hcqRoom
    simp [exec, execRowConditionEvaluation, ← ht, hqueueUp, hctlPaused, hqState, hnotPaused, hwait, hrecord, hnextIndex, hcondSet, hcond, hmet,
      hviaFallback, hfailed, failCondition_of_cqRoom hcqRoom]
  · rintro e w q i s t ht rfl hqueueUp hctlPaused hqState hnotPaused hwait hrecord hnextIndex hcondSet hcond hverdict
    rcases hverdict with hverdict | hverdict <;>
      simp [exec, execRowConditionEvaluation, ← ht, hqueueUp, hctlPaused, hqState, hnotPaused, hwait, hrecord, hnextIndex, hcondSet, hcond, hverdict]
  · rintro e w q i st s t ht rfl hqueueUp hctlPaused hqState hnotPaused hwait hrecord hnextIndex hcondSet hcond hverdict hcqRoom
    simp [exec, execRowConditionEvaluation, ← ht, hqueueUp, hctlPaused, hqState, hnotPaused, hwait, hrecord, hnextIndex, hcondSet, hcond, hverdict,
      failCondition_of_cqRoom hcqRoom]
  · rintro e w q i c s t ht rfl hcond hnextIndex hlagOver hctlPaused hqState hmet
    simp [exec, execLagLimitExpiry, ← ht, hcond, hnextIndex, hlagOver, hctlPaused, hqState, hmet]
  · rintro e w q i c s t ht rfl hcond hnextIndex hlagOver hctlPaused hqState hunmet hfallback
    simp [exec, execLagLimitExpiry, ← ht, hcond, hnextIndex, hlagOver, hctlPaused, hqState, hunmet, hfallback]
  · rintro e w q i c s t ht rfl hcond hnextIndex hlagOver hctlPaused hqState hunmet hfallback hcqRoom
    simp [exec, execLagLimitExpiry, ← ht, hcond, hnextIndex, hlagOver, hctlPaused, hqState, hunmet, hfallback, hcqRoom]
  · rintro e w n c s t ht rfl hcond hopen hlagOver hmet
    simp [exec, execLagLimitExpiry, ← ht, hcond, hopen, hlagOver, hmet]
  · rintro e w n c s t ht rfl hcond hopen hlagOver hunmet hfallback
    simp [exec, execLagLimitExpiry, ← ht, hcond, hopen, hlagOver, hunmet, hfallback]
  · rintro e w n c s t ht rfl hcond hopen hlagOver hunmet hfallback
    simp [exec, execLagLimitExpiry, ← ht, hcond, hopen, hlagOver, hunmet, hfallback]
end Sys2Proof.Machine
end

section
/-! Window instances (R224, R225). -/
set_option Elab.async false
namespace Sys2Proof.Machine

theorem trials_of_running {x : Half} (hrunning : x.win.running = true) : x.trials = false := by
  simp [Half.trials, hrunning]

/-- An open instance whose condition is unmet at its end (R224). -/
theorem endUnmet_of_open {s : State} {h n : Nat} {c : CondRt} (hopen : ((s.half h).inst n).open_ = true) (hcond : ((s.half h).inst n).cond = some c) :
    s.endUnmet h n = ((s.failOutputs h n).completeInst h n 1 .timeout (causeDetail 5 0)).upd h fun x => x.inc F.WIN_STAT_unmet := by
  simp [State.endUnmet, hopen, hcond]

/-- Settles O30: each row by its command's meaning, on the entry of the bank in force. -/
theorem windowInstances : Obligations.WindowInstances := by
  refine ⟨?_, ?_, ?_, ?_, ?_⟩
  · rintro e n w p s t ht hvt hcomputeUp hwKind hwEngine hservesNext htakes hloadedCtx hloadStatus
    simp [exec, execWindowPreArm, ← ht, hvt, hcomputeUp, hwKind, hwEngine, hservesNext, htakes, hloadedCtx, hloadStatus]
  · rintro e n a b s t ht hrunning hcomputeUp hactiveEntry hvt hstart hstartsAt
    simp [exec, execWindowInstanceStart, ← ht, hrunning, hcomputeUp, hactiveEntry, hvt, hstart, hstartsAt, trials_of_running hrunning]
  · rintro e n a b s t ht hrunning hcomputeUp hactiveEntry hvt hstartsAt
    simp [exec, execWindowInstanceStart, ← ht, hrunning, hcomputeUp, hactiveEntry, hvt, hstartsAt, trials_of_running hrunning]
  · rintro e n a b s t ht htrials hcomputeUp hactiveEntry hvt
    simp [exec, execWindowInstanceStart, ← ht, htrials, hcomputeUp, hactiveEntry, hvt]
  · rintro e n c s t ht hactiveEntry hopen hcond
    simp [exec, execWindowInstanceEndUnmet, ← ht, hactiveEntry.not_gt, endUnmet_of_open hopen hcond]
end Sys2Proof.Machine
end

section
/-! Window banks and the enable of the sequencer (R223, R255). -/
set_option Elab.async false
namespace Sys2Proof.Machine
/-- Settles O31: each switch and enable by its command's meaning. -/
theorem banksAndEnable : Obligations.BanksAndEnable := by
  refine ⟨?_, ?_, ?_, ?_, ?_⟩
  · rintro e v u w s t ht hcomputeUp hdegradeAt hpendVt hv hu hw hdegraded
    simp [exec, execBankActivationVt, ← ht, hcomputeUp, hdegradeAt, hpendVt, hv.not_gt, ← hu, ← hw, hdegraded]
  · rintro e v u w s t ht hcomputeUp hdegradeAt hpendVt hv hu hw hdegraded hpartner
    simp [exec, execBankActivationVt, ← ht, hcomputeUp, hdegradeAt, hpendVt, hv.not_gt, ← hu, ← hw, hdegraded, hpartner]
  · rintro e v s t ht hcomputeUp hdegradeAt hv
    simp [exec, execBankActivationVt, ← ht, hcomputeUp, hdegradeAt, hv.not_gt]
  · rintro e v s t ht hdisableAt hv
    simp [exec, execMajorFrameEndDisable, ← ht, hdisableAt, hv.not_gt]
  · rintro e v s t ht henableAt hnextFrame hcomputeUp hdisableAt
    simp [exec, execWindowEnableFrameStart, ← ht, henableAt, hnextFrame.not_gt, hcomputeUp, hdisableAt]
end Sys2Proof.Machine
end

section
/-! The Sieve (R174, R182, R183, R185, R186, R188). -/
set_option Elab.async false
namespace Sys2Proof.Machine

/-! An error in what a run reads (R185) -/

theorem sieveError_first {r : SieveRun} (hfirst : r.retried = false) (s : State) (h : Nat) :
    s.sieveError h r = (((((svInputs r.desc).foldl (fun u i => u.readErrs h i.1 i.2) s).dropSieve h r).upd h fun x =>
      x.inc F.SIV_ERR_CNT_data_err).incident h 0x04 0 .dataError).upd h fun x =>
        { x with sieve := some { r with retried := true, ranNs := r.ranNs + (x.vt.toNat - r.startVt), startVt := x.vt.toNat } } := by
  simp only [State.sieveError, hfirst, Bool.false_eq_true, if_false]

theorem sieveError_second {r : SieveRun} (hsecond : r.retried = true) (s : State) (h : Nat) :
    s.sieveError h r = ((((((svInputs r.desc).foldl (fun u i => u.readErrs h i.1 i.2) s).dropSieve h r).upd h fun x =>
      x.inc F.SIV_ERR_CNT_data_err).incident h 0x04 0 .dataError).svEmptyHeader h r.vdi r.desc).endSieve h r .dataError 0 0 := by
  simp only [State.sieveError, hsecond, if_true]

/-- Settles O32: each row by its command's meaning, with one rule for an error in what a run reads. -/
theorem sieveRuns : Obligations.SieveRuns := by
  refine ⟨?_, ?_, ?_, ?_, ?_, ?_, ?_, ?_, ?_⟩
  · rintro e w n s t ht rfl hopen hactiveEntry hsieve hcomputeUp hcond huncond hctx hinstCmd hchecked
    rcases hctx with hcached | hread
    · simp [-List.contains_eq_mem, exec, execSieveCommandStart, ← ht, hopen, hactiveEntry, hsieve, hcomputeUp, hcond, huncond, hcached, hinstCmd,
        hchecked]
    · simp [exec, execSieveCommandStart, ← ht, hopen, hactiveEntry, hsieve, hcomputeUp, hcond, huncond, hread, hinstCmd, hchecked]
  · rintro e w n st s t ht rfl hopen hactiveEntry hsieve hcomputeUp hcond huncond hctx hinstCmd hraw hst
    rcases hctx with hcached | hread
    · simp [-List.contains_eq_mem, exec, execSieveCommandStart, ← ht, hopen, hactiveEntry, hsieve, hcomputeUp, hcond, huncond, hcached, hinstCmd,
        hraw, hst]
    · simp [exec, execSieveCommandStart, ← ht, hopen, hactiveEntry, hsieve, hcomputeUp, hcond, huncond, hread, hinstCmd, hraw, hst]
  · rintro e w q i s t ht rfl hsieve hcomputeUp hactiveEntry hrecord hpaused hctx hready hnextIndex hslotReads hraw hchecked hsieveGap hnextSieve
    simp [-List.contains_eq_mem, exec, execSieveCommandStart, ← ht, hsieve, hcomputeUp, hactiveEntry, hrecord, hpaused, hctx, hready, hnextIndex,
      hslotReads, hraw, hchecked, hsieveGap, hnextSieve]
  · rintro e r s t ht hsieve herror
    simp [exec, execSieveCommandEnd, ← ht, hsieve, herror]
  · rintro e r s t ht hsieve hretried
    simp only [exec, execSieveDataError, ← ht, hsieve, sieveError_first hretried]
  · rintro e r s t ht hsieve hretried
    simp only [exec, execSieveDataError, ← ht, hsieve, sieveError_second hretried]
  · rintro e r s t ht hsieve herror hretried
    simp only [exec, execSieveCommandEnd, ← ht, hsieve, herror, sieveError_first hretried, if_true]
  · rintro e r s t ht hsieve herror hretried
    simp only [exec, execSieveCommandEnd, ← ht, hsieve, herror, sieveError_second hretried, if_true]
  · rintro e r s t ht hsieve hdesc
    simp [exec, execSieveWatchdog, ← ht, hsieve, hdesc.not_ge]
end Sys2Proof.Machine
end

section
/-! Patrol, bank moves and group withdrawal (R121, R122, R129, R305, R310). -/
set_option Elab.async false
namespace Sys2Proof.Machine
/-- Settles O33: each row by its command's meaning. -/
theorem strongroomRepairs : Obligations.StrongroomRepairs := by
  refine ⟨?_, ?_, ?_, ?_, ?_, ?_, ?_⟩
  · rintro e row err s t ht hcomputeUp henable hrow hgroupShut rfl hbadRow
    simp [exec, execPatrolRowRead, ← ht, hcomputeUp, henable, hrow.not_ge, hgroupShut, hbadRow]
  · rintro e row err s t ht hcomputeUp henable hrow hgroupShut herr hgran
    rcases herr with rfl | hbad
    · simp [exec, execPatrolRowRead, ← ht, hcomputeUp, henable, hrow.not_ge, hgroupShut, hgran]
    · simp [exec, execPatrolRowRead, ← ht, hcomputeUp, henable, hrow.not_ge, hgroupShut, hbad, hgran]
  · rintro e row err s t ht hcomputeUp henable hrow hgroupShut herr hallocated
    rcases herr with rfl | hbad
    · simp [exec, execPatrolRowRead, ← ht, hcomputeUp, henable, hrow.not_ge, hgroupShut, hallocated.not_ge]
    · simp [exec, execPatrolRowRead, ← ht, hcomputeUp, henable, hrow.not_ge, hgroupShut, hbad, hallocated.not_ge]
  · rintro e bank s t ht hcomputeUp hbankFailed hmove
    simp [exec, execStrongroomBankRetire, ← ht, hcomputeUp, hbankFailed, hmove]
  · rintro e bank mv s t ht hcomputeUp hbankFailed hmove hbankOf hnotWaiting
    simp [-List.contains_eq_mem, exec, execStrongroomBankRetire, ← ht, hcomputeUp, hbankFailed, hmove, hbankOf, hnotWaiting]
  · rintro e badRows mv s t ht hmove
    simp [exec, execBankMoveDone, ← ht, hmove]
  · rintro e g s t ht hcomputeUp hg hisWithdrawn hsvc hfreeBank
    simp [exec, execGroupWithdrawal, ← ht, hcomputeUp, hg.not_ge, hisWithdrawn, hsvc, hfreeBank]
end Sys2Proof.Machine
end

section
/-! Granules, shutters and groups (R127, R128, R342, R343, R528). -/
set_option Elab.async false
namespace Sys2Proof.Machine
/-- Settles O34: each row by its command's meaning; a door that is late is told by its time and by the count of its aborts. -/
theorem strongroomGranules : Obligations.StrongroomGranules := by
  refine ⟨?_, ?_, ?_, ?_, ?_, ?_, ?_, ?_, ?_, ?_, ?_, ?_, ?_, ?_⟩
  · rintro e g r s t ht hzeroQ
    simp [exec, execGranuleZeroed, ← ht, hzeroQ]
  · rintro e g s t ht hopening hshut hisWithdrawn
    simp [-List.contains_eq_mem, exec, execGroupReopenDone, ← ht, hopening, hshut, hisWithdrawn]
  · rintro e unit s t ht hunitUp hstewardDown hmayShut hclosingAt hshutAgain
    simp [exec, execShutterClose, ← ht, hunitUp, hstewardDown, hmayShut, hclosingAt, hshutAgain]
  · rintro e unit at0 s t ht hunitUp hstewardDown hmayShut hclosingAt hlate
    simp [exec, execShutterClose, ← ht, hunitUp, hstewardDown, hmayShut, hclosingAt, hlate.not_ge]
  · rintro e unit g at0 s t ht hunitUp hstewardDown hmayShut rfl hclosingAt hnow
    simp [exec, execShutterClose, State.powerOff, ← ht, hunitUp, hstewardDown, hmayShut, hclosingAt, hnow]
  · rintro e unit p at0 s t ht hunitUp hstewardDown hmayShut rfl hclosingAt hnow
    simp [exec, execShutterClose, State.powerOff, ← ht, hunitUp, hstewardDown, hmayShut, hclosingAt, hnow]
  · rintro e unit n at0 s t ht hunitUp hstewardDown hmayShut rfl hclosingAt hnow
    simp [exec, execShutterClose, State.powerOff, ← ht, hunitUp, hstewardDown, hmayShut, hclosingAt, hnow]
  · rintro e unit at0 g s t ht hclosingAt hlate hfew rfl
    simp [exec, execShutterDrainTimeout, State.shutAborts, ← ht, hclosingAt, hlate, hfew.not_ge]
  · rintro e unit at0 p s t ht hclosingAt hlate hfew hunit
    rcases hunit with rfl | rfl <;> simp [exec, execShutterDrainTimeout, State.shutAborts, ← ht, hclosingAt, hlate, hfew.not_ge]
  · rintro e unit at0 g s t ht hclosingAt hlate hmany rfl
    simp [exec, execShutterDrainTimeout, State.shutAborts, ← ht, hclosingAt, hlate, hmany]
  · rintro e unit at0 p s t ht hclosingAt hlate hmany hunit
    rcases hunit with rfl | rfl <;> simp [exec, execShutterDrainTimeout, State.shutAborts, ← ht, hclosingAt, hlate, hmany]
  · rintro e unit who n s t ht hclosed rfl
    simp [exec, execShutDoorRefusal, ← ht, hclosed]
  · rintro e unit who p i s t ht hclosed rfl
    simp [exec, execShutDoorRefusal, ← ht, hclosed]
  · rintro e unit who s t ht hclosed hwho
    rcases hwho with rfl | rfl <;> simp [exec, execShutDoorRefusal, ← ht, hclosed]
end Sys2Proof.Machine
end

section
/-! Strongroom messages that are accepted (R127, R130, R132, R133, R255, R528). -/
set_option Elab.async false
namespace Sys2Proof.Machine

/-! A model cache that is given its place (R132, R528) -/

section
variable {u : State} {h : Nat} {a : AllocWait} (hcache : a.cache ≠ 0) (hrun : a.run = none)
include hcache hrun

/-- A granted place is given at once: the first place of a cache anywhere, a later one behind what the cache holds. -/
theorem alloc_cache_grant {i : Nat}
    (hgrant : (if (u.half h).str.cacheLen = 0 then u.tryAlloc h a.owner a.count a.group else u.growCache h a.count) = .grant i) :
    u.alloc h a = ((u.upd h fun x => (x.giveRun a.owner i a.count).sizeCache i a.cache).saveConf h false, some (.ok, 0)) := by
  simp [State.alloc, State.runFree, hrun, hcache, hgrant]

/-- One that needs shuttered groups is waited for, and the groups reopen. -/
theorem alloc_cache_open {i : Nat} {gs : List Nat}
    (hopen : (if (u.half h).str.cacheLen = 0 then u.tryAlloc h a.owner a.count a.group else u.growCache h a.count) = .open_ i gs) :
    u.alloc h a = (u.upd h fun x => { x with str := { x.str with
      waits := x.str.waits ++ [{ a with run := some i }], opening := x.str.opening ++ gs.filter fun g => !x.str.opening.contains g } }, none) := by
  simp [State.alloc, State.runFree, hrun, hcache, hopen]

end

/-- An entry that is there and not loading takes the state that the message asks for, where what is pinned then fits. -/
theorem pinModel_fits {u : State} {h key : Nat} {m : Msg} {k : ModelEntry} (hmodel : (u.half h).model key m.vdi = some k) (hstate : k.state ≠ 1) (pin : Bool)
    (hfits : (((u.upd h fun x => { x with str := { x.str with models := x.str.models.map fun q =>
      if q = k then { q with state := if pin then 3 else 2 } else q } }).half h).str.models.filter fun q => q.state = 3).foldl
        (fun n q => n + q.len) 0 ≤ (u.half h).str.cacheLen) :
    u.pinModel h m key pin =
      ((u.upd h fun x => { x with str := { x.str with models := x.str.models.map fun q =>
        if q = k then { q with state := if pin then 3 else 2 } else q } }).saveConf h false, .ok, if pin then 3 else 2) := by
  simp only [State.pinModel, hmodel, hstate, if_false]
  exact if_neg hfits.not_gt

/-- Settles O35: each message by the rule for its body; a cache by the place that it is given, a pin by whether what is pinned fits. -/
theorem strongroomMessages : Obligations.StrongroomMessages := by
  refine ⟨?_, ?_, ?_, ?_, ?_, ?_, ?_, ?_, ?_, ?_, ?_, ?_, ?_⟩
  -- strAlloc
  · rintro e m count group a s _ u rfl hu haccepts hcount hmax hgroup hanswer
    have hlegal : ¬(7 < group ∧ group ≠ 0xFF) := by omega
    exact next_mboxW_replies hu haccepts (by simp [hcount, hmax.not_gt, hlegal, ← hanswer])
  · rintro e m count group s _ u rfl hu haccepts hcount hmax hgroup hanswer
    have hlegal : ¬(7 < group ∧ group ≠ 0xFF) := by omega
    exact next_mboxW_later hu haccepts (by simp [hcount, hmax.not_gt, hlegal, ← hanswer])
  -- strFree
  · rintro e m off count s _ u rfl hu haccepts hcount halign hend hinVault howned
    have hown : ∀ x < count, (u.half e.half).gran (off / 65536 + x) = granOwner m := by simpa using howned
    exact next_mbox_replies hu haccepts (by simp [hcount, halign, hend.not_gt, hinVault]; exact hown)
  -- cacheSize
  · rintro e m count i s _ u rfl hu haccepts hcount hmax hcomputeUp hcacheLen hgrant
    refine next_mboxW_replies hu haccepts ?_
    simp only [hcount, hmax.not_gt, hcomputeUp, hcacheLen, Nat.pos_of_ne_zero hcount, Bool.not_true, Bool.false_eq_true, if_false, if_true,
      Nat.sub_zero]
    rw [alloc_cache_grant (i := i) hcount rfl (by simp [hcacheLen, hgrant])]
  · rintro e m count i gs s _ u rfl hu haccepts hcount hmax hcomputeUp hcacheLen hopen
    refine next_mboxW_later hu haccepts ?_
    simp only [hcount, hmax.not_gt, hcomputeUp, hcacheLen, Nat.pos_of_ne_zero hcount, Bool.not_true, Bool.false_eq_true, if_false, if_true,
      Nat.sub_zero]
    rw [alloc_cache_open (i := i) (gs := gs) hcount rfl (by simp [hcacheLen, hopen])]
  · rintro e m count i s _ u rfl hu haccepts hmax hcomputeUp hcacheLen hgrows hgrant
    have hcount : count ≠ 0 := by omega
    refine next_mboxW_replies hu haccepts ?_
    simp only [hcount, hmax.not_gt, hcomputeUp, hgrows, Bool.not_true, Bool.false_eq_true, if_false, if_true]
    rw [alloc_cache_grant (i := i) hcount rfl (by simp [hcacheLen, hgrant])]
  -- modelLoad
  · rintro e m key src size k s _ u rfl hu haccepts hsize hmodel
    exact next_mbox_replies hu haccepts (by simp [hsize, hmodel])
  · rintro e m key src size i l s _ u rfl hu haccepts hsize hmodel hreads hplace
    exact next_mbox_replies hu haccepts (by simp [hsize, hmodel, hreads, hplace])
  · rintro e key vdi u s t ht hu
    simp only [exec, execModelLoadDone, ← ht, ← hu]
  -- modelPin
  · rintro e m key k s _ u rfl hu haccepts hmodel hstate hfits
    exact next_mbox_replies hu haccepts (pinModel_fits hmodel hstate true hfits)
  -- modelUnpin
  · rintro e m key k s _ u rfl hu haccepts hmodel hstate hfits
    exact next_mbox_replies hu haccepts (pinModel_fits hmodel hstate false hfits)
  -- modelPin
  · rintro e m key s _ u rfl hu haccepts hmodel
    exact next_mbox_replies hu haccepts (by simp only [State.pinModel, hmodel])
  -- strPatrol
  · rintro e m enable s _ u rfl hu haccepts
    exact next_mboxL_stores hu haccepts rfl
end Sys2Proof.Machine
end

section
/-! Camera packets and frames (R190, R191, R197, R199, R210, R211). -/
set_option Elab.async false
namespace Sys2Proof.Machine
/-- Settles O36: each packet by its command's meaning on an enabled receiver. -/
theorem intakePackets : Obligations.IntakePackets := by
  refine ⟨?_, ?_, ?_, ?_, ?_, ?_, ?_, ?_, ?_, ?_, ?_⟩
  · rintro e rx vc dt px crcOk corrected k s t ht hrxOn hdataType
    simp [exec, execLongPacket, ← ht, hrxOn, hdataType]
  · rintro e rx vc dt px crcOk corrected s t ht hrxOn hdataType
    simp [exec, execLongPacket, ← ht, hrxOn, hdataType]
  · rintro e hd vc frameNo s t ht hrxOn
    simp [exec, execFrameStart, ← ht, hrxOn]
  · rintro e hd vc frameNo k s t ht hrxOn hslotsOf
    simp [exec, execFrameStart, ← ht, hrxOn, hslotsOf]
  · rintro e hd vc s t ht hrxOn
    simp [exec, execFrameEnd, ← ht, hrxOn]
  · rintro e hd vc k s t ht hrxOn hslotsOf
    simp [exec, execFrameEnd, ← ht, hrxOn, hslotsOf]
  · rintro e slot p s t ht hrimUp hstreamOn htimedOut hprevFs hnominalNs
    simp [exec, execFrameCloseTimeout, ← ht, hrimUp, hstreamOn, htimedOut, hprevFs, hnominalNs.not_gt]
  · rintro e hd vc line s t ht hrxOn hframeOpen hcrcOk
    simp [exec, execEmbeddedDataLine, ← ht, hrxOn, hframeOpen, hcrcOk]
  · rintro e hd vc line s t ht hrxOn hframeOpen hcrcOk
    simp [exec, execEmbeddedDataLine, ← ht, hrxOn, hframeOpen, hcrcOk]
  · rintro e hd vc line s t ht hrxOn hframeOpen
    simp [exec, execEmbeddedDataLine, ← ht, hrxOn, hframeOpen]
  · rintro e rx s t ht hrxOn
    simp [exec, execUncorrectableHeader, ← ht, hrxOn]
end Sys2Proof.Machine
end

section
/-! Camera configuration that is accepted (R216, R217). -/
set_option Elab.async false
namespace Sys2Proof.Machine
/-- Settles O37: each message by the rule for its body, whose checks the row's hypotheses pass. -/
theorem intakeMessages : Obligations.IntakeMessages := by
  refine ⟨?_, ?_, ?_, ?_, ?_⟩
  -- rxCfg
  · rintro e m rx cfg s _ u rfl hu haccepts hrx hbits henable hslowest hfastest
    exact next_mboxL_stores hu haccepts (by simp [hrx.not_ge, hbits, henable, hslowest.not_gt, hfastest.not_gt])
  · rintro e m rx cfg s _ u rfl hu haccepts hrx hbits henable hsecureOwned
    exact next_mboxL_stores hu haccepts (by simp [hrx.not_ge, hbits, henable, hsecureOwned])
  -- streamCfg
  · rintro e m slot src l s _ u rfl hu haccepts hslot hl hread henable hfields (hoff | hfree)
    · exact next_mboxL_stores hu haccepts
        (by simp [hslot.not_ge, ← hl, hread, henable, hfields, hoff, -List.getD_eq_getElem?_getD])
    · exact next_mboxL_stores hu haccepts
        (by simp [hslot.not_ge, ← hl, hread, henable, hfields, hfree, -List.getD_eq_getElem?_getD])
  · rintro e m slot src l s _ u rfl hu haccepts hslot hl hread henable hfields hok hon
    exact next_mboxL_stores hu haccepts
      (by simp [hslot.not_ge, ← hl, hread, henable, hfields, hok, hon, -List.getD_eq_getElem?_getD])
  · rintro e m slot src l s _ u rfl hu haccepts hslot hl hread henable hfields hok hoff
    exact next_mboxL_stores hu haccepts
      (by simp [hslot.not_ge, ← hl, hread, henable, hfields, hok, hoff, -List.getD_eq_getElem?_getD])
end Sys2Proof.Machine
end

section
/-! DRAM errors and repairs (R303, R307, R308, R325, R326). -/
set_option Elab.async false
namespace Sys2Proof.Machine
/-- Settles O38: each row by its command's meaning. -/
theorem dramRows : Obligations.DramRows := by
  refine ⟨?_, ?_, ?_, ?_, ?_, ?_⟩
  · rintro e pc bank row unc s t ht hdramPlace rfl
    simp [exec, execDramReadEcc, ← ht, hdramPlace]
  · rintro e pc bank row unc s t ht hdramPlace rfl
    simp [exec, execDramReadEcc, ← ht, hdramPlace]
  · rintro e pc bank row s t ht hdramPlace
    simp [exec, execEcsScrub, ← ht, hdramPlace]
  · rintro e pc bank row lost s t ht hdramPlace hstewardDown hisDue htableUsed
    have hdue : rowKey pc bank row ∈ (t.half e.half).mint.due := by simpa using hisDue
    simp [exec, execRowRemap, ← ht, hdramPlace, hstewardDown, hdue, htableUsed.not_ge]
  · rintro e idx training s t ht hrimUp hstewardDown hidx hpcPending rfl
    simp [exec, execPseudoChannelRetire, ← ht, hrimUp, hstewardDown, hidx.not_ge, hpcPending]
  · rintro e idx training s t ht hrimUp hstewardDown hidx hpcPending rfl hfull
    have htrigger : (t.half e.half).tableUsed (idx / 32) < 4096 → ¬ (t.half e.half).remapped idx < 512 := by omega
    simp +contextual [exec, execPseudoChannelRetire, ← ht, hrimUp, hstewardDown, hidx.not_ge, hpcPending, htrigger]
end Sys2Proof.Machine
end

section
/-! Mint classes, throttles and ports (R331, R332, R334, R337, R338). -/
set_option Elab.async false
namespace Sys2Proof.Machine

/-! A request that none of its port and class is held before (R331, R332, R337) -/

section
variable {x : Half} {now : Nat} {r : Held}
variable (hnone : (x.mint.held.any fun q => decide (q.port = r.port) && decide (q.cls = r.cls)) = false) (hroom : x.ctlRoom r.pc = true)
include hnone hroom

theorem atMint_leaves_paid (hpays : x.pays r.port r.cls (coinCost r.bytes) = true) :
    x.atMint now r = (x.setMissing r.port r.cls (x.missing r.port r.cls + coinCost r.bytes)).leaves r true := by
  simp [atMint_free hnone, Half.send, hroom, hpays]

theorem atMint_leaves_surplus (hpays : x.pays r.port r.cls (coinCost r.bytes) = false) (hborrows : x.borrows r.cls r.stack = true) :
    x.atMint now r = x.leaves r false := by
  simp [atMint_free hnone, Half.send, hroom, hpays, hborrows]

theorem atMint_held (hpays : x.pays r.port r.cls (coinCost r.bytes) = false) (hborrows : x.borrows r.cls r.stack = false) :
    x.atMint now r = { x with mint := { x.mint with held := x.mint.held ++ [r] } } := by
  simp [atMint_free hnone, Half.send, Half.keepReq, hroom, hpays, hborrows]

end

theorem atMint_held_behind {x : Half} {now : Nat} {r : Held}
    (hsome : (x.mint.held.any fun q => decide (q.port = r.port) && decide (q.cls = r.cls)) = true) :
    x.atMint now r = { x with mint := { x.mint with held := x.mint.held ++ [r] } } := by
  simp [atMint_behind hsome, Half.keepReq]

/-- A request of some bytes is tried at its port once the controller has served its queue and the held requests have been tried. -/
theorem exec_portRequest {e : Ev} {port cls : Nat} {to_ : DramReq} {bytes : Nat} {write : Bool} {y z : Half} {s t : State} (ht : t = tick e s)
    (hrimUp : (t.half e.half).clk.rimUp = true) (hbacked : (t.half e.half).portBacked port = true) (hfits : t.markFits e.half port cls = true)
    (hused : (t.half e.half).dramUsed to_.pc to_.bank to_.row = true) (hbytes : bytes ≠ 0)
    (hy : y = (((t.half e.half).fillBuckets t.now).ctlServe to_.pc to_.turns).sendHeld t.now)
    (hz : y.atMint t.now
      { port := port, cls := cls, pc := to_.pc, bank := to_.bank, row := to_.row, bytes := bytes, write := write, since := t.now, coinsAt := 0,
        missed := false } = z) :
    exec (.portRequestHeldRelease e port cls to_ bytes write) s = .next (t.upd e.half fun _ => z) := by
  subst hz
  simp [exec, execPortRequestHeldRelease, ← ht, hrimUp, hbacked, hfits, hused, hbytes, ← hy]

/-- Settles O39: each message by the rule for its body, a throttle by the Mint's feedback rules, and a request at its port by whether it leaves. -/
theorem mintClasses : Obligations.MintClasses := by
  refine ⟨?_, ?_, ?_, ?_, ?_, ?_, ?_, ?_, ?_, ?_, ?_, ?_, ?_, ?_, ?_, ?_⟩
  -- mntShadow
  · rintro e m cls cfg ports s _ u rfl hu haccepts hcls
    exact next_mbox_replies hu haccepts (by simp [hcls.not_ge])
  -- mntCommit
  · rintro e m s _ u rfl hu haccepts hnewClass hports hnewSum hhatchSum
    exact next_mboxL_stores hu haccepts (by simp [hnewClass, hports, hnewSum.not_gt, hhatchSum.not_gt])
  -- mntFb
  · rintro e m cfg s _ u rfl hu haccepts hthreshold hbits hhysteresis
    exact next_mboxL_stores hu haccepts (by simp [hthreshold.not_gt, hbits, hhysteresis.not_ge])
  · rintro e stack level s t ht hrimUp hstack
    simp [exec, execStackThrottle, ← ht, hrimUp, hstack.not_ge]
  · rintro e stack level s t ht hrimUp rfl hthrottled hthreshold
    simp [exec, execStackThrottle, ← ht, hrimUp, feedback_starts (x := (t.half e.half).setLevel 0 level) hthrottled hthreshold]
  · rintro e stack level s t ht hrimUp rfl hthrottled hbelow hhysteresis
    simp [exec, execStackThrottle, ← ht, hrimUp, feedback_ends (x := (t.half e.half).setLevel 0 level) hthrottled hbelow hhysteresis]
  · rintro e stack level s t ht hrimUp rfl hthrottled hthreshold
    simp [exec, execStackThrottle, ← ht, hrimUp, feedback_starts (x := (t.half e.half).setLevel 1 level) hthrottled hthreshold]
  · rintro e stack level s t ht hrimUp rfl hthrottled hbelow hhysteresis
    simp [exec, execStackThrottle, ← ht, hrimUp, feedback_ends (x := (t.half e.half).setLevel 1 level) hthrottled hbelow hhysteresis]
  · rintro e port cls y s t ht hrimUp hcls hy hoverdue (hnever | hlong)
    · simp [exec, execGuaranteeMiss, ← ht, hrimUp, hcls.not_ge, ← hy, -List.any_eq_true, hoverdue, hnever]
    · simp [exec, execGuaranteeMiss, ← ht, hrimUp, hcls.not_ge, ← hy, -List.any_eq_true, hoverdue, hlong]
  · rintro e port cls y s t ht hrimUp hcls hy hoverdue hbefore hwithin
    simp [exec, execGuaranteeMiss, ← ht, hrimUp, hcls.not_ge, ← hy, -List.any_eq_true, hoverdue, hbefore, hwithin.not_ge]
  · rintro e port cls to_ bytes write s t ht hrimUp hportBacked hmarkFits hdramUsed rfl
    simp [exec, execPortRequestHeldRelease, ← ht, hrimUp, hportBacked, hmarkFits, hdramUsed]
  · rintro e port cls to_ bytes write y s t ht hrimUp hportBacked hmarkFits hdramUsed hbytes hy
    simp [exec, execPortRequestHeldRelease, ← ht, hrimUp, hportBacked, hmarkFits, hdramUsed, hbytes, ← hy]
  · rintro e port cls to_ bytes write y s t ht hrimUp hbacked hfits hused hbytes hy hnone hroom hpays
    exact exec_portRequest ht hrimUp hbacked hfits hused hbytes hy (atMint_leaves_paid hnone hroom hpays)
  · rintro e port cls to_ bytes write y s t ht hrimUp hbacked hfits hused hbytes hy hnone hroom hpays hborrows
    exact exec_portRequest ht hrimUp hbacked hfits hused hbytes hy (atMint_leaves_surplus hnone hroom hpays hborrows)
  · rintro e port cls to_ bytes write y s t ht hrimUp hbacked hfits hused hbytes hy hnone hroom hpays hborrows
    exact exec_portRequest ht hrimUp hbacked hfits hused hbytes hy (atMint_held hnone hroom hpays hborrows)
  · rintro e port cls to_ bytes write y s t ht hrimUp hbacked hfits hused hbytes hy hsome
    exact exec_portRequest ht hrimUp hbacked hfits hused hbytes hy (atMint_held_behind hsome)
end Sys2Proof.Machine
end

section
/-! Results, judgements and verdict exchange (R262, R264, R266, R267). -/
set_option Elab.async false
namespace Sys2Proof.Machine

theorem verdictArrives_of_rimUp {s : State} {h r t n : Nat} (hr : r = s.exchRound h t n) (hrim : (s.half h).clk.rimUp = true) (v : Verdict) :
    s.verdictArrives h t n v =
      (s.upd h fun x => (x.setFld F.TLY_CTL_witness 1).updTask t fun k => k.setRound r { k.round r with other := some v }).tryWrite h t r := by
  simp only [State.verdictArrives, hrim, ← hr, Bool.not_true, Bool.false_eq_true, if_false]

/-- Settles O40: each row by its command's meaning on the round that it names. -/
theorem resultsAndVerdicts : Obligations.ResultsAndVerdicts := by
  refine ⟨?_, ?_, ?_, ?_, ?_, ?_, ?_, ?_, ?_, ?_, ?_⟩
  · rintro e n st k r rec0 a b sz len s t ht htrials hlast hactiveEntry hrounds hst hrec0 ha hb hsz hlen haccess hreadable hboxes
    rcases hst with rfl | rfl <;>
      simp [exec, execChannelResultDelivered, ← ht, htrials, hlast, hactiveEntry, hrounds, ← hrec0, ← ha, ← hb, ← hsz, ← hlen, haccess, hreadable,
        hboxes]
  · rintro e n st k r rec0 a b sz len q s t ht htrials hlast hactiveEntry hrounds hst hrec0 ha hb hsz hlen haccess hq hnotRetried
    rcases hst with rfl | rfl <;>
      simp [exec, execChannelResultDelivered, ← ht, htrials, hlast, hactiveEntry, hrounds, ← hrec0, ← ha, ← hb, ← hsz, ← hlen, haccess, hq,
        hnotRetried]
  · rintro e n st k r s t ht htrials hlast hactiveEntry hrounds hst hnotRetried
    simp [exec, execChannelResultDelivered, ← ht, htrials, hlast, hactiveEntry, hrounds, hst, hnotRetried]
  · rintro e task round r s t ht hr hjudges hown hwrittenR hisAssay hstB
    simp [exec, execTallyJudgement, ← ht, ← hr, hjudges, hown, hwrittenR, hisAssay, hstB]
  · rintro e task round r s t ht hr hjudges hown hwrittenR hisAssay hisDue hstB
    simp [exec, execRoundDueTime, ← ht, ← hr, hjudges, hown, hwrittenR, hisAssay, hisDue, hstB]
  · rintro e task round r s t ht hr hjudges hown hwrittenR hisAssay hisDue hstB
    simp [exec, execRoundDueTime, ← ht, ← hr, hjudges, hown, hwrittenR, hisAssay, hisDue, hstB]
  · rintro e task round v r s t ht hr hrimUp
    simp only [exec, execVerdictExchange, ← ht, verdictArrives_of_rimUp hr hrimUp]
  · rintro e task round r v s t ht hr hyielding hown hwrittenR hother hownVt htallyLink
    simp [exec, execVerdictExchangeTimeout, ← ht, ← hr, hyielding, hown, hwrittenR, hother, hownVt.not_gt, htallyLink]
  · rintro e task round r v s t ht hr hyielding hown hwrittenR hother hownVt htallyLink
    simp [exec, execVerdictExchangeTimeout, ← ht, ← hr, hyielding, hown, hwrittenR, hother, hownVt.not_gt, htallyLink]
  · rintro e task round r s t ht hr hwrittenR hstA
    simp [exec, execLateResultDiscard, ← ht, ← hr, hwrittenR, hstA]
  · rintro e task round r s t ht hr hwrittenR hstA hstB
    have hA : (((t.half e.half).task task).round r).stA ≠ none := Option.isSome_iff_ne_none.mp hstA
    simp [exec, execLateResultDiscard, ← ht, ← hr, hwrittenR, hA, hstB]
end Sys2Proof.Machine
end

section
/-! Assays, the locating search and core audits (R271, R276, R279, R280, R281, R282, R283, R284). -/
set_option Elab.async false
namespace Sys2Proof.Machine

/-! A core whose audit a postponement would make overdue (R282): the row once the audit is late, `u` the state with a late record written -/

section
variable {e : Ev} {p : Nat} {s t u : State} (ht : t = tick e s) (hcompute : (t.half e.half).clk.computeUp = true)
  (henable : (t.half e.half).fld F.TLY_AUDIT_CFG_enable ≠ 0) (hactive : ((t.half e.half).coreEntry p).2 ≠ 3)
  (hidle : ((t.half e.half).core p).auditing = false)
  (hlate : (t.half e.half).auditNs < ((t.half e.half).vt.toNat - ((t.half e.half).core p).auditVt) + (t.half e.half).auditNs / 136)
  (hu : u = (if 2 * (t.half e.half).auditNs < ((t.half e.half).vt.toNat - ((t.half e.half).core p).auditVt) && !((t.half e.half).core p).overdue then
    ((t.incident e.half 0x08 p .timeout).upd e.half fun x => x.inc F.TLY_AUDIT_STAT_overdue).updCore e.half p (fun c => { c with overdue := true }) else t))
include ht hcompute henable hactive hidle hlate hu

theorem exec_auditOverdue_late :
    exec (.auditOverdue e p) s = .next (
      if (t.half e.half).audits || (t.half e.half).underSearch p || ((t.half e.half).core p).resetting
        || (t.half e.half).auditPlaced.any (fun q => decide (q ≠ p))
      then u
      else if (t.half e.half).auditStarts p then u.updCore e.half p Core.auditStart
      else if (t.half e.half).handsOver p || (t.half e.half).clearOf p ((t.half e.half).holdsOwn p) then u.updCore e.half p fun c => { c with auditDue := true }
      else if !(t.half e.half).slotTaken p then u
      else if (t.half e.half).auditable p then u.updCore e.half p Core.auditStart
      else u.updCore e.half p Core.yieldSlot) := by
  have hguard : (!(t.half e.half).clk.computeUp || decide ((t.half e.half).fld F.TLY_AUDIT_CFG_enable = 0) || decide (((t.half e.half).coreEntry p).2 = 3)
      || ((t.half e.half).core p).auditing
      || decide ((t.half e.half).vt.toNat - ((t.half e.half).core p).auditVt + (t.half e.half).auditNs / 136 ≤ (t.half e.half).auditNs)) = false := by
    simp [hcompute, henable, hactive, hidle, hlate]
  simp only [exec, execAuditOverdue, ← ht, hguard, ← hu, Bool.false_eq_true, if_false]

end

/-- Settles O41: each row by its command's meaning; the rows of a late audit share one equation, whose branches they pick. -/
theorem assaysAndAudits : Obligations.AssaysAndAudits := by
  refine ⟨?_, ?_, ?_, ?_, ?_, ?_, ?_, ?_, ?_, ?_, ?_, ?_, ?_, ?_, ?_, ?_, ?_, ?_, ?_, ?_, ?_, ?_, ?_, ?_, ?_, ?_, ?_, ?_, ?_⟩
  · rintro e task ch s t ht htrialOpen hch
    subst hch
    simp [exec, execAssayDue, ← ht, htrialOpen]
  · rintro e task ch s t ht htrialOpen htaskState hassayVt hassayDue henable
    simp [exec, execAssayDue, ← ht, htrialOpen, htaskState, hassayVt, hassayDue, henable]
  · rintro e task ch s t ht htrialOpen htaskState hassayDue henable
    rcases htaskState with hstate | hstate <;> simp [exec, execAssayDue, ← ht, htrialOpen, hstate, hassayDue, henable]
  · rintro e task round s t ht htrials
    simp [exec, execAssayVerdict, ← ht, htrials]
  · rintro e task round r s t ht htrials hr htaskRec hjudges hown hwrittenR hassayDue hanswers
    simp [exec, execAssayVerdict, ← ht, htrials, ← hr, htaskRec, hjudges, hown, hwrittenR, hassayDue, hanswers]
  · rintro e task round r s t ht htrials hr htaskRec hjudges hown hwrittenR hisAssay hstB
    have hknown : (!((((t.half e.half).task task).round r).stA.isSome && (((t.half e.half).task task).round r).stB.isSome)
        && !t.isDue e.half task r) = false := by
      rw [← Bool.not_or, hstB]
      rfl
    simp only [exec, execAssayVerdict, ← ht, htrials, ← hr, htaskRec, hjudges, hown, hwrittenR, hisAssay, hknown, Option.isSome_none, Bool.not_true,
      Bool.or_self, Bool.false_eq_true, if_false, if_true]
    rfl
  · rintro e task c l rest p q s t ht htaskState hghReset hstand hsearch hchanHalf hownCore hgroupSpare hspareAudits hspareFree hatBoundary
    simp [exec, execLocatingSearchStep, ← ht, htaskState, hghReset, hstand, hsearch, hchanHalf, hownCore, hgroupSpare, hspareAudits, hspareFree,
      hatBoundary]
  · rintro e task c l rest p q s t ht htaskState hghReset hstand hsearch hchanHalf hownCore hgroupSpare hspareAudits hspareFree
    simp [exec, execLocatingSearchStep, ← ht, htaskState, hghReset, hstand, hsearch, hchanHalf, hownCore, hgroupSpare, hspareAudits, hspareFree]
  · rintro e task c l rest p q s t ht htaskState hghReset hstand hsearch hchanHalf hownCore hgroupSpare hspareAudits
    simp [exec, execLocatingSearchStep, ← ht, htaskState, hghReset, hstand, hsearch, hchanHalf, hownCore, hgroupSpare, hspareAudits]
  · rintro e p s t ht hcomputeUp henable haudits hauditPlaced hauditStarts
    simp [exec, execAuditDue, ← ht, hcomputeUp, henable, haudits, hauditPlaced, hauditStarts]
  · rintro e p s t ht hcomputeUp henable haudits hauditPlaced hauditStarts hauditNs
    simp [exec, execAuditDue, Half.postpone, ← ht, hcomputeUp, henable, haudits, hauditPlaced, hauditStarts, hauditNs]
  · rintro e p s t ht hcomputeUp henable haudits hauditPlaced hauditPick hauditNs hunderSearch hauditStarts
    simp [exec, execAuditDue, ← ht, hcomputeUp, henable, haudits, hauditPlaced, hauditPick, hauditNs, hunderSearch, hauditStarts]
  · rintro e p s t ht hcomputeUp henable haudits hauditPlaced hauditPick hauditNs hunderSearch hauditStarts hresetting hholdsOwn
    simp [exec, execAuditDue, ← ht, hcomputeUp, henable, haudits, hauditPlaced, hauditPick, hauditNs, hunderSearch, hauditStarts, hresetting,
      hholdsOwn]
  · rintro e p s t ht hcomputeUp henable haudits hauditPlaced hauditPick hauditNs hunderSearch hauditStarts hholdsOwn
    simp [exec, execAuditDue, Half.postpone, ← ht, hcomputeUp, henable, haudits, hauditPlaced, hauditPick, hauditNs, hunderSearch, hauditStarts,
      hholdsOwn]
  · rintro e p s t ht hcomputeUp henable haudits hauditPlaced hauditPick hauditNs hunderSearch
    simp [exec, execAuditDue, ← ht, hcomputeUp, henable, haudits, hauditPlaced, hauditPick, hauditNs, hunderSearch]
  · rintro e p s t ht hcomputeUp henable haudits hauditPlaced hauditPick hearly hlocated hunderSearch hauditStarts
    simp [exec, execAuditDue, ← ht, hcomputeUp, henable, haudits, hauditPlaced, hauditPick, hearly.not_ge, hlocated, hunderSearch, hauditStarts]
  · rintro e p fail block s t ht hauditing hrun rfl hlocated
    simp [exec, execAuditDone, ← ht, hauditing, hrun, hlocated]
  · rintro e p fail block s t ht hauditing hrun rfl hlocated
    simp [exec, execAuditDone, ← ht, hauditing, hrun, hlocated]
  · rintro e p fail block s t ht hauditing hrun rfl
    -- the statement's filter of the tasks is the command's, under a matcher of its own
    simp [exec, execAuditDone, ← ht, hauditing, hrun] <;> rfl
  · rintro e p u s t ht hcomputeUp henable hnotRetired hauditing hauditNs hu hauditPlaced hauditStarts
    rw [exec_auditOverdue_late ht hcomputeUp henable hnotRetired hauditing hauditNs hu]
    simp only [hauditPlaced, hauditStarts, Bool.false_eq_true, if_false, if_true]
  · rintro e p u s t ht hcomputeUp henable hnotRetired hauditing hauditNs hu hauditPlaced hauditStarts hholdsOwn
    rw [exec_auditOverdue_late ht hcomputeUp henable hnotRetired hauditing hauditNs hu]
    simp only [hauditPlaced, hauditStarts, hholdsOwn, Bool.false_eq_true, if_false, if_true]
  · rintro e p u s t ht hcomputeUp henable hnotRetired hauditing hauditNs hu hauditPlaced hauditStarts hholdsOwn hslotTaken hauditable
    rw [exec_auditOverdue_late ht hcomputeUp henable hnotRetired hauditing hauditNs hu]
    simp only [hauditPlaced, hauditStarts, hholdsOwn, hslotTaken, hauditable, Bool.not_true, Bool.false_eq_true, if_false, if_true]
  · rintro e p u s t ht hcomputeUp henable hnotRetired hauditing hauditNs hu hauditPlaced hauditStarts hholdsOwn hslotTaken hauditable
    rw [exec_auditOverdue_late ht hcomputeUp henable hnotRetired hauditing hauditNs hu]
    simp only [hauditPlaced, hauditStarts, hholdsOwn, hslotTaken, hauditable, Bool.not_true, Bool.false_eq_true, if_false]
  · rintro e p u s t ht hcomputeUp henable hnotRetired hauditing hauditNs hu hauditPlaced hauditStarts hholdsOwn hslotTaken
    rw [exec_auditOverdue_late ht hcomputeUp henable hnotRetired hauditing hauditNs hu]
    simp only [hauditPlaced, hauditStarts, hholdsOwn, hslotTaken, Bool.not_false, Bool.false_eq_true, if_false, if_true]
  · rintro e p u s t ht hcomputeUp henable hnotRetired hauditing hauditNs hu hauditPlaced
    rw [exec_auditOverdue_late ht hcomputeUp henable hnotRetired hauditing hauditNs hu, if_pos hauditPlaced]
  · rintro e p block s t ht hboundary hretireDue
    simp [exec, execDutyHandover, ← ht, hboundary, hretireDue]
  · rintro e p s t ht hboundary hretireDue hstoodIn hdutyReturns
    simp [exec, execDutyHandover, ← ht, hboundary, hretireDue, hstoodIn, hdutyReturns]
  · rintro e p u s t ht hboundary hretireDue hstoodIn hauditDue hhandsOver hu hauditStarts
    simp [exec, execDutyHandover, ← ht, hboundary, hretireDue, hstoodIn, hauditDue, hhandsOver, ← hu, hauditStarts]
  · rintro e p u s t ht hboundary hretireDue hstoodIn hauditDue hhandsOver hu hauditStarts
    simp [exec, execDutyHandover, ← ht, hboundary, hretireDue, hstoodIn, hauditDue, hhandsOver, ← hu, hauditStarts]
end Sys2Proof.Machine
end

section
/-! Degraded operation and yielding (R286, R287). -/
set_option Elab.async false
namespace Sys2Proof.Machine
/-- Settles O42: each row by its command's meaning. -/
theorem lossOfTheOtherHalf : Obligations.LossOfTheOtherHalf := by
  refine ⟨?_, ?_, ?_, ?_, ?_, ?_⟩
  · rintro e cause s t ht hlost hready hyielding rfl
    simp [exec, execDegradedEntry, ← ht, hlost, hready, hyielding]
  · rintro e cause s t ht hlost hready hyielding hcause
    rcases hcause with rfl | rfl <;> simp [exec, execDegradedEntry, ← ht, hlost, hready, hyielding]
  · rintro e cause s t ht hlost hready hyielding rfl hyieldsOnAlarm
    simp [exec, execDegradedEntry, ← ht, hlost, hready, hyielding, hyieldsOnAlarm]
  · rintro e cause s t ht hlost hready hyielding rfl hyieldsOnAlarm
    simp [exec, execDegradedEntry, ← ht, hlost, hready, hyielding, hyieldsOnAlarm]
  · rintro e toggling v s t ht hlossVt hv
    simp [exec, execSerrHbCheck, ← ht, hlossVt, hv.not_gt]
  · rintro e s t ht hyielding hresetKind
    simp [exec, execYieldHalf, ← ht, hyielding, hresetKind]
end Sys2Proof.Machine
end

section
/-! Frames through the gateway and bus-off (R362, R363, R365, R366, R368, R369, R370, R371). -/
set_option Elab.async false
namespace Sys2Proof.Machine

/-! The routing of a frame (R363, R365) -/

section
variable {t u : State} {h src acf : Nat} {f : Frame} (hrim : (t.half h).clk.rimUp = true) (henable : (t.half h).fld F.GTW_CTL_enable ≠ 0)
  (hu : u = t.payLookup h (frameKey src acf f))
include hrim henable hu

theorem route_misses (hmiss : (u.half h).lookup (frameKey src acf f) = none) : t.route h src acf f = u.upd h fun x => x.inc F.GTW_DROP_miss := by
  simp [State.route, hrim, henable, ← hu, hmiss]

theorem route_forwards {r : Nat} (hfound : (u.half h).lookup (frameKey src acf f) = some r) :
    t.route h src acf f = ((u.half h).chain r 7).foldl (fun w d => if gDrop d = 1 then w else w.toDest h src d f)
      (u.upd h fun x => x.incw F.GTW_FWD_CNT_frames) := by
  simp [State.route, hrim, henable, ← hu, hfound]

end

/-- A hold time that ends sends what the slot has packed by the slot's port and gate (R368). -/
theorem flushSlot_packed {t : State} {h slot : Nat} {a : AcfOut} {l : List AcfOut} (hpacked : kget (fun _ => []) (t.half h).gtw.packing slot = a :: l) :
    t.flushSlot h slot =
      let v := t.upd h fun x => { x with gtw := { x.gtw with packing := kput (fun _ => []) x.gtw.packing slot [] } }
      let c := (t.half h).slot_ slot
      if !(t.half h).portOn (slPort c) then v
      else if (t.half h).gateBars (slPort c) (slPcp c) ((a :: l).foldl (fun k b => k + b.bytes) 34) then
        v.upd h fun x => x.inc F.TEL_DP_ERR_gate_drop (slPort c % 2)
      else (v.countTx h (some (slPort c))).emit (.streamSend h slot (a :: l)) := by
  simp only [State.flushSlot, hpacked]

theorem setBusOff_up {t : State} {c : Nat} {off : Bool} (hc : c < 16) (hrim : (t.half (busHalf c)).clk.rimUp = true) :
    t.setBusOff c off = t.upd (busHalf c) fun x => { x with gtw := { x.gtw with busOff := kput (fun _ => false) x.gtw.busOff c off } } := by
  simp [State.setBusOff, hc.not_ge, hrim]

/-- Settles O43: each frame by the routing rule that its lookup selects, an egress slot by its port and gate. -/
theorem gatewayFrames : Obligations.GatewayFrames := by
  refine ⟨?_, ?_, ?_, ?_, ?_, ?_, ?_, ?_, ?_, ?_, ?_, ?_⟩
  · rintro e bus f s t ht hbusHalf hbusOff
    simp [exec, execCanFrameReceive, ← ht, hbusHalf, hbusOff]
  · rintro e bus f u s t ht hbusHalf hbusOff hrimUp henable hu hlookup
    simp [exec, execCanFrameReceive, ← ht, hbusHalf, hbusOff, route_misses hrimUp henable hu hlookup]
  · rintro e bus f u r s t ht hbusHalf hbusOff hrimUp henable hu hlookup
    simp [exec, execCanFrameReceive, ← ht, hbusHalf, hbusOff, route_forwards hrimUp henable hu hlookup]
  · rintro e slot seqNum msgs s t ht hrimUp henable hslot hingress hportOn
    simp [exec, execStreamIngress, ← ht, hrimUp, henable, hslot, hingress, hportOn]
  · rintro e slot s t ht hrimUp hpackDue
    simp [exec, execStreamEgressHoldExpiry, ← ht, hrimUp, hpackDue]
  · rintro e slot a l s t ht hrimUp hdue hpacked hport hgate
    simp only [exec, execStreamEgressHoldExpiry, ← ht, hrimUp, hdue, flushSlot_packed hpacked, hport, hgate, Bool.not_true, Bool.or_self,
      Bool.false_eq_true, if_false]
  · rintro e slot a l s t ht hrimUp hdue hpacked hport
    simp [exec, execStreamEgressHoldExpiry, ← ht, hrimUp, hdue, flushSlot_packed hpacked, hport]
  · rintro e slot a l s t ht hrimUp hdue hpacked hport hgate
    simp only [exec, execStreamEgressHoldExpiry, ← ht, hrimUp, hdue, flushSlot_packed hpacked, hport, hgate, Bool.not_true, Bool.or_self,
      Bool.false_eq_true, if_false, if_true]
  · rintro e slot s t ht hrimUp hpackDue
    simp [exec, execStreamEgressHoldExpiry, ← ht, hrimUp, hpackDue]
  · rintro e gq f s t ht hgq hqueueOwner
    simp [exec, execGatewayQueueDoorbell, ← ht, hgq.not_ge, hqueueOwner]
  -- canBusOff
  · rintro e ctrl s t ht hctrl hrimUp
    rw [ht] at hrimUp ⊢
    exact congrArg _ (setBusOff_up hctrl hrimUp)
  -- busOffRecovery
  · rintro e ctrl s t ht hctrl hrimUp
    rw [ht] at hrimUp ⊢
    exact congrArg _ (setBusOff_up hctrl hrimUp)
end Sys2Proof.Machine
end

section
/-! Gateway and data-port configuration that is accepted (R238, R364, R366, R368, R376, R391, R400, R402). -/
set_option Elab.async false
namespace Sys2Proof.Machine
/-- Settles O44: each message by the rule for its body, once its source record has been read. -/
theorem gatewayMessages : Obligations.GatewayMessages := by
  refine ⟨?_, ?_, ?_, ?_, ?_, ?_, ?_, ?_, ?_, ?_, ?_, ?_⟩
  -- routeWrite
  · rintro e m count src l s _ u rfl hu haccepts hcount hmax hsrcBytes hplaced
    exact next_mbox_replies hu haccepts (by simp [hcount, hmax.not_gt, withSrc_read hsrcBytes, hplaced])
  · rintro e m count src l r s _ u rfl hu haccepts hcount hmax hsrcBytes hplaced
    exact next_mbox_replies hu haccepts (by simp [hcount, hmax.not_gt, withSrc_read hsrcBytes, hplaced])
  -- routeDelete
  · rintro e m count src l s _ u rfl hu haccepts hcount hmax hsrcBytes
    exact next_mboxL_stores hu haccepts (by simp [hcount, hmax.not_gt, withSrc_read hsrcBytes])
  -- fanoutWrite
  · rintro e m first count src l s _ u rfl hu haccepts hcount hfirst hsrcBytes hlinks
    exact next_mboxL_stores hu haccepts
      (by simp only [hcount, hfirst.not_gt, withSrc_read hsrcBytes, hlinks, Bool.false_eq_true, if_false])
  -- gtwCfg
  · rintro e m ctl ovf s _ u rfl hu haccepts hbits hmax hseed hovfCount
    exact next_mboxL_stores hu haccepts (by simp [hbits, hmax.not_gt, hseed, hovfCount])
  · rintro e m ctl ovf w s _ u rfl hu haccepts halign hmax hchanged rfl hplaced
    dsimp only at hplaced
    exact next_mboxL_stores hu haccepts (by simp [halign, hmax.not_gt, not_and_or.mpr hchanged, -List.map_append, hplaced])
  · rintro e m ctl ovf w r s _ u rfl hu haccepts halign hmax hchanged rfl hplaced
    dsimp only at hplaced
    exact next_mboxL_refuses hu haccepts (by simp [halign, hmax.not_gt, not_and_or.mpr hchanged, -List.map_append, hplaced]) (by decide)
  -- slotCfg
  · rintro e m slot src l s _ u rfl hu haccepts hslot hsrcBytes hslHold hslPort hhalf hslVlan hslPcp
    exact next_mboxL_stores hu haccepts (by
      simp [hslot.not_ge, withSrc_read hsrcBytes, hslHold.not_gt, hslPort.not_gt, hhalf, hslVlan.not_gt, hslPcp.not_gt])
  -- portCfg
  · rintro e m udp ip4 pfx4 pfx6 ip6 s _ u rfl hu haccepts hpfx4 hpfx6
    exact next_mboxL_stores hu haccepts (by simp [hpfx4.not_gt, hpfx6.not_gt])
  -- qbvWrite
  · rintro e m port count cycle base src l es s _ u rfl hu haccepts hcount hmax hport hhalf hshort hlong hread hes hintervals hsum
    refine next_mboxL_stores hu haccepts ?_
    simp only [hcount, hmax.not_gt, hport.not_gt, hhalf, hshort.not_gt, hlong.not_gt, ne_eq, not_true, decide_false, Bool.or_self,
      Bool.false_eq_true, if_false, withSrc_read hread, ← hes, hintervals, hsum.not_gt]
  -- peerFenceWrite
  · rintro e m first count src l s _ u rfl hu haccepts hcount hfirst hsrcBytes
    exact next_mboxL_stores hu haccepts (by simp [hcount, hfirst.not_gt, withSrc_read hsrcBytes])
  -- peerListWrite
  · rintro e m first count src l s _ u rfl hu haccepts hcount hfirst hsrcBytes
    exact next_mboxL_stores hu haccepts (by simp [hcount, hfirst.not_gt, withSrc_read hsrcBytes])
end Sys2Proof.Machine
end

section
/-! Flits, lanes, modules and training (R287, R303, R306, R346, R347, R348, R352, R358, R359, R360, R503). -/
set_option Elab.async false
namespace Sys2Proof.Machine
/-- Settles O45: each row by its command's meaning; a flit by the sequence number awaited, a lane by its replays and repairs. -/
theorem hatchLink : Obligations.HatchLink := by
  refine ⟨?_, ?_, ?_, ?_, ?_, ?_, ?_, ?_, ?_, ?_, ?_, ?_, ?_, ?_⟩
  · rintro e module ok corrected seq tail s t ht hrimUp hlinkOn hmodulesUp (hnext | hfirst) rfl rfl
    · simp [exec, execFlitReceive, ← ht, hrimUp, hlinkOn, hmodulesUp, hnext]
    · simp [exec, execFlitReceive, ← ht, hrimUp, hlinkOn, hmodulesUp, hfirst]
  · rintro e module ok corrected seq tail s t ht hrimUp hlinkOn hmodulesUp (hnext | hfirst) rfl rfl
    · simp [exec, execFlitReceive, ← ht, hrimUp, hlinkOn, hmodulesUp, hnext]
    · simp [exec, execFlitReceive, ← ht, hrimUp, hlinkOn, hmodulesUp, hfirst]
  · rintro e module ok corrected seq tail n s t ht hrimUp hlinkOn hmodulesUp hrxSeq hn rfl rfl hreplaying
    simp [exec, execFlitReceive, ← ht, hrimUp, hlinkOn, hmodulesUp, hrxSeq, hn.symm, hreplaying]
  · rintro e module ok corrected seq tail n s t ht hrimUp hlinkOn hmodulesUp hrxSeq rfl hreplaying
    simp [exec, execFlitReceive, ← ht, hrimUp, hlinkOn, hmodulesUp, hrxSeq, hreplaying]
  · rintro e module lane l s t ht hrimUp (hreplays | hfailed) hmodules rfl hlane hrepairs
    · simp [exec, execHatchLaneRepair, ← ht, hrimUp, hreplays.not_gt, hmodules, hlane, hrepairs.not_ge]
    · simp [exec, execHatchLaneRepair, ← ht, hrimUp, hfailed, hmodules, hlane, hrepairs.not_ge]
  · rintro e module lane l s t ht hrimUp (hreplays | hfailed) hmodules rfl hlane hrepairs
    · simp [exec, execHatchLaneRepair, ← ht, hrimUp, hreplays.not_gt, hmodules, hlane, hrepairs]
    · simp [exec, execHatchLaneRepair, ← ht, hrimUp, hfailed, hmodules, hlane, hrepairs]
  · rintro e module s t ht hrimUp
    simp [exec, execHatchModuleFailover, ← ht, hrimUp]
  · rintro e s t ht hrimUp hlinkOn
    simp [exec, execHatchLinkLoss, ← ht, hrimUp, hlinkOn]
  · rintro e peerRelease ok u s t ht hrimUp hlinkOn hu rfl hpeerUp hmodulesUp hrelease
    simp [exec, execHatchLinkTraining, ← ht, hrimUp, hlinkOn, ← hu, hpeerUp, hmodulesUp, hrelease]
  · rintro e peerRelease ok u s t ht hrimUp hlinkOn hu rfl hpeerUp hmodulesUp hrelease hready
    simp [exec, execHatchLinkTraining, ← ht, hrimUp, hlinkOn, ← hu, hpeerUp, hmodulesUp, hrelease, hready]
  · rintro e peerRelease ok u s t ht hrimUp hlinkOn hu rfl hpeerUp hmodulesUp hrelease hready
    simp [exec, execHatchLinkTraining, ← ht, hrimUp, hlinkOn, ← hu, hpeerUp, hmodulesUp, hrelease, hready]
  · rintro e peerRelease ok u s t ht hrimUp hlinkOn hu hfails hstays
    have hfails' : (!ok || !(u.half (peer e.half)).clk.rimUp || decide ((u.half e.half).modulesUp = 0)) = true := by simpa [or_assoc] using hfails
    have hstays' : (decide ((u.half e.half).fld F.CLK_RESET_CAUSE_cause = 0x11) && !(u.half e.half).clk.ready) = false := by
      simpa [imp_iff_not_or] using hstays
    simp only [exec, execHatchLinkTraining, ← ht, hrimUp, hlinkOn, ← hu, hfails', hstays', Bool.not_true, Bool.or_self, Bool.false_eq_true, if_false,
      if_true]
  · rintro e peerRelease ok u s t ht hrimUp hlinkOn hu hfails hcause hready
    have hfails' : (!ok || !(u.half (peer e.half)).clk.rimUp || decide ((u.half e.half).modulesUp = 0)) = true := by simpa [or_assoc] using hfails
    simp only [exec, execHatchLinkTraining, ← ht, hrimUp, hlinkOn, ← hu, hfails', hcause, hready, Bool.not_true, Bool.not_false, Bool.or_self,
      Bool.and_self, decide_true, Bool.false_eq_true, if_false, if_true]
  · rintro e code type tag s t ht hrimUp hlinkOn hlow hhigh
    simp [exec, execHatchViolation, ← ht, hrimUp, hlinkOn, Nat.pos_iff_ne_zero.mp hlow, hhigh.not_gt]
end Sys2Proof.Machine
end

section
/-! Requests and completions across the Hatch (R331, R350, R351, R352, R356, R359). -/
set_option Elab.async false
namespace Sys2Proof.Machine

/-! A request of the other half, once what is held at the two bridges has been tried (R331, R336, R352) -/

section
variable {i w v : State} {h : Nat} {r : HatchIn} (hw : w = ((i.drain h).upd (peer h) fun x => x.fillBuckets i.now).drainOut h)
include hw

theorem arrive_waits (hholds : w.bridgeHolds h r = true) :
    i.arrive h r = w.upd (peer h) fun x => { x with hatch := { x.hatch with outbox := x.hatch.outbox ++ [r] } } := by
  simp only [State.arrive, ← hw, hholds, if_true, State.holdOut]

variable (hleaves : w.bridgeHolds h r = false)
include hleaves

theorem arrive_violates (hcredit : (w.half h).creditOk r = false) : i.arrive h r = w.violation h 0x06 r.type r.pkt.tag := by
  simp [State.arrive, ← hw, hleaves, hcredit]

variable (hcredit : (w.half h).creditOk r = true) (hv : v = w.upd (peer h) fun x => x.payBridge r.pkt.mark r.len)
include hcredit hv

theorem arrive_held (hadmits : v.admits h r = false) :
    i.arrive h r = v.upd h fun x => { x with hatch := { x.hatch with inbox := x.hatch.inbox ++ [r] } } := by
  subst hv
  simp [State.arrive, ← hw, hleaves, hcredit, State.crosses, State.atPort, hadmits]

theorem arrive_served (hadmits : v.admits h r = true) :
    i.arrive h r = (v.pay h 136 r.pkt.mark (decide (r.type = 1) || decide (3 ≤ r.type)) r.addr r.len).serveIn h r := by
  subst hv
  simp [State.arrive, ← hw, hleaves, hcredit, State.crosses, State.atPort, hadmits]

end

/-- A word request of 4 or 8 bytes arrives as any other, its tag outstanding. -/
theorem wordRequest_arrives {t i : State} {h : Nat} {r : HatchIn} (htakes : t.takes h false = true) (hwidth : r.len = 4 ∨ r.len = 8)
    (hi : i = t.issued h r.pkt r.len) : t.wordRequest h r = i.arrive h r := by
  rcases hwidth with hlen | hlen <;> simp [State.wordRequest, htakes, hi, hlen]

/-- On an accessible word it runs on the aligned word. -/
theorem wordRun_accessible {t : State} {h : Nat} {k : Pkt} {addr width : Nat} (haccess : t.access h (wordAt addr width) width = .ok)
    (f : State → Nat → State) : t.wordRun h k addr width f = f t (wordAt addr width) := by
  simp only [State.wordRun, haccess]

theorem exec_mWrite {e : Ev} {k : Pkt} {addr : Nat} {data : List Byte} {s t : State} (ht : t = tick e s) (htakes : t.takes e.half false = true)
    (hspan : badSpan addr data.length = false) : exec (.mWrite e k addr data) s = .next (t.arrive e.half
      { type := 1, pkt := k, hart := 0, addr := addr, len := data.length, op := .swap, data := data, val := 0 }) := by
  simp [exec, execMWrite, ← ht, htakes, hspan]

theorem exec_mRead {e : Ev} {k : Pkt} {addr len : Nat} {s t : State} (ht : t = tick e s) (htakes : t.takes e.half false = true)
    (hspan : badSpan addr len = false) : exec (.mRead e k addr len) s = .next ((t.issued e.half k len).arrive e.half
      { type := 2, pkt := k, hart := 0, addr := addr, len := len, op := .swap, data := [], val := 0 }) := by
  simp [exec, execMRead, ← ht, htakes, hspan]

theorem exec_amo {e : Ev} {k : Pkt} {op : AmoOp} {addr width val : Nat} {s t : State} (ht : t = tick e s) (htakes : t.takes e.half false = true)
    (hwidth : width = 4 ∨ width = 8) : exec (.amo e k op addr width val) s = .next ((t.issued e.half k width).arrive e.half
      { type := 3, pkt := k, hart := 0, addr := addr, len := width, op := op, data := [], val := val }) := by
  simp only [exec, execAmo, ← ht]
  exact congrArg _ (wordRequest_arrives htakes hwidth rfl)

/-- A status that is no failure, or one of a master that is no application-core cluster, faults no hart. -/
theorem cplFault_none {t : State} {h tag : Nat} {st : Status} (hnone : st = .ok ∨ kget (fun _ => 0) (t.half h).hatch.askers tag - 1 < 133 ∨
    135 < kget (fun _ => 0) (t.half h).hatch.askers tag - 1) : t.cplFault h tag st = t := by
  rcases hnone with hst | hlow | hhigh
  · simp [State.cplFault, hst]
  · simp [State.cplFault, hlow]
  · simp [State.cplFault, hhigh]

/-! A completion of a tag (R352, R359) -/

section
variable {t : State} {h type tag m : Nat} {n : Option Nat} (htakes : t.takes h false = true)
include htakes

theorem completed_clears (hout : kget (fun _ => 0) (t.half h).hatch.outstanding tag = m + 1) (hn : n.any (· ≠ m) = false) :
    t.completed h type tag n = t.upd h fun x => { x with hatch := { x.hatch with
      outstanding := kput (fun _ => 0) x.hatch.outstanding tag 0, askers := kput (fun _ => 0) x.hatch.askers tag 0 } } := by
  simp only [State.completed, htakes, hout, hn, Bool.not_true, Bool.false_eq_true, if_false]

theorem completed_wrong_length (hout : kget (fun _ => 0) (t.half h).hatch.outstanding tag = m + 1) (hn : n.any (· ≠ m) = true) :
    t.completed h type tag n = t.violation h 0x04 type tag := by
  simp only [State.completed, htakes, hout, hn, Bool.not_true, Bool.false_eq_true, if_false, if_true]

theorem completed_not_outstanding (hout : kget (fun _ => 0) (t.half h).hatch.outstanding tag = 0) :
    t.completed h type tag n = t.violation h 0x04 type tag := by
  simp only [State.completed, htakes, hout, Bool.not_true, Bool.false_eq_true, if_false]

/-- A failure of an application-core cluster's request faults one of its harts where none is in a vault. -/
theorem cplFault_hart {st : Status} {port : Nat} (hport : port = kget (fun _ => 0) (t.half h).hatch.askers tag - 1)
    (hout : kget (fun _ => 0) (t.half h).hatch.outstanding tag ≠ 0) (hst : st ≠ .ok) (hlow : 133 ≤ port) (hhigh : port ≤ 135)
    (hvault : ∀ i < 12, ((t.half h).hart i).vault = none) :
    t.cplFault h tag st = t.draw.2.draw.2.emit (.appFault h ((port - 133) * 4 + t.draw.1 % 4) ([1, 5, 7].getD (t.draw.2.draw.1 % 3) 5)) := by
  have hnormal : ((t.draw.2.draw.2.half h).hart ((port - 133) * 4 + t.draw.1 % 4)).vault = none := hvault _ (by omega)
  simp only [State.cplFault, ← hport, hst, htakes, hout, hlow.not_gt, hhigh.not_gt, decide_false, Bool.not_true, Bool.or_self, Bool.false_eq_true,
    if_false, State.accessFault, State.hartFault, hnormal]

end

/-- Settles O46: each request by the rule for its fate at the two bridges, each completion by the tag's state. -/
theorem hatchRequests : Obligations.HatchRequests := by
  refine ⟨?_, ?_, ?_, ?_, ?_, ?_, ?_, ?_, ?_, ?_, ?_, ?_, ?_, ?_, ?_, ?_, ?_, ?_, ?_, ?_, ?_, ?_⟩
  · rintro e k addr data _ w v s t ht htakes hspan rfl hw hleaves hcredit hv hadmits
    rw [exec_mWrite ht htakes hspan, arrive_served hw hleaves hcredit hv hadmits]
    rfl
  · rintro e k addr data _ w v s t ht htakes hspan rfl hw hleaves hcredit hv hadmits
    rw [exec_mWrite ht htakes hspan, arrive_held hw hleaves hcredit hv hadmits]
  · rintro e k addr data _ w s t ht htakes hspan rfl hw hholds
    rw [exec_mWrite ht htakes hspan, arrive_waits hw hholds]
  · rintro e k addr data s t ht htakes hspan
    simp [exec, execMWrite, ← ht, htakes, hspan]
  · rintro e k addr len _ _ w v s t ht htakes hspan rfl rfl hw hleaves hcredit hv hadmits
    rw [exec_mRead ht htakes hspan, arrive_served hw hleaves hcredit hv hadmits]
    rfl
  · rintro e k addr len _ _ w v s t ht htakes hspan rfl rfl hw hleaves hcredit hv hadmits
    rw [exec_mRead ht htakes hspan, arrive_held hw hleaves hcredit hv hadmits]
  · rintro e k addr len _ _ w s t ht htakes hspan rfl rfl hw hholds
    rw [exec_mRead ht htakes hspan, arrive_waits hw hholds]
  · rintro e k addr len _ _ w s t ht htakes hspan rfl rfl hw hleaves hcredit
    rw [exec_mRead ht htakes hspan, arrive_violates hw hleaves hcredit]
  · rintro e k addr len s t ht htakes hbadSpan
    simp [exec, execMRead, ← ht, htakes, hbadSpan]
  · rintro e k op addr width val _ _ w v u s t ht htakes hwidth rfl rfl hw hleaves hcredit hv hadmits rfl haccess
    rw [exec_amo ht htakes hwidth, arrive_served hw hleaves hcredit hv hadmits]
    exact congrArg _ (wordRun_accessible haccess fun t a => t.amoRun e.half k op a width val)
  · rintro e k op addr width val _ _ w v s t ht htakes hwidth rfl rfl hw hleaves hcredit hv hadmits
    rw [exec_amo ht htakes hwidth, arrive_held hw hleaves hcredit hv hadmits]
  · rintro e k op addr width val _ _ w s t ht htakes hwidth rfl rfl hw hholds
    rw [exec_amo ht htakes hwidth, arrive_waits hw hholds]
  · rintro e k op addr width val _ _ w s t ht htakes hwidth rfl rfl hw hleaves hcredit
    rw [exec_amo ht htakes hwidth, arrive_violates hw hleaves hcredit]
  · rintro e k op addr width val s t ht htakes h4 h8
    simp [exec, execAmo, ← ht, State.wordRequest, htakes, h4, h8]
  · rintro e tag data s t ht htakes hout
    simp only [exec, execCpl, ← ht]
    exact congrArg _ (completed_clears htakes hout (by simp))
  · rintro e tag data s t ht htakes hout
    simp only [exec, execCpl, ← ht]
    exact congrArg _ (completed_not_outstanding htakes hout)
  · rintro e tag data n s t ht htakes hout hlength
    simp only [exec, execCpl, ← ht]
    exact congrArg _ (completed_wrong_length htakes hout (by simpa using hlength.symm))
  · rintro e tag st n s t ht htakes hout hnone
    simp only [exec, execCplSt, ← ht, cplFault_none hnone]
    exact congrArg _ (completed_clears htakes hout rfl)
  · rintro e tag st n s t ht htakes hout hst hlow hhigh hvault
    have hsome : kget (fun _ => 0) (t.half e.half).hatch.outstanding tag ≠ 0 := by omega
    simp only [exec, execCplSt, ← ht, cplFault_hart htakes rfl hsome hst hlow hhigh hvault]
    exact congrArg _ (completed_clears htakes hout rfl)
  · rintro e tag st s t ht htakes hout
    have hsame : t.cplFault e.half tag st = t := by simp [State.cplFault, hout]
    simp only [exec, execCplSt, ← ht, hsame]
    exact congrArg _ (completed_not_outstanding htakes hout)
  · rintro e addr data s t ht htakes hspan hpresent
    simp [exec, execResWr, ← ht, htakes, hspan, hpresent]
  · rintro e addr data s t ht htakes hspan hpresent
    simp [exec, execResWr, ← ht, htakes, hspan, hpresent]
end Sys2Proof.Machine
end

section
/-! Load-reserved, store-conditional and the semaphore bank (R350, R357). -/
set_option Elab.async false
namespace Sys2Proof.Machine

/-! A load-reserved and a store-conditional on their aligned word (R357), `u` the state with the word's entry expired where it is due -/

section
variable {t u : State} {h hart a width : Nat} {k : Pkt} (hu : u = t.upd h fun x => x.expireSem (semIdx a))
include hu

theorem lrRun_takes (hfree : (u.half h).semBusy hart a = none) : t.lrRun h k hart a width = u.takeSem h k hart a width := by
  simp only [State.lrRun, ← hu, hfree]

theorem lrRun_waits {b : Sem} (hbusy : (u.half h).semBusy hart a = some b) (hyoung : u.vtOf h < b.takenVt + 1000) :
    t.lrRun h k hart a width = u.upd h fun x =>
      { x with hatch := { x.hatch with lrWait := x.hatch.lrWait ++ [{ pkt := k, hart := hart, addr := a, width := width }] } } := by
  simp only [State.lrRun, ← hu, hbusy, hyoung.not_ge, if_false]

theorem lrRun_steals {b : Sem} (hbusy : (u.half h).semBusy hart a = some b) (hold : b.takenVt + 1000 ≤ u.vtOf h) :
    t.lrRun h k hart a width = (u.upd h fun x => x.inc F.HTC_SEM_STAT_steals).takeSem h k hart a width := by
  simp only [State.lrRun, ← hu, hbusy, hold, if_true]

variable {val : Nat}

theorem scRun_stores {b : Sem} (hheld : (u.half h).sem (semIdx a) = some b) (hhart : b.hart = hart) (hgranule : b.granule = a / 64) :
    t.scRun h k hart a width val =
      ((u.upd h fun x => x.setSem (semIdx a) none).store h a (leBytes width val)).complete_ h k.tag .ok (leBytes width 0) := by
  simp [State.scRun, ← hu, hheld, hhart, hgranule]

theorem scRun_fails_free (hfree : (u.half h).sem (semIdx a) = none) :
    t.scRun h k hart a width val = u.complete_ h k.tag .ok (leBytes width 1) := by
  simp only [State.scRun, ← hu, hfree]

theorem scRun_fails_other {b : Sem} (hheld : (u.half h).sem (semIdx a) = some b) (hother : b.hart ≠ hart ∨ b.granule ≠ a / 64) :
    t.scRun h k hart a width val = u.complete_ h k.tag .ok (leBytes width 1) := by
  simp only [State.scRun, ← hu, hheld, Bool.and_eq_true, decide_eq_true_eq, not_and_or.mpr hother, if_false]

end

section
variable {e : Ev} {k : Pkt} {hart addr width : Nat} {s t w v c : State} {r : HatchIn} (ht : t = tick e s) (htakes : t.takes e.half false = true)
  (hwidth : width = 4 ∨ width = 8)
  (hw : w = (((t.issued e.half k width).drain e.half).upd (peer e.half) fun x => x.fillBuckets (t.issued e.half k width).now).drainOut e.half)
  (hleaves : w.bridgeHolds e.half r = false) (hcredit : (w.half e.half).creditOk r = true)
  (hv : v = w.upd (peer e.half) fun x => x.payBridge k.mark width) (hadmits : v.admits e.half r = true)
  (haccess : (v.pay e.half 136 k.mark true addr width).access e.half (wordAt addr width) width = .ok)
include ht htakes hwidth hw hleaves hcredit hv hadmits haccess

/-- A load-reserved that is served on an accessible word. -/
theorem exec_loadReserved (hr : r = { type := 4, pkt := k, hart := hart, addr := addr, len := width, op := .swap, data := [], val := 0 })
    (hrun : (v.pay e.half 136 k.mark true addr width).lrRun e.half k hart (wordAt addr width) width = c) :
    exec (.loadReserved e k hart addr width) s = .next c := by
  subst hr
  simp only [exec, execLoadReserved, ← ht]
  refine congrArg _ ((wordRequest_arrives htakes hwidth rfl).trans ((arrive_served hw hleaves hcredit hv hadmits).trans ?_))
  exact (wordRun_accessible haccess fun t a => t.lrRun e.half k hart a width).trans hrun

/-- A store-conditional that is served on an accessible word. -/
theorem exec_storeConditional {val : Nat} (hr : r = { type := 5, pkt := k, hart := hart, addr := addr, len := width, op := .swap, data := [], val := val })
    (hrun : (v.pay e.half 136 k.mark true addr width).scRun e.half k hart (wordAt addr width) width val = c) :
    exec (.storeConditional e k hart addr width val) s = .next c := by
  subst hr
  simp only [exec, execStoreConditional, ← ht]
  refine congrArg _ ((wordRequest_arrives htakes hwidth rfl).trans ((arrive_served hw hleaves hcredit hv hadmits).trans ?_))
  exact (wordRun_accessible haccess fun t a => t.scRun e.half k hart a width val).trans hrun

end

/-- Settles O47: each request that is served runs on its aligned word, where the semaphore entry decides. -/
theorem semaphores : Obligations.Semaphores := by
  refine ⟨?_, ?_, ?_, ?_, ?_, ?_, ?_, ?_⟩
  · rintro e k hart addr width _ r w v u s t ht htakes hwidth rfl hr hw hleaves hcredit hv hadmits haccess hu hfree
    exact exec_loadReserved ht htakes hwidth hw hleaves hcredit hv hadmits haccess hr (lrRun_takes hu hfree)
  · rintro e k hart addr width _ r w v u b s t ht htakes hwidth rfl hr hw hleaves hcredit hv hadmits haccess hu hbusy hyoung
    exact exec_loadReserved ht htakes hwidth hw hleaves hcredit hv hadmits haccess hr (lrRun_waits hu hbusy hyoung)
  · rintro e k hart addr width _ r w v u b s t ht htakes hwidth rfl hr hw hleaves hcredit hv hadmits haccess hu hbusy hold
    exact exec_loadReserved ht htakes hwidth hw hleaves hcredit hv hadmits haccess hr (lrRun_steals hu hbusy hold)
  · rintro e k hart addr width w u b s t ht htakes rfl hwaits rfl hbusy hold
    simp only [exec, execSemaphoreEntrySteal, ← ht, htakes, List.contains_iff_mem.mpr hwaits, Bool.not_true, Bool.or_self, Bool.false_eq_true,
      if_false,
      hbusy, hold, if_true]
  · rintro e k hart addr width val _ r w v u b s t ht htakes hwidth rfl hr hw hleaves hcredit hv hadmits haccess hu hheld hhart hgranule
    exact exec_storeConditional ht htakes hwidth hw hleaves hcredit hv hadmits haccess hr (scRun_stores hu hheld hhart hgranule)
  · rintro e k hart addr width val _ r w v u s t ht htakes hwidth rfl hr hw hleaves hcredit hv hadmits haccess hu hfree
    exact exec_storeConditional ht htakes hwidth hw hleaves hcredit hv hadmits haccess hr (scRun_fails_free hu hfree)
  · rintro e k hart addr width val _ r w v u b s t ht htakes hwidth rfl hr hw hleaves hcredit hv hadmits haccess hu hheld hother
    exact exec_storeConditional ht htakes hwidth hw hleaves hcredit hv hadmits haccess hr (scRun_fails_other hu hheld hother)
  · rintro e idx s t ht hrimUp
    simp [exec, execSemaphoreEntryExpiry, ← ht, hrimUp]
end Sys2Proof.Machine
end

section
/-! Messages in order (R262, R267, R286, R306, R311, R315, R354, R355, R359, R360). -/
set_option Elab.async false
namespace Sys2Proof.Machine

/-! A message of a kind on a link that takes its channel (R354, R359) -/

section
variable {t : State} {h kind : Nat} {x : MsgH} (f : State → State)

theorem message_acts (hseq : x.seq = kget (fun _ => 0) (t.half h).hatch.kindSeq kind) (hver : x.ver = (t.half h).fld F.HTC_LINK_protocol)
    (htakes : t.takes h (decide (0x40 ≤ kind)) = true) : t.message h kind x f = f (t.counted h kind x) := by
  simp only [State.message, htakes, hseq, hver, Bool.not_true, Bool.false_eq_true, ne_eq, not_true, if_false]

theorem message_out_of_sequence (hseq : x.seq ≠ kget (fun _ => 0) (t.half h).hatch.kindSeq kind) (htakes : t.takes h (decide (0x40 ≤ kind)) = true) :
    t.message h kind x f = t.violation h 0x03 (if 0x40 ≤ kind then 0x21 else 0x10) 0 := by
  simp [State.message, htakes, hseq]

theorem message_of_other_protocol (hseq : x.seq = kget (fun _ => 0) (t.half h).hatch.kindSeq kind)
    (hver : x.ver ≠ (t.half h).fld F.HTC_LINK_protocol) (htakes : t.takes h (decide (0x40 ≤ kind)) = true) :
    t.message h kind x f = t.violation h 0x05 (if 0x40 ≤ kind then 0x21 else 0x10) 0 := by
  simp [State.message, htakes, hseq, hver]

end

/-- Settles O48: each message in order by one rule, and a turned-away one by the check that it fails. -/
theorem hatchMessages : Obligations.HatchMessages := by
  refine ⟨?_, ?_, ?_, ?_, ?_, ?_, ?_, ?_, ?_, ?_, ?_, ?_, ?_, ?_⟩
  -- msgInterrupt
  · rintro e x hart ident s _ rfl htakes hseq hver
    exact congrArg _ (message_acts _ hseq hver htakes)
  · rintro e x hart ident s _ rfl htakes hseq
    exact congrArg _ (message_out_of_sequence _ hseq htakes)
  · rintro e x hart ident s _ rfl htakes hseq hver
    exact congrArg _ (message_of_other_protocol _ hseq hver htakes)
  -- msgQueueCompletionIrq
  · rintro e x q s _ rfl htakes hseq hver
    exact congrArg _ (message_acts _ hseq hver htakes)
  -- msgRemoteWatchRequest
  · rintro e x q gen idx addr val s _ rfl htakes hseq hver hclk
    exact congrArg _ ((message_acts _ hseq hver htakes).trans (if_pos hclk))
  -- msgRemoteWatchReply
  · rintro e x q gen idx s _ rfl htakes hseq hver hqHalf
    exact congrArg _ ((message_acts _ hseq hver htakes).trans (if_pos hqHalf))
  -- msgGatewayFrame
  · rintro e x f dst s _ rfl htakes hseq hver hdst hbusHalf
    exact congrArg _ ((message_acts _ hseq hver htakes).trans (if_pos (by simp [hdst, hbusHalf])))
  -- msgControlRelay
  · rintro e x frag s _ rfl htakes hseq hver
    exact congrArg _ (message_acts _ hseq hver htakes)
  -- resMsgResult
  · rintro e x task ch round st s _ rfl htakes hseq hver
    exact congrArg _ (message_acts _ hseq hver htakes)
  -- resMsgVerdict
  · rintro e x task round v s _ rfl htakes hseq hver
    exact congrArg _ (message_acts _ hseq hver htakes)
  -- vtCompare
  · rintro e x peerVt s _ rfl htakes hseq hver
    exact congrArg _ (message_acts _ hseq hver htakes)
  -- resMsgGoingDown
  · rintro e x kind reason vt s _ rfl htakes hseq hver
    exact congrArg _ (message_acts _ hseq hver htakes)
  -- resMsgGatehouseState
  · rintro e x st s _ rfl htakes hseq hver
    exact congrArg _ (message_acts _ hseq hver htakes)
  -- resMsgRepairNotice
  · rintro e x release s _ rfl htakes hseq hver
    exact congrArg _ (message_acts _ hseq hver htakes)
end Sys2Proof.Machine
end

section
/-! Frames of a control port (R377, R379, R380, R381, R389, R393, R398, R399, R444). -/
set_option Elab.async false
namespace Sys2Proof.Machine

/-! A frame on a port that hears its partner (R377, R393, R444) -/

section
variable {t : State} {h p : Nat} {i : Instr} (hdeaf : t.deaf h p = false) (hinsecure : t.insecure h p = false)
include hdeaf hinsecure

theorem receive_served (hsteward : (t.half h).fw.stewardDown = false) : t.receive h p i = t.onFrame h t.now i := by
  simp [State.receive, hdeaf, hinsecure, hsteward]

theorem receive_kept (hsteward : (t.half h).fw.stewardDown = true) (hroom : ((t.half h).ports.rxq.filter fun r => !isTeller r.2).length < 256) :
    t.receive h p i = t.upd h fun x => { x with ports := { x.ports with rxq := x.ports.rxq ++ [(t.now, i)] } } := by
  simp [State.receive, hdeaf, hinsecure, hsteward, hroom]

end

/-! The frame that its session expects next and that names a half served there (R380, R381) -/

section
variable {t : State} {h : Nat} {hd : FrameHdr} {k : Session} (hsession : (t.half h).session hd.partner = some k) (hexpect : k.expect = hd.seq % 2 ^ 32)
  (hport : t.portOf hd.half = h) (hreach : t.relayCut h hd.half = false)
include hsession hexpect hport hreach

theorem inSeq_processed (f : State → State) : t.inSeq h hd f = f (t.touched h hd k) := by
  have hnext : (k.expect + 2 ^ 32 - hd.seq % 2 ^ 32) % 2 ^ 32 = 0 := by omega
  simp only [State.inSeq, hsession, hnext, hport, hreach, ne_eq, not_true, Bool.false_eq_true, if_false, if_true]

theorem onMailbox_queues {arrived : Nat} {msgs : List MsgHead} {q : Session} (hsome : msgs ≠ []) (hmax : msgs.length ≤ 16)
    (hopen : ((t.touched h hd k).half h).session hd.partner = some q) (hroom : q.queued.length + msgs.length ≤ 64) :
    t.onMailbox h arrived hd msgs = ((t.touched h hd k).taken h hd.partner).upd h fun x =>
      x.enqueue hd.partner (msgs.map fun a => ({ fs := hd.seq, since := arrived, half := hd.half, hd := a } : Waiting)) := by
  rw [State.onMailbox, inSeq_processed hsession hexpect hport hreach]
  simp [hsome, hmax.not_gt, hopen, hroom.not_gt]

theorem onRegRead_answers {v off n : Nat} (hallowed : (t.touched h hd k).regRefusal h hd v n = none) :
    t.onRegRead h hd v off n = (t.touched h hd k).takeAnswer h hd 0x0A .ok
      ((List.range n).map fun i => (t.touched h hd k).tellerRead v (off + 8 * i)) := by
  rw [State.onRegRead, inSeq_processed hsession hexpect hport hreach]
  simp only [hallowed]

theorem onRegWrite_writes {v off : Nat} {vals : List Nat} (hallowed : (t.touched h hd k).regRefusal h hd v vals.length = none) :
    t.onRegWrite h hd v off vals =
      ((List.range vals.length).foldl (fun u i => u.tellerWrite v (off + 8 * i) (vals.getD i 0)) (t.touched h hd k)).takeAnswer h hd 0x04 .ok [] := by
  rw [State.onRegWrite, inSeq_processed hsession hexpect hport hreach]
  simp only [hallowed]

theorem onDataWrite_stages {off : Nat} {data : List Byte} (hallowed : stagingRefusal off data.length = none) :
    t.onDataWrite h hd off data =
      ((t.touched h hd k).upd h fun x => x.stageData hd.partner off data).takeAnswer h hd 0x04 .ok [] := by
  rw [State.onDataWrite, inSeq_processed hsession hexpect hport hreach]
  simp only [hallowed]

theorem onDataRead_answers {off n : Nat} (hallowed : stagingRefusal off n = none) :
    t.onDataRead h hd off n =
      (t.touched h hd k).takeAnswer h hd 0x0D .ok (((t.touched h hd k).half h).stagedData hd.partner off n) := by
  rw [State.onDataRead, inSeq_processed hsession hexpect hport hreach]
  simp only [hallowed]

theorem onRing_takes {index : Nat} {slots : List Nat} {u : State} {r : Ring} (hsome : slots ≠ []) (hmax : slots.length ≤ 15)
    (hu : u = t.touched h hd k) (hr : r = ((u.half hd.half).ring 0).request index slots) :
    t.onRing h hd index slots = (u.upd hd.half fun x => x.setRing 0 (r.setRepHead (r.repHead + (r.unread 15).length))).takeAnswer h hd 0x0E .ok
      (r.repHead :: (r.unread 15).length :: r.unread 15) := by
  rw [State.onRing, inSeq_processed hsession hexpect hport hreach]
  simp only [hsome, hmax.not_gt, if_false, ← hu, ← hr]

end

/-- An extent of 1 to 1,016 bytes within the 128 KiB of a session's staging is allowed (R389). -/
theorem stagingRefusal_none {off n : Nat} (hsome : 1 ≤ n) (hmax : n ≤ 1016) (hend : off + n ≤ 0x20000) : stagingRefusal off n = none := by
  have hin : ¬stagingSize < off + n := hend.not_gt
  simp only [stagingRefusal, Nat.pos_iff_ne_zero.mp hsome, hmax.not_gt, hin, if_false]

/-- HELLO with sequence 0 opens or resets a session while there is room (R379). -/
theorem onHello_opens {t : State} {h p pid : Nat} (hroom : (t.half h).session p ≠ none ∨ (t.half h).ports.sessions.length < 8) :
    t.onHello h p 0 pid = ((t.orphan h p).upd h fun x => (x.setSession p (some
      { pid := pid, expect := 1, devSeq := 0, answers := [], queued := [], replies := [], lastVt := t.now, staging := [] })).syncSessions).answer h p 0 0x04
        .ok false [] := by
  have hnot : ((t.half h).session p).isNone = true → (t.half h).ports.sessions.length < 8 := by
    rcases hroom with hopen | hfew
    · simp [hopen]
    · exact fun _ => hfew
  simp only [State.onHello, ne_eq, not_true, if_false]
  rw [if_neg]
  simpa using hnot

/-- Settles O49: each frame on a port that hears its partner is kept or served, and in its session's order by its own rule. -/
theorem frames : Obligations.Frames := by
  refine ⟨?_, ?_, ?_, ?_, ?_, ?_, ?_, ?_, ?_, ?_, ?_, ?_, ?_, ?_⟩
  -- hello
  · rintro e partner seq pid s _ rfl hdeaf hinsecure hsteward rfl hroom
    exact congrArg _ ((receive_served (i := .hello e partner 0 pid) hdeaf hinsecure hsteward).trans (onHello_opens hroom))
  · rintro e partner seq pid s _ rfl hdeaf hinsecure hsteward hroom
    exact congrArg _ (receive_kept hdeaf hinsecure hsteward hroom)
  -- mailbox
  · rintro e hd msgs k q s _ rfl hdeaf hinsecure hsteward hsession hexpect hport hreach hsome hmax hopen hroom
    exact congrArg _ ((receive_served (i := .mailbox e hd msgs) hdeaf hinsecure hsteward).trans
      (onMailbox_queues hsession hexpect hport hreach hsome hmax hopen hroom))
  · rintro e hd msgs s _ rfl hdeaf hinsecure hsteward hroom
    exact congrArg _ (receive_kept hdeaf hinsecure hsteward hroom)
  -- regRead
  · rintro e hd vdi off count k s _ rfl hdeaf hinsecure hsteward hsession hexpect hport hreach hallowed
    exact congrArg _ ((receive_served (i := .regRead e hd vdi off count) hdeaf hinsecure hsteward).trans
      (onRegRead_answers hsession hexpect hport hreach hallowed))
  · rintro e hd vdi off count s _ rfl hdeaf hinsecure hsteward hroom
    exact congrArg _ (receive_kept hdeaf hinsecure hsteward hroom)
  -- regWrite
  · rintro e hd vdi off vals k s _ rfl hdeaf hinsecure hsteward hsession hexpect hport hreach hallowed
    exact congrArg _ ((receive_served (i := .regWrite e hd vdi off vals) hdeaf hinsecure hsteward).trans
      (onRegWrite_writes hsession hexpect hport hreach hallowed))
  · rintro e hd vdi off vals s _ rfl hdeaf hinsecure hsteward hroom
    exact congrArg _ (receive_kept hdeaf hinsecure hsteward hroom)
  -- dataWrite
  · rintro e hd off data k s _ rfl hdeaf hinsecure hsteward hsession hexpect hport hreach hsome hmax hend
    exact congrArg _ ((receive_served (i := .dataWrite e hd off data) hdeaf hinsecure hsteward).trans
      (onDataWrite_stages hsession hexpect hport hreach (stagingRefusal_none hsome hmax hend)))
  · rintro e hd off data s _ rfl hdeaf hinsecure hsteward hroom
    exact congrArg _ (receive_kept hdeaf hinsecure hsteward hroom)
  -- dataRead
  · rintro e hd off len k s _ rfl hdeaf hinsecure hsteward hsession hexpect hport hreach hsome hmax hend
    exact congrArg _ ((receive_served (i := .dataRead e hd off len) hdeaf hinsecure hsteward).trans
      (onDataRead_answers hsession hexpect hport hreach (stagingRefusal_none hsome hmax hend)))
  · rintro e hd off len s _ rfl hdeaf hinsecure hsteward hroom
    exact congrArg _ (receive_kept hdeaf hinsecure hsteward hroom)
  -- ringFrame
  · rintro e hd index slots k u r s _ rfl hdeaf hinsecure hsteward hsession hexpect hport hreach hsome hmax hu hr
    exact congrArg _ ((receive_served (i := .ringFrame e hd index slots) hdeaf hinsecure hsteward).trans
      (onRing_takes hsession hexpect hport hreach hsome hmax hu hr))
  · rintro e hd index slots s _ rfl hdeaf hinsecure hsteward hroom
    exact congrArg _ (receive_kept hdeaf hinsecure hsteward hroom)
end Sys2Proof.Machine
end

section
/-! Malformed frames, timeouts, heartbeats and retirement (R303, R309, R376, R377, R378, R380, R382, R383, R386). -/
set_option Elab.async false
namespace Sys2Proof.Machine
/-- Settles O50: each event by its command's meaning on the port. -/
theorem portEvents : Obligations.PortEvents := by
  refine ⟨?_, ?_, ?_, ?_, ?_, ?_, ?_, ?_, ?_, ?_, ?_, ?_⟩
  · rintro e partner kind l s t ht hdeaf hinsecure hl hfew
    simp [exec, execMalformedFrame, ← ht, hdeaf, hinsecure, ← hl, hfew]
  · rintro e partner kind s t ht hdeaf hinsecure hmany
    rw [← not_lt] at hmany
    simp only [exec, execMalformedFrame, ← ht, hdeaf, hinsecure, hmany, Bool.false_eq_true, if_false]
  · rintro e partner kind s t ht hdeaf hinsecure
    simp [exec, execMalformedFrame, ← ht, hdeaf, hinsecure]
  · rintro e partner n s t ht hblocked hn
    simp [exec, execMalformedBlockExpiry, ← ht, hblocked, hn.not_gt]
  · rintro e partner k s t ht hsession hlastVt
    simp [exec, execSessionIdleTimeout, ← ht, hsession, hlastVt.not_gt]
  · rintro e n s t ht hportUp hlatchLive hsessions rfl
    simp [exec, execHeartbeat, ← ht, hportUp, hlatchLive, hsessions]
  · rintro e n s t ht hportUp rfl hlatchLive hsessions
    simp [exec, execHeartbeat, ← ht, hportUp, hlatchLive, hsessions]
  · rintro e n s t ht hportUp rfl hlatchLive hsessions
    simp [exec, execHeartbeat, ← ht, hportUp, hlatchLive, hsessions]
  · rintro e p s t ht hholder hlatchLive
    simp [exec, execLatchLeaseExpiry, ← ht, State.endLease, hholder, hlatchLive]
  · rintro e ms s t ht hportUp hlong
    simp [exec, execControlPortLinkLoss, ← ht, hportUp, hlong.not_ge]
  · rintro e selfTestFail s t ht hportUp (rfl | hlosses)
    · simp [exec, execControlPortRetire, ← ht, hportUp]
    · simp [exec, execControlPortRetire, ← ht, hportUp, hlosses]
  · rintro e partner ok s t ht hportUp hstate rfl
    simp [exec, execMkaFrame, ← ht, hportUp, hstate]
end Sys2Proof.Machine
end

section
/-! The steward, Teller pages, service rings, peers and register writes (R10, R219, R231, R393, R394, R395, R396, R397, R400, R402, R444, R445). -/
set_option Elab.async false
namespace Sys2Proof.Machine

/-- A Teller access of a VDI reaches a half whose steward runs as it is (R393). -/
theorem tellerAccess_served {t : State} {v : Nat} {i : Instr} (hexists : (t.vdi v).exists_ = true) (hrim : (t.half (t.hostOf v)).clk.rimUp = true)
    (hsteward : (t.half (t.hostOf v)).fw.stewardDown = false) : t.tellerAccess v i = t.onFrame (t.hostOf v) t.now i := by
  simp [State.tellerAccess, hexists, hrim, hsteward]

/-- Settles O51: each row by its command's meaning; a register write by its register's class and its master. -/
theorem stewardTellerPeers : Obligations.StewardTellerPeers := by
  refine ⟨?_, ?_, ?_, ?_, ?_, ?_, ?_, ?_, ?_, ?_, ?_, ?_, ?_, ?_, ?_, ?_, ?_, ?_, ?_, ?_, ?_, ?_⟩
  · rintro e l s t ht hrimUp hstewardDown hl hfew
    simp [exec, execStewardWatchdog, ← ht, hrimUp, hstewardDown, ← hl, hfew.not_ge]
  · rintro e s t ht hrimUp hstewardDown hthree
    simp only [exec, execStewardWatchdog, ← ht, hrimUp, hstewardDown, Bool.not_true, Bool.or_self, Bool.false_eq_true, if_false, hthree, decide_true,
      if_true]
  · rintro e s t ht hrimUp hstewardDown
    simp [exec, execStewardRestartDone, ← ht, hrimUp, hstewardDown]
  · rintro e vdi s t ht hexists hrimUp hstewardDown
    simp only [exec, execTelMbxGo, ← ht, tellerAccess_served hexists hrimUp hstewardDown, State.onFrame]
  · rintro e vdi w s t ht htellerReply hserves hirqEn
    simp [exec, execTellerMailboxReply, ← ht, htellerReply, hserves, hirqEn]
  · rintro e vdi w s t ht htellerReply hserves hirqEn
    simp [exec, execTellerMailboxReply, ← ht, htellerReply, hserves, hirqEn]
  · rintro e pair tail s t ht hrimUp hpair hahead
    simp only [exec, execReqTailWrite, ← ht, hrimUp, hpair.not_ge, hahead.not_gt, Bool.not_true, decide_false, Bool.or_self, Bool.false_eq_true,
      if_false]
  · rintro e pair head s t ht hrimUp hpair
    simp [exec, execRepHeadWrite, ← ht, hrimUp, hpair.not_ge]
  · rintro e src q gen idx addr val rpeer s t ht hrimUp hpeerListed hwatchable
    simp [exec, execPeerWatch, ← ht, hrimUp, hpeerListed, hwatchable]
  · rintro e src q gen idx addr val rpeer s t ht hrimUp hpeerListed hwatchable
    simp [exec, execPeerWatch, ← ht, hrimUp, hpeerListed, hwatchable]
  · rintro e src q gen idx addr val rpeer s t ht hrimUp hpeerListed
    simp [exec, execPeerWatch, ← ht, hrimUp, hpeerListed]
  · rintro e src q gen idx s t ht hrimUp hpeerListed
    simp [exec, execPeerReply, ← ht, hrimUp, hpeerListed]
  · rintro e src q gen idx s t ht hrimUp hpeerListed
    simp [exec, execPeerReply, ← ht, hrimUp, hpeerListed]
  · rintro e port l s t ht hrimUp hl hlist hdue
    simp [exec, execQbvListSwap, ← ht, hrimUp, ← hl, hlist, hdue.not_gt, -List.getD_eq_getElem?_getD]
  · rintro e who reg unit index word val s t ht hrimUp rfl rfl
    simp [exec, execRegisterWrite, ← ht, hrimUp, isTellerReg, streamRegs]
  · rintro e who reg unit index word val s t ht hrimUp rfl rfl
    simp [exec, execRegisterWrite, ← ht, hrimUp, isTellerReg, streamRegs]
  · rintro e who reg unit index word val n src s t ht hrimUp rfl rfl hgTWCTL
    simp [exec, execRegisterWrite, ← ht, hrimUp, isTellerReg, hgTWCTL]
  · rintro e who reg unit index word val s t ht hrimUp rfl
    simp [exec, execRegisterWrite, ← ht, hrimUp, isTellerReg]
  · rintro e who reg unit index word val s t ht hrimUp (rfl | rfl) rfl
    · simp [exec, execRegisterWrite, ← ht, hrimUp, isTellerReg]
    · simp [exec, execRegisterWrite, ← ht, hrimUp, isTellerReg]
  · rintro e who reg unit index word val s t ht hrimUp rfl
    simp [exec, execRegisterWrite, ← ht, hrimUp, isTellerReg]
  · rintro e who reg unit index word val s t ht hrimUp rfl hqueueUp hqState
    simp [exec, execRegisterWrite, ← ht, hrimUp, isTellerReg, hqueueUp, hqState]
  · rintro e who reg unit index word val s t ht hrimUp rfl hval
    simp [exec, execRegisterWrite, ← ht, hrimUp, isTellerReg, hval]
end Sys2Proof.Machine
end

section
/-! The Latch and the reading opcodes (R385, R386, R390, R391, R392, R525, R244). -/
set_option Elab.async false
namespace Sys2Proof.Machine
/-- Settles O52: each message by the rule for its body, the reads by what their destination takes. -/
theorem latchAndReads : Obligations.LatchAndReads := by
  refine ⟨?_, ?_, ?_, ?_, ?_, ?_, ?_, ?_, ?_, ?_, ?_, ?_, ?_, ?_⟩
  -- latchTake
  · rintro e m pid s _ u rfl hu haccepts hholder
    exact next_mbox_replies hu haccepts (by simp [hholder])
  · rintro e m pid p s _ u rfl hu haccepts hholder
    exact next_mbox_replies hu haccepts (by simp [hholder])
  -- latchRenew
  · rintro e m s _ u rfl hu haccepts harrival
    exact next_mbox_replies hu haccepts (by simp [harrival.not_ge])
  · rintro e m s _ u rfl hu haccepts hexpires
    exact next_mbox_replies hu haccepts (by simp [hexpires])
  -- latchRelease
  · rintro e m s _ u rfl hu haccepts
    exact next_mbox_replies hu haccepts (by simp)
  -- latchQuery
  · rintro e m p s _ u rfl hu haccepts hlatchLive hholder
    exact next_mbox_replies hu haccepts (by simp [hlatchLive, hholder])
  · rintro e m s _ u rfl hu haccepts hlatchLive
    exact next_mbox_replies hu haccepts (by simp [hlatchLive])
  -- devInfo
  · rintro e m s _ u rfl hu haccepts
    exact next_mbox_replies hu haccepts (by simp)
  -- statsRead
  · rintro e m block clear unit reg index count w l s _ u rfl hu haccepts hcount hmax hstatsWords hw
    exact next_mbox_replies hu haccepts (by simp [hcount, hmax.not_gt, hstatsWords, ← hw])
  · rintro e m block clear unit reg index count s _ u rfl hu haccepts rfl
    exact next_mbox_replies hu haccepts (by simp)
  · rintro e m block clear unit reg index count s _ u rfl hu haccepts hcount hbad
    refine next_mbox_replies hu haccepts ?_
    by_cases hmany : 6 < count
    · simp [hcount, hmany]
    · simp [hcount, hmany, hbad.resolve_left hmany]
  -- incidentRead
  · rintro e m first count dst l w s _ u rfl hu haccepts hcount hmax rfl hroom hbytes
    refine next_mbox_replies hu haccepts ?_
    simp only [hcount, hmax.not_gt, hroom, reduceCtorEq, decide_false, Bool.or_self, Bool.false_eq_true, if_false]
    exact withDst_written hbytes _
  -- accountRead
  · rintro e m ctx dst n w s _ u rfl hu haccepts howns rfl hraw
    refine next_mbox_replies hu haccepts ?_
    simp only [howns, Bool.not_true, Bool.false_eq_true, if_false]
    exact withDst_written hraw _
  · rintro e m ctx dst s _ u rfl hu haccepts hownsCtx
    exact next_mbox_replies hu haccepts (by simp [hownsCtx])
end Sys2Proof.Machine
end

section
/-! Window, partition and Tally configuration that is accepted (R112, R219, R222, R223, R255, R391). -/
set_option Elab.async false
namespace Sys2Proof.Machine

/-! The checks of a partition's configuration (R219) -/

section
variable {u : State} {h part cfg cores : Nat} (hmin : 5 ≤ bits cfg 2 8) (hmax : bits cfg 2 8 ≤ 200) (hidle : u.partBusy h part = false)
include hmin hmax hidle

theorem partBad_critical (hpart : part = 0) : u.partBad h part cfg cores = false := by
  subst hpart
  simp [State.partBad, hmin, hmax, hidle]

theorem partBad_legal (hlow : 1 ≤ part) (hhigh : part < 16) (hkind : bits cfg 0 2 = 0 ∨ bits cfg 0 2 = 2 ∨
    (bits cfg 0 2 = 3 ∧ bits cfg 16 16 ≠ 0 ∧ (u.half h).graphicsClash part cores = false)) : u.partBad h part cfg cores = false := by
  have hother : part ≠ 0 := Nat.pos_iff_ne_zero.mp hlow
  rcases hkind with hoff | hqueue | ⟨hgraphics, hmode, hclash⟩
  · simp [State.partBad, hmin, hmax, hidle, hhigh, hother, hoff]
  · simp [State.partBad, hmin, hmax, hidle, hhigh, hother, hqueue]
  · simp [State.partBad, hmin, hmax, hidle, hhigh, hother, hgraphics, hmode, hclash]

end

theorem partBad_illegal {u : State} {h part cfg cores : Nat}
    (hbad : 16 ≤ part ∨ (part ≠ 0 ∧ bits cfg 0 2 = 1) ∨ bits cfg 2 8 < 5 ∨ 200 < bits cfg 2 8 ∨ u.partBusy h part = true) :
    u.partBad h part cfg cores = true := by
  rcases hbad with hpart | ⟨hother, hkind⟩ | hmin | hmax | hbusy
  · simp [State.partBad, hpart]
  · simp [State.partBad, hother, hkind]
  · simp [State.partBad, hmin]
  · simp [State.partBad, hmax]
  · simp [State.partBad, hbusy]

/-- Settles O53: each message by the rule for its body, a partition by the rules for its checks. -/
theorem windowMessages : Obligations.WindowMessages := by
  refine ⟨?_, ?_, ?_, ?_, ?_, ?_, ?_, ?_, ?_, ?_, ?_, ?_, ?_, ?_, ?_, ?_, ?_, ?_, ?_, ?_⟩
  -- winWrite
  · rintro e m first count src l s _ u rfl hu haccepts hcount hmax hfirst hsrcBytes
    exact next_mbox_replies hu haccepts (by simp [hcount, hmax.not_gt, hfirst.not_gt, withSrc_read hsrcBytes])
  · rintro e m first count src s _ u rfl hu haccepts hcount hbad
    exact next_mbox_replies hu haccepts (by simp [hcount, hbad])
  -- winActivate
  · rintro e m vt standby s _ u rfl hu haccepts hcheckBank hcheckTasks hcheckImages rfl
    exact next_mbox_replies hu haccepts (by simp [hcheckBank, hcheckTasks, hcheckImages])
  · rintro e m vt standby s _ u rfl hu haccepts hcheckBank hcheckTasks hcheckImages rfl hdegraded
    exact next_mbox_replies hu haccepts (by simp [hcheckBank, hcheckTasks, hcheckImages, hdegraded])
  · rintro e m vt standby s _ u rfl hu haccepts hcheckBank hcheckTasks hcheckImages rfl hdegraded hnoStandby
    exact next_mbox_replies hu haccepts (by simp [hcheckBank, hcheckTasks, hcheckImages, hdegraded, hnoStandby])
  · rintro e m vt standby st i s _ u rfl hu haccepts hcheckBank
    exact next_mbox_replies hu haccepts (by simp [hcheckBank])
  · rintro e m vt standby st s _ u rfl hu haccepts hcheckBank
    exact next_mbox_replies hu haccepts (by simp [hcheckBank])
  -- winFrame
  · rintro e m length phase s _ u rfl hu haccepts hmin hmax
    have hsome : length ≠ 0 := by omega
    exact next_mboxL_stores hu haccepts (by simp [hsome, hmin.not_gt, hmax.not_gt])
  · rintro e m length phase s _ u rfl hu haccepts hsome hbad
    exact next_mboxL_refuses hu haccepts (by simp [hsome, hbad]) (by decide)
  · rintro e m length phase s _ u rfl hu haccepts rfl
    exact next_mboxL_refuses hu haccepts (by simp) (by decide)
  -- partWrite
  · rintro e m part cfg cores s _ u rfl hu haccepts hlow hhigh hkind hmin hmax hidle
    have hother : part ≠ 0 := Nat.pos_iff_ne_zero.mp hlow
    exact next_mboxL_stores hu haccepts (by simp [partBad_legal hmin hmax hidle hlow hhigh hkind, hother])
  · rintro e m part cfg cores s _ u rfl hu haccepts rfl hmin hmax hidle
    exact next_mboxL_stores hu haccepts (by simp [partBad_critical hmin hmax hidle])
  · rintro e m part cfg cores s _ u rfl hu haccepts hbad
    exact next_mboxL_refuses hu haccepts (by simp [partBad_illegal hbad]) (by decide)
  -- taskWrite
  · rintro e m task src l s _ u rfl hu haccepts htask hsrcBytes
    exact next_mboxL_stores hu haccepts (by simp [htask.not_ge, withSrc_read hsrcBytes])
  · rintro e m task src s _ u rfl hu haccepts hbeyond
    exact next_mboxL_refuses hu haccepts (by simp [hbeyond]) (by decide)
  -- tlyCfg
  · rintro e m base staging audit enable s _ u rfl hu haccepts hbase hstaging hend hmin hmax
    exact next_mboxL_stores hu haccepts (by simp [hbase, hstaging, hend.not_gt, Nat.pos_iff_ne_zero.mp hmin, hmax.not_gt])
  · rintro e m base staging audit enable s _ u rfl hu haccepts hbad
    exact next_mboxL_refuses hu haccepts (if_pos (by simpa [or_assoc] using hbad)) (by decide)
  -- winEnableSet
  · rintro e m vt s _ u rfl hu haccepts hahead
    exact next_mboxL_stores hu haccepts (by simp [hahead.not_gt])
  · rintro e m vt s _ u rfl hu haccepts hvt
    exact next_mboxL_refuses hu haccepts (by simp [hvt]) (by decide)
  -- winEnableClear
  · rintro e m s _ u rfl hu haccepts
    exact next_mboxL_stores hu haccepts (by simp)
end Sys2Proof.Machine
end

section
/-! VDIs, contexts and queues by message (R235, R405, R408, R412, R413, R414, R415). -/
set_option Elab.async false
namespace Sys2Proof.Machine

/-- The check of a new VDI answers a refusal or nothing, never OK. -/
theorem createCheck_refuses {u : State} {h vdi profile mark cfg : Nat} {st : Status} (hcheck : u.createCheck h vdi profile mark cfg = some st) :
    st ≠ .ok := by
  rintro rfl
  simp only [State.createCheck] at hcheck
  split_ifs at hcheck <;> simp at hcheck

/-! A queue's change of state for its owner (R235) -/

section
variable {u : State} {h q : Nat} {m : Msg} {disable : Bool} {ok : Nat → Bool} {f : State → State} (howns : (u.vdi m.vdi).ownsQueue q = true)
include howns

theorem queueState_other_half (hother : qHalf q ≠ h) :
    u.queueState h m q disable ok f = (u, some (.badArg, (u.half (qHalf q)).qGen (qIdx q))) := by
  simp [State.queueState, howns, hother]

variable (hhere : qHalf q = h)
include hhere

theorem queueState_not_allowed (hno : ok ((u.half h).qState (qIdx q)) = false) :
    u.queueState h m q disable ok f = (u, some (.badArg, (u.half h).qGen (qIdx q))) := by
  simp [State.queueState, howns, hhere, hno]

theorem queueState_begins (hyes : ok ((u.half h).qState (qIdx q)) = true)
    (hvdi : disable = true ∨ (u.half h).fld F.TEL_STATE_state m.vdi ≠ 2 ∧ (u.half h).fld F.TEL_STATE_state m.vdi ≠ 3) :
    u.queueState h m q disable ok f = ((f u).underWay h { msg := m, op := 0x86, kind := .queue, id := q }, none) := by
  rcases hvdi with hdisable | ⟨hreset, hmigrating⟩
  · simp [State.queueState, howns, hhere, hyes, hdisable]
  · simp [State.queueState, howns, hhere, hyes, hreset, hmigrating]

end

/-- Settles O54: each message by the rule for its body, a queue's change by the rules for its state. -/
theorem vdiMessages : Obligations.VdiMessages := by
  refine ⟨?_, ?_, ?_, ?_, ?_, ?_, ?_, ?_, ?_, ?_, ?_, ?_, ?_, ?_, ?_, ?_, ?_, ?_, ?_, ?_, ?_, ?_, ?_⟩
  -- vdiCreate
  · rintro e m vdi profile mark src l s _ u rfl hu haccepts hsrcBytes hcreateCheck
    exact next_mboxL_stores hu haccepts (by simp [withSrc_read hsrcBytes, hcreateCheck])
  · rintro e m vdi profile mark src l st s _ u rfl hu haccepts hsrcBytes hcreateCheck
    exact next_mboxL_refuses hu haccepts (by simp [withSrc_read hsrcBytes, hcreateCheck]) (createCheck_refuses hcreateCheck)
  -- vdiReset
  · rintro e m s _ u rfl hu haccepts hvdi hstate hnotMigrating hunnamed
    exact next_mboxW_later hu haccepts (by simp [hvdi, hstate, hnotMigrating, hunnamed, State.leaveVdi])
  · rintro e m s _ u rfl hu haccepts (hother | hnamed)
    · exact next_mboxW_replies hu haccepts (by simp [hother])
    · exact next_mboxW_replies hu haccepts (by simp [hnamed])
  -- vdiRemove
  · rintro e m vdi s _ u rfl hu haccepts hexists hhostOf hstate hnotMigrating hvdiNamed hboundVault
    exact next_mboxW_later hu haccepts (by simp [hexists, hhostOf, hstate, hnotMigrating, hvdiNamed, hboundVault, State.leaveVdi])
  · rintro e m vdi s _ u rfl hu haccepts hexists
    exact next_mboxW_replies hu haccepts (by simp [hexists])
  -- ctxWrite
  · rintro e m ctx src l set s _ u rfl hu haccepts hownsCtx hsrcBytes hcVdi hcWeight hcMark hvdi haccess hset hchecked
    exact next_mbox_replies hu haccepts (by
      simp [hownsCtx, withSrc_read hsrcBytes, hcVdi, hcWeight, hcMark, hvdi, haccess, ← hset, hchecked])
  · rintro e m ctx src s _ u rfl hu haccepts hownsCtx
    exact next_mbox_replies hu haccepts (by simp [hownsCtx])
  · rintro e m ctx src l s _ u rfl hu haccepts hownsCtx hsrcBytes hcVdi hcWeight
    exact next_mbox_replies hu haccepts (by simp [hownsCtx, withSrc_read hsrcBytes, hcVdi, hcWeight])
  -- queueWrite
  · rintro e m q src l r s _ u rfl hu haccepts hownsQueue hqHalf hqState hsrcBytes hr hvdi
    exact next_mbox_replies hu haccepts (by simp [hownsQueue, hqHalf, hqState, withSrc_read hsrcBytes, ← hr, hvdi])
  · rintro e m q src s _ u rfl hu haccepts hownsQueue
    exact next_mbox_replies hu haccepts (by simp [hownsQueue])
  · rintro e m q src s _ u rfl hu haccepts hownsQueue hqHalf
    exact next_mbox_replies hu haccepts (by simp [hownsQueue, hqHalf])
  -- queueEnable
  · rintro e m q s _ u rfl hu haccepts hreset hmigrating howns hhere hstate hrecord
    exact next_mboxW_later hu haccepts (queueState_begins howns hhere (by simp [hstate, hrecord]) (.inr ⟨hreset, hmigrating⟩))
  · rintro e m q s _ u rfl hu haccepts howns hhere hstate
    exact next_mboxW_replies hu haccepts (queueState_not_allowed howns hhere (by simp [hstate]))
  · rintro e m q s _ u rfl hu haccepts howns hother
    exact next_mboxW_replies hu haccepts (queueState_other_half howns hother)
  -- queueSuspend
  · rintro e m q s _ u rfl hu haccepts hreset hmigrating howns hhere hlow hhigh
    have hstate : (u.half e.half).qState (qIdx q) = 1 ∨ (u.half e.half).qState (qIdx q) = 2 ∨ (u.half e.half).qState (qIdx q) = 3 := by omega
    exact next_mboxW_later hu haccepts (queueState_begins howns hhere (by simpa [or_assoc] using hstate) (.inr ⟨hreset, hmigrating⟩))
  · rintro e m q s _ u rfl hu haccepts howns hhere hstate
    refine next_mboxW_replies hu haccepts (queueState_not_allowed howns hhere ?_)
    simp only [Bool.or_eq_false_iff, decide_eq_false_iff_not]
    omega
  · rintro e m q s _ u rfl hu haccepts howns hother
    exact next_mboxW_replies hu haccepts (queueState_other_half howns hother)
  -- queueResume
  · rintro e m q s _ u rfl hu haccepts hreset hmigrating howns hhere hstate
    exact next_mboxW_later hu haccepts (queueState_begins howns hhere (by simp [hstate]) (.inr ⟨hreset, hmigrating⟩))
  · rintro e m q s _ u rfl hu haccepts howns hhere hstate
    exact next_mboxW_replies hu haccepts (queueState_not_allowed howns hhere (by simp [hstate]))
  · rintro e m q s _ u rfl hu haccepts howns hother
    exact next_mboxW_replies hu haccepts (queueState_other_half howns hother)
  -- queueDisable
  · rintro e m q s _ u rfl hu haccepts howns hhere hstate
    exact next_mboxW_later hu haccepts (queueState_begins howns hhere (by simp [hstate]) (.inl rfl))
  · rintro e m q s _ u rfl hu haccepts howns hother
    exact next_mboxW_replies hu haccepts (queueState_other_half howns hother)
end Sys2Proof.Machine
end

section
/-! Migration phases in their order (R416, R417, R418, R419). -/
set_option Elab.async false
namespace Sys2Proof.Machine
/-- Settles O55: each step by the rule for its body, whose place in the order `State.stepOk` judges. -/
theorem migration : Obligations.Migration := by
  refine ⟨?_, ?_, ?_, ?_, ?_, ?_, ?_, ?_, ?_, ?_, ?_, ?_, ?_, ?_, ?_, ?_⟩
  -- logStart
  · rintro e m vdi src l a b s _ u rfl hu haccepts hstepOk hstate hread rfl rfl hreachA hreachB houtA houtB
    refine next_mbox_replies hu haccepts ?_
    simp only [hstepOk, hstate, withSrc_read hread, hreachA, hreachB, houtA, houtB, Bool.not_true, ne_eq, not_true, decide_false, Bool.or_self,
      Bool.false_eq_true, if_false]
  -- logSwap
  · rintro e m vdi s _ u rfl hu haccepts hstepOk
    exact next_mbox_replies hu haccepts (by simp [hstepOk])
  · rintro e m vdi s _ u rfl hu haccepts hstepOk
    exact next_mbox_replies hu haccepts (by simp [hstepOk])
  -- quiesce
  · rintro e m vdi s _ u rfl hu haccepts hstepOk
    exact next_mboxW_later hu haccepts (by simp [hstepOk])
  · rintro e m vdi s _ u rfl hu haccepts hstepOk
    exact next_mboxW_replies hu haccepts (by simp [hstepOk])
  -- exportImage
  · rintro e m vdi src l a s _ u rfl hu haccepts hstepOk hread rfl hfits himage haccess
    refine next_mbox_replies hu haccepts ?_
    simp only [hstepOk, withSrc_read hread, hfits.not_gt, himage, haccess, Bool.not_true, Bool.false_eq_true, if_false]
  · rintro e m vdi src l s _ u rfl hu haccepts hstepOk hread hsmall
    refine next_mbox_replies hu haccepts ?_
    simp only [hstepOk, withSrc_read hread, hsmall, Bool.not_true, Bool.false_eq_true, if_false, if_true]
  · rintro e m vdi src l g st s _ u rfl hu haccepts hstepOk hread hfits himage hst
    refine next_mbox_replies hu haccepts ?_
    simp only [hstepOk, withSrc_read hread, hfits.not_gt, himage, hst, Bool.not_true, Bool.false_eq_true, if_false]
  · rintro e m vdi src s _ u rfl hu haccepts hstepOk
    exact next_mbox_replies hu haccepts (by simp [hstepOk])
  -- importImage
  · rintro e m vdi src l a n w s _ u rfl hu haccepts hvdi hexists hcompute hread rfl rfl hheader haccess himport
    refine next_mboxL_stores hu haccepts ?_
    simp only [hvdi.not_gt, hexists, hcompute, withSrc_read hread, hheader, haccess, himport, decide_false, Bool.not_true, Bool.or_self,
      Bool.false_eq_true, if_false]
  -- resumeVdi
  · rintro e m vdi s _ u rfl hu haccepts hstepOk
    exact next_mbox_replies hu haccepts (by simp [hstepOk])
  · rintro e m vdi s _ u rfl hu haccepts hstepOk
    exact next_mbox_replies hu haccepts (by simp [hstepOk])
  -- abortMigration
  · rintro e m vdi s _ u rfl hu haccepts hexists hhalf hmigStep hnotTarget
    exact next_mboxW_replies hu haccepts (by simp [hexists, hhalf, hmigStep, hnotTarget])
  · rintro e m vdi s _ u rfl hu haccepts hexists hhalf hmigStep
    exact next_mboxW_later hu haccepts (by simp [hexists, hhalf, hmigStep, State.leaveVdi])
  -- releaseVdi
  · rintro e m vdi s _ u rfl hu haccepts hstepOk
    exact next_mboxW_later hu haccepts (by simp [hstepOk, State.leaveVdi])
  · rintro e m vdi s _ u rfl hu haccepts hstepOk
    exact next_mboxW_replies hu haccepts (by simp [hstepOk])
end Sys2Proof.Machine
end

section
/-! Service, restart and power messages (R300, R302, R309, R314, R390, R486, R499, R500). -/
set_option Elab.async false
namespace Sys2Proof.Machine

/-! The restart of a half at `kind` H or M (R314) -/

theorem restartHalf_restarts {u : State} {h half kind : Nat} {m : Msg} (hhalf : half < 2) (hnormal : (u.half (peer half)).normal = true) :
    u.restartHalf h m half kind =
      (((u.reply h m 0x93 .ok 0).upd half fun x => { x with clk := { x.clk with latched := false } }).resetHalf half kind 0x01 true, none) := by
  simp [State.restartHalf, hhalf.not_ge, hnormal]

theorem restartHalf_refuses {u : State} {h half kind : Nat} {m : Msg} (hbad : 2 ≤ half ∨ (u.half (peer half)).normal = false) :
    u.restartHalf h m half kind = (u, some (.badArg, 0)) := by
  simp [State.restartHalf, hbad]

/-! A request of PARK or SLEEP, whose `kind` is the power state (R499, R500) -/

theorem stopRequest_there {u : State} {kind : Nat} (hthere : u.power = kind ∨ u.power = kind + 2) : u.stopRequest kind = (u, .ok, 0) := by
  simp [State.stopRequest, hthere]

section
variable {u : State} {kind : Nat} (hstate : u.power ≠ kind) (hentry : u.power ≠ kind + 2)
include hstate hentry

theorem stopRequest_may_not (hmay : u.mayStop = false) : u.stopRequest kind = (u, .badArg, 0) := by
  simp [State.stopRequest, hstate, hentry, hmay]

theorem stopRequest_owned {b : Nat × Nat} (hmay : u.mayStop = true) (howned : u.ownedBlock = some b) :
    u.stopRequest kind = (u.gateRefuse b.1 b.2, .notOwner, 0) := by
  simp [State.stopRequest, hstate, hentry, hmay, howned]

theorem stopRequest_begins (hmay : u.mayStop = true) (hfree : u.ownedBlock = none) :
    u.stopRequest kind =
      ({ (u.goingDown 0 (kind + 3) 0x09 0).goingDown 1 (kind + 3) 0x09 0 with power := kind + 2 }, .ok, 0) := by
  simp [State.stopRequest, hstate, hentry, hmay, hfree]

end

/-- Settles O56: each message by the rule for its body, a restart and a power request by their own rules. -/
theorem serviceMessages : Obligations.ServiceMessages := by
  refine ⟨?_, ?_, ?_, ?_, ?_, ?_, ?_, ?_, ?_, ?_, ?_, ?_, ?_, ?_, ?_, ?_, ?_, ?_, ?_, ?_, ?_, ?_, ?_, ?_, ?_⟩
  -- svcRead
  · rintro e m off bytes dst w s _ u rfl hu haccepts hbytes hoff hheld htake
    exact next_mbox_replies hu haccepts (by simp [hbytes, hoff.not_gt, hheld, withDst_written htake])
  · rintro e m off bytes dst s _ u rfl hu haccepts rfl
    exact next_mbox_replies hu haccepts (by simp)
  · rintro e m off bytes dst s _ u rfl hu haccepts hbytes hbeyond
    exact next_mbox_replies hu haccepts (by simp [hbytes, hbeyond])
  · rintro e m off bytes dst w s _ u rfl hu haccepts hbytes hoff hheld hdraw
    exact next_mbox_replies hu haccepts (by simp [hbytes, hoff.not_gt, hheld, withDst_written hdraw])
  -- svcRebuild
  · rintro e m badCores badBanks s _ u rfl hu haccepts hheld
    exact next_mbox_replies hu haccepts (by simp [hheld])
  · rintro e m badCores badBanks s _ u rfl hu haccepts hheld
    exact next_mbox_replies hu haccepts (by simp [hheld])
  -- portRestore
  · rintro e m passes s _ u rfl hu haccepts rfl hportRetired
    exact next_mboxW_later hu haccepts (by simp [hportRetired])
  · rintro e m passes s _ u rfl hu haccepts rfl hportRetired
    exact next_mboxW_later hu haccepts (by simp [hportRetired])
  · rintro e m passes s _ u rfl hu haccepts rfl
    exact next_mboxW_replies hu haccepts (by simp)
  -- halfRestartH
  · rintro e m half s _ u rfl hu haccepts hhalf hnormal
    exact next_mboxW_later hu haccepts (restartHalf_restarts hhalf hnormal)
  · rintro e m half s _ u rfl hu haccepts hbad
    exact next_mboxW_replies hu haccepts (restartHalf_refuses hbad)
  -- halfRestartM
  · rintro e m half s _ u rfl hu haccepts hhalf hnormal
    exact next_mboxW_later hu haccepts (restartHalf_restarts hhalf hnormal)
  · rintro e m half s _ u rfl hu haccepts hbad
    exact next_mboxW_replies hu haccepts (restartHalf_refuses hbad)
  -- attest
  · rintro e m nonce dst s _ u rfl hu haccepts hreach
    rcases hr : u.withDst e.half m dst (u.report e.half nonce) (u.report e.half nonce).length with ⟨w, st, pay⟩
    refine next_mbox_replies hu haccepts ?_
    cases horg : m.org with
    | teller v => simp [hreach v horg, hr]
    | _ => simp [hr]
  · rintro e m nonce dst v s _ u rfl hu haccepts horg hinWindows
    exact next_mbox_replies hu haccepts (by simp [horg, hinWindows])
  -- powerReqRun
  · rintro e m s _ u rfl hu haccepts
    exact next_mbox_replies hu haccepts (by simp)
  -- powerReqPark
  · rintro e m s _ u rfl hu haccepts hpower hentry hmayStop hownedBlock
    exact next_mbox_replies hu haccepts (stopRequest_begins hpower hentry hmayStop hownedBlock)
  · rintro e m s _ u rfl hu haccepts hpower
    exact next_mbox_replies hu haccepts (stopRequest_there hpower)
  · rintro e m s _ u rfl hu haccepts hpower hentry hmayStop
    exact next_mbox_replies hu haccepts (stopRequest_may_not hpower hentry hmayStop)
  · rintro e m b s _ u rfl hu haccepts hpower hentry hmayStop hownedBlock
    exact next_mbox_replies hu haccepts (stopRequest_owned hpower hentry hmayStop hownedBlock)
  -- powerReqSleep
  · rintro e m s _ u rfl hu haccepts hpower hentry hmayStop hownedBlock
    exact next_mbox_replies hu haccepts (stopRequest_begins hpower hentry hmayStop hownedBlock)
  · rintro e m s _ u rfl hu haccepts hpower
    exact next_mbox_replies hu haccepts (stopRequest_there hpower)
  · rintro e m s _ u rfl hu haccepts hpower hentry hmayStop
    exact next_mbox_replies hu haccepts (stopRequest_may_not hpower hentry hmayStop)
  · rintro e m b s _ u rfl hu haccepts hpower hentry hmayStop hownedBlock
    exact next_mbox_replies hu haccepts (stopRequest_owned hpower hentry hmayStop hownedBlock)
  · rintro e m opcode s _ u rfl hu haccepts hunlisted
    simp only [exec, execUnknownOpcode, hunlisted, Bool.false_eq_true, if_false]
    exact next_mbox_replies hu haccepts rfl
end Sys2Proof.Machine
end

section
/-! Firmware messages (R315, R390, R450, R463, R467). -/
set_option Elab.async false
namespace Sys2Proof.Machine
/-- Settles O57: each message by the rule for its body, a written package by whether its end is reached. -/
theorem firmwareMessages : Obligations.FirmwareMessages := by
  refine ⟨?_, ?_, ?_, ?_, ?_, ?_, ?_, ?_, ?_, ?_⟩
  -- fwWrite
  · rintro e m off bytes src l c s _ u rfl hu haccepts hsome hmax hend hread rfl hnotLast
    refine next_mbox_replies hu haccepts ?_
    have hslot : ¬slotSize_ < off + bytes := hend.not_gt
    simp [hsome, hmax.not_gt, hslot, withSrc_read hread, hnotLast]
  · rintro e m off bytes src s _ u rfl hu haccepts rfl
    exact next_mbox_replies hu haccepts (by simp)
  · rintro e m off bytes src s _ u rfl hu haccepts hmany
    have hsome : bytes ≠ 0 := by omega
    exact next_mbox_replies hu haccepts (by simp [hsome, hmany])
  · rintro e m off bytes src s _ u rfl hu haccepts hsome hmax hbeyond
    have hslot : slotSize_ < off + bytes := hbeyond
    exact next_mbox_replies hu haccepts (by simp [hsome, hmax.not_gt, hslot])
  · rintro e m off bytes src l c s _ u rfl hu haccepts hsome hmax hend hread rfl hbegins hends
    refine next_mbox_replies hu haccepts ?_
    have hslot : ¬slotSize_ < off + bytes := hend.not_gt
    simp only [hsome, hmax.not_gt, hslot, withSrc_read hread, hbegins.not_ge, hends.not_gt, decide_false, Bool.or_self, Bool.false_eq_true, if_false]
    split <;> rfl
  -- fwActivate
  · rintro e m mask s _ u rfl hu haccepts
    by_cases hok : u.fwCheck e.half mask false = .ok
    · rw [if_pos hok]
      exact next_mboxW_later hu haccepts (by simp only [hok])
    by_cases hbusy : u.fwCheck e.half mask false = .busyEmergency
    · rw [if_neg hok, if_pos hbusy]
      exact next_mboxW_replies hu haccepts (by simp only [hbusy])
    · rw [if_neg hok, if_neg hbusy]
      refine next_mboxW_replies hu haccepts ?_
      dsimp only
      split
      · contradiction
      · contradiction
      · rfl
  -- fwCommit
  · rintro e m n s _ u rfl hu haccepts rfl hequal
    exact next_mbox_replies hu haccepts (by simp [← hequal])
  · rintro e m s _ u rfl hu haccepts hrelease
    exact next_mbox_replies hu haccepts (by simp [hrelease])
  -- fwWithdraw
  · rintro e m s _ u rfl hu haccepts hdeferred
    exact next_mbox_replies hu haccepts (by simp [hdeferred])
  · rintro e m s _ u rfl hu haccepts hdeferred
    exact next_mbox_replies hu haccepts (by simp [hdeferred])
end Sys2Proof.Machine
end

section
/-! Displays and renders (R391, R424, R426, R434, R436, R437, R438, R440, R441, R481). -/
set_option Elab.async false
namespace Sys2Proof.Machine
/-- Settles O58: each row by its command's meaning, each configuration by the rule for its body. -/
theorem displays : Obligations.Displays := by
  refine ⟨?_, ?_, ?_, ?_, ?_, ?_, ?_, ?_, ?_, ?_, ?_, ?_, ?_, ?_, ?_, ?_⟩
  -- dspCfgPipe
  · rintro e m pipe src l w s _ u rfl hu haccepts hpipeHere hsrcBytes hw hpipeCfgOk hmayTurnOff
    rcases hmayTurnOff with hon | hopen
    · exact next_mboxL_stores hu haccepts (by simp [-List.getD_eq_getElem?_getD, hpipeHere, hsrcBytes, ← hw, hpipeCfgOk, hon])
    · exact next_mboxL_stores hu haccepts (by simp [hpipeHere, hsrcBytes, ← hw, hpipeCfgOk, hopen])
  · rintro e m pipe src s _ u rfl hu haccepts hpipeHere
    exact next_mboxL_refuses hu haccepts (by simp [hpipeHere]) (by decide)
  · rintro e m pipe src l s _ u rfl hu haccepts hpipeHere hsrcBytes hpipeCfgOk
    exact next_mboxL_refuses hu haccepts (by simp [hpipeHere, hsrcBytes, hpipeCfgOk]) (by decide)
  · rintro e m pipe src l s _ u rfl hu haccepts hpipeHere hsrcBytes hpipeCfgOk htellTale hsecureOwned
    exact next_mboxL_refuses hu haccepts (by simp [-List.getD_eq_getElem?_getD, hpipeHere, hsrcBytes, hpipeCfgOk, htellTale,
      hsecureOwned]) (by decide)
  -- dspCfgTelltale
  · rintro e m pipe src l s _ u rfl hu haccepts hpipeHere hsrcBytes
    exact next_mboxL_stores hu haccepts (by simp [hpipeHere, hsrcBytes])
  · rintro e m pipe src s _ u rfl hu haccepts hpipeHere
    exact next_mboxL_refuses hu haccepts (by simp [hpipeHere]) (by decide)
  · rintro e q run c g i head a st s t ht hc hg hnextIndex hgfxPosted hgfxChosen ha haccess hst
    simp [exec, execRender, ← ht, ← hc, ← hg, hnextIndex, hgfxPosted, hgfxChosen, ← ha, haccess, hst]
  · rintro e q run c g i head a p ps s t ht hc hg hgfxPosted hgfxChosen hnextIndex ha haccess hraw hrecord hgfxOpen
    simp [exec, execRender, ← ht, ← hc, ← hg, hgfxPosted, hgfxChosen, hnextIndex, ← ha, haccess, hraw, hrecord, hgfxOpen]
  · rintro e q run c g i head a s t ht hc hg hgfxPosted hgfxChosen hnextIndex ha haccess hraw hrecord hgfxOpen
    simp [exec, execRender, ← ht, ← hc, ← hg, hgfxPosted, hgfxChosen, hnextIndex, ← ha, haccess, hraw, hrecord, hgfxOpen]
  · rintro e q run c g i head a st s t ht hc hg hgfxPosted hgfxChosen hnextIndex ha haccess hraw hrecord
    simp [exec, execRender, ← ht, ← hc, ← hg, hgfxPosted, hgfxChosen, hnextIndex, ← ha, haccess, hraw, hrecord]
  · rintro e pipe nextS u s t ht hrimUp hnextS henable hu henableNew httOnly hblanked
    simp [exec, execVerticalBlank, ← ht, hrimUp, hnextS.not_gt, henable, ← hu, henableNew, httOnly, hblanked]
  · rintro e pipe nextS u s t ht hrimUp hnextS henable hu henableNew httOnly
    simp [exec, execVerticalBlank, ← ht, hrimUp, hnextS.not_gt, henable, ← hu, henableNew, httOnly]
  · rintro e pipe nextS u s t ht hrimUp hnextS henable hu henableNew
    simp [exec, execVerticalBlank, ← ht, hrimUp, hnextS.not_gt, henable, ← hu, henableNew]
  · rintro e pipe crcs s t ht hrimUp hghReset henable hlinkUp
    simp [exec, execTelltaleCrcCompare, ← ht, hrimUp, hghReset, henable, hlinkUp]
  · rintro e pipe crcs s t ht hrimUp hghReset henable hlinkUp hlinkDownVt
    have hlate : ((t.half e.half).pipe (pipe % 2)).linkDownVt + linkFailNs ≤ (t.half e.half).vt.toNat := hlinkDownVt
    simp [exec, execTelltaleCrcCompare, ← ht, hrimUp, hghReset, henable, hlinkUp, hlate.not_gt]
  · rintro e pipe up s t ht hrimUp
    simp [exec, execDisplayLinkChange, ← ht, hrimUp]
end Sys2Proof.Machine
end

section
/-! Doors of vaults (R473, R474, R475, R476, R477, R478, R479, R480, R485, R487). -/
set_option Elab.async false
namespace Sys2Proof.Machine

/-- A door function reaches the Gatehouse while its controller runs (R478). -/
theorem viaController_runs {t : State} {h : Nat} {op : DoorOp} (hruns : (t.half h).tally.ghReset = false) : t.viaController h op = t.doDoor h op := by
  simp [State.viaController, hruns]

/-- It waits while the controller resets. -/
theorem viaController_waits {t : State} {h : Nat} {op : DoorOp} (hresets : (t.half h).tally.ghReset = true) :
    t.viaController h op = t.upd h fun x => { x with vaults := { x.vaults with waiting := x.vaults.waiting ++ [op] } } := by
  simp [State.viaController, hresets]

/-- Settles O59: each function by its command's meaning; it reaches the Gatehouse or waits by the controller's state. -/
theorem doors : Obligations.Doors := by
  refine ⟨?_, ?_, ?_, ?_, ?_, ?_, ?_, ?_, ?_, ?_, ?_, ?_, ?_, ?_, ?_, ?_, ?_, ?_, ?_, ?_, ?_, ?_, ?_, ?_, ?_, ?_, ?_, ?_, ?_, ?_, ?_, ?_, ?_, ?_⟩
  · rintro e hart vault entry save raw pc s t ht hrunsHart hnormalWorld hvault hraw hvtState hdoor hbits hvtHarts
    simp [exec, execDoorCall, ← ht, hrunsHart, hnormalWorld, hvault.not_ge, ← hraw, hvtState, hdoor, hbits, hvtHarts]
  · rintro e hart vault entry save s t ht hrunsHart hnormalWorld
    simp [exec, execDoorCall, ← ht, hrunsHart, hnormalWorld]
  · rintro e hart vault entry save s t ht hrunsHart hnormalWorld (hvault | hstate | hdoor)
    · simp [exec, execDoorCall, ← ht, hrunsHart, hnormalWorld, hvault]
    · simp [exec, execDoorCall, ← ht, hrunsHart, hnormalWorld, hstate]
    · simp [exec, execDoorCall, ← ht, hrunsHart, hnormalWorld, hdoor]
  · rintro e hart vault entry save raw pc s t ht hrunsHart hnormalWorld hvault hraw hvtState hdoor hbits
    simp [exec, execDoorCall, ← ht, hrunsHart, hnormalWorld, hvault.not_ge, ← hraw, hvtState, hdoor, hbits]
  · rintro e hart a0 a1 s t ht hrunsHart hnormalWorld
    simp [exec, execDoorRet, ← ht, hrunsHart, hnormalWorld]
  · rintro e hart a0 a1 s t ht hrunsHart hnormalWorld
    simp [exec, execDoorRet, ← ht, hrunsHart, hnormalWorld]
  · rintro e hart mode addr s t ht hrunsHart hnormalWorld hmayBuild hghReset
    simp [exec, execDoorCreate, ← ht, hrunsHart, hnormalWorld, hmayBuild, viaController_runs hghReset, State.doDoor]
  · rintro e hart mode addr s t ht hrunsHart hnormalWorld hmayBuild hghReset
    simp [exec, execDoorCreate, ← ht, hrunsHart, hnormalWorld, hmayBuild, viaController_waits hghReset]
  · rintro e hart mode addr s t ht hrunsHart hnormalWorld
    simp [exec, execDoorCreate, ← ht, hrunsHart, hnormalWorld]
  · rintro e vault s t ht hraw hghReset
    simp [exec, execVaultSealDone, ← ht, hraw, hghReset]
  · rintro e vault s t ht hraw
    simp [exec, execVaultSealDone, ← ht, hraw]
  · rintro e hart mode vault s t ht hrunsHart hvault hmayBuild hghReset
    simp [exec, execDoorDestroy, ← ht, hrunsHart, hvault, hmayBuild, viaController_runs hghReset, State.doDoor]
  · rintro e hart mode vault s t ht hrunsHart hvault hghReset
    simp [exec, execDoorDestroy, ← ht, hrunsHart, hvault, viaController_runs hghReset, State.doDoor]
  · rintro e hart mode vault n s t ht hrunsHart hvault hn
    simp [exec, execDoorDestroy, ← ht, hrunsHart, hvault, hn]
  · rintro e hart mode vault s t ht hrunsHart hvault hmayBuild
    simp [exec, execDoorDestroy, ← ht, hrunsHart, hvault, hmayBuild]
  · rintro e hart mode vault s t ht hrunsHart hvault hmayBuild hghReset
    simp [exec, execDoorDestroy, ← ht, hrunsHart, hvault, hmayBuild, viaController_waits hghReset]
  · rintro e vault s t ht hraw
    simp [exec, execVaultDestroyDone, ← ht, hraw]
  · rintro e vault s t ht hraw
    simp [exec, execVaultDestroyDone, ← ht, hraw]
  · rintro e hart addr n s t ht hrunsHart hvault hraw hghReset
    simp [exec, execDoorSubmit, ← ht, hrunsHart, hvault, hraw, viaController_runs hghReset, State.doDoor]
  · rintro e hart addr s t ht hrunsHart hvault hlifecycle hghReset
    simp [exec, execDoorSubmit, ← ht, hrunsHart, hvault, hlifecycle, viaController_runs hghReset, State.doDoor]
  · rintro e hart addr n s t ht hrunsHart hvault hraw hghReset
    simp [exec, execDoorSubmit, ← ht, hrunsHart, hvault, hraw, viaController_waits hghReset]
  · rintro e hart addr s t ht hrunsHart hvault hlifecycle
    simp [exec, execDoorSubmit, ← ht, hrunsHart, hvault, hlifecycle]
  · rintro e hart code s t ht hrunsHart hmayClaim hghReset
    simp [exec, execDoorClaim, ← ht, hrunsHart, hmayClaim, viaController_runs hghReset, State.doDoor]
  · rintro e hart code s t ht hrunsHart hmayClaim hghReset
    simp [exec, execDoorClaim, ← ht, hrunsHart, hmayClaim, viaController_waits hghReset]
  · rintro e hart code s t ht hrunsHart hmayClaim
    simp [exec, execDoorClaim, ← ht, hrunsHart, hmayClaim]
  · rintro e hart code s t ht hrunsHart hmayClaim hghReset
    simp [exec, execDoorRelease, ← ht, hrunsHart, hmayClaim, viaController_runs hghReset, State.doDoor]
  · rintro e hart code s t ht hrunsHart hmayClaim hghReset
    simp [exec, execDoorRelease, ← ht, hrunsHart, hmayClaim, viaController_waits hghReset]
  · rintro e hart code s t ht hrunsHart hmayClaim
    simp [exec, execDoorRelease, ← ht, hrunsHart, hmayClaim]
  · rintro e hart addr label s t ht hrunsHart hnormalWorld hghReset
    simp [exec, execDoorKey, ← ht, hrunsHart, hnormalWorld, viaController_runs hghReset, State.doDoor]
  · rintro e hart addr label s t ht hrunsHart hnormalWorld hghReset
    simp [exec, execDoorKey, ← ht, hrunsHart, hnormalWorld, viaController_waits hghReset]
  · rintro e hart addr label s t ht hrunsHart hnormalWorld
    simp [exec, execDoorKey, ← ht, hrunsHart, hnormalWorld]
  · rintro e record s t ht hes hrimUp hghReset
    simp [exec, execDebugUnlock, ← ht, hes, hrimUp, viaController_runs hghReset, State.doDoor]
  · rintro e record s t ht hes hrimUp hghReset
    simp [exec, execDebugUnlock, ← ht, hes, hrimUp, viaController_waits hghReset]
  · rintro e record s t ht hes
    simp [exec, execDebugUnlock, ← ht, hes]
end Sys2Proof.Machine
end

section
/-! Vault exits, interrupts, refusals and fabric faults (R17, R28, R29, R30, R469, R470, R477, R478, R479, R518). -/
set_option Elab.async false
namespace Sys2Proof.Machine
/-- Settles O60: each row by its command's meaning, by the hart's world and by the master refused. -/
theorem vaultEvents : Obligations.VaultEvents := by
  refine ⟨?_, ?_, ?_, ?_, ?_, ?_, ?_, ?_, ?_, ?_, ?_, ?_, ?_, ?_, ?_, ?_⟩
  · rintro e hart n s t ht hvault hraw
    simp [exec, execVaultQuantumExpiry, ← ht, hvault, hraw.not_gt]
  · rintro e hart n s t ht hvault hwithin
    simp [exec, execVaultQuantumExpiry, ← ht, hvault, hwithin]
  · rintro e hart cause n s t ht hvault
    simp [exec, execVaultException, ← ht]
  · rintro e hart cause s t ht hvault
    simp [exec, execVaultException, ← ht, State.vaultFault, hvault]
  · rintro e hart ident save s t ht hrunsHart hidents hvault
    simp [exec, execSecureInterrupt, ← ht, hrunsHart, State.interrupt, hidents, hvault]
  · rintro e hart ident save s t ht hrunsHart hvault
    simp [exec, execSecureInterrupt, ← ht, hrunsHart, State.interrupt, hvault]
  · rintro e hart ident save s t ht hrunsHart hidents hvault
    simp [exec, execSecureInterrupt, ← ht, hrunsHart, State.interrupt, hidents, hvault]
  · rintro e vault who n s t ht hraw rfl
    simp [exec, execVaultFilterRefusal, ← ht, hraw]
  · rintro e vault who p i s t ht hraw rfl
    simp [exec, execVaultFilterRefusal, ← ht, hraw]
  · rintro e vault who s t ht hraw (rfl | rfl)
    · simp [exec, execVaultFilterRefusal, ← ht, hraw]
    · simp [exec, execVaultFilterRefusal, ← ht, hraw]
  · rintro e vault who s t ht hraw
    simp [exec, execVaultFilterRefusal, ← ht, hraw]
  · rintro e who addr n s t ht rfl hpresent
    simp [exec, execFabricOutOfRange, ← ht, hpresent]
  · rintro e who addr n s t ht rfl hpresent happRefused
    simp [exec, execFabricOutOfRange, ← ht, hpresent, happRefused]
  · rintro e who addr s t ht (rfl | rfl) hpresent
    · simp [exec, execFabricOutOfRange, ← ht, hpresent]
    · simp [exec, execFabricOutOfRange, ← ht, hpresent]
  · rintro e who addr p i s t ht rfl hreaches
    simp [exec, execFabricOutOfRange, ← ht, hreaches]
  · rintro e s t ht henable hcarries
    simp [exec, execSerrHbToggle, ← ht, henable, hcarries]
end Sys2Proof.Machine
end
